-- ==== Sys2Proof/Word.lean ====
section
/-! DEFINITION. The word types of the part and the sparse map that holds indexed state as plain data. -/

namespace Sys2Proof

/-- A byte of the part's memory. -/
abbrev Byte := BitVec 8

/-- A 32-bit register word (R7, R11). -/
abbrev Word := BitVec 32

/-- A 64-bit word: a needle scalar, a ply word, a time stamp. -/
abbrev DWord := BitVec 64

/-- State held by index: an association list. Its canonical form has strictly rising keys and lists no
entry equal to what an unlisted key reads as. -/
abbrev SMap (α : Type) := List (Nat × α)

end Sys2Proof
end

