-- ==== Sys2Proof/Syntax.lean ====
section
/-! DEFINITION. The commands of the part: one constructor of Instr for each row of spec/opcode_table.json, with
the operands that come from outside (register accesses, received records, instants, test results). -/

namespace Sys2Proof

/-- Who makes a register access (R725 to R731): PF0 of a host port, a slice's doorbell page through a port with or
without a PASID, Spindle's own access, or the board controller. -/
inductive Via where
  | pf0 (port : Nat)
  | page (slice port : Nat) (pasid : Option Nat)
  | spindle
  | board
  /-- The MSI-X table of function `fn` of a port, at its own offsets. -/
  | msix (port fn : Nat)
  /-- A configuration write to an extended capability, by its ID, of function `fn` of a port, at offsets in it. -/
  | config (port fn cap : Nat)
  /-- The NVMe registers of PF2 of a port. -/
  | nvme (port : Nat)
  deriving DecidableEq, Repr

/-- A register access (R11): a write, or a read, of the `size` bytes from byte offset `off`; bit i of `be` enables byte
i of them, and `data` holds them little-endian. -/
structure Access where
  isWrite : Bool
  off : Nat
  size : Nat
  be : Nat
  data : Nat
  deriving DecidableEq, Repr

/-- A Twist record piece (R204 to R209): the header's fields and the payload bytes of this piece. -/
structure TwistRec where
  collId : Nat
  epoch : Nat
  block : Nat
  spanLo : Nat
  spanCnt : Nat
  type : Nat
  round : Nat
  miss : Bool
  poison : Bool
  special : Bool
  format : Nat
  gauge : Nat
  obs : Nat
  piece : Nat
  pieces : Nat
  len : Nat
  tensor : Nat
  srcPart : Nat
  srcEp : Nat
  payload : List (BitVec 8)
  deriving DecidableEq, Repr

/-- What ECC finds while a needle executes an instruction: corrected scratch and program buffer errors, and the scratch
words (address / 8) it reads that have an uncorrected error (R263, R264). -/
structure Ecc where
  ce : Nat
  ue : List Nat
  deriving DecidableEq, Repr

/-- What a kept piece waits for (R211, R225, R627): the identity a TWIST_ACK names. -/
structure AckKey where
  collId : Nat
  epoch : Nat
  block : Nat
  piece : Nat
  spanLo : Nat
  spanCnt : Nat
  round : Nat
  type : Nat
  deriving DecidableEq, Repr

/-- A copy of a shard that a part holds (R549): the shard's part and slice, and the step. -/
structure CopyAt where
  part : Nat
  slice : Nat
  step : Nat
  deriving DecidableEq, Repr

/-- A PROPOSE message (R543): round, next membership epoch, proposed parts, lost endpoints as part and endpoint; and
the resume step that a handover or a restore asks for (R561, R566). -/
structure Proposal where
  round : Nat
  epoch : Nat
  parts : List Nat
  lostEps : List (Nat × Nat)
  resume : Option Nat
  restore : Bool
  deriving DecidableEq, Repr

/-- A part entry of a membership record (R548). -/
structure PartEntry where
  part : Nat
  lost : Bool
  holder : Bool
  shardPart : Nat
  shardSlice : Nat
  deriving DecidableEq, Repr

/-- A commit message (R548): the resume step, none for RESTORE_NEEDED (R550); `restore` for a restore (R567); `handover`
for the handover of R561; the members as part and slice. -/
structure Commit where
  epoch : Nat
  resume : Option Nat
  coord : Nat
  entries : List PartEntry
  lostEps : List (Nat × Nat)
  members : List (Nat × Nat)
  restore : Bool
  handover : Bool
  deriving DecidableEq, Repr

/-- A pushed page (R527): its shard and checkpoint step, the die and page index in the state region, its bytes by
offset, and whether it goes to a replacement's state region (R559). -/
structure PushedPage where
  part : Nat
  slice : Nat
  step : Nat
  die : Nat
  page : Nat
  bytes : List (Nat × BitVec 8)
  toState : Bool
  deriving DecidableEq, Repr

/-- What the Pattern says of one link (R572, R851): mode and FEC as in LNK_n_CTL, the peer as an endpoint or a part, and
the REQUIRED flag. -/
structure PatLink where
  link : Nat
  mode : Nat
  fec : Nat
  /-- The peer is an endpoint of UID `peerUid`, attached as endpoint `ep`. -/
  toEp : Bool
  ep : Nat
  peerUid : Nat
  peerPart : Nat
  peerLink : Nat
  required : Bool
  deriving DecidableEq, Repr

/-- A buddy map entry (R513): a shard, by part and slice, and its buddy. -/
structure BuddyEntry where
  part : Nat
  slice : Nat
  bPart : Nat
  bSlice : Nat
  deriving DecidableEq, Repr

/-- The Pattern (R844), section by section. `regs` are the register words that it loads in APPLY as they stand: route,
endpoint and group entries, and the settings of the Ethernet ports, groups, policers and queues; `rules` the Ethernet
rules, by die and index. -/
structure Pattern where
  variants : Nat := 0
  partId : Nat := 0
  paired : Bool := false
  mirrored : Bool := false
  mirrorHalt : Bool := false
  sysTag : Nat := 0
  slices : Nat := 1
  rowKinds : List Nat := []
  parts : List Nat := []
  beatOn : Bool := false
  beatExternal : Bool := false
  stepOnBeat : Bool := false
  beatPeriod : Nat := 0
  beatWidth : Nat := 0
  tallyBase : Nat := 0
  tallyLog2 : Nat := 16
  trapBase : Nat := 0
  logBase : Nat := 0
  logLog2 : Nat := 14
  trigBase : Nat := 0
  links : List PatLink := []
  topoWait : Nat := 1000
  regs : List (Nat × Nat) := []
  rules : List (Nat × Nat × List Nat) := []
  vcfg : Nat := 0x028A02EE
  tbSrc : Nat := 0
  telCfg : Nat := 0
  telMask : Nat := 0
  /-- Collector of telemetry: address, UDP port, Ethernet port (R897). -/
  collector : Nat × Nat × Nat := (0, 0, 0)
  buddies : List BuddyEntry := []
  watch : List Nat := []
  /-- Some reserved field is not 0. -/
  reserved : Bool := false
  deriving DecidableEq, Repr

/-- A job tally record of the other half of a mirrored twin (R126, R127). -/
structure PeerTally where
  tensor : Nat
  digest : Nat
  elements : Nat
  poisoned : Nat
  flags : Nat
  deriving DecidableEq, Repr

/-- A request that reaches an arbiter (R427 to R434): requester index, base class, bytes, and the slice it serves. -/
structure ArbReq where
  idx : Nat
  base : Nat
  len : Nat
  slice : Nat
  deriving DecidableEq, Repr

/-- What a link delivers for one flit (R576 to R578, R597): in Tight mode the groups of four codewords received since the
last flit, as the 256 bits of each lane (in DEGRADED the 512 bits of the live lane as the first number); in Loose mode the
flit's bytes after the RS decoder, which corrected `corr` codewords and failed on `unc`. `lost` says that block lock is
lost or that a RETRAIN CTRL flit came; `idle` that the output it would be forwarded on is idle in the slot (R604). -/
structure FlitRx where
  groups : List (Nat × Nat)
  loose : List (BitVec 8)
  corr : Nat
  unc : Nat
  lost : Bool
  idle : Bool
  deriving DecidableEq, Repr

/-- A PTP message as Spindle reads it (R715): two-step Sync and its Follow_Up with the origin time, a Delay_Resp with the
master's receive time, and another clock's Delay_Req. -/
inductive PtpMsg where
  | sync (seq : Nat)
  | followUp (seq origin : Nat)
  | delayResp (seq receive : Nat)
  | delayReq (seq : Nat)
  deriving DecidableEq, Repr

/-- A TLP's payload (R754): its offset in the transfer, its bytes, and whether it came with EP set. -/
structure HostChunk where
  off : Nat
  bytes : List (BitVec 8)
  ep : Bool
  deriving DecidableEq, Repr

/-- Host data that has come in full for the oldest unfinished copy of queue `queue` of slice `slice`. -/
structure CopyArrival where
  slice : Nat
  queue : Nat
  data : List HostChunk
  deriving DecidableEq, Repr

/-- What a failed DMA read was for (R756): a copy queue's oldest copy, or the command that the NVMe controller has taken. -/
inductive DmaUnit where
  | copy (slice queue : Nat)
  | nvme (port : Nat)
  deriving DecidableEq, Repr

/-- A submission queue entry (NVM Express Base 2.0): opcode, PRP or not, first PRP entry, command identifier, namespace, and command dwords
10 to 13. -/
structure NvmeEntry where
  opc : Nat
  psdt : Nat
  prp1 : Nat
  cid : Nat
  nsid : Nat
  cdw10 : Nat
  cdw11 : Nat
  cdw12 : Nat
  cdw13 : Nat
  deriving DecidableEq, Repr

/-- What a flash slot holds, or an image that STAGE reads (R839): the certificate area of 8 KiB, the header of 4 KiB, the chunk table and
the body. -/
structure SlotImage where
  cert : List (BitVec 8)
  header : List (BitVec 8)
  table : List (BitVec 8)
  body : List (BitVec 8)
  deriving DecidableEq, Repr

/-- A message of a firmware distribution (R866): the header with its certificate, the chunk table, a chunk, and END. -/
inductive FwMsg where
  | header (kind : Nat) (cert header : List (BitVec 8))
  | table (bytes : List (BitVec 8))
  | chunk (index : Nat) (bytes : List (BitVec 8))
  | finish
  deriving DecidableEq, Repr

/-- What a target of a distribution or activation reports (R868, R869). -/
inductive FwAnswer where
  | staged
  | failed (status : Nat)
  | ready
  | refuse (status : Nat)
  deriving DecidableEq, Repr

/-- A memory row that failed a start-time test, and whether it could be repaired (R849). `unit` is a stack or a hank segment, `sub` a
pseudo-channel. -/
structure BadRow where
  die : Nat
  unit : Nat
  sub : Nat
  addr : Nat
  repaired : Bool
  deriving DecidableEq, Repr

/-- What the start-time tests find (R849): row slots by die, panel and slot; lane circuits by chiplet and circuit; memory rows; stacks
that fail training, by die and stack; dies that fail their self-test; Spindle cores that fail. -/
structure TestResults where
  rows : List (Nat × Nat × Nat)
  lanes : List (Nat × Nat)
  hank : List BadRow
  hbm : List BadRow
  training : List (Nat × Nat)
  dies : List Nat
  cores : List Nat
  deriving DecidableEq, Repr

/-- A reading of an AVSBus interface (R878): voltage in mV and current in A, none when no frame was answered; and how many frames were
sent again (R879). -/
structure AvsRead where
  read : Option (Nat × Nat)
  again : Nat
  deriving DecidableEq, Repr

/-- The commands of the block: one constructor for each row of spec/opcode_table.json. -/
inductive Instr where
  /-- REGISTER_WRITE (R925): A write to a register with no row of its own sets its fields or is rejected and recorded in GLB_WR_REJ_STAT and GLB_WR_REJ_ADDR. -/
  | registerWrite (via : Via) (a : Access)
  /-- SC_WRITE_BACK (R15): A write to an SC register clears the flags written as 1 only when the written SEQ matches. -/
  | scWriteBack (via : Via) (a : Access)
  /-- TV_READ (R19): A TV read returns the majority of three copies, rewrites a differing copy and counts GLB_TV_FIX. -/
  | tvRead (via : Via) (a : Access)
  /-- SNAP_GO (R22): A write of <BLK>_SNAP.GO starts or arms a copy of the block's counters into its holding registers, zeroing the live counters when CLR is set. -/
  | snapGo (blk : Nat) (clr : Bool)
  /-- GLB_SNAP_GO (R924): A write of GLB_SNAP.GO starts or arms one copy of every block at a common copy instant. -/
  | glbSnapGo (clr : Bool)
  /-- SNAP_COPY_END (R25): A running copy ends, which increments SNAP_SEQ and starts any copy armed behind it. -/
  | snapCopyEnd (blk : Nat)
  /-- JOB_OPEN (R81): OPEN checks the job descriptor and keeps the seed, S, members and tally set, sets the step counter and epoch, and clears history and draw counters. -/
  | jobOpen (via : Via) (n : Nat) (v : Word)
  /-- JOB_CLOSE (R82): CLOSE completes in-flight collectives with 0x0651, closes the slice's feeds and forgets the job. -/
  | jobClose (via : Via) (n : Nat) (v : Word)
  /-- BEAT_INTERNAL_BOUNDARY (R92): Under source INTERNAL, a boundary is placed at every time-base multiple of P. -/
  | beatInternalBoundary (t : Nat)
  /-- BEAT_PULSE (R96): A BEAT_SYNC pulse is placed as a boundary, ignored as EARLY, or taken as RELOCK, by beat state. -/
  | beatPulse (t : Nat)
  /-- BEAT_GLITCH (R94): A high level on BEAT_SYNC shorter than 50 ns is ignored, flagged GLITCH and counted. -/
  | beatGlitch (t : Nat)
  /-- BEAT_LATE (R96): No pulse by E + W in LOCKED places a boundary at E + W, enters HOLDOVER and counts a slip. -/
  | beatLate (t : Nat)
  /-- HOLDOVER_BOUNDARY (R96): No pulse by B + P in HOLDOVER places an internal boundary at B + P. -/
  | holdoverBoundary (t : Nat)
  /-- BEAT_OUT_RISE (R99): BEAT_OUT rises 100 ns after a boundary. -/
  | beatOutRise (t : Nat)
  /-- BEAT_OUT_FALL (R99): BEAT_OUT falls WIDTH_US microseconds after it rose. -/
  | beatOutFall (t : Nat)
  /-- TALLY_EXCHANGE (R127): A mirrored half receives the other half's job tally records for a step, compares them and on difference sets DIVERGE and applies the mirror action. -/
  | tallyExchange (n step : Nat) (other : List PeerTally)
  /-- TWS_QUEUE_ENABLE (R931): A write setting TWS_Qn_DQ_SIZE.EN checks both rings' bases and sizes and enables fetching from the queue. -/
  | twsQueueEnable (via : Via) (n : Nat) (v : Word)
  /-- TWS_DQ_TAIL_WRITE (R257): A write of the descriptor ring tail posts descriptors, or is rejected with 0x0252 when too far ahead. -/
  | twsDqTailWrite (via : Via) (n : Nat) (v : Word)
  /-- TWS_CQ_HEAD_WRITE (R258): A write of the completion ring head frees records, releasing completions held for lack of room. -/
  | twsCqHeadWrite (via : Via) (n : Nat) (v : Word)
  /-- DESCRIPTOR_FETCH (R203): The part fetches and validates a collective descriptor, rejecting it with a completion record on the first failing check. -/
  | descriptorFetch (n : Nat)
  /-- DESCRIPTOR_START (R220): A fetched descriptor starts, clearing its accumulator region and forming records from its local source buffer. -/
  | descriptorStart (coll : Nat)
  /-- DESCRIPTOR_ARM (R244): A descriptor with ARM_EN starts when its trigger counter reaches ARM_VAL. -/
  | descriptorArm (coll : Nat)
  /-- CONTRIB_RECEIVE (R223): A CONTRIB record piece is checked for epoch, round, duplicates and conflicts, its terms are added or MISS set, and it is acknowledged. -/
  | contribReceive (r : TwistRec)
  /-- GAUGE_BYTES_RECEIVE (R247): A GAUGE_BYTES record is combined by bytewise maximum and forwarded or sent as a RESULT group. -/
  | gaugeBytesReceive (r : TwistRec)
  /-- RESULT_RECEIVE (R239): A RESULT block is written to OUT_ADDR or the gauge table and delivered to local endpoints, or discarded as a duplicate. -/
  | resultReceive (r : TwistRec)
  /-- REDO_RECEIVE (R235): A REDO empties the block's slot, sets round 1 and the redo gauge, notifies endpoints and re-reads local sources. -/
  | redoReceive (r : TwistRec)
  /-- REDO_PENDING_START (R235): A REDO waiting for a busy slot is applied once the slot frees. -/
  | redoPendingStart (coll block : Nat)
  /-- FINAL_RECEIVE (R242): A FINAL record from an owner counts toward REDUCE_SCATTER completion. -/
  | finalReceive (r : TwistRec)
  /-- GNOTE_RECEIVE (R233): A GNOTE writes its OBS bytes into the member's pending table. -/
  | gnoteReceive (r : TwistRec)
  /-- TOKEN_RECEIVE (R249): A BARRIER TOKEN sets its member's bit and adds its tally entries, and member 0 sends RELEASE when all M are in. -/
  | tokenReceive (r : TwistRec)
  /-- RELEASE_RECEIVE (R250): A BARRIER RELEASE writes the job-scope tally records to the tally ring. -/
  | releaseReceive (r : TwistRec)
  /-- TWIST_ACK_RECEIVE (R210): An ACK or NAK for a sent piece ends its keeping, frees a forwarded slot or restarts its timer. -/
  | twistAckReceive (peer : Nat) (key : AckKey) (code : Nat)
  /-- TWIST_RETX_TIMEOUT (R211): A piece's timeout expires, so it is retransmitted with a doubled timeout, or the descriptor completes with 0x0650 at RETRY_LIMIT. -/
  | twistRetxTimeout (peer : Nat) (key : AckKey)
  /-- BLOCK_ACK_RECEIVE (R629): An endpoint's BLOCK_ACK for a delivered result block counts toward completion. -/
  | blockAckReceive (ep coll epoch block : Nat)
  /-- COLLECTIVE_COMPLETE (R242): A descriptor meets its completion condition, sends COMPLETE to endpoints, writes its completion record and increments DONE_CTR. -/
  | collectiveComplete (coll : Nat)
  /-- STEP_END_COMPLETE (R927): A STEP_END descriptor completes once every earlier descriptor of its step has completed and the counter stands at k, advancing the step or failing with 0x0258. -/
  | stepEndComplete (coll : Nat)
  /-- ROW_LOAD (R280): LOAD checks kinds and header and multicasts a program image to the target rows in chunks. -/
  | rowLoad (via : Via) (n : Nat) (v : Word)
  /-- LOAD_PASS_END (R282): The loader ends a pass, and each row with an incomplete bitmap sends a repair request. -/
  | loadPassEnd (n : Nat) (bad : List (Nat × List Nat))
  /-- REPAIR_REQUEST (R282): The loader receives a row's repair request and resends the missing chunks to that row. -/
  | repairRequest (row : Nat) (bad : List Nat)
  /-- ROW_DIGEST_CHECK (R283): A row finishes hashing its image and acknowledges, requests the whole image, or faults with LOAD_EXHAUSTED. -/
  | rowDigestCheck (row : Nat)
  /-- ROW_START (R327): START checks header segments and initialises every needle's state, taking the row to RUNNING. -/
  | rowStart (via : Via) (n : Nat) (v : Word)
  /-- ROW_PAUSE (R296): PAUSE sends the row toward its next safe point. -/
  | rowPause (via : Via) (n : Nat) (v : Word)
  /-- PAUSE_TIMEOUT (R296): A row that misses its pause limit has the pause withdrawn, continues RUNNING and completes with 0x0262. -/
  | pauseTimeout (row : Nat)
  /-- ROW_RESUME (R299): RESUME continues a PAUSED row from its safe point. -/
  | rowResume (via : Via) (n : Nat) (v : Word)
  /-- ROW_SAVE (R300): SAVE writes the row's context image and zeroes it, leaving it IDLE. -/
  | rowSave (via : Via) (n : Nat) (v : Word)
  /-- ROW_RESTORE (R301): RESTORE checks the image's program digest, kind and image digest and loads it, leaving the row PAUSED. -/
  | rowRestore (via : Via) (n : Nat) (v : Word)
  /-- ROW_STOP (R289): STOP halts every needle at its next instruction boundary and returns the row to LOADED. -/
  | rowStop (via : Via) (n : Nat) (v : Word)
  /-- ROW_RETIRE (R311): RETIRE ledgers the row's slot and moves the row to a spare slot, or leaves it ABSENT. -/
  | rowRetire (via : Via) (n : Nat) (v : Word)
  /-- ROW_HANG (R305): A row with no internal progress for HANG_MS enters FAULT with cause HANG. -/
  | rowHang (row : Nat)
  /-- PBUF_UE (R264): An uncorrected program buffer error puts the row into FAULT. -/
  | pbufUe (row : Nat)
  /-- ROW_FAULT_RECOVERY (R313): Spindle retires a faulted row serving a job and reports a membership change to that job. -/
  | rowFaultRecovery (row : Nat)
  /-- PACE_UPDATE (R277): Every 1 ms the part updates NDL_PACEd from a replica path. -/
  | paceUpdate (die pace : Nat)
  /-- ALU_ADD (R337): ADD sets gD to gA + gB with flags. -/
  | aluAdd (row needle : Nat) (ecc : Ecc)
  /-- ALU_SUB (R337): SUB sets gD to gA − gB with flags. -/
  | aluSub (row needle : Nat) (ecc : Ecc)
  /-- ALU_AND (R337): AND forms the bitwise and. -/
  | aluAnd (row needle : Nat) (ecc : Ecc)
  /-- ALU_OR (R337): OR forms the bitwise or. -/
  | aluOr (row needle : Nat) (ecc : Ecc)
  /-- ALU_XOR (R337): XOR forms the bitwise exclusive or. -/
  | aluXor (row needle : Nat) (ecc : Ecc)
  /-- ALU_SHL (R337): SHL shifts left by gB[5:0]. -/
  | aluShl (row needle : Nat) (ecc : Ecc)
  /-- ALU_SHR (R337): SHR shifts logically right by gB[5:0]. -/
  | aluShr (row needle : Nat) (ecc : Ecc)
  /-- ALU_SAR (R337): SAR shifts arithmetically right by gB[5:0]. -/
  | aluSar (row needle : Nat) (ecc : Ecc)
  /-- MUL (R337): MUL gives the low 64 bits of the product. -/
  | mul (row needle : Nat) (ecc : Ecc)
  /-- MULHU (R337): MULHU gives the high 64 bits of the unsigned product. -/
  | mulhu (row needle : Nat) (ecc : Ecc)
  /-- MULHS (R337): MULHS gives the high 64 bits of the signed product. -/
  | mulhs (row needle : Nat) (ecc : Ecc)
  /-- MINS (R337): MINS gives the signed minimum. -/
  | mins (row needle : Nat) (ecc : Ecc)
  /-- MAXS (R337): MAXS gives the signed maximum. -/
  | maxs (row needle : Nat) (ecc : Ecc)
  /-- MINU (R337): MINU gives the unsigned minimum. -/
  | minu (row needle : Nat) (ecc : Ecc)
  /-- MAXU (R337): MAXU gives the unsigned maximum. -/
  | maxu (row needle : Nat) (ecc : Ecc)
  /-- CMP (R337): CMP sets flags of gA − gB. -/
  | cmp (row needle : Nat) (ecc : Ecc)
  /-- MOV (R337): MOV copies gA to gD. -/
  | mov (row needle : Nat) (ecc : Ecc)
  /-- POPC (R337): POPC counts the 1 bits of gA. -/
  | popc (row needle : Nat) (ecc : Ecc)
  /-- CLZ (R337): CLZ counts the leading zeros of gA. -/
  | clz (row needle : Nat) (ecc : Ecc)
  /-- ADDI (R330): ADDI adds a sign-extended immediate. -/
  | addi (row needle : Nat) (ecc : Ecc)
  /-- CMPI (R330): CMPI sets flags of gA minus an immediate. -/
  | cmpi (row needle : Nat) (ecc : Ecc)
  /-- MOVZ (R330): MOVZ loads a shifted immediate with zeros elsewhere. -/
  | movz (row needle : Nat) (ecc : Ecc)
  /-- MOVK (R330): MOVK replaces one 16-bit field of gD. -/
  | movk (row needle : Nat) (ecc : Ecc)
  /-- ANDI (R330): ANDI ands a zero-extended immediate. -/
  | andi (row needle : Nat) (ecc : Ecc)
  /-- ORI (R330): ORI ors a zero-extended immediate. -/
  | ori (row needle : Nat) (ecc : Ecc)
  /-- XORI (R330): XORI exclusive-ors a zero-extended immediate. -/
  | xori (row needle : Nat) (ecc : Ecc)
  /-- SHLI (R330): SHLI shifts left by an immediate. -/
  | shli (row needle : Nat) (ecc : Ecc)
  /-- SHRI (R330): SHRI shifts logically right by an immediate. -/
  | shri (row needle : Nat) (ecc : Ecc)
  /-- SARI (R330): SARI shifts arithmetically right by an immediate. -/
  | sari (row needle : Nat) (ecc : Ecc)
  /-- LDB (R334): LDB loads one byte, zero-extended, after address checks. -/
  | ldb (row needle : Nat) (ecc : Ecc)
  /-- LDH (R334): LDH loads two bytes, zero-extended. -/
  | ldh (row needle : Nat) (ecc : Ecc)
  /-- LDW (R334): LDW loads four bytes, zero-extended. -/
  | ldw (row needle : Nat) (ecc : Ecc)
  /-- LDD (R334): LDD loads eight bytes. -/
  | ldd (row needle : Nat) (ecc : Ecc)
  /-- STB (R334): STB stores the low byte. -/
  | stb (row needle : Nat) (ecc : Ecc)
  /-- STH (R334): STH stores the low two bytes. -/
  | sth (row needle : Nat) (ecc : Ecc)
  /-- STW (R334): STW stores the low four bytes. -/
  | stw (row needle : Nat) (ecc : Ecc)
  /-- STD (R334): STD stores eight bytes. -/
  | std (row needle : Nat) (ecc : Ecc)
  /-- VLD (R334): VLD loads 32 bytes into a v register. -/
  | vld (row needle : Nat) (ecc : Ecc)
  /-- VST (R334): VST stores 32 bytes from a v register. -/
  | vst (row needle : Nat) (ecc : Ecc)
  /-- PLD (R335): PLD.k loads 8 ply elements of k words. -/
  | pld (row needle : Nat) (ecc : Ecc)
  /-- PST (R335): PST.k stores 8 ply elements of k words. -/
  | pst (row needle : Nat) (ecc : Ecc)
  /-- B_CC (R339): B.cc branches by a word offset when its condition holds. -/
  | bCc (row needle : Nat) (ecc : Ecc)
  /-- CALL (R342): CALL pushes a link word and the masked registers and transfers to a function. -/
  | call (row needle : Nat) (ecc : Ecc)
  /-- RET (R343): RET restores the frame's registers and returns. -/
  | ret (row needle : Nat) (ecc : Ecc)
  /-- REP (R345): REP runs the next instruction g0 times with advancing fields. -/
  | rep (row needle : Nat) (ecc : Ecc)
  /-- REPN (R345): REPN runs the next instruction a fixed count of times. -/
  | repn (row needle : Nat) (ecc : Ecc)
  /-- CHKB (R336): CHKB traps BOUNDS when an index is out of range. -/
  | chkb (row needle : Nat) (ecc : Ecc)
  /-- SSET (R333): SSET loads a segment register after checking its fields and reach. -/
  | sset (row needle : Nat) (ecc : Ecc)
  /-- SGET (R330): SGET reads one word of a segment register. -/
  | sget (row needle : Nat) (ecc : Ecc)
  /-- DRAW (R369): DRAW takes a sequential generator draw and increments the stream's counter. -/
  | draw (row needle : Nat) (ecc : Ecc)
  /-- DRAWE (R372): DRAWE takes an element-indexed generator draw. -/
  | drawe (row needle : Nat) (ecc : Ecc)
  /-- SDEF (R376): SDEF declares the needle's stream on a feeder. -/
  | sdef (row needle : Nat) (ecc : Ecc)
  /-- SRD (R377): SRD reads the next item of the needle's stream. -/
  | srd (row needle : Nat) (ecc : Ecc)
  /-- VADD (R351): VADD adds lanes. -/
  | vadd (row needle : Nat) (ecc : Ecc)
  /-- VSUB (R351): VSUB subtracts lanes. -/
  | vsub (row needle : Nat) (ecc : Ecc)
  /-- VMUL (R351): VMUL multiplies lanes. -/
  | vmul (row needle : Nat) (ecc : Ecc)
  /-- VMAX (R351): VMAX takes the larger lane. -/
  | vmax (row needle : Nat) (ecc : Ecc)
  /-- VMIN (R351): VMIN takes the smaller lane. -/
  | vmin (row needle : Nat) (ecc : Ecc)
  /-- VABS (R351): VABS takes lane magnitudes. -/
  | vabs (row needle : Nat) (ecc : Ecc)
  /-- VNEG (R351): VNEG negates lanes. -/
  | vneg (row needle : Nat) (ecc : Ecc)
  /-- VMOV (R351): VMOV copies lanes. -/
  | vmov (row needle : Nat) (ecc : Ecc)
  /-- VAND (R351): VAND ands INT32 lanes. -/
  | vand (row needle : Nat) (ecc : Ecc)
  /-- VOR (R351): VOR ors INT32 lanes. -/
  | vor (row needle : Nat) (ecc : Ecc)
  /-- VXOR (R351): VXOR exclusive-ors INT32 lanes. -/
  | vxor (row needle : Nat) (ecc : Ecc)
  /-- VSHL (R351): VSHL shifts INT32 lanes left. -/
  | vshl (row needle : Nat) (ecc : Ecc)
  /-- VSHR (R351): VSHR shifts INT32 lanes logically right. -/
  | vshr (row needle : Nat) (ecc : Ecc)
  /-- VSAR (R351): VSAR shifts INT32 lanes arithmetically right. -/
  | vsar (row needle : Nat) (ecc : Ecc)
  /-- VFMA (R330): VFMA computes a fused multiply-add with one rounding. -/
  | vfma (row needle : Nat) (ecc : Ecc)
  /-- VCMP (R354): VCMP writes a lane mask of a comparison. -/
  | vcmp (row needle : Nat) (ecc : Ecc)
  /-- VSEL (R330): VSEL selects lanes by a mask. -/
  | vsel (row needle : Nat) (ecc : Ecc)
  /-- VCVT (R355): VCVT converts a lane group between formats. -/
  | vcvt (row needle : Nat) (ecc : Ecc)
  /-- VBCST (R330): VBCST broadcasts a scalar to every lane. -/
  | vbcst (row needle : Nat) (ecc : Ecc)
  /-- VEXT (R355): VEXT extracts one lane to a g register. -/
  | vext (row needle : Nat) (ecc : Ecc)
  /-- VXCH (R382): VXCH exchanges v registers among the row's needles. -/
  | vxch (row needle : Nat) (ecc : Ecc)
  /-- GAUGE (R358): GAUGE raises gD[7:0] to the largest exponent byte of the terms. -/
  | gauge (row needle : Nat) (ecc : Ecc)
  /-- PCVT (R359): PCVT converts terms into ply form, setting V on a miss. -/
  | pcvt (row needle : Nat) (ecc : Ecc)
  /-- PADD (R361): PADD adds ply elements lane by lane. -/
  | padd (row needle : Nat) (ecc : Ecc)
  /-- PFIN (R363): PFIN finalises ply elements into the output format. -/
  | pfin (row needle : Nat) (ecc : Ecc)
  /-- TALLY (R366): TALLY adds tally terms of elements to the part-scope tally. -/
  | tally (row needle : Nat) (ecc : Ecc)
  /-- PMOV (R330): PMOV copies k ply registers. -/
  | pmov (row needle : Nat) (ecc : Ecc)
  /-- PZERO (R330): PZERO zeroes k ply registers. -/
  | pzero (row needle : Nat) (ecc : Ecc)
  /-- MLD (R383): MLD loads slices into a matrix operand buffer. -/
  | mld (row needle : Nat) (ecc : Ecc)
  /-- MMA (R384): MMA accumulates slice products into the tile in fixed order. -/
  | mma (row needle : Nat) (ecc : Ecc)
  /-- MCLR (R386): MCLR zeroes the tile. -/
  | mclr (row needle : Nat) (ecc : Ecc)
  /-- MRD (R330): MRD reads part of a tile row into a v register. -/
  | mrd (row needle : Nat) (ecc : Ecc)
  /-- MST (R386): MST stores the tile to memory. -/
  | mst (row needle : Nat) (ecc : Ecc)
  /-- NOP (R387): NOP does nothing. -/
  | nop (row needle : Nat) (ecc : Ecc)
  /-- END (R288): END ends the needle, and the row returns to LOADED when all 16 have ended. -/
  | endRow (row needle : Nat) (ecc : Ecc)
  /-- SAFE (R293): SAFE is a row-collective safe point at which a pausing row stops. -/
  | safe (row needle : Nat) (ecc : Ecc)
  /-- RTT (R394): RTT returns from a handler to TPC. -/
  | rtt (row needle : Nat) (ecc : Ecc)
  /-- RTT_NEXT (R394): RTT.NEXT returns from a handler past the trapping instruction. -/
  | rttNext (row needle : Nat) (ecc : Ecc)
  /-- FCLR (R321): FCLR clears flag P. -/
  | fclr (row needle : Nat) (ecc : Ecc)
  /-- BR (R340): BR jumps to the offset in gA. -/
  | br (row needle : Nat) (ecc : Ecc)
  /-- MFS (R387): MFS reads a special register. -/
  | mfs (row needle : Nat) (ecc : Ecc)
  /-- DRST (R371): DRST resets a draw counter to 0. -/
  | drst (row needle : Nat) (ecc : Ecc)
  /-- WAITB (R388): WAITB starts a wait for the next beat boundary, a safe point in a SERVING row. -/
  | waitb (row needle : Nat) (ecc : Ecc)
  /-- WAITB_WAKE (R388): A needle waiting in WAITB continues at the beat boundary. -/
  | waitbWake (row needle : Nat)
  /-- WAITT (R387): WAITT starts a wait until a trigger counter reaches a value. -/
  | waitt (row needle : Nat) (ecc : Ecc)
  /-- WAITT_WAKE (R655): A needle waiting in WAITT continues when its counter reaches the value. -/
  | waittWake (row needle : Nat)
  /-- FENCE (R375): FENCE waits until every access of the needle has taken effect. -/
  | fence (row needle : Nat) (ecc : Ecc)
  /-- TRAP (R387): TRAP c raises soft trap cause 0x40 + c. -/
  | trap (row needle : Nat) (ecc : Ecc)
  /-- MEMORY_TRANSFER (R428): A granted transfer of 32 bytes to 2 KiB runs on an HBM channel, hank port or die-to-die port. -/
  | memoryTransfer (arb : Nat) (ce ue : List Nat) (cached : Option Bool)
  /-- ARBITER_DECISION (R429): An arbiter chooses the highest current priority requester, ages the others and may preempt or leave an empty grant. -/
  | arbiterDecision (arb : Nat) (arrivals : List ArbReq) (withdrawn : Bool)
  /-- CE_RATE_WINDOW (R421): At each whole second the per-slice corrected-error count restarts from 0. -/
  | ceRateWindow (t : Nat)
  /-- PATROL_SCRUB (R422): With SCRUB_EN, each die reads its HBM and hank once every 24 hours, correcting and tagging. -/
  | patrolScrub (die units : Nat) (ce ue : List Nat)
  /-- HBM_REFRESH (R423): The controller refreshes an HBM bank, retraining a drifted pseudo-channel in the window. -/
  | hbmRefresh (die stack : Nat) (retrained : Bool)
  /-- MEM_HANK_MODE_WRITE (R408): A masked write of MEM_HANK_MODEd starts mode changes of the selected hank segments. -/
  | memHankModeWrite (via : Via) (n : Nat) (v : Word)
  /-- HANK_MODE_CHANGE_DONE (R408): A segment's mode change ends after its accesses drain and, toward SCRATCH, after zeroing. -/
  | hankModeChangeDone (die seg : Nat)
  /-- STREAM_DECLARE (R411): An infrastructure engine declares a stream, taking a prefetcher or counting MEM_PF_OVER. -/
  | streamDeclare (die reads : Nat) (ended : Nat)
  /-- OPT_ENABLE (R442): ENABLE checks every state entry and parameter block and enables the optimizer engine. -/
  | optEnable (via : Via) (n : Nat) (v : Word)
  /-- OPT_DISABLE (R463): DISABLE disables the engine after every staged item is committed. -/
  | optDisable (via : Via) (n : Nat) (v : Word)
  /-- OPT_WORK_DISPATCH (R462): A work item delayed by full rings is written to a row once a ring has room. -/
  | optWorkDispatch (n : Nat)
  /-- OPT_ITEM_STAGED (R446): A recipe's DONE write matching an item's SEQ starts the commit, or is ignored and counted OPT_BAD_DONE. -/
  | optItemStaged (row slot : Nat)
  /-- OPT_COMMIT (R447): The engine copies the staging buffer into the planes, writes STAMP and casts the PUB image, releasing the block to the all-gather. -/
  | optCommit (row slot : Nat)
  /-- FEED_OPEN (R466): OPEN checks a feed descriptor and opens the feed. -/
  | feedOpen (via : Via) (n : Nat) (v : Word)
  /-- FEED_CLOSE (R508): CLOSE closes an OPEN or HALTED feed and discards its items and steps. -/
  | feedClose (via : Via) (n : Nat) (v : Word)
  /-- FEED_RETARGET (R506): RETARGET resumes a stopped TRAIN feed from the step being rerun with new local tables. -/
  | feedRetarget (via : Via) (n : Nat) (v : Word)
  /-- ITEM_DECODE_START (R474): An item is assigned to the first free pipe of its die and decoded there. -/
  | itemDecodeStart (die : Nat)
  /-- ITEM_DECODE_DONE (R474): A pipe finishes decoding an item, or finds a decode failure. -/
  | itemDecodeDone (die pipe : Nat) (fetched : List (List Byte))
  /-- CARDER_ITEM_WRITE (R484): The Carder writes a decoded item to a FEED or SERVING row's ring and increments its trigger counter, waiting while the ring is full. -/
  | carderItemWrite (row : Nat)
  /-- FEED_ITEM_PACKED (R485): A feed program's DONE write equal to SEQ marks the item packed. -/
  | feedItemPacked (n feed row slot : Nat)
  /-- FEED_STEP_WRITE (R489): The Carder writes step k's stitches into an endpoint's slot once that endpoint has released step k − LOOKAHEAD. -/
  | feedStepWrite (n feed ep step : Nat)
  /-- FEED_STEP_DELIVERED (R490): All stitches of a step for an endpoint are written, so FEED_READY is sent and, when all are ready, DONE_CTR increments. -/
  | feedStepDelivered (n feed ep step : Nat)
  /-- FEED_RELEASE_RECEIVE (R630): An endpoint's FEED_RELEASE frees its slot for a later step. -/
  | feedReleaseReceive (ep id step : Nat)
  /-- RTP_PACKET (R494): An RTP packet for a Carder stream is accepted and placed, completing a frame, or discarded and counted. -/
  | rtpPacket (stream : Nat) (packet : List Byte) (stamp : Nat)
  /-- FRAME_AGE_EXPIRE (R494): An incomplete frame older than FRAME_AGE_MS is discarded and counted in CRD_FRAME_DROP. -/
  | frameAgeExpire (stream ts now : Nat)
  /-- CKP_CHECKPOINT (R517): CHECKPOINT requests a checkpoint at the written step and sends the request to every member. -/
  | ckpCheckpoint (via : Via) (n : Nat) (v : Word)
  /-- CKP_RESTORE (R564): RESTORE checks a restore plan and rebuilds each region from the chain or buddy. -/
  | ckpRestore (via : Via) (n : Nat) (v : Word)
  /-- CHECKPOINT_REQUEST (R516): A member receives a checkpoint request, records the boundary and acknowledges, refusing beyond 8 pending. -/
  | checkpointRequest (n boundary : Nat)
  /-- CHECKPOINT_CAPTURE (R521): At a checkpoint boundary, after any running copy ends, PEND takes DIRTY and DIRTY clears at one instant. -/
  | checkpointCapture (n : Nat)
  /-- BACKGROUND_PAGE_COPY (R523): The background copy reads the next PEND page into the push buffer and clears its PEND. -/
  | backgroundPageCopy (die : Nat)
  /-- COPY_BEFORE_WRITE (R524): A write to a PEND page stalls until the page is read into the push buffer, then proceeds. -/
  | copyBeforeWrite (addr : Nat)
  /-- PAGE_ARRIVE (R527): A pushed page arrives at the buddy, which lands its difference and applies it to the image. -/
  | pageArrive (n : Nat) (p : PushedPage)
  /-- PUSH_DIGESTS_RECEIVE (R531): The buddy compares the owner's region digests and confirms, or undoes the push and reports 0x0702. -/
  | pushDigestsReceive (n part slice step : Nat) (digests : List (Nat × List (BitVec 8)))
  /-- PUSH_CONFIRM (R538): The owner receives confirmation of every region and writes and signs the shard record. -/
  | pushConfirm (n step : Nat) (ok : Bool)
  /-- DEPOT_DRAIN (R535): The buddy drains the retained difference, or a FULL object, to the depot. -/
  | depotDrain (n : Nat) (shardRec : List (BitVec 8)) (ok : Bool)
  /-- KEEPALIVE_SEND (R541): Every 10 ms the part sends a keepalive to each part of its watch list. -/
  | keepaliveSend
  /-- KEEPALIVE_RECEIVE (R541): A keepalive is received and answered. -/
  | keepaliveReceive (part : Nat) (reply : Bool)
  /-- SUSPECT_TIMEOUT (R542): No keepalive or EP_ALIVE for DETECT_MS makes the part suspect the peer and report it. -/
  | suspectTimeout (part : Nat) (ep : Option Nat)
  /-- SUSPECT_REPORT (R543): The coordinator receives a suspicion report and sends PROPOSE. -/
  | suspectReport (n part : Nat) (ep : Option Nat)
  /-- PROPOSE_RECEIVE (R544): A member accepts a higher-round PROPOSE, enters HOLD and replies with its copy conditions. -/
  | proposeReceive (n coord : Nat) (p : Proposal)
  /-- ACCEPT_RECEIVE (R545): The coordinator gathers accepts and commits when all proposed members have accepted and they are a majority. -/
  | acceptReceive (n part round : Nat) (copies : List CopyAt) (ok : Bool)
  /-- AGREE_TIMEOUT (R545): Missing accepts after AGREE_MS / 2 make the coordinator re-propose, or parts enter QUORUM_LOST. -/
  | agreeTimeout (n : Nat)
  /-- HOLD_TIMEOUT (R547): A member in HOLD hearing nothing for AGREE_MS proposes on its own. -/
  | holdTimeout (n : Nat)
  /-- MEMBERSHIP_COMMIT (R548): On commit a member abandons collectives, sets the epoch and resume step, writes the membership record and reports to its slices. -/
  | membershipCommit (n : Nat) (m : Commit) (copies : List (Nat × List (Nat × BitVec 8)))
  /-- RESTORE_REBUILD_DONE (R565): A restored region's digest is checked, refusing with 0x0704 and zeroing on mismatch. -/
  | restoreRebuildDone (n : Nat) (objects : List (List (BitVec 8))) (images : List (Nat × List (Nat × BitVec 8)))
  /-- LINK_DOWN_RETRY (R580): A DOWN link starts bring-up again every 100 ms. -/
  | linkDownRetry (n t : Nat) (present : Bool)
  /-- LINK_TRAIN_DONE (R581): Training and alignment end with lock, and the link enters IDENT. -/
  | linkTrainDone (n : Nat)
  /-- LINK_TRAIN_TIMEOUT (R581): A TRAIN or ALIGN overrunning its limit returns the link to DOWN with 0x05C0. -/
  | linkTrainTimeout (n : Nat)
  /-- IDENT_REPEAT (R582): Every 1 µs a link in IDENT resends its IDENT or HELLO until acknowledged. -/
  | identRepeat (n : Nat)
  /-- IDENT_RECEIVE (R582): The peer's IDENT is received and its credits recorded. -/
  | identReceive (n : Nat) (payload : List (BitVec 8))
  /-- HELLO_RECEIVE (R584): The peer's HELLO is compared with the Pattern's wiring, setting the link UP or QUARANTINE. -/
  | helloReceive (n : Nat) (payload : List (BitVec 8))
  /-- FLIT_RECEIVE (R597): A flit is FEC-decoded and CRC-checked, and a DATA flit is accepted in order or discarded with a NAK. -/
  | flitReceive (n : Nat) (rx : FlitRx)
  /-- LINK_ACK_SEND (R598): A receiver sends ACK_SEQ after 32 flits or 100 ns with flits unacknowledged. -/
  | linkAckSend (n : Nat)
  /-- REPLAY_TIMEOUT (R599): With no acknowledgement for 2 µs or 10 µs, the sender replays every unacknowledged flit. -/
  | replayTimeout (n : Nat)
  /-- LINK_SILENCE_TIMEOUT (R588): No valid flit for 10 µs takes the link to RETRAIN. -/
  | linkSilenceTimeout (n : Nat)
  /-- LINK_RETRAIN_DONE (R601): A retrain ends UP, DEGRADED or, after RETRAIN_TRIES failures, DOWN with its queues discarded. -/
  | linkRetrainDone (n : Nat) (lane0 lane1 : Bool)
  /-- CAL_SLOT (R609): Every 4,096th flit slot carries a CAL flit of PRBS31. -/
  | calSlot (n : Nat)
  /-- TSYNC_SEND (R612): Every 1 ms the part sends a TSYNC on each UP link. -/
  | tsyncSend (t : Nat)
  /-- TSYNC_RECEIVE (R613): A TSYNC gives a link delay and, on the source link, steers the time base. -/
  | tsyncReceive (n t : Nat) (payload : List (BitVec 8))
  /-- LINK_DOWN_CMD (R580): A write of LNK_n_CTL.DOWN takes the link DOWN and holds it there. -/
  | linkDownCmd (via : Via) (n : Nat) (v : Word)
  /-- LINK_RETRAIN_CMD (R580): A write of LNK_n_CTL.RETRAIN enters RETRAIN or starts bring-up, or is rejected with 0x02C0. -/
  | linkRetrainCmd (via : Via) (n : Nat) (v : Word)
  /-- PACKET_FORWARD (R614): The switch discards, replicates, routes or delivers a packet by its header. -/
  | packetForward (inp : Nat) (injected : List (BitVec 8))
  /-- SWT_RT_COMMIT (R633): A write of a route entry's HI word checks and commits the entry. -/
  | swtRtCommit (via : Via) (n : Nat) (v : Word)
  /-- SWT_EP_COMMIT (R634): A write of an endpoint entry's HI word checks and commits the entry. -/
  | swtEpCommit (via : Via) (n : Nat) (v : Word)
  /-- SWT_MC_COMMIT (R633): A write of a group entry's word 7 checks and commits the entry. -/
  | swtMcCommit (via : Via) (n : Nat) (v : Word)
  /-- EDGE_WACK_RECEIVE (R670): An endpoint's EDGE_WACK marks an endpoint placement written. -/
  | edgeWackReceive (ep tag status : Nat)
  /-- EDGE_RDATA_RECEIVE (R625): An endpoint's EDGE_RDATA returns requested bytes, with poison mask, to the part. -/
  | edgeRdataReceive (ep tag status : Nat) (bytes : List (BitVec 8)) (poison : List Bool)
  /-- EP_ALIVE_RECEIVE (R629): An endpoint's EP_ALIVE notice restarts its suspicion time. -/
  | epAliveReceive (ep : Nat)
  /-- RMA_OPEN (R641): OPEN opens a CLOSED connection with the next epoch and both PSNs at 0. -/
  | rmaOpen (via : Via) (n : Nat) (v : Word)
  /-- RMA_CLOSE (R642): CLOSE flushes the connection's work requests with 0x02D2 and closes it. -/
  | rmaClose (via : Via) (n : Nat) (v : Word)
  /-- RMA_RESET (R641): RESET flushes and closes a connection in ERROR. -/
  | rmaReset (via : Via) (n : Nat) (v : Word)
  /-- REG_REGION (R647): REG_REGION checks a region descriptor and returns a new key. -/
  | regRegion (via : Via) (n : Nat) (v : Word)
  /-- DEREG_REGION (R650): DEREG_REGION invalidates a key at once. -/
  | deregRegion (via : Via) (n : Nat) (v : Word)
  /-- DEREG_COMPLETE (R650): When no packet bearing the key is being placed, the index's GEN advances or the index is quarantined. -/
  | deregComplete (n : Nat)
  /-- SET_PATH (R680): SET_PATH writes an Ethernet path entry. -/
  | setPath (via : Via) (n : Nat) (v : Word)
  /-- CREATE_WQ (R652): CREATE_WQ creates a work queue with its rings. -/
  | createWq (via : Via) (n : Nat) (v : Word)
  /-- DESTROY_WQ (R652): DESTROY_WQ removes a work queue. -/
  | destroyWq (via : Via) (n : Nat) (v : Word)
  /-- RMA_FENCE (R684): FENCE starts the wait that releases quarantined CIDs and key indices. -/
  | rmaFence (via : Via) (n : Nat) (v : Word)
  /-- FENCE_COMPLETE (R684): After LIFETIME_MS with no such packet queued, the fence completes and releases them. -/
  | fenceComplete (n t : Nat)
  /-- RMA_QUERY (R686): QUERY returns a connection's state, epoch and error status. -/
  | rmaQuery (via : Via) (n : Nat) (v : Word)
  /-- RMA_WQ_TAIL_WRITE (R653): A write of a work queue tail posts work requests. -/
  | rmaWqTailWrite (via : Via) (n : Nat) (v : Word)
  /-- RMA_WQ_CQ_HEAD_WRITE (R661): A write of a work queue's completion head frees records, releasing held ones. -/
  | rmaWqCqHeadWrite (via : Via) (n : Nat) (v : Word)
  /-- WORK_REQUEST_START (R653): A work request is checked and started in ring order once its trigger and fence allow. -/
  | workRequestStart (w : Nat)
  /-- WORK_REQUEST_COMPLETE (R658): A request completes, its record is written in ring order and DONE_CTR increments. -/
  | workRequestComplete (w : Nat)
  /-- RMA_CTR_VAL_WRITE (R657): A write of a trigger counter sets it and starts requests it now reaches. -/
  | rmaCtrValWrite (via : Via) (n : Nat) (v : Word)
  /-- RMA_CTR_ADD (R656): A write of RMA_CTRc_ADD adds to a trigger counter. -/
  | rmaCtrAdd (via : Via) (n : Nat) (v : Word)
  /-- RMA_REQUEST_RECEIVE (R667): The target checks a request packet, places or refuses it, and advances EPSN. -/
  | rmaRequestReceive (src : Option (List (BitVec 8))) (p : List (BitVec 8))
  /-- RMA_ACK_TIMER (R671): The target sends an ACK 1 µs after a release no ACK covered. -/
  | rmaAckTimer (cid : Nat)
  /-- RMA_ACK_RECEIVE (R674): An advancing ACK completes requests, resets the timer and adjusts the window. -/
  | rmaAckReceive (t : Nat) (p : List (BitVec 8))
  /-- RMA_NAK_RECEIVE (R665): A NAK makes the initiator go back, wait or enter ERROR by its code. -/
  | rmaNakReceive (t : Nat) (p : List (BitVec 8))
  /-- READ_RESP_RECEIVE (R676): A READ_RESP places its bytes, or is discarded as a duplicate. -/
  | readRespReceive (p : List (BitVec 8))
  /-- RMA_TIMEOUT (R674): The connection timer expires, so the initiator resends, doubles RTO, or enters ERROR past RETRY. -/
  | rmaTimeout (cid t : Nat)
  /-- RMA_WAIT_LIMIT (R674): NOT_READY or TARGET_RESETTING NAKs lasting WAIT_LIMIT_MS put the connection in ERROR with 0x06D3. -/
  | rmaWaitLimit (cid t : Nat)
  /-- ETH_FRAME_RECEIVE (R695): A received frame is stamped, parsed, classified, policed and given its action. -/
  | ethFrameReceive (port t : Nat) (frame : List (BitVec 8)) (fcsOk : Bool)
  /-- ETH_FRAME_TRANSMIT (R711): At a frame boundary the port sends the head frame of the chosen queue under shaping. -/
  | ethFrameTransmit (port t : Nat)
  /-- ETH_PORT_DOWN (R692): A port failing training or losing lock for 10 ms goes DOWN and discards its queued frames. -/
  | ethPortDown (port t : Nat)
  /-- ETH_PORT_RETRY (R692): A DOWN port retries training every 100 ms. -/
  | ethPortRetry (port t : Nat)
  /-- ETH_RSEL_WRITE (R702): A write of ETH_Dd_RSEL selects a rule and loads its staging words. -/
  | ethRselWrite (via : Via) (n : Nat) (v : Word)
  /-- ETH_RULE_COMMIT (R702): A write of rule word 15 checks the staged rule and commits or invalidates it. -/
  | ethRuleCommit (via : Via) (n : Nat) (v : Word)
  /-- ETH_POLICER_WRITE (R708): A write of a policer's configuration sets its bucket full. -/
  | ethPolicerWrite (via : Via) (n : Nat) (v : Word)
  /-- PTP_MESSAGE (R715): Spindle handles a PTP message and steers the time base. -/
  | ptpMessage (port t : Nat) (m : PtpMsg)
  /-- SLICE_RESET (R315): RESET resets a slice, stopping its rows and wiping its state, memory and keys. -/
  | sliceReset (via : Via) (n : Nat) (v : Word)
  /-- SLICE_FREEZE (R741): FREEZE stops the slice fetching work and pauses its rows. -/
  | sliceFreeze (via : Via) (n : Nat) (v : Word)
  /-- FREEZE_COMPLETE (R741): The slice becomes FROZEN when every row has paused and started work has completed. -/
  | freezeComplete (n : Nat)
  /-- SLICE_THAW (R740): THAW returns a FROZEN or SAVED slice to RUN. -/
  | sliceThaw (via : Via) (n : Nat) (v : Word)
  /-- SLICE_SAVE (R744): SAVE saves every paused row and writes the slice state block. -/
  | sliceSave (via : Via) (n : Nat) (v : Word)
  /-- SLICE_RESTORE (R746): RESTORE checks the state block and restores rows and state, leaving the slice FROZEN. -/
  | sliceRestore (via : Via) (n : Nat) (v : Word)
  /-- NS_ATTACH (R761): NS_ATTACH checks a namespace descriptor and attaches the namespace. -/
  | nsAttach (via : Via) (n : Nat) (v : Word)
  /-- NS_DETACH (R769): NS_DETACH completes outstanding commands, drains dirty units and detaches. -/
  | nsDetach (via : Via) (n : Nat) (v : Word)
  /-- BAR2_ACCESS (R729): A PF1 BAR2 access reaches slice memory or is refused with Unsupported Request. -/
  | bar2Access (port off size : Nat) (wr : Option (List (BitVec 8))) (ep : Bool)
  /-- COPY_QUEUE_ENABLE (R732): A write of CPY_CFG.EN enables a copy queue and binds it to the writing port. -/
  | copyQueueEnable (via : Via) (n k : Nat) (v : Word)
  /-- COPY_TAIL_WRITE (R734): A write of a copy queue tail posts copy descriptors for fetch. -/
  | copyTailWrite (via : Via) (n k : Nat) (v : Word)
  /-- COPY_CQ_HEAD_WRITE (R734): A write of a copy queue's completion head frees records, releasing held ones. -/
  | copyCqHeadWrite (via : Via) (n k : Nat) (v : Word)
  /-- COPY_START (R737): A fetched copy descriptor is checked and its copy begins. -/
  | copyStart (n k : Nat) (desc : List (BitVec 8))
  /-- COPY_COMPLETE (R735): A copy's data writes are issued, its record written and DONE_CTR incremented. -/
  | copyComplete (n k : Nat) (data : List HostChunk)
  /-- NOTIFY_ARM (R739): A write of a notify entry's word 1 with ARM arms it, firing at once if its counter has reached VALUE. -/
  | notifyArm (via : Via) (n k : Nat) (v : Word)
  /-- HEARTBEAT (R747): A heartbeat write starts or continues monitoring of a port and resets its misses. -/
  | heartbeat (via : Via) (n : Nat) (v : Word)
  /-- HEARTBEAT_CHECK (R748): At each whole second a monitored port counts a miss when no heartbeat arrived. -/
  | heartbeatCheck (t : Nat) (arrived : List CopyArrival)
  /-- RECLAIM (R751): A write of HOST_Pp_CTL.RECLAIM resets the port's PF1 and PF2 and ends HOST_LOST. -/
  | reclaim (via : Via) (n : Nat) (v : Word) (arrived : List CopyArrival)
  /-- PORT_RESET (R752): PERST_N low or a hot reset resets one host port's link, functions and bound queues. -/
  | portReset (port : Nat) (perst : Bool) (arrived : List CopyArrival)
  /-- FLR (R752): A function-level reset resets one function's state as the reset table states. -/
  | flr (port fn : Nat) (arrived : List CopyArrival)
  /-- DMA_READ_FAIL (R756): A DMA read ending in timeout, UR or CA ends its copy or NVMe command with an error. -/
  | dmaReadFail (u : DmaUnit) (data : List HostChunk) (timeout : Bool)
  /-- NVME_CC_EN_WRITE (R757): A write of CC.EN enables or resets the NVMe controller. -/
  | nvmeCcEnWrite (port : Nat) (v : Word)
  /-- NVME_SQ_DOORBELL (R770): A submission queue doorbell write posts commands for arbitration. -/
  | nvmeSqDoorbell (port q tail : Nat) (entries : List NvmeEntry)
  /-- NVME_CREATE_IO_SQ (R758): Create I/O Submission Queue creates a queue of the slice its ID names. -/
  | nvmeCreateIoSq (port : Nat)
  /-- NVME_CREATE_IO_CQ (R758): Create I/O Completion Queue creates a queue of the slice its ID names. -/
  | nvmeCreateIoCq (port : Nat)
  /-- NVME_DELETE_IO_SQ (R757): Delete I/O Submission Queue deletes a queue. -/
  | nvmeDeleteIoSq (port : Nat)
  /-- NVME_DELETE_IO_CQ (R757): Delete I/O Completion Queue deletes a queue. -/
  | nvmeDeleteIoCq (port : Nat)
  /-- NVME_GET_LOG_PAGE (R757): Get Log Page returns an error, health or self-test log. -/
  | nvmeGetLogPage (port : Nat)
  /-- NVME_IDENTIFY (R757): Identify returns controller or namespace data. -/
  | nvmeIdentify (port : Nat)
  /-- NVME_ABORT (R757): Abort aborts a submitted command. -/
  | nvmeAbort (port : Nat)
  /-- NVME_SET_FEATURES (R757): Set Features sets a supported feature. -/
  | nvmeSetFeatures (port : Nat)
  /-- NVME_GET_FEATURES (R757): Get Features returns a supported feature. -/
  | nvmeGetFeatures (port : Nat)
  /-- NVME_ASYNC_EVENT_REQUEST (R757): Asynchronous Event Request posts a slot for an event. -/
  | nvmeAsyncEventRequest (port : Nat)
  /-- NVME_DEVICE_SELF_TEST (R771): Device Self-test starts or aborts a short or extended self-test. -/
  | nvmeDeviceSelfTest (port : Nat)
  /-- SELF_TEST_RESUME (R772): A suspended self-test resumes after 1 ms with no command outstanding. -/
  | selfTestResume (port t : Nat)
  /-- NVME_READ (R763): Read serves a resident unit from stage or fetches it from the depot. -/
  | nvmeRead (port : Nat)
  /-- NVME_WRITE (R764): Write places data in the unit's slot and marks it dirty. -/
  | nvmeWrite (port : Nat) (data : List HostChunk)
  /-- NVME_FLUSH (R766): Flush completes when every unit dirty at its arrival has drained. -/
  | nvmeFlush (port : Nat)
  /-- NVME_WRITE_ZEROES (R767): Write Zeroes writes zeros. -/
  | nvmeWriteZeroes (port : Nat)
  /-- NVME_DEALLOCATE (R767): Dataset Management with Deallocate makes blocks read as zeros. -/
  | nvmeDeallocate (port : Nat) (ranges : List (Nat × Nat))
  /-- NVME_LOAD (R768): LOAD makes every unit of its range resident. -/
  | nvmeLoad (port : Nat)
  /-- NS_UNIT_FETCH_DONE (R763): A unit read from the depot becomes resident and its waiting commands are served. -/
  | nsUnitFetchDone (n j u : Nat) (data : List HostChunk) (ok : Bool)
  /-- NS_UNIT_DRAIN (R765): A dirty unit drains to the depot by RMA WRITE in ascending slot order. -/
  | nsUnitDrain (n j : Nat)
  /-- NS_UNIT_DRAIN_DONE (R765): A drain completes, clearing DIRTY unless rewritten, or fails with 0x0901. -/
  | nsUnitDrainDone (n j slot : Nat) (ok : Bool)
  /-- GET_VERSION (R791): SPDM GET_VERSION is answered. -/
  | getVersion (port : Nat) (req : List (BitVec 8))
  /-- GET_CAPABILITIES (R791): SPDM GET_CAPABILITIES is answered. -/
  | getCapabilities (port : Nat) (req : List (BitVec 8))
  /-- NEGOTIATE_ALGORITHMS (R791): SPDM NEGOTIATE_ALGORITHMS is answered. -/
  | negotiateAlgorithms (port : Nat) (req : List (BitVec 8))
  /-- GET_DIGESTS (R791): SPDM GET_DIGESTS returns the slot 0 chain digest. -/
  | getDigests (port : Nat) (req : List (BitVec 8))
  /-- GET_CERTIFICATE (R791): SPDM GET_CERTIFICATE returns the slot 0 chain. -/
  | getCertificate (port : Nat) (req : List (BitVec 8))
  /-- CHALLENGE (R791): SPDM CHALLENGE is answered with an Ed25519 signature. -/
  | challenge (port : Nat) (req : List (BitVec 8))
  /-- GET_MEASUREMENTS (R792): SPDM GET_MEASUREMENTS returns the measurement blocks. -/
  | getMeasurements (port : Nat) (req : List (BitVec 8))
  /-- GET_EVIDENCE (R793): GET_EVIDENCE returns a signed evidence block and, with KEM, creates a release session. -/
  | getEvidence (port code : Nat) (payload : List (BitVec 8))
  /-- GET_IDCERT (R793): GET_IDCERT returns an identity certificate. -/
  | getIdcert (port : Nat) (payload : List (BitVec 8))
  /-- RELEASE (R798): RELEASE decapsulates and loads every key of a grant or none, ending the session. -/
  | release (port : Nat) (payload : List (BitVec 8)) (mismatch : Bool)
  /-- LC_REQUEST (R779): LC_REQUEST checks a life-cycle token, writes the fuses and starts a warm reset. -/
  | lcRequest (port : Nat) (payload : List (BitVec 8))
  /-- RELEASE_SESSION_EXPIRE (R796): A release session ends 60 s after creation and its private keys are erased. -/
  | releaseSessionExpire (n t : Nat)
  /-- DRBG_RESEED (R777): After 2^20 requests the generator reseeds from the entropy source. -/
  | drbgReseed (healthy : Bool)
  /-- TRUST_LOAD (R805): LOAD moves the staged key and salt into a wide channel direction. -/
  | trustLoad (via : Via) (n : Nat) (v : Word)
  /-- TRUST_ERASE (R805): ERASE erases a wide channel direction's key. -/
  | trustErase (via : Via) (n : Nat) (v : Word)
  /-- SAVE_CLEAR (R810): SAVE_CLEAR writes a wide channel's context in the clear and erases the channel. -/
  | saveClear (via : Via) (n : Nat) (v : Word)
  /-- SAVE_WRAPPED (R811): SAVE_WRAPPED writes a channel context wrapped under the per-boot key and erases the channel. -/
  | saveWrapped (via : Via) (n : Nat) (v : Word) (mismatch : Bool)
  /-- TRUST_RESTORE (R811): RESTORE loads a context record into an empty wide channel. -/
  | trustRestore (via : Via) (n : Nat) (v : Word) (mismatch : Bool)
  /-- UNSEAL (R803): UNSEAL decrypts a sealed object chunk by chunk into slice memory. -/
  | unseal (via : Via) (n : Nat) (v : Word) (mismatch : Bool)
  /-- SEAL (R801): SEAL encrypts plaintext into a sealed object under a weight key. -/
  | seal (via : Via) (n : Nat) (v : Word) (mismatch : Bool)
  /-- REVOKE (R800): REVOKE removes a weight key grant, refused for a PINNED grant. -/
  | revoke (via : Via) (n : Nat) (v : Word)
  /-- ALARM (R814): An alarm source sets its flag and within 1 µs erases wide and narrow keys and release sessions. -/
  | alarm (src : Nat)
  /-- COLD_RESET (R823): RESET_N held low or power-on starts a cold reset and cold cast-on. -/
  | coldReset
  /-- WARM_RESET (R825): WARM_RESET with the right KEY, in QUIESCED or with FORCE, starts a warm cast-on. -/
  | warmReset (via : Via) (v : Word)
  /-- BIND_OFF (R827): BIND_OFF freezes slices, completes work, drains NVMe units and withdraws from jobs. -/
  | bindOff (via : Via) (v : Word)
  /-- BIND_OFF_COMPLETE (R827): Bind-off ends and the part enters QUIESCED. -/
  | bindOffComplete
  /-- BIND_OFF_TIMEOUT (R828): Bind-off over BINDOFF_S enters QUIESCED anyway with 0x0213. -/
  | bindOffTimeout (t : Nat)
  /-- CAST_FUSES (R834): Distaff's ROM reads the fuses and seeds the generator. -/
  | castFuses
  /-- CAST_VERIFY (R842): The ROM verifies its own image from the active or other slot. -/
  | castVerify (bad : List Nat) (slots : List (Option SlotImage))
  /-- CAST_MEASURE (R829): Distaff verifies the Spindle image and the Pattern and records measurements 1 to 5. -/
  | castMeasure (spindle pattern : List (Option SlotImage)) (pat : Pattern)
  /-- CAST_ALIGN (R51): Clocked domains lock, crossing FIFOs align and the Pattern is checked. -/
  | castAlign (other : Option SlotImage) (pat : Pattern)
  /-- CAST_TEST (R849): The start-time tests run and new failures enter the ledger. -/
  | castTest (r : TestResults)
  /-- ROW_WAVE (R833): The next wave of at most 16 rows is released WAVE_US after the previous one. -/
  | rowWave (t : Nat)
  /-- CAST_WIPE (R826): HBM and hank are wiped and the panel maps built. -/
  | castWipe
  /-- CAST_APPLY (R829): Regions, entries, Ethernet settings, rings and beat configuration are loaded from the Pattern. -/
  | castApply
  /-- CAST_TOPOLOGY (R852): The topology phase ends when every link has settled or TOPO_WAIT_MS passes, refusing on a failed REQUIRED link. -/
  | castTopology (t : Nat)
  /-- CAST_READY (R829): The part signs its alias certificate and enters READY. -/
  | castReady
  /-- WATCHDOG_EXPIRE (R855): A core's 100 ms watchdog expires, restarting it, or leaving it HALTED after 4 restarts in 60 s. -/
  | watchdogExpire (core t : Nat)
  /-- THROTTLE_REPORT (R862): At a 10 ms multiple Spindle writes merged THROTTLE reports to the slices. -/
  | throttleReport (t : Nat)
  /-- FW_STAGE (R863): STAGE reads, verifies and writes an image into the inactive slot. -/
  | fwStage (via : Via) (v : Word) (img : SlotImage) (pat : Pattern) (flashOk : Bool)
  /-- FW_DISCARD (R865): DISCARD marks a STAGED slot EMPTY. -/
  | fwDiscard (via : Via) (v : Word)
  /-- FW_DISTRIBUTE (R866): DISTRIBUTE sends the staged image by multicast to a group. -/
  | fwDistribute (via : Via) (v : Word)
  /-- FW_CHUNK_RECEIVE (R867): A target verifies a received header, table or chunk of a distribution. -/
  | fwChunkReceive (part : Nat) (m : FwMsg)
  /-- FW_REPAIR_START (R868): After END or 50 ms of silence a target requests its missing chunks and ends STAGED or FAILED. -/
  | fwRepairStart (t : Nat) (flashOk : Bool)
  /-- FW_REPAIR_REQUEST (R868): A part holding a requested chunk answers the repair request. -/
  | fwRepairRequest (part : Nat) (digest : List (BitVec 8)) (chunks : List Nat)
  /-- FW_ACTIVATE (R869): ACTIVATE sends PREPARE to the targets. -/
  | fwActivate (via : Via) (v : Word)
  /-- PREPARE_RECEIVE (R869): A target answers PREPARE with READY or REFUSE. -/
  | prepareReceive (part kind : Nat) (digest : List (BitVec 8))
  /-- READY_RECEIVE (R870): The coordinator gathers READY answers and sends COMMIT with boundary b when all are in. -/
  | readyReceive (part : Nat) (a : FwAnswer)
  /-- PREPARE_TIMEOUT (R870): Missing answers 10 s after PREPARE send ABORT with 0x0212. -/
  | prepareTimeout (t : Nat)
  /-- COMMIT_RECEIVE (R871): A target makes the staged slot active in its directory. -/
  | commitReceive (kind boundary : Nat)
  /-- ABORT_RECEIVE (R870): A target receiving ABORT does not activate. -/
  | abortReceive (kind : Nat)
  /-- FW_RESTART_CORES (R872): At the first allowed boundary the cores restart one by one into the new Spindle image. -/
  | fwRestartCores
  /-- GOVERNOR_DECISION (R882): Every 100 µs the governor adjusts vt, g_slow and g_fast and writes VCORE targets. -/
  | governorDecision (t : Nat) (hot icc : Bool) (silent : List Nat) (again : Nat)
  /-- HOT_N_ASSERT (R884): HOT_N low for 100 ns raises g_fast to HOT_GATE. -/
  | hotNAssert (t : Nat)
  /-- ICC_OVER (R883): A die's current estimate above ICC_MAX raises g_fast to FAST_GATE. -/
  | iccOver (t die : Nat)
  /-- AVS_READ (R878): Every 100 µs the part reads voltage and current on each AVSBus. -/
  | avsRead (t : Nat) (reads : List AvsRead) (est : Nat)
  /-- SENSOR_SAMPLE (R880): Every 10 µs each junction sensor is sampled and failed sensors noted. -/
  | sensorSample (t die : Nat) (readings : List (Option Int))
  /-- HBM_TEMP_READ (R880): Every 1 ms each HBM stack's temperature is read. -/
  | hbmTempRead (t die : Nat) (readings : List Nat)
  /-- TB_HOLDOVER (R894): The time source silent for 3 s puts the time base in HOLDOVER. -/
  | tbHoldover (t : Nat)
  /-- TELEMETRY_CAPTURE (R896): At each PERIOD_MS multiple the selected counters are captured at one instant. -/
  | telemetryCapture (t : Nat)
  /-- TELEMETRY_SEND (R897): Spindle sends a capture as UDP datagrams to the collector. -/
  | telemetrySend
  /-- TELEMETRY_DROP (R898): A capture not sent within one period is dropped and counted. -/
  | telemetryDrop (t : Nat)
  /-- SET_ENDPOINT_ID (R891): MCTP Set Endpoint ID assigns the part's EID. -/
  | setEndpointId (op eid : Nat)
  /-- GET_ENDPOINT_ID (R891): MCTP Get Endpoint ID returns the EID. -/
  | getEndpointId
  /-- GET_MCTP_VERSION_SUPPORT (R891): MCTP Get MCTP Version Support is answered. -/
  | getMctpVersionSupport (type : Nat)
  /-- GET_MESSAGE_TYPE_SUPPORT (R891): MCTP Get Message Type Support is answered. -/
  | getMessageTypeSupport (command : Nat)
  /-- READ_REG (R891): The board-controller READ_REG returns one GLB, PWR or CAST register. -/
  | readReg (code off : Nat)
  /-- BOARD_WARM_RESET (R824): The board-controller WARM_RESET request starts a warm reset. -/
  | boardWarmReset
  /-- GET_TELEMETRY (R891): GET_TELEMETRY returns the header of the last telemetry record. -/
  | getTelemetry
  /-- ALERT_RESPONSE (R889): The part answers the SMBus Alert Response Address while ALERT_N is low. -/
  | alertResponse
  /-- PERST_RELEASE (R923): PERST_N rising lets the port train after ALIGN and answer configuration with retry until APPLY. -/
  | perstRelease (port : Nat)
  /-- REFCLK_LOSS (R912): A reference clock that stops or drifts raises CLOCK or takes a chiplet's links DOWN. -/
  | refclkLoss (clk : Nat)
  /-- RAIL_LOSS (R922): Loss of a rail outside the sequences loses volatile state. -/
  | railLoss
  /-- BYPASS (R914): The TAP instruction BYPASS selects the bypass register. -/
  | bypass (bits : List Bool)
  /-- IDCODE (R914): The TAP instruction IDCODE shifts out the IDCODE. -/
  | idcode
  /-- SAMPLE_PRELOAD (R914): The TAP instruction SAMPLE/PRELOAD samples the boundary cells. -/
  | samplePreload (lands cells : List Bool)
  /-- EXTEST (R914): EXTEST drives the boundary cells only in reset and an early life-cycle state. -/
  | extest (resetLow : Bool)
  /-- CLAMP (R914): CLAMP holds the boundary outputs under the same conditions. -/
  | clamp (resetLow : Bool)
  /-- HIGHZ (R914): HIGHZ floats the boundary outputs under the same conditions. -/
  | highz (resetLow : Bool)
  /-- ETH_PORT_TRAIN_DONE (R706): A 400GbE port's training and block lock complete, so the port goes UP and joins the live members of every group within 1 µs. -/
  | ethPortTrainDone (port : Nat)
  /-- CORE_RESTART_DONE (R855): A restarting Spindle core finishes reloading its code and returns to RUN, resuming its waiting duties. -/
  | coreRestartDone (core : Nat)
  /-- SELF_TEST_COMPLETE (R771): A device self-test finishes its segments, or fails one with status 0x0904, and records its result in the self-test log. -/
  | selfTestComplete (port : Nat) (failed : Option Nat)
  /-- NVME_CQ_DOORBELL (R757): A write of an NVMe completion queue head doorbell frees completion entries so the controller may post further completions. -/
  | nvmeCqDoorbell (port q head : Nat)
  /-- DOE_DISCOVERY (R790): A DOE Discovery data object arriving at a PF0 mailbox is answered with the supported data object types. -/
  | doeDiscovery (port index : Nat)
  /-- WITHDRAWAL_ANNOUNCE (R542): A member receives another part's announcement of withdrawal under R314 and suspects it, reporting to the coordinator. -/
  | withdrawalAnnounce (n part : Nat)
  deriving DecidableEq, Repr

end Sys2Proof
end

