-- ==== Sys2Proof/Decode.lean ====
section
/-! DEFINITION. The command that a word spells: spec/opcode_table.json gives no row any bits, so no word spells one. -/

namespace Sys2Proof

/-- The command that the word `w` of `nbits` bits spells by the table's bits. The table gives bits for no row: the
part takes its commands as register accesses, received records, pins and instants, never as words of a program. -/
def decodeTableWord (_nbits _w : Nat) : Option Instr := none

end Sys2Proof
end

