-- ==== Sys2Proof/Machine/Bits.lean ====
section
/-! DEFINITION. Bit fields, sign extension and byte order: the helpers every record and register uses. -/

namespace Sys2Proof.Machine

/-- Bits `[hi:lo]` of `n`. -/
def bitsOf (n hi lo : Nat) : Nat := (n >>> lo) % 2 ^ (hi + 1 - lo)

/-- Bit `i` of `n`. -/
def bitOf (n i : Nat) : Bool := (n >>> i) % 2 == 1

/-- `n` with its bits `[hi:lo]` replaced by `x`. -/
def putBits (n hi lo x : Nat) : Nat :=
  (n >>> (hi + 1)) <<< (hi + 1) + ((x % 2 ^ (hi + 1 - lo)) <<< lo) + n % 2 ^ lo

/-- Field `[hi:lo]` of a register word. -/
def fieldOf (w : Word) (hi lo : Nat) : Nat := bitsOf w.toNat hi lo

/-- A register word with field `[hi:lo]` replaced. -/
def setField (w : Word) (hi lo x : Nat) : Word := BitVec.ofNat 32 (putBits w.toNat hi lo x)

/-- A Bool as the bit it stands for. -/
def bit (b : Bool) : Nat := if b then 1 else 0

/-- The number that a little-endian list of bytes holds. -/
def leNat : List Byte → Nat
  | [] => 0
  | b :: bs => b.toNat + 256 * leNat bs

/-- The low `k` bytes of `n`, least significant first. -/
def leBytes : Nat → Nat → List Byte
  | 0, _ => []
  | k + 1, n => BitVec.ofNat 8 n :: leBytes k (n / 256)

/-- `n`, taken as `w` bits of two's complement, as an integer. -/
def signed (w n : Nat) : Int := if n % 2 ^ w < 2 ^ (w - 1) then (n % 2 ^ w : Nat) else (n % 2 ^ w : Nat) - (2 ^ w : Nat)

/-- The `w`-bit two's complement of an integer. -/
def unsigned (w : Nat) (i : Int) : Nat := (i % (2 ^ w : Nat)).toNat

/-- An integer clamped to `[lo, hi]`. -/
def clampInt (lo hi i : Int) : Int := if i < lo then lo else if hi < i then hi else i

/-- Rounds `n` up to a multiple of `k` (k nonzero). -/
def roundUp (n k : Nat) : Nat := (n + k - 1) / k * k

/-- The number of 1 bits in the low `w` bits of `n`. -/
def popCount : Nat → Nat → Nat
  | 0, _ => 0
  | w + 1, n => n % 2 + popCount w (n / 2)

/-- The positions, below `w`, of the 1 bits of `n`, rising. -/
def onesOf (w n : Nat) : List Nat := (List.range w).filter (fun i => bitOf n i)

/-- The lowest 1 bit of `n` below `w`. -/
def lowestOne (w n : Nat) : Option Nat := (onesOf w n).head?

/-- The low `k` bits of `n`, reversed. -/
def bitRev : Nat → Nat → Nat
  | 0, _ => 0
  | k + 1, n => (n % 2) * 2 ^ k + bitRev k (n / 2)

/-- The later of two values of a free-running index: is `b` later than `a` modulo `2 ^ w` (R102)? -/
def laterMod (w a b : Nat) : Bool :=
  let d := (b + 2 ^ w - a % 2 ^ w) % 2 ^ w
  1 ≤ d && d < 2 ^ (w - 1)

/-- `b - a` modulo `2 ^ w`: how far a free-running index `b` is ahead of `a`. -/
def aheadMod (w a b : Nat) : Nat := (b % 2 ^ w + 2 ^ w - a % 2 ^ w) % 2 ^ w

/-- Byte `i` of a list, zero beyond its end. -/
def byteAt (bs : List Byte) (i : Nat) : Nat := (bs.getD i 0).toNat

/-- Bytes `[i, i + k)` of a record as a little-endian number. -/
def leAt (bs : List Byte) (i k : Nat) : Nat := leNat ((bs.drop i).take k)

/-- A little-endian record built from (width in bytes, value) pairs. -/
def record : List (Nat × Nat) → List Byte
  | [] => []
  | (k, v) :: r => leBytes k v ++ record r

/-- `bs` cut or padded with zero bytes to length `n`. -/
def fitBytes (n : Nat) (bs : List Byte) : List Byte := bs.take n ++ List.replicate (n - bs.length) 0

/-- Strictly rising. -/
def strictlyRising : List Nat → Bool
  | a :: b :: r => a < b && strictlyRising (b :: r)
  | _ => true

end Sys2Proof.Machine
end

