-- ==== Sys2Proof/Machine/Aes.lean ====
section
/-! DEFINITION. AES-256 in Galois/Counter Mode (FIPS 197 and SP 800-38D, which file 00 names), and CRC-32C. -/

namespace Sys2Proof.Machine

/-! ### AES-256 -/

/-- Product by x in GF(2^8). -/
def xtime (a : Nat) : Nat := if 128 ≤ a then (2 * a) % 256 ^^^ 0x1B else 2 * a

/-- Product in GF(2^8), over the low `k` bits of `b`. -/
def gfMulN : Nat → Nat → Nat → Nat
  | 0, _, _ => 0
  | k + 1, a, b => (if b % 2 = 1 then a else 0) ^^^ gfMulN k (xtime a) (b / 2)

def gfMul (a b : Nat) : Nat := gfMulN 8 a b

/-- The inverse in GF(2^8): the 254th power, as 2 + 4 + ... + 128. -/
def gfInv (a : Nat) : Nat :=
  let sq (x : Nat) : Nat := gfMul x x
  let p2 := sq a
  let p4 := sq p2
  let p8 := sq p4
  let p16 := sq p8
  let p32 := sq p16
  let p64 := sq p32
  gfMul p2 (gfMul p4 (gfMul p8 (gfMul p16 (gfMul p32 (gfMul p64 (sq p64))))))

/-- Left rotation of a byte. -/
def rotl8 (x k : Nat) : Nat := (x * 2 ^ k) % 256 + x / 2 ^ (8 - k)

/-- The S-box. -/
def sbox (a : Nat) : Nat :=
  let b := gfInv a
  b ^^^ rotl8 b 1 ^^^ rotl8 b 2 ^^^ rotl8 b 3 ^^^ rotl8 b 4 ^^^ 0x63

/-- The S-box as a table. -/
def sboxTable : List Nat := (List.range 256).map sbox

def subByte (t : List Nat) (a : Nat) : Nat := t.getD a 0

/-- XOR of two lists of bytes. -/
def xorList (a b : List Nat) : List Nat := List.zipWith (fun x y => x ^^^ y) a b

/-- Words 8 .. of the key schedule, newest first, from the words so far (newest first); `i` is the next word's number. -/
def keyWords (t : List Nat) : Nat → Nat → List (List Nat) → List (List Nat)
  | 0, _, ws => ws
  | f + 1, i, ws =>
    let prev := ws.headD []
    let back := ws.getD 7 []
    let temp :=
      if i % 8 = 0 then
        xorList ((prev.drop 1 ++ prev.take 1).map (subByte t)) [2 ^ (i / 8 - 1) % 256, 0, 0, 0]
      else if i % 8 = 4 then prev.map (subByte t)
      else prev
    keyWords t f (i + 1) (xorList back temp :: ws)

/-- The fifteen round keys of a 32-byte key, 16 bytes each. -/
def roundKeys (t : List Nat) (key : List Nat) : List (List Nat) :=
  let start := ((List.range 8).map (fun i => (key.drop (4 * i)).take 4)).reverse
  let ws := (keyWords t 52 8 start).reverse
  (List.range 15).map (fun r => ((ws.drop (4 * r)).take 4).flatten)

/-- ShiftRows: byte r + 4c comes from row r, column c + r. -/
def shiftRows (s : List Nat) : List Nat := (List.range 16).map (fun i => s.getD (i % 4 + 4 * ((i / 4 + i % 4) % 4)) 0)

/-- MixColumns. -/
def mixColumns (s : List Nat) : List Nat :=
  (List.range 16).map (fun i =>
    let c := i / 4 * 4
    let b (k : Nat) : Nat := s.getD (c + (i + k) % 4) 0
    xtime (b 0) ^^^ (xtime (b 1) ^^^ b 1) ^^^ b 2 ^^^ b 3)

/-- Rounds 1 to 13 and the last. -/
def aesRounds (t : List Nat) : List (List Nat) → List Nat → List Nat
  | [], s => s
  | [k], s => xorList (shiftRows (s.map (subByte t))) k
  | k :: ks, s => aesRounds t ks (xorList (mixColumns (shiftRows (s.map (subByte t)))) k)

/-- AES-256 of a 16-byte block under the round keys `ks`. -/
def aesBlock (t : List Nat) (ks : List (List Nat)) (s : List Nat) : List Nat :=
  aesRounds t (ks.drop 1) (xorList s (ks.headD []))

/-! ### Galois/Counter Mode -/

/-- A big-endian list of bytes as a number. -/
def beNat (bs : List Nat) : Nat := bs.foldl (fun n b => 256 * n + b) 0

/-- The low `k` bytes of a number, most significant first. -/
def beBytes (k n : Nat) : List Nat := (List.range k).map (fun i => n / 256 ^ (k - 1 - i) % 256)

/-- Product in GF(2^128) as GCM orders its bits: `k` bits of `x` are left, from the most significant. -/
def ghMul : Nat → Nat → Nat → Nat → Nat
  | 0, _, _, z => z
  | k + 1, x, v, z =>
    ghMul k x (if v % 2 = 1 then v / 2 ^^^ 0xE1000000000000000000000000000000 else v / 2) (if bitOf x k then z ^^^ v else z)

/-- GHASH over 16-byte blocks, the last one filled with zeros. -/
def ghashN (h : Nat) : Nat → Nat → List Nat → Nat
  | 0, y, _ => y
  | _, y, [] => y
  | f + 1, y, bs =>
    let b := bs.take 16
    ghashN h f (ghMul 128 (y ^^^ beNat (b ++ List.replicate (16 - b.length) 0)) h 0) (bs.drop 16)

/-- Counter-mode encryption from counter `c` (R681, R801). -/
def ctrN (t : List Nat) (ks : List (List Nat)) (nonce : List Nat) : Nat → Nat → List Nat → List Nat
  | 0, _, _ => []
  | _, _, [] => []
  | f + 1, c, bs => xorList (bs.take 16) (aesBlock t ks (nonce ++ beBytes 4 c)) ++ ctrN t ks nonce f (c + 1) (bs.drop 16)

def natBytes (bs : List Byte) : List Nat := bs.map (fun b => b.toNat)
def byteList (bs : List Nat) : List Byte := bs.map (fun b => BitVec.ofNat 8 b)

/-- The tag of ciphertext `ct` with additional data `aad`. -/
def gcmTag (t : List Nat) (ks : List (List Nat)) (nonce aad ct : List Nat) : List Nat :=
  let h := beNat (aesBlock t ks (List.replicate 16 0))
  let y := ghashN h ct.length (ghashN h aad.length 0 aad) ct
  let y := ghMul 128 (y ^^^ (8 * aad.length * 2 ^ 64 + 8 * ct.length)) h 0
  xorList (beBytes 16 y) (aesBlock t ks (nonce ++ [0, 0, 0, 1]))

/-- AES-256-GCM: the ciphertext of `pt` and its tag. -/
def gcmSeal (key nonce aad pt : List Byte) : List Byte × List Byte :=
  let t := sboxTable
  let ks := roundKeys t (natBytes key)
  let ct := ctrN t ks (natBytes nonce) pt.length 2 (natBytes pt)
  (byteList ct, byteList (gcmTag t ks (natBytes nonce) (natBytes aad) ct))

/-- The plaintext of `ct`, when its tag is good. -/
def gcmOpen (key nonce aad ct tag : List Byte) : Option (List Byte) :=
  let t := sboxTable
  let ks := roundKeys t (natBytes key)
  if byteList (gcmTag t ks (natBytes nonce) (natBytes aad) (natBytes ct)) = tag then
    some (byteList (ctrN t ks (natBytes nonce) ct.length 2 (natBytes ct)))
  else none

/-! ### CRC-32C -/

def crc32cBit (c : Nat) : Nat := if c % 2 = 1 then (c >>> 1) ^^^ 0x82F63B78 else c >>> 1

def crc32cByte (c : Nat) (b : Byte) : Nat :=
  crc32cBit (crc32cBit (crc32cBit (crc32cBit (crc32cBit (crc32cBit (crc32cBit (crc32cBit (c ^^^ b.toNat))))))))

/-- CRC-32C of `bs` with the initial value `seed`. -/
def crc32cFrom (seed : Nat) (bs : List Byte) : Nat := bs.foldl crc32cByte seed ^^^ (2 ^ 32 - 1)

end Sys2Proof.Machine
end

