-- ==== Sys2Proof/Config.lean ====
section
/-! DEFINITION. What an implementation fixes and the spec does not, and the free values: constants without a
body, so that no proof can see what they are. -/

namespace Sys2Proof

/-- A free value (log entry 1): the `n`-th value that the spec leaves open in a run, as a number that its user
cuts to the width it needs. -/
opaque Config.freeValue : Nat → Nat

/-- Ed25519 and ML-DSA-65 verification of a signature over a message under a public key (R785): uninterpreted. -/
opaque Config.verifyEd : List (BitVec 8) → List (BitVec 8) → List (BitVec 8) → Bool

opaque Config.verifyMl : List (BitVec 8) → List (BitVec 8) → List (BitVec 8) → Bool

/-- The Ed25519 and ML-DSA-65 signatures of a message by the holder of a public key (R785): uninterpreted. -/
opaque Config.signEd : List (BitVec 8) → List (BitVec 8) → List (BitVec 8)

opaque Config.signMl : List (BitVec 8) → List (BitVec 8) → List (BitVec 8)

/-- The public keys of the alias pair of another part, by part ID (R539, R783). -/
opaque Config.aliasKeys : Nat → List (BitVec 8)

/-- Ed25519 and ML-DSA-65 public keys of a seed (R783), X25519 and ML-KEM-768 public keys of a private key, the X25519 secret
of a private and a public key, and ML-KEM decapsulation of a ciphertext (R795, R797): uninterpreted. -/
opaque Config.edPublic : List (BitVec 8) → List (BitVec 8)
opaque Config.mlPublic : List (BitVec 8) → List (BitVec 8)
opaque Config.xPublic : List (BitVec 8) → List (BitVec 8)
opaque Config.kemPublic : List (BitVec 8) → List (BitVec 8)
opaque Config.xShared : List (BitVec 8) → List (BitVec 8) → List (BitVec 8)
opaque Config.kemDecaps : List (BitVec 8) → List (BitVec 8) → List (BitVec 8)

/-- The public keys of the Shehijor root and product certificates (R786), and those of the owner whose key hash is given. -/
opaque Config.rootKeys : List (BitVec 8)
opaque Config.productKeys : List (BitVec 8)
opaque Config.ownerKeys : List (BitVec 8) → List (BitVec 8)

/-- The X.509 chain of slot 0 (R791) as SPDM carries it, and the product and device certificates kept in flash (R837). -/
opaque Config.certChain : List (BitVec 8) → List (BitVec 8)
opaque Config.flashCert : Nat → List (BitVec 8)

/-- The register-map revision of the block with a code (R8). -/
opaque Config.blockRev : Nat → Nat

/-- The digest of Distaff's ROM, and the measurement of the configuration: variant, life-cycle state, release count, owner key
hash, anti-rollback counts and slice count, whose byte form the spec does not give (file 14). -/
opaque Config.romDigest : List (BitVec 8)
opaque Config.configBytes : Nat → Nat → Nat → List (BitVec 8) → List Nat → Nat → List (BitVec 8)

/-- The Ethernet frame of a UDP datagram to a collector: its address, its UDP port and the payload (R897). -/
opaque Config.udpFrame : Nat → Nat → List (BitVec 8) → List (BitVec 8)

/-- Vendor and device numbers of IDENT (R582), which the spec does not give. -/
opaque Config.vendorId : Nat
opaque Config.deviceId : Nat

/-- Bytes of NVMe data pages that the spec leaves to the part: by kind of page, its index, and the offset (log entry 1). -/
opaque Config.nvmeByte : Nat → Nat → Nat → BitVec 8

end Sys2Proof
end

