-- ==== Sys2Proof/Machine/Sha3.lean ====
section
/-! DEFINITION. SHA3, SHAKE and cSHAKE/KMAC over bytes (FIPS 202, SP 800-185), which R33 names as the part's hash
functions. A Keccak state is 25 lanes of 64 bits, lane x + 5y. -/

namespace Sys2Proof.Machine

/-- Rotates a 64-bit lane left. -/
def rolLane (x n : Nat) : Nat := ((x <<< (n % 64)) ||| (x >>> (64 - n % 64))) % 2 ^ 64

/-- Lane `i` of a state. -/
def laneOf (a : List Nat) (i : Nat) : Nat := a.getD i 0

/-- The rotation offsets of rho, by lane x + 5y. -/
def keccakRho : List Nat :=
  [0, 1, 62, 28, 27, 36, 44, 6, 55, 20, 3, 10, 43, 25, 39, 41, 45, 15, 21, 8, 18, 2, 61, 56, 14]

/-- The round constants of iota. -/
def keccakRc : List Nat :=
  [0x0000000000000001, 0x0000000000008082, 0x800000000000808A, 0x8000000080008000, 0x000000000000808B,
   0x0000000080000001, 0x8000000080008081, 0x8000000000008009, 0x000000000000008A, 0x0000000000000088,
   0x0000000080008009, 0x000000008000000A] ++
  [0x000000008000808B, 0x800000000000008B, 0x8000000000008089, 0x8000000000008003, 0x8000000000008002,
   0x8000000000000080, 0x000000000000800A, 0x800000008000000A, 0x8000000080008081, 0x8000000000008080,
   0x0000000080000001, 0x8000000080008008]

/-- One round of Keccak-f[1600]. -/
def keccakRound (a : List Nat) (rc : Nat) : List Nat :=
  let c := (List.range 5).map (fun x => laneOf a x ^^^ laneOf a (x + 5) ^^^ laneOf a (x + 10) ^^^ laneOf a (x + 15) ^^^ laneOf a (x + 20))
  let d := (List.range 5).map (fun x => laneOf c ((x + 4) % 5) ^^^ rolLane (laneOf c ((x + 1) % 5)) 1)
  let t := (List.range 25).map (fun i => laneOf a i ^^^ laneOf d (i % 5))
  let b := (List.range 25).map (fun i =>
    let x := i % 5
    let y := i / 5
    let j := (x + 3 * y) % 5 + 5 * x
    rolLane (laneOf t j) (keccakRho.getD j 0))
  (List.range 25).map (fun i =>
    let x := i % 5
    let y := i / 5
    let v := laneOf b i ^^^ ((2 ^ 64 - 1 - laneOf b ((x + 1) % 5 + 5 * y)) &&& laneOf b ((x + 2) % 5 + 5 * y))
    if i = 0 then v ^^^ rc else v)

/-- Keccak-f[1600]. -/
def keccakF (a : List Nat) : List Nat := keccakRc.foldl keccakRound a

/-- Absorbs one block of bytes into the state. -/
def keccakAbsorb (a : List Nat) (block : List Byte) : List Nat :=
  keccakF ((List.range 25).map (fun i => laneOf a i ^^^ leNat ((block.drop (8 * i)).take 8)))

/-- Absorbs a padded message, `fuel` blocks of `rate` bytes. -/
def keccakAbsorbAll (rate : Nat) : Nat → List Nat → List Byte → List Nat
  | 0, a, _ => a
  | f + 1, a, m => keccakAbsorbAll rate f (keccakAbsorb a (m.take rate)) (m.drop rate)

/-- The bytes of the first `rate` bytes of a state. -/
def keccakOut (rate : Nat) (a : List Nat) : List Byte := (a.flatMap (fun l => leBytes 8 l)).take rate

/-- Squeezes `fuel` blocks. -/
def keccakSqueeze (rate : Nat) : Nat → List Nat → List Byte
  | 0, _ => []
  | f + 1, a => keccakOut rate a ++ keccakSqueeze rate f (keccakF a)

/-- Pads a message with its domain byte to whole blocks. -/
def keccakPad (rate suffix : Nat) (m : List Byte) : List Byte :=
  let z := rate - (m.length + 1) % rate
  let pad := BitVec.ofNat 8 suffix :: List.replicate (if z = rate then 0 else z) 0
  let full := m ++ pad
  full.take (full.length - 1) ++ [BitVec.ofNat 8 ((full.getLast?.getD 0).toNat ^^^ 0x80)]

/-- The Keccak sponge of `rate` bytes with a domain suffix, `n` bytes out. -/
def keccak (rate suffix : Nat) (m : List Byte) (n : Nat) : List Byte :=
  let p := keccakPad rate suffix m
  (keccakSqueeze rate (n / rate + 1) (keccakAbsorbAll rate (p.length / rate) (List.replicate 25 0) p)).take n

/-- SHA3-256. -/
def sha3x256 (m : List Byte) : List Byte := keccak 136 0x06 m 32

/-- SHA3-384. -/
def sha3x384 (m : List Byte) : List Byte := keccak 104 0x06 m 48

/-- SHAKE256 with `n` bytes out. -/
def shake256 (m : List Byte) (n : Nat) : List Byte := keccak 136 0x1F m n

/-- The minimal big-endian bytes of a number below 2^64, at least one. -/
def minBytesBe (n : Nat) : List Byte :=
  let bs := (leBytes 8 n).reverse.dropWhile (fun b => b == 0)
  if bs.isEmpty then [0] else bs

/-- left_encode of SP 800-185. -/
def leftEncode (n : Nat) : List Byte := BitVec.ofNat 8 (minBytesBe n).length :: minBytesBe n

/-- right_encode of SP 800-185. -/
def rightEncode (n : Nat) : List Byte := minBytesBe n ++ [BitVec.ofNat 8 (minBytesBe n).length]

/-- encode_string of SP 800-185. -/
def encodeString (m : List Byte) : List Byte := leftEncode (8 * m.length) ++ m

/-- bytepad of SP 800-185. -/
def bytepad (w : Nat) (m : List Byte) : List Byte :=
  let x := leftEncode w ++ m
  x ++ List.replicate ((w - x.length % w) % w) 0

/-- The bytes of an ASCII string. -/
def asciiBytes (t : String) : List Byte := t.toList.map (fun c => BitVec.ofNat 8 c.toNat)

/-- KMAC256 with key, data, output length in bytes and customisation string. -/
def kmac256 (key m : List Byte) (n : Nat) (custom : List Byte) : List Byte :=
  keccak 136 0x04
    (bytepad 136 (encodeString (asciiBytes "KMAC") ++ encodeString custom) ++ bytepad 136 (encodeString key) ++ m ++
      rightEncode (8 * n)) n

end Sys2Proof.Machine
end

