-- ==== Sys2Proof/Machine/Pixels.lean ====
section
/-! DEFINITION. Decode pipes (R476 to R481): the JPEG subset of ITU-T T.81 with the integer transform of R478, raw and
mosaic records, and YCbCr frames. An image is its width, height, channels, bits per sample and samples, row-major with
interleaved channels; a decode failure is none. -/

namespace Sys2Proof.Machine

/-- A decoded image. -/
structure Image where
  w : Nat
  h : Nat
  c : Nat
  depth : Nat
  px : List Nat
  deriving DecidableEq, Repr

/-! ### JPEG: Huffman tables and bits -/

/-- A Huffman table (T.81 DHT): how many codes of each length 1 to 16, and the values in code order. -/
structure Huff where
  counts : List Nat
  vals : List Nat
  deriving DecidableEq, Repr

/-- Reads one Huffman value: `code` is read so far, `first` the first code of this length, `idx` the values before it. -/
def huffRead (vals : List Nat) : List Nat → Nat → Nat → Nat → List Bool → Option (Nat × List Bool)
  | [], _, _, _, _ => none
  | _, _, _, _, [] => none
  | n :: ns, code, first, idx, b :: bs =>
    let code := 2 * code + bit b
    let first := 2 * first
    if code < first + n then
      match vals[idx + (code - first)]? with
      | some v => some (v, bs)
      | none => none
    else huffRead vals ns code (first + n) (idx + n) bs

def Huff.read (t : Huff) (bs : List Bool) : Option (Nat × List Bool) := huffRead t.vals t.counts 0 0 0 bs

/-- Reads `n` bits, most significant first. -/
def takeBits : Nat → Nat → List Bool → Option (Nat × List Bool)
  | 0, acc, bs => some (acc, bs)
  | _, _, [] => none
  | n + 1, acc, b :: bs => takeBits n (2 * acc + bit b) bs

/-- RECEIVE and EXTEND of T.81. -/
def receiveExtend (n : Nat) (bs : List Bool) : Option (Int × List Bool) :=
  match takeBits n 0 bs with
  | none => none
  | some (v, bs) => some (if n ≠ 0 ∧ v < 2 ^ (n - 1) then (v : Int) - (2 ^ n : Nat) + 1 else v, bs)

/-- The AC coefficients of a block from index `k` on: (zigzag index, value) pairs. -/
def acRead (t : Huff) : Nat → Nat → List Bool → Option (List (Nat × Int) × List Bool)
  | 0, _, bs => some ([], bs)
  | f + 1, k, bs =>
    if 63 < k then some ([], bs) else
    match t.read bs with
    | none => none
    | some (rs, bs) =>
      let r := rs / 16
      let z := rs % 16
      if z = 0 then
        if r = 15 then acRead t f (k + 16) bs
        else if r = 0 then some ([], bs) else none
      else if 63 < k + r then none
      else match receiveExtend z bs with
        | none => none
        | some (v, bs) =>
          match acRead t f (k + r + 1) bs with
          | none => none
          | some (l, bs) => some ((k + r, v) :: l, bs)

/-- The row-major position of each zigzag index. -/
def zigzag : List Nat :=
  [0, 1, 8, 16, 9, 2, 3, 10, 17, 24, 32, 25, 18, 11, 4, 5,
   12, 19, 26, 33, 40, 48, 41, 34, 27, 20, 13, 6, 7, 14, 21, 28,
   35, 42, 49, 56, 57, 50, 43, 36, 29, 22, 15, 23, 30, 37, 44, 51,
   58, 59, 52, 45, 38, 31, 39, 46, 53, 60, 61, 54, 47, 55, 62, 63]

/-- One block: its DC value and its dequantised coefficients, row-major (row the vertical frequency). -/
def blockRead (dc ac : Huff) (q : List Nat) (pred : Int) (bs : List Bool) : Option (Int × List Int × List Bool) :=
  match dc.read bs with
  | none => none
  | some (n, bs) =>
    if 11 < n then none else
    match receiveExtend n bs with
    | none => none
    | some (d, bs) =>
      match acRead ac 64 1 bs with
      | none => none
      | some (l, bs) =>
        let cs := (0, pred + d) :: l
        let dq := cs.map (fun e => (zigzag.getD e.1 0, e.2 * Int.ofNat (q.getD e.1 0)))
        some (pred + d, (List.range 64).map (fun i => ((dq.find? (fun e => e.1 = i)).map (fun e => e.2)).getD 0), bs)

/-! ### JPEG: the transform (R478) -/

/-- K[x][u], row-major. -/
def idctK : List Int :=
  [2896, 4017, 3784, 3406, 2896, 2276, 1567, 799, 2896, 3406, 1567, -799, -2896, -4017, -3784, -2276,
   2896, 2276, -1567, -4017, -2896, 799, 3784, 3406, 2896, 799, -3784, -2276, 2896, 3406, -1567, -4017,
   2896, -799, -3784, 2276, 2896, -3406, -1567, 4017, 2896, -2276, -1567, 4017, -2896, -799, 3784, -3406,
   2896, -3406, 1567, 799, -2896, 4017, -3784, 2276, 2896, -4017, 3784, -3406, 2896, -2276, 1567, -799]

def clamp8 (i : Int) : Nat := (clampInt 0 255 i).toNat

/-- An arithmetic shift right. -/
def sar (i : Int) (n : Nat) : Int := i / (2 ^ n : Nat)

/-- The samples of a block from its coefficients F(u, v), u the row and v the column (R478). -/
def idct (f : List Int) : List Nat :=
  let k (x u : Nat) : Int := idctK.getD (8 * x + u) 0
  let sum (g : Nat → Int) : Int := ((List.range 8).map g).foldl (· + ·) 0
  let t : List Int := (List.range 64).map (fun i => sar (sum (fun u => k (i / 8) u * f.getD (8 * u + i % 8) 0) + 512) 10)
  (List.range 64).map (fun i => clamp8 (sar (sum (fun v => k (i % 8) v * t.getD (8 * (i / 8) + v) 0) + 32768) 16 + 128))

/-! ### JPEG: segments (R477) -/

/-- A component of the frame: identifier, sampling factors, quantisation table; then the scan's tables. -/
structure JComp where
  id : Nat
  hs : Nat
  vs : Nat
  tq : Nat
  td : Nat := 0
  ta : Nat := 0
  deriving DecidableEq, Repr

/-- What the headers have given so far. -/
structure JHead where
  qt : List (Nat × List Nat) := []
  dc : List (Nat × Huff) := []
  ac : List (Nat × Huff) := []
  ri : Nat := 0
  w : Nat := 0
  h : Nat := 0
  comps : List JComp := []
  deriving DecidableEq, Repr

def be2 (bs : List Byte) (i : Nat) : Nat := 256 * byteAt bs i + byteAt bs (i + 1)

/-- The tables of a DQT segment: 8-bit tables only. -/
def dqtRead : Nat → List Byte → JHead → Option JHead
  | 0, _, _ => none
  | f + 1, bs, j =>
    if bs = [] then some j
    else if bs.length < 65 ∨ 3 < byteAt bs 0 then none
    else dqtRead f (bs.drop 65) { j with qt := (byteAt bs 0, (List.range 64).map (fun i => byteAt bs (i + 1))) :: j.qt }

/-- The tables of a DHT segment: two of each class. -/
def dhtRead : Nat → List Byte → JHead → Option JHead
  | 0, _, _ => none
  | f + 1, bs, j =>
    if bs = [] then some j
    else
      let tc := byteAt bs 0 / 16
      let th := byteAt bs 0 % 16
      let counts := (List.range 16).map (fun i => byteAt bs (i + 1))
      let n := counts.sum
      if bs.length < 17 + n ∨ 1 < tc ∨ 1 < th ∨ 256 < n then none
      else
        let t : Huff := ⟨counts, (List.range n).map (fun i => byteAt bs (17 + i))⟩
        dhtRead f (bs.drop (17 + n)) (if tc = 0 then { j with dc := (th, t) :: j.dc } else { j with ac := (th, t) :: j.ac })

/-- The frame header SOF0: 8-bit samples, one or three components with the sampling of R477. -/
def sofRead (bs : List Byte) (j : JHead) : Option JHead :=
  let n := byteAt bs 5
  let comps := (List.range n).map (fun i =>
    (⟨byteAt bs (6 + 3 * i), byteAt bs (7 + 3 * i) / 16, byteAt bs (7 + 3 * i) % 16, byteAt bs (8 + 3 * i), 0, 0⟩ : JComp))
  let lumaOk := match comps with
    | c :: _ => (c.hs = 1 && c.vs = 1) || (c.hs = 2 && c.vs = 1) || (c.hs = 2 && c.vs = 2)
    | [] => false
  if byteAt bs 0 ≠ 8 ∨ (n ≠ 1 ∧ n ≠ 3) ∨ bs.length ≠ 6 + 3 * n ∨ j.comps ≠ [] ∨ !lumaOk ∨
      (comps.drop 1).any (fun c => c.hs ≠ 1 || c.vs ≠ 1) ∨ comps.any (fun c => 3 < c.tq) then none
  else some { j with h := be2 bs 1, w := be2 bs 3, comps }

/-- The scan header: every component of the frame in one baseline scan. -/
def sosRead (bs : List Byte) (j : JHead) : Option JHead :=
  let n := byteAt bs 0
  let sel := (List.range n).map (fun i => (byteAt bs (1 + 2 * i), byteAt bs (2 + 2 * i) / 16, byteAt bs (2 + 2 * i) % 16))
  let cs := List.zipWith (fun (c : JComp) (x : Nat × Nat × Nat) => { c with td := x.2.1, ta := x.2.2 }) j.comps sel
  if n ≠ j.comps.length ∨ n = 0 ∨ bs.length ≠ 4 + 2 * n ∨ (sel.map (fun x => x.1)) ≠ j.comps.map (fun c => c.id) ∨
      byteAt bs (1 + 2 * n) ≠ 0 ∨ byteAt bs (2 + 2 * n) ≠ 63 ∨ byteAt bs (3 + 2 * n) ≠ 0 ∨
      cs.any (fun c => 1 < c.td || 1 < c.ta) then none
  else some { j with comps := cs }

/-- The marker segments up to and with SOS; the result is the headers and the bytes after. -/
def headRead : Nat → List Byte → JHead → Option (JHead × List Byte)
  | 0, _, _ => none
  | f + 1, bs, j =>
    if byteAt bs 0 ≠ 0xFF ∨ bs.length < 4 then none
    else if byteAt bs 1 = 0xFF then headRead f (bs.drop 1) j
    else
      let m := byteAt bs 1
      let len := be2 bs 2
      let body := (bs.drop 4).take (len - 2)
      let rest := bs.drop (2 + len)
      if len < 2 ∨ bs.length < 2 + len then none
      else if m = 0xDA then (match sosRead body j with
        | some j => some (j, rest)
        | none => none)
      else
        let r := if m = 0xDB then dqtRead 5 body j
          else if m = 0xC4 then dhtRead 5 body j
          else if m = 0xC0 then sofRead body j
          else if m = 0xDD then (if len = 4 then some { j with ri := be2 body 0 } else none)
          else if (0xE0 ≤ m ∧ m ≤ 0xEF) ∨ m = 0xFE then some j
          else none
        match r with
        | some j => headRead f rest j
        | none => none

/-- The bits of a byte, most significant first. -/
def byteBits (b : Byte) : List Bool := (List.range 8).map (fun i => bitOf b.toNat (7 - i))

/-- The entropy-coded segments of a scan, cut at its RST markers in their order, stuffing removed; the scan ends at EOI. -/
def scanRead : Nat → Nat → List Bool → List Byte → Option (List (List Bool))
  | 0, _, _, _ => none
  | f + 1, rst, acc, bs =>
    match bs with
    | [] => none
    | b :: r =>
      if b ≠ 0xFF then scanRead f rst (acc ++ byteBits b) r
      else match r with
        | [] => none
        | m :: r =>
          if m = 0 then scanRead f rst (acc ++ byteBits b) r
          else if m = 0xFF then scanRead f rst acc (m :: r)
          else if m = 0xD9 then some [acc]
          else if m.toNat = 0xD0 + rst then (match scanRead f ((rst + 1) % 8) [] r with
            | some l => some (acc :: l)
            | none => none)
          else none

/-! ### JPEG: scans and planes -/

def tableOf {α : Type} (l : List (Nat × α)) (i : Nat) : Option α := (l.find? (fun e => e.1 = i)).map (fun e => e.2)

/-- The blocks of one MCU, each as (component, block column, block row) within the MCU. -/
def mcuBlocks (comps : List JComp) : List (Nat × Nat × Nat) :=
  if comps.length = 1 then [(0, 0, 0)]
  else ((List.range comps.length).zip comps).flatMap (fun e =>
    (List.range e.2.vs).flatMap (fun y => (List.range e.2.hs).map (fun x => (e.1, x, y))))

/-- Decodes the blocks of one MCU: predictors, and ((component, x, y), samples) for each. -/
def mcuRead (j : JHead) : List (Nat × Nat × Nat) → List Int → List Bool →
    Option (List ((Nat × Nat × Nat) × List Nat) × List Int × List Bool)
  | [], ps, bs => some ([], ps, bs)
  | b :: rest, ps, bs =>
    match j.comps[b.1]? with
    | none => none
    | some c =>
      match tableOf j.dc c.td, tableOf j.ac c.ta, tableOf j.qt c.tq with
      | some dc, some ac, some q =>
        match blockRead dc ac q (ps.getD b.1 0) bs with
        | none => none
        | some (p, cs, bs) =>
          match mcuRead j rest (ps.set b.1 p) bs with
          | none => none
          | some (l, ps, bs) => some ((b, idct cs) :: l, ps, bs)
      | _, _, _ => none

/-- Decodes `n` MCUs of one entropy-coded segment. -/
def segMcus (j : JHead) : Nat → List Int → List Bool → Option (List (List ((Nat × Nat × Nat) × List Nat)))
  | 0, _, _ => some []
  | n + 1, ps, bs =>
    match mcuRead j (mcuBlocks j.comps) ps bs with
    | none => none
    | some (l, ps, bs) =>
      match segMcus j n ps bs with
      | none => none
      | some r => some (l :: r)

/-- Decodes `n` MCUs over the segments, `ri` to a segment when restarts are in use. -/
def allMcus (j : JHead) : Nat → List (List Bool) → Option (List (List ((Nat × Nat × Nat) × List Nat)))
  | n, [] => if n = 0 then some [] else none
  | n, s :: ss =>
    let k := if j.ri = 0 then n else min n j.ri
    match segMcus j k [0, 0, 0] s with
    | none => none
    | some l =>
      match allMcus j (n - k) ss with
      | none => none
      | some r => some (l ++ r)

/-- The sample of component `ci` at its own coordinates (x, y). -/
def planeAt (mcus : List (List ((Nat × Nat × Nat) × List Nat))) (perRow hs vs ci x y : Nat) : Nat :=
  let mx := x / (8 * hs)
  let my := y / (8 * vs)
  let m := mcus.getD (my * perRow + mx) []
  match m.find? (fun e => e.1.1 = ci && e.1.2.1 = x / 8 % hs && e.1.2.2 = y / 8 % vs) with
  | some e => e.2.getD (8 * (y % 8) + x % 8) 0
  | none => 0

/-- YCbCr to RGB (R479). -/
def yccToRgb (y cb cr : Nat) : List Nat :=
  let yi : Int := y
  let b : Int := (cb : Int) - 128
  let r : Int := (cr : Int) - 128
  [clamp8 (yi + sar (91881 * r + 32768) 16), clamp8 (yi + sar (-22554 * b - 46802 * r + 32768) 16),
   clamp8 (yi + sar (116130 * b + 32768) 16)]

/-- A JPEG record as an image (R477 to R479); `chans` is the feed's C. -/
def jpegDecode (chans : Nat) (bs : List Byte) : Option Image :=
  if byteAt bs 0 ≠ 0xFF ∨ byteAt bs 1 ≠ 0xD8 then none else
  match headRead bs.length (bs.drop 2) {} with
  | none => none
  | some (j, rest) =>
    match j.comps with
    | [] => none
    | y :: cs =>
      let hs := if cs = [] then 1 else y.hs
      let vs := if cs = [] then 1 else y.vs
      let perRow := (j.w + 8 * hs - 1) / (8 * hs)
      let rows := (j.h + 8 * vs - 1) / (8 * vs)
      if j.w = 0 ∨ j.h = 0 ∨ 8192 < j.w ∨ 8192 < j.h then none else
      match scanRead (rest.length + 1) 0 [] rest with
      | none => none
      | some segs =>
        if j.ri = 0 ∧ segs.length ≠ 1 then none else
        match allMcus j (perRow * rows) segs with
        | none => none
        | some mcus =>
          let at' (ci x y : Nat) : Nat := if ci = 0 then planeAt mcus perRow hs vs 0 x y
            else planeAt mcus perRow 1 1 ci (x / hs) (y / vs)
          let pix (x y : Nat) : List Nat :=
            if cs = [] then (if chans = 1 then [at' 0 x y] else [at' 0 x y, at' 0 x y, at' 0 x y])
            else yccToRgb (at' 0 x y) (at' 1 x y) (at' 2 x y)
          some ⟨j.w, j.h, if cs = [] ∧ chans = 1 then 1 else 3, 8,
            (List.range j.h).flatMap (fun y => (List.range j.w).flatMap (fun x => pix x y))⟩

/-! ### Raw, mosaic and YCbCr input (R468, R480, R481) -/

/-- The mirror position of coordinate i - 1 in a line of `n` samples. -/
def mirror (n i : Nat) : Nat := if i = 0 then min 1 (n - 1) else if n < i then n - 2 else i - 1

/-- Colour of the mosaic at (x, y): 0 R, 1 G, 2 B, for a Bayer phase (R465). -/
def bayerColour (phase x y : Nat) : Nat :=
  let t := match phase with
    | 0 => [0, 1, 1, 2]
    | 1 => [2, 1, 1, 0]
    | 2 => [1, 0, 2, 1]
    | _ => [1, 2, 0, 1]
  t.getD (2 * (y % 2) + x % 2) 1

/-- Bilinear demosaic (R480): `at'` is the sample at (x, y). -/
def demosaic (phase w h : Nat) (at' : Nat → Nat → Nat) : List Nat :=
  let l (x y : Nat) := at' (mirror w x) y
  let r (x y : Nat) := at' (mirror w (x + 2)) y
  let u (x y : Nat) := at' x (mirror h y)
  let d (x y : Nat) := at' x (mirror h (y + 2))
  let chan (c x y : Nat) : Nat :=
    let here := bayerColour phase x y
    if here = c then at' x y
    else if here ≠ 1 ∧ c = 1 then (l x y + r x y + u x y + d x y + 2) / 4
    else if here = 1 then
      (if bayerColour phase (x + 1) y = c then (l x y + r x y + 1) / 2 else (u x y + d x y + 1) / 2)
    else (at' (mirror w x) (mirror h y) + at' (mirror w (x + 2)) (mirror h y) + at' (mirror w x) (mirror h (y + 2)) +
      at' (mirror w (x + 2)) (mirror h (y + 2)) + 2) / 4
  (List.range h).flatMap (fun y => (List.range w).flatMap (fun x => [chan 0 x y, chan 1 x y, chan 2 x y]))

/-- A raw record (R468): header W0, H0, then its samples. -/
def rawDecode (codec phase : Nat) (bs : List Byte) : Option Image :=
  let w := leAt bs 0 2
  let h := leAt bs 2 2
  let data := bs.drop 8
  let need := w * h * (if codec = 2 then 3 else if codec = 4 then 2 else 1)
  if bs.length < 8 ∨ w = 0 ∨ h = 0 ∨ data.length < need then none
  else match codec with
    | 2 => some ⟨w, h, 3, 8, (data.take need).map (·.toNat)⟩
    | 3 => some ⟨w, h, 3, 8, demosaic phase w h (fun x y => byteAt data (w * y + x))⟩
    | 4 => some ⟨w, h, 3, 16, demosaic phase w h (fun x y => leAt data (2 * (w * y + x)) 2)⟩
    | _ => none

/-- A YCbCr-4:2:2 frame: Cb, Y, Cr, Y for every two pixels; delivered as Y, Cb, Cr (R481). -/
def yccFrame (w h : Nat) (bs : List Byte) : Image :=
  ⟨w, h, 3, 8, (List.range h).flatMap (fun y => (List.range w).flatMap (fun x =>
    let o := 2 * (w * y) + 4 * (x / 2)
    [byteAt bs (o + 1 + 2 * (x % 2)), byteAt bs o, byteAt bs (o + 2)]))⟩

/-- Do the limits of R476 hold for a buffer of `itemBytes`? -/
def Image.fits (m : Image) (itemBytes : Nat) : Bool :=
  1 ≤ m.w && 1 ≤ m.h && m.w ≤ 8192 && m.h ≤ 8192 && m.w * m.h ≤ 16777216 && m.w * m.h * m.c * (m.depth / 8) + 64 ≤ itemBytes

/-- The bytes of an image's samples. -/
def Image.bytes (m : Image) : List Byte := m.px.flatMap (leBytes (m.depth / 8))

/-- A record under a codec (R468). -/
def decodeRecord (codec phase chans : Nat) (bs : List Byte) : Option Image :=
  if codec = 1 then jpegDecode chans bs else rawDecode codec phase bs

/-- A zero image. -/
def zeroImage (w h c : Nat) : Image := ⟨w, h, c, 8, List.replicate (w * h * c) 0⟩

end Sys2Proof.Machine
end

