-- ==== Sys2Proof/Machine/RegMap.lean ====
section
/-! DEFINITION. The register map of PF0 BAR0 (R7 to R14) and of the doorbell pages (R731): every register of the
spec by name, with its access, its reset value and its reset domain; and every event counter (R20). Registers that
stand only in a slice's doorbell page are kept at 0x0400_0000 + slice * 0x10_0000 + page offset. -/

namespace Sys2Proof.Machine

/-- Access type of a register (R14). An RW, TV or WO register takes writes in the bits of its mask. -/
inductive RegKind where
  | ro | rw | wo | mw | sc | tv
  deriving DecidableEq, Repr

/-- Reset domain of a register (R13), the narrowest scope that resets it. -/
inductive Domain where
  | cold | warm | port | slice | none
  deriving DecidableEq, Repr

/-- One row of the register map: `base` and up to two index dimensions (count, stride). -/
structure RegRow where
  base : Nat
  dims : List (Nat × Nat)
  kind : RegKind
  mask : Nat
  reset : Nat
  dom : Domain
  deriving DecidableEq, Repr

/-- One row of the counter map: offset of the live LO register, holding offset, dimensions and domain. -/
structure CtrRow where
  base : Nat
  hold : Nat
  dims : List (Nat × Nat)
  dom : Domain
  deriving DecidableEq, Repr

/-! ### Register offsets -/

/-- File 00: register GLB_VARIANT. -/
def Reg.GLB_VARIANT : Nat := 0x10
/-- File 00: register GLB_WR_REJ_STAT. -/
def Reg.GLB_WR_REJ_STAT : Nat := 0x40
/-- File 00: register GLB_WR_REJ_ADDR. -/
def Reg.GLB_WR_REJ_ADDR : Nat := 0x44
/-- File 01: register GLB_PART_ID. -/
def Reg.GLB_PART_ID : Nat := 0x100
/-- File 01: register GLB_STATUS. -/
def Reg.GLB_STATUS : Nat := 0x104
/-- File 02: register GLB_CONTRACT. -/
def Reg.GLB_CONTRACT : Nat := 0x200
/-- File 02: register GLB_STEP_LO. -/
def Reg.GLB_STEP_LO : Nat := 0x204
/-- File 02: register GLB_STEP_HI. -/
def Reg.GLB_STEP_HI : Nat := 0x208
/-- File 02: register GLB_BEAT_CFG. -/
def Reg.GLB_BEAT_CFG : Nat := 0x210
/-- File 02: register GLB_BEAT_OUT_CFG. -/
def Reg.GLB_BEAT_OUT_CFG : Nat := 0x214
/-- File 02: register GLB_BEAT_STATE. -/
def Reg.GLB_BEAT_STATE : Nat := 0x218
/-- File 02: register GLB_BEAT_SEQ. -/
def Reg.GLB_BEAT_SEQ : Nat := 0x21C
/-- File 02: register GLB_BEAT_TS_LO. -/
def Reg.GLB_BEAT_TS_LO : Nat := 0x220
/-- File 02: register GLB_BEAT_TS_HI. -/
def Reg.GLB_BEAT_TS_HI : Nat := 0x224
/-- File 02: register GLB_CONTRACT_EVT. -/
def Reg.GLB_CONTRACT_EVT : Nat := 0x228
/-- File 02: register GLB_TALLY_HEAD. -/
def Reg.GLB_TALLY_HEAD : Nat := 0x250
/-- File 02: register GLB_TALLY_BASE_LO. -/
def Reg.GLB_TALLY_BASE_LO : Nat := 0x254
/-- File 02: register GLB_TALLY_BASE_HI. -/
def Reg.GLB_TALLY_BASE_HI : Nat := 0x258
/-- File 02: register GLB_TALLY_SIZE. -/
def Reg.GLB_TALLY_SIZE : Nat := 0x25C
/-- File 02: register GLB_JOB_CMD_n. -/
def Reg.GLB_JOB_CMD (n : Nat) : Nat := 0x300 + 0x40 * n
/-- File 02: register GLB_JOB_STAT_n. -/
def Reg.GLB_JOB_STAT (n : Nat) : Nat := 0x304 + 0x40 * n
/-- File 02: register GLB_JOB_ARG_LO_n. -/
def Reg.GLB_JOB_ARG_LO (n : Nat) : Nat := 0x308 + 0x40 * n
/-- File 02: register GLB_JOB_ARG_HI_n. -/
def Reg.GLB_JOB_ARG_HI (n : Nat) : Nat := 0x30C + 0x40 * n
/-- File 02: register GLB_JOB_STEP_LO_n. -/
def Reg.GLB_JOB_STEP_LO (n : Nat) : Nat := 0x310 + 0x40 * n
/-- File 02: register GLB_JOB_STEP_HI_n. -/
def Reg.GLB_JOB_STEP_HI (n : Nat) : Nat := 0x314 + 0x40 * n
/-- File 15: register CAST_CTL. -/
def Reg.CAST_CTL : Nat := 0x100100
/-- File 15: register CAST_EVT. -/
def Reg.CAST_EVT : Nat := 0x100104
/-- File 15: register CAST_STATUS. -/
def Reg.CAST_STATUS : Nat := 0x100108
/-- File 15: register CAST_PHASE. -/
def Reg.CAST_PHASE : Nat := 0x10010C
/-- File 15: register CAST_BOOT. -/
def Reg.CAST_BOOT : Nat := 0x100110
/-- File 15: register CAST_CMD. -/
def Reg.CAST_CMD : Nat := 0x100120
/-- File 15: register CAST_CMD_STAT. -/
def Reg.CAST_CMD_STAT : Nat := 0x100124
/-- File 15: register CAST_LEDGER. -/
def Reg.CAST_LEDGER : Nat := 0x100130
/-- File 15: register CAST_LEDGER_SEL. -/
def Reg.CAST_LEDGER_SEL : Nat := 0x100134
/-- File 15: register CAST_LEDGER_W_n. -/
def Reg.CAST_LEDGER_W (n : Nat) : Nat := 0x100140 + 0x4 * n
/-- File 15: register CAST_TOPO. -/
def Reg.CAST_TOPO : Nat := 0x100150
/-- File 15: register CAST_TOPO_FAIL_n. -/
def Reg.CAST_TOPO_FAIL (n : Nat) : Nat := 0x100160 + 0x4 * n
/-- File 15: register CAST_SVN. -/
def Reg.CAST_SVN : Nat := 0x100170
/-- File 16: register PWR_CTL. -/
def Reg.PWR_CTL : Nat := 0x200100
/-- File 16: register PWR_TLIM. -/
def Reg.PWR_TLIM : Nat := 0x200104
/-- File 16: register PWR_ILIM. -/
def Reg.PWR_ILIM : Nat := 0x200108
/-- File 16: register PWR_VCFG. -/
def Reg.PWR_VCFG : Nat := 0x20010C
/-- File 16: register PWR_STAT. -/
def Reg.PWR_STAT : Nat := 0x200110
/-- File 16: register PWR_VCORE. -/
def Reg.PWR_VCORE : Nat := 0x200114
/-- File 16: register PWR_POWER. -/
def Reg.PWR_POWER : Nat := 0x200118
/-- File 16: register PWR_EVT. -/
def Reg.PWR_EVT : Nat := 0x20011C
/-- File 16: register PWR_ALERT_MASK. -/
def Reg.PWR_ALERT_MASK : Nat := 0x200120
/-- File 16: register PWR_DIE_T_n. -/
def Reg.PWR_DIE_T (n : Nat) : Nat := 0x200130 + 0x4 * n
/-- File 16: register PWR_DIE_VI_n. -/
def Reg.PWR_DIE_VI (n : Nat) : Nat := 0x200140 + 0x4 * n
/-- File 16: register PWR_THR_START_LO. -/
def Reg.PWR_THR_START_LO : Nat := 0x200150
/-- File 16: register PWR_THR_START_HI. -/
def Reg.PWR_THR_START_HI : Nat := 0x200154
/-- File 16: register PWR_THR_INFO. -/
def Reg.PWR_THR_INFO : Nat := 0x200158
/-- File 16: register PWR_THR_SEQ. -/
def Reg.PWR_THR_SEQ : Nat := 0x20015C
/-- File 16: register PWR_TB_LO. -/
def Reg.PWR_TB_LO : Nat := 0x200180
/-- File 16: register PWR_TB_HI. -/
def Reg.PWR_TB_HI : Nat := 0x200184
/-- File 16: register PWR_TB_SRC. -/
def Reg.PWR_TB_SRC : Nat := 0x200188
/-- File 16: register PWR_TB_STAT. -/
def Reg.PWR_TB_STAT : Nat := 0x20018C
/-- File 16: register PWR_TB_ADJ. -/
def Reg.PWR_TB_ADJ : Nat := 0x200190
/-- File 16: register PWR_TEL_CFG. -/
def Reg.PWR_TEL_CFG : Nat := 0x2001A0
/-- File 16: register PWR_TEL_MASK. -/
def Reg.PWR_TEL_MASK : Nat := 0x2001A4
/-- File 16: register PWR_TEL_SEQ. -/
def Reg.PWR_TEL_SEQ : Nat := 0x2001A8
/-- File 14: register TRUST_CTL. -/
def Reg.TRUST_CTL : Nat := 0x300100
/-- File 14: register TRUST_EVT. -/
def Reg.TRUST_EVT : Nat := 0x300104
/-- File 14: register TRUST_STATE. -/
def Reg.TRUST_STATE : Nat := 0x300108
/-- File 14: register TRUST_ALARM. -/
def Reg.TRUST_ALARM : Nat := 0x30010C
/-- File 14: register TRUST_UID_LO. -/
def Reg.TRUST_UID_LO : Nat := 0x300110
/-- File 14: register TRUST_UID_HI. -/
def Reg.TRUST_UID_HI : Nat := 0x300114
/-- File 14: register TRUST_LC. -/
def Reg.TRUST_LC : Nat := 0x300118
/-- File 14: register TRUST_KEY_n_k. -/
def Reg.TRUST_KEY (n k : Nat) : Nat := 0x301000 + 0x100 * n + 0x4 * k
/-- File 14: register TRUST_SALT_n. -/
def Reg.TRUST_SALT (n : Nat) : Nat := 0x301020 + 0x100 * n
/-- File 14: register TRUST_CMD_n. -/
def Reg.TRUST_CMD (n : Nat) : Nat := 0x301024 + 0x100 * n
/-- File 14: register TRUST_ARG_LO_n. -/
def Reg.TRUST_ARG_LO (n : Nat) : Nat := 0x301028 + 0x100 * n
/-- File 14: register TRUST_ARG_HI_n. -/
def Reg.TRUST_ARG_HI (n : Nat) : Nat := 0x30102C + 0x100 * n
/-- File 14: register TRUST_STAT_n. -/
def Reg.TRUST_STAT (n : Nat) : Nat := 0x301030 + 0x100 * n
/-- File 13: register HOST_EVT. -/
def Reg.HOST_EVT : Nat := 0x400104
/-- File 13: register HOST_P_STAT_n. -/
def Reg.HOST_P_STAT (n : Nat) : Nat := 0x401000 + 0x100 * n
/-- File 13: register HOST_P_HB_n. -/
def Reg.HOST_P_HB (n : Nat) : Nat := 0x401004 + 0x100 * n
/-- File 13: register HOST_P_CTL_n. -/
def Reg.HOST_P_CTL (n : Nat) : Nat := 0x401008 + 0x100 * n
/-- File 13: register HOST_S_STAT_n. -/
def Reg.HOST_S_STAT (n : Nat) : Nat := 0x402000 + 0x100 * n
/-- File 13: register HOST_S_CMD_n. -/
def Reg.HOST_S_CMD (n : Nat) : Nat := 0x402004 + 0x100 * n
/-- File 13: register HOST_S_PASID_n. -/
def Reg.HOST_S_PASID (n : Nat) : Nat := 0x402008 + 0x100 * n
/-- File 13: register HOST_S_WIN_LO_n. -/
def Reg.HOST_S_WIN_LO (n : Nat) : Nat := 0x40200C + 0x100 * n
/-- File 13: register HOST_S_WIN_HI_n. -/
def Reg.HOST_S_WIN_HI (n : Nat) : Nat := 0x402010 + 0x100 * n
/-- File 13: register HOST_S_SAVE_LO_n. -/
def Reg.HOST_S_SAVE_LO (n : Nat) : Nat := 0x402014 + 0x100 * n
/-- File 13: register HOST_S_SAVE_HI_n. -/
def Reg.HOST_S_SAVE_HI (n : Nat) : Nat := 0x402018 + 0x100 * n
/-- File 13: register HOST_S_ARG_LO_n. -/
def Reg.HOST_S_ARG_LO (n : Nat) : Nat := 0x40201C + 0x100 * n
/-- File 13: register HOST_S_ARG_HI_n. -/
def Reg.HOST_S_ARG_HI (n : Nat) : Nat := 0x402020 + 0x100 * n
/-- File 13: register HOST_S_NSMAP_n. -/
def Reg.HOST_S_NSMAP (n : Nat) : Nat := 0x402024 + 0x100 * n
/-- File 13: register HOST_S_ERR_n. -/
def Reg.HOST_S_ERR (n : Nat) : Nat := 0x402028 + 0x100 * n
/-- File 13: register HOST_S_WREJ_n. -/
def Reg.HOST_S_WREJ (n : Nat) : Nat := 0x40202C + 0x100 * n
/-- File 10: register LNK_CTL. -/
def Reg.LNK_CTL : Nat := 0x600100
/-- File 10: register LNK_EVT. -/
def Reg.LNK_EVT : Nat := 0x600104
/-- File 10: register LNK_LIVE_n. -/
def Reg.LNK_LIVE (n : Nat) : Nat := 0x600110 + 0x4 * n
/-- File 10: register LNK_N_CTL_n. -/
def Reg.LNK_N_CTL (n : Nat) : Nat := 0x610000 + 0x1000 * n
/-- File 10: register LNK_N_STAT_n. -/
def Reg.LNK_N_STAT (n : Nat) : Nat := 0x610004 + 0x1000 * n
/-- File 10: register LNK_N_PEER_n. -/
def Reg.LNK_N_PEER (n : Nat) : Nat := 0x610008 + 0x1000 * n
/-- File 10: register LNK_N_UID_LO_n. -/
def Reg.LNK_N_UID_LO (n : Nat) : Nat := 0x61000C + 0x1000 * n
/-- File 10: register LNK_N_UID_HI_n. -/
def Reg.LNK_N_UID_HI (n : Nat) : Nat := 0x610010 + 0x1000 * n
/-- File 10: register LNK_N_CRED0_n. -/
def Reg.LNK_N_CRED0 (n : Nat) : Nat := 0x610014 + 0x1000 * n
/-- File 10: register LNK_N_CRED1_n. -/
def Reg.LNK_N_CRED1 (n : Nat) : Nat := 0x610018 + 0x1000 * n
/-- File 10: register SWT_CTL. -/
def Reg.SWT_CTL : Nat := 0x800100
/-- File 10: register SWT_EVT. -/
def Reg.SWT_EVT : Nat := 0x800104
/-- File 10: register SWT_SYSTAG_LO. -/
def Reg.SWT_SYSTAG_LO : Nat := 0x800110
/-- File 10: register SWT_SYSTAG_HI. -/
def Reg.SWT_SYSTAG_HI : Nat := 0x800114
/-- File 10: register SWT_EP_LO_n. -/
def Reg.SWT_EP_LO (n : Nat) : Nat := 0x801008 + 0x8 * n
/-- File 10: register SWT_EP_HI_n. -/
def Reg.SWT_EP_HI (n : Nat) : Nat := 0x80100C + 0x8 * n
/-- File 10: register SWT_RT_LO_n. -/
def Reg.SWT_RT_LO (n : Nat) : Nat := 0x840000 + 0x8 * n
/-- File 10: register SWT_RT_HI_n. -/
def Reg.SWT_RT_HI (n : Nat) : Nat := 0x840004 + 0x8 * n
/-- File 10: register SWT_MC_n_k. -/
def Reg.SWT_MC (n k : Nat) : Nat := 0x880000 + 0x20 * n + 0x4 * k
/-- File 11: register RMA_CTL. -/
def Reg.RMA_CTL : Nat := 0xA00100
/-- File 11: register RMA_TIMING. -/
def Reg.RMA_TIMING : Nat := 0xA00104
/-- File 11: register RMA_EVT. -/
def Reg.RMA_EVT : Nat := 0xA00108
/-- File 11: register RMA_CMD_n. -/
def Reg.RMA_CMD (n : Nat) : Nat := 0xA01000 + 0x100 * n
/-- File 11: register RMA_INDEX_n. -/
def Reg.RMA_INDEX (n : Nat) : Nat := 0xA01004 + 0x100 * n
/-- File 11: register RMA_ARG_LO_n. -/
def Reg.RMA_ARG_LO (n : Nat) : Nat := 0xA01008 + 0x100 * n
/-- File 11: register RMA_ARG_HI_n. -/
def Reg.RMA_ARG_HI (n : Nat) : Nat := 0xA0100C + 0x100 * n
/-- File 11: register RMA_STAT_n. -/
def Reg.RMA_STAT (n : Nat) : Nat := 0xA01010 + 0x100 * n
/-- File 11: register RMA_RESULT_n. -/
def Reg.RMA_RESULT (n : Nat) : Nat := 0xA01014 + 0x100 * n
/-- File 11: register RMA_WQ_TAIL_n. -/
def Reg.RMA_WQ_TAIL (n : Nat) : Nat := 0xA10000 + 0x10 * n
/-- File 11: register RMA_WQ_HEAD_n. -/
def Reg.RMA_WQ_HEAD (n : Nat) : Nat := 0xA10004 + 0x10 * n
/-- File 11: register RMA_WQ_CQ_HEAD_n. -/
def Reg.RMA_WQ_CQ_HEAD (n : Nat) : Nat := 0xA10008 + 0x10 * n
/-- File 11: register RMA_WQ_CQ_TAIL_n. -/
def Reg.RMA_WQ_CQ_TAIL (n : Nat) : Nat := 0xA1000C + 0x10 * n
/-- File 11: register RMA_CTR_VAL_n. -/
def Reg.RMA_CTR_VAL (n : Nat) : Nat := 0xA20000 + 0x8 * n
/-- File 11: register RMA_CTR_ADD_n. -/
def Reg.RMA_CTR_ADD (n : Nat) : Nat := 0xA20004 + 0x8 * n
/-- File 12: register ETH_CTL. -/
def Reg.ETH_CTL : Nat := 0xC00100
/-- File 12: register ETH_EVT. -/
def Reg.ETH_EVT : Nat := 0xC00104
/-- File 12: register ETH_HASH_SEED. -/
def Reg.ETH_HASH_SEED : Nat := 0xC00108
/-- File 12: register ETH_GRP_n. -/
def Reg.ETH_GRP (n : Nat) : Nat := 0xC00200 + 0x4 * n
/-- File 12: register ETH_P_CFG_n. -/
def Reg.ETH_P_CFG (n : Nat) : Nat := 0xC10000 + 0x1000 * n
/-- File 12: register ETH_P_STAT_n. -/
def Reg.ETH_P_STAT (n : Nat) : Nat := 0xC10004 + 0x1000 * n
/-- File 12: register ETH_P_DEFAULT_n. -/
def Reg.ETH_P_DEFAULT (n : Nat) : Nat := 0xC10008 + 0x1000 * n
/-- File 12: register ETH_P_LAT_n. -/
def Reg.ETH_P_LAT (n : Nat) : Nat := 0xC1000C + 0x1000 * n
/-- File 12: register ETH_P_Q01_n_k. -/
def Reg.ETH_P_Q01 (n k : Nat) : Nat := 0xC10010 + 0x1000 * n + 0x4 * k
/-- File 12: register ETH_P_Q27_n_k. -/
def Reg.ETH_P_Q27 (n k : Nat) : Nat := 0xC10018 + 0x1000 * n + 0x4 * k
/-- File 12: register ETH_D_RSEL_n. -/
def Reg.ETH_D_RSEL (n : Nat) : Nat := 0xC40000 + 0x1000 * n
/-- File 12: register ETH_D_RW_n_k. -/
def Reg.ETH_D_RW (n k : Nat) : Nat := 0xC40040 + 0x1000 * n + 0x4 * k
/-- File 12: register ETH_D_POL0_n_k. -/
def Reg.ETH_D_POL0 (n k : Nat) : Nat := 0xC80000 + 0x1000 * n + 0x8 * k
/-- File 12: register ETH_D_POL1_n_k. -/
def Reg.ETH_D_POL1 (n k : Nat) : Nat := 0xC80004 + 0x1000 * n + 0x8 * k
/-- File 04: register TWS_CTL. -/
def Reg.TWS_CTL : Nat := 0xE00100
/-- File 04: register TWS_INFLIGHT. -/
def Reg.TWS_INFLIGHT : Nat := 0xE00104
/-- File 04: register TWS_EVT. -/
def Reg.TWS_EVT : Nat := 0xE00108
/-- File 04: register TWS_DQ_BASE_LO_n. -/
def Reg.TWS_DQ_BASE_LO (n : Nat) : Nat := 0xE01000 + 0x100 * n
/-- File 04: register TWS_DQ_BASE_HI_n. -/
def Reg.TWS_DQ_BASE_HI (n : Nat) : Nat := 0xE01004 + 0x100 * n
/-- File 04: register TWS_DQ_SIZE_n. -/
def Reg.TWS_DQ_SIZE (n : Nat) : Nat := 0xE01008 + 0x100 * n
/-- File 04: register TWS_DQ_TAIL_n. -/
def Reg.TWS_DQ_TAIL (n : Nat) : Nat := 0xE0100C + 0x100 * n
/-- File 04: register TWS_DQ_HEAD_n. -/
def Reg.TWS_DQ_HEAD (n : Nat) : Nat := 0xE01010 + 0x100 * n
/-- File 04: register TWS_CQ_BASE_LO_n. -/
def Reg.TWS_CQ_BASE_LO (n : Nat) : Nat := 0xE01014 + 0x100 * n
/-- File 04: register TWS_CQ_BASE_HI_n. -/
def Reg.TWS_CQ_BASE_HI (n : Nat) : Nat := 0xE01018 + 0x100 * n
/-- File 04: register TWS_CQ_SIZE_n. -/
def Reg.TWS_CQ_SIZE (n : Nat) : Nat := 0xE0101C + 0x100 * n
/-- File 04: register TWS_CQ_HEAD_n. -/
def Reg.TWS_CQ_HEAD (n : Nat) : Nat := 0xE01020 + 0x100 * n
/-- File 04: register TWS_CQ_TAIL_n. -/
def Reg.TWS_CQ_TAIL (n : Nat) : Nat := 0xE01024 + 0x100 * n
/-- File 04: register TWS_ERR_n. -/
def Reg.TWS_ERR (n : Nat) : Nat := 0xE01028 + 0x100 * n
/-- File 05: register NDL_CTL. -/
def Reg.NDL_CTL : Nat := 0x1000100
/-- File 05: register NDL_EVT. -/
def Reg.NDL_EVT : Nat := 0x1000104
/-- File 05: register NDL_PACE_n. -/
def Reg.NDL_PACE (n : Nat) : Nat := 0x1000110 + 0x4 * n
/-- File 05: register NDL_TRAP_BASE_LO. -/
def Reg.NDL_TRAP_BASE_LO : Nat := 0x1000120
/-- File 05: register NDL_TRAP_BASE_HI. -/
def Reg.NDL_TRAP_BASE_HI : Nat := 0x1000124
/-- File 05: register NDL_TRAP_COUNT. -/
def Reg.NDL_TRAP_COUNT : Nat := 0x1000128
/-- File 05: register NDL_TRAP_TAIL. -/
def Reg.NDL_TRAP_TAIL : Nat := 0x100012C
/-- File 05: register NDL_ROWS_n_k. -/
def Reg.NDL_ROWS (n k : Nat) : Nat := 0x1001000 + 0x100 * n + 0x4 * k
/-- File 05: register NDL_ADDR_LO_n. -/
def Reg.NDL_ADDR_LO (n : Nat) : Nat := 0x1001010 + 0x100 * n
/-- File 05: register NDL_ADDR_HI_n. -/
def Reg.NDL_ADDR_HI (n : Nat) : Nat := 0x1001014 + 0x100 * n
/-- File 05: register NDL_LEN_n. -/
def Reg.NDL_LEN (n : Nat) : Nat := 0x1001018 + 0x100 * n
/-- File 05: register NDL_DIG_LO_n. -/
def Reg.NDL_DIG_LO (n : Nat) : Nat := 0x100101C + 0x100 * n
/-- File 05: register NDL_DIG_HI_n. -/
def Reg.NDL_DIG_HI (n : Nat) : Nat := 0x1001020 + 0x100 * n
/-- File 05: register NDL_CTX_LO_n. -/
def Reg.NDL_CTX_LO (n : Nat) : Nat := 0x1001024 + 0x100 * n
/-- File 05: register NDL_CTX_HI_n. -/
def Reg.NDL_CTX_HI (n : Nat) : Nat := 0x1001028 + 0x100 * n
/-- File 05: register NDL_CMD_n. -/
def Reg.NDL_CMD (n : Nat) : Nat := 0x100102C + 0x100 * n
/-- File 05: register NDL_STAT_n. -/
def Reg.NDL_STAT (n : Nat) : Nat := 0x1001030 + 0x100 * n
/-- File 05: register NDL_ROW_n. -/
def Reg.NDL_ROW (n : Nat) : Nat := 0x1002000 + 0x4 * n
/-- File 05: register NDL_MAP_n. -/
def Reg.NDL_MAP (n : Nat) : Nat := 0x1003000 + 0x4 * n
/-- File 07: register MEM_CTL. -/
def Reg.MEM_CTL : Nat := 0x1800100
/-- File 07: register MEM_EVT. -/
def Reg.MEM_EVT : Nat := 0x1800104
/-- File 07: register MEM_CE_THRESH. -/
def Reg.MEM_CE_THRESH : Nat := 0x1800108
/-- File 07: register MEM_PART_n. -/
def Reg.MEM_PART (n : Nat) : Nat := 0x1800110 + 0x4 * n
/-- File 07: register MEM_HANK_MODE_n. -/
def Reg.MEM_HANK_MODE (n : Nat) : Nat := 0x1800120 + 0x4 * n
/-- File 07: register MEM_HANK_BUSY_n. -/
def Reg.MEM_HANK_BUSY (n : Nat) : Nat := 0x1800130 + 0x4 * n
/-- File 07: register MEM_UE_ADDR_LO_n. -/
def Reg.MEM_UE_ADDR_LO (n : Nat) : Nat := 0x1800140 + 0x8 * n
/-- File 07: register MEM_UE_ADDR_HI_n. -/
def Reg.MEM_UE_ADDR_HI (n : Nat) : Nat := 0x1800144 + 0x8 * n
/-- File 07: register OPT_EVT. -/
def Reg.OPT_EVT : Nat := 0x1C00104
/-- File 07: register OPT_TBL_LO_n. -/
def Reg.OPT_TBL_LO (n : Nat) : Nat := 0x1C01000 + 0x100 * n
/-- File 07: register OPT_TBL_HI_n. -/
def Reg.OPT_TBL_HI (n : Nat) : Nat := 0x1C01004 + 0x100 * n
/-- File 07: register OPT_CNT_n. -/
def Reg.OPT_CNT (n : Nat) : Nat := 0x1C01008 + 0x100 * n
/-- File 07: register OPT_PARAM_LO_n. -/
def Reg.OPT_PARAM_LO (n : Nat) : Nat := 0x1C0100C + 0x100 * n
/-- File 07: register OPT_PARAM_HI_n. -/
def Reg.OPT_PARAM_HI (n : Nat) : Nat := 0x1C01010 + 0x100 * n
/-- File 07: register OPT_WORK_LO_n. -/
def Reg.OPT_WORK_LO (n : Nat) : Nat := 0x1C01014 + 0x100 * n
/-- File 07: register OPT_WORK_HI_n. -/
def Reg.OPT_WORK_HI (n : Nat) : Nat := 0x1C01018 + 0x100 * n
/-- File 07: register OPT_WORK_CFG_n. -/
def Reg.OPT_WORK_CFG (n : Nat) : Nat := 0x1C0101C + 0x100 * n
/-- File 07: register OPT_CMD_n. -/
def Reg.OPT_CMD (n : Nat) : Nat := 0x1C01020 + 0x100 * n
/-- File 07: register OPT_STAT_n. -/
def Reg.OPT_STAT (n : Nat) : Nat := 0x1C01024 + 0x100 * n
/-- File 08: register CRD_CTL. -/
def Reg.CRD_CTL : Nat := 0x1E00100
/-- File 08: register CRD_EVT. -/
def Reg.CRD_EVT : Nat := 0x1E00104
/-- File 08: register CRD_LOG_BASE_LO. -/
def Reg.CRD_LOG_BASE_LO : Nat := 0x1E00110
/-- File 08: register CRD_LOG_BASE_HI. -/
def Reg.CRD_LOG_BASE_HI : Nat := 0x1E00114
/-- File 08: register CRD_LOG_SIZE. -/
def Reg.CRD_LOG_SIZE : Nat := 0x1E00118
/-- File 08: register CRD_LOG_HEAD. -/
def Reg.CRD_LOG_HEAD : Nat := 0x1E0011C
/-- File 08: register CRD_TRIG_BASE. -/
def Reg.CRD_TRIG_BASE : Nat := 0x1E00120
/-- File 08: register CRD_FD_LO_n. -/
def Reg.CRD_FD_LO (n : Nat) : Nat := 0x1E01000 + 0x100 * n
/-- File 08: register CRD_FD_HI_n. -/
def Reg.CRD_FD_HI (n : Nat) : Nat := 0x1E01004 + 0x100 * n
/-- File 08: register CRD_CMD_n. -/
def Reg.CRD_CMD (n : Nat) : Nat := 0x1E01008 + 0x100 * n
/-- File 08: register CRD_STAT_n. -/
def Reg.CRD_STAT (n : Nat) : Nat := 0x1E0100C + 0x100 * n
/-- File 08: register CRD_FSTATE_n. -/
def Reg.CRD_FSTATE (n : Nat) : Nat := 0x1E01010 + 0x100 * n
/-- File 09: register CKP_CTL. -/
def Reg.CKP_CTL : Nat := 0x2000100
/-- File 09: register CKP_EVT. -/
def Reg.CKP_EVT : Nat := 0x2000104
/-- File 09: register CKP_MEMB. -/
def Reg.CKP_MEMB : Nat := 0x2000108
/-- File 09: register CKP_CFG_n. -/
def Reg.CKP_CFG (n : Nat) : Nat := 0x2001000 + 0x100 * n
/-- File 09: register CKP_LAND_LO_n. -/
def Reg.CKP_LAND_LO (n : Nat) : Nat := 0x2001004 + 0x100 * n
/-- File 09: register CKP_LAND_HI_n. -/
def Reg.CKP_LAND_HI (n : Nat) : Nat := 0x2001008 + 0x100 * n
/-- File 09: register CKP_LAND_SIZE_n. -/
def Reg.CKP_LAND_SIZE (n : Nat) : Nat := 0x200100C + 0x100 * n
/-- File 09: register CKP_DEPOT_n. -/
def Reg.CKP_DEPOT (n : Nat) : Nat := 0x2001010 + 0x100 * n
/-- File 09: register CKP_DEPOT_KEY_n. -/
def Reg.CKP_DEPOT_KEY (n : Nat) : Nat := 0x2001014 + 0x100 * n
/-- File 09: register CKP_ARG_LO_n. -/
def Reg.CKP_ARG_LO (n : Nat) : Nat := 0x2001018 + 0x100 * n
/-- File 09: register CKP_ARG_HI_n. -/
def Reg.CKP_ARG_HI (n : Nat) : Nat := 0x200101C + 0x100 * n
/-- File 09: register CKP_SRC_LO_n. -/
def Reg.CKP_SRC_LO (n : Nat) : Nat := 0x2001020 + 0x100 * n
/-- File 09: register CKP_SRC_HI_n. -/
def Reg.CKP_SRC_HI (n : Nat) : Nat := 0x2001024 + 0x100 * n
/-- File 09: register CKP_MREC_LO_n. -/
def Reg.CKP_MREC_LO (n : Nat) : Nat := 0x2001028 + 0x100 * n
/-- File 09: register CKP_MREC_HI_n. -/
def Reg.CKP_MREC_HI (n : Nat) : Nat := 0x200102C + 0x100 * n
/-- File 09: register CKP_PROMO_LO_n. -/
def Reg.CKP_PROMO_LO (n : Nat) : Nat := 0x2001030 + 0x100 * n
/-- File 09: register CKP_PROMO_HI_n. -/
def Reg.CKP_PROMO_HI (n : Nat) : Nat := 0x2001034 + 0x100 * n
/-- File 09: register CKP_PROMO_CNT_n. -/
def Reg.CKP_PROMO_CNT (n : Nat) : Nat := 0x2001038 + 0x100 * n
/-- File 09: register CKP_CMD_n. -/
def Reg.CKP_CMD (n : Nat) : Nat := 0x200103C + 0x100 * n
/-- File 09: register CKP_STAT_n. -/
def Reg.CKP_STAT (n : Nat) : Nat := 0x2001040 + 0x100 * n
/-- File 09: register CKP_STATE_n. -/
def Reg.CKP_STATE (n : Nat) : Nat := 0x2001044 + 0x100 * n
/-- File 09: register CKP_LAST_LO_n. -/
def Reg.CKP_LAST_LO (n : Nat) : Nat := 0x2001048 + 0x100 * n
/-- File 09: register CKP_LAST_HI_n. -/
def Reg.CKP_LAST_HI (n : Nat) : Nat := 0x200104C + 0x100 * n
/-- File 09: register CKP_DRAIN_LO_n. -/
def Reg.CKP_DRAIN_LO (n : Nat) : Nat := 0x2001050 + 0x100 * n
/-- File 09: register CKP_DRAIN_HI_n. -/
def Reg.CKP_DRAIN_HI (n : Nat) : Nat := 0x2001054 + 0x100 * n
/-- File 15: register SPN_CORE. -/
def Reg.SPN_CORE : Nat := 0x2200100
/-- File 15: register SPN_EVT. -/
def Reg.SPN_EVT : Nat := 0x2200104
/-- File 15: register SPN_FW_DIR. -/
def Reg.SPN_FW_DIR : Nat := 0x2200110
/-- File 15: register SPN_FW_CMD. -/
def Reg.SPN_FW_CMD : Nat := 0x2200120
/-- File 15: register SPN_FW_SRC_LO. -/
def Reg.SPN_FW_SRC_LO : Nat := 0x2200124
/-- File 15: register SPN_FW_SRC_HI. -/
def Reg.SPN_FW_SRC_HI : Nat := 0x2200128
/-- File 15: register SPN_FW_LEN. -/
def Reg.SPN_FW_LEN : Nat := 0x220012C
/-- File 15: register SPN_FW_ARG. -/
def Reg.SPN_FW_ARG : Nat := 0x2200130
/-- File 15: register SPN_FW_STAT. -/
def Reg.SPN_FW_STAT : Nat := 0x2200134
/-- File 15: register SPN_FW_CONF. -/
def Reg.SPN_FW_CONF : Nat := 0x2200138
/-- File 15: register SPN_RING_LO_n. -/
def Reg.SPN_RING_LO (n : Nat) : Nat := 0x2201000 + 0x100 * n
/-- File 15: register SPN_RING_HI_n. -/
def Reg.SPN_RING_HI (n : Nat) : Nat := 0x2201004 + 0x100 * n
/-- File 15: register SPN_RING_CFG_n. -/
def Reg.SPN_RING_CFG (n : Nat) : Nat := 0x2201008 + 0x100 * n
/-- File 15: register SPN_SEQ_n. -/
def Reg.SPN_SEQ (n : Nat) : Nat := 0x220100C + 0x100 * n
/-- File 13: register PAGE_CPY_SQ_LO_n_k. -/
def Reg.PAGE_CPY_SQ_LO (n k : Nat) : Nat := 0x4004000 + 0x100000 * n + 0x40 * k
/-- File 13: register PAGE_CPY_SQ_HI_n_k. -/
def Reg.PAGE_CPY_SQ_HI (n k : Nat) : Nat := 0x4004004 + 0x100000 * n + 0x40 * k
/-- File 13: register PAGE_CPY_CQ_LO_n_k. -/
def Reg.PAGE_CPY_CQ_LO (n k : Nat) : Nat := 0x4004008 + 0x100000 * n + 0x40 * k
/-- File 13: register PAGE_CPY_CQ_HI_n_k. -/
def Reg.PAGE_CPY_CQ_HI (n k : Nat) : Nat := 0x400400C + 0x100000 * n + 0x40 * k
/-- File 13: register PAGE_CPY_CFG_n_k. -/
def Reg.PAGE_CPY_CFG (n k : Nat) : Nat := 0x4004010 + 0x100000 * n + 0x40 * k
/-- File 13: register PAGE_CPY_TAIL_n_k. -/
def Reg.PAGE_CPY_TAIL (n k : Nat) : Nat := 0x4004014 + 0x100000 * n + 0x40 * k
/-- File 13: register PAGE_CPY_HEAD_n_k. -/
def Reg.PAGE_CPY_HEAD (n k : Nat) : Nat := 0x4004018 + 0x100000 * n + 0x40 * k
/-- File 13: register PAGE_CPY_CQ_HEAD_n_k. -/
def Reg.PAGE_CPY_CQ_HEAD (n k : Nat) : Nat := 0x400401C + 0x100000 * n + 0x40 * k
/-- File 13: register PAGE_CPY_CQ_TAIL_n_k. -/
def Reg.PAGE_CPY_CQ_TAIL (n k : Nat) : Nat := 0x4004020 + 0x100000 * n + 0x40 * k
/-- File 13: register PAGE_NOTIFY_VALUE_n_k. -/
def Reg.PAGE_NOTIFY_VALUE (n k : Nat) : Nat := 0x4008000 + 0x100000 * n + 0x10 * k
/-- File 13: register PAGE_NOTIFY_CTL_n_k. -/
def Reg.PAGE_NOTIFY_CTL (n k : Nat) : Nat := 0x4008004 + 0x100000 * n + 0x10 * k

/-! ### Counter offsets (the live LO register) -/

def Ctr.GLB_TV_FIX : Nat := 0x20
def Ctr.GLB_BAD_ACC : Nat := 0x28
def Ctr.GLB_BEAT_SLIP : Nat := 0x230
def Ctr.GLB_BEAT_GLITCH : Nat := 0x238
def Ctr.GLB_STEP_OVERRUN : Nat := 0x240
def Ctr.GLB_DIVERGE : Nat := 0x248
def Ctr.TWS_REC_IN : Nat := 0xE00200
def Ctr.TWS_DUP : Nat := 0xE00208
def Ctr.TWS_STALE : Nat := 0xE00210
def Ctr.TWS_NAK_NR : Nat := 0xE00218
def Ctr.TWS_RETX : Nat := 0xE00220
def Ctr.TWS_REDO : Nat := 0xE00228
def Ctr.TWS_FINAL : Nat := 0xE00230
def Ctr.TWS_CONFLICT : Nat := 0xE00238
def Ctr.TWS_CARRY : Nat := 0xE00240
def Ctr.TWS_ABANDON : Nat := 0xE00248
def Ctr.TWS_BAD_REC : Nat := 0xE00250
def Ctr.TWS_WORD_ADD : Nat := 0xE00258
def Ctr.NDL_LOAD : Nat := 0x1000200
def Ctr.NDL_REPAIR : Nat := 0x1000208
def Ctr.NDL_TRAP : Nat := 0x1000210
def Ctr.NDL_TRAP_LOST : Nat := 0x1000218
def Ctr.NDL_SAFE_TO : Nat := 0x1000220
def Ctr.NDL_FAULT : Nat := 0x1000228
def Ctr.NDL_RETIRE : Nat := 0x1000230
def Ctr.NDL_ECC_CE : Nat := 0x1000238
def Ctr.MEM_S_CE (n : Nat) : Nat := 0x1800200 + 0x8 * n
def Ctr.MEM_S_UE (n : Nat) : Nat := 0x1800220 + 0x8 * n
def Ctr.MEM_GRANT : Nat := 0x1800240
def Ctr.MEM_EMPTY_GRANT : Nat := 0x1800248
def Ctr.MEM_PREEMPT : Nat := 0x1800250
def Ctr.MEM_CAL_RETRAIN : Nat := 0x1800258
def Ctr.MEM_SC_HIT : Nat := 0x1800260
def Ctr.MEM_SC_MISS : Nat := 0x1800268
def Ctr.MEM_PF_OVER : Nat := 0x1800270
def Ctr.MEM_SCRUB : Nat := 0x1800278
def Ctr.OPT_ITEMS : Nat := 0x1C00200
def Ctr.OPT_COMMIT : Nat := 0x1C00208
def Ctr.OPT_SKIP : Nat := 0x1C00210
def Ctr.OPT_PUB : Nat := 0x1C00218
def Ctr.OPT_RING_FULL : Nat := 0x1C00220
def Ctr.OPT_BAD_DONE : Nat := 0x1C00228
def Ctr.CRD_REC : Nat := 0x1E00200
def Ctr.CRD_DECODE_ERR : Nat := 0x1E00208
def Ctr.CRD_SUBST : Nat := 0x1E00210
def Ctr.CRD_FEED_LATE : Nat := 0x1E00218
def Ctr.CRD_FRAME_FRESH : Nat := 0x1E00220
def Ctr.CRD_FRAME_POLICY : Nat := 0x1E00228
def Ctr.CRD_FRAME_DROP : Nat := 0x1E00230
def Ctr.CRD_PKT_BAD : Nat := 0x1E00238
def Ctr.CKP_TAKEN : Nat := 0x2000200
def Ctr.CKP_FAILED : Nat := 0x2000208
def Ctr.CKP_CBW_STALL : Nat := 0x2000210
def Ctr.CKP_PAGES : Nat := 0x2000218
def Ctr.CKP_LANDED : Nat := 0x2000220
def Ctr.CKP_DRAINED : Nat := 0x2000228
def Ctr.CKP_CHAIN_BREAK : Nat := 0x2000230
def Ctr.CKP_KA_MISS : Nat := 0x2000238
def Ctr.CKP_MEMB_CHANGE : Nat := 0x2000240
def Ctr.CKP_ROLLBACK : Nat := 0x2000248
def Ctr.LNK_FLIT_TX (n : Nat) : Nat := 0x610100 + 0x1000 * n
def Ctr.LNK_FLIT_RX (n : Nat) : Nat := 0x610108 + 0x1000 * n
def Ctr.LNK_CRC_ERR (n : Nat) : Nat := 0x610110 + 0x1000 * n
def Ctr.LNK_REPLAY (n : Nat) : Nat := 0x610118 + 0x1000 * n
def Ctr.LNK_FEC_CORR (n : Nat) : Nat := 0x610120 + 0x1000 * n
def Ctr.LNK_FEC_UNC (n : Nat) : Nat := 0x610128 + 0x1000 * n
def Ctr.LNK_STOMP_RX (n : Nat) : Nat := 0x610130 + 0x1000 * n
def Ctr.LNK_CAL (n : Nat) : Nat := 0x610138 + 0x1000 * n
def Ctr.LNK_RETRAIN (n : Nat) : Nat := 0x610140 + 0x1000 * n
def Ctr.LNK_TRAIN_FAIL (n : Nat) : Nat := 0x610148 + 0x1000 * n
def Ctr.LNK_DROP (n : Nat) : Nat := 0x610150 + 0x1000 * n
def Ctr.SWT_FWD : Nat := 0x800200
def Ctr.SWT_CUT : Nat := 0x800208
def Ctr.SWT_STOMP_TX : Nat := 0x800210
def Ctr.SWT_UNROUTABLE : Nat := 0x800218
def Ctr.SWT_HOPS : Nat := 0x800220
def Ctr.SWT_MALFORMED : Nat := 0x800228
def Ctr.SWT_NAK_TX : Nat := 0x800230
def Ctr.SWT_MCAST_COPY : Nat := 0x800238
def Ctr.SWT_MCAST_DROP : Nat := 0x800240
def Ctr.RMA_PKT_TX : Nat := 0xA00200
def Ctr.RMA_PKT_RX : Nat := 0xA00208
def Ctr.RMA_RETX : Nat := 0xA00210
def Ctr.RMA_TIMEOUT : Nat := 0xA00218
def Ctr.RMA_DUP : Nat := 0xA00220
def Ctr.RMA_STALE : Nat := 0xA00228
def Ctr.RMA_NAK_TX : Nat := 0xA00230
def Ctr.RMA_TRACKER_FULL : Nat := 0xA00238
def Ctr.RMA_AUTH_FAIL : Nat := 0xA00240
def Ctr.RMA_BAD_PKT : Nat := 0xA00248
def Ctr.RMA_CONN_ERR : Nat := 0xA00250
def Ctr.ETH_RX_FRAMES (n : Nat) : Nat := 0xC10100 + 0x1000 * n
def Ctr.ETH_RX_BYTES (n : Nat) : Nat := 0xC10108 + 0x1000 * n
def Ctr.ETH_RX_FCS (n : Nat) : Nat := 0xC10110 + 0x1000 * n
def Ctr.ETH_RX_SIZE (n : Nat) : Nat := 0xC10118 + 0x1000 * n
def Ctr.ETH_PAUSE_RX (n : Nat) : Nat := 0xC10120 + 0x1000 * n
def Ctr.ETH_DEFAULT_HIT (n : Nat) : Nat := 0xC10128 + 0x1000 * n
def Ctr.ETH_RULE_DROP (n : Nat) : Nat := 0xC10130 + 0x1000 * n
def Ctr.ETH_POLICE_DROP (n : Nat) : Nat := 0xC10138 + 0x1000 * n
def Ctr.ETH_NO_TARGET (n : Nat) : Nat := 0xC10140 + 0x1000 * n
def Ctr.ETH_TX_FRAMES (n : Nat) : Nat := 0xC10148 + 0x1000 * n
def Ctr.ETH_TX_BYTES (n : Nat) : Nat := 0xC10150 + 0x1000 * n
def Ctr.ETH_TX_DROP (n : Nat) : Nat := 0xC10158 + 0x1000 * n
def Ctr.HOST_P_UR (n : Nat) : Nat := 0x400200 + 0x40 * n
def Ctr.HOST_P_DB_DROP (n : Nat) : Nat := 0x400208 + 0x40 * n
def Ctr.HOST_P_NOTIFY_LOST (n : Nat) : Nat := 0x400210 + 0x40 * n
def Ctr.HOST_P_POISON_RX (n : Nat) : Nat := 0x400218 + 0x40 * n
def Ctr.HOST_P_POISON_TX (n : Nat) : Nat := 0x400220 + 0x40 * n
def Ctr.HOST_P_LOST (n : Nat) : Nat := 0x400228 + 0x40 * n
def Ctr.HOST_NVME_CMD : Nat := 0x400280
def Ctr.HOST_DEPOT_FETCH : Nat := 0x400288
def Ctr.HOST_DEPOT_DRAIN : Nat := 0x400290
def Ctr.TRUST_EVIDENCE : Nat := 0x300200
def Ctr.TRUST_RELEASE : Nat := 0x300208
def Ctr.TRUST_REFUSE : Nat := 0x300210
def Ctr.TRUST_SIG_FAIL : Nat := 0x300218
def Ctr.TRUST_ALARMS : Nat := 0x300220
def Ctr.TRUST_MISMATCH : Nat := 0x300228
def Ctr.TRUST_UNSEAL_BYTES : Nat := 0x300230
def Ctr.CAST_LEDGER_ADD : Nat := 0x100200
def Ctr.CAST_WARM : Nat := 0x100208
def Ctr.SPN_RESTART : Nat := 0x2200200
def Ctr.SPN_REPORT : Nat := 0x2200208
def Ctr.SPN_REPORT_DROP : Nat := 0x2200210
def Ctr.SPN_FW_REPAIR : Nat := 0x2200218
def Ctr.PWR_THROTTLE : Nat := 0x200200
def Ctr.PWR_THR_US : Nat := 0x200208
def Ctr.PWR_FAST : Nat := 0x200210
def Ctr.PWR_HOT_N : Nat := 0x200218
def Ctr.PWR_AVS_ERR : Nat := 0x200220
def Ctr.PWR_ENERGY_MJ : Nat := 0x200228
def Ctr.PWR_TEL_SENT : Nat := 0x200230
def Ctr.PWR_TEL_DROP : Nat := 0x200238

/-! ### The map, block by block -/

def regRowsGLB : List RegRow := [
  ⟨0x10, [], .ro, 0x0, 0xC6040, .cold⟩,
  ⟨0x40, [], .ro, 0x0, 0x0, .warm⟩,
  ⟨0x44, [], .ro, 0x0, 0x0, .warm⟩,
  ⟨0x100, [], .ro, 0x0, 0x0, .warm⟩,
  ⟨0x104, [], .ro, 0x0, 0x2001, .warm⟩,
  ⟨0x200, [], .ro, 0x0, 0x1, .cold⟩,
  ⟨0x204, [], .ro, 0x0, 0x0, .warm⟩,
  ⟨0x208, [], .ro, 0x0, 0x0, .warm⟩,
  ⟨0x210, [], .ro, 0x0, 0x0, .warm⟩,
  ⟨0x214, [], .ro, 0x0, 0x0, .warm⟩,
  ⟨0x218, [], .ro, 0x0, 0x0, .warm⟩,
  ⟨0x21C, [], .ro, 0x0, 0x0, .warm⟩,
  ⟨0x220, [], .ro, 0x0, 0x0, .warm⟩,
  ⟨0x224, [], .ro, 0x0, 0x0, .warm⟩,
  ⟨0x228, [], .sc, 0x3F, 0x0, .warm⟩,
  ⟨0x250, [], .ro, 0x0, 0x0, .warm⟩,
  ⟨0x254, [], .ro, 0x0, 0x0, .warm⟩,
  ⟨0x258, [], .ro, 0x0, 0x0, .warm⟩,
  ⟨0x25C, [], .ro, 0x0, 0x0, .warm⟩,
  ⟨0x300, [(4, 0x40)], .rw, 0x3, 0x0, .slice⟩,
  ⟨0x304, [(4, 0x40)], .ro, 0x0, 0x0, .slice⟩,
  ⟨0x308, [(4, 0x40)], .rw, 0xFFFFFFFF, 0x0, .slice⟩,
  ⟨0x30C, [(4, 0x40)], .rw, 0xFF, 0x0, .slice⟩,
  ⟨0x310, [(4, 0x40)], .ro, 0x0, 0x0, .slice⟩,
  ⟨0x314, [(4, 0x40)], .ro, 0x0, 0x0, .slice⟩]
def regRowsCAST : List RegRow := [
  ⟨0x100100, [], .rw, 0xFFFF0000, 0x1E140000, .warm⟩,
  ⟨0x100104, [], .sc, 0x1F, 0x0, .warm⟩,
  ⟨0x100108, [], .ro, 0x0, 0x0, .warm⟩,
  ⟨0x10010C, [], .ro, 0x0, 0x1, .warm⟩,
  ⟨0x100110, [], .ro, 0x0, 0x0, .cold⟩,
  ⟨0x100120, [], .rw, 0xFFFF1F, 0x0, .warm⟩,
  ⟨0x100124, [], .ro, 0x0, 0x0, .warm⟩,
  ⟨0x100130, [], .ro, 0x0, 0x0, .warm⟩,
  ⟨0x100134, [], .rw, 0xFFF, 0x0, .warm⟩,
  ⟨0x100140, [(4, 0x4)], .ro, 0x0, 0x0, .warm⟩,
  ⟨0x100150, [], .ro, 0x0, 0x0, .warm⟩,
  ⟨0x100160, [(3, 0x4)], .ro, 0x0, 0x0, .warm⟩,
  ⟨0x100170, [], .ro, 0x0, 0x0, .cold⟩]
def regRowsPWR : List RegRow := [
  ⟨0x200100, [], .tv, 0xFF0FFFF, 0x88007D0, .warm⟩,
  ⟨0x200104, [], .tv, 0xFFFF, 0x69735A64, .warm⟩,
  ⟨0x200108, [], .tv, 0x3FF, 0x190, .warm⟩,
  ⟨0x20010C, [], .ro, 0x0, 0x28A02EE, .warm⟩,
  ⟨0x200110, [], .ro, 0x0, 0x0, .warm⟩,
  ⟨0x200114, [], .ro, 0x0, 0x2EE, .warm⟩,
  ⟨0x200118, [], .ro, 0x0, 0x0, .warm⟩,
  ⟨0x20011C, [], .sc, 0xFF, 0x0, .warm⟩,
  ⟨0x200120, [], .rw, 0xFF, 0x1B, .warm⟩,
  ⟨0x200130, [(4, 0x4)], .ro, 0x0, 0x0, .warm⟩,
  ⟨0x200140, [(4, 0x4)], .ro, 0x0, 0x0, .warm⟩,
  ⟨0x200150, [], .ro, 0x0, 0x0, .warm⟩,
  ⟨0x200154, [], .ro, 0x0, 0x0, .warm⟩,
  ⟨0x200158, [], .ro, 0x0, 0x0, .warm⟩,
  ⟨0x20015C, [], .ro, 0x0, 0x0, .warm⟩,
  ⟨0x200180, [], .ro, 0x0, 0x0, .warm⟩,
  ⟨0x200184, [], .ro, 0x0, 0x0, .warm⟩,
  ⟨0x200188, [], .ro, 0x0, 0x0, .warm⟩,
  ⟨0x20018C, [], .ro, 0x0, 0x0, .warm⟩,
  ⟨0x200190, [], .ro, 0x0, 0x0, .warm⟩,
  ⟨0x2001A0, [], .rw, 0x8000FFFF, 0x0, .warm⟩,
  ⟨0x2001A4, [], .rw, 0xFFFF, 0x0, .warm⟩,
  ⟨0x2001A8, [], .ro, 0x0, 0x0, .warm⟩]
def regRowsTRUST : List RegRow := [
  ⟨0x300100, [], .tv, 0x1, 0x0, .warm⟩,
  ⟨0x300104, [], .sc, 0x1F, 0x0, .warm⟩,
  ⟨0x300108, [], .ro, 0x0, 0x0, .warm⟩,
  ⟨0x30010C, [], .sc, 0x3F, 0x0, .warm⟩,
  ⟨0x300110, [], .ro, 0x0, 0x0, .cold⟩,
  ⟨0x300114, [], .ro, 0x0, 0x0, .cold⟩,
  ⟨0x300118, [], .ro, 0x0, 0x2, .cold⟩,
  ⟨0x301000, [(4, 0x100), (8, 0x4)], .wo, 0xFFFFFFFF, 0x0, .slice⟩,
  ⟨0x301020, [(4, 0x100)], .wo, 0xFFFFFFFF, 0x0, .slice⟩,
  ⟨0x301024, [(4, 0x100)], .rw, 0x1F03FF, 0x0, .slice⟩,
  ⟨0x301028, [(4, 0x100)], .rw, 0xFFFFFFFF, 0x0, .slice⟩,
  ⟨0x30102C, [(4, 0x100)], .rw, 0xFF, 0x0, .slice⟩,
  ⟨0x301030, [(4, 0x100)], .ro, 0x0, 0x0, .slice⟩]
def regRowsHOST : List RegRow := [
  ⟨0x400104, [], .sc, 0x3F, 0x0, .warm⟩,
  ⟨0x401000, [(2, 0x100)], .ro, 0x0, 0x0, .port⟩,
  ⟨0x401004, [(2, 0x100)], .wo, 0xFFFFFFFF, 0x0, .port⟩,
  ⟨0x401008, [(2, 0x100)], .wo, 0x1, 0x0, .port⟩,
  ⟨0x402000, [(4, 0x100)], .ro, 0x0, 0x0, .warm⟩,
  ⟨0x402004, [(4, 0x100)], .rw, 0x70F, 0x0, .warm⟩,
  ⟨0x402008, [(4, 0x100)], .rw, 0xFFFFF, 0x0, .warm⟩,
  ⟨0x40200C, [(4, 0x100)], .rw, 0xFFFFFFFF, 0x0, .warm⟩,
  ⟨0x402010, [(4, 0x100)], .rw, 0xFF, 0x0, .warm⟩,
  ⟨0x402014, [(4, 0x100)], .rw, 0xFFFFFFFF, 0x0, .slice⟩,
  ⟨0x402018, [(4, 0x100)], .rw, 0xFF, 0x0, .slice⟩,
  ⟨0x40201C, [(4, 0x100)], .rw, 0xFFFFFFFF, 0x0, .slice⟩,
  ⟨0x402020, [(4, 0x100)], .rw, 0xFF, 0x0, .slice⟩,
  ⟨0x402024, [(4, 0x100)], .ro, 0x0, 0x0, .slice⟩,
  ⟨0x402028, [(4, 0x100)], .ro, 0x0, 0x0, .warm⟩,
  ⟨0x40202C, [(4, 0x100)], .ro, 0x0, 0x0, .warm⟩]
def regRowsLNK : List RegRow := [
  ⟨0x600100, [], .rw, 0x1FFFFF, 0x130040, .warm⟩,
  ⟨0x600104, [], .sc, 0xF, 0x0, .warm⟩,
  ⟨0x600110, [(3, 0x4)], .ro, 0x0, 0x0, .warm⟩,
  ⟨0x610000, [(96, 0x1000)], .rw, 0x0, 0x0, .warm⟩,
  ⟨0x610004, [(96, 0x1000)], .ro, 0x0, 0x1, .warm⟩,
  ⟨0x610008, [(96, 0x1000)], .ro, 0x0, 0x0, .warm⟩,
  ⟨0x61000C, [(96, 0x1000)], .ro, 0x0, 0x0, .warm⟩,
  ⟨0x610010, [(96, 0x1000)], .ro, 0x0, 0x0, .warm⟩,
  ⟨0x610014, [(96, 0x1000)], .ro, 0x0, 0x0, .warm⟩,
  ⟨0x610018, [(96, 0x1000)], .ro, 0x0, 0x0, .warm⟩]
def regRowsSWT : List RegRow := [
  ⟨0x800100, [], .rw, 0x13F, 0x120, .warm⟩,
  ⟨0x800104, [], .sc, 0xF, 0x0, .warm⟩,
  ⟨0x800110, [], .ro, 0x0, 0x0, .warm⟩,
  ⟨0x800114, [], .ro, 0x0, 0x0, .warm⟩,
  ⟨0x801008, [(48, 0x8)], .rw, 0xFFFFFFFF, 0x0, .warm⟩,
  ⟨0x80100C, [(48, 0x8)], .rw, 0x80000003, 0x0, .warm⟩,
  ⟨0x840000, [(16384, 0x8)], .rw, 0xFFFFFFFF, 0x0, .warm⟩,
  ⟨0x840004, [(16384, 0x8)], .rw, 0x80000003, 0x0, .warm⟩,
  ⟨0x880000, [(4096, 0x20), (8, 0x4)], .rw, 0xFFFFFFFF, 0x0, .warm⟩]
def regRowsRMA : List RegRow := [
  ⟨0xA00100, [], .rw, 0xFFFFFF00, 0x4C410C00, .warm⟩,
  ⟨0xA00104, [], .rw, 0xFFFFFFFF, 0x27100064, .warm⟩,
  ⟨0xA00108, [], .sc, 0x1F, 0x0, .warm⟩,
  ⟨0xA01000, [(4, 0x100)], .rw, 0xF, 0x0, .slice⟩,
  ⟨0xA01004, [(4, 0x100)], .rw, 0xFFFFFFFF, 0x0, .slice⟩,
  ⟨0xA01008, [(4, 0x100)], .rw, 0xFFFFFFFF, 0x0, .slice⟩,
  ⟨0xA0100C, [(4, 0x100)], .rw, 0xFF, 0x0, .slice⟩,
  ⟨0xA01010, [(4, 0x100)], .ro, 0x0, 0x0, .slice⟩,
  ⟨0xA01014, [(4, 0x100)], .ro, 0x0, 0x0, .slice⟩,
  ⟨0xA10000, [(1024, 0x10)], .rw, 0xFFFF, 0x0, .slice⟩,
  ⟨0xA10004, [(1024, 0x10)], .ro, 0x0, 0x0, .slice⟩,
  ⟨0xA10008, [(1024, 0x10)], .rw, 0xFFFF, 0x0, .slice⟩,
  ⟨0xA1000C, [(1024, 0x10)], .ro, 0x0, 0x0, .slice⟩,
  ⟨0xA20000, [(16384, 0x8)], .rw, 0xFFFFFFFF, 0x0, .slice⟩,
  ⟨0xA20004, [(16384, 0x8)], .wo, 0xFFFFFFFF, 0x0, .slice⟩]
def regRowsETH : List RegRow := [
  ⟨0xC00100, [], .ro, 0x0, 0x0, .warm⟩,
  ⟨0xC00104, [], .sc, 0x3, 0x0, .warm⟩,
  ⟨0xC00108, [], .rw, 0xFFFFFFFF, 0x0, .warm⟩,
  ⟨0xC00200, [(16, 0x4)], .rw, 0xFFFFFFFF, 0x0, .warm⟩,
  ⟨0xC10000, [(32, 0x1000)], .rw, 0x3FFF0000, 0x0, .warm⟩,
  ⟨0xC10004, [(32, 0x1000)], .ro, 0x0, 0x0, .warm⟩,
  ⟨0xC10008, [(32, 0x1000)], .rw, 0x7FFFF0F, 0xFF00, .warm⟩,
  ⟨0xC1000C, [(32, 0x1000)], .ro, 0x0, 0x0, .cold⟩,
  ⟨0xC10010, [(32, 0x1000), (2, 0x4)], .rw, 0xFFFFFF00, 0x10000, .warm⟩,
  ⟨0xC10018, [(32, 0x1000), (6, 0x4)], .rw, 0xFFFFFFFF, 0x10001, .warm⟩,
  ⟨0xC40000, [(4, 0x1000)], .rw, 0x1FFF, 0x0, .warm⟩,
  ⟨0xC40040, [(4, 0x1000), (16, 0x4)], .rw, 0xFFFFFFFF, 0x0, .warm⟩,
  ⟨0xC80000, [(4, 0x1000), (255, 0x8)], .rw, 0x80000FFF, 0x0, .warm⟩,
  ⟨0xC80004, [(4, 0x1000), (255, 0x8)], .rw, 0xFFFFFF, 0x0, .warm⟩]
def regRowsTWS : List RegRow := [
  ⟨0xE00100, [], .rw, 0xF, 0x7, .warm⟩,
  ⟨0xE00104, [], .ro, 0x0, 0x0, .warm⟩,
  ⟨0xE00108, [], .sc, 0x3F, 0x0, .warm⟩,
  ⟨0xE01000, [(4, 0x100)], .rw, 0xFFFFFFFF, 0x0, .slice⟩,
  ⟨0xE01004, [(4, 0x100)], .rw, 0xFF, 0x0, .slice⟩,
  ⟨0xE01008, [(4, 0x100)], .rw, 0x8000000F, 0x0, .slice⟩,
  ⟨0xE0100C, [(4, 0x100)], .rw, 0xFFFF, 0x0, .slice⟩,
  ⟨0xE01010, [(4, 0x100)], .ro, 0x0, 0x0, .slice⟩,
  ⟨0xE01014, [(4, 0x100)], .rw, 0xFFFFFFFF, 0x0, .slice⟩,
  ⟨0xE01018, [(4, 0x100)], .rw, 0xFF, 0x0, .slice⟩,
  ⟨0xE0101C, [(4, 0x100)], .rw, 0xF, 0x0, .slice⟩,
  ⟨0xE01020, [(4, 0x100)], .rw, 0xFFFF, 0x0, .slice⟩,
  ⟨0xE01024, [(4, 0x100)], .ro, 0x0, 0x0, .slice⟩,
  ⟨0xE01028, [(4, 0x100)], .ro, 0x0, 0x0, .slice⟩]
def regRowsNDL : List RegRow := [
  ⟨0x1000100, [], .rw, 0x3FFFFFF, 0x641388, .warm⟩,
  ⟨0x1000104, [], .sc, 0x3F, 0x0, .warm⟩,
  ⟨0x1000110, [(4, 0x4)], .ro, 0x0, 0x0, .warm⟩,
  ⟨0x1000120, [], .ro, 0x0, 0x0, .warm⟩,
  ⟨0x1000124, [], .ro, 0x0, 0x0, .warm⟩,
  ⟨0x1000128, [], .ro, 0x0, 0x0, .warm⟩,
  ⟨0x100012C, [], .rw, 0xFFFFFFFF, 0x0, .warm⟩,
  ⟨0x1001000, [(5, 0x100), (4, 0x4)], .rw, 0xFFFFFFFF, 0x0, .slice⟩,
  ⟨0x1001010, [(5, 0x100)], .rw, 0xFFFFFFFF, 0x0, .slice⟩,
  ⟨0x1001014, [(5, 0x100)], .rw, 0xFF, 0x0, .slice⟩,
  ⟨0x1001018, [(5, 0x100)], .rw, 0x1FFFF, 0x0, .slice⟩,
  ⟨0x100101C, [(5, 0x100)], .rw, 0xFFFFFFFF, 0x0, .slice⟩,
  ⟨0x1001020, [(5, 0x100)], .rw, 0xFF, 0x0, .slice⟩,
  ⟨0x1001024, [(5, 0x100)], .rw, 0xFFFFFFFF, 0x0, .slice⟩,
  ⟨0x1001028, [(5, 0x100)], .rw, 0xFF, 0x0, .slice⟩,
  ⟨0x100102C, [(5, 0x100)], .rw, 0xF, 0x0, .slice⟩,
  ⟨0x1001030, [(5, 0x100)], .ro, 0x0, 0x0, .slice⟩,
  ⟨0x1002000, [(128, 0x4)], .ro, 0x0, 0x0, .slice⟩,
  ⟨0x1003000, [(16, 0x4)], .ro, 0x0, 0x0, .warm⟩]
def regRowsMEM : List RegRow := [
  ⟨0x1800100, [], .rw, 0xFF0001, 0x100001, .warm⟩,
  ⟨0x1800104, [], .sc, 0xF, 0x0, .warm⟩,
  ⟨0x1800108, [], .rw, 0xFFFF, 0x3E8, .warm⟩,
  ⟨0x1800110, [(4, 0x4)], .ro, 0x0, 0x0, .warm⟩,
  ⟨0x1800120, [(4, 0x4)], .mw, 0xFFFF, 0x0, .slice⟩,
  ⟨0x1800130, [(4, 0x4)], .ro, 0x0, 0x0, .slice⟩,
  ⟨0x1800140, [(4, 0x8)], .ro, 0x0, 0x0, .slice⟩,
  ⟨0x1800144, [(4, 0x8)], .ro, 0x0, 0x0, .slice⟩]
def regRowsOPT : List RegRow := [
  ⟨0x1C00104, [], .sc, 0x3, 0x0, .warm⟩,
  ⟨0x1C01000, [(4, 0x100)], .rw, 0xFFFFFFFF, 0x0, .slice⟩,
  ⟨0x1C01004, [(4, 0x100)], .rw, 0xFF, 0x0, .slice⟩,
  ⟨0x1C01008, [(4, 0x100)], .rw, 0x7FF1FFF, 0x0, .slice⟩,
  ⟨0x1C0100C, [(4, 0x100)], .rw, 0xFFFFFFFF, 0x0, .slice⟩,
  ⟨0x1C01010, [(4, 0x100)], .rw, 0xFF, 0x0, .slice⟩,
  ⟨0x1C01014, [(4, 0x100)], .rw, 0xFFFFFFFF, 0x0, .slice⟩,
  ⟨0x1C01018, [(4, 0x100)], .rw, 0xFF, 0x0, .slice⟩,
  ⟨0x1C0101C, [(4, 0x100)], .rw, 0x3FFF000F, 0x0, .slice⟩,
  ⟨0x1C01020, [(4, 0x100)], .rw, 0x3, 0x0, .slice⟩,
  ⟨0x1C01024, [(4, 0x100)], .ro, 0x0, 0x0, .slice⟩]
def regRowsCRD : List RegRow := [
  ⟨0x1E00100, [], .rw, 0x3FFF, 0x64, .warm⟩,
  ⟨0x1E00104, [], .sc, 0x1F, 0x0, .warm⟩,
  ⟨0x1E00110, [], .ro, 0x0, 0x0, .warm⟩,
  ⟨0x1E00114, [], .ro, 0x0, 0x0, .warm⟩,
  ⟨0x1E00118, [], .ro, 0x0, 0x0, .warm⟩,
  ⟨0x1E0011C, [], .ro, 0x0, 0x0, .warm⟩,
  ⟨0x1E00120, [], .ro, 0x0, 0x0, .warm⟩,
  ⟨0x1E01000, [(4, 0x100)], .rw, 0xFFFFFFFF, 0x0, .slice⟩,
  ⟨0x1E01004, [(4, 0x100)], .rw, 0xFF, 0x0, .slice⟩,
  ⟨0x1E01008, [(4, 0x100)], .rw, 0xF07, 0x0, .slice⟩,
  ⟨0x1E0100C, [(4, 0x100)], .ro, 0x0, 0x0, .slice⟩,
  ⟨0x1E01010, [(4, 0x100)], .ro, 0x0, 0x0, .slice⟩]
def regRowsCKP : List RegRow := [
  ⟨0x2000100, [], .rw, 0xFFFFFFFF, 0x7D003E8, .warm⟩,
  ⟨0x2000104, [], .sc, 0xFF, 0x0, .warm⟩,
  ⟨0x2000108, [], .ro, 0x0, 0x0, .warm⟩,
  ⟨0x2001000, [(4, 0x100)], .rw, 0xFF01FFFF, 0x0, .slice⟩,
  ⟨0x2001004, [(4, 0x100)], .rw, 0xFFFFFFFF, 0x0, .slice⟩,
  ⟨0x2001008, [(4, 0x100)], .rw, 0xFF, 0x0, .slice⟩,
  ⟨0x200100C, [(4, 0x100)], .rw, 0xFFFF, 0x0, .slice⟩,
  ⟨0x2001010, [(4, 0x100)], .rw, 0x3FFFF, 0x0, .slice⟩,
  ⟨0x2001014, [(4, 0x100)], .rw, 0xFFFFFFFF, 0x0, .slice⟩,
  ⟨0x2001018, [(4, 0x100)], .rw, 0xFFFFFFFF, 0x0, .slice⟩,
  ⟨0x200101C, [(4, 0x100)], .rw, 0xFFFF, 0x0, .slice⟩,
  ⟨0x2001020, [(4, 0x100)], .rw, 0xFFFFFFFF, 0x0, .slice⟩,
  ⟨0x2001024, [(4, 0x100)], .rw, 0xFF, 0x0, .slice⟩,
  ⟨0x2001028, [(4, 0x100)], .rw, 0xFFFFFFFF, 0x0, .slice⟩,
  ⟨0x200102C, [(4, 0x100)], .rw, 0xFF, 0x0, .slice⟩,
  ⟨0x2001030, [(4, 0x100)], .rw, 0xFFFFFFFF, 0x0, .slice⟩,
  ⟨0x2001034, [(4, 0x100)], .rw, 0xFF, 0x0, .slice⟩,
  ⟨0x2001038, [(4, 0x100)], .rw, 0x1FFFF, 0x0, .slice⟩,
  ⟨0x200103C, [(4, 0x100)], .rw, 0x3, 0x0, .slice⟩,
  ⟨0x2001040, [(4, 0x100)], .ro, 0x0, 0x0, .slice⟩,
  ⟨0x2001044, [(4, 0x100)], .ro, 0x0, 0x0, .slice⟩,
  ⟨0x2001048, [(4, 0x100)], .ro, 0x0, 0x0, .slice⟩,
  ⟨0x200104C, [(4, 0x100)], .ro, 0x0, 0x0, .slice⟩,
  ⟨0x2001050, [(4, 0x100)], .ro, 0x0, 0x0, .slice⟩,
  ⟨0x2001054, [(4, 0x100)], .ro, 0x0, 0x0, .slice⟩]
def regRowsSPN : List RegRow := [
  ⟨0x2200100, [], .ro, 0x0, 0x0, .none⟩,
  ⟨0x2200104, [], .sc, 0x3F, 0x0, .none⟩,
  ⟨0x2200110, [], .ro, 0x0, 0x0, .none⟩,
  ⟨0x2200120, [], .rw, 0x307, 0x0, .none⟩,
  ⟨0x2200124, [], .rw, 0xFFFFFFFF, 0x0, .none⟩,
  ⟨0x2200128, [], .rw, 0xFFFFFFFF, 0x0, .none⟩,
  ⟨0x220012C, [], .rw, 0x3FFFFFF, 0x0, .none⟩,
  ⟨0x2200130, [], .rw, 0x3FFF0FFF, 0x0, .none⟩,
  ⟨0x2200134, [], .ro, 0x0, 0x0, .none⟩,
  ⟨0x2200138, [], .ro, 0x0, 0x0, .none⟩,
  ⟨0x2201000, [(4, 0x100)], .rw, 0xFFFFFFFF, 0x0, .none⟩,
  ⟨0x2201004, [(4, 0x100)], .rw, 0xFF, 0x0, .none⟩,
  ⟨0x2201008, [(4, 0x100)], .rw, 0x8000000F, 0x0, .none⟩,
  ⟨0x220100C, [(4, 0x100)], .ro, 0x0, 0x0, .none⟩]
def regRowsPAGE : List RegRow := [
  ⟨0x4004000, [(4, 0x100000), (8, 0x40)], .rw, 0xFFFFFFFF, 0x0, .slice⟩,
  ⟨0x4004004, [(4, 0x100000), (8, 0x40)], .rw, 0xFFFFFFFF, 0x0, .slice⟩,
  ⟨0x4004008, [(4, 0x100000), (8, 0x40)], .rw, 0xFFFFFFFF, 0x0, .slice⟩,
  ⟨0x400400C, [(4, 0x100000), (8, 0x40)], .rw, 0xFFFFFFFF, 0x0, .slice⟩,
  ⟨0x4004010, [(4, 0x100000), (8, 0x40)], .rw, 0x80000F0F, 0x0, .slice⟩,
  ⟨0x4004014, [(4, 0x100000), (8, 0x40)], .rw, 0xFFFF, 0x0, .slice⟩,
  ⟨0x4004018, [(4, 0x100000), (8, 0x40)], .ro, 0x0, 0x0, .slice⟩,
  ⟨0x400401C, [(4, 0x100000), (8, 0x40)], .rw, 0xFFFF, 0x0, .slice⟩,
  ⟨0x4004020, [(4, 0x100000), (8, 0x40)], .ro, 0x0, 0x0, .slice⟩,
  ⟨0x4008000, [(4, 0x100000), (256, 0x10)], .rw, 0xFFFFFFFF, 0x0, .slice⟩,
  ⟨0x4008004, [(4, 0x100000), (256, 0x10)], .rw, 0xC7FF3FFF, 0x0, .slice⟩]
def ctrRowsGLB : List CtrRow := [
  ⟨0x20, 0x60, [], .warm⟩,
  ⟨0x28, 0x68, [], .warm⟩,
  ⟨0x230, 0x270, [], .warm⟩,
  ⟨0x238, 0x278, [], .warm⟩,
  ⟨0x240, 0x280, [], .warm⟩,
  ⟨0x248, 0x288, [], .warm⟩]
def ctrRowsCAST : List CtrRow := [
  ⟨0x100200, 0x100300, [], .cold⟩,
  ⟨0x100208, 0x100308, [], .warm⟩]
def ctrRowsPWR : List CtrRow := [
  ⟨0x200200, 0x200300, [], .warm⟩,
  ⟨0x200208, 0x200308, [], .warm⟩,
  ⟨0x200210, 0x200310, [], .warm⟩,
  ⟨0x200218, 0x200318, [], .warm⟩,
  ⟨0x200220, 0x200320, [], .warm⟩,
  ⟨0x200228, 0x200328, [], .warm⟩,
  ⟨0x200230, 0x200330, [], .warm⟩,
  ⟨0x200238, 0x200338, [], .warm⟩]
def ctrRowsTRUST : List CtrRow := [
  ⟨0x300200, 0x300300, [], .warm⟩,
  ⟨0x300208, 0x300308, [], .warm⟩,
  ⟨0x300210, 0x300310, [], .warm⟩,
  ⟨0x300218, 0x300318, [], .warm⟩,
  ⟨0x300220, 0x300320, [], .warm⟩,
  ⟨0x300228, 0x300328, [], .warm⟩,
  ⟨0x300230, 0x300330, [], .warm⟩]
def ctrRowsHOST : List CtrRow := [
  ⟨0x400200, 0x400300, [(2, 0x40)], .port⟩,
  ⟨0x400208, 0x400308, [(2, 0x40)], .port⟩,
  ⟨0x400210, 0x400310, [(2, 0x40)], .port⟩,
  ⟨0x400218, 0x400318, [(2, 0x40)], .port⟩,
  ⟨0x400220, 0x400320, [(2, 0x40)], .port⟩,
  ⟨0x400228, 0x400328, [(2, 0x40)], .port⟩,
  ⟨0x400280, 0x400380, [], .warm⟩,
  ⟨0x400288, 0x400388, [], .warm⟩,
  ⟨0x400290, 0x400390, [], .warm⟩]
def ctrRowsLNK : List CtrRow := [
  ⟨0x610100, 0x610200, [(96, 0x1000)], .warm⟩,
  ⟨0x610108, 0x610208, [(96, 0x1000)], .warm⟩,
  ⟨0x610110, 0x610210, [(96, 0x1000)], .warm⟩,
  ⟨0x610118, 0x610218, [(96, 0x1000)], .warm⟩,
  ⟨0x610120, 0x610220, [(96, 0x1000)], .warm⟩,
  ⟨0x610128, 0x610228, [(96, 0x1000)], .warm⟩,
  ⟨0x610130, 0x610230, [(96, 0x1000)], .warm⟩,
  ⟨0x610138, 0x610238, [(96, 0x1000)], .warm⟩,
  ⟨0x610140, 0x610240, [(96, 0x1000)], .warm⟩,
  ⟨0x610148, 0x610248, [(96, 0x1000)], .warm⟩,
  ⟨0x610150, 0x610250, [(96, 0x1000)], .warm⟩]
def ctrRowsSWT : List CtrRow := [
  ⟨0x800200, 0x800300, [], .warm⟩,
  ⟨0x800208, 0x800308, [], .warm⟩,
  ⟨0x800210, 0x800310, [], .warm⟩,
  ⟨0x800218, 0x800318, [], .warm⟩,
  ⟨0x800220, 0x800320, [], .warm⟩,
  ⟨0x800228, 0x800328, [], .warm⟩,
  ⟨0x800230, 0x800330, [], .warm⟩,
  ⟨0x800238, 0x800338, [], .warm⟩,
  ⟨0x800240, 0x800340, [], .warm⟩]
def ctrRowsRMA : List CtrRow := [
  ⟨0xA00200, 0xA00300, [], .warm⟩,
  ⟨0xA00208, 0xA00308, [], .warm⟩,
  ⟨0xA00210, 0xA00310, [], .warm⟩,
  ⟨0xA00218, 0xA00318, [], .warm⟩,
  ⟨0xA00220, 0xA00320, [], .warm⟩,
  ⟨0xA00228, 0xA00328, [], .warm⟩,
  ⟨0xA00230, 0xA00330, [], .warm⟩,
  ⟨0xA00238, 0xA00338, [], .warm⟩,
  ⟨0xA00240, 0xA00340, [], .warm⟩,
  ⟨0xA00248, 0xA00348, [], .warm⟩,
  ⟨0xA00250, 0xA00350, [], .warm⟩]
def ctrRowsETH : List CtrRow := [
  ⟨0xC10100, 0xC10200, [(32, 0x1000)], .warm⟩,
  ⟨0xC10108, 0xC10208, [(32, 0x1000)], .warm⟩,
  ⟨0xC10110, 0xC10210, [(32, 0x1000)], .warm⟩,
  ⟨0xC10118, 0xC10218, [(32, 0x1000)], .warm⟩,
  ⟨0xC10120, 0xC10220, [(32, 0x1000)], .warm⟩,
  ⟨0xC10128, 0xC10228, [(32, 0x1000)], .warm⟩,
  ⟨0xC10130, 0xC10230, [(32, 0x1000)], .warm⟩,
  ⟨0xC10138, 0xC10238, [(32, 0x1000)], .warm⟩,
  ⟨0xC10140, 0xC10240, [(32, 0x1000)], .warm⟩,
  ⟨0xC10148, 0xC10248, [(32, 0x1000)], .warm⟩,
  ⟨0xC10150, 0xC10250, [(32, 0x1000)], .warm⟩,
  ⟨0xC10158, 0xC10258, [(32, 0x1000)], .warm⟩]
def ctrRowsTWS : List CtrRow := [
  ⟨0xE00200, 0xE00300, [], .warm⟩,
  ⟨0xE00208, 0xE00308, [], .warm⟩,
  ⟨0xE00210, 0xE00310, [], .warm⟩,
  ⟨0xE00218, 0xE00318, [], .warm⟩,
  ⟨0xE00220, 0xE00320, [], .warm⟩,
  ⟨0xE00228, 0xE00328, [], .warm⟩,
  ⟨0xE00230, 0xE00330, [], .warm⟩,
  ⟨0xE00238, 0xE00338, [], .warm⟩,
  ⟨0xE00240, 0xE00340, [], .warm⟩,
  ⟨0xE00248, 0xE00348, [], .warm⟩,
  ⟨0xE00250, 0xE00350, [], .warm⟩,
  ⟨0xE00258, 0xE00358, [], .warm⟩]
def ctrRowsNDL : List CtrRow := [
  ⟨0x1000200, 0x1000300, [], .warm⟩,
  ⟨0x1000208, 0x1000308, [], .warm⟩,
  ⟨0x1000210, 0x1000310, [], .warm⟩,
  ⟨0x1000218, 0x1000318, [], .warm⟩,
  ⟨0x1000220, 0x1000320, [], .warm⟩,
  ⟨0x1000228, 0x1000328, [], .warm⟩,
  ⟨0x1000230, 0x1000330, [], .warm⟩,
  ⟨0x1000238, 0x1000338, [], .warm⟩]
def ctrRowsMEM : List CtrRow := [
  ⟨0x1800200, 0x1800300, [(4, 0x8)], .slice⟩,
  ⟨0x1800220, 0x1800320, [(4, 0x8)], .slice⟩,
  ⟨0x1800240, 0x1800340, [], .warm⟩,
  ⟨0x1800248, 0x1800348, [], .warm⟩,
  ⟨0x1800250, 0x1800350, [], .warm⟩,
  ⟨0x1800258, 0x1800358, [], .warm⟩,
  ⟨0x1800260, 0x1800360, [], .warm⟩,
  ⟨0x1800268, 0x1800368, [], .warm⟩,
  ⟨0x1800270, 0x1800370, [], .warm⟩,
  ⟨0x1800278, 0x1800378, [], .warm⟩]
def ctrRowsOPT : List CtrRow := [
  ⟨0x1C00200, 0x1C00300, [], .warm⟩,
  ⟨0x1C00208, 0x1C00308, [], .warm⟩,
  ⟨0x1C00210, 0x1C00310, [], .warm⟩,
  ⟨0x1C00218, 0x1C00318, [], .warm⟩,
  ⟨0x1C00220, 0x1C00320, [], .warm⟩,
  ⟨0x1C00228, 0x1C00328, [], .warm⟩]
def ctrRowsCRD : List CtrRow := [
  ⟨0x1E00200, 0x1E00300, [], .warm⟩,
  ⟨0x1E00208, 0x1E00308, [], .warm⟩,
  ⟨0x1E00210, 0x1E00310, [], .warm⟩,
  ⟨0x1E00218, 0x1E00318, [], .warm⟩,
  ⟨0x1E00220, 0x1E00320, [], .warm⟩,
  ⟨0x1E00228, 0x1E00328, [], .warm⟩,
  ⟨0x1E00230, 0x1E00330, [], .warm⟩,
  ⟨0x1E00238, 0x1E00338, [], .warm⟩]
def ctrRowsCKP : List CtrRow := [
  ⟨0x2000200, 0x2000300, [], .warm⟩,
  ⟨0x2000208, 0x2000308, [], .warm⟩,
  ⟨0x2000210, 0x2000310, [], .warm⟩,
  ⟨0x2000218, 0x2000318, [], .warm⟩,
  ⟨0x2000220, 0x2000320, [], .warm⟩,
  ⟨0x2000228, 0x2000328, [], .warm⟩,
  ⟨0x2000230, 0x2000330, [], .warm⟩,
  ⟨0x2000238, 0x2000338, [], .warm⟩,
  ⟨0x2000240, 0x2000340, [], .warm⟩,
  ⟨0x2000248, 0x2000348, [], .warm⟩]
def ctrRowsSPN : List CtrRow := [
  ⟨0x2200200, 0x2200300, [], .none⟩,
  ⟨0x2200208, 0x2200308, [], .none⟩,
  ⟨0x2200210, 0x2200310, [], .none⟩,
  ⟨0x2200218, 0x2200318, [], .none⟩]

/-- The register blocks: base, end and code (R7). -/
def regBlocks : List (Nat × Nat × Nat) := [
  (0x00000000, 0x00100000, 0x000), (0x00100000, 0x00200000, 0x001), (0x00200000, 0x00300000, 0x002),
  (0x00300000, 0x00400000, 0x003), (0x00400000, 0x00600000, 0x004), (0x00600000, 0x00800000, 0x006),
  (0x00800000, 0x00A00000, 0x008), (0x00A00000, 0x00C00000, 0x00A), (0x00C00000, 0x00E00000, 0x00C),
  (0x00E00000, 0x01000000, 0x00E), (0x01000000, 0x01800000, 0x010), (0x01800000, 0x01C00000, 0x018),
  (0x01C00000, 0x01E00000, 0x01C), (0x01E00000, 0x02000000, 0x01E), (0x02000000, 0x02200000, 0x020),
  (0x02200000, 0x02400000, 0x022)]

/-- The block, by its code, that offset `a` lies in. -/
def blockOf (a : Nat) : Option (Nat × Nat × Nat) := regBlocks.find? (fun b => b.1 ≤ a && a < b.2.1)

/-- The rows of the block with code `c`; code 0x040 stands for the page-only registers. -/
def regRowsOf (c : Nat) : List RegRow :=
  match c with
  | 0x0 => regRowsGLB
  | 0x1 => regRowsCAST
  | 0x2 => regRowsPWR
  | 0x3 => regRowsTRUST
  | 0x4 => regRowsHOST
  | 0x6 => regRowsLNK
  | 0x8 => regRowsSWT
  | 0xA => regRowsRMA
  | 0xC => regRowsETH
  | 0xE => regRowsTWS
  | 0x10 => regRowsNDL
  | 0x18 => regRowsMEM
  | 0x1C => regRowsOPT
  | 0x1E => regRowsCRD
  | 0x20 => regRowsCKP
  | 0x22 => regRowsSPN
  | 0x40 => regRowsPAGE
  | _ => []

/-- The counters of the block with code `c`. -/
def ctrRowsOf (c : Nat) : List CtrRow :=
  match c with
  | 0x0 => ctrRowsGLB
  | 0x1 => ctrRowsCAST
  | 0x2 => ctrRowsPWR
  | 0x3 => ctrRowsTRUST
  | 0x4 => ctrRowsHOST
  | 0x6 => ctrRowsLNK
  | 0x8 => ctrRowsSWT
  | 0xA => ctrRowsRMA
  | 0xC => ctrRowsETH
  | 0xE => ctrRowsTWS
  | 0x10 => ctrRowsNDL
  | 0x18 => ctrRowsMEM
  | 0x1C => ctrRowsOPT
  | 0x1E => ctrRowsCRD
  | 0x20 => ctrRowsCKP
  | 0x22 => ctrRowsSPN
  | _ => []

/-- Does an index of the dimensions `dims` reach offset `r` from the base? -/
def dimsHit : List (Nat × Nat) → Nat → Bool
  | [], r => r == 0
  | (c, st) :: ds, r => r / st < c && dimsHit ds (r % st)

/-- Does the row describe the register at offset `a`? -/
def rowHit (r : RegRow) (a : Nat) : Bool := r.base ≤ a && dimsHit r.dims (a - r.base)

/-- The code of the block that keeps offset `a`, the page-only registers as 0x040. -/
def codeOf (a : Nat) : Nat :=
  if 0x04000000 ≤ a && a < 0x04400000 then 0x40 else
  match blockOf a with
  | some b => b.2.2
  | none => 0xFFF

/-- The row of the register map that describes offset `a`. -/
def regRow (a : Nat) : Option RegRow := (regRowsOf (codeOf a)).find? (fun r => rowHit r a)

/-- The counter whose live pair (`LO` at the offset, `HI` four above) holds offset `a`, as the offset of its LO. -/
def liveCtr (a : Nat) : Option (Nat × CtrRow) :=
  ((ctrRowsOf (codeOf a)).find? (fun r => r.base ≤ a && dimsHit r.dims ((a - r.base) / 8 * 8) && (a - r.base) % 4 == 0)).map
    (fun r => (r.base + (a - r.base) / 8 * 8, r))

/-- The counter whose holding pair holds offset `a`, as the offset of its live LO. -/
def holdCtr (a : Nat) : Option (Nat × CtrRow) :=
  ((ctrRowsOf (codeOf a)).find? (fun r => r.hold ≤ a && dimsHit r.dims ((a - r.hold) / 8 * 8) && (a - r.hold) % 4 == 0)).map
    (fun r => (r.base + (a - r.hold) / 8 * 8, r))

/-- The reset value of the register at offset `a`; an ID register holds its block's code (R8). -/
def regReset (a : Nat) : Word :=
  match regRow a with
  | some r => BitVec.ofNat 32 r.reset
  | none =>
    match blockOf a with
    | some b => if a = b.1 then BitVec.ofNat 32 (b.2.2 <<< 20) else 0
    | none => 0

/-- Every live counter (offset of its LO) of the block with code `c`, with its domain. -/
def ctrsOfDims : List (Nat × Nat) → Nat → List Nat
  | [], b => [b]
  | (c, st) :: ds, b => (List.range c).flatMap (fun i => ctrsOfDims ds (b + i * st))

end Sys2Proof.Machine
end

