-- ==== Sys2Proof/Machine/State.lean ====
section
/-! DEFINITION. The state of the part: plain data, holding every register, counter, memory, queue, mode and pin that
the spec gives it, and the queue of commands that wait. -/

namespace Sys2Proof.Machine

/-- What stops the machine. -/
inductive Fault where
  /-- No meaning raises it: the part has no stop of its own. Safe. -/
  | none
  deriving DecidableEq, Repr

/-- Why a command has no meaning here. -/
inductive Refusal where
  /-- Raised by Machine/Dispatch.lean alone, for a command without a meaning yet. Safe. -/
  | notModelled (mnemonic : String)
  deriving DecidableEq, Repr

/-! ### Counters and snapshots (R20 to R27, R924) -/

/-- An event counter (R20). -/
structure Counter where
  count : Nat := 0
  sat : Bool := false
  deriving DecidableEq, Repr

/-- The snapshot machinery of one block (R22 to R24, R924); the GLB block's is GLB_SNAP. -/
structure SnapBlk where
  busy : Bool := false
  armed : Bool := false
  clr : Bool := false
  deriving DecidableEq, Repr

/-! ### Jobs, tallies and the beat (file 02) -/

/-- The tally of one tensor in one step, over the elements this part holds (R114, R117). -/
structure TallyAcc where
  step : Nat
  tensor : Nat
  digest : Nat
  elements : Nat
  poisoned : Nat
  seen : Bool
  format : Nat
  deriving DecidableEq, Repr

/-- A member of a job: part and slice (R79). -/
structure Member where
  part : Nat
  slice : Nat
  deriving DecidableEq, Repr

/-- The job of one slice (R79 to R83, R103, R104, R128). -/
structure Job where
  isOpen : Bool := false
  seed : Nat := 0
  stitches : Nat := 0
  gen : Nat := 0
  members : List Member := []
  /-- The shards of the job (R510, R549): the members' own when the job opened, and since the last restore. -/
  shards : List Member := []
  tallySet : List Nat := []
  hist : List (Nat × Nat) := []
  /-- Step k has completed and its successor waits for a beat boundary (R103). -/
  waiting : Bool := false
  /-- The running step started at a beat boundary (R104). -/
  atBoundary : Bool := false
  /-- Mirror action HALT took effect: no further step starts (R128). -/
  halting : Bool := false
  /-- Membership epoch (R81, R548) and membership state of the job (file 09). -/
  epoch : Nat := 0
  memb : Nat := 0
  /-- Part-scope tallies of the steps that run (R117). -/
  tallies : List TallyAcc := []
  /-- Job-scope tally records of the last step that released them (R126, R250). -/
  jobTallies : List TallyAcc := []
  deriving DecidableEq, Repr

/-- The beat (R90 to R104). -/
structure Beat where
  /-- The beat was enabled at the instant the part entered READY (R926). -/
  on : Bool := false
  /-- Instant of the last boundary, B of R96. -/
  last : Option Nat := none
  /-- The expected instant E of R96. -/
  expect : Nat := 0
  outHigh : Bool := false
  riseDue : Option Nat := none
  fallDue : Option Nat := none
  deriving DecidableEq, Repr

/-! ### Twist units and collectives (file 04) -/

/-- A collective descriptor (R197), field by field; every field is the number the descriptor holds. -/
structure CollDesc where
  collId : Nat
  epoch : Nat
  kind : Nat
  alg : Nat
  tally : Bool
  armEn : Bool
  doneEn : Bool
  stepEnd : Bool
  group : Nat
  attr : Nat
  tensor : Nat
  stitches : Nat
  members : Nat
  self : Nat
  ownerCnt : Nat
  elements : Nat
  memberTbl : Nat
  ownerTbl : Nat
  srcAddr : Nat
  srcLo : Nat
  srcCnt : Nat
  accAddr : Nat
  accLog2 : Nat
  gaugeAddr : Nat
  outAddr : Nat
  dstOff : Nat
  localEp : Nat
  armVal : Nat
  armCtr : Nat
  doneCtr : Nat
  user : Nat
  step : Nat
  deriving DecidableEq, Repr

/-- One member of a collective: its part and its stitch span (R199). -/
structure CollMember where
  part : Nat
  lo : Nat
  cnt : Nat
  deriving DecidableEq, Repr

/-- A tally entry of a TOKEN or RELEASE record (R208). -/
structure TallyEntry where
  digest : Nat
  elements : Nat
  poisoned : Nat
  poison : Bool
  seen : Bool
  format : Nat
  deriving DecidableEq, Repr

/-- A descriptor fetched and not yet completed (R195, R203, R242). Its slots, bitmaps and done map lie in memory at
its accumulator region (R218, R219). -/
structure Coll where
  slice : Nat
  idx : Nat
  d : CollDesc
  members : List CollMember
  /-- FIRST_BLOCK and MEMBER of each owner table entry (R201). -/
  owners : List (Nat × Nat)
  /-- Fetch order on the part. -/
  serial : Nat
  started : Bool := false
  /-- The first nonzero status the collective met (R245). -/
  status : Nat := 0
  blocks : Nat := 0
  redo : Nat := 0
  /-- Members whose FINAL has arrived, this one included (R241, R242). -/
  finals : List Nat := []
  finalSent : Bool := false
  /-- Blocks or gauge groups whose RESULT has been written and delivered (R239, R240, R248). -/
  written : List Nat := []
  /-- RESULT blocks of which only some pieces are in: block and piece mask. -/
  openRes : List (Nat × Nat) := []
  /-- Endpoint and block of every BLOCK_ACK (R242, R629). -/
  epAcks : List (Nat × Nat) := []
  released : Bool := false
  /-- REDO notices that wait for their slot: block and redo gauge (R195, R235). -/
  redoPend : List (Nat × Nat) := []
  /-- Local source images not yet added: block and image (R217). -/
  localTodo : List (Nat × Nat) := []
  /-- Owned blocks still to be sent as RESULT (R65, R238). -/
  ownTodo : List Nat := []
  /-- OBS of blocks this owner has finalised and not yet sent in a GNOTE (R233). -/
  obsDone : List (Nat × Nat) := []
  /-- Job tally entries gathered at a BARRIER (R250). -/
  entries : List TallyEntry := []
  /-- TOKEN spans of which only some pieces are in: first member, count, piece mask. -/
  openTok : List (Nat × Nat × Nat) := []
  /-- It has met a status that completes it, and waits for that as a STEP_END descriptor (R927). -/
  failed : Bool := false
  /-- The completion record waits for room in the completion ring (R258). -/
  held : Bool := false
  deriving DecidableEq, Repr

/-- A sent record piece kept until its ACK arrives (R211, R212). -/
structure Kept where
  slice : Nat
  peer : Nat
  key : AckKey
  msg : TwistRec
  timeout : Nat
  count : Nat := 0
  deriving DecidableEq, Repr

/-- A completion record that waits for room (R258): its slice, its 14 bytes before the reserved byte, its status, its
ring index, and the serial of the descriptor it completes, none for one rejected at fetch. -/
structure HeldRec where
  slice : Nat
  bytes : List Byte
  status : Nat
  idx : Nat
  serial : Option Nat
  deriving DecidableEq, Repr

/-- Twist state of the part. -/
structure Tws where
  colls : List Coll := []
  kept : List Kept := []
  nextSerial : Nat := 0
  /-- Gathers that did not complete with 0x0000: slice, step and serial (R927). -/
  failed : List (Nat × Nat × Nat) := []
  /-- History bytes that a GNOTE of the running step has written: slice, step, pending-table byte, history byte (R233). -/
  noted : List (Nat × Nat × Nat × Nat) := []
  /-- Completion records that wait for room (R258). -/
  heldRecs : List HeldRec := []
  /-- Peers reported to Spindle at a retry limit (R212). -/
  reported : List Nat := []
  /-- Collectives that have completed here and whose COLL_ID has not been fetched again since (R222, R233). -/
  past : List Coll := []
  /-- COLL_IDs that were in flight on a slice when its reset began (R255): slice and COLL_ID. -/
  resetting : List (Nat × Nat) := []
  deriving DecidableEq, Repr

/-! ### Checkpoint pages (file 09) -/

/-- A 64 KiB page read into a push buffer: its die, its part-local page address / 64 KiB, and its bytes by offset. -/
structure PushPage where
  die : Nat
  page : Nat
  bytes : SMap Byte
  deriving DecidableEq, Repr

/-! ### Rows and needles (files 05 and 06) -/

/-- What a needle does (R387 to R389, R288, R304). -/
inductive Wait where
  | run
  | ended
  | halted
  /-- WAITB: until the boundary after this beat sequence. -/
  | beat (seq : Nat)
  /-- WAITT: until trigger counter `ctr` of the part has reached `val`. -/
  | trigger (ctr val : Nat)
  /-- Issued the row-collective instruction `word` at `off` with these operand values (R380). -/
  | collective (off word : Nat) (ops : List Nat)
  deriving DecidableEq, Repr

/-- A needle's stream on one feeder (R376). -/
structure Stream where
  sp : Nat
  off : Nat
  stride : Int
  count : Nat
  next : Nat
  deriving DecidableEq, Repr

/-- The architectural state of one needle (R318, R319). Registers are kept as the numbers they hold, poison as masks of
words; unlisted registers, scratch bytes and draw counters are 0. -/
structure Needle where
  g : SMap Nat := []
  gPoison : Nat := 0
  v : SMap Nat := []
  vPoison : SMap Nat := []
  /-- Lane `l` of p register `n` at key 8n + l. -/
  p : SMap Nat := []
  seg : SMap Nat := []
  zf : Bool := false
  nf : Bool := false
  cf : Bool := false
  vf : Bool := false
  pf : Bool := false
  pc : Nat := 0
  draws : SMap Nat := []
  hm : Bool := false
  tpc : Nat := 0
  tcause : Nat := 0
  taddr : Nat := 0
  titer : Nat := 0
  tflags : Nat := 0

  /-- The last trap arose in a repeat pair (R349). -/
  tpair : Bool := false
  /-- RTT has resumed a REP pair at this iteration (R349). -/
  resumeAt : Option Nat := none
  scratch : SMap Byte := []
  /-- Poison marks of scratch, one per 8-byte word (R264). -/
  scratchTags : SMap Bool := []
  streams : SMap (Option Stream) := []
  wait : Wait := .run
  deriving DecidableEq, Repr

/-- A matrix operand buffer (R383): its format, the slices loaded, and its elements, element i of slice k at 32k + i. -/
structure MatBuf where
  fmt : Nat := 2
  slices : Nat := 0
  elems : SMap Nat := []
  poison : SMap Bool := []
  deriving DecidableEq, Repr

/-- What a row holds beside its status register NDL_ROW_L (R265, R282, R318). -/
structure Row where
  prog : SMap Byte := []
  len : Nat := 0
  /-- The address its image was loaded from (R744). -/
  addr : Nat := 0
  digest : List Byte := []
  /-- Good chunks of the image being loaded (R282). -/
  chunks : List Nat := []
  rounds : Nat := 0
  /-- The command set whose command is in progress on the row (R291); 5 + n is slice n's FREEZE (R741). -/
  owner : Option Nat := none
  needles : SMap Needle := []
  /-- STOP has left registers and scratch undefined (R289). -/
  undef : Bool := false
  tile : SMap Nat := []
  tilePoison : SMap Bool := []
  tileLive : Bool := false
  bufA : MatBuf := {}
  bufB : MatBuf := {}
  /-- Program buffer offset of the safe point of a PAUSED row. -/
  safe : Nat := 0
  deriving DecidableEq, Repr

/-- A row command in progress (R291), or a slice's FREEZE. -/
structure RowCmd where
  op : Nat
  /-- Target rows that have not finished. -/
  rows : List Nat
  /-- Every target row. -/
  targets : List Nat := []
  status : Nat := 0
  row : Nat := 0
  image : SMap Byte := []
  len : Nat := 0
  digest : List Byte := []
  deriving DecidableEq, Repr

/-- A defect ledger entry (R847). -/
structure LedgerEntry where
  kind : Nat
  die : Nat
  unit : Nat
  sub : Nat
  addr : Nat
  boot : Nat
  source : Nat
  deriving DecidableEq, Repr

/-! ### The optimizer engine (R436 to R464) -/

/-- A work item written to a row's ring and not yet committed (R444). A FACTORED item covers its whole tensor. -/
structure OptItem where
  slice : Nat
  row : Nat
  slot : Nat
  seq : Nat
  entry : Nat
  block : Nat
  ord : Nat
  len : Nat
  step : Nat
  /-- The engine has seen its DONE write (R446). -/
  staged : Bool := false
  deriving DecidableEq, Repr

/-- A work item that waits for a ring with room (R462). -/
structure OptWait where
  slice : Nat
  entry : Nat
  block : Nat
  ord : Nat
  len : Nat
  step : Nat
  deriving DecidableEq, Repr

/-- The optimizer engines of the part; EN stands in OPT_Sn_STAT. -/
structure Opt where
  items : List OptItem := []
  waits : List OptWait := []
  /-- The next SEQ of each row's ring. -/
  seqs : SMap Nat := []
  /-- The next row of each die's rotation (R449). -/
  turn : SMap Nat := []
  /-- Slices whose DISABLE waits for staged items (R463). -/
  drain : List Nat := []
  deriving DecidableEq, Repr

/-! ### The Carder (file 08) -/

/-- An entry of a feed's local table (R473). -/
structure LocalSpan where
  ep : Nat
  lo : Nat
  cnt : Nat
  deriving DecidableEq, Repr

/-- An entry of a feed's stream table (R493). -/
structure StreamEntry where
  stream : Nat
  codec : Nat
  policy : Nat
  pt : Nat
  ssrc : Nat
  fw : Nat
  fh : Nat
  deriving DecidableEq, Repr

/-- A feed descriptor (R465), field by field. -/
structure FeedDesc where
  id : Nat
  mode : Nat
  source : Nat
  onError : Nat
  codec : Nat
  bayer : Nat
  outFmt : Nat
  lookahead : Nat
  h : Nat
  w : Nat
  c : Nat
  streams : Nat
  rps : Nat
  stitches : Nat
  tid : Nat
  localCnt : Nat
  records : Nat
  cursor : Nat
  cursorLen : Nat
  streamTbl : Nat
  localTbl : Nat
  work : Nat
  workLog2 : Nat
  dstOff : Nat
  slotBytes : Nat
  itemBytes : Nat
  depotConn : Nat
  depotKey : Nat
  doneCtr : Nat
  doneEn : Bool
  deriving DecidableEq, Repr

/-- An open or halted feed; its state stands in CRD_Sn_FSTATE (R508). -/
structure Feed where
  slice : Nat
  idx : Nat
  d : FeedDesc
  spans : List LocalSpan
  table : List StreamEntry
  /-- Stopped by a change of membership (R506). -/
  stopped : Bool := false
  /-- The first step after OPEN or RETARGET, and the next step to be read (R489). -/
  first : Nat := 0
  next : Nat := 0
  /-- Last step that each endpoint has released (R489). -/
  released : List (Nat × Nat) := []
  /-- Endpoint and step whose stitches are all written, and those that FEED_READY has announced (R490). -/
  written : List (Nat × Nat) := []
  ready : List (Nat × Nat) := []
  /-- REPLAY: records of the log and of the record table taken so far (R502). -/
  logPos : Nat := 0
  recPos : Nat := 0
  /-- The last used frame of each stream: stream, RTP timestamp, bytes; no bytes for a zero frame (R495, R499). -/
  lasts : List (Nat × Nat × Option (List Byte)) := []
  deriving DecidableEq, Repr

/-- Where an item stands between its record and its tensor. -/
inductive ItemStage where
  | waiting
  | decoding (pipe : Nat)
  | ready
  | ring
  | packed
  deriving DecidableEq, Repr

/-- An item of a feed (R472, R474, R482, R495). -/
structure FeedItem where
  slice : Nat
  feed : Nat
  die : Nat
  row : Nat
  /-- Step, or beat sequence. -/
  time : Nat
  stitch : Nat
  item : Nat
  decision : Nat := 0
  /-- Serving: RTP timestamp and bytes of the frame, and its logged REF in REPLAY. -/
  tag : Nat := 0
  frame : List Byte := []
  ref : Option Nat := none
  dropped : Nat := 0
  stage : ItemStage := .waiting
  image : Image := ⟨0, 0, 0, 8, []⟩
  /-- Poison marks of the samples; an empty list for none. -/
  marks : List Bool := []
  seq : Nat := 0
  slot : Nat := 0
  pack : Nat := 0
  deriving DecidableEq, Repr

/-- A frame in assembly or complete (R494). -/
structure RtpFrame where
  stream : Nat
  ts : Nat
  bytes : SMap (Option Byte) := []
  total : Nat := 0
  marker : Bool := false
  first : Nat := 0
  done : Option Nat := none
  deriving DecidableEq, Repr

/-- The Carder of the part. -/
structure Carder where
  feeds : List Feed := []
  items : List FeedItem := []
  frames : List RtpFrame := []
  /-- The next FEED row of each die's rotation (R482). -/
  turn : SMap Nat := []
  /-- The next SEQ of each row ring of each feed, by (16 slice + feed) * 128 + row. -/
  seqs : SMap Nat := []
  deriving DecidableEq, Repr

/-! ### Checkpoints and membership (file 09) -/

/-- A landed difference (R527): its die and page of the shard, the step of its push, its place and encoded length in the
landing area, the XOR by offset, and whether it has been drained. -/
structure Landed where
  die : Nat
  page : Nat
  step : Nat
  off : Nat
  len : Nat
  diff : SMap Byte
  drained : Bool := false
  deriving DecidableEq, Repr

/-- Condition of a buddy image (R530 to R533). -/
inductive ImageCond where
  | complete | mid | torn | invalid
  deriving DecidableEq, Repr

/-- The image of a shard that a slice holds (R514, R527 to R536). -/
structure HeldImage where
  part : Nat
  slice : Nat
  cond : ImageCond := .invalid
  /-- The last confirmed step, and the checkpoint before it while its retained difference is held (R549). -/
  step : Option Nat := none
  prev : Option Nat := none
  /-- The step of the running push, and whether every page applied in it is landed. -/
  pushStep : Nat := 0
  covered : Bool := true
  /-- The running push goes to the slice's own state regions (R559). -/
  toState : Bool := false
  landed : List Landed := []
  /-- The depot chain is broken (R530, R535, R537); drained checkpoints; the step of the last drained object. -/
  broken : Bool := true
  drains : Nat := 0
  chain : Option Nat := none
  /-- The last shard record received (R538). -/
  record : List Byte := []
  deriving DecidableEq, Repr

/-- A promoted shard that a slice runs beside its own (R552 to R554). -/
structure Promo where
  part : Nat
  slice : Nat
  tbl : Nat
  entries : Nat
  params : Nat
  paramBase : Nat
  deriving DecidableEq, Repr

/-- An agreement led by this part for a slice's job (R543, R545). -/
structure Lead where
  prop : Proposal
  accepts : List (Nat × List CopyAt) := []
  deriving DecidableEq, Repr

/-- A push whose confirmation is awaited (R531, R538): its step, its membership and checkpoint epochs, whether it took
every page, and its region digests by die. -/
structure Confirm where
  step : Nat
  membEpoch : Nat
  ckpEpoch : Nat
  full : Bool
  sums : List (Nat × List Byte)
  deriving DecidableEq, Repr

/-- Checkpoint and membership state of one slice (file 09). -/
structure Ckp where
  /-- Requested boundaries pending (R517), and whether a failure warning was sent since the last checkpoint (R518). -/
  reqs : List Nat := []
  warned : Bool := false
  /-- The job's checkpoint epoch (R519). -/
  epoch : Nat := 0
  /-- The next capture takes every page (R526). -/
  full : Bool := true
  /-- A capture that waits for the running copy (R522), the push being copied, its count of pages, and the pushes whose
  confirmations are awaited, oldest first (R531). -/
  waiting : Option Nat := none
  copying : Option Nat := none
  total : Nat := 0
  confirming : List Confirm := []
  /-- Membership epoch, checkpoint epoch and extent of the running capture, for the shard record (R538). -/
  membEpoch : Nat := 0
  capEpoch : Nat := 0
  capFull : Bool := false
  /-- The owner's page digests, by address / 64 KiB (R534). -/
  digests : SMap (List Byte) := []
  image : Option HeldImage := none
  promo : Option Promo := none
  /-- The shard has no buddy copy (NO_BUDDY). -/
  noBuddy : Bool := false
  /-- A restore: the plan's step, its record, its chain, and whether its regions are verified (R563 to R565). -/
  restoring : Option Nat := none
  planRecord : List Byte := []
  planDepot : Bool := false
  planKinds : List Nat := []
  verified : Bool := false
  /-- Agreement: the highest round accepted, its proposal, and what this part leads (R543 to R547). -/
  round : Nat := 0
  prop : Option Proposal := none
  lead : Option Lead := none
  /-- The last epoch committed (R548: at most one membership for each epoch). -/
  committed : Option Nat := none
  deriving DecidableEq, Repr

/-! ### Arbiters (R427 to R435) -/

/-- A request that waits at an arbiter, with its current priority and how often it was preempted. -/
structure ArbWait where
  req : ArbReq
  prio : Nat
  preempts : Nat
  deriving DecidableEq, Repr

/-- An arbiter: its waiting requests, the transfer that runs, the last granted requester and the grant slot (R596). -/
structure Arbiter where
  waiting : List ArbWait := []
  running : Option ArbWait := none
  last : Nat := 0
  slot : Nat := 0
  deriving DecidableEq, Repr

/-! ### Links and the switch (file 10) -/

/-- A DATA flit that its sender keeps until it is acknowledged (R599). -/
structure DataFlit where
  seq : Nat
  vc : Nat
  sop : Bool
  eop : Bool
  replace : Bool
  stomp : Bool
  payload : List Byte
  deriving DecidableEq, Repr

/-- The receive side of one VC of a link: the payloads of the packet's flits so far, whether it waits for a REPLACE flit
(R606), the output link on which the packet is cut through (R604), and whether the copy sent there was stomped (R605). -/
structure VcRx where
  flits : List (List Byte) := []
  hold : Bool := false
  cutTo : Option Nat := none
  stomped : Bool := false
  deriving DecidableEq, Repr

/-- What a peer's IDENT said (R582). -/
structure PeerIdent where
  role : Nat
  uid : Nat
  fec : Nat
  maxRd : Nat
  ack : Bool
  deriving DecidableEq, Repr

/-- A Woard link beside its registers (R580 to R613). -/
structure Link where
  /-- Held DOWN by LNK_n_CTL.DOWN, the instant it went DOWN, and failed retrains. -/
  held : Bool := false
  downAt : Option Nat := none
  tries : Nat := 0
  ident : Option PeerIdent := none
  hello : Bool := false
  /-- Next SEQ, the replay buffer, and packets that wait: VC and bytes (R592, R599). -/
  txSeq : Nat := 0
  replay : List DataFlit := []
  queue : List (Nat × List Byte) := []
  /-- Credits held, by VC; one below 0 while a stomped copy's credit is on its way back. -/
  credits : SMap Int := []
  /-- Last SEQ accepted in order, once there is one; a NAK has been sent; flits accepted since the last acknowledgement;
  credits to return, by VC (R592, R597, R598). -/
  rxSeq : Option Nat := none
  nakSent : Bool := false
  owed : Nat := 0
  owedCr : SMap Nat := []
  /-- Replays in the running millisecond, and its start (R600). -/
  replays : Nat := 0
  replayAt : Nat := 0
  rx : SMap VcRx := []
  /-- Packets received in full and not yet forwarded: VC, flits and bytes. -/
  inbox : List (Nat × Nat × List Byte) := []
  /-- PRBS31 of the CAL flits sent (R609). -/
  prbs : Nat := 0x7FFFFFFF
  /-- Arrival and departure of the last TSYNC received (R612). -/
  tsync : Option (Nat × Nat) := none
  /-- Receive deframer: data bits held, their count, whether a codeword in them failed, and the codeword's place in the
  Tight block (R577). -/
  rxBits : Nat := 0
  rxLen : Nat := 0
  rxBad : Bool := false
  rxPos : Nat := 0
  deriving DecidableEq, Repr

/-! ### Remote memory access (file 11), cipher channels (R804), and the Ethernet edge (file 12) -/

/-- A started work request on its connection (R652): its work queue and ring index, and how far it has come. -/
structure RmaMsg where
  wq : Nat
  idx : Nat
  read : Bool
  ep : Nat
  loc : Nat
  roff : Nat
  rkey : Nat
  len : Nat
  notify : Bool
  /-- Packets in all and packets sent. -/
  total : Nat
  sent : Nat := 0
  /-- WRITE from an endpoint: the bytes fetched for the next packet, and whether they have been asked for. -/
  fetched : Option (List (Byte × Bool)) := none
  asked : Bool := false
  /-- READ: offsets and lengths of the responses placed. -/
  placed : List (Nat × Nat) := []
  deriving DecidableEq, Repr

/-- A request packet sent and not yet done with (R673 to R675). -/
structure RmaFlight where
  psn : Nat
  wq : Nat
  idx : Nat
  read : Bool
  last : Bool
  packet : List Byte
  sentAt : Nat
  retx : Bool := false
  acked : Bool := false
  lost : Bool := false
  deriving DecidableEq, Repr

/-- A request held ahead of EPSN, or being placed (R667, R670, R672). -/
structure RmaHeld where
  psn : Nat
  last : Bool
  notify : Bool
  key : Nat
  /-- A READ_REQ: its offset and length. -/
  read : Option (Nat × Nat)
  placed : Bool
  deriving DecidableEq, Repr

/-- A connection (R639 to R645): 0 CLOSED, 1 OPEN, 2 ERROR, 3 QUARANTINED. -/
structure RmaConn where
  state : Nat := 0
  /-- Last epoch opened, whether there is one, and openings since quarantine. -/
  epoch : Nat := 0
  known : Bool := false
  opens : Nat := 0
  cls : Nat := 0
  eth : Bool := false
  enc : Bool := false
  pd : Nat := 0
  rpart : Nat := 0
  rcid : Nat := 0
  mtu : Nat := 1024
  retry : Nat := 7
  maxWnd : Nat := 1
  target : Nat := 0
  path : Nat := 0
  cipher : Nat := 0
  err : Nat := 0
  psn : Nat := 0
  /-- Window in units of 1/256 packet (R679); the PSN that an ACK must pass before it falls again. -/
  win : Nat := 256
  decPsn : Option Nat := none
  msgs : List RmaMsg := []
  flight : List RmaFlight := []
  rto : Nat := 8000
  tries : Nat := 0
  deadline : Nat := 0
  waitSince : Option Nat := none
  txctr : Nat := 1
  epsn : Nat := 0
  held : List RmaHeld := []
  /-- PSNs released since the last ACK (R671). -/
  sinceAck : Nat := 0
  deriving DecidableEq, Repr

/-- A registered region (R647). -/
structure RmaRegion where
  slice : Nat
  base : Nat
  ep : Nat
  pd : Nat
  len : Nat
  rw : Bool
  rr : Bool
  ctr : Option Nat
  valid : Bool := true
  deriving DecidableEq, Repr

/-- A work request of a queue, from its start until its record is written. -/
structure WqReq where
  idx : Nat
  status : Option Nat := none
  bytes : Nat := 0
  user : Nat := 0
  doneCtr : Option Nat := none
  deriving DecidableEq, Repr

/-- A work queue (R652). -/
structure WorkQueue where
  slice : Nat
  ring : Nat
  log2 : Nat
  cq : Nat
  cqLog2 : Nat
  reqs : List WqReq := []
  deriving DecidableEq, Repr

/-- What an edge access in progress is for (R670). -/
inductive EdgeWork where
  /-- A WRITE packet placed into an endpoint region: connection, its epoch, PSN and key index. -/
  | place (cid epoch psn key : Nat)
  /-- A READ response placed into the initiator's endpoint. -/
  | resp (cid wq idx off len : Nat)
  /-- The source bytes of a WRITE from an endpoint. -/
  | source (cid wq idx : Nat)
  /-- A read of an endpoint region served to a peer. -/
  | serve (cid epoch psn off : Nat)
  deriving DecidableEq, Repr

structure EdgeOp where
  ep : Nat
  tag : Nat
  work : EdgeWork
  deriving DecidableEq, Repr

/-- A running FENCE (R684): when it was issued, and the CIDs and key indices it releases. -/
structure RmaFence where
  since : Nat
  cids : List Nat
  keys : List Nat
  deriving DecidableEq, Repr

/-- The RMA tables of the part (R638). -/
structure Rma where
  conns : SMap RmaConn := []
  regions : SMap (Option RmaRegion) := []
  gens : SMap Nat := []
  keyQuar : SMap Bool := []
  paths : SMap (List Byte) := []
  wqs : SMap (Option WorkQueue) := []
  edge : List EdgeOp := []
  fences : SMap (Option RmaFence) := []
  /-- Keys whose DEREG_REGION has not completed, by slice (R650). -/
  deregs : SMap (Option Nat) := []
  deriving DecidableEq, Repr

/-- A wide cipher channel (R804 to R811): transmit and receive key with salt, USED, and its save generation. -/
structure Cipher where
  tx : Option (List Byte × List Byte) := none
  rx : Option (List Byte × List Byte) := none
  used : Bool := false
  gen : Nat := 0
  deriving DecidableEq, Repr

/-- A frame that waits on an Ethernet port, without its FCS; `mark`: Spindle marks it for a stamp (R713). -/
structure EthTx where
  queue : Nat
  frame : List Byte
  mark : Bool
  deriving DecidableEq, Repr

/-- An Ethernet port's egress (R709 to R712): its frames, the shaper credits in 1/80 byte at the instant of the last change,
the deficits of the weighted group, and the next queue of its round. -/
structure EthPort where
  frames : List EthTx := []
  credit : SMap Nat := []
  creditAt : Nat := 0
  deficit : SMap Nat := []
  turn : Nat := 2
  downAt : Option Nat := none
  deriving DecidableEq, Repr

/-- A copy that has started (R734 to R737): its ring index, its descriptor's fields, its bound port, and how it ended. -/
structure CopyReq where
  idx : Nat
  toHost : Bool
  host : Nat
  loc : Nat
  len : Nat
  user : Nat
  doneCtr : Option Nat
  /-- Status and bytes moved, once it has ended. -/
  ended : Option (Nat × Nat) := none
  deriving DecidableEq, Repr

/-- What the part holds for its host ports (file 13), beside their registers: copies started, by 8 * slice + queue;
heartbeats since the last whole second, by port; PASID Enable, by 4 * port + function; log2 of the size of PF1 BAR2. -/
structure HostSide where
  copies : SMap (List CopyReq) := []
  beats : SMap Bool := []
  /-- The last whole second at which heartbeats were looked at (R748). -/
  second : Nat := 0
  /-- AER status words (R753), by 8 * port + 2 * function, and one more for the correctable ones. -/
  aer : SMap Nat := []
  pasidOn : SMap Bool := []
  bar2 : SMap Nat := []
  deriving DecidableEq, Repr

/-- A submission queue of an NVMe controller: its entries have been read from host memory and not yet taken. -/
structure NvmeSq where
  id : Nat
  size : Nat
  head : Nat := 0
  tail : Nat := 0
  cq : Nat := 0
  /-- 0 urgent, 1 high, 2 medium, 3 low. -/
  prio : Nat := 0
  entries : List NvmeEntry := []
  deriving DecidableEq, Repr

/-- A completion queue: `tail` counts entries posted, `head` entries that the host has freed. -/
structure NvmeCq where
  id : Nat
  size : Nat
  base : Nat
  ien : Bool
  vec : Nat
  tail : Nat := 0
  head : Nat := 0
  deriving DecidableEq, Repr

/-- A completion that waits for room in its queue. -/
structure NvmeCqe where
  sq : Nat
  cq : Nat
  cid : Nat
  status : Nat
  dw0 : Nat
  deriving DecidableEq, Repr

/-- A namespace command in progress (R763 to R768): pieces still to be done as unit, offset and length; data to be
written, or read so far; and the slots whose drain a Flush awaits, with whether the drain must begin anew. -/
structure NvmeCmd where
  port : Nat
  sq : Nat
  cid : Nat
  op : Nat
  parts : List (Nat × Nat × Nat) := []
  data : List (Byte × Bool) := []
  flush : List (Nat × Bool) := []
  status : Nat := 0
  /-- The host is lost or the queue gone: the effect goes on, and nothing is answered (R749). -/
  quiet : Bool := false
  deriving DecidableEq, Repr

/-- A device self-test that runs (R771, R772). -/
structure SelfTest where
  code : Nat
  nsid : Nat
  suspended : Bool := false
  deriving DecidableEq, Repr

/-- The NVMe controller of a port (R757). -/
structure NvmeCtl where
  cc : Nat := 0
  rdy : Bool := false
  shst : Nat := 0
  aqa : Nat := 0
  asq : Nat := 0
  acq : Nat := 0
  sqs : List NvmeSq := []
  cqs : List NvmeCq := []
  held : List NvmeCqe := []
  /-- Features set, by identifier. -/
  features : SMap Nat := []
  /-- Asynchronous Event Requests outstanding, and events not yet reported as dword 0. -/
  aers : List Nat := []
  events : List Nat := []
  test : Option SelfTest := none
  /-- Results of self-tests, newest first: code, result, segment, namespace (R771). -/
  tests : List (Nat × Nat × Nat × Nat) := []
  /-- Error information entries, newest first: queue, command, status, namespace. -/
  errs : List (Nat × Nat × Nat × Nat) := []
  errCount : Nat := 0
  /-- Arbitration (R770): the queue last served and its run of commands by class; the class in turn and what is left of its weight. -/
  last : SMap Nat := []
  run : SMap Nat := []
  cls : Nat := 1
  left : Nat := 0
  /-- Since when no I/O command is outstanding. -/
  idleAt : Nat := 0
  deriving DecidableEq, Repr

/-- A stage slot (R762): the unit resident in it; its drain runs; it was written again since the drain began. -/
structure NsSlot where
  unit : Option Nat := none
  dirty : Bool := false
  draining : Bool := false
  again : Bool := false
  deriving DecidableEq, Repr

/-- An attached namespace (R760 to R769). -/
structure Namespace where
  stage : Nat
  slots : Nat
  units : Nat
  ro : Bool
  conn : Nat
  key : Nat
  off : Nat
  slot : SMap NsSlot := []
  /-- Units being read from the depot. -/
  fetching : List Nat := []
  cmds : List NvmeCmd := []
  /-- NS_DETACH runs, and has lost a unit (R769). -/
  leaving : Bool := false
  lost : Bool := false
  deriving DecidableEq, Repr

/-- A measurement (R787 to R789): index, DMTF type, SVN, digest. -/
structure Measure where
  index : Nat
  type : Nat
  svn : Nat
  digest : List Byte
  deriving DecidableEq, Repr

/-- A live release session (R795, R796): when it was created, the evidence it was offered with, and the private keys of its
key pairs. -/
structure Session where
  since : Nat
  evidence : List Byte
  xs : List Byte
  ks : List Byte
  deriving DecidableEq, Repr

/-- A weight key that a grant has loaded (R797 to R800): its slice, its grant, KEY_ID and key. -/
structure WeightKey where
  slice : Nat
  grant : Nat
  id : Nat
  key : List Byte
  pinned : Bool
  deriving DecidableEq, Repr

/-- An SPDM connection of a port (R790, R791): 0 none, 1 version, 2 capabilities, 3 algorithms; and its transcripts. -/
structure Spdm where
  stage : Nat := 0
  a : List Byte := []
  b : List Byte := []
  l : List Byte := []
  deriving DecidableEq, Repr

/-- What Distaff holds (file 14): the fused secret and owner key hash, the per-boot key, measurements, sessions, weight keys
and narrow keys. -/
structure Trust where
  secret : List Byte := []
  ownerHash : List Byte := []
  bootKey : List Byte := []
  running : List Measure := []
  staged : List Measure := []
  sessions : SMap (Option Session) := []
  weights : List WeightKey := []
  grants : Nat := 0
  /-- Slices that hold a PINNED grant (R800). -/
  pinned : List Nat := []
  narrow : SMap (List Byte) := []
  spdm : SMap Spdm := []
  /-- Requests to the generator since it was seeded (R777). -/
  draws : Nat := 0
  deriving DecidableEq, Repr

/-- The fuses (R834): variant, primary die, UID, device secret, life-cycle state, owner key hash, release count, and the
anti-rollback counts of DISTAFF, SPINDLE and PATTERN. -/
structure Fuses where
  variant : Nat := 0
  primary : Nat := 0
  uid : Nat := 0
  secret : List Byte := []
  lc : Nat := 2
  ownerHash : List Byte := []
  releases : Nat := 0
  svns : List Nat := [0, 0, 0]
  deriving DecidableEq, Repr

/-- The flash areas that the part writes (R837, R838): two directory copies, each a sequence number and the word of
SPN_FW_DIR; the copy in force; the image that waits in the other slot of each kind; and the cast-on count. -/
structure Flash where
  dirA : Nat × Nat := (0, 0)
  dirB : Nat × Nat := (0, 0)
  cur : Nat := 0
  staged : SMap (Option SlotImage) := []
  boots : Nat := 0
  deriving DecidableEq, Repr

/-- A distribution that this part receives (R867, R868). -/
structure FwRecv where
  part : Nat
  kind : Nat
  cert : List Byte
  header : List Byte
  table : Option (List Byte) := none
  chunks : SMap (Option (List Byte)) := []
  ended : Bool := false
  heard : Nat := 0
  rounds : Nat := 0
  deriving DecidableEq, Repr

/-- An activation that this part coordinates (R869, R870). -/
structure FwLead where
  kind : Nat
  group : Nat
  targets : Nat
  since : Nat
  ready : List Nat := []
  deriving DecidableEq, Repr

/-- Cast-on and firmware state (file 15): whether the rails are off; the versions and digests of the images that run, by kind;
whether the Pattern came from the other slot; when phase 8 and bind-off began; when each core restarted; the distribution
received, the activation led; a committed Spindle image with its boundary, and whether its restarts may begin. -/
structure Cast where
  off : Bool := false
  run : SMap (Nat × List Byte) := []
  topoAt : Nat := 0
  bindAt : Nat := 0
  restarts : SMap (List Nat) := []
  recv : Option FwRecv := none
  lead : Option FwLead := none
  commit : Option Nat := none
  go : Bool := false
  deriving DecidableEq, Repr

/-- A telemetry capture (R896): its time, the 64 bytes of its header, and the sections of its blocks. -/
structure Capture where
  time : Nat
  head : List Byte
  sections : List (List Byte)
  deriving DecidableEq, Repr

/-- Power and telemetry state (file 16) beside its registers: g_fast and when it was last raised, consecutive clear decisions,
the levels last seen on HOT_N and of the current estimates; the interfaces that are silent; the last eleven-bit readings by
interface; power samples of the last 1 ms in mW, newest first, and energy in units of 0.1 µJ; the sensors by 16 * die + index
with their last update and failures, and whether the last sample was at the trip limit; stack temperatures by 4 * die + stack; the
throttle that runs as start and causes, and throttles not yet reported; the instant at which a cause last held (R873). -/
structure Pwr where
  gFast : Nat := 0
  fastAt : Nat := 0
  clears : Nat := 0
  hot : Bool := false
  icc : Bool := false
  silent : List Nat := []
  volts : SMap Nat := []
  amps : SMap Nat := []
  samples : List Nat := []
  energy : Nat := 0
  junction : SMap (Option Int) := []
  junctionAt : SMap Nat := []
  failed : SMap Bool := []
  atTrip : SMap Bool := []
  stack : SMap Nat := []
  tripLow : Bool := false
  thr : Option (Nat × Nat) := none
  reports : List (Nat × Nat) := []
  badAt : Option Nat := none
  captures : List Capture := []
  lastHead : Option (List Byte) := none
  /-- The MCTP endpoint ID, 0 until assigned (R890). -/
  eid : Nat := 0
  deriving DecidableEq, Repr

/-- The TAP's instruction (R914). -/
inductive TapIr where
  | bypass | idcode | sample | extest | clamp | highz
  deriving DecidableEq, Repr

/-- The TAP and its boundary cells (R914). -/
structure Tap where
  ir : TapIr := .bypass
  cells : List Bool := []
  deriving DecidableEq, Repr

/-- A PCIe port's link (R923): PERST_N is high, and the link has trained. -/
structure PortLink where
  perst : Bool := false
  trained : Bool := false
  deriving DecidableEq, Repr

--SUBSTRUCTS

/-- What the part has sent or driven: the model's own record of its effects outside. -/
inductive Out where
  /-- A register read answered with the bytes asked for (R10, R11). -/
  | readData (via : Via) (off size : Nat) (data : Nat)
  /-- A request completed with Unsupported Request (R727, R729). -/
  | unsupported (port : Nat)
  /-- A Twist record piece sent to a part (R205, R210). -/
  | twist (part : Nat) (r : TwistRec)
  /-- A Twist record piece sent to a multicast group (R226, R618). -/
  | twistGroup (group : Nat) (r : TwistRec)
  /-- A TWIST_ACK: to part and endpoint, for a piece; code 0 ACK, 1 NAK not-ready, 2 NAK target-resetting (R210, R627). -/
  | twistAck (part ep : Nat) (key : AckKey) (code : Nat)
  /-- A NOTICE to a local endpoint: REDO 2, COMPLETE 3, ABANDON 4 with COLL_ID, EPOCH and two more fields (R627). -/
  | notice (ep kind collId epoch x y : Nat)
  /-- An EDGE_WR to an endpoint: VC, offset, bytes, poison mark per 8 bytes (R239, R625, R630). -/
  | edgeWrite (ep vc off : Nat) (bytes : List Byte) (poison : List Bool)
  /-- FEED_READY for a step to an endpoint, with the count of links used (R490, R630). -/
  | feedReady (ep feed step links : Nat)
  /-- A captured page pushed to the buddy (R523, R527). -/
  | ckpPage (die page : Nat) (bytes : SMap Byte)
  /-- The owner's region digests of a push: shard slice, step, and die with digest (R531). -/
  | ckpDigests (slice step : Nat) (digests : List (Nat × List Byte))
  /-- The buddy's answer to a push: shard, step, confirmed or failed (R531, R532). -/
  | ckpAnswer (part slice step : Nat) (ok : Bool)
  /-- A checkpoint request for a boundary to a member (R516), and its acknowledgement. -/
  | ckpRequest (part slice boundary : Nat)
  | ckpRequestAck (slice boundary status : Nat)
  /-- A shard record sent ahead of its drain objects (R538). -/
  | shardRecord (slice : Nat) (bytes : List Byte)
  /-- A drain object to the depot: connection, key, and bytes (R535, R537). -/
  | drainObject (conn key : Nat) (bytes : List Byte)
  /-- Keepalives and their answers (R541). -/
  | keepalive (part : Nat)
  | keepaliveAck (part : Nat)
  /-- A suspicion reported to the coordinator: of a part, or of its endpoint (R543). -/
  | suspicion (coord part : Nat) (ep : Option Nat)
  | propose (part : Nat) (p : Proposal)
  | accept (coord round : Nat) (copies : List CopyAt)
  | refuse (coord round : Nat)
  | commit (part : Nat) (c : Commit)
  /-- This part's withdrawal from the job of a slice, announced to a member (R314). -/
  | withdraw (part slice : Nat)
  /-- A flit sent on a link: its 256 bytes before FEC (R585). -/
  | flit (link : Nat) (bytes : List Byte)
  /-- A packet delivered to the local agent of its opcode (R614). -/
  | deliver (bytes : List Byte)
  /-- An EDGE_WR with ACKREQ, and an EDGE_RD, to an endpoint, each with its tag (R670). -/
  | edgeWriteAck (ep tag off : Nat) (bytes : List Byte) (poison : List Bool)
  | edgeRead (ep tag off len : Nat)
  /-- A frame sent on an Ethernet port, without its FCS, with its stamp when Spindle marked it (R711, R713). -/
  | ethFrame (port : Nat) (frame : List Byte) (stamp : Option Nat)
  /-- A frame handed to Spindle with its ingress stamp (R698). -/
  | toSpindle (port : Nat) (frame : List Byte) (stamp : Nat)
  /-- PTP messages that Spindle sends (R715): a Delay_Req, and a Delay_Resp with its receive time. -/
  | ptpDelayReq (port seq : Nat)
  | ptpDelayResp (port seq receive : Nat)
  /-- A DMA write to host memory on a port (R726, R735): PASID, address, bytes, and the poison mark of each 8 bytes. -/
  | hostWrite (port : Nat) (pasid : Option Nat) (addr : Nat) (bytes : List Byte) (poison : List Bool)
  /-- Completion data of a BAR2 read, with poison marks (R755). -/
  | barData (port : Nat) (bytes : List Byte) (poison : List Bool)
  /-- Data that NVMe returns to the buffer of a command (R757), with poison marks. -/
  | nvmeData (port sq cid : Nat) (bytes : List Byte) (poison : List Bool)
  /-- Reads and writes of the depot region by RMA (R763, R765, R771). -/
  | depotRead (conn key off len : Nat)
  | depotWrite (conn key off : Nat) (bytes : List Byte) (poison : List Bool)
  /-- An SPDM or DOE response on the mailbox of a port, and a vendor-defined one by its request code (R790 to R793). -/
  | doe (port : Nat) (bytes : List Byte)
  | vendor (port code : Nat) (bytes : List Byte)
  /-- A PF0 completes a configuration request with Request Retry Status (R923). -/
  | configRetry (port : Nat)
  /-- Firmware messages (R866 to R870): of a distribution, to a group or one part; a target's report; a repair request for
  chunks of the image with that table digest; PREPARE, COMMIT and ABORT to a group. -/
  | fwGroup (group : Nat) (m : FwMsg)
  | fwPart (part : Nat) (m : FwMsg)
  | fwAnswer (part : Nat) (a : FwAnswer)
  | fwRepair (part : Nat) (digest : List Byte) (chunks : List Nat)
  | fwPrepare (group kind : Nat) (digest : List Byte)
  | fwCommit (group kind boundary : Nat)
  | fwAbort (group kind : Nat)
  /-- A voltage write with commit on an AVSBus interface (R878). -/
  | avsWrite (port mv : Nat)
  /-- A response on the board-controller port: MCTP control, and vendor-defined by code (R891); the Alert Response (R889). -/
  | mctp (bytes : List Byte)
  | board (code : Nat) (bytes : List Byte)
  | alertAddress (address : Nat)
  /-- Bits shifted out on TDO, and the boundary outputs that the TAP drives, none while they float (R914). -/
  | tdo (bits : List Bool)
  | lands (cells : Option (List Bool))
  /-- An MSI-X message: vector `vec` of function `fn` on `port` (R739). -/
  | msix (port fn vec : Nat)
  /-- A pin driven to a level. -/
  | pin (name : String) (level : Bool)
  deriving DecidableEq, Repr

/-- The state of the part. -/
structure State where
  /-- The commands that wait, first in first out. -/
  pending : List Instr
  /-- The 64-bit time base in ns (R48, R892), as a number. -/
  now : Nat := 0
  /-- The fraction of a nanosecond that the time base carries, in units of 2^-32 (R892). -/
  nowFrac : Nat := 0
  /-- The model's own field: how many free values the run has used. -/
  free : Nat := 0
  regs : SMap Word := []
  ctrs : SMap Counter := []
  holds : SMap Counter := []
  snaps : SMap SnapBlk := []
  /-- Odd copies of TV registers (R19): register offset and the bits in which one copy differs. -/
  tvOdd : SMap Nat := []
  mem : SMap Byte := []
  /-- Poison tags, one per aligned 8-byte word (R415 to R417), keyed by address / 8. -/
  tags : SMap Bool := []
  jobs : SMap Job := []
  beat : Beat := {}
  tws : Tws := {}
  /-- DIRTY and PEND of the 64 KiB pages of the state regions, keyed by address / 64 KiB (R520, R521). -/
  dirty : SMap Bool := []
  pend : SMap Bool := []
  push : List PushPage := []
  rows : SMap Row := []
  /-- Row commands in progress, by command set (R291, R292); 5 + n is slice n's FREEZE. -/
  rowCmds : SMap (Option RowCmd) := []
  /-- The defect ledger (R847), oldest first, and an entry held for want of room (R850). -/
  ledger : List LedgerEntry := []
  ledgerHeld : List LedgerEntry := []
  /-- MSI-X (R739, as PCIe defines it): Message Control bits 15 and 14 by 4 * port + function, vectors that are unmasked and
  whose Pending bit is set by msixKey, and the address and data words of the tables by 4 * msixKey + word. -/
  msixOn : SMap Nat := []
  msixTable : SMap Word := []
  msixOpen : SMap Bool := []
  msixPending : SMap Bool := []
  opt : Opt := {}
  /-- Parts that this part suspects (R542). -/
  suspects : SMap Bool := []
  carder : Carder := {}
  /-- Checkpoint and membership state by slice (file 09). -/
  ckp : SMap Ckp := []
  /-- Watched parts heard since the last keepalive period (R541). -/
  heard : List Nat := []
  pat : Pattern := {}
  /-- Arbiters by number: kind * 4096 + index; kind 0 HBM pseudo-channel, 1 hank port, 2 die-to-die port, 3 switch output. -/
  arbs : SMap Arbiter := []
  /-- Corrected errors of each slice in the running second (R421). -/
  ceSec : SMap Nat := []
  /-- Stream prefetchers in use on each die (R410). -/
  prefetch : SMap Nat := []
  /-- Start of the last wave of rows (R833). -/
  lastWave : Option Nat := none
  /-- Woard links by number, and words of route, endpoint and group entries written and not yet committed (R633). -/
  links : SMap Link := []
  swtDraft : SMap (Option Word) := []
  /-- The time base: it has been set or the part has been READY (R893), the last offsets, and the last measurement. -/
  tbFixed : Bool := false
  tbOffsets : List Int := []
  tbHeard : Nat := 0
  rma : Rma := {}
  ciphers : SMap Cipher := []
  ethPorts : SMap EthPort := []
  /-- Committed classifier rules by 8192 * die + index, and the staged words of each die (R697, R702). -/
  ethRules : SMap (List Nat) := []
  ethStage : SMap (List Nat) := []
  /-- Policer buckets by 256 * die + index, in 1/80 byte, with the instant of the last change (R707); none until first set. -/
  policers : SMap (Option (Nat × Nat)) := []
  /-- PTP as a slave clock (R715): the last Sync's sequence and arrival, its origin time, and the instant of the Delay_Req
  sent for it. -/
  ptpSync : Option (Nat × Nat) := none
  ptpOrigin : Option Nat := none
  ptpAsk : Option Nat := none
  host : HostSide := {}
  /-- NVMe controllers by port, and namespaces by 8 * slice + index (R757 to R769). -/
  nvme : SMap NvmeCtl := []
  spaces : SMap (Option Namespace) := []
  trust : Trust := {}
  fuses : Fuses := {}
  flash : Flash := {}
  cast : Cast := {}
  pwr : Pwr := {}
  tap : Tap := {}
  portLinks : SMap PortLink := []
  out : List Out := []
  deriving DecidableEq, Repr

/-- The part right after a cold reset: casting on, in phase 1 (R823, R829), every register at its reset value. -/
def State.reset : State := { pending := [] }

end Sys2Proof.Machine
end

