-- ==== Sys2Proof/Machine/Store.lean ====
section
/-! DEFINITION. Reading and writing the sparse maps of State: memory bytes, registers, counters, rows, links. -/

namespace Sys2Proof.Machine

/-- What key `a` is listed as. -/
def lookup {α : Type} : SMap α → Nat → Option α
  | [], _ => none
  | (k, v) :: m, a => if k = a then some v else lookup m a

/-- The value at key `a`; `d` is what an unlisted key reads as. -/
def fetch {α : Type} (d : α) (m : SMap α) (a : Nat) : α := (lookup m a).getD d

/-- Lists `v` at key `a`, keeping the keys rising. -/
def insertAt {α : Type} : SMap α → Nat → α → SMap α
  | [], a, v => [(a, v)]
  | (k, w) :: m, a, v =>
    if a < k then (a, v) :: (k, w) :: m
    else if k = a then (a, v) :: m
    else (k, w) :: insertAt m a v

/-- Unlists key `a`. -/
def eraseAt {α : Type} : SMap α → Nat → SMap α
  | [], _ => []
  | (k, w) :: m, a => if k = a then eraseAt m a else (k, w) :: eraseAt m a

/-- Writes `v` at key `a`, where an unlisted key reads as `d`: writing `d` unlists the key. -/
def store {α : Type} [DecidableEq α] (d : α) (m : SMap α) (a : Nat) (v : α) : SMap α :=
  if v = d then eraseAt m a else insertAt m a v

/-- Changes the value at key `a` by `f`. -/
def modifyAt {α : Type} [DecidableEq α] (d : α) (m : SMap α) (a : Nat) (f : α → α) : SMap α :=
  store d m a (f (fetch d m a))

/-- Every key listed in `m` is above `a`. -/
def keysAbove {α : Type} (a : Nat) : SMap α → Bool
  | [] => true
  | (k, _) :: m => a < k && keysAbove a m

/-- The canonical form: keys strictly rising, and no entry equal to what its unlisted key reads as. -/
def SMapWf {α : Type} [DecidableEq α] (d : Nat → α) : SMap α → Bool
  | [] => true
  | (k, v) :: m => v ≠ d k && keysAbove k m && SMapWf d m

end Sys2Proof.Machine
end

