-- ==== Sys2Proof/Machine/Ops.lean ====
section
/-! DEFINITION. The named operations every command is written with: registers, counters, event flags, memory with its
poison tags, free values, time, and the record of what the part sends. -/

namespace Sys2Proof.Machine

/-! ### Registers -/

/-- The register word stored at offset `a`. -/
def State.rd (s : State) (a : Nat) : Word := fetch (regReset a) s.regs a

/-- Stores `v` in the register at offset `a`, whatever its access type: the part's own write. -/
def State.wr (s : State) (a : Nat) (v : Word) : State := { s with regs := store (regReset a) s.regs a v }

/-- Field `[hi:lo]` of the register at `a`. -/
def State.rf (s : State) (a hi lo : Nat) : Nat := fieldOf (s.rd a) hi lo

/-- Writes field `[hi:lo]` of the register at `a`. -/
def State.wf (s : State) (a hi lo x : Nat) : State := s.wr a (setField (s.rd a) hi lo x)

/-- The number held by a LO and HI register pair. -/
def State.rd64 (s : State) (lo hi : Nat) : Nat := (s.rd lo).toNat + 2 ^ 32 * (s.rd hi).toNat

/-- Writes a number to a LO and HI register pair. -/
def State.wr64 (s : State) (lo hi x : Nat) : State :=
  (s.wr lo (BitVec.ofNat 32 x)).wr hi (BitVec.ofNat 32 (x / 2 ^ 32))

/-- A part-local address held in a register pair: bits [39:32] in [7:0] of HI. -/
def State.addrOf (s : State) (lo hi : Nat) : Nat := (s.rd lo).toNat + 2 ^ 32 * s.rf hi 7 0

/-- The 48-bit step held in a register pair (R83). -/
def State.stepOf (s : State) (lo hi : Nat) : Nat := (s.rd lo).toNat + 2 ^ 32 * s.rf hi 15 0

/-! ### Time, free values and what is sent -/

/-- Time has come to instant `t`: the time base never runs back. -/
def State.reach (s : State) (t : Nat) : State := { s with now := max s.now t }

/-- The next free value, as `w` bits. -/
def State.freeBits (s : State) (w : Nat) : Nat := Config.freeValue s.free % 2 ^ w

/-- A free value has been used. -/
def State.useFree (s : State) : State := { s with free := s.free + 1 }

/-- The part sends or drives `o`. -/
def State.emit (s : State) (o : Out) : State := { s with out := s.out ++ [o] }

/-! ### Event counters and event flags -/

/-- One event on a counter (R20): it stops at its maximum, and an event that goes uncounted sets SAT. -/
def Counter.bump (c : Counter) : Counter :=
  if c.count < 2 ^ 48 - 1 then { c with count := c.count + 1 } else { c with sat := true }

/-- `k` events on a counter at once. -/
def Counter.add (c : Counter) (k : Nat) : Counter :=
  if c.count + k ≤ 2 ^ 48 - 1 then { c with count := c.count + k } else { count := 2 ^ 48 - 1, sat := true }

def State.ctr (s : State) (a : Nat) : Counter := fetch {} s.ctrs a

/-- Counts one event at the counter whose live LO register is at `a`. -/
def State.count (s : State) (a : Nat) : State := { s with ctrs := modifyAt {} s.ctrs a Counter.bump }

/-- Counts `k` events. -/
def State.countN (s : State) (a k : Nat) : State := { s with ctrs := modifyAt {} s.ctrs a (fun c => c.add k) }

/-- An SC register after an event sets flag `i` (R16): SEQ counts the event also when the flag stands. -/
def scEvent (w : Word) (i : Nat) : Word :=
  BitVec.ofNat 32 (putBits (w.toNat ||| 2 ^ i) 31 24 (fieldOf w 31 24 + 1))

/-- An event sets flag `i` of the SC register at `a` (R16). -/
def State.event (s : State) (a i : Nat) : State := s.wr a (scEvent (s.rd a) i)

/-- `k` events, each of which sets flag `i` of the SC register at `a` (R16). -/
def State.eventN (s : State) (a i : Nat) : Nat → State
  | 0 => s
  | k + 1 => State.eventN (s.event a i) a i k

/-! ### The part, its variant, its slices -/

/-- Variant code (R28). -/
def State.variant (s : State) : Nat := s.rf Reg.GLB_VARIANT 3 0

/-- Slice count from GLB_STATUS.SLICES (R723). -/
def State.sliceCount (s : State) : Nat := 2 ^ s.rf Reg.GLB_STATUS 19 18

/-- The slice that owns die `d` (R723). -/
def State.sliceOfDie (s : State) (d : Nat) : Nat := d / (4 / s.sliceCount)

/-- The dies of slice `n` (R723). -/
def State.diesOf (s : State) (n : Nat) : List Nat := (List.range 4).filter (fun d => s.sliceOfDie d == n)

/-- Does slice `n` exist (R723)? -/
def State.hasSlice (s : State) (n : Nat) : Bool := n < s.sliceCount

/-- Part state (R63). -/
def State.partState (s : State) : Nat := s.rf Reg.GLB_STATUS 3 0

/-- READY (R63): the part accepts work. -/
def State.ready (s : State) : Bool := s.partState == 2

/-- This part's ID (R59). -/
def State.partId (s : State) : Nat := s.rf Reg.GLB_PART_ID 13 0

/-! ### The part-local address space (R399 to R408) -/

/-- HBM3E stacks of die `d` (R1, R399). -/
def State.stacksOf (s : State) (d : Nat) : Nat := if s.variant = 1 ∧ d ≠ 0 then 2 else 3

/-- Where an address of the part-local space lies. -/
inductive Place where
  | hbm (die off : Nat)
  | hank (die seg off : Nat)
  | nowhere
  deriving DecidableEq, Repr

/-- The place of a part-local address (R399). -/
def State.place (s : State) (a : Nat) : Place :=
  if a < 0x8000000000 then
    let d := a / 0x2000000000
    if a % 0x2000000000 < s.stacksOf d * 36 * 2 ^ 30 then .hbm d (a % 0x2000000000) else .nowhere
  else if a < 0x8100000000 then
    let o := a - 0x8000000000
    .hank (o / 0x40000000) (o / 0x4000000 % 16) (o % 0x4000000)
  else .nowhere

/-- Is hank segment `g` of die `d` in STREAM mode (R405, R408)? -/
def State.streamSeg (s : State) (d g : Nat) : Bool := bitOf (s.rd (Reg.MEM_HANK_MODE d)).toNat g

/-- Base of the HBM window of die `d` (R399). -/
def hbmBase (d : Nat) : Nat := d * 0x2000000000

/-- Base of the hank of die `d` (R399). -/
def hankBase (d : Nat) : Nat := 0x8000000000 + d * 0x40000000

/-- The four regions of a die's HBM (R401). -/
inductive Region where
  | state | buddy | stage | system
  deriving DecidableEq, Repr

/-- Size of a region of die `d` in bytes, from MEM_PARTd (R401). -/
def State.regionSize (s : State) (d : Nat) (r : Region) : Nat :=
  let w := Reg.MEM_PART d
  2 ^ 30 * (match r with
    | .state => s.rf w 7 0
    | .buddy => s.rf w 15 8
    | .stage => s.rf w 23 16
    | .system => s.rf w 31 24)

/-- Part-local address at which a region of die `d` starts (R401). -/
def State.regionBase (s : State) (d : Nat) (r : Region) : Nat :=
  hbmBase d + (match r with
    | .state => 0
    | .buddy => s.regionSize d .state
    | .stage => s.regionSize d .state + s.regionSize d .buddy
    | .system => s.regionSize d .state + s.regionSize d .buddy + s.regionSize d .stage)

/-- Do the `k` bytes at `a` lie wholly in region `r` of die `d`? -/
def State.inRegion (s : State) (d : Nat) (r : Region) (a k : Nat) : Bool :=
  s.regionBase d r ≤ a && a + k ≤ s.regionBase d r + s.regionSize d r

/-- Do the `k` bytes at `a` lie in region `r` of some die of slice `n`? -/
def State.inSliceRegion (s : State) (n : Nat) (r : Region) (a k : Nat) : Bool :=
  (s.diesOf n).any (fun d => s.inRegion d r a k)

/-- Do the `k` bytes at `a` lie in the hank of dies of slice `n`, every segment they touch in SCRATCH mode (R404)? -/
def State.inScratchHank (s : State) (n a k : Nat) : Bool :=
  hankBase 0 ≤ a && a + k ≤ hankBase 4 && 1 ≤ k &&
  (let g0 := (a - hankBase 0) / 0x4000000
   let g1 := (a + k - 1 - hankBase 0) / 0x4000000
   (List.range' g0 (g1 + 1 - g0)).all (fun g => s.sliceOfDie (g / 16) == n && !s.streamSeg (g / 16) (g % 16)))

/-- Do the `k` bytes at `a` lie in the populated HBM of one die of slice `n`? -/
def State.inHbm (s : State) (n a k : Nat) : Bool :=
  (s.diesOf n).any (fun d => hbmBase d ≤ a && a + k ≤ hbmBase d + s.stacksOf d * 36 * 2 ^ 30)

/-- Do the `k` bytes at `a` touch slice `n`'s RMA tables, the first 72/s MiB of the system region of its lowest-numbered
die (R638)? -/
def State.hitsRmaTables (s : State) (n a k : Nat) : Bool :=
  let b := s.regionBase (n * (4 / s.sliceCount)) .system
  b < a + k && a < b + 72 * 2 ^ 20 / s.sliceCount

/-- The slice's memory as other agents than needles reach it (R400, R403, R406): populated, the slice's own, and in no
STREAM-mode segment. -/
def State.inSlice (s : State) (n a k : Nat) : Bool :=
  s.hasSlice n && ((s.inHbm n a k && !s.hitsRmaTables n a k) || s.inScratchHank n a k)

/-- Do the `k` bytes at `a` all lie in memory that a needle segment of die `d` may map (R333, R406, R638)? -/
def State.segReach (s : State) (d a k : Nat) : Bool :=
  k = 0 ||
  (hbmBase d ≤ a && a + k ≤ hbmBase d + s.stacksOf d * 36 * 2 ^ 30 && !s.hitsRmaTables (s.sliceOfDie d) a k) ||
  (hankBase d ≤ a && a + k ≤ hankBase (d + 1) && s.inScratchHank (s.sliceOfDie d) a k)

/-- The slice that owns address `a` (R403), if it is populated. -/
def State.ownerOf (s : State) (a : Nat) : Option Nat :=
  match s.place a with
  | .hbm d _ => some (s.sliceOfDie d)
  | .hank d _ _ => some (s.sliceOfDie d)
  | .nowhere => none

/-! ### Memory -/

/-- The byte at address `a`; memory that nothing has written since the wipe of R826 reads 0 (log entry 2). -/
def State.byte (s : State) (a : Nat) : Byte := fetch 0 s.mem a

/-- The `k` bytes from `a`. -/
def State.bytes (s : State) (a k : Nat) : List Byte := (List.range k).map (fun i => s.byte (a + i))

/-- The `k` bytes from `a` as a little-endian number. -/
def State.le (s : State) (a k : Nat) : Nat := leNat (s.bytes a k)

/-- Is the aligned 8-byte word that holds address `a` tagged (R417)? -/
def State.tagged (s : State) (a : Nat) : Bool := fetch false s.tags (a / 8)

/-- Is any word that the `k` bytes at `a` touch tagged? -/
def State.poisoned (s : State) (a k : Nat) : Bool :=
  (List.range' (a / 8) ((a + k + 7) / 8 - a / 8)).any (fun w => fetch false s.tags w)

/-- Lists bytes in memory, one after another. -/
def putBytes (m : SMap Byte) (a : Nat) : List Byte → SMap Byte
  | [] => m
  | b :: bs => putBytes (store 0 m a b) (a + 1) bs

/-- The tag of word `w` after the write of `k` bytes at `a`, each with the poison mark `p` (R420). -/
def tagAfter (old : Bool) (a k w : Nat) (p : Bool) : Bool :=
  if a ≤ 8 * w ∧ 8 * w + 8 ≤ a + k then p else old || p

/-- The tags of memory after a write (R420). -/
def putTags (ts : SMap Bool) (a k : Nat) (p : Bool) : SMap Bool :=
  if k = 0 then ts else
  (List.range' (a / 8) ((a + k + 7) / 8 - a / 8)).foldl
    (fun m w => store false m w (tagAfter (fetch false m w) a k w p)) ts

/-- Lists bytes and their tags, with no other effect: the write of an agent that R520 does not name. -/
def State.poke (s : State) (a : Nat) (bs : List Byte) (p : Bool) : State :=
  { s with mem := putBytes s.mem a bs, tags := putTags s.tags a bs.length p }

/-- The 64 KiB pages that `k` bytes at `a` touch, as address / 64 KiB. -/
def pagesOf (a k : Nat) : List Nat := List.range' (a / 65536) ((a + k + 65535) / 65536 - a / 65536)

/-- Checkpoint state of slice `n`. -/
def State.ckpOf (s : State) (n : Nat) : Ckp := fetch {} s.ckp n

def State.setCkp (s : State) (n : Nat) (c : Ckp) : State := { s with ckp := store {} s.ckp n c }

/-- Do the `k` bytes at `a` lie in the state region of die `d`, to which a promoted shard adds the buddy region (R552)? -/
def State.inState (s : State) (d a k : Nat) : Bool :=
  s.inRegion d .state a k || ((s.ckpOf (s.sliceOfDie d)).promo.isSome && s.inRegion d .buddy a k)

/-- The die in whose state region page `g` lies (R401, R520). -/
def State.statePage (s : State) (g : Nat) : Option Nat :=
  (List.range 4).find? (fun d => s.inState d (g * 65536) 65536)

/-- The content of page `g`, by offset. -/
def State.pageBytes (s : State) (g : Nat) : SMap Byte :=
  (s.mem.filter (fun e => e.1 / 65536 = g)).map (fun e => (e.1 % 65536, e.2))

/-- The bytes of a page from its content by offset. -/
def pageList (m : SMap Byte) : List Byte := (List.range 65536).map (fun i => fetch 0 m i)

/-- The page digest of a page (R534). -/
def pageDigest (m : SMap Byte) : List Byte := sha3x256 (pageList m)

/-- The pages of the state regions of slice `n`, ascending (R510). -/
def State.shardPages (s : State) (n : Nat) : List Nat :=
  (s.diesOf n).flatMap (fun d => List.range' (s.regionBase d .state / 65536)
    ((s.regionSize d .state + (if (s.ckpOf n).promo.isSome then s.regionSize d .buddy else 0)) / 65536))

/-- The region digest of die `d`'s state region by the owner's page digest table (R534). -/
def State.ownDigest (s : State) (n d : Nat) : List Byte :=
  let b := s.regionBase d .state / 65536
  sha3x256 ((List.range' b (s.regionSize d .state / 65536)).flatMap (fun g => fetch (pageDigest []) (s.ckpOf n).digests g))

/-- The oldest page of a die's push buffer goes to the buddy (R523, R525). -/
def State.sendPage (s : State) (d : Nat) : State :=
  match s.push.find? (fun p => p.die = d) with
  | some p => { s with push := s.push.erase p }.emit (.ckpPage p.die p.page p.bytes) |>.count Ctr.CKP_PAGES
  | none => s

/-- A captured page is read into its die's push buffer and its PEND cleared (R523, R524); a full buffer of 64 pages
first sends its oldest page (R525). The owner's digest table takes its digest (R534). -/
def State.capturePage (s : State) (d g : Nat) : State :=
  let s := if (s.push.filter (fun p => p.die = d)).length < 64 then s else s.sendPage d
  let m := s.pageBytes g
  let n := s.sliceOfDie d
  let s := s.setCkp n { s.ckpOf n with digests := store (pageDigest []) (s.ckpOf n).digests g (pageDigest m) }
  { s with push := s.push ++ [⟨d, g, m⟩], pend := store false s.pend g false }

/-- The buddy of slice `n`'s shard by the Pattern's buddy map (R513). -/
def State.buddyOf (s : State) (n : Nat) : Option (Nat × Nat) :=
  (s.pat.buddies.find? (fun b => b.part = s.partId && b.slice = n)).map (fun b => (b.bPart, b.bSlice))

/-- The buddy stands in the membership of slice `n`'s job, and this part does not suspect it. -/
def State.buddyThere (s : State) (n : Nat) : Bool :=
  match s.buddyOf n with
  | some b => (fetch {} s.jobs n).members.any (fun m => m.part = b.1 && m.slice = b.2) && !fetch false s.suspects b.1
  | none => false

/-- The status register of slice `n`'s checkpoint commands, pushes and drains. -/
def State.ckpStat (s : State) (n st : Nat) : State := s.wf (Reg.CKP_STAT n) 15 0 st

/-- The checkpoints of slice `n`'s shard that run fail with `st` (R533): PEND is ORed into DIRTY, and the next capture takes
every page (R526). -/
def State.failPush (s : State) (n st : Nat) : State :=
  let mine (g : Nat) : Bool := (s.statePage g).any (fun d => s.sliceOfDie d == n)
  let back := s.pend.filter (fun e => mine e.1)
  let k := bit (s.ckpOf n).copying.isSome + (s.ckpOf n).confirming.length
  let s := { s with dirty := back.foldl (fun m (e : Nat × Bool) => store false m e.1 true) s.dirty,
                    pend := s.pend.filter (fun e => !mine e.1),
                    push := s.push.filter (fun p => s.sliceOfDie p.die ≠ n) }
  let s := s.setCkp n { s.ckpOf n with copying := none, confirming := [], full := true }
  ((s.ckpStat n st).countN Ctr.CKP_FAILED k).eventN Reg.CKP_EVT 1 k

/-- The capture of boundary `b` (R521, R526): PEND takes DIRTY, or every page, and DIRTY clears; with no buddy to push to
the checkpoint fails at once (R533). -/
def State.captureNow (s : State) (n b : Nat) : State :=
  let c := s.ckpOf n
  let gs := s.shardPages n
  let take := if c.full then gs else gs.filter (fun g => fetch false s.dirty g)
  let mine (g : Nat) : Bool := (s.statePage g).any (fun d => s.sliceOfDie d == n)
  let s := { s with pend := take.foldl (fun m g => store false m g true) s.pend, dirty := s.dirty.filter (fun e => !mine e.1) }
  let s := s.setCkp n { c with full := false, waiting := none, copying := some b, total := take.length,
                               capEpoch := c.epoch, capFull := c.full,
                               membEpoch := (fetch ({} : Job) s.jobs n).epoch }
  if s.buddyThere n then s else (s.setCkp n { s.ckpOf n with noBuddy := true }).failPush n 0x0701

/-- The pages of slice `n` that are still PEND, ascending. -/
def State.pendPages (s : State) (n : Nat) : List (Nat × Nat) :=
  s.pend.filterMap (fun e => match s.statePage e.1 with
    | some d => if s.sliceOfDie d = n then some (d, e.1) else none
    | none => none)

/-- The copy of slice `n`'s push has ended: its last pages and its region digests are sent, and a capture that waited
takes place (R522, R531). -/
def State.endCopy (s : State) (n : Nat) : State :=
  let ds := s.diesOf n
  let s := (List.range 64).foldl (fun s _ => ds.foldl State.sendPage s) s
  let c := s.ckpOf n
  match c.copying with
  | none => s
  | some b =>
    let sums := ds.map (fun d => (d, s.ownDigest n d))
    let s := (s.setCkp n { c with copying := none, confirming := c.confirming ++ [⟨b, c.membEpoch, c.capEpoch, c.capFull, sums⟩] }).emit
      (.ckpDigests n b sums)
    match c.waiting with
    | some b' => s.captureNow n b'
    | none => s

/-- The whole rest of slice `n`'s copy. -/
def State.drainCopy (s : State) (n : Nat) : State :=
  ((s.pendPages n).foldl (fun s e => s.capturePage e.1 e.2) s).endCopy n

/-- What a write to a page does before it proceeds: it stalls until a copy that a capture waits for has ended (R522); a
page with PEND set is copied first (R524); DIRTY is set (R520). -/
def State.touchPage (s : State) (g : Nat) : State :=
  match s.statePage g with
  | none => s
  | some d =>
    let n := s.sliceOfDie d
    let s := if (s.ckpOf n).waiting.isSome then s.drainCopy n else s
    let s := if fetch false s.pend g then (s.capturePage d g).count Ctr.CKP_CBW_STALL else s
    { s with dirty := store false s.dirty g true }

/-- A write of bytes with the poison mark `p` by any agent (R420, R520, R524). -/
def State.write (s : State) (a : Nat) (bs : List Byte) (p : Bool) : State :=
  ((pagesOf a bs.length).foldl State.touchPage s).poke a bs p

/-- A write of unpoisoned bytes. -/
def State.writeB (s : State) (a : Nat) (bs : List Byte) : State := s.write a bs false

/-- A write of a `k`-byte little-endian number. -/
def State.writeLe (s : State) (a k n : Nat) : State := s.writeB a (leBytes k n)

/-- Zeroes `k` bytes at `a` and clears their tags, as a wipe or a history reset does. -/
def State.zeroRange (s : State) (a k : Nat) : State :=
  let s := (pagesOf a k).foldl State.touchPage s
  { s with mem := s.mem.filter (fun e => e.1 < a || a + k ≤ e.1),
           tags := s.tags.filter (fun e => e.1 * 8 + 8 ≤ a || a + k ≤ e.1 * 8) }

/-! ### Commands, rejections and reports -/

/-- Records a rejected register write (R925): the status, the register and the sequence, and the slice's own record
when the write came through its doorbell page. -/
def State.reject (s : State) (via : Via) (a st : Nat) : State :=
  let w := s.rd Reg.GLB_WR_REJ_STAT
  let s := s.wr Reg.GLB_WR_REJ_STAT (setField (setField w 31 16 st) 15 8 (fieldOf w 15 8 + 1))
  let s := s.wr Reg.GLB_WR_REJ_ADDR (BitVec.ofNat 32 (a % 2 ^ 26))
  match via with
  | .page n _ _ =>
    let r := s.rd (Reg.HOST_S_WREJ n)
    s.wr (Reg.HOST_S_WREJ n) (setField (setField r 31 16 st) 15 8 (fieldOf r 15 8 + 1))
  | _ => s

/-- Does the ring of slice `n` lie where R859 asks: aligned, in the slice's memory? -/
def State.ringPlaced (s : State) (n lo hi log2 : Nat) : Bool :=
  8 ≤ log2 && log2 ≤ 12 && lo % 4096 = 0 && s.inSlice n (lo + 2 ^ 32 * hi) (32 * 2 ^ log2)

/-- Spindle writes a report record to slice `n`'s ring, or discards and counts it while the ring is disabled (R860). -/
def State.report (s : State) (n kind st : Nat) (time : Nat) (args : List Byte) : State :=
  let seq := (s.rd (Reg.SPN_SEQ n)).toNat
  let s := s.wr (Reg.SPN_SEQ n) (BitVec.ofNat 32 (seq + 1))
  let cfg := s.rd (Reg.SPN_RING_CFG n)
  if bitOf cfg.toNat 31 then
    let l := fieldOf cfg 3 0
    let a := s.addrOf (Reg.SPN_RING_LO n) (Reg.SPN_RING_HI n) + 32 * (seq % 2 ^ l)
    let phase := if seq / 2 ^ l % 2 = 0 then 1 else 0
    (s.writeB a (record [(4, seq), (1, kind), (1, 0), (2, st), (8, time)] ++ fitBytes 15 args ++ leBytes 1 phase)).count Ctr.SPN_REPORT
  else s.count Ctr.SPN_REPORT_DROP

/-- A STATUS report (KIND 0x05) with the unit it names (R861). -/
def State.reportStatus (s : State) (n st unit : Nat) : State := s.report n 5 st s.now (leBytes 2 unit)

/-- The share-relative index `i` of a resource of `total` per part, as the part's own index (R636). -/
def State.shareIdx (s : State) (n total i : Nat) : Nat := n * (total / s.sliceCount) + i

/-- The size of a slice's share of a resource of `total` per part (R636). -/
def State.shareSize (s : State) (total : Nat) : Nat := total / s.sliceCount

/-- Has trigger counter `c` reached `v` (R655)? -/
def State.ctrReached (s : State) (c v : Nat) : Bool := aheadMod 32 v (s.rd (Reg.RMA_CTR_VAL c)).toNat < 2 ^ 31

end Sys2Proof.Machine
end

