-- ==== Sys2Proof/Machine/EthOut.lean ====
section
/-! DEFINITION. Frames that leave over Ethernet: IP and UDP headers, an RMA path's encapsulation, and a port's queues
(R680, R681, R692, R709, R712). -/

namespace Sys2Proof.Machine

/-! ### Big-endian fields and checksums -/

/-- The `k` bytes of a number, most significant first, as bytes. -/
def be (k n : Nat) : List Byte := byteList (beBytes k n)

/-- `k` bytes at `o` of a frame, big-endian. -/
def frameAt (bs : List Byte) (o k : Nat) : Nat := beNat (natBytes ((bs.drop o).take k))

/-- Sum of the 16-bit words of a list of bytes, the last one filled with zero. -/
def sum16 : List Byte → Nat
  | [] => 0
  | [a] => 256 * a.toNat
  | a :: b :: r => 256 * a.toNat + b.toNat + sum16 r

/-- The Internet checksum of a sum of 16-bit words. -/
def inetSum (n : Nat) : Nat :=
  let a := n % 65536 + n / 65536
  let b := a % 65536 + a / 65536
  65535 - (b % 65536 + b / 65536)

/-- An IPv4 header without options (DSCP, TTL, UDP, addresses) for `len` bytes of payload. -/
def ipv4Header (dscp ttl len : Nat) (src dst : List Byte) : List Byte :=
  let h (c : Nat) : List Byte := be 1 0x45 ++ be 1 (4 * dscp) ++ be 2 (20 + len) ++ be 4 0 ++ be 1 ttl ++ be 1 17 ++ be 2 c ++ src ++ dst
  h (inetSum (sum16 (h 0)))

/-- An IPv6 header for `len` bytes of UDP. -/
def ipv6Header (dscp ttl len : Nat) (src dst : List Byte) : List Byte :=
  be 4 (6 * 2 ^ 28 + 4 * dscp * 2 ^ 20) ++ be 2 len ++ be 1 17 ++ be 1 ttl ++ src ++ dst

/-- A UDP datagram with its checksum; `src` and `dst` are the IP addresses. -/
def udpDatagram (sport dport : Nat) (src dst payload : List Byte) : List Byte :=
  let len := 8 + payload.length
  let h (c : Nat) : List Byte := be 2 sport ++ be 2 dport ++ be 2 len ++ be 2 c ++ payload
  let c := inetSum (sum16 (src ++ dst) + 17 + len + sum16 (h 0))
  h (if c = 0 then 65535 else c)

/-- The frame that a path entry makes of a UDP payload (R680), without its FCS. -/
def pathFrame (p : List Byte) (dport : Nat) (payload : List Byte) : List Byte :=
  let v6 := bitOf (byteAt p 0) 7
  let n := if v6 then 16 else 4
  let src := (p.drop 20).take n
  let dst := (p.drop 36).take n
  let udp := udpDatagram (leAt p 18 2) dport src dst payload
  let dscp := byteAt p 1 % 64
  (p.drop 6).take 6 ++ (p.drop 12).take 6 ++
  (if bitOf (byteAt p 3) 0 then be 2 0x8100 ++ be 2 (leAt p 4 2 % 4096 + leAt p 4 2 / 8192 * 8192) else []) ++
  (if v6 then be 2 0x86DD ++ ipv6Header dscp (byteAt p 2) udp.length src dst
    else be 2 0x0800 ++ ipv4Header dscp (byteAt p 2) udp.length src dst) ++ udp

/-! ### Ports and queues (R687, R692, R709, R712) -/

/-- The link of Ethernet port `p` (R687). -/
def portLink (p : Nat) : Nat := 12 * (p / 4) + p % 4

def State.ethPort (s : State) (p : Nat) : EthPort := fetch {} s.ethPorts p

def State.setEthPort (s : State) (p : Nat) (x : EthPort) : State := { s with ethPorts := store {} s.ethPorts p x }

/-- Port state: 0 DOWN, 1 TRAINING, 2 UP. -/
def State.portState (s : State) (p : Nat) : Nat := s.rf (Reg.ETH_P_STAT p) 1 0

/-- Bytes buffered in the frames that `f` picks, each with its FCS. -/
def EthPort.held (x : EthPort) (f : EthTx → Bool) : Nat := ((x.frames.filter f).map (fun t => t.frame.length + 4)).sum

/-- A frame joins queue `q` of port `p`; the part's own waits for room, which changes time only (R712), and a DOWN port
discards it (R692). -/
def State.ethQueue (s : State) (p : Nat) (t : EthTx) : State :=
  if s.portState p = 2 then let x := s.ethPort p; s.setEthPort p { x with frames := x.frames ++ [t] }
  else s.count (Ctr.ETH_TX_DROP p)

/-- A frame that FORWARD sends joins its queue if there is room (R712). -/
def State.ethForward (s : State) (p : Nat) (t : EthTx) : State :=
  let x := s.ethPort p
  let k := t.frame.length + 4
  if x.held (fun _ => true) + k ≤ 2 * 2 ^ 20 ∧ x.held (fun u => u.queue = t.queue) + k ≤ 2 ^ 20 then s.ethQueue p t
  else s.count (Ctr.ETH_TX_DROP p)

end Sys2Proof.Machine
end

