-- ==== Sys2Proof/Machine/Codes.lean ====
section
/-! DEFINITION. The codes of the links: CRC-64, FNV-1a-32, the Tight code over GF(4) and its lane order, and PRBS31
(R574 to R577, R586, R609, R616). -/

namespace Sys2Proof.Machine

/-! ### CRC-64 (R586) -/

/-- One bit of a reflected CRC-64: the polynomial 0x42F0_E1EB_A9EA_3693 reflected. -/
def crc64Bit (c : Nat) : Nat := if c % 2 = 1 then (c >>> 1) ^^^ 0xC96C5795D7870F42 else c >>> 1

def crc64Byte (c : Nat) (b : Byte) : Nat :=
  crc64Bit (crc64Bit (crc64Bit (crc64Bit (crc64Bit (crc64Bit (crc64Bit (crc64Bit (c ^^^ b.toNat))))))))

/-- CRC-64 of `bs`. -/
def crc64 (bs : List Byte) : Nat := bs.foldl crc64Byte (2 ^ 64 - 1) ^^^ (2 ^ 64 - 1)

/-! ### FNV-1a-32 (R616) -/

def fnv1a32 (bs : List Byte) : Nat := bs.foldl (fun h b => (h ^^^ b.toNat) * 16777619 % 2 ^ 32) 2166136261

/-! ### The Tight code (R574, R575) -/

/-- Product in GF(4): 0, 1, a and a² are 0, 1, 2 and 3. -/
def gf4Mul (x y : Nat) : Nat :=
  if x = 0 ∨ y = 0 then 0 else (x - 1 + (y - 1)) % 3 + 1

/-- Quotient in GF(4) by a nonzero `y`. -/
def gf4Div (x y : Nat) : Nat := if x = 0 then 0 else (x - 1 + 3 - (y - 1)) % 3 + 1

/-- Symbol `i` of a column given by its key, or of a codeword. -/
def symbolOf (w i : Nat) : Nat := bitsOf w (2 * i + 1) (2 * i)

/-- The first nonzero symbol of a column, counting from c3. -/
def leadOf (key : Nat) : Nat :=
  if symbolOf key 3 ≠ 0 then symbolOf key 3
  else if symbolOf key 2 ≠ 0 then symbolOf key 2
  else if symbolOf key 1 ≠ 0 then symbolOf key 1
  else symbolOf key 0

/-- The 60 data columns: the normalised columns that are no unit columns, in ascending key order. -/
def dataColumns : List Nat :=
  ((List.range 256).filter (fun k => leadOf k = 1 && !([1, 4, 16, 64].contains k))).take 60

/-- `e` times a column. -/
def scaleColumn (e key : Nat) : Nat :=
  gf4Mul e (symbolOf key 0) + 4 * gf4Mul e (symbolOf key 1) + 16 * gf4Mul e (symbolOf key 2) + 64 * gf4Mul e (symbolOf key 3)

/-- The check symbols of 120 data bits, as a column (R574). -/
def tightCheck (d : Nat) : Nat :=
  ((List.range 60).zip dataColumns).foldl (fun s e => s ^^^ scaleColumn (symbolOf d e.1) e.2) 0

/-- A Tight codeword of 120 data bits. -/
def tightEncode (d : Nat) : Nat := d % 2 ^ 120 + 2 ^ 120 * tightCheck (d % 2 ^ 120)

/-- What a received codeword gives: its 120 data bits, and whether a symbol was corrected; none when it is uncorrectable
(R575). -/
def tightDecode (w : Nat) : Option (Nat × Bool) :=
  let d := w % 2 ^ 120
  let s := tightCheck d ^^^ bitsOf w 127 120
  if s = 0 then some (d, false)
  else
    let e := leadOf s
    let h := scaleColumn (gf4Div 1 e) s
    match (List.range 60).zip dataColumns |>.find? (fun x => x.2 = h) with
    | some x => some (d ^^^ (e <<< (2 * x.1)), true)
    | none => if [1, 4, 16, 64].contains h then some (d, true) else none

/-- The four codewords of a group from what its lanes carried (R576); in DEGRADED every symbol is on one lane (R601). -/
def tightGroup (degraded : Bool) (g : Nat × Nat) : List Nat :=
  (List.range 4).map (fun w => (List.range 64).foldl (fun c q =>
    let x := if degraded then symbolOf g.1 (4 * q + w)
      else symbolOf (if q % 2 = 0 then g.1 else g.2) (4 * (q / 2) + w)
    c + x * 4 ^ q) 0)

/-! ### PRBS31 (R609) -/

/-- The next `k` bits of x^31 + x^28 + 1, first bit lowest, with the state after them. -/
def prbs31 : Nat → Nat → Nat × Nat
  | 0, st => (0, st)
  | k + 1, st =>
    let b := (st >>> 30 ^^^ st >>> 27) % 2
    let r := prbs31 k ((2 * st + b) % 2 ^ 31)
    (b + 2 * r.1, r.2)

end Sys2Proof.Machine
end

