-- ==== Sys2Proof/Machine/Link.lean ====
section
/-! DEFINITION. Woard links: their states, the flits they send, credits, acknowledgement and replay, retrain and failure
(R580 to R611). -/

namespace Sys2Proof.Machine

def State.link (s : State) (n : Nat) : Link := fetch {} s.links n

def State.setLink (s : State) (n : Nat) (l : Link) : State := { s with links := store {} s.links n l }

/-- Link state (R580): 0 DISABLED, 1 DOWN, 2 DETECT, 3 TRAIN, 4 ALIGN, 5 IDENT, 6 UP, 7 DEGRADED, 8 QUARANTINE,
9 RETRAIN, 0xA ETHERNET. -/
def State.linkState (s : State) (n : Nat) : Nat := s.rf (Reg.LNK_N_STAT n) 3 0

/-- Is link `n` UP or DEGRADED? -/
def State.linkLive (s : State) (n : Nat) : Bool := s.linkState n = 6 || s.linkState n = 7

/-- A link's MODE (1 WOARD) and code (Tight) from the Pattern. -/
def State.linkMode (s : State) (n : Nat) : Nat := s.rf (Reg.LNK_N_CTL n) 1 0
def State.linkTight (s : State) (n : Nat) : Bool := s.rf (Reg.LNK_N_CTL n) 2 2 = 0

/-- A link takes state `x`; LNK_LIVE and the live output sets follow (R603). -/
def State.setLinkState (s : State) (n x : Nat) : State :=
  (s.wf (Reg.LNK_N_STAT n) 3 0 x).wf (Reg.LNK_LIVE (n / 32)) (n % 32) (n % 32) (bit (x = 6 || x = 7))

/-- Base class of a VC at switch outputs (R591). -/
def vcClass (vc : Nat) : Nat := [6, 4, 2, 3, 1, 2, 1, 5].getD vc 0

/-- The part's receive credits of a VC (R591). -/
def vcCredits (vc : Nat) : Nat := [32, 96, 64, 64, 64, 64, 32, 32].getD vc 0

/-! ### Flits (R585 to R587) -/

/-- The 256 bytes of a flit from its header and payload; a stomped one carries the complement of its CRC (R605). -/
def flitBytes (header : Nat) (payload : List Byte) (stomp : Bool) : List Byte :=
  let body := leBytes 8 header ++ fitBytes 240 payload
  let c := crc64 body
  body ++ leBytes 8 (if stomp then c ^^^ (2 ^ 64 - 1) else c)

/-- The first credits that a link owes: VC and count, at most 255. -/
def Link.credit (l : Link) : Nat × Nat :=
  match l.owedCr with
  | [] => (0, 0)
  | (vc, k) :: _ => (vc, min k 255)

/-- Sends a flit of type `ty` whose other header bits are `h`: it carries the link's acknowledgement and credits. -/
def State.sendFlit (s : State) (n ty h : Nat) (nak : Bool) (payload : List Byte) (stomp : Bool) : State :=
  let l := s.link n
  let cr := l.credit
  let ack := match l.rxSeq with
    | some q => q * 2 ^ 22 + 2 ^ 34
    | none => 0
  let header := ty + h + ack + bit nak * 2 ^ 35 + cr.1 * 2 ^ 36 + cr.2 * 2 ^ 39
  let l := { l with owed := 0, owedCr := modifyAt 0 l.owedCr cr.1 (fun k => k - cr.2) }
  (s.setLink n l).emit (.flit n (flitBytes header payload stomp))

/-- Sends a kept DATA flit. -/
def State.sendData (s : State) (n : Nat) (f : DataFlit) : State :=
  (s.sendFlit n 1 (f.vc * 16 + bit f.sop * 128 + bit f.eop * 256 + bit f.replace * 512 + f.seq * 1024) false f.payload
    f.stomp).count (Ctr.LNK_FLIT_TX n)

/-- A new DATA flit: it takes the next SEQ and stays in the replay buffer (R587, R599). -/
def State.newData (s : State) (n vc : Nat) (sop eop replace stomp : Bool) (payload : List Byte) : State :=
  let l := s.link n
  let f : DataFlit := { seq := l.txSeq, vc, sop, eop, replace, stomp, payload }
  let l := { l with txSeq := (l.txSeq + 1) % 4096, replay := l.replay ++ [f], credits := modifyAt 0 l.credits vc (fun k => k - 1) }
  (s.setLink n l).sendData n f

/-- A packet's bytes in flit payloads (R589). -/
def flitsOf : Nat → List Byte → List (List Byte)
  | 0, _ => []
  | _, [] => []
  | f + 1, bs => fitBytes 240 (bs.take 240) :: flitsOf f (bs.drop 240)

/-- Flits that a packet takes. -/
def flitCount (bs : List Byte) : Nat := (bs.length + 239) / 240

/-- Sends every flit of a packet. -/
def State.sendPacket (s : State) (n vc : Nat) (bs : List Byte) : State :=
  let k := flitCount bs
  ((List.range k).zip (flitsOf bs.length bs)).foldl (fun s e => s.newData n vc (e.1 = 0) (e.1 + 1 = k) false false e.2) s

/-- May a packet of `k` flits start on link `n`: credits for every flit, and room in the replay buffer (R592, R599)? -/
def State.mayStart (s : State) (n vc k : Nat) : Bool :=
  s.linkLive n && (k : Int) ≤ fetch 0 (s.link n).credits vc && (s.link n).replay.length + k ≤ 1024

/-- The first waiting packet of each VC that may start, by the base class of its VC, lowest VC first. -/
def State.nextPacket (s : State) (n : Nat) : Option (Nat × List Byte) :=
  let heads := (List.range 8).filterMap (fun vc => (s.link n).queue.find? (fun q => q.1 = vc))
  let ok := heads.filter (fun q => s.mayStart n q.1 (flitCount q.2))
  ok.foldl (fun (best : Option (Nat × List Byte)) q =>
    match best with
    | some b => if vcClass b.1 < vcClass q.1 then some q else best
    | none => some q) none

/-- Sends waiting packets while one may start. -/
def State.linkPump : Nat → Nat → State → State
  | 0, _, s => s
  | f + 1, n, s =>
    match s.nextPacket n with
    | some q =>
      let s := s.setLink n { s.link n with queue := (s.link n).queue.erase q }
      State.linkPump f n (s.sendPacket n q.1 q.2)
    | none => s

def State.pump (s : State) (n : Nat) : State := State.linkPump (s.link n).queue.length n s

/-- A packet joins link `n`'s output. -/
def State.queuePacket (s : State) (n vc : Nat) (bs : List Byte) : State :=
  (s.setLink n { s.link n with queue := (s.link n).queue ++ [(vc, bs)] }).pump n

/-- The receiver returns `k` credits of a VC (R592). -/
def State.giveCredit (s : State) (n vc k : Nat) : State :=
  s.setLink n { s.link n with owedCr := modifyAt 0 (s.link n).owedCr vc (fun c => c + k) }

/-! ### Going down, retraining and replay (R599 to R603) -/

/-- Link `n` goes DOWN with `cause`: its replay buffer and queued packets are discarded and counted (R602), and a packet
cut through from it ends on its output with a stomped REPLACE flit (R608). -/
def State.linkDown (s : State) (n cause : Nat) : State :=
  let l := s.link n
  let was := s.linkState n
  let s := s.countN (Ctr.LNK_DROP n) (l.queue.length + (l.replay.filter (fun f => f.eop)).length)
  let s := l.rx.foldl (fun s (e : Nat × VcRx) =>
    match e.2.cutTo with
    | some o => if s.linkLive o then (s.newData o e.1 false true true true []).count Ctr.SWT_STOMP_TX else s
    | none => s) s
  let s := s.setLink n { held := l.held, downAt := some s.now, inbox := l.inbox }
  let s := ((s.setLinkState n 1).wf (Reg.LNK_N_STAT n) 31 16 cause).wf (Reg.LNK_N_STAT n) 5 4 0
  if was = 6 ∨ was = 7 ∨ was = 9 then s.event Reg.LNK_EVT 0 else s

/-- Link `n` leaves UP or DEGRADED for RETRAIN (R600): replay buffer, sequence and credit state stay. -/
def State.enterRetrain (s : State) (n : Nat) : State :=
  if s.linkLive n then
    let l := s.link n
    let s := s.setLink n { l with tries := 0, rxBits := 0, rxLen := 0, rxBad := false, rxPos := 0, prbs := 0x7FFFFFFF }
    ((s.setLinkState n 9).count (Ctr.LNK_RETRAIN n)).event Reg.LNK_EVT 1
  else s

/-- Resends every unacknowledged flit, oldest first. -/
def State.resendAll (s : State) (n : Nat) : State := (s.link n).replay.foldl (fun s f => s.sendData n f) s

/-- A replay (R599); more than REPLAY_MAX in 1 ms take the link to RETRAIN (R600). -/
def State.replayLink (s : State) (n : Nat) : State :=
  let l := s.link n
  if !s.linkLive n ∨ l.replay = [] then s
  else
    let fresh := l.replayAt + 1000000 ≤ s.now
    let l := { l with replays := if fresh then 1 else l.replays + 1, replayAt := if fresh then s.now else l.replayAt }
    let s := (s.setLink n l).count (Ctr.LNK_REPLAY n)
    if s.rf Reg.LNK_CTL 15 0 < l.replays then s.enterRetrain n else s.resendAll n

/-- The acknowledgement and credit fields of a flit received (R587, R592, R599). -/
def State.ackIn (s : State) (n header : Nat) : State :=
  let l := s.link n
  let ack := bitsOf header 33 22
  let l := if bitOf header 34 then { l with replay := l.replay.filter (fun f => laterMod 12 ack f.seq) } else l
  let vc := bitsOf header 38 36
  let l := { l with credits := modifyAt 0 l.credits vc (fun k => k + (bitsOf header 46 39 : Nat)) }
  let s := s.setLink n l
  (if bitOf header 35 then s.replayLink n else s).pump n

/-! ### Bring-up (R580 to R584) -/

/-- The IDENT payload that the part sends (R582). -/
def State.identOut (s : State) (n : Nat) : List Byte :=
  fitBytes 240 (record [(1, 1), (1, 0), (2, 1), (8, s.rd64 Reg.TRUST_UID_LO Reg.TRUST_UID_HI), (2, Config.vendorId), (2, Config.deviceId),
    (1, 3)] ++ (List.range 8).flatMap (fun v => leBytes 1 (vcCredits v)) ++ leBytes 2 4096 ++ leBytes 1 (bit (s.link n).ident.isSome))

/-- The Pattern's wiring of link `n`. -/
def State.wiring (s : State) (n : Nat) : Option PatLink := s.pat.links.find? (fun l => l.link = n)

/-- The HELLO payload that the part sends (R583). -/
def State.helloOut (s : State) (n : Nat) : List Byte :=
  let ep := match s.wiring n with
    | some w => if w.toEp then w.ep else 0
    | none => 0
  fitBytes 240 (record [(1, 2), (1, bit (s.link n).hello), (2, s.partId), (1, n), (1, ep), (2, 0), (8, s.rd64 Reg.SWT_SYSTAG_LO Reg.SWT_SYSTAG_HI)])

/-- Sends a CTRL flit. -/
def State.sendCtrl (s : State) (n : Nat) (payload : List Byte) : State := s.sendFlit n 2 0 false payload false

/-- A DOWN link starts bring-up again 100 ms after it went DOWN, unless it is held (R580); it goes on to TRAIN once its
peer is present. -/
def State.linkRetry (s : State) (n t : Nat) (present : Bool) : State :=
  let s' := (s.reach t).setLinkState n (if present then 3 else 2)
  if s.linkMode n ≠ 1 ∨ 96 ≤ n then s
  else if s.linkState n = 2 then (if present then s' else s)
  else if s.linkState n = 1 ∧ !(s.link n).held ∧ !(s.link n).downAt.any (fun d => t < d + 100000000) then s'
  else s

/-- Training and alignment end with lock (R581). -/
def State.trainDone (s : State) (n : Nat) : State :=
  if s.linkState n = 3 ∨ s.linkState n = 4 then
    let l := s.link n
    let s := s.setLink n { held := l.held, downAt := l.downAt, inbox := l.inbox }
    ((s.setLinkState n 5).wf (Reg.LNK_N_STAT n) 5 4 3).sendCtrl n (s.identOut n)
  else s

/-- TRAIN or ALIGN overruns its limit (R581). -/
def State.trainTimeout (s : State) (n : Nat) : State :=
  if s.linkState n = 3 ∨ s.linkState n = 4 then (s.linkDown n 0x05C0).count (Ctr.LNK_TRAIN_FAIL n) else s

/-- IDENT is resent until the peer's has come with ACK, then HELLO (R582, R583). -/
def State.identRepeat (s : State) (n : Nat) : State :=
  if s.linkState n = 5 then
    s.sendCtrl n (if (s.link n).ident.any (fun i => i.ack) then s.helloOut n else s.identOut n)
  else s

/-- The peer's IDENT (R582). -/
def State.identIn (s : State) (n : Nat) (p : List Byte) : State :=
  if s.linkState n ≠ 5 ∨ byteAt p 0 ≠ 1 then s
  else
    let i : PeerIdent := { role := byteAt p 1, uid := leAt p 4 8, fec := byteAt p 16, maxRd := leAt p 25 2, ack := bitOf (byteAt p 27) 0 }
    let cs : SMap Int := (List.range 8).foldl (fun m v => store 0 m v (byteAt p (17 + v) : Int)) []
    let s := s.setLink n { s.link n with ident := some i, credits := cs }
    ((s.wr64 (Reg.LNK_N_UID_LO n) (Reg.LNK_N_UID_HI n) i.uid).wr (Reg.LNK_N_CRED0 n) (BitVec.ofNat 32 (leAt p 17 4))).wr
      (Reg.LNK_N_CRED1 n) (BitVec.ofNat 32 (leAt p 21 4))

/-- Does the peer agree with the Pattern's wiring of link `n` (R584)? -/
def State.peerAgrees (s : State) (n : Nat) (i : PeerIdent) (p : List Byte) : Bool :=
  match s.wiring n with
  | none => false
  | some w =>
    bitOf i.fec w.fec && (if w.toEp then i.role = 1 && i.uid = w.peerUid && leAt p 2 2 % 2 ^ 14 = s.partId && byteAt p 5 = w.ep
    else i.role = 0 && leAt p 2 2 % 2 ^ 14 = w.peerPart && byteAt p 4 = w.peerLink &&
      leAt p 8 8 = s.rd64 Reg.SWT_SYSTAG_LO Reg.SWT_SYSTAG_HI)

/-- Link `n` has failed the topology check, or has passed it (R851). -/
def State.topoMark (s : State) (n : Nat) (failed : Bool) : State :=
  let a := Reg.CAST_TOPO_FAIL (n / 32)
  let was := s.rf a (n % 32) (n % 32) = 1
  let s := s.wf a (n % 32) (n % 32) (bit failed)
  if failed && !was then s.event Reg.CAST_EVT 2 else s

/-- The peer's HELLO: the link is UP, or in QUARANTINE (R583, R584). -/
def State.helloIn (s : State) (n : Nat) (p : List Byte) : State :=
  match (s.link n).ident with
  | none => s
  | some i =>
    if s.linkState n ≠ 5 ∨ byteAt p 0 ≠ 2 then s
    else
      let s := s.setLink n { s.link n with hello := true }
      let s := s.wr (Reg.LNK_N_PEER n) (BitVec.ofNat 32
        (leAt p 2 2 % 2 ^ 14 + byteAt p 4 % 128 * 2 ^ 16 + byteAt p 5 % 64 * 2 ^ 24 + i.role % 2 * 2 ^ 30 + 2 ^ 31))
      let s := s.sendCtrl n (s.helloOut n)
      if s.peerAgrees n i p then ((s.setLinkState n 6).topoMark n false).pump n
      else (((s.setLinkState n 8).topoMark n true).wf (Reg.LNK_N_STAT n) 31 16 0x0607).event Reg.LNK_EVT 3

/-- A retrain attempt has ended, with the lanes that trained (R601, R602). -/
def State.retrainDone (s : State) (n : Nat) (lane0 lane1 : Bool) : State :=
  if s.linkState n ≠ 9 then s
  else
    let up (s : State) (x : Nat) : State :=
      let s := s.setLink n { s.link n with tries := 0 }
      (((s.setLinkState n x).wf (Reg.LNK_N_STAT n) 5 4 (bit lane0 + 2 * bit lane1)).resendAll n).pump n
    if lane0 ∧ lane1 then up s 6
    else if (lane0 ∨ lane1) ∧ s.rf Reg.LNK_CTL 20 20 = 1 then (up s 7).event Reg.LNK_EVT 2
    else
      let l := s.link n
      let s := (s.setLink n { l with tries := l.tries + 1 }).count (Ctr.LNK_TRAIN_FAIL n)
      if s.rf Reg.LNK_CTL 19 16 ≤ l.tries + 1 then s.linkDown n 0x05C1 else s

end Sys2Proof.Machine
end

