-- ==== Sys2Proof/Machine/Switch.lean ====
section
/-! DEFINITION. The switch (R58, R589, R590, R614 to R620, R633, R634): packet headers, routes, multicast, FABRIC_NAK, and
the commit of its entries. -/

namespace Sys2Proof.Machine

/-! ### Packets (R589) -/

def pktDst (p : List Byte) : Nat := leAt p 0 8
def pktDstPart (p : List Byte) : Nat := leAt p 0 8 / 2 ^ 50
def pktDstEp (p : List Byte) : Nat := leAt p 0 8 / 2 ^ 44 % 64
def pktOff (p : List Byte) : Nat := leAt p 0 8 % 2 ^ 44
def pktSrcPart (p : List Byte) : Nat := leAt p 8 2 % 2 ^ 14
def pktSrcEp (p : List Byte) : Nat := byteAt p 10 % 64
def pktOpcode (p : List Byte) : Nat := byteAt p 11
def pktLen (p : List Byte) : Nat := leAt p 12 2 % 2 ^ 13
def pktVc (p : List Byte) : Nat := byteAt p 14 % 8
def pktPoison (p : List Byte) : Bool := bitOf (byteAt p 14) 3
def pktMcast (p : List Byte) : Bool := bitOf (byteAt p 14) 4
def pktHops (p : List Byte) : Nat := byteAt p 15 % 64
def pktGroup (p : List Byte) : Nat := leAt p 16 2 % 2 ^ 12
def pktFlow (p : List Byte) : Nat := leAt p 18 2

/-- Bytes of a packet: header, payload, and the poison mask when POISON is 1. -/
def pktSize (p : List Byte) : Nat :=
  32 + pktLen p + (if pktPoison p then roundUp (((pktLen p + 7) / 8 + 7) / 8) 8 else 0)

/-- A packet with HOPS replaced. -/
def withHops (p : List Byte) (h : Nat) : List Byte := p.take 15 ++ leBytes 1 h ++ p.drop 16

/-- Is an opcode reserved (R590)? -/
def opcodeReserved (o : Nat) : Bool := o = 0 || (9 ≤ o && o ≤ 0xF) || 0x80 ≤ o

/-- The VCs that an opcode allows (R590). -/
def opcodeVcs (o : Nat) : List Nat :=
  match o with
  | 1 => [1, 2, 5]
  | 2 => [2]
  | 3 => [3]
  | 4 => [3]
  | 5 => [1]
  | 6 => [7]
  | 7 => [5]
  | 8 => [7]
  | o => if o < 0x40 then [2, 3, 4, 7] else [0, 6]

/-- The first row of R614: a malformed header. -/
def pktMalformed (vc : Nat) (p : List Byte) : Bool :=
  opcodeReserved (pktOpcode p) || 4096 < pktLen p || pktVc p ≠ vc || leAt p 8 2 / 2 ^ 14 ≠ 0 || byteAt p 10 / 64 ≠ 0 ||
  leAt p 12 2 / 2 ^ 13 ≠ 0 || byteAt p 14 / 32 ≠ 0 || byteAt p 15 / 64 ≠ 0 || leAt p 16 2 / 2 ^ 12 ≠ 0

/-! ### Outputs (R615, R616) -/

/-- Links of the valid outputs of an entry's LO word, in table order. -/
def entryLinks (lo : Word) : List Nat :=
  ((List.range 4).filter (fun i => bitOf lo.toNat (8 * i + 7))).map (fun i => fieldOf lo (8 * i + 6) (8 * i))

/-- The pin hash of a packet (R616). -/
def pinHash (p : List Byte) : Nat := fnv1a32 (p.take 8 ++ (p.drop 8).take 3 ++ (p.drop 18).take 2)

/-- The link of `live` that a packet takes (R616): by its pin hash, or the one with the most credits for its VC. -/
def State.chooseLink (s : State) (spray : Bool) (live : List Nat) (p : List Byte) : Option Nat :=
  let vc := pktVc p
  if spray && vc ≠ 0 then
    live.foldl (fun (best : Option Nat) l =>
      match best with
      | some b => if fetch 0 (s.link b).credits vc < fetch 0 (s.link l).credits vc then some l else best
      | none => some l) none
  else live[pinHash p % live.length]?

/-- The output of a route or endpoint entry for a packet; none when the entry is invalid or has no live output. -/
def State.entryOut (s : State) (lo hi : Nat) (p : List Byte) : Option Nat :=
  let w := s.rd hi
  if bitOf w.toNat 31 then
    s.chooseLink (fieldOf w 1 0 = 1) ((entryLinks (s.rd lo)).filter (fun l => l < 96 && s.linkLive l)) p
  else none

def State.routeOut (s : State) (p : List Byte) : Option Nat :=
  s.entryOut (Reg.SWT_RT_LO (pktDstPart p)) (Reg.SWT_RT_HI (pktDstPart p)) p

def State.endpointOut (s : State) (e : Nat) (p : List Byte) : Option Nat :=
  s.entryOut (Reg.SWT_EP_LO (e - 1)) (Reg.SWT_EP_HI (e - 1)) p

/-! ### Forwarding (R614 to R620) -/

/-- A packet goes out on a link. -/
def State.forwardOn (s : State) (l : Nat) (p : List Byte) : State := (s.queuePacket l (pktVc p) p).count Ctr.SWT_FWD

/-- Delivery to the local agent of the opcode; a reserved notice is discarded (R627). -/
def State.deliverLocal (s : State) (p : List Byte) : State :=
  if pktOpcode p = 6 ∧ (byteAt p 20 = 0 ∨ 7 < byteAt p 20) then (s.count Ctr.SWT_MALFORMED).event Reg.SWT_EVT 2
  else s.emit (.deliver p)

/-- A copy of a multicast packet that is not sent (R619). -/
def State.mcastDrop (s : State) : State := (s.count Ctr.SWT_MCAST_DROP).event Reg.SWT_EVT 3

/-- A copy of a multicast packet toward a link. -/
def State.mcastCopy (s : State) (l : Nat) (p : List Byte) : State :=
  let s := s.count Ctr.SWT_MCAST_COPY
  if s.linkLive l then s.forwardOn l p else s.mcastDrop

/-- A multicast packet that came from `inp` is replicated by its group entry (R618); 96 is the local agent. -/
def State.replicate (s : State) (inp : Nat) (p : List Byte) : State :=
  let g := pktGroup p
  let w (k : Nat) : Nat := (s.rd (Reg.SWT_MC g k)).toNat
  let q := withHops p (pktHops p - 1)
  let links := (List.range 96).filter (fun l => bitOf (w (l / 32)) (l % 32) && l ≠ inp)
  let eps := (List.range 48).filter (fun i => if i < 32 then bitOf (w 3) i else bitOf (w 4) (i - 32))
  let s := links.foldl (fun s l => s.mcastCopy l q) s
  let s := eps.foldl (fun s i =>
    match s.endpointOut (i + 1) q with
    | some l => s.mcastCopy l q
    | none => (s.count Ctr.SWT_MCAST_COPY).mcastDrop) s
  if bitOf (w 4) 16 && inp < 96 then (s.count Ctr.SWT_MCAST_COPY).deliverLocal p else s

/-- What the switch does with a packet from `inp`, and the status with which it discards it, 0 for none (R614). -/
def State.switchPacket (s : State) (inp vc : Nat) (p : List Byte) : State × Nat :=
  let e := pktDstEp p
  if pktMalformed vc p then (s, 0x0606)
  else if !(opcodeVcs (pktOpcode p)).contains vc then (s, 0x0605)
  else if pktHops p = 0 ∧ inp < 96 then (s, 0x0604)
  else if pktMcast p then
    if [1, 5, 6].contains vc && bitOf (s.rd (Reg.SWT_MC (pktGroup p) 7)).toNat 31 then (s.replicate inp p, 0)
    else (s.mcastDrop, 0x0605)
  else if pktDstPart p ≠ s.partId then
    match s.routeOut p with
    | some l => (s.forwardOn l (withHops p (pktHops p - 1)), 0)
    | none => (s, 0x0601)
  else if 49 ≤ e ∨ (e = 0 ∧ pktOff p / 2 ^ 40 ≠ 0) then (s, 0x0602)
  else if e = 0 then (s.deliverLocal p, 0)
  else
    match s.endpointOut e p with
    | some l => (s.forwardOn l p, 0)
    | none => (s, 0x0603)

/-- Counts a discard and records its event (R614). -/
def State.countDiscard (s : State) (st : Nat) : State :=
  if st = 0x0601 ∨ st = 0x0602 ∨ st = 0x0603 then (s.count Ctr.SWT_UNROUTABLE).event Reg.SWT_EVT 0
  else if st = 0x0604 then (s.count Ctr.SWT_HOPS).event Reg.SWT_EVT 1
  else if st = 0x0605 then s.count Ctr.SWT_MALFORMED
  else if st = 0x0606 then (s.count Ctr.SWT_MALFORMED).event Reg.SWT_EVT 2
  else s

/-- The FABRIC_NAK for a discarded packet (R620). -/
def State.nakPacket (s : State) (p : List Byte) (st : Nat) : List Byte :=
  record [(8, pktSrcPart p * 2 ^ 50 + pktSrcEp p * 2 ^ 44), (2, s.partId), (1, 0), (1, 8), (2, 24), (1, 7),
    (1, s.rf Reg.SWT_CTL 5 0), (2, 0), (2, 0), (2, st), (8, 0), (2, 0)] ++ fitBytes 24 p

/-- The switch handles a packet from `inp`; a discard of class 0x06 is answered (R620). -/
def State.handlePacket (s : State) (inp vc : Nat) (p : List Byte) : State :=
  let r := s.switchPacket inp vc p
  if r.2 = 0 then r.1
  else
    let s := r.1.countDiscard r.2
    if pktOpcode p = 8 ∨ pktMcast p then s
    else
      let r' := (s.count Ctr.SWT_NAK_TX).switchPacket 96 7 (s.nakPacket p r.2)
      r'.1.countDiscard r'.2

/-- The oldest packet of link `inp`, or one that a local agent injects (R617), reaches the switch. -/
def State.packetForward (s : State) (inp : Nat) (injected : List Byte) : State :=
  if 96 ≤ inp then
    let p := injected.take (pktSize injected)
    s.handlePacket 96 (pktVc p) (withHops p (s.rf Reg.SWT_CTL 5 0))
  else
    match (s.link inp).inbox with
    | [] => s
    | (vc, k, p) :: rest =>
      let s := s.setLink inp { s.link inp with inbox := rest }
      (s.giveCredit inp vc k).handlePacket inp vc p

/-! ### Entries (R633, R634) -/

/-- The status of an entry that names `links` (R634): out of range, then a link that is DISABLED or in Ethernet mode. -/
def State.linksStatus (s : State) (links : List Nat) : Nat :=
  if links.any (fun l => s.linkState l = 0 || s.linkState l = 0xA) then 0x01C1 else 0

/-- The status of a route or endpoint entry. -/
def State.entryStatus (s : State) (endpoint : Bool) (lo hi : Word) : Nat :=
  let links := entryLinks lo
  if 2 ≤ fieldOf hi 1 0 ∨ links.any (fun l => 96 ≤ l) then 0x01C0
  else if s.linksStatus links ≠ 0 then 0x01C1
  else if endpoint && links.any (fun l => l / 24 ≠ links.headD 0 / 24) then 0x01C2
  else 0

/-- The word of an entry as written so far: the draft, or the committed word. -/
def State.draft (s : State) (a : Nat) : Word := (fetch none s.swtDraft a).getD (s.rd a)

def State.setDraft (s : State) (a : Nat) (v : Option Word) : State := { s with swtDraft := store none s.swtDraft a v }

/-- A write of the HI word of a route or endpoint entry checks the entry and commits it whole, or keeps the former one. -/
def State.commitEntry (s : State) (via : Via) (endpoint : Bool) (lo hi : Nat) (v : Word) : State :=
  let v := v &&& 0x80000003
  let l := s.draft lo
  let st := s.entryStatus endpoint l v
  let s := s.setDraft lo none
  if st ≠ 0 then s.reject via hi st else (s.wr lo l).wr hi v

/-- Links that a group entry names. -/
def State.groupLinks (s : State) (g : Nat) : List Nat :=
  (List.range 96).filter (fun l => bitOf (s.draft (Reg.SWT_MC g (l / 32))).toNat (l % 32))

/-- A write of word 7 of a group entry. -/
def State.commitGroup (s : State) (via : Via) (g : Nat) (v : Word) : State :=
  let st := s.linksStatus (s.groupLinks g)
  let ws := (List.range 7).map (fun k => (Reg.SWT_MC g k, s.draft (Reg.SWT_MC g k)))
  let s := ws.foldl (fun (s : State) e => s.setDraft e.1 none) s
  if st ≠ 0 then s.reject via (Reg.SWT_MC g 7) st
  else (ws.foldl (fun (s : State) (e : Nat × Word) => s.wr e.1 e.2) s).wr (Reg.SWT_MC g 7) (v &&& 0x80000000)

end Sys2Proof.Machine
end

