-- ==== Sys2Proof/Machine/Ply.lean ====
section
/-! DEFINITION. Ply arithmetic (file 03) and the two keyed functions of the step contract (file 02): number formats,
gauges, conversion, addition, finalisation, tally terms and the counter generator. Values are exact dyadic numbers. -/

namespace Sys2Proof.Machine

/-! ### Numbers and formats -/

/-- What a stored element stands for: a finite number, sign times m times 2^e, or a special (R161, R163). -/
inductive Num where
  | fin (neg : Bool) (m : Nat) (e : Int)
  | nan
  | inf (neg : Bool)
  | poison
  deriving DecidableEq, Repr

/-- A floating-point format: significand bits with the implicit one, exponent bits, weight of the lowest subnormal
bit as a power of two, and how its top exponent reads: 0 as IEEE, 1 as E4M3, 2 as a plain number (E2M1). -/
structure FloatFmt where
  p : Nat
  ebits : Nat
  qmin : Int
  top : Nat
  deriving DecidableEq, Repr

def fmtFp32 : FloatFmt := ⟨24, 8, -149, 0⟩
def fmtBf16 : FloatFmt := ⟨8, 8, -133, 0⟩
def fmtE4M3 : FloatFmt := ⟨4, 4, -9, 1⟩
def fmtE5M2 : FloatFmt := ⟨3, 5, -16, 0⟩
def fmtE2M1 : FloatFmt := ⟨2, 2, -1, 2⟩

/-- The element format of a FORMAT code below 0x07 (R113, R157). -/
def fmtOf (code : Nat) : FloatFmt :=
  match code with
  | 0 => fmtFp32 | 1 => fmtBf16 | 2 => fmtE4M3 | 3 => fmtE5M2 | 4 => fmtE4M3 | 5 => fmtE5M2 | _ => fmtE2M1

/-- Is the FORMAT code an MX format (R157)? -/
def isMx (code : Nat) : Bool := 4 ≤ code && code ≤ 6

/-- Words per element of a ply FORMAT code (R113). -/
def plyWordsOf (code : Nat) : Nat := if 7 ≤ code ∧ code ≤ 9 then code - 6 else 0

/-- Bits of one stored element of a FORMAT code, scale bytes apart. -/
def fmtBits (code : Nat) : Nat :=
  match code with
  | 0 => 32 | 1 => 16 | 2 => 8 | 3 => 8 | 4 => 8 | 5 => 8 | 6 => 4 | 7 => 64 | 8 => 128 | 9 => 192 | _ => 8

/-- Reads stored bits in format `f` (R161): no flush to zero. -/
def decodeFloat (f : FloatFmt) (bits : Nat) : Num :=
  let man := bits % 2 ^ (f.p - 1)
  let ex := bits / 2 ^ (f.p - 1) % 2 ^ f.ebits
  let neg := bits / 2 ^ (f.p - 1 + f.ebits) % 2 == 1
  if f.top = 0 ∧ ex = 2 ^ f.ebits - 1 then (if man = 0 then .inf neg else .nan)
  else if f.top = 1 ∧ ex = 2 ^ f.ebits - 1 ∧ man = 2 ^ (f.p - 1) - 1 then .nan
  else if ex = 0 then .fin neg man f.qmin
  else .fin neg (2 ^ (f.p - 1) + man) (f.qmin + (ex - 1 : Nat))

/-- Reads an element of a FORMAT code below 0x07; `scale` is its MX scale byte (R157, R161). -/
def decodeElem (code scale bits : Nat) : Num :=
  let x := decodeFloat (fmtOf code) bits
  if isMx code then
    if scale = 0xFF then .nan else
    match x with
    | .fin n m e => .fin n m (e + (scale : Int) - 127)
    | y => y
  else x

/-- Floor of log2 of m times 2^e (m nonzero). -/
def floorLog2 (m : Nat) (e : Int) : Int := (Nat.log2 m : Int) + e

/-- `m / 2 ^ r` to the nearest integer, ties to even. -/
def rneShift (m r : Nat) : Nat :=
  let q := m / 2 ^ r
  let rem := m % 2 ^ r
  if 2 * rem > 2 ^ r ∨ (2 * rem = 2 ^ r ∧ q % 2 = 1) then q + 1 else q

/-- m times 2^e to the nearest integer, ties to even. -/
def rneInt (m : Nat) (e : Int) : Nat := if 0 ≤ e then m * 2 ^ e.toNat else rneShift m (-e).toNat

/-- The largest finite magnitude of a format, as m times 2^q. -/
def maxFinite (f : FloatFmt) : Nat × Int :=
  let exTop := 2 ^ f.ebits - (if f.top = 0 then 2 else 1)
  let m := 2 ^ f.p - (if f.top = 1 then 2 else 1)
  (m, f.qmin + (exTop - 1 : Nat))

/-- Compares m1 times 2^e1 with m2 times 2^e2. -/
def dyLe (m1 : Nat) (e1 : Int) (m2 : Nat) (e2 : Int) : Bool :=
  if e1 ≤ e2 then m1 ≤ m2 * 2 ^ (e2 - e1).toNat else m1 * 2 ^ (e1 - e2).toNat ≤ m2

/-- Rounds a nonzero magnitude m times 2^e to a multiple of 2^q: RNE, or stochastic with draw `r` (R177, R178).
`neg` is the sign of the value, since a of R178 is its lower neighbour. -/
def roundMag (draw : Option Nat) (neg : Bool) (m : Nat) (e q : Int) : Nat :=
  match draw with
  | none => rneInt m (e - q)
  | some r =>
    if q ≤ e then m * 2 ^ (e - q).toNat
    else
      let sh := (q - e).toNat
      let lo := m / 2 ^ sh
      let rem := m % 2 ^ sh
      if rem = 0 then lo
      else if neg then
        -- the lower neighbour is the one of larger magnitude
        let q32 := 2 ^ 32 * (2 ^ sh - rem) / 2 ^ sh
        if r < q32 then lo else lo + 1
      else
        let q32 := 2 ^ 32 * rem / 2 ^ sh
        if r < q32 then lo + 1 else lo

/-- The stored bits of sign and rounded magnitude `mant` times 2^q (q at least qmin). -/
def packBits (f : FloatFmt) (neg : Bool) (mant : Nat) (q : Int) : Nat :=
  (if neg then 2 ^ (f.p - 1 + f.ebits) else 0) + (q - f.qmin).toNat * 2 ^ (f.p - 1) + mant

/-- The canonical NaN of a format (R182). -/
def canonNan (f : FloatFmt) : Nat :=
  if f.top = 1 then 2 ^ (f.p - 1 + f.ebits) - 1
  else (2 ^ f.ebits - 1) * 2 ^ (f.p - 1) + 2 ^ (f.p - 2)

/-- Infinity of a sign, where the format has one; the canonical NaN in E4M3 (R182). -/
def packInf (f : FloatFmt) (neg : Bool) : Nat :=
  if f.top = 1 then canonNan f
  else (if neg then 2 ^ (f.p - 1 + f.ebits) else 0) + (2 ^ f.ebits - 1) * 2 ^ (f.p - 1)

/-- Rounds a number into a format. `sat`: a magnitude above the largest finite value becomes that value, as in E4M3
and in MX elements (R181, R183); otherwise R181 decides between it and infinity. A zero keeps its sign. -/
def roundTo (f : FloatFmt) (sat : Bool) (draw : Option Nat) : Num → Nat
  | .nan => canonNan f
  | .poison => canonNan f
  | .inf n => packInf f n
  | .fin neg m e =>
    if m = 0 then packBits f neg 0 f.qmin else
    let mx := maxFinite f
    if dyLe m e mx.1 mx.2 then
      let q := max (floorLog2 m e - ((f.p : Int) - 1)) f.qmin
      packBits f neg (roundMag draw neg m e q) q
    else if sat ∨ f.top ≠ 0 then packBits f neg mx.1 mx.2
    else if dyLe (2 * mx.1 + 1) (mx.2 - 1) m e then packInf f neg
    else packBits f neg mx.1 mx.2

/-! ### Gauges (R143 to R156) -/

/-- The exponent byte of a term (R144). -/
def expByte : Num → Nat
  | .fin _ m e => if m = 0 then 0 else (max 1 (floorLog2 m e + 113)).toNat
  | _ => 0

/-- G of a gauge byte; byte 0x00 is reduced as 0x01 (R143). -/
def gaugeG (g : Nat) : Int := (max g 1 : Nat) - 111

/-- The forecast gauge byte from history byte `h` (R150). -/
def forecast (h : Nat) : Nat := min 255 (h + 2)

/-! ### Conversion (R158 to R161) -/

def spPoison : Nat := 0x8000000000000000
def spNan : Nat := 0x8000000000000001
def spInf (neg : Bool) : Nat := if neg then 0x8000000000000003 else 0x8000000000000002

/-- A special element of `k` words: lower words 0, the special in the top word (R163). -/
def specialWords (k top : Nat) : List Nat := List.replicate (k - 1) 0 ++ [top]

/-- Splits an integer into `k` words (R159). -/
def splitWords : Nat → Int → List Nat
  | 0, _ => []
  | 1, n => [unsigned 64 n]
  | k + 2, n =>
    let w := signed 40 (unsigned 40 n)
    unsigned 64 w :: splitWords (k + 1) ((n - w) / 2 ^ 40)

/-- A term as a k-ply element under gauge byte `g` (R158 to R161). -/
def plyConvert (k g : Nat) : Num → List Nat
  | .nan => specialWords k spNan
  | .poison => specialWords k spPoison
  | .inf n => specialWords k (spInf n)
  | .fin neg m e =>
    let n := rneInt m (e + 40 * k - gaugeG g)
    splitWords k (if neg then -(n : Int) else n)

/-! ### Addition (R162 to R168) -/

/-- Is a ply word a special word (R162)? -/
def isSpecialWord (w : Nat) : Bool := 0x8000000000000000 ≤ w && w ≤ 0x8000007FFFFFFFFF

/-- How a ply element reads: a special, or finite (R163, R164). -/
inductive PlyKind where
  | finite | poison | nan | inf (neg : Bool)
  deriving DecidableEq, Repr

def plyKind (ws : List Nat) : PlyKind :=
  if ws.dropLast.any isSpecialWord then .poison else
  let t := ws.getLastD 0
  if !isSpecialWord t then .finite
  else if t = spNan then .nan
  else if t = spInf false then .inf false
  else if t = spInf true then .inf true
  else .poison

/-- Is a 64-bit sum inside the legal range (R162)? -/
def plyLegal (i : Int) : Bool := -(2 ^ 63 : Nat) + (2 ^ 39 : Nat) ≤ i && i ≤ (2 ^ 63 : Nat) - 1

/-- The sum of two ply elements of `k` words, and whether it was a carry-out (R138, R165, R167). -/
def plyAdd (k : Nat) (a b : List Nat) : List Nat × Bool :=
  match plyKind a, plyKind b with
  | .poison, _ => (specialWords k spPoison, false)
  | _, .poison => (specialWords k spPoison, false)
  | .nan, _ => (specialWords k spNan, false)
  | _, .nan => (specialWords k spNan, false)
  | .inf x, .inf y => (specialWords k (if x = y then spInf x else spNan), false)
  | .inf x, .finite => (specialWords k (spInf x), false)
  | .finite, .inf y => (specialWords k (spInf y), false)
  | .finite, .finite =>
    let sums := List.zipWith (fun x y => signed 64 x + signed 64 y) a b
    if sums.all plyLegal then (sums.map (unsigned 64), false) else (specialWords k spPoison, true)

/-! ### Finalisation (R176 to R183) -/

/-- The sum of words w_j times 2^(40 j), as an integer on the lowest grid (R135). -/
def plyInt : List Nat → Int
  | [] => 0
  | w :: ws => signed 64 w + 2 ^ 40 * plyInt ws

/-- What a ply element of `k` words in a block of gauge byte `g` represents (R135, R163). -/
def plyNum (k g : Nat) (ws : List Nat) : Num :=
  match plyKind ws with
  | .poison => .poison
  | .nan => .nan
  | .inf n => .inf n
  | .finite =>
    let i := plyInt ws
    .fin (i < 0) i.natAbs (gaugeG g - 40 * k)

/-- A finalised number in a raw format: stored bits and poison mark (R177 to R182). A zero V is +0. -/
def finalRaw (code : Nat) (draw : Option Nat) (x : Num) : Nat × Bool :=
  (roundTo (fmtOf code) false draw (match x with | .fin _ 0 e => .fin false 0 e | y => y), x == .poison)

/-- The largest magnitude of a group. -/
def maxMag : List Num → Nat × Int
  | [] => (0, 0)
  | .fin _ m e :: r => let b := maxMag r; if dyLe m e b.1 b.2 then b else (m, e)
  | _ :: r => maxMag r

/-- Is a number special? -/
def isSpecialNum : Num → Bool
  | .fin .. => false
  | _ => true

/-- One MX group: scale byte, element bits, and the poison mark of the group (R183). -/
def finalMx (code : Nat) (draws : List (Option Nat)) (xs : List Num) : Nat × List Nat × Bool :=
  let pz := xs.any (· == Num.poison)
  if xs.any isSpecialNum then (0xFF, xs.map (fun _ => 0), pz) else
  let b := maxMag xs
  if b.1 = 0 then (0x7F, xs.map (fun _ => 0), false) else
  let emax : Int := if code = 4 then 8 else if code = 5 then 15 else 2
  let x := max (floorLog2 b.1 b.2 - emax) (-127)
  if x > 127 then (0xFF, xs.map (fun _ => 0), false) else
  ((x + 127).toNat, List.zipWith (fun d n => match n with
    | .fin neg m e => roundTo (fmtOf code) true d (if m = 0 then .fin false 0 e else .fin neg m (e - x))
    | _ => 0) draws xs, false)

/-! ### Ply attributes (R187, R188) -/

def attrRound (w : Nat) : Nat := bitsOf w 21 20
def attrGmode (w : Nat) : Nat := bitsOf w 19 18
def attrPly (w : Nat) : Nat := bitsOf w 17 16
def attrOut (w : Nat) : Nat := bitsOf w 15 8
def attrIn (w : Nat) : Nat := bitsOf w 7 0

/-- The status of a ply attribute word, 0 when the part accepts it (R188). -/
def attrStatus (w : Nat) : Nat :=
  if attrRound w ≥ 2 ∨ attrGmode w ≥ 2 ∨ attrPly w = 0 ∨ bitsOf w 31 22 ≠ 0 then 0x0140
  else if attrIn w ≥ 0x0A ∨ attrOut w ≥ 0x0A then 0x0141
  else if (plyWordsOf (attrIn w) ≠ 0 ∧ plyWordsOf (attrIn w) ≠ attrPly w) ∨
          (plyWordsOf (attrOut w) ≠ 0 ∧ plyWordsOf (attrOut w) ≠ attrPly w) then 0x0142
  else 0

/-! ### mix, gen and tally terms (R111 to R125) -/

def rotl64 (x n : Nat) : Nat := (x <<< n) % 2 ^ 64 ||| (x % 2 ^ 64) >>> (64 - n)

/-- `round` of R111. -/
def mixRound (x0 : Nat) : Nat :=
  let x1 := x0 ^^^ (x0 >>> 32)
  let x2 := (x1 + (x1 <<< 12)) % 2 ^ 64
  let x3 := x2 ^^^ (x2 >>> 24)
  let x4 := (x3 + (x3 <<< 28)) % 2 ^ 64
  x4 ^^^ (x4 >>> 20)

/-- `permute` of R111. -/
def permute (c t w : Nat) : Nat :=
  mixRound ((mixRound ((w ^^^ t ^^^ c) % 2 ^ 64) + t) % 2 ^ 64)

/-- `mix` of R111. -/
def mix (tensor index w : Nat) : Nat := permute 0x9E3779B97F4A7C15 ((tensor <<< 40 ||| index) % 2 ^ 64) w

/-- `gen` of R120. -/
def gen (seed step tensor index : Nat) : Nat :=
  permute 0x6A09E667F3BCC909 ((tensor <<< 40 ||| index) % 2 ^ 64) ((seed ^^^ (step <<< 16)) % 2 ^ 64)

/-- The draw of a stochastic rounding: bits [63:32] of gen (R178). -/
def roundDraw (seed step tensor index : Nat) : Nat := gen seed step tensor index / 2 ^ 32

/-- The tally term of an element from its tally words (R113). -/
def tallyTerm (tensor index : Nat) : Nat → List Nat → Nat
  | _, [] => 0
  | j, w :: ws => (rotl64 (mix tensor index w) (16 * j % 64) + tallyTerm tensor index (j + 1) ws) % 2 ^ 64

end Sys2Proof.Machine
end

