-- ==== Sys2Proof/Machine/Tally.lean ====
section
/-! DEFINITION. Jobs and their tallies as state: reading and writing a slice's job, adding to its tallies (R117), and
the tally ring (R118, R119). -/

namespace Sys2Proof.Machine

def State.job (s : State) (n : Nat) : Job := fetch {} s.jobs n

def State.setJob (s : State) (n : Nat) (j : Job) : State := { s with jobs := store {} s.jobs n j }

/-- The step counter of slice `n`'s job (R83). -/
def State.stepCtr (s : State) (n : Nat) : Nat := s.stepOf (Reg.GLB_JOB_STEP_LO n) (Reg.GLB_JOB_STEP_HI n)

/-- Sets the step counter of slice `n`'s job. -/
def State.setStep (s : State) (n k : Nat) : State :=
  s.wr64 (Reg.GLB_JOB_STEP_LO n) (Reg.GLB_JOB_STEP_HI n) (k % 2 ^ 48)

/-- The sum of two tallies of one tensor in one step (R117). -/
def TallyAcc.plus (a b : TallyAcc) : TallyAcc :=
  { a with digest := (a.digest + b.digest) % 2 ^ 64, elements := (a.elements + b.elements) % 2 ^ 40,
           poisoned := min (a.poisoned + b.poisoned) (2 ^ 32 - 1), seen := a.seen || b.seen,
           format := if a.seen then a.format else b.format }

/-- Adds a tally to a list that holds at most one per step and tensor. -/
def addTally : List TallyAcc → TallyAcc → List TallyAcc
  | [], t => [t]
  | a :: as, t => if a.step = t.step ∧ a.tensor = t.tensor then a.plus t :: as else a :: addTally as t

/-- Adds a part-scope tally to slice `n`'s job, for a tensor of its tally set. -/
def State.tallyAdd (s : State) (n : Nat) (t : TallyAcc) : State :=
  let j := s.job n
  if j.isOpen && j.tallySet.contains t.tensor then s.setJob n { j with tallies := addTally j.tallies t } else s

/-- The tally of one element: its term, or one poisoned element (R114, R117). -/
def elementTally (step tensor index fmt : Nat) (words : List Nat) (poisoned : Bool) : TallyAcc :=
  { step, tensor, digest := if poisoned then 0 else tallyTerm tensor index 0 words, elements := 1,
    poisoned := bit poisoned, seen := true, format := fmt }

/-- The empty tally of a tensor of which nothing was tallied (R117). -/
def noTally (step tensor : Nat) : TallyAcc := ⟨step, tensor, 0, 0, 0, false, 0⟩

/-- Slice `n`'s part-scope tally of a tensor in a step. -/
def State.tallyOf (s : State) (n step tensor : Nat) : TallyAcc :=
  ((s.job n).tallies.find? (fun t => t.step = step && t.tensor = tensor)).getD (noTally step tensor)

/-- A tally record (R119). -/
def tallyRecord (t : TallyAcc) (jobScope : Bool) : List Byte :=
  record [(8, t.digest), (6, t.step), (2, bit (t.poisoned ≠ 0) + 2 * bit jobScope + 4 * bit t.seen), (3, t.tensor),
    (1, t.format), (8, t.elements % 2 ^ 40), (4, t.poisoned)]

/-- Writes a record to the tally ring (R118, R119). -/
def State.writeTally (s : State) (t : TallyAcc) (jobScope : Bool) : State :=
  let c := (s.rd Reg.GLB_TALLY_HEAD).toNat
  let base := s.addrOf Reg.GLB_TALLY_BASE_LO Reg.GLB_TALLY_BASE_HI
  (s.writeB (base + 32 * (c % 2 ^ s.rf Reg.GLB_TALLY_SIZE 4 0)) (tallyRecord t jobScope)).wr Reg.GLB_TALLY_HEAD
    (BitVec.ofNat 32 (c + 1))

/-- Writes slice `n`'s part-scope records of a step, one for each tensor of the tally set (R117). -/
def State.writePartTallies (s : State) (n step : Nat) : State :=
  (s.job n).tallySet.foldl (fun s id => s.writeTally (s.tallyOf n step id) false) s

/-- The job of slice `n` drops its tallies of a step. -/
def State.dropTallies (s : State) (n step : Nat) : State :=
  s.setJob n { s.job n with tallies := (s.job n).tallies.filter (fun t => t.step ≠ step) }

end Sys2Proof.Machine
end

