-- ==== Sys2Proof/Machine/Fabric.lean ====
section
/-! DEFINITION. Rows as state: their status registers, programs and needles, the trap ring, halting and faulting, and
the end of row commands (R260 to R316). -/

namespace Sys2Proof.Machine

/-! ### Row status -/

/-- State of row `l` (R286). -/
def State.rowState (s : State) (l : Nat) : Nat := s.rf (Reg.NDL_ROW l) 3 0

def State.setRowState (s : State) (l x : Nat) : State := s.wf (Reg.NDL_ROW l) 3 0 x

/-- Kind of row `l` (R276). -/
def State.rowKind (s : State) (l : Nat) : Nat := s.rf (Reg.NDL_ROW l) 6 4

/-- Physical slot of row `l`. -/
def State.rowSlot (s : State) (l : Nat) : Nat := s.rf (Reg.NDL_ROW l) 11 8

/-- Die of row `l` (R272). -/
def rowDie (l : Nat) : Nat := l / 32

/-- Slice that owns row `l`. -/
def State.rowSlice (s : State) (l : Nat) : Nat := s.sliceOfDie (rowDie l)

/-- The rows of slice `n`. -/
def State.sliceRows (s : State) (n : Nat) : List Nat := (List.range 128).filter (fun l => s.rowSlice l = n)

def State.row (s : State) (l : Nat) : Row := fetch {} s.rows l

def State.setRow (s : State) (l : Nat) (r : Row) : State := { s with rows := store {} s.rows l r }

/-- Needle `i` of row `l`. -/
def State.needle (s : State) (l i : Nat) : Needle := fetch {} (s.row l).needles i

def Row.setNeedle (r : Row) (i : Nat) (n : Needle) : Row := { r with needles := store {} r.needles i n }

def State.setNeedle (s : State) (l i : Nat) (n : Needle) : State := s.setRow l ((s.row l).setNeedle i n)

/-- Applies `f` to every needle of a row. -/
def Row.mapNeedles (r : Row) (f : Nat → Needle → Needle) : Row :=
  (List.range 16).foldl (fun r i => r.setNeedle i (f i (fetch {} r.needles i))) r

def Row.needle (r : Row) (i : Nat) : Needle := fetch {} r.needles i

/-- Does a program run on row `l`: RUNNING or PAUSING? -/
def State.rowRuns (s : State) (l : Nat) : Bool := s.rowState l = 4 || s.rowState l = 5

/-! ### Program images (R324 to R326) -/

/-- `k` bytes at offset `o` of an image, little-endian. -/
def imgLe (m : SMap Byte) (o k : Nat) : Nat := leNat ((List.range k).map (fun i => fetch 0 m (o + i)))

/-- The bytes of an image. -/
def imgBytes (m : SMap Byte) (len : Nat) : List Byte := (List.range len).map (fun i => fetch 0 m i)

/-- An image from its bytes, without the zeros. -/
def imgOf (bs : List Byte) (o : Nat) : SMap Byte :=
  ((List.range bs.length).zip bs).filterMap (fun e => if e.2 = 0 then none else some (o + e.1, e.2))

/-- Offset and length of the code. -/
def codeOff (m : SMap Byte) : Nat := imgLe m 10 2
def codeLen (m : SMap Byte) : Nat := imgLe m 12 2

/-- Is `o` the offset of a word inside the code? -/
def inCode (m : SMap Byte) (o : Nat) : Bool := o % 4 = 0 && codeOff m ≤ o && o + 4 ≤ codeOff m + codeLen m

/-- Entry `i` of the function table. -/
def fnEntry (m : SMap Byte) (i : Nat) : Nat := imgLe m (imgLe m 14 2 + 2 * i) 2

/-- Offset of tensor table entry `t` (R325). -/
def tensorOff (m : SMap Byte) (t : Nat) : Nat := imgLe m 18 2 + 16 * t

/-- Tensor table entries. -/
def tensorCnt (m : SMap Byte) : Nat := imgLe m 20 1

/-- TENSOR_ID and ply attribute word of tensor `t`. -/
def tensorId (m : SMap Byte) (t : Nat) : Nat := imgLe m (tensorOff m t) 3
def tensorAttr (m : SMap Byte) (t : Nat) : Nat := imgLe m (tensorOff m t + 4) 4

/-- Does a table of `n` bytes at `o` lie from offset 512 to below the code? An empty table lies nowhere. -/
def tablePlaced (m : SMap Byte) (o n : Nat) : Bool := n = 0 || (512 ≤ o && o + n ≤ codeOff m)

/-- The header check of R326, without the attribute words. -/
def headerOk (m : SMap Byte) (len : Nat) : Bool :=
  let fnOff := imgLe m 14 2
  let fnCnt := imgLe m 16 2
  let streams := imgLe m 21 1
  imgLe m 0 4 = 0x4E444C50 && imgLe m 4 2 = 1 && imgLe m 7 1 = 0 &&
  codeOff m % 64 = 0 && 512 ≤ codeOff m && codeLen m % 4 = 0 && codeOff m + codeLen m ≤ len &&
  inCode m (imgLe m 8 2) && fnOff % 16 = 0 && fnCnt ≤ 1024 && tablePlaced m fnOff (2 * fnCnt) &&
  imgLe m 18 2 % 16 = 0 && tensorCnt m ≤ 64 && tablePlaced m (imgLe m 18 2) (16 * tensorCnt m) &&
  streams ≤ 4 && imgLe m 22 2 = 0 &&
  (List.range 4).all (fun i => imgLe m (27 + 4 * i) 1 = 0 && (i < streams || imgLe m (24 + 4 * i) 4 = 0)) &&
  imgLe m 168 88 = 0 && imgLe m 256 2 = 0 &&
  (List.range 128).all (fun c => imgLe m (256 + 2 * c) 2 = 0 || inCode m (imgLe m (256 + 2 * c) 2)) &&
  (List.range fnCnt).all (fun i => fnEntry m i = 0 || inCode m (fnEntry m i)) &&
  (List.range (tensorCnt m)).all (fun t => imgLe m (tensorOff m t + 3) 1 = 0 && imgLe m (tensorOff m t + 13) 3 = 0)

/-- The status of an image's header (R326): malformed, a bad attribute word (R188), or none. -/
def rowHeaderStatus (m : SMap Byte) (len : Nat) : Nat :=
  if !headerOk m len then 0x0170
  else ((List.range (tensorCnt m)).map (fun t => attrStatus (tensorAttr m t))).find? (fun st => st ≠ 0) |>.getD 0

/-! ### Segments (R332, R333) -/

def segBase (w : Nat) : Nat := bitsOf w 39 0
def segMode (w : Nat) : Nat := bitsOf w 41 40
def segRb (w : Nat) : Nat := bitsOf w 46 42
def segLimit (w : Nat) : Nat := bitsOf w 103 64
def segWr (w : Nat) : Bool := bitOf w 104

/-- Does the 128-bit value `w` pass the checks of SSET on a needle of die `d` (R333)? -/
def State.segOk (s : State) (d w : Nat) : Bool :=
  bitsOf w 63 47 = 0 && bitsOf w 127 105 = 0 && bitsOf w 4 0 = 0 && segMode w ≠ 3 &&
  (if segMode w = 2 then 1 ≤ segRb w && segRb w ≤ 24 else segRb w = 0) &&
  segBase w + segLimit w ≤ 2 ^ 40 && s.segReach d (segBase w) (segLimit w)

/-- The initial value of segment register `k` in an image's header. -/
def headerSeg (m : SMap Byte) (k : Nat) : Nat := imgLe m (40 + 16 * k) 16

/-- A needle's state at START (R327). -/
def startNeedle (m : SMap Byte) (l i : Nat) : Needle :=
  { g := (store 0 (store 0 (store 0 [] 1 i) 2 l) 31 (segLimit (headerSeg m 7))),
    seg := (List.range 8).foldl (fun sg k => store 0 sg k (headerSeg m k)) [],
    pc := imgLe m 8 2 }

/-! ### Trap records (R304 to R309) -/

/-- A trap record without its phase (R308). -/
def State.trapRecord (s : State) (l i : Nat) (rowFault : Bool) (cause pc addr : Nat) : List Byte :=
  let n := s.rowSlice l
  record [(2, l), (1, if rowFault then 16 else i), (1, cause), (2, pc), (2, 0), (8, addr % 2 ^ 40), (6, s.stepCtr n),
    (1, n), (1, 0)] ++ fitBytes 4 (s.row l).digest ++ leBytes 3 0

/-- Writes a trap record, or counts it lost when the ring holds 256 unconsumed ones (R307, R308); Spindle reports a
written record to the slice (R309). -/
def State.writeTrap (s : State) (l i : Nat) (rowFault : Bool) (cause pc addr : Nat) : State :=
  let c := (s.rd Reg.NDL_TRAP_COUNT).toNat
  if aheadMod 32 (s.rd Reg.NDL_TRAP_TAIL).toNat c = 256 then (s.count Ctr.NDL_TRAP_LOST).event Reg.NDL_EVT 4
  else
    let r := s.trapRecord l i rowFault cause pc addr
    let a := s.addrOf Reg.NDL_TRAP_BASE_LO Reg.NDL_TRAP_BASE_HI + 32 * (c % 256)
    let s := s.writeB a (r ++ leBytes 1 (if c / 256 % 2 = 0 then 1 else 0))
    let s := s.wr Reg.NDL_TRAP_COUNT (BitVec.ofNat 32 (c + 1))
    s.report (s.rowSlice l) 1 (if cause = 0x80 ∨ cause = 0x81 then 0x0561 else if cause = 0x82 then 0x0560 else 0) s.now (r.take 15)

/-! ### Row commands in progress (R291) -/

def State.rowCmd (s : State) (n : Nat) : Option RowCmd := fetch none s.rowCmds n

def State.setRowCmd (s : State) (n : Nat) (c : Option RowCmd) : State := { s with rowCmds := store none s.rowCmds n c }

/-- The status register of command set `n` shows the end of a command. -/
def State.rowCmdEnd (s : State) (n st row : Nat) : State :=
  s.wr (Reg.NDL_STAT n) (setField (setField 0 22 16 row) 15 0 st)

/-- Slice `n`'s state, and its last status (R740). -/
def State.sliceState (s : State) (n : Nat) : Nat := s.rf (Reg.HOST_S_STAT n) 3 0

def State.setSliceState (s : State) (n st : Nat) : State := s.wf (Reg.HOST_S_STAT n) 3 0 st

/-- The end of a slice command with status `st`. -/
def State.sliceCmdEnd (s : State) (n st : Nat) : State :=
  let s := s.wr (Reg.HOST_S_ERR n) (BitVec.ofNat 32 st)
  (s.wf (Reg.HOST_S_STAT n) 15 4 (st / 16)).wf (Reg.HOST_S_STAT n) 31 31 0

/-- Row `l` has finished its part of the command in progress on it, with status `st` (0 for success): the command
completes when every target row has (R285, R298). -/
def State.rowDone (s : State) (l st : Nat) : State :=
  let r := s.row l
  match r.owner with
  | none => s
  | some n =>
    let s := s.setRow l { r with owner := none }
    match s.rowCmd n with
    | none => s
    | some c =>
      let c := { c with rows := c.rows.erase l, status := if c.status = 0 then st else c.status,
                        row := if c.status = 0 ∧ st ≠ 0 then l else c.row }
      if c.rows = [] ∧ n < 5 then (s.setRowCmd n none).rowCmdEnd n c.status c.row
      else s.setRowCmd n (some c)

/-! ### Halting and faulting -/

/-- Row `l` enters TRAPPED: every needle halts (R304), and a PAUSE in progress on it ends with 0x0263 (R297). -/
def State.rowTrapped (s : State) (l i cause pc addr : Nat) : State :=
  let r := (s.row l).mapNeedles (fun _ n => { n with wait := if n.wait = .ended then .ended else .halted })
  let s := ((s.setRow l r).setRowState l 7).writeTrap l i false cause pc addr
  ((s.count Ctr.NDL_TRAP).event Reg.NDL_EVT 0).rowDone l 0x0263

/-- Row `l` enters FAULT with `cause` (R305); a LOAD in progress on it ends with 0x0560, another command with 0x0561. -/
def State.rowFault (s : State) (l cause : Nat) : State :=
  let s := (s.setRowState l 0xA).writeTrap l 0 true cause 0 0
  ((s.count Ctr.NDL_FAULT).event Reg.NDL_EVT 1).rowDone l (if cause = 0x82 then 0x0560 else 0x0561)

/-- A row's program, registers and scratch are gone, as after a slice reset or SAVE (R300, R315). -/
def State.rowCleared (s : State) (l : Nat) : State :=
  (s.setRow l { owner := (s.row l).owner }).setRowState l 1

/-- Does row `l`'s slice serve an open job that the row's kind gives work to? -/
def State.rowServesJob (s : State) (l : Nat) : Bool := (s.job (s.rowSlice l)).isOpen && s.rowKind l ≠ 0

/-! ### The defect ledger (R847 to R850) -/

def LedgerEntry.bytes (e : LedgerEntry) : List Byte :=
  record [(1, e.kind), (1, e.die), (1, e.unit), (1, e.sub), (4, e.addr), (4, e.boot), (1, e.source), (3, 0)]

/-- Is physical slot `k` of panel `p` of die `d` in the ledger? -/
def State.slotDead (s : State) (d p k : Nat) : Bool :=
  (s.ledger ++ s.ledgerHeld).any (fun e => e.kind = 1 && e.die = d && e.unit = p && e.sub = k)

/-- Enters `e` in the ledger, or holds it when the ledger is full (R850). -/
def State.ledgerAdd (s : State) (e : LedgerEntry) : State :=
  if s.ledger.length < 4096 then
    ({ s with ledger := s.ledger ++ [e] }.count Ctr.CAST_LEDGER_ADD).event Reg.CAST_EVT 0
  else { s with ledgerHeld := s.ledgerHeld ++ [e] }.event Reg.CAST_EVT 4

/-- Rows of a panel on this variant (R271). -/
def State.panelRows (s : State) : Nat := if s.variant = 2 then 7 else 8

/-- The slots that the rows of panel `p` of die `d` stand in. -/
def State.usedSlots (s : State) (d p : Nat) : List Nat :=
  (List.range s.panelRows).map (fun r => s.rowSlot (32 * d + 8 * p + r))

/-- Gives row `l` slot `k`, in its status and in the panel map; 0xF when none holds it. -/
def State.mapRow (s : State) (l k : Nat) : State :=
  let s := s.wf (Reg.NDL_ROW l) 11 8 k
  s.wf (Reg.NDL_MAP (l / 8)) (4 * (l % 8) + 3) (4 * (l % 8)) k

/-- RETIRE of row `l` (R311, R312): the slot enters the ledger, and the row moves to the lowest working unmapped slot of
its panel, or is ABSENT. The result says whether it found one. -/
def State.retireRow (s : State) (l : Nat) : State × Bool :=
  let d := rowDie l
  let p := l % 32 / 8
  let s := s.ledgerAdd ⟨1, d, p, s.rowSlot l, 0, s.rf Reg.CAST_BOOT 31 0, 2⟩
  let s := (s.count Ctr.NDL_RETIRE).event Reg.NDL_EVT 5
  match (List.range 9).find? (fun k => !s.slotDead d p k && !(s.usedSlots d p).contains k) with
  | some k =>
    let s := (s.rowCleared l).mapRow l k
    (s.report (s.rowSlice l) 7 0 s.now (leBytes 1 l ++ leBytes 1 k), true)
  | none => (((s.rowCleared l).setRowState l 0).mapRow l 0xF, false)

end Sys2Proof.Machine
end

