-- ==== Sys2Proof/Machine/Trust.lean ====
section
/-! DEFINITION. Distaff (file 14): random draws, identity keys, signatures, measurements and evidence. -/

namespace Sys2Proof.Machine

def State.setTrust (s : State) (t : Trust) : State := { s with trust := t }

/-- Life-cycle state (R63): 0 BLANK, 1 PROVISIONED, 2 DEPLOYED, 3 DECOMMISSIONED. -/
def State.lc (s : State) : Nat := s.rf Reg.TRUST_LC 1 0

/-- The part's UID. -/
def State.uid (s : State) : Nat := s.rd64 Reg.TRUST_UID_LO Reg.TRUST_UID_HI

/-! ### The generator (R777) -/

/-- `k` bytes drawn from the generator. -/
def State.draw (s : State) (k : Nat) : List Byte := leBytes k (s.freeBits (8 * k))

/-- A draw has been made. -/
def State.drew (s : State) : State := s.useFree.setTrust { s.trust with draws := s.trust.draws + 1 }

/-! ### Identity and signatures (R783 to R786) -/

/-- The bytes that a signing context prepends (R784). -/
def signContext (name : String) : List Byte := asciiBytes name ++ [0]

/-- A measurement entry of 40 bytes (R789). -/
def Measure.bytes (m : Measure) : List Byte := record [(1, m.index), (1, m.type), (2, m.svn), (4, 0)] ++ fitBytes 32 m.digest

/-- M, the digest of the running entries 1 to 5 (R783). -/
def State.measureDigest (s : State) : List Byte := sha3x256 (s.trust.running.flatMap Measure.bytes)

/-- A seed derived from the device secret (R783). -/
def State.seedFor (s : State) (x : List Byte) (name : String) : List Byte := kmac256 s.trust.secret x 32 (asciiBytes name)

/-- Public keys of a derived pair: Ed25519, then ML-DSA-65. -/
def State.pairKeys (s : State) (x : List Byte) (ed ml : String) : List Byte :=
  fitBytes 32 (Config.edPublic (s.seedFor x ed)) ++ fitBytes 1952 (Config.mlPublic (s.seedFor x ml))

/-- The alias keys and the device keys of this part (R783). -/
def State.aliasKey (s : State) : List Byte := s.pairKeys s.measureDigest "MZ-ALIAS-ED" "MZ-ALIAS-ML"
def State.deviceKey (s : State) : List Byte := s.pairKeys (leBytes 8 s.uid) "MZ-DEVID-ED" "MZ-DEVID-ML"

/-- The two signatures of `body` under a context by the holder of `key`. -/
def dualSign (key : List Byte) (context : String) (body : List Byte) : List Byte :=
  fitBytes 64 (Config.signEd key (signContext context ++ body)) ++ fitBytes 3309 (Config.signMl key (signContext context ++ body))

/-- Do both signatures of `body` verify (R786)? -/
def dualOk (key : List Byte) (context : String) (body ed ml : List Byte) : Bool :=
  let a := Config.verifyEd key (signContext context ++ body) ed
  let b := Config.verifyMl key (signContext context ++ body) ml
  a && b

/-- An identity certificate (R783) of `kind` for the keys `key`, signed by the keys `issuer`. -/
def idCert (kind subject : Nat) (issuer key : List Byte) (boot : Nat) (meas : List Byte) : List Byte :=
  let body := record [(4, 0x43495A4D), (2, 1), (1, kind), (1, 0), (8, subject)] ++ fitBytes 32 (sha3x256 (fitBytes 1984 issuer)) ++
    record [(4, boot), (12, 0)] ++ fitBytes 1984 key ++ fitBytes 32 meas
  body ++ dualSign issuer "MZ-ID-CERT" body ++ [0, 0, 0]

/-- The alias certificate that Distaff signs with the device keys (R783). -/
def State.aliasCert (s : State) : List Byte :=
  idCert 3 s.uid s.deviceKey s.aliasKey (s.rd Reg.CAST_BOOT).toNat s.measureDigest

/-- A dual-signed object is rejected (R822). -/
def State.sigFail (s : State) : State := (s.count Ctr.TRUST_SIG_FAIL).event Reg.TRUST_EVT 1

/-! ### Evidence (R787 to R789) -/

/-- Slices in reset. -/
def State.resetMask (s : State) : Nat := ((List.range 4).map (fun n => if s.hasSlice n && s.sliceState n = 6 then 2 ^ n else 0)).sum

/-- Does a Spindle core restart? -/
def State.coreRestarting (s : State) : Bool := (List.range 8).any (fun c => s.rf Reg.SPN_CORE (4 * c + 3) (4 * c) = 2)

/-- A firmware image is staged or activating, and a Pattern is. -/
def State.firmwareStaged (s : State) : Bool := s.trust.staged.any (fun m => m.index ≠ 20)
def State.patternStaged (s : State) : Bool := s.trust.staged.any (fun m => m.index = 20)

/-- Evidence state and REASON of a scope: a slice, or the part for none (R787, R789). A warm reset is taken in the step that
arms it, and with it an accepted life-cycle token, so that neither is ever seen in a block. -/
def State.evidence (s : State) (scope : Option Nat) : Nat × Nat :=
  let reset : Bool := match scope with
    | none => s.resetMask ≠ 0
    | some n => s.sliceState n = 6
  if s.partState = 3 then (2, 5)
  else if reset then (2, 3)
  else if scope.isNone ∧ s.coreRestarting then (2, 4)
  else if s.firmwareStaged then (1, 1)
  else if s.patternStaged then (1, 2)
  else (0, 0)

/-- Release sessions of slices whose evidence has left STABLE end (R796), TRUST_STATE shows the evidence state, and a change
of the part's is an event. -/
def State.evidenceSync (s : State) : State :=
  let e := s.evidence none
  let old := s.rd Reg.TRUST_STATE
  let pins := (s.trust.pinned.map (fun n => 2 ^ n)).sum
  let seen := fieldOf old 16 16
  let w := e.1 + 16 * e.2 + 2 ^ 8 * s.resetMask + 2 ^ 12 * pins + 2 ^ 16 * seen
  let t := s.trust
  let sessions := (List.range 4).foldl (fun m n => if (s.evidence (some n)).1 = 0 then m else store none m n none) t.sessions
  let s := (s.setTrust { t with sessions }).wr Reg.TRUST_STATE (BitVec.ofNat 32 w)
  if fieldOf old 1 0 = e.1 then s else s.event Reg.TRUST_EVT 3

/-- The evidence block for a scope, nonce and key binding (R789). -/
def State.evidenceBlock (s : State) (scope : Option Nat) (nonce bind : List Byte) : List Byte :=
  let e := s.evidence scope
  let ms := s.trust.running ++ s.trust.staged
  let body := record [(4, 0x56455A4D), (2, 1), (1, e.1), (1, s.lc), (8, s.uid), (2, (s.rd Reg.GLB_PART_ID).toNat % 65536), (1, s.variant), (1, e.2),
      (1, scope.getD 0xFF), (1, if scope.isNone then s.resetMask else 0), (1, s.trust.running.length + 16 * s.trust.staged.length),
      (1, s.rf Reg.TRUST_STATE 16 16), (4, (s.rd Reg.CAST_BOOT).toNat), (4, 0)] ++
    fitBytes 32 nonce ++ fitBytes 32 bind ++ leBytes 8 s.now ++ List.replicate 24 0 ++ fitBytes 640 (ms.flatMap Measure.bytes)
  body ++ dualSign s.aliasKey "MZ-EVIDENCE" body ++ [0, 0, 0]

/-! ### Keys (R799, R800, R814) -/

def State.cipher (s : State) (i : Nat) : Cipher := fetch {} s.ciphers i

def State.setCipher (s : State) (i : Nat) (c : Cipher) : State := { s with ciphers := store {} s.ciphers i c }

/-- TRUST_Sn_STAT shows what the slice holds (R799, R800). -/
def State.trustShow (s : State) (n : Nat) : State :=
  let k := (s.trust.weights.filter (fun w => w.slice = n)).length
  (s.wf (Reg.TRUST_STAT n) 30 30 (bit (s.trust.pinned.contains n))).wf (Reg.TRUST_STAT n) 23 16 k

/-- A slice reset erases the slice's wide channels, weight keys, grants and release session. -/
def State.trustSliceErase (s : State) (n : Nat) : State :=
  let t := s.trust
  let k := 1024 / s.sliceCount
  let s := s.setTrust { t with sessions := store none t.sessions n none, weights := t.weights.filter (fun w => w.slice ≠ n),
                               pinned := t.pinned.filter (fun m => m ≠ n) }
  { s with ciphers := s.ciphers.filterMap (fun e => if e.1 / k = n then (if e.2.gen = 0 then none else some (e.1, ({ gen := e.2.gen } : Cipher)))
    else some e) }

/-- An alarm erases every key of every wide and narrow channel and every live release session (R814). -/
def State.alarmErase (s : State) : State :=
  let s := s.setTrust { s.trust with sessions := [], narrow := [] }
  { s with ciphers := s.ciphers.filterMap (fun e => if e.2.gen = 0 then none else some (e.1, ({ gen := e.2.gen } : Cipher))) }

/-- A flag of TRUST_ALARM stands (R816). -/
def State.alarmSet (s : State) : Bool := s.rf Reg.TRUST_ALARM 5 0 ≠ 0

end Sys2Proof.Machine
end

