-- ==== Sys2Proof/Machine/Update.lean ====
section
/-! DEFINITION. Spindle's cores (R855), and how a step boundary bears on a committed Spindle image (R872 to R874). -/

namespace Sys2Proof.Machine

/-- Spindle core `c` restarts or is HALTED. -/
def State.coreAway (s : State) (c : Nat) : Bool := 2 ≤ s.rf Reg.SPN_CORE (4 * c + 3) (4 * c)

def State.setCast (s : State) (c : Cast) : State := { s with cast := c }

def State.setPwr (s : State) (p : Pwr) : State := { s with pwr := p }

/-- PHASE of SPN_FW_STAT. -/
def State.fwPhase (s : State) (x : Nat) : State := s.wf Reg.SPN_FW_STAT 27 24 x

/-- A cause of R873 holds now: HOT_N, a limit that lowers VCORE or gates, TRIP_N, a VOLT or TEMP alarm. -/
def State.throttleCause (s : State) : Bool :=
  s.pwr.hot || s.pwr.tripLow || s.rf Reg.PWR_STAT 21 16 ≠ 0 || s.rf Reg.TRUST_ALARM 1 0 ≠ 0

/-- A Spindle image's restarts must wait (R873). -/
def State.fwBlocked (s : State) : Bool :=
  s.throttleCause || s.pwr.badAt.any (fun b => s.now < b + 10000000000) ||
    (List.range 4).any (fun n => (s.job n).isOpen && [2, 3, 6].contains (s.job n).memb)

/-- Every slice that exists. -/
def State.slices (s : State) : List Nat := List.range s.sliceCount

/-- A committed image waits under R873: DEFERRED, and a FIRMWARE report to each slice (R874). -/
def State.fwDefer (s : State) : State :=
  if s.rf Reg.SPN_FW_STAT 27 24 = 7 then s
  else
    let s := (s.fwPhase 7).event Reg.SPN_EVT 4
    s.slices.foldl (fun s n => s.report n 6 0 s.now [2, 7]) s

/-- A committed Spindle image may take effect now, or is deferred (R872, R873). -/
def State.fwTry (s : State) : State := if s.fwBlocked then s.fwDefer else (s.setCast { s.cast with go := true }).fwPhase 6

/-- Step boundary `k` of a job (R872). -/
def State.fwBoundary (s : State) (k : Nat) : State :=
  if s.cast.commit.any (fun b => b ≤ k) && !s.cast.go then s.fwTry else s

end Sys2Proof.Machine
end

