-- ==== Sys2Proof/Machine/Image.lean ====
section
/-! DEFINITION. Firmware images and Patterns: their verification (R839 to R841), the checks of a Pattern (R845), the flash
directory (R838), and the measurement list (R787). -/

namespace Sys2Proof.Machine

/-! ### Images (R839 to R841) -/

/-- Fused capacity of SVN counts, by kind (R834). -/
def svnCap (kind : Nat) : Nat := [0, 16, 32, 16].getD kind 0

/-- Bytes of a slot, by kind (R837). -/
def slotBytes (kind : Nat) : Nat := [0, 0x200000, 0x1000000, 0x2000000].getD kind 0

/-- Bytes of an image with its certificate area. -/
def imageLength (i : SlotImage) : Nat := i.cert.length + i.header.length + i.table.length + i.body.length

def imageSvn (i : SlotImage) : Nat := leAt i.header 8 4

/-- The 64 KiB chunks of a body (R839). -/
def bodyChunks : Nat → List Byte → List (List Byte)
  | 0, _ => []
  | _, [] => []
  | k + 1, b :: bs => (b :: bs).take 65536 :: bodyChunks k ((b :: bs).drop 65536)

def imageChunks (i : SlotImage) : List (List Byte) := bodyChunks (i.body.length / 65536 + 1) i.body

/-- Are bytes `[a, b)` zero? -/
def zeroAt (bs : List Byte) (a b : Nat) : Bool := ((bs.drop a).take (b - a)).all (fun x => x = 0)

/-- Form, KIND, VARIANTS and SVN range of a header (step 1 of R841). -/
def State.headerForm (s : State) (kind : Nat) (h : List Byte) : Bool :=
  let vs := byteAt h 48
  1 ≤ kind && kind ≤ 3 && h.length = 4096 && leAt h 0 4 = 0x474D495A && leAt h 4 2 = 1 && byteAt h 6 = kind &&
  leAt h 8 4 ≤ svnCap kind && byteAt h 49 < 2 && zeroAt h 50 56 && zeroAt h 64 256 && zeroAt h 3629 4096 &&
  (if kind = 3 then [1, 2, 4, 8, 16, 32, 64, 128].contains vs else bitOf vs s.variant && zeroAt h 56 64)

/-- The keys of a certificate: Ed25519, then ML-DSA-65. -/
def certKeys (c : List Byte) : List Byte := (c.drop 64).take 1984

/-- Is the signer's certificate good (step 2 of R841): PRODUCT under the root in ROM, or OWNER under its own keys? -/
def certOk (c : List Byte) : Bool :=
  let k := byteAt c 6
  leAt c 0 4 = 0x43495A4D && leAt c 4 2 = 1 && (k = 1 || k = 4) &&
  dualOk (if k = 1 then fitBytes 1984 Config.rootKeys else certKeys c) "MZ-ID-CERT" (c.take 2080) ((c.drop 2080).take 64) ((c.drop 2144).take 3309)

/-- May the holder of certificate `c` sign a header of `kind` in this life-cycle state (R840)? -/
def State.signerOk (s : State) (kind : Nat) (c h : List Byte) : Bool :=
  let owner := byteAt c 6 = 4
  (bitOf (byteAt h 49) 0 == owner) &&
  (if kind = 3 ∧ s.lc = 2 then owner && sha3x256 (certKeys c) == fitBytes 32 s.trust.ownerHash else !owner && (kind ≠ 3 || s.lc < 2))

/-- Steps 1 to 5 of R841 on a certificate and header: the status, 0 for none. -/
def State.headerStatus (s : State) (kind : Nat) (c h : List Byte) : Nat :=
  let context := if kind = 3 then "MZ-PATTERN" else "MZ-FW-IMAGE"
  if !s.headerForm kind h then 0x0112
  else if !(certOk c && dualOk (certKeys c) context (h.take 256) ((h.drop 256).take 64) ((h.drop 320).take 3309)) then 0x0401
  else if !s.signerOk kind c h then 0x0411
  else if byteAt h 7 ≠ s.rf Reg.GLB_CONTRACT 7 0 then 0x0231
  else if leAt h 8 4 < s.fuses.svns.getD (kind - 1) 0 then 0x0410
  else 0

/-- Does the chunk table match TABLE_DIGEST, and every chunk its entry (step 6 of R841)? -/
def imageBodyOk (i : SlotImage) : Bool :=
  sha3x256 i.table == (i.header.drop 16).take 32 && i.body.length = leAt i.header 12 4 && ((imageChunks i).flatMap sha3x256) == i.table

/-- The verification of an image (R841): the status of its first failure, 0 for none. -/
def State.imageStatus (s : State) (kind : Nat) (i : SlotImage) : Nat :=
  let st := s.headerStatus kind i.cert i.header
  if st ≠ 0 then st else if (imageBodyOk i) then 0 else 0x0401

/-- The measured digest of an image. -/
def imageDigest (i : SlotImage) : List Byte := sha3x256 (i.header ++ i.table ++ i.body)

/-- Its table's digest, which names it (R869). -/
def imageTableDigest (i : SlotImage) : List Byte := (i.header.drop 16).take 32

/-! ### Patterns (R845) -/

/-- The link that the fuses turn off (R834, R908). -/
def State.linkOff (s : State) (n : Nat) : Bool := s.variant = 2 && 8 ≤ n % 12

/-- The mode that a Pattern gives link `n`: DISABLED where it names none, and for a link fused off (R835). -/
def State.patMode (s : State) (p : Pattern) (n : Nat) : Nat :=
  if s.linkOff n then 0 else ((p.links.find? (fun l => l.link = n)).map (fun l => l.mode)).getD 0

/-- A register word that a Pattern loads. -/
def patReg (p : Pattern) (a : Nat) : Word := BitVec.ofNat 32 (((p.regs.find? (fun e => e.1 = a)).map (fun e => e.2)).getD 0)

/-- Partitions under R402. -/
def State.partsOk (s : State) (p : Pattern) : Bool :=
  (List.range 4).all (fun d =>
    let w := p.parts.getD d 0
    bitsOf w 7 0 + bitsOf w 15 8 + bitsOf w 23 16 + bitsOf w 31 24 = s.stacksOf d * 36 && bitsOf w 15 8 = bitsOf w 7 0 && 1 ≤ bitsOf w 31 24)

/-- The beat under R90 and R100. -/
def patBeatStatus (p : Pattern) : Nat :=
  if !p.beatOn then 0
  else if p.beatPeriod < 1000 ∨ 10000000 < p.beatPeriod then 0x0131
  else if p.beatWidth < 1 ∨ 1000 < p.beatWidth ∨ p.beatPeriod < 8 * p.beatWidth then 0x0132
  else 0

/-- Reserved fields, waits and maps (R845). -/
def patFormOk (p : Pattern) : Bool :=
  100 ≤ p.topoWait && p.topoWait ≤ 4000 && !p.reserved && p.watch.length ≤ 8 &&
  p.buddies.all (fun b => b.part ≠ p.partId || b.slice < p.slices) &&
  p.links.all (fun l => l.link < 96 && l.mode < 3 && l.fec < 2 && (l.mode ≠ 2 || l.link % 12 < 4))

/-- The status of the links an entry names, by the modes that the Pattern gives them (R634). -/
def State.patLinks (s : State) (p : Pattern) (links : List Nat) : Nat := if links.any (fun l => s.patMode p l ≠ 1) then 0x01C1 else 0

/-- Route, endpoint and group entries under R634. -/
def State.patEntry (s : State) (p : Pattern) (a : Nat) : Nat :=
  let pair (endpoint : Bool) (lo : Nat) : Nat :=
    let links := entryLinks (patReg p lo)
    if 2 ≤ fieldOf (patReg p (lo + 4)) 1 0 ∨ links.any (fun l => 96 ≤ l) then 0x01C0
    else if s.patLinks p links ≠ 0 then 0x01C1
    else if endpoint && links.any (fun l => l / 24 ≠ links.headD 0 / 24) then 0x01C2
    else 0
  if Reg.SWT_EP_LO 0 ≤ a ∧ a < Reg.SWT_EP_LO 48 then pair true (a / 8 * 8)
  else if Reg.SWT_RT_LO 0 ≤ a ∧ a < Reg.SWT_RT_LO 16384 then pair false (a / 8 * 8)
  else if Reg.SWT_MC 0 0 ≤ a ∧ a < Reg.SWT_MC 4096 0 then
    let g := (a - Reg.SWT_MC 0 0) / 32
    s.patLinks p ((List.range 96).filter (fun l => bitOf (patReg p (Reg.SWT_MC g (l / 32))).toNat (l % 32)))
  else 0

/-- Rows of a die that take trigger counters (R484). -/
def patTrigRows (p : Pattern) (d : Nat) : Nat :=
  ((List.range 32).filter (fun i => [2, 4].contains (p.rowKinds.getD (32 * d + i) 0))).length

/-- Does every Carder counter lie in the share of its slice (R484)? -/
def patTrigOk (p : Pattern) : Bool :=
  let dies := 4 / p.slices
  (List.range 4).all (fun d => patTrigRows p d = 0 || p.trigBase + 32 * (d % dies) + patTrigRows p d ≤ 16384 / p.slices)

/-- The first check of R845 that a Pattern fails, as its status; 0 for none. `variants` is VARIANTS of its header. -/
def State.patternStatus (s : State) (variants : Nat) (p : Pattern) : Nat :=
  if !bitOf variants s.variant ∨ !([1, 2, 4].contains p.slices) ∨ (s.variant = 1 ∧ p.slices ≠ 1) then 0x0111
  else if !s.partsOk p then 0x0180
  else if (patBeatStatus p) ≠ 0 then (patBeatStatus p)
  else if p.tallyLog2 < 16 ∨ 24 < p.tallyLog2 ∨ p.logLog2 < 14 ∨ 24 < p.logLog2 then 0x0110
  else if !(patFormOk p) then 0x0110
  else
    match (p.regs.map (fun e => s.patEntry p e.1)).find? (fun st => st ≠ 0) with
    | some st => st
    | none =>
      if p.rowKinds.any (fun k => 5 ≤ k) then 0x0165
      else if !(patTrigOk p) then 0x01A5
      else if (List.range 32).any (fun i => fieldOf (patReg p (Reg.ETH_P_CFG i)) 1 0 = 3) then 0x01E0
      else if bitsOf p.vcfg 9 0 < 700 ∨ 800 < bitsOf p.vcfg 9 0 ∨ bitsOf p.vcfg 25 16 < 650 ∨ bitsOf p.vcfg 9 0 < bitsOf p.vcfg 25 16 then 0x0100
      else if p.tbSrc % 4 = 3 then 0x0100
      else 0

/-! ### The flash directory (R838) -/

/-- The directory copy in force. -/
def Flash.word (f : Flash) : Nat := (if f.cur = 0 then f.dirA else f.dirB).2

/-- A new directory goes into the other copy, with the next sequence number, and is in force once written. -/
def Flash.write (f : Flash) (w : Nat) : Flash :=
  if f.cur = 0 then { f with dirB := (f.dirA.1 + 1, w), cur := 1 } else { f with dirA := (f.dirB.1 + 1, w), cur := 0 }

def State.setFlash (s : State) (f : Flash) : State := { s with flash := f }

/-- Directory fields of `kind` as SPN_FW_DIR holds them: the active slot, and the other slot's state. -/
def State.dirActive (s : State) (kind : Nat) : Nat := s.rf Reg.SPN_FW_DIR (8 * kind) (8 * kind)
def State.dirOther (s : State) (kind : Nat) : Nat := s.rf Reg.SPN_FW_DIR (8 * kind + 3) (8 * kind + 2)

/-- Spindle writes the directory with the active slot and the other slot's state of `kind`. -/
def State.dirWrite (s : State) (kind active other : Nat) : State :=
  let s := (s.wf Reg.SPN_FW_DIR (8 * kind) (8 * kind) active).wf Reg.SPN_FW_DIR (8 * kind + 3) (8 * kind + 2) other
  s.setFlash (s.flash.write (s.rd Reg.SPN_FW_DIR).toNat)

/-- The image that waits in the other slot of `kind`. -/
def State.stagedImage (s : State) (kind : Nat) : Option SlotImage := fetch none s.flash.staged kind

def State.setStaged (s : State) (kind : Nat) (i : Option SlotImage) : State :=
  s.setFlash { s.flash with staged := store none s.flash.staged kind i }

/-! ### Measurements (R787, R789) -/

/-- The measurement of a firmware image of `kind` at list index `i`. -/
def imageMeasure (i kind svn : Nat) (digest : List Byte) : Measure := ⟨i, if kind = 3 then 3 else 1, svn, digest⟩

/-- Measurements 1 to 5 of what runs. -/
def State.measureAll (s : State) : State :=
  let m (k : Nat) : Measure := let r := fetch (0, []) s.cast.run k; imageMeasure (k + 1) k r.1 r.2
  let cfg := Config.configBytes s.variant s.lc s.fuses.releases s.trust.ownerHash s.fuses.svns
    (if s.pat.slices = 0 then 1 else s.pat.slices)
  s.setTrust { s.trust with running := [⟨1, 0, 0, Config.romDigest⟩, m 1, m 2, m 3, ⟨5, 2, 0, sha3x256 cfg⟩] }

/-- The pending entries: one for each image that waits for activation. -/
def State.measureStaged (s : State) : State :=
  let staged := [1, 2, 3].filterMap (fun k => (s.stagedImage k).map (fun i => imageMeasure (17 + k) k (imageSvn i) (imageDigest i)))
  (s.setTrust { s.trust with staged }).evidenceSync

/-- An image of `kind` is the one that runs. -/
def State.runImage (s : State) (kind : Nat) (i : SlotImage) : State :=
  s.setCast { s.cast with run := store (0, []) s.cast.run kind ((imageSvn i), (imageDigest i)) }

/-- The fused SVN count of `kind` rises to that of the image that runs (R843). -/
def State.svnBurn (s : State) (kind : Nat) : State :=
  let v := (fetch (0, []) s.cast.run kind).1
  if v ≤ s.fuses.svns.getD (kind - 1) 0 then s
  else
    let s := { s with fuses := { s.fuses with svns := s.fuses.svns.set (kind - 1) v } }
    let lo := [0, 0, 8, 16].getD kind 0
    s.wf Reg.CAST_SVN (lo + 5) lo v

end Sys2Proof.Machine
end

