-- ==== Sys2Proof/Machine/Trigger.lean ====
section
/-! DEFINITION. Trigger counters (R655, R656), the notify tables they fire (R738, R739) and MSI-X. -/

namespace Sys2Proof.Machine

/-- The key of an MSI-X vector. -/
def msixKey (port fn vec : Nat) : Nat := (port * 4 + fn) * 4096 + vec

/-- MSI-X is enabled on a function, and the function not masked. -/
def State.msixUp (s : State) (port fn : Nat) : Bool := fetch 0 s.msixOn (4 * port + fn) == 2

/-- Sends an MSI-X vector, or sets its Pending bit while it is masked or MSI-X disabled (R739). -/
def State.msix (s : State) (port fn vec : Nat) : State :=
  if s.msixUp port fn && fetch false s.msixOpen (msixKey port fn vec) then s.emit (.msix port fn vec)
  else { s with msixPending := store false s.msixPending (msixKey port fn vec) true }

/-- An error of function `fn` of `port` sets bit `i` of its AER status: the correctable one, or the other (R753). -/
def State.aerError (s : State) (port fn i : Nat) (corr : Bool) : State :=
  { s with host := { s.host with aer := modifyAt 0 s.host.aer (8 * port + 2 * fn + bit corr) (fun w => w ||| 2 ^ i) } }

/-- A request to PF1 of `port` is refused (R727, R729): counted, and reported under AER as an Unsupported Request. -/
def State.urRefuse (s : State) (port : Nat) : State :=
  ((s.count (Ctr.HOST_P_UR port)).event Reg.HOST_EVT 2).aerError port 1 20 false

/-- Is port `p` in HOST_LOST (R748)? -/
def State.hostLost (s : State) (p : Nat) : Bool := s.rf (Reg.HOST_P_STAT p) 1 0 = 2

/-- Part index of slice `n`'s share-relative trigger counter `c` (R636). -/
def State.ctrIdx (s : State) (n c : Nat) : Nat := s.shareIdx n 16384 c

/-- Is `c` inside a slice's share of trigger counters? -/
def State.ctrInShare (s : State) (c : Nat) : Bool := c < s.shareSize 16384

/-- The slice that owns trigger counter `c` of the part. -/
def State.ctrSlice (s : State) (c : Nat) : Nat := c / s.shareSize 16384

/-- Fires notify entry `i` of slice `n` if it is armed and its counter has reached VALUE (R739). -/
def State.notifyCheck (s : State) (n i : Nat) : State :=
  let w := s.rd (Reg.PAGE_NOTIFY_CTL n i)
  if bitOf w.toNat 31 && s.ctrReached (s.ctrIdx n (fieldOf w 13 0)) (s.rd (Reg.PAGE_NOTIFY_VALUE n i)).toNat then
    let s := s.wf (Reg.PAGE_NOTIFY_CTL n i) 31 31 0
    let p := fieldOf w 30 30
    if s.hostLost p then s.count (Ctr.HOST_P_NOTIFY_LOST p)
    else s.msix p 1 (n * (2048 / s.sliceCount) + fieldOf w 26 16)
  else s

/-- The value of trigger counter `c` of the part changes: the notify entries that watch it are looked at (R739). -/
def State.ctrSet (s : State) (c : Nat) (v : Word) : State :=
  let n := s.ctrSlice c
  let s := s.wr (Reg.RMA_CTR_VAL c) v
  (List.range 256).foldl (fun s i =>
    if s.ctrIdx n (s.rf (Reg.PAGE_NOTIFY_CTL n i) 13 0) = c then s.notifyCheck n i else s) s

/-- An event increments trigger counter `c` of the part (R656). -/
def State.ctrBump (s : State) (c : Nat) : State := s.ctrSet c (s.rd (Reg.RMA_CTR_VAL c) + 1)

/-- An event increments slice `n`'s share-relative trigger counter, where one is named. -/
def State.ctrBumpOpt (s : State) (n : Nat) (c : Option Nat) : State :=
  match c with
  | some c => s.ctrBump (s.ctrIdx n c)
  | none => s

end Sys2Proof.Machine
end

