-- ==== Sys2Proof/Machine/Access.lean ====
section
/-! DEFINITION. Who reaches a slice's registers (R723 to R727, R749): the gate in front of every command set. -/

namespace Sys2Proof.Machine

/-- Does a page access pass the PASID check (R727)? -/
def State.pasidOk (s : State) (n : Nat) (pasid : Option Nat) : Bool :=
  match pasid with
  | none => true
  | some p => p = s.rf (Reg.HOST_S_PASID n) 19 0

/-- A write to a register of slice `n` acts as `k` when the path lets it through: PF0 and Spindle reach every slice that
exists, a doorbell page its own slice alone; a write of a host in HOST_LOST or with a foreign PASID is counted and
discarded (R727, R749), and so is one to an ABSENT slice's set. -/
def State.gated (s : State) (via : Via) (n : Nat) (k : State → State) : State :=
  match via with
  | .pf0 _ => if s.hasSlice n then k s else s
  | .spindle => if s.hasSlice n then k s else s
  | .page m port pasid =>
    if s.hostLost port then s.count (Ctr.HOST_P_DB_DROP port)
    else if !s.pasidOk m pasid then s.urRefuse port
    else if m = n ∧ s.hasSlice n then k s else s
  | .board => s
  | .msix _ _ => s
  | .config _ _ _ => s
  | .nvme _ => s

end Sys2Proof.Machine
end

