-- ==== Sys2Proof/Machine/Block.lean ====
section
/-! DEFINITION. Block images in memory and block payloads in records (R184, R206, R207, R209, R237): their sizes, their
elements, and the writing of bytes with their own poison marks. -/

namespace Sys2Proof.Machine

/-- One element of a block: its stored bits, or its ply words; the scale byte of its MX block; its poison mark. -/
structure BElem where
  words : List Nat
  scale : Nat := 0
  pz : Bool := false
  deriving DecidableEq, Repr

/-! ### Sizes -/

/-- Bytes of the scale bytes of `n` elements (R206, R209). -/
def scaleBytes (code n : Nat) : Nat := if isMx code then (n + 31) / 32 else 0

/-- Bytes of `n` elements in a payload: no scale bytes, no header. -/
def elemBytes (code n : Nat) : Nat := (n * fmtBits code + 7) / 8

/-- Size of the image of a block of `n` real elements (R237). -/
def imageLen (code n : Nat) : Nat :=
  if plyWordsOf code ≠ 0 then 16 + 2048 * plyWordsOf code else scaleBytes code n + elemBytes code n

/-- Size of a full block's image. -/
def imageFull (code : Nat) : Nat := imageLen code 256

/-- Blocks of a tensor (R139, R140). -/
def blocksOf (elements : Nat) : Nat := (elements + 255) / 256

/-- Real elements of block `b`. -/
def blockLen (elements b : Nat) : Nat := min 256 (elements - 256 * b)

/-- Size of a whole tensor's image (R237). -/
def tensorLen (code elements : Nat) : Nat :=
  if elements = 0 then 0 else
  (blocksOf elements - 1) * imageFull code + imageLen code (blockLen elements (blocksOf elements - 1))

/-- Pieces of a block record of `n` elements (R207). -/
def piecesOf (code n : Nat) : Nat :=
  if plyWordsOf code ≠ 0 ∧ 4096 < 32 + 8 * plyWordsOf code * n then (n + 63) / 64 else 1

/-! ### Bytes with poison marks -/

/-- Writes bytes, each with its poison mark, word by word (R420). -/
def State.writeMarkedN (s : State) : Nat → Nat → List (Byte × Bool) → State
  | 0, _, _ => s
  | _, _, [] => s
  | f + 1, a, bs =>
    let k := 8 - a % 8
    let c := bs.take k
    State.writeMarkedN (s.write a (c.map (fun x => x.1)) (c.any (fun x => x.2))) f (a + k) (bs.drop k)

/-- Writes bytes with their poison marks. -/
def State.writeMarked (s : State) (a : Nat) (bs : List (Byte × Bool)) : State :=
  if bs.any (fun x => x.2) then s.writeMarkedN bs.length a bs else s.writeB a (bs.map (fun x => x.1))

/-- The `k` bytes at `a` with the poison of the words that hold them. -/
def State.readMarked (s : State) (a k : Nat) : List (Byte × Bool) :=
  (List.range k).map (fun i => (s.byte (a + i), s.tagged (a + i)))

/-! ### Elements to bytes -/

/-- Packs the low nibbles of elements two to a byte, the even element low (R206). -/
def packNibbles : List BElem → List (Byte × Bool)
  | [] => []
  | [x] => [(BitVec.ofNat 8 (x.words.headD 0 % 16), x.pz)]
  | x :: y :: r => (BitVec.ofNat 8 (x.words.headD 0 % 16 + 16 * (y.words.headD 0 % 16)), x.pz || y.pz) :: packNibbles r

/-- The bytes of one element that is not MXFP4. -/
def elemOut (code : Nat) (x : BElem) : List (Byte × Bool) :=
  (x.words.flatMap (fun w => leBytes (if plyWordsOf code ≠ 0 then 8 else fmtBits code / 8) w)).map (fun b => (b, x.pz))

/-- The scale bytes of a list of elements, one for each aligned group of 32; a group's poison marks its scale. -/
def scalesOut : Nat → List BElem → List (Byte × Bool)
  | 0, _ => []
  | _, [] => []
  | f + 1, xs =>
    let g := xs.take 32
    (BitVec.ofNat 8 ((g.map (fun x => x.scale)).headD 0), g.any (fun x => x.pz)) :: scalesOut f (xs.drop 32)

/-- The scale bytes and elements of a payload (R206). -/
def elemsOut (code : Nat) (xs : List BElem) : List (Byte × Bool) :=
  (if isMx code then scalesOut xs.length xs else []) ++
    (if code = 6 then packNibbles xs else xs.flatMap (elemOut code))

/-- The 32-byte element poison mask (R206). -/
def poisonMask (xs : List BElem) : List Byte :=
  leBytes 32 (((List.range xs.length).zip xs).foldl (fun m e => if e.2.pz then m + 2 ^ e.1 else m) 0)

/-- A record's payload for its elements (R206): the mask when a raw format carries poison. -/
def payloadOut (code : Nat) (xs : List BElem) : List Byte :=
  (if plyWordsOf code = 0 && xs.any (fun x => x.pz) then poisonMask xs else []) ++ (elemsOut code xs).map (fun x => x.1)

/-! ### Bytes to elements -/

/-- Element `i` of `bs`, the bytes of scale bytes (when MX) and elements of `n` elements. -/
def elemIn (code n : Nat) (bs : List Byte) (i : Nat) : BElem :=
  let o := scaleBytes code n
  let k := plyWordsOf code
  if k ≠ 0 then { words := (List.range k).map (fun j => leAt bs (8 * (k * i + j)) 8) }
  else if code = 6 then { words := [byteAt bs (o + i / 2) / 16 ^ (i % 2) % 16], scale := byteAt bs (i / 32) }
  else { words := [leAt bs (o + i * (fmtBits code / 8)) (fmtBits code / 8)],
         scale := if isMx code then byteAt bs (i / 32) else 0 }

/-- The elements of a record's payload (R206). -/
def payloadIn (code n : Nat) (poison : Bool) (bs : List Byte) : List BElem :=
  let masked := plyWordsOf code = 0 && poison
  let m := if masked then leAt bs 0 32 else 0
  let bs := if masked then bs.drop 32 else bs
  (List.range n).map (fun i => { elemIn code n bs i with pz := bitOf m i })

/-- Element `i` of the image of `n` elements at `a` in memory; a poisoned ply word makes the element POISON. -/
def State.imageElem (s : State) (code n a i : Nat) : BElem :=
  let k := plyWordsOf code
  if k ≠ 0 then
    let o := a + 16 + 8 * k * i
    if s.poisoned o (8 * k) then { words := specialWords k spPoison }
    else { words := (List.range k).map (fun j => s.le (o + 8 * j) 8) }
  else if isMx code then
    let o := a + scaleBytes code n + i * fmtBits code / 8
    { words := [if code = 6 then (s.byte o).toNat / 16 ^ (i % 2) % 16 else (s.byte o).toNat],
      scale := (s.byte (a + i / 32)).toNat, pz := s.tagged o || s.tagged (a + i / 32) }
  else
    let w := fmtBits code / 8
    { words := [s.le (a + i * w) w], pz := s.poisoned (a + i * w) w }

/-- The elements of the image of `n` elements at `a`. -/
def State.readImage (s : State) (code n a : Nat) : List BElem := (List.range n).map (s.imageElem code n a)

/-! ### Ply block headers (R184) -/

/-- A ply block header. -/
def plyHeader (k gauge obs flags tensor block : Nat) : List Byte :=
  record [(1, gauge), (1, obs), (1, k % 4 + 4 * (flags % 16)), (1, 0), (3, tensor), (1, 0), (4, block), (4, 0)]

/-- The bytes of a block image of `xs`, its header's fields given for a ply format (R184, R237): a ply image is padded
with zero elements. -/
def imageOut (code gauge obs flags tensor block : Nat) (xs : List BElem) : List (Byte × Bool) :=
  let k := plyWordsOf code
  if k = 0 then elemsOut code xs
  else ((plyHeader k gauge obs flags tensor block).map (fun b => (b, false))) ++
    elemsOut code (xs ++ List.replicate (256 - xs.length) { words := List.replicate k 0 })

/-! ### Terms, tallies and finalisation of elements -/

/-- Is a ply element POISON (R163, R164)? -/
def plyPoison (ws : List Nat) : Bool := plyKind ws == .poison

/-- Is a ply element NaN or an infinity? -/
def plySpecial (ws : List Nat) : Bool := match plyKind ws with
  | .nan => true
  | .inf _ => true
  | _ => false

/-- An element of a raw format as a number (R161). -/
def BElem.num (code : Nat) (x : BElem) : Num := if x.pz then .poison else decodeElem code x.scale (x.words.headD 0)

/-- Does an element count as poisoned in a tally (R114)? -/
def BElem.poisoned (code : Nat) (x : BElem) : Bool := x.pz || (plyWordsOf code ≠ 0 && plyPoison x.words)

/-- The tally words of an element (R113). -/
def BElem.tallyWords (code : Nat) (x : BElem) : List Nat :=
  if isMx code then [256 * x.scale + x.words.headD 0] else x.words

/-- The draw of element `index`, when the rounding is stochastic (R178). -/
def drawOf (stochastic : Bool) (seed step tensor index : Nat) : Option Nat :=
  if stochastic then some (roundDraw seed step tensor (index % 2 ^ 40)) else none

/-- Finalises numbers into an MX format, group by group of 32 (R183). -/
def finalMxAll (code : Nat) : Nat → List (Option Nat) → List Num → List BElem
  | 0, _, _ => []
  | _, _, [] => []
  | f + 1, ds, xs =>
    let r := finalMx code (ds.take 32) (xs.take 32)
    r.2.1.map (fun b => { words := [b], scale := r.1, pz := r.2.2 }) ++ finalMxAll code f (ds.drop 32) (xs.drop 32)

/-- Rounds numbers once into an output format below 0x07 (R176 to R183). -/
def finalNums (code : Nat) (ds : List (Option Nat)) (xs : List Num) : List BElem :=
  if isMx code then finalMxAll code xs.length ds xs
  else List.zipWith (fun d x => let r := finalRaw code d x; { words := [r.1], pz := r.2 }) ds xs

/-- Finalises the ply elements of a block: rounded into a raw or MX format, or unchanged in the block's own ply form
(R176). -/
def finalElems (code k gauge : Nat) (ds : List (Option Nat)) (els : List (List Nat)) : List BElem :=
  if plyWordsOf code ≠ 0 then els.map (fun ws => { words := ws })
  else finalNums code ds (els.map (plyNum k gauge))

/-- Bitmap of a wrapped span of `cnt` positions from `lo` modulo `total` (R204). -/
def spanMask (lo cnt total : Nat) : Nat :=
  if total = 0 then 0 else
  let m := (2 ^ cnt - 1) <<< (lo % total)
  (m % 2 ^ total) ||| (m >>> total)

end Sys2Proof.Machine
end

