-- ==== Sys2Proof/Machine/Carder.lean ====
section
/-! DEFINITION. The Carder (file 08): feed descriptors and their checks, items from record to tensor, serving frames,
decisions and the feed log, and what step and beat boundaries do to feeds. -/

namespace Sys2Proof.Machine

/-! ### Feeds in State -/

def State.feedState (s : State) (n f : Nat) : Nat := s.rf (Reg.CRD_FSTATE n) (2 * f + 1) (2 * f)
def State.setFeedState (s : State) (n f x : Nat) : State := s.wf (Reg.CRD_FSTATE n) (2 * f + 1) (2 * f) x

def State.feed? (s : State) (n f : Nat) : Option Feed := s.carder.feeds.find? (fun x => x.slice = n && x.idx = f)

def State.setFeed (s : State) (x : Feed) : State :=
  { s with carder := { s.carder with feeds := s.carder.feeds.map (fun y => if y.slice = x.slice ∧ y.idx = x.idx then x else y) } }

/-- Is the feed OPEN and not stopped (R506)? -/
def State.feedRuns (s : State) (x : Feed) : Bool := s.feedState x.slice x.idx = 1 && !x.stopped

/-- Drops the items of a feed. -/
def State.dropItems (s : State) (n f : Nat) : State :=
  { s with carder := { s.carder with items := s.carder.items.filter (fun i => !(i.slice = n && i.feed = f)) } }

/-- Applies `g` to one item. -/
def State.mapItem (s : State) (i : FeedItem) (g : FeedItem → FeedItem) : State :=
  { s with carder := { s.carder with items := s.carder.items.map (fun x => if x = i then g x else x) } }

/-! ### Descriptors and tables (R465, R469, R471, R473, R493) -/

def State.readFeed (s : State) (a : Nat) : FeedDesc :=
  let b (o hi lo : Nat) : Nat := bitsOf (s.le (a + o) 1) hi lo
  { id := s.le a 2, mode := b 2 1 0, source := b 2 3 2, onError := b 2 5 4, codec := b 3 3 0, bayer := b 3 5 4,
    outFmt := b 4 7 0, lookahead := b 5 2 0, h := s.le (a + 6) 2, w := s.le (a + 8) 2, c := b 10 7 0, streams := b 11 7 0,
    rps := s.le (a + 12) 2 + 1, stitches := s.le (a + 14) 2 + 1, tid := s.le (a + 16) 3, localCnt := b 19 7 0,
    records := s.le (a + 20) 5, cursor := s.le (a + 25) 5, cursorLen := s.le (a + 32) 5, streamTbl := s.le (a + 40) 5,
    localTbl := s.le (a + 45) 5, work := s.le (a + 50) 5, workLog2 := b 55 3 0, dstOff := bitsOf (s.le (a + 56) 8) 43 0,
    slotBytes := s.le (a + 64) 4, itemBytes := s.le (a + 68) 4, depotConn := bitsOf (s.le (a + 72) 3) 17 0,
    depotKey := s.le (a + 76) 4, doneCtr := bitsOf (s.le (a + 80) 2) 13 0, doneEn := b 82 0 0 = 1 }

/-- Are the reserved fields of a feed descriptor 0? -/
def State.feedReserved (s : State) (a : Nat) : Bool :=
  let z (o k hi lo : Nat) : Bool := bitsOf (s.le (a + o) k) hi lo = 0
  z 2 1 7 6 && z 3 1 7 6 && z 5 1 7 3 && z 30 2 15 0 && z 32 8 63 40 && z 55 1 7 4 && z 56 8 63 44 && z 72 3 23 18 &&
  z 75 1 7 0 && z 80 2 15 14 && z 82 1 7 1 && s.le (a + 83) 45 = 0

def State.localSpan (s : State) (d : FeedDesc) (j : Nat) : LocalSpan :=
  let w := s.le (d.localTbl + 8 * j) 8
  ⟨bitsOf w 5 0, bitsOf w 31 16, bitsOf w 48 32⟩

def State.localSpans (s : State) (d : FeedDesc) : List LocalSpan := (List.range d.localCnt).map (s.localSpan d)

def State.streamEntry (s : State) (d : FeedDesc) (j : Nat) : StreamEntry :=
  let a := d.streamTbl + 32 * j
  ⟨bitsOf (s.le a 1) 5 0, bitsOf (s.le (a + 1) 1) 3 0, bitsOf (s.le (a + 1) 1) 5 4, bitsOf (s.le (a + 2) 1) 6 0,
   s.le (a + 4) 4, s.le (a + 8) 2, s.le (a + 10) 2⟩

def State.streamEntries (s : State) (d : FeedDesc) : List StreamEntry := (List.range d.streams).map (s.streamEntry d)

/-- Bytes per packed element. -/
def FeedDesc.elemSize (d : FeedDesc) : Nat := if d.outFmt = 1 then 2 else 1

/-- Bytes of one packed image. -/
def FeedDesc.imageBytes (d : FeedDesc) : Nat := d.h * d.w * d.c * d.elemSize

/-- The stitch size (R475). -/
def FeedDesc.stitchSize (d : FeedDesc) : Nat := roundUp (d.rps * d.imageBytes) 256

/-- A TRAIN feed? -/
def FeedDesc.train (d : FeedDesc) : Bool := d.mode = 1

/-! ### Endpoints, rows and rings (R474, R482 to R484) -/

/-- Valid outputs of endpoint `e`'s entry (R60, R634): their links. -/
def State.epLinks (s : State) (e : Nat) : List Nat :=
  let w := s.rd (Reg.SWT_EP_LO (e - 1))
  ((List.range 4).filter (fun i => bitOf w.toNat (8 * i + 7))).map (fun i => fieldOf w (8 * i + 6) (8 * i))

/-- The die that holds an endpoint's links; endpoint 0 is served by the die that holds the feed's slots. -/
def State.epDie (s : State) (d : FeedDesc) (e : Nat) : Nat :=
  if e = 0 then (match s.place d.dstOff with
    | .hbm k _ => k
    | .hank k _ _ => k
    | .nowhere => 0)
  else ((s.epLinks e).headD 0) / 24

/-- Is `e` endpoint 0 or an attached endpoint of slice `n`? -/
def State.epOfSlice (s : State) (n e : Nat) : Bool :=
  e = 0 || (e ≤ 48 && bitOf (s.rd (Reg.SWT_EP_HI (e - 1))).toNat 31 && s.epLinks e ≠ [] &&
    s.sliceOfDie (((s.epLinks e).headD 0) / 24) = n)

/-- The FEED and SERVING rows of die `d` in ascending L (R483). -/
def State.feedRows (s : State) (d : Nat) : List Nat :=
  (List.range' (32 * d) 32).filter (fun l => s.rowKind l = 2 || s.rowKind l = 4)

/-- The rows of die `d` that serve the feed. -/
def State.feedTargets (s : State) (x : FeedDesc) (d : Nat) : List Nat :=
  (s.feedRows d).filter (fun l => s.rowKind l = (if x.train then 2 else 4))

/-- The die that serves a SERVE or REPLAY feed: the one whose hank holds WORK. -/
def FeedDesc.workDie (d : FeedDesc) : Nat := (d.work - hankBase 0) / 0x40000000

/-- The dies whose rows and pipes a feed uses. -/
def State.feedDies (s : State) (d : FeedDesc) (spans : List LocalSpan) : List Nat :=
  if d.train then (List.range 4).filter (fun k => spans.any (fun e => s.epDie d e.ep = k)) else [d.workDie]

/-- Base of the ring of row `l` (R483). -/
def State.itemRing (s : State) (d : FeedDesc) (l : Nat) : Nat :=
  hankBase (rowDie l) + (d.work - hankBase 0) % 0x40000000 +
    ((s.feedRows (rowDie l)).findIdx (fun x => x == l)) * (d.itemBytes * 2 ^ d.workLog2)

/-! ### The checks of OPEN (R466, R508, R509) -/

/-- Do the spans of a local table lie in 0 to S - 1 without overlap (R473)? -/
def spansApart (stitches : Nat) : List LocalSpan → Bool
  | [] => true
  | e :: es => e.lo + e.cnt ≤ stitches && es.all (fun x => e.lo + e.cnt ≤ x.lo || x.lo + x.cnt ≤ e.lo || x.cnt = 0 || e.cnt = 0) &&
      spansApart stitches es

def State.spansOk (s : State) (n : Nat) (d : FeedDesc) (spans : List LocalSpan) : Bool :=
  spans.all (fun e => s.epOfSlice n e.ep) && spansApart d.stitches spans

/-- SLOT_BYTES covers the largest span (R466). -/
def slotsOk (d : FeedDesc) (spans : List LocalSpan) : Bool := spans.all (fun e => e.cnt * d.stitchSize ≤ d.slotBytes)

/-- The status of the values of a feed: illegal (0x01A0), out of range (0x01A1). -/
def State.feedValues (s : State) (a : Nat) (d : FeedDesc) (spans : List LocalSpan) (tbl : List StreamEntry) : Nat :=
  let serves := !d.train
  if !s.feedReserved a ∨ d.mode = 0 ∨ d.source = 3 ∨ d.onError = 3 ∨ (d.train ∧ (d.codec = 0 ∨ 4 < d.codec)) ∨
      (d.outFmt ≠ 1 ∧ d.outFmt ≠ 2) ∨
      (List.range d.localCnt).any (fun j => let w := s.le (d.localTbl + 8 * j) 8
        bitsOf w 15 6 ≠ 0 || bitsOf w 63 49 ≠ 0) ∨
      (serves ∧ (List.range tbl.length).any (fun j => let b := d.streamTbl + 32 * j
        bitsOf (s.le b 1) 7 6 ≠ 0 || bitsOf (s.le (b + 1) 1) 7 6 ≠ 0 || bitsOf (s.le (b + 2) 1) 7 7 ≠ 0 ||
          s.le (b + 3) 1 ≠ 0 || s.le (b + 12) 20 ≠ 0)) ∨
      (serves ∧ tbl.any (fun e => e.policy = 3 || !(e.codec = 1 || e.codec = 2 || e.codec = 5))) then 0x01A0
  else if d.lookahead = 0 ∨ 4 < d.lookahead ∨ d.h = 0 ∨ 4096 < d.h ∨ d.w = 0 ∨ 4096 < d.w ∨ (d.c ≠ 1 ∧ d.c ≠ 3) ∨
      (d.train ∧ d.streams ≠ 0) ∨ (serves ∧ (d.streams = 0 ∨ 64 < d.streams)) ∨ 4096 < d.rps ∨ d.localCnt = 0 ∨
      48 < d.localCnt ∨ d.cursorLen = 0 ∨ d.workLog2 < 2 ∨ 8 < d.workLog2 ∨ d.slotBytes % 256 ≠ 0 ∨ d.itemBytes % 256 ≠ 0 ∨
      (serves ∧ tbl.any (fun e => e.fw = 0 || 8192 < e.fw || e.fh = 0 || 4320 < e.fh)) ∨ !slotsOk d spans then 0x01A1
  else 0

/-- Do the tables, the work area and the rings of a feed fit (0x01A2)? -/
def State.feedPlaced (s : State) (n : Nat) (d : FeedDesc) (spans : List LocalSpan) : Bool :=
  s.inSlice n d.records 16 && (d.mode = 2 || s.inSlice n d.cursor ((if d.train then 8 else 32) * d.cursorLen)) &&
  s.inSlice n d.localTbl (8 * d.localCnt) && (d.train || s.inSlice n d.streamTbl (32 * d.streams)) &&
  s.inScratchHank n d.work 1 &&
  (s.feedDies d spans).all (fun k =>
    let base := hankBase k + (d.work - hankBase 0) % 0x40000000
    let len := (s.feedRows k).length * (d.itemBytes * 2 ^ d.workLog2)
    base + len ≤ hankBase (k + 1) && s.inScratchHank n base (max 1 len)) &&
  spans.all (fun e => e.ep ≠ 0 || s.inSlice n d.dstOff (d.lookahead * d.slotBytes))

/-- The status of OPEN of feed `f` of slice `n`, 0 when it passes. -/
def State.feedOpenStatus (s : State) (n f a : Nat) (d : FeedDesc) (spans : List LocalSpan) (tbl : List StreamEntry) : Nat :=
  let st := s.feedValues a d spans tbl
  if st ≠ 0 then st
  else if (s.rd (Reg.CRD_FD_LO n)).toNat % 128 ≠ 0 ∨ !s.feedPlaced n d spans then 0x01A2
  else if !s.spansOk n d spans then 0x01A3
  else if s.feedState n f ≠ 0 then 0x02A0
  else if (s.feedDies d spans).any (fun k => s.feedTargets d k = []) then 0x02A1
  else if 64 < d.streams + ((s.carder.feeds.filter (fun x => !x.d.train)).map (fun x => x.d.streams)).sum then 0x03A0
  else 0

/-! ### The feed log (R500) -/

/-- A feed-log record, its phase apart. -/
def feedRecord (time id decision stream dropped tag ref : Nat) : List Byte :=
  record [(6, time), (2, id), (1, decision), (1, stream), (2, min dropped 65535), (4, tag), (8, ref), (7, 0)]

/-- Writes a feed-log record. -/
def State.feedLog (s : State) (bs : List Byte) : State :=
  let c := (s.rd Reg.CRD_LOG_HEAD).toNat
  let l := s.rf Reg.CRD_LOG_SIZE 4 0
  let a := s.addrOf Reg.CRD_LOG_BASE_LO Reg.CRD_LOG_BASE_HI + 32 * (c % 2 ^ l)
  (s.writeB a (bs ++ leBytes 1 (if c / 2 ^ l % 2 = 0 then 1 else 0))).wr Reg.CRD_LOG_HEAD (BitVec.ofNat 32 (c + 1))

/-- REF of frame bytes: the first 8 bytes of their SHA3-256. -/
def frameRef (bs : List Byte) : Nat := leAt (sha3x256 bs) 0 8

/-! ### Halting (R492, R493, R503) -/

/-- A feed stops in state HALTED: its status, its event, and for a decode failure a report to the slice. -/
def State.feedHalt (s : State) (n f st ev : Nat) : State :=
  let s := ((s.setFeedState n f 2).dropItems n f).event Reg.CRD_EVT ev
  let s := (s.wf (Reg.CRD_STAT n) 27 24 f).wf (Reg.CRD_STAT n) 15 0 st
  if st = 0x0801 then s.reportStatus n st f else s

/-- The depot connection of a feed has entered its error state (R493). -/
def State.feedDepotLost (s : State) (conn : Nat) : State :=
  (s.carder.feeds.filter (fun x => x.d.source = 1 && x.d.depotConn = conn)).foldl
    (fun s x => if s.feedState x.slice x.idx = 1 then s.feedHalt x.slice x.idx 0x0802 3 else s) s

/-! ### Reading a step (R472, R474, R482, R489) -/

/-- The local stitches of die `k`, rising. -/
def State.stitchesOn (s : State) (x : Feed) (k : Nat) : List Nat :=
  let spans := x.spans.filter (fun e => s.epDie x.d e.ep = k)
  (List.range x.d.stitches).filter (fun t => spans.any (fun e => e.lo ≤ t && t < e.lo + e.cnt))

/-- The items of stitch `t` of step `k` join the queue for the die's next FEED row. -/
def State.queueStitch (s : State) (x : Feed) (die k t : Nat) : State :=
  let rows := (s.feedTargets x.d die).filter (fun l => s.rowState l ≠ 0)
  let i := fetch 0 s.carder.turn die % max 1 rows.length
  let its := (List.range x.d.rps).map (fun j =>
    ({ slice := x.slice, feed := x.idx, die, row := rows.getD i 0, time := k, stitch := t, item := j } : FeedItem))
  { s with carder := { s.carder with items := s.carder.items ++ its,
                                     turn := store 0 s.carder.turn die ((i + 1) % max 1 rows.length) } }

/-- The Carder starts reading step `k` of a TRAIN feed (R489). -/
def State.readStep (s : State) (x : Feed) (k : Nat) : State :=
  let s := (s.feedDies x.d x.spans).foldl (fun s die => (s.stitchesOn x die).foldl (fun s t => s.queueStitch x die k t) s) s
  s.setFeed { x with next := k + 1 }

/-- Reads the steps up to `k`. -/
def State.readSteps (s : State) (n f k : Nat) : Nat → State
  | 0 => s
  | j + 1 =>
    match s.feed? n f with
    | none => s
    | some x => if s.feedRuns x ∧ x.next ≤ k then (s.readStep x x.next).readSteps n f k j else s

/-- The step counter of slice `n` has reached `c` (R489, R491). -/
def State.feedStep (s : State) (n c : Nat) : State :=
  (s.carder.feeds.filter (fun x => x.slice = n && x.d.train)).foldl (fun s x =>
    if !s.feedRuns x then s
    else
      let late := x.spans.any (fun e => !x.ready.contains (e.ep, c))
      let s := if late then (s.event Reg.CRD_EVT 0).count Ctr.CRD_FEED_LATE else s
      s.readSteps n x.idx (c + x.d.lookahead) (x.d.lookahead + 1)) s

/-! ### OPEN, CLOSE and RETARGET (R466, R506, R508) -/

/-- The status register of slice `n`'s feed commands. -/
def State.feedStat (s : State) (n f st : Nat) : State := (s.wf (Reg.CRD_STAT n) 27 24 f).wf (Reg.CRD_STAT n) 15 0 st

/-- OPEN of feed `f` (R466). -/
def State.feedOpen (s : State) (n f : Nat) : State :=
  let a := s.addrOf (Reg.CRD_FD_LO n) (Reg.CRD_FD_HI n) + 128 * f
  let d := s.readFeed a
  let spans := s.localSpans d
  let tbl := s.streamEntries d
  let st := s.feedOpenStatus n f a d spans tbl
  if st ≠ 0 then s.feedStat n f st
  else
    let k := s.stepCtr n
    let x : Feed := { slice := n, idx := f, d, spans, table := tbl, first := k, next := k }
    let s := { s with carder := { s.carder with feeds := s.carder.feeds ++ [x] } }
    let s := (s.setFeedState n f 1).feedStat n f 0
    if d.train then s.readSteps n f (k + d.lookahead) (d.lookahead + 1) else s

/-- A feed closes: its items, frames and undelivered steps go (R508). -/
def State.feedShut (s : State) (n f : Nat) : State :=
  let gone : List Nat := match s.feed? n f with
    | some x => x.table.map (fun (e : StreamEntry) => e.stream)
    | none => []
  let s := s.dropItems n f
  { s with carder := { s.carder with
    feeds := s.carder.feeds.filter (fun x => !(x.slice = n && x.idx = f)),
    frames := s.carder.frames.filter (fun r => !gone.contains r.stream),
    seqs := s.carder.seqs.filter (fun e => e.1 / 128 ≠ 16 * n + f) } }.setFeedState n f 0

/-- CLOSE of feed `f`. -/
def State.feedClose (s : State) (n f : Nat) : State :=
  if s.feedState n f = 1 ∨ s.feedState n f = 2 then (s.feedShut n f).feedStat n f 0 else s.feedStat n f 0x02A0

/-- Every feed of slice `n` closes (R82, R507). -/
def State.feedsClose (s : State) (n : Nat) : State :=
  (List.range 16).foldl (fun s f => if s.feedState n f = 0 then s else s.feedShut n f) s

/-- RETARGET of feed `f`: it resumes from the step being rerun with its new local table (R506). -/
def State.feedRetarget (s : State) (n f : Nat) : State :=
  match s.feed? n f with
  | none => s.feedStat n f 0x02A0
  | some x =>
    if s.feedState n f ≠ 1 ∨ !x.stopped then s.feedStat n f 0x02A0
    else
      let spans := s.localSpans x.d
      if !slotsOk x.d spans then s.feedStat n f 0x01A1
      else if !s.spansOk n x.d spans then s.feedStat n f 0x01A3
      else if (s.feedDies x.d spans).any (fun k => s.feedTargets x.d k = []) then s.feedStat n f 0x02A1
      else
        let k := s.stepCtr n
        let s := s.setFeed { x with spans, stopped := false, first := k, next := k, released := [], written := [], ready := [] }
        (s.feedStat n f 0).readSteps n f (k + x.d.lookahead) (x.d.lookahead + 1)

/-- A change of membership stops every TRAIN feed of slice `n` (R506). -/
def State.feedsStop (s : State) (n : Nat) : State :=
  (s.carder.feeds.filter (fun x => x.slice = n && x.d.train)).foldl (fun s x =>
    (s.setFeed { x with stopped := true, written := [], ready := [] }).dropItems n x.idx) s

/-- A write of CRD_Sn_CMD (R508). -/
def State.feedCmdWrite (s : State) (n : Nat) (v : Word) : State :=
  let s := s.wr (Reg.CRD_CMD n) (v &&& 0xF07)
  let f := fieldOf v 11 8
  if fieldOf v 31 31 = 0 then s
  else match fieldOf v 2 0 with
    | 1 => s.feedOpen n f
    | 2 => s.feedClose n f
    | 3 => s.feedRetarget n f
    | _ => s.feedStat n f 0x02A0

/-! ### Decoding (R469 to R472, R474, R492, R499, R503) -/

/-- The record number of cursor position `p` (R471, R472). -/
def State.cursorAt (s : State) (d : FeedDesc) (p : Nat) : Nat := s.le (d.cursor + 8 * (p % d.cursorLen)) 5

/-- Offset and length of record `r` (R469). -/
def State.recordAt (s : State) (d : FeedDesc) (r : Nat) : Nat × Nat := (s.le (d.records + 16 * r) 5, s.le (d.records + 16 * r + 8) 3)

/-- The bytes of record `r` of a slice's feed and their marks; a bad length or place is a decode failure. -/
def State.recordBytes (s : State) (n : Nat) (d : FeedDesc) (r : Nat) (fetched : Option (List Byte)) : Option (List (Byte × Bool)) :=
  let e := s.recordAt d r
  if e.2 = 0 ∨ 16777216 < e.2 then none
  else if d.source = 1 then fetched.map (fun bs => (bs.take e.2).map (fun b => (b, false)))
  else if s.inSliceRegion n .stage e.1 e.2 then some (s.readMarked e.1 e.2)
  else none

/-- A record as an image with the marks of its samples (R476, R487). -/
def decodeMarked (codec bayer chans itemBytes : Nat) (bs : List (Byte × Bool)) : Option (Image × List Bool) :=
  match decodeRecord codec bayer chans (bs.map (fun x => x.1)) with
  | none => none
  | some m =>
    if !m.fits itemBytes then none
    else
      let marked := bs.any (fun x => x.2)
      some (m, if !marked then [] else if codec = 2 then ((bs.drop 8).map (fun x => x.2)).take m.px.length
        else m.px.map (fun _ => true))

/-- The first of the records at cursor positions p + j that decodes, for `k` positions: its image and record number. -/
def State.firstDecoded (s : State) (x : Feed) (p : Nat) (fetched : List (List Byte)) : Nat → Nat → Option (Nat × Image × List Bool)
  | 0, _ => none
  | k + 1, j =>
    let r := s.cursorAt x.d (p + j)
    match s.recordBytes x.slice x.d r fetched[j]? with
    | none => s.firstDecoded x p fetched k (j + 1)
    | some bs =>
      match decodeMarked x.d.codec x.d.bayer x.d.c x.d.itemBytes bs with
      | some m => some (r, m.1, m.2)
      | none => s.firstDecoded x p fetched k (j + 1)

/-- A pipe ends a TRAIN item (R474, R492); `fetched` holds the depot's records for cursor positions p, p + 1, … -/
def State.decodeTrain (s : State) (x : Feed) (i : FeedItem) (fetched : List (List Byte)) : State :=
  let d := x.d
  let p := (i.time * d.stitches + i.stitch) * d.rps + i.item
  let tag := i.stitch + 65536 * i.item
  let fin (s : State) (dec : Nat) (m : Image) (marks : List Bool) : State :=
    (s.mapItem i (fun y => { y with stage := .ready, decision := dec, image := m, marks := marks })).count Ctr.CRD_REC
  match s.firstDecoded x p fetched 1 0 with
  | some (_, m, marks) => fin s 0 m marks
  | none =>
    let s := (s.count Ctr.CRD_DECODE_ERR).event Reg.CRD_EVT 1
    let zeros (s : State) : State :=
      fin (s.feedLog (feedRecord i.time d.id 6 0 0 tag (s.cursorAt d p))) 6 (zeroImage d.w d.h d.c) []
    match d.onError with
    | 0 => zeros s
    | 1 => match s.firstDecoded x p fetched 8 1 with
      | some (r, m, marks) => fin ((s.feedLog (feedRecord i.time d.id 7 0 0 tag r)).count Ctr.CRD_SUBST) 7 m marks
      | none => zeros s
    | _ => s.feedHalt i.slice i.feed 0x0801 2

/-- A serving frame as an image (R481, R494). -/
def decodeFrame (e : StreamEntry) (chans itemBytes : Nat) (bs : List Byte) : Option Image :=
  let m := if e.codec = 1 then jpegDecode chans bs
    else if e.codec = 2 then some ⟨e.fw, e.fh, 3, 8, bs.map (·.toNat)⟩
    else some (yccFrame e.fw e.fh bs)
  m.bind (fun m => if m.fits itemBytes then some m else none)

/-- A pipe ends a serving item: the replay check (R503), and the decode failure of R499. -/
def State.decodeServe (s : State) (x : Feed) (i : FeedItem) : State :=
  match x.table.find? (fun e => e.stream = i.stitch) with
  | none => s
  | some e =>
    if x.d.mode = 3 ∧ (i.ref.getD (frameRef i.frame)) ≠ frameRef i.frame then
      s.feedHalt i.slice i.feed 0x0803 4
    else
      let fin (s : State) (dec : Nat) (m : Image) : State :=
        (s.mapItem i (fun y => { y with stage := .ready, decision := dec, image := m })).count Ctr.CRD_REC
      match decodeFrame e x.d.c x.d.itemBytes i.frame with
      | some m => fin s i.decision m
      | none =>
        let s := (s.count Ctr.CRD_DECODE_ERR).event Reg.CRD_EVT 1
        let s := if i.decision = 1 then s.feedLog (feedRecord i.time x.d.id 6 i.stitch i.dropped i.tag (frameRef i.frame)) else s
        let s := s.setFeed { x with lasts := x.lasts.map (fun l => if l.1 = i.stitch ∧ l.2.1 = i.tag then (l.1, l.2.1, none) else l) }
        fin s 6 (zeroImage e.fw e.fh x.d.c)

/-- The pipe of an item, when one decodes it. -/
def FeedItem.pipe (i : FeedItem) : Option Nat := match i.stage with
  | .decoding p => some p
  | _ => none

/-- The next waiting item of die `k` takes the first free pipe (R474). -/
def State.startDecode (s : State) (k : Nat) : State :=
  let busy := s.carder.items.filterMap (fun i => if i.die = k then i.pipe else none)
  match (List.range 16).find? (fun p => !busy.contains p),
        s.carder.items.find? (fun i => i.die = k && i.stage = .waiting && s.sliceState i.slice = 0) with
  | some p, some i => s.mapItem i (fun y => { y with stage := .decoding p })
  | _, _ => s

/-- Pipe `p` of die `k` ends its item. -/
def State.endDecode (s : State) (k p : Nat) (fetched : List (List Byte)) : State :=
  match s.carder.items.find? (fun i => i.die = k && i.pipe = some p) with
  | none => s
  | some i =>
    match s.feed? i.slice i.feed with
    | none => s
    | some x => if x.d.train then s.decodeTrain x i fetched else s.decodeServe x i

/-! ### Items in row rings (R483 to R487) -/

def ringKey (n f l : Nat) : Nat := (16 * n + f) * 128 + l

/-- The item header (R483). -/
def itemHeader (seq : Nat) (i : FeedItem) (pack : Nat) : List Byte :=
  record [(4, seq), (6, i.time), (2, i.stitch), (2, i.item), (2, i.image.w), (2, i.image.h), (1, i.image.c), (1, i.image.depth),
    (1, i.decision), (1, bit (i.marks.any id)), (2, 0), (5, pack), (31, 0), (4, 0)]

/-- The bytes of an item's pixels with their marks. -/
def FeedItem.pixelBytes (i : FeedItem) : List (Byte × Bool) :=
  ((List.range i.image.px.length).zip i.image.px).flatMap (fun e =>
    (leBytes (i.image.depth / 8) e.2).map (fun b => (b, i.marks.getD e.1 false)))

/-- Increments the trigger counter of FEED or SERVING row `l` (R484). -/
def State.rowTrigger (s : State) (l : Nat) : State :=
  let d := rowDie l
  let n := s.sliceOfDie d
  let j := (s.diesOf n).findIdx (fun x => x == d)
  let i := (s.feedRows d).findIdx (fun x => x == l)
  s.ctrBump (s.ctrIdx n (s.rf Reg.CRD_TRIG_BASE 13 0 + 32 * j + i))

/-- The Carder writes the next decoded item to row `l`'s ring (R482 to R486, R497, R505). PACK is a free value: the spec
gives no place for the packed image. -/
def State.writeItem (s : State) (l : Nat) : State :=
  match s.carder.items.find? (fun i => i.row = l && i.stage ≠ .ring && i.stage ≠ .packed) with
  | none => s
  | some i =>
    match s.feed? i.slice i.feed with
    | none => s
    | some x =>
      let held := s.carder.items.countP (fun y => y.slice = i.slice && y.feed = i.feed && y.row = l && y.stage = .ring)
      if i.stage ≠ .ready ∨ 2 ^ x.d.workLog2 ≤ held ∨ s.rowState l = 6 ∨ s.rowState l = 5 then s
      else
        let key := ringKey i.slice i.feed l
        let seq := fetch 0 s.carder.seqs key
        let slot := seq % 2 ^ x.d.workLog2
        let pack := s.freeBits 40
        let a := s.itemRing x.d l + slot * x.d.itemBytes
        let s := s.useFree.writeB a (itemHeader seq i pack)
        let s := s.writeMarked (a + 64) i.pixelBytes
        let s := s.mapItem i (fun y => { y with stage := .ring, seq := seq, slot := slot, pack := pack })
        { s with carder := { s.carder with seqs := store 0 s.carder.seqs key ((seq + 1) % 2 ^ 32) } }.rowTrigger l

/-- A DONE write equal to SEQ marks the item in slot `slot` of row `l`'s ring packed (R485); a serving item is done with. -/
def State.packItem (s : State) (n f l slot : Nat) : State :=
  match s.feed? n f with
  | none => s
  | some x =>
    let done := s.le (s.itemRing x.d l + slot * x.d.itemBytes + 60) 4
    match s.carder.items.find? (fun i => i.slice = n && i.feed = f && i.row = l && i.slot = slot && i.stage = .ring && i.seq = done) with
    | none => s
    | some i =>
      if x.d.train then s.mapItem i (fun y => { y with stage := .packed })
      else { s with carder := { s.carder with items := s.carder.items.erase i } }

/-! ### Delivery (R488 to R491, R630) -/

/-- Has the slot of step `k` at endpoint `ep` been released (R489)? Endpoint 0's slot counts as released once the step
counter has passed its step. -/
def State.slotFree (s : State) (x : Feed) (ep k : Nat) : Bool :=
  k < x.first + x.d.lookahead ||
  (if ep = 0 then k - x.d.lookahead < s.stepCtr x.slice
   else x.released.any (fun r => r.1 = ep && k - x.d.lookahead ≤ r.2))

/-- Writes bytes into an endpoint's slot: by local DMA for endpoint 0, by EDGE_WR on VC 5 else (R490). -/
def State.epWrite (s : State) (ep off : Nat) (bs : List (Byte × Bool)) : State :=
  if ep = 0 then s.writeMarked off bs
  else s.emit (.edgeWrite ep 5 off (bs.map (fun x => x.1)) (bs.map (fun x => x.2)))

/-- The Carder writes step `k` for endpoint `ep` once every item is packed and the slot is free (R488, R489). -/
def State.writeStep (s : State) (n f ep k : Nat) : State :=
  match s.feed? n f with
  | none => s
  | some x =>
    match x.spans.find? (fun e => e.ep = ep) with
    | none => s
    | some e =>
      let its := s.carder.items.filter (fun i => i.slice = n && i.feed = f && i.time = k && e.lo ≤ i.stitch && i.stitch < e.lo + e.cnt)
      if !s.feedRuns x ∨ !x.d.train ∨ x.written.contains (ep, k) ∨ x.ready.contains (ep, k) ∨ !s.slotFree x ep k ∨
          its.length ≠ e.cnt * x.d.rps ∨ its.any (fun i => i.stage ≠ .packed) then s
      else
        let base := x.d.dstOff + k % x.d.lookahead * x.d.slotBytes
        let s := its.foldl (fun s i =>
          s.epWrite ep (base + (i.stitch - e.lo) * x.d.stitchSize + i.item * x.d.imageBytes) (s.readMarked i.pack x.d.imageBytes)) s
        let s := { s with carder := { s.carder with items := s.carder.items.filter (fun i => !its.contains i) } }
        s.setFeed { x with written := x.written ++ [(ep, k)] }

/-- FEED_READY goes to an endpoint whose step is written; when every endpoint has it, DONE_CTR counts (R490). -/
def State.deliverStep (s : State) (n f ep k : Nat) : State :=
  match s.feed? n f with
  | none => s
  | some x =>
    if !x.written.contains (ep, k) then s
    else
      let x := { x with written := x.written.erase (ep, k), ready := x.ready ++ [(ep, k)] }
      let s := s.setFeed x
      let s := if ep = 0 then s else s.emit (.feedReady ep x.d.id k (s.epLinks ep).length)
      if x.spans.all (fun e => x.ready.contains (e.ep, k)) then s.ctrBumpOpt n (if x.d.doneEn then some x.d.doneCtr else none) else s

/-- FEED_RELEASE of an endpoint for the feed `id` (R489, R630). -/
def State.releaseStep (s : State) (ep id k : Nat) : State :=
  s.carder.feeds.foldl (fun s x =>
    if x.d.id = id ∧ x.d.train ∧ x.spans.any (fun e => e.ep = ep) then
      s.setFeed { x with released := x.released.filter (fun r => r.1 ≠ ep || k < r.2) ++ [(ep, k)] }
    else s) s

/-! ### Serving streams (R493, R494) -/

/-- The open SERVE feed that lists a stream, and its entry (R701). -/
def State.streamFeed (s : State) (stream : Nat) : Option (Feed × StreamEntry) :=
  s.carder.feeds.findSome? (fun x =>
    if x.d.mode = 2 ∧ s.feedState x.slice x.idx = 1 then (x.table.find? (fun e => e.stream = stream)).map (fun e => (x, e)) else none)

def beAt (bs : List Byte) (i k : Nat) : Nat := leNat ((bs.drop i).take k).reverse

/-- The RTP payload: CSRC entries, a header extension and padding are skipped (R494). -/
def rtpPayload (p : List Byte) : Option (List Byte) :=
  let b0 := byteAt p 0
  let h := 12 + 4 * (b0 % 16)
  let h := if bitOf b0 4 then h + 4 + 4 * beAt p (h + 2) 2 else h
  let pad := if bitOf b0 5 then (p.getLast?.getD 0).toNat else 0
  if p.length < 12 ∨ p.length < h + pad ∨ (bitOf b0 5 ∧ pad = 0) then none else some ((p.drop h).take (p.length - h - pad))

/-- The line segments of an RFC 4175 payload: (length, line, offset), and the bytes after them. -/
def rfc4175Segs : Nat → List Byte → Option (List (Nat × Nat × Nat) × List Byte)
  | 0, _ => none
  | f + 1, bs =>
    if bs.length < 6 ∨ 32768 ≤ beAt bs 2 2 then none
    else
      let seg := (beAt bs 0 2, beAt bs 2 2, beAt bs 4 2 % 32768)
      if 32768 ≤ beAt bs 4 2 then
        match rfc4175Segs f (bs.drop 6) with
        | some (l, r) => some (seg :: l, r)
        | none => none
      else some ([seg], bs.drop 6)

/-- Places bytes in a frame at an offset; bytes already placed stay. -/
def placeBytes (m : SMap (Option Byte)) (o : Nat) : List Byte → SMap (Option Byte)
  | [] => m
  | b :: bs => placeBytes (if (fetch none m o).isSome then m else store none m o (some b)) (o + 1) bs

/-- The pieces an RTP payload places: frame offset and bytes; and the frame's total size. -/
def rtpPieces (e : StreamEntry) (bs : List Byte) : Option (List (Nat × List Byte) × Nat) :=
  if e.codec = 1 then
    let o := beAt bs 0 4
    let total := beAt bs 4 4
    let data := bs.drop 8
    if bs.length < 8 ∨ total < o + data.length then none else some ([(o, data)], total)
  else
    let bpp := if e.codec = 2 then 3 else 2
    let total := e.fw * e.fh * bpp
    match rfc4175Segs bs.length (bs.drop 2) with
    | none => none
    | some (segs, data) =>
      let ok := segs.all (fun g => g.2.1 < e.fh && g.2.2 * bpp + g.1 ≤ e.fw * bpp && (e.codec = 2 || g.2.2 % 2 = 0))
      if !ok ∨ data.length < (segs.map (fun g => g.1)).sum then none
      else some ((segs.foldl (fun (acc : List (Nat × List Byte) × List Byte) g =>
        (acc.1 ++ [((g.2.1 * e.fw + g.2.2) * bpp, acc.2.take g.1)], acc.2.drop g.1)) ([], data)).1, total)

/-- An RTP packet for a Carder stream, stamped `stamp` (R494): accepted and placed, or discarded and counted. -/
def State.rtpPacket (s : State) (stream : Nat) (p : List Byte) (stamp : Nat) : State :=
  match s.streamFeed stream with
  | none => s
  | some (_, e) =>
    let ok := bitsOf (byteAt p 0) 7 6 = 2 && bitsOf (byteAt p 1) 6 0 = e.pt && (e.ssrc = 0 || beAt p 8 4 = e.ssrc)
    match (if ok then (rtpPayload p).bind (rtpPieces e) else none) with
    | none => s.count Ctr.CRD_PKT_BAD
    | some (pieces, total) =>
      let ts := beAt p 4 4
      let r := (s.carder.frames.find? (fun r => r.stream = stream && r.ts = ts)).getD { stream, ts, first := stamp }
      if r.done.isSome then s
      else
        let m := pieces.foldl (fun m x => placeBytes m x.1 x.2) r.bytes
        let r := { r with bytes := m, total, marker := r.marker || bitOf (byteAt p 1) 7 }
        let r := if r.marker && m.length = total then { r with done := some stamp } else r
        { s with carder := { s.carder with
          frames := s.carder.frames.filter (fun x => !(x.stream = stream && x.ts = ts)) ++ [r] } }

/-- An incomplete frame older than FRAME_AGE_MS goes (R494). -/
def State.ageFrame (s : State) (stream ts : Nat) : State :=
  match s.carder.frames.find? (fun r => r.stream = stream && r.ts = ts && r.done.isNone) with
  | none => s
  | some r =>
    if r.first + 1000000 * s.rf Reg.CRD_CTL 13 0 < s.now then
      { s with carder := { s.carder with frames := s.carder.frames.erase r } }.count Ctr.CRD_FRAME_DROP
    else s

/-- The bytes of a complete frame. -/
def RtpFrame.data (r : RtpFrame) : List Byte := (List.range r.total).map (fun i => (fetch none r.bytes i).getD 0)

/-! ### Frame sets at a beat boundary (R495 to R499, R502) -/

/-- The later of two frames by RTP timestamp. -/
def latestFrame : List RtpFrame → Option RtpFrame
  | [] => none
  | r :: rs => match latestFrame rs with
    | none => some r
    | some q => if laterMod 32 q.ts r.ts then some r else some q

/-- What a beat gives a stream: decision, tag, frame bytes (none for zeros or no pixels), dropped frames. -/
structure Choice where
  decision : Nat
  tag : Nat
  frame : Option (List Byte)
  dropped : Nat
  ref : Option Nat := none

/-- The policy decision of a stream without a frame: REPEAT 2, ZEROS 3, SKIP 4. -/
def policyChoice (x : Feed) (e : StreamEntry) (decision : Nat) : Choice :=
  if decision = 2 then
    match x.lasts.find? (fun l => l.1 = e.stream) with
    | some l => ⟨2, l.2.1, l.2.2, 0, none⟩
    | none => ⟨2, 0, none, 0, none⟩
  else ⟨decision, 0, none, 0, none⟩

/-- The choice of a stream of a SERVE feed in the window (prev, bn] (R495). -/
def State.serveChoice (s : State) (x : Feed) (e : StreamEntry) (prev : Option Nat) (bn : Nat) : Choice :=
  let inWin (r : RtpFrame) : Bool := r.stream = e.stream && match r.done with
    | some t => t ≤ bn && (match prev with | some p => p < t | none => true)
    | none => false
  let fs := s.carder.frames.filter inWin
  match latestFrame fs with
  | some r => ⟨1, r.ts, some r.data, fs.length - 1, none⟩
  | none => policyChoice x e (e.policy + 2)

/-- A decision reaches its SERVING row, or is logged PAUSED when the row is paused (R496, R497, R499, R500). -/
def State.serveItem (s : State) (n f row seq : Nat) (e : StreamEntry) (c : Choice) : State :=
  match s.feed? n f with
  | none => s
  | some x =>
    let ref := match c.frame with
      | some bs => frameRef bs
      | none => 0
    let paused := s.rowState row = 5 || s.rowState row = 6
    let x := if c.decision = 1 then { x with lasts := x.lasts.filter (fun l => l.1 ≠ e.stream) ++ [(e.stream, c.tag, c.frame)] } else x
    let s := s.setFeed x
    let bad := c.decision = 1 && match c.frame with
      | some bs => (decodeFrame e x.d.c x.d.itemBytes bs).isNone
      | none => false
    let dec := if paused then 5 else c.decision
    let s := if bad && !paused then s else s.feedLog (feedRecord seq x.d.id dec e.stream c.dropped c.tag ref)
    let s := s.countN Ctr.CRD_FRAME_DROP c.dropped
    if paused then s
    else
      let s := s.count (if c.decision = 1 then Ctr.CRD_FRAME_FRESH else Ctr.CRD_FRAME_POLICY)
      let img := if c.decision = 4 then ⟨0, 0, x.d.c, 8, []⟩ else zeroImage e.fw e.fh x.d.c
      let i : FeedItem := {
        slice := n, feed := f, die := rowDie row, row, time := seq, stitch := e.stream, item := 0,
        decision := c.decision, tag := c.tag, frame := c.frame.getD [], ref := c.ref, dropped := c.dropped,
        stage := if c.frame.isSome then .waiting else .ready, image := img }
      { s with carder := { s.carder with items := s.carder.items ++ [i] } }

/-- The stream entries of a feed in ascending stream number. -/
def Feed.sorted (x : Feed) : List StreamEntry := (List.range 64).filterMap (fun k => x.table.find? (fun e => e.stream = k))

/-- A SERVE feed closes its frame set (R495, R496). -/
def State.closeServe (s : State) (x : Feed) (prev : Option Nat) (bn seq : Nat) : State :=
  let rows := s.feedTargets x.d x.d.workDie
  let es := x.sorted
  let s := ((List.range es.length).zip es).foldl (fun s e =>
    let x := (s.feed? x.slice x.idx).getD x
    s.serveItem x.slice x.idx (rows.getD (e.1 % max 1 rows.length) 0) seq e.2 (s.serveChoice x e.2 prev bn)) s
  { s with carder := { s.carder with frames := s.carder.frames.filter (fun r =>
      !(es.any (fun e => e.stream = r.stream) && (match r.done with | some t => t ≤ bn | none => false))) } }

/-- Log record `i` of a REPLAY feed: WHEN, FEED_ID, DECISION, STREAM, TAG, REF. -/
def State.logAt (s : State) (d : FeedDesc) (i : Nat) : Nat × Nat × Nat × Nat × Nat × Nat :=
  let a := d.cursor + 32 * i
  (s.le a 6, s.le (a + 6) 2, s.le (a + 8) 1, bitsOf (s.le (a + 9) 1) 5 0, s.le (a + 12) 4, s.le (a + 16) 8)

/-- The positions of the log's next beat: the feed's own records from its position on that share one WHEN (R502). -/
def State.nextBeat (s : State) (x : Feed) : List Nat :=
  let own := (List.range' x.logPos (x.d.cursorLen - x.logPos)).filter (fun i => (s.logAt x.d i).2.1 = x.d.id)
  match own with
  | [] => []
  | i :: _ => own.takeWhile (fun j => (s.logAt x.d j).1 = (s.logAt x.d i).1)

/-- A REPLAY feed takes one record of its log (R502). -/
def State.replayOne (s : State) (n f seq pos : Nat) : State :=
  match s.feed? n f with
  | none => s
  | some x =>
    let r := s.logAt x.d pos
    match x.table.find? (fun e => e.stream = r.2.2.2.1) with
    | none => s.setFeed { x with logPos := pos + 1 }
    | some e =>
      let rows := s.feedTargets x.d x.d.workDie
      let row := rows.getD ((x.sorted.findIdx (fun y => y.stream = e.stream)) % max 1 rows.length) 0
      let dec := r.2.2.1
      let fresh := dec = 1 || dec = 6
      let rec' := s.recordAt x.d x.recPos
      let s := s.setFeed { x with logPos := pos + 1, recPos := if fresh then x.recPos + 1 else x.recPos }
      if fresh then s.serveItem n f row seq e ⟨1, r.2.2.2.2.1, some (s.bytes rec'.1 rec'.2), 0, some r.2.2.2.2.2⟩
      else if dec = 5 then s.feedLog (feedRecord seq x.d.id 5 e.stream 0 r.2.2.2.2.1 0)
      else s.serveItem n f row seq e (policyChoice x e dec)

/-- The Carder closes the frame sets of the beat whose boundary is at `bn`, after one at `prev` (R495, R502). -/
def State.feedBeat (s : State) (prev : Option Nat) (bn seq : Nat) : State :=
  s.carder.feeds.foldl (fun s x =>
    if x.d.train ∨ s.feedState x.slice x.idx ≠ 1 then s
    else if x.d.mode = 2 then s.closeServe x prev bn seq
    else (s.nextBeat x).foldl (fun s p => s.replayOne x.slice x.idx seq p) s) s

/-! ### The cursor block of a context image (R504) -/

/-- The cursor block of row `l`: its oldest item that is not packed; 0 for another row. -/
def State.cursorBlock (s : State) (l : Nat) : List Byte :=
  if s.rowKind l ≠ 2 then List.replicate 3072 0
  else match s.carder.items.find? (fun i => i.row = l && i.stage ≠ .packed) with
    | none => List.replicate 3072 0
    | some i =>
      let id := ((s.feed? i.slice i.feed).map (fun x => x.d.id)).getD 0
      fitBytes 3072 (record [(2, id), (2, 0), (6, i.time), (2, i.stitch), (2, i.item)])

end Sys2Proof.Machine
end

