-- ==== Sys2Proof/Machine/CarderCmd.lean ====
section
/-! DEFINITION. The commands of the Carder (file 08). -/

namespace Sys2Proof.Machine

/-- FEED_OPEN (R466). -/
def execFeedOpen (via : Via) (n : Nat) (v : Word) (s : State) : Host.Outcome State Fault Refusal :=
  .next (s.gated via n (fun s => s.feedCmdWrite n v))

/-- FEED_CLOSE (R508). -/
def execFeedClose (via : Via) (n : Nat) (v : Word) (s : State) : Host.Outcome State Fault Refusal :=
  .next (s.gated via n (fun s => s.feedCmdWrite n v))

/-- FEED_RETARGET (R506). -/
def execFeedRetarget (via : Via) (n : Nat) (v : Word) (s : State) : Host.Outcome State Fault Refusal :=
  .next (s.gated via n (fun s => s.feedCmdWrite n v))

/-- ITEM_DECODE_START (R474). -/
def execItemDecodeStart (die : Nat) (s : State) : Host.Outcome State Fault Refusal := .next (s.startDecode die)

/-- ITEM_DECODE_DONE (R474). -/
def execItemDecodeDone (die pipe : Nat) (fetched : List (List Byte)) (s : State) : Host.Outcome State Fault Refusal :=
  .next (s.endDecode die pipe fetched)

/-- CARDER_ITEM_WRITE (R484). -/
def execCarderItemWrite (row : Nat) (s : State) : Host.Outcome State Fault Refusal := .next (s.writeItem row)

/-- FEED_ITEM_PACKED (R485). -/
def execFeedItemPacked (n feed row slot : Nat) (s : State) : Host.Outcome State Fault Refusal := .next (s.packItem n feed row slot)

/-- FEED_STEP_WRITE (R489). -/
def execFeedStepWrite (n feed ep step : Nat) (s : State) : Host.Outcome State Fault Refusal := .next (s.writeStep n feed ep step)

/-- FEED_STEP_DELIVERED (R490). -/
def execFeedStepDelivered (n feed ep step : Nat) (s : State) : Host.Outcome State Fault Refusal :=
  .next (s.deliverStep n feed ep step)

/-- FEED_RELEASE_RECEIVE (R630). -/
def execFeedReleaseReceive (ep id step : Nat) (s : State) : Host.Outcome State Fault Refusal := .next (s.releaseStep ep id step)

/-- RTP_PACKET (R494). -/
def execRtpPacket (stream : Nat) (packet : List Byte) (stamp : Nat) (s : State) : Host.Outcome State Fault Refusal :=
  .next (s.rtpPacket stream packet stamp)

/-- FRAME_AGE_EXPIRE (R494). -/
def execFrameAgeExpire (stream ts now : Nat) (s : State) : Host.Outcome State Fault Refusal :=
  .next ((s.reach now).ageFrame stream ts)

end Sys2Proof.Machine
end

