-- ==== Sys2Proof/Machine/Needle.lean ====
section
/-! DEFINITION. One needle: its registers and flags, the instruction word's fields, address formation and the memory
accesses, and what an instruction may answer (R318 to R340, R390 to R393). -/

namespace Sys2Proof.Machine

/-! ### Registers, poison bits and flags -/

/-- The flag P is set when `b` holds (R321). -/
def Needle.mark (n : Needle) (b : Bool) : Needle := { n with pf := n.pf || b }

def Needle.gv (n : Needle) (r : Nat) : Nat := fetch 0 n.g r

/-- Poison bit of g register `r` (R319). -/
def Needle.gp (n : Needle) (r : Nat) : Bool := bitOf n.gPoison r

def Needle.setG (n : Needle) (r x : Nat) (pz : Bool) : Needle :=
  { n with g := store 0 n.g r (x % 2 ^ 64), gPoison := putBits n.gPoison r r (bit pz) }

def Needle.vv (n : Needle) (r : Nat) : Nat := fetch 0 n.v r

/-- Poison bits of the four quarters of v register `r` (R319). -/
def Needle.vp (n : Needle) (r : Nat) : Nat := fetch 0 n.vPoison r

def Needle.setV (n : Needle) (r x pz : Nat) : Needle :=
  { n with v := store 0 n.v r (x % 2 ^ 256), vPoison := store 0 n.vPoison r (pz % 16) }

/-- Lane `j` of p register `r`. -/
def Needle.pv (n : Needle) (r j : Nat) : Nat := fetch 0 n.p (8 * r + j)

def Needle.setP (n : Needle) (r j x : Nat) : Needle := { n with p := store 0 n.p (8 * r + j) (x % 2 ^ 64) }

/-- The `k` words of the ply element in lane `j` of the operand that starts at p register `r` (R356). -/
def Needle.plyEl (n : Needle) (r k j : Nat) : List Nat := (List.range k).map (fun w => n.pv (r + w) j)

/-- Writes a ply element. -/
def Needle.setPly (n : Needle) (r j : Nat) (ws : List Nat) : Needle :=
  ((List.range ws.length).zip ws).foldl (fun n e => n.setP (r + e.1) j e.2) n

def Needle.sv (n : Needle) (r : Nat) : Nat := fetch 0 n.seg r

/-- The flags as FLAGS holds them (R387). -/
def Needle.flags (n : Needle) : Nat := bit n.zf + 2 * bit n.nf + 4 * bit n.cf + 8 * bit n.vf + 16 * bit n.pf

def Needle.setFlags (n : Needle) (f : Nat) : Needle :=
  { n with zf := bitOf f 0, nf := bitOf f 1, cf := bitOf f 2, vf := bitOf f 3, pf := bitOf f 4 }

/-- Z and N of a result. -/
def Needle.flagZN (n : Needle) (r : Nat) : Needle := { n with zf := r % 2 ^ 64 = 0, nf := bitOf r 63 }

/-- C and V. -/
def Needle.flagCV (n : Needle) (c v : Bool) : Needle := { n with cf := c, vf := v }

/-- The signed value of a 64-bit word. -/
def sg64 (x : Nat) : Int := signed 64 x

/-- Sum, carry and signed overflow of a 64-bit addition (R338). -/
def addFlags (a b : Nat) : Nat × Bool × Bool :=
  let r := (a + b) % 2 ^ 64
  (r, 2 ^ 64 ≤ a + b, sg64 a + sg64 b ≠ sg64 r)

/-- Difference, carry (no borrow) and signed overflow of a 64-bit subtraction (R338). -/
def subFlags (a b : Nat) : Nat × Bool × Bool :=
  let r := (a + 2 ^ 64 - b) % 2 ^ 64
  (r, b ≤ a, sg64 a - sg64 b ≠ sg64 r)

/-- Sets Z, N, C and V from a sum or difference. -/
def Needle.flagArith (n : Needle) (x : Nat × Bool × Bool) : Needle := (n.flagZN x.1).flagCV x.2.1 x.2.2

/-- Shifts a 64-bit word by `sh` below 64: left 0, logical right 1, arithmetic right 2; with the last bit out (R337). -/
def shift64 (kind a sh : Nat) : Nat × Bool :=
  if sh = 0 then (a, false) else
  match kind with
  | 0 => ((a <<< sh) % 2 ^ 64, bitOf a (64 - sh))
  | 1 => (a >>> sh, bitOf a (sh - 1))
  | _ => (unsigned 64 (sg64 a / (2 ^ sh : Nat)), bitOf a (sh - 1))

/-! ### Fields of an instruction word (R329) -/

def opc (w : Nat) : Nat := bitsOf w 31 26
def fD (w : Nat) : Nat := bitsOf w 25 21
def fA (w : Nat) : Nat := bitsOf w 20 16
def fB (w : Nat) : Nat := bitsOf w 15 11
def fX (w : Nat) : Nat := bitsOf w 10 0
def fImm16 (w : Nat) : Nat := bitsOf w 15 0

/-- IMM16 sign-extended to 64 bits. -/
def simm16 (w : Nat) : Nat := unsigned 64 (signed 16 (fImm16 w))

/-! ### What an instruction answers -/

/-- Where an instruction executes: row, needle, the program, and the factor of a memory instruction's immediate, which
is 1 outside a repeat and the iteration number within one (R346). -/
structure Ctx where
  l : Nat
  i : Nat
  m : SMap Byte
  k : Nat
  deriving DecidableEq, Repr

/-- What an instruction answers: the state and its needle, with a completing trap if it raises one (cause, TADDR), or a
faulting trap, which leaves it without effect (R390). -/
inductive NRes where
  | ok (s : State) (n : Needle)
  | okTrap (s : State) (n : Needle) (cause addr : Nat)
  | trap (cause addr : Nat)
  deriving DecidableEq, Repr

/-- The trap `cause` when `c` holds, else `r`. -/
def trapIf (c : Bool) (cause addr : Nat) (r : NRes) : NRes := if c then .trap cause addr else r

/-! ### Address formation and access (R334, R335, R406) -/

/-- An access that passed its checks: to scratch, or to memory, at an address; or the cause and TADDR it raises. -/
inductive NAddr where
  | scratch (a : Nat)
  | mem (a : Nat)
  | bad (cause addr : Nat)
  deriving DecidableEq, Repr

/-- The effective address of offset `o` in a segment of value `w` for an access of `z` bytes, if inside it (R334). -/
def segAddr (w o z : Nat) : Option Nat :=
  let lim := segLimit w
  match segMode w with
  | 0 => if o + z ≤ lim then some (segBase w + o) else none
  | 1 => if lim ≠ 0 ∧ o % lim + z ≤ lim then some (segBase w + o % lim) else none
  | _ => if o / z < 2 ^ segRb w ∧ 2 ^ segRb w * z ≤ lim then some (segBase w + z * bitRev (segRb w) (o / z)) else none

/-- The access of `z` bytes at offset `o` of space `sp` by a needle of die `d`, aligned to `al`. -/
def State.nAddr (s : State) (d : Nat) (n : Needle) (sp o z al : Nat) (isStore : Bool) : NAddr :=
  if o % al ≠ 0 then .bad 0x03 o
  else if sp = 8 then (if o + z ≤ 98304 then .scratch o else .bad 0x04 o)
  else
    match segAddr (n.sv sp) o z with
    | none => .bad 0x05 o
    | some a =>
      if !s.segReach d a z then .bad 0x05 o
      else if isStore && !segWr (n.sv sp) then .bad 0x06 o
      else .mem a

/-- The bytes of a checked access. -/
def State.nBytes (s : State) (n : Needle) (a : NAddr) (z : Nat) : List Byte :=
  match a with
  | .scratch x => (List.range z).map (fun i => fetch 0 n.scratch (x + i))
  | .mem x => s.bytes x z
  | .bad _ _ => []

/-- The poison marks of the 8-byte words that a checked access touches, one per word. -/
def State.nTags (s : State) (n : Needle) (a : NAddr) (z : Nat) : List Bool :=
  match a with
  | .scratch x => (List.range' (x / 8) ((x + z + 7) / 8 - x / 8)).map (fun w => fetch false n.scratchTags w)
  | .mem x => (List.range' (x / 8) ((x + z + 7) / 8 - x / 8)).map (fun w => fetch false s.tags w)
  | .bad _ _ => []

/-- Writes bytes with one poison mark through a checked access (R322, R420). -/
def nStore (s : State) (n : Needle) (a : NAddr) (bs : List Byte) (pz : Bool) : State × Needle :=
  match a with
  | .scratch x => (s, { n with scratch := putBytes n.scratch x bs, scratchTags := putTags n.scratchTags x bs.length pz })
  | .mem x => (s.write x bs pz, n)
  | .bad _ _ => (s, n)

/-- The access `j` bytes further on. -/
def NAddr.plus (a : NAddr) (j : Nat) : NAddr :=
  match a with
  | .scratch x => .scratch (x + j)
  | .mem x => .mem (x + j)
  | .bad c t => .bad c t

/-- Stores 8-byte words, each with its own poison mark. -/
def nStoreWords (s : State) (n : Needle) (a : NAddr) : List (Nat × Bool) → State × Needle
  | [] => (s, n)
  | (w, pz) :: ws =>
    let x := nStore s n a (leBytes 8 w) pz
    nStoreWords x.1 x.2 (a.plus 8) ws

/-- The 8-byte words of a list of bytes. -/
def wordsLe : Nat → List Byte → List Nat
  | 0, _ => []
  | k + 1, bs => leNat (bs.take 8) :: wordsLe k (bs.drop 8)

/-- Uncorrected scratch errors found by a read mark their words (R264). -/
def Needle.markUe (n : Needle) (a : NAddr) (z : Nat) (ue : List Nat) : Needle :=
  match a with
  | .scratch x =>
    { n with scratchTags := (ue.filter (fun w => x / 8 ≤ w && w < (x + z + 7) / 8)).foldl (fun t w => store false t w true) n.scratchTags }
  | _ => n

/-! ### Draws (R369, R372) -/

/-- The seed of the job open on slice `k`; with no job open the spec names none, and it is a free value (log entry 20). -/
def State.jobSeed (s : State) (k : Nat) : Nat := if (s.job k).isOpen then (s.job k).seed else s.freeBits 64

/-- A free value has been used if no job is open on slice `k`. -/
def State.seedUsed (s : State) (k : Nat) : State := if (s.job k).isOpen then s else s.useFree

/-! ### Trap entry and halting (R391 to R396) -/

/-- Handler offset for `cause` in a program header, 0 for none. -/
def vectorOf (m : SMap Byte) (cause : Nat) : Nat := imgLe m (256 + 2 * cause) 2

/-- Needle `i` of row `l` meets a trap: it enters the handler, or halts with the row (R303, R304, R393, R396). `n` is
the needle as the trap leaves it, `resume` what TPC takes, `at` the trapping instruction's offset. -/
def State.needleTrap (s : State) (l i : Nat) (n : Needle) (cause addr iter : Nat) (pair completing : Bool) (resume at_ : Nat) :
    State :=
  let vec := vectorOf (s.row l).prog cause
  if !n.hm && vec ≠ 0 then
    s.setNeedle l i { n with hm := true, tpc := resume % 65536, tcause := cause + (if completing then 128 else 0), taddr := addr,
                             titer := iter, tflags := n.flags, tpair := pair, pc := vec, wait := .run }
  else (s.setNeedle l i n).rowTrapped l i cause at_ addr

end Sys2Proof.Machine
end

