-- ==== Sys2Proof/Machine/Opt.lean ====
section
/-! DEFINITION. The optimizer engine (R436 to R464): state entries, the checks of ENABLE, work items and commits. -/

namespace Sys2Proof.Machine

/-! ### State entries and parameter blocks -/

/-- A state entry's fields (R436). -/
structure OptEntry where
  tensor : Nat
  recipe : Nat
  gradColl : Nat
  pubColl : Nat
  pubTid : Nat
  gradFmt : Nat
  pubAttr : Nat
  master : Nat
  m1 : Nat
  m2 : Nat
  grad : Nat
  pub : Nat
  stamp : Nat
  fstg : Nat
  param : Nat
  blocks : Nat
  reserved : Nat
  deriving DecidableEq, Repr

/-- Where the holder of a promoted shard reaches address `a` of the lost part's state region (R553). -/
def State.promoAddr (s : State) (a : Nat) : Nat :=
  match s.place a with
  | .hbm d _ => a + s.regionSize d .state
  | _ => a

/-- The state entry at address `a` (R436). -/
def State.readEntry (s : State) (a : Nat) : OptEntry :=
  { tensor := s.le a 3, recipe := s.le (a + 3) 1, gradColl := s.le (a + 4) 2, pubColl := s.le (a + 6) 2,
    pubTid := s.le (a + 8) 3, gradFmt := s.le (a + 11) 1, pubAttr := s.le (a + 12) 4, master := s.le (a + 16) 5,
    m1 := s.le (a + 21) 5, m2 := s.le (a + 26) 5, grad := s.le (a + 32) 5, pub := s.le (a + 37) 5,
    stamp := s.le (a + 42) 5, fstg := s.le (a + 48) 5, param := s.le (a + 54) 2, blocks := s.le (a + 56) 4,
    reserved := s.le (a + 31) 1 + s.le (a + 47) 1 + s.le (a + 53) 1 + s.le (a + 60) 4 }

/-- Entry `i` of slice `n`'s table; from 65,536 on, the entries of a promoted table, whose addresses are the lost part's
(R553, R554). -/
def State.optEntry (s : State) (n i : Nat) : OptEntry :=
  if i < 65536 then s.readEntry (s.addrOf (Reg.OPT_TBL_LO n) (Reg.OPT_TBL_HI n) + 64 * i)
  else
    let tbl := match (s.ckpOf n).promo with
      | some p => p.tbl
      | none => 0
    let e := s.readEntry (s.promoAddr tbl + 64 * (i - 65536))
    let f (a : Nat) : Nat := if a = 0 then 0 else s.promoAddr a
    { e with master := f e.master, m1 := f e.m1, m2 := f e.m2, grad := f e.grad, pub := f e.pub, stamp := f e.stamp,
             fstg := f e.fstg, param := 65536 + e.param }

/-- Address of parameter block `i` of slice `n` (R440); from 65,536 on, of the promoted shard. -/
def State.optParam (s : State) (n i : Nat) : Nat :=
  if i < 65536 then s.addrOf (Reg.OPT_PARAM_LO n) (Reg.OPT_PARAM_HI n) + 64 * i
  else
    let base := match (s.ckpOf n).promo with
      | some p => p.paramBase
      | none => 0
    s.promoAddr base + 64 * (i - 65536)

/-- The promoted entry that slice `n`'s promotion map gives block `b` of a tensor (R555). -/
def State.promoEntry (s : State) (n tensor b : Nat) : Option Nat :=
  if (s.ckpOf n).promo.isNone then none
  else
    let a := s.addrOf (Reg.CKP_PROMO_LO n) (Reg.CKP_PROMO_HI n)
    ((List.range (s.rf (Reg.CKP_PROMO_CNT n) 16 0)).find? (fun i =>
      s.le (a + 16 * i) 3 = tensor && s.le (a + 16 * i + 4) 4 ≤ b &&
        b < s.le (a + 16 * i + 4) 4 + s.le (a + 16 * i + 8) 4)).map (fun i => 65536 + s.le (a + 16 * i + 12) 2)

/-- ENTRIES and PARAMS of OPT_Sn_CNT. -/
def State.optEntries (s : State) (n : Nat) : Nat := s.rf (Reg.OPT_CNT n) 12 0
def State.optParams (s : State) (n : Nat) : Nat := s.rf (Reg.OPT_CNT n) 26 16

/-- Is slice `n`'s engine enabled? -/
def State.optEnabled (s : State) (n : Nat) : Bool := bitOf (s.rd (Reg.OPT_STAT n)).toNat 31

/-- Is the entry's recipe FACTORED (R453)? -/
def OptEntry.factored (e : OptEntry) : Bool := e.recipe = 4

/-- ROWS and COLS of an entry's parameter block. -/
def State.optRows (s : State) (n : Nat) (e : OptEntry) : Nat := s.le (s.optParam n e.param + 40) 4
def State.optCols (s : State) (n : Nat) (e : OptEntry) : Nat := s.le (s.optParam n e.param + 44) 4

/-- Elements of a FACTORED tensor, all owned by this part (R443). -/
def State.optElements (s : State) (n : Nat) (e : OptEntry) : Nat := s.optRows n e * s.optCols n e

/-- Die of an entry: the die in whose state region its master plane lies (R438). -/
def State.optDie (s : State) (n : Nat) (e : OptEntry) : Option Nat :=
  (s.diesOf n).find? (fun d => s.inState d e.master 1)

/-- OPTIMIZER rows of die `d`, in ascending L (R461). -/
def State.optRowsOf (s : State) (d : Nat) : List Nat :=
  (List.range' (32 * d) 32).filter (fun l => s.rowKind l = 3)

/-! ### The checks of ENABLE (R442, R464) -/

/-- The entry holds legal values (0x0190). -/
def OptEntry.legal (e : OptEntry) : Bool :=
  e.reserved = 0 && ((1 ≤ e.recipe && e.recipe ≤ 4) || 0x80 ≤ e.recipe) &&
  (e.gradFmt = 0 || e.gradFmt = 7 || e.gradFmt = 8) &&
  attrStatus e.pubAttr = 0 && attrOut e.pubAttr ≤ 6 && attrIn e.pubAttr = 0 && attrGmode e.pubAttr = 0 &&
  attrPly e.pubAttr = 1

/-- The planes of an entry: base and size, absent planes apart (R437, R445). -/
def State.optPlanes (s : State) (n : Nat) (e : OptEntry) : List (Nat × Nat) :=
  let rc := 4 * (s.optRows n e + s.optCols n e)
  [(e.master, 1024 * e.blocks), (e.grad, imageFull e.gradFmt * e.blocks),
   (e.pub, imageFull (attrOut e.pubAttr) * e.blocks), (e.stamp, 8 * e.blocks)] ++
  (if e.m1 = 0 then [] else [(e.m1, 1024 * e.blocks)]) ++
  (if e.m2 = 0 then [] else [(e.m2, if e.factored then rc else 1024 * e.blocks)]) ++
  (if e.factored then [(e.fstg, 2048 * e.blocks + rc)] else [])

/-- Every plane of an entry lies in one die's state region, aligned to 64 bytes (0x0191). -/
def State.optPlaced (s : State) (n : Nat) (e : OptEntry) : Bool :=
  match s.optDie n e with
  | none => false
  | some d => (s.optPlanes n e).all (fun p => p.1 % 64 = 0 && s.inState d p.1 p.2)

/-- Offset of the work area in a die's hank, and its size on die `d` (R461). -/
def State.optWork (s : State) (n : Nat) : Nat := s.addrOf (Reg.OPT_WORK_LO n) (Reg.OPT_WORK_HI n)
def State.optLog2 (s : State) (n : Nat) : Nat := s.rf (Reg.OPT_WORK_CFG n) 3 0

/-- The ring of the `i`-th OPTIMIZER row of die `d` (R461). -/
def State.optRing (s : State) (n d i : Nat) : Nat :=
  hankBase d + (s.optWork n - hankBase 0) % 0x40000000 + i * (2 ^ s.optLog2 n * 3136)

/-- The work base and LOG2 are in range (0x0194). -/
def State.optWorkOk (s : State) (n : Nat) : Bool :=
  4 ≤ s.optLog2 n && s.optLog2 n ≤ 10 && s.optWork n % 64 = 0 && s.inScratchHank n (s.optWork n) 1 &&
  (s.diesOf n).all (fun d =>
    s.inScratchHank n (s.optRing n d 0) (max 1 ((s.optRowsOf d).length * (2 ^ s.optLog2 n * 3136))) &&
    s.optRing n d 0 + (s.optRowsOf d).length * (2 ^ s.optLog2 n * 3136) ≤ hankBase (d + 1))

/-- Does the list hold one value twice, and where? -/
def dupAt : List Nat → Nat → Option Nat
  | [], _ => none
  | a :: r, i => if r.contains a then some (i + 1 + (r.findIdx (fun x => x == a))) else dupAt r (i + 1)

/-- A program that can serve a USER recipe is loaded in a row (0x0290). -/
def State.optProgram (s : State) (l : Nat) : Bool := (s.row l).len ≠ 0 && 3 ≤ s.rowState l

/-- The first entry that fails `p`. -/
def firstBad (k : Nat) (p : Nat → Bool) : Option Nat := (List.range k).find? (fun i => !p i)

/-- Status of ENABLE and the entry that raised it: the checks of R442 in the order of R464. -/
def State.optCheck (s : State) (n : Nat) : Nat × Nat :=
  let k := s.optEntries n
  let e := s.optEntry n
  let dup (f : OptEntry → Nat) : Option Nat := dupAt ((List.range k).map (fun i => f (e i))) 0
  let params := s.optParams n
  let badParam : Bool := (List.range params).any (fun i =>
    s.le (s.optParam n i + 5) 3 ≠ 0 || s.le (s.optParam n i + 56) 8 ≠ 0)
  match firstBad k (fun i => (e i).legal) with
  | some i => (0x0190, i)
  | none => if badParam then (0x0190, 0) else
  match firstBad k (fun i => s.optPlaced n (e i)) with
  | some i => (0x0191, i)
  | none => if s.rd (Reg.OPT_TBL_LO n) % 64 ≠ 0 ∨ s.rd (Reg.OPT_PARAM_LO n) % 64 ≠ 0 then (0x0191, 0) else
  match [dup (·.tensor), dup (·.gradColl), dup (·.pubColl)].findSome? id with
  | some i => (0x0192, i)
  | none =>
  match firstBad k (fun i => !(e i).factored ||
      (s.optElements n (e i) ≠ 0 && blocksOf (s.optElements n (e i)) = (e i).blocks)) with
  | some i => (0x0193, i)
  | none =>
  if k = 0 ∨ 4096 < k ∨ params = 0 ∨ 1024 < params ∨ !s.optWorkOk n then (0x0194, 0) else
  match firstBad k (fun i => (e i).param < params) with
  | some i => (0x0194, i)
  | none =>
  match firstBad k (fun i => (e i).recipe < 0x80 ||
      match s.optDie n (e i) with
      | some d => (s.optRowsOf d) = [] || (s.optRowsOf d).any s.optProgram
      | none => true) with
  | some i => (0x0290, i)
  | none => if s.optEnabled n then (0x0291, 0) else
  match firstBad k (fun i => match s.optDie n (e i) with
      | some d => (s.optRowsOf d) ≠ []
      | none => true) with
  | some i => (0x0292, i)
  | none => (0, 0)

/-- The status register of slice `n`'s engine after a command. -/
def State.optStat (s : State) (n st entry : Nat) : State :=
  (s.wf (Reg.OPT_STAT n) 27 16 entry).wf (Reg.OPT_STAT n) 15 0 st

/-! ### Work items (R444, R449, R462) -/

/-- The entry whose GRAD_COLL or PUB_COLL `f` names. -/
def State.optEntryFor (s : State) (n : Nat) (f : OptEntry → Nat) (coll : Nat) : Option (Nat × OptEntry) :=
  if s.optEnabled n then
    ((List.range (s.optEntries n)).map (fun i => (i, s.optEntry n i))).find? (fun x => f x.2 = coll)
  else none

/-- The entry that serves a block: the promoted one its promotion map names (R556), or the entry that names `coll`. -/
def State.optEntryOr (s : State) (n : Nat) (f : OptEntry → Nat) (coll : Nat) (pe : Option Nat) : Option (Nat × OptEntry) :=
  match pe with
  | some i => if s.optEnabled n then some (i, s.optEntry n i) else none
  | none => s.optEntryFor n f coll

/-- The stamp of owned block `j` (R439). -/
def State.optStamp (s : State) (e : OptEntry) (j : Nat) : Nat := s.le (e.stamp + 8 * j) 6

/-- Has row `l`'s ring room for slice `n` (R462)? -/
def State.optRoom (s : State) (n l : Nat) : Bool :=
  let its := s.opt.items.filter (fun x => x.slice = n && x.row = l)
  s.rowState l ≠ 0 && its.countP (fun x => !x.staged) < 2 ^ s.optLog2 n &&
  !its.any (fun x => x.slot = fetch 0 s.opt.seqs l % 2 ^ s.optLog2 n)

/-- The bytes of a work item (R444). -/
def workItem (seq entry block ord len stg : Nat) : List Byte :=
  record [(4, seq), (2, entry), (2, 0), (4, block), (4, ord), (2, len), (6, 0), (5, stg), (31, 0), (4, 0)]

/-- Writes a work item into the ring of row `l`, the `i`-th OPTIMIZER row of die `d`, and increments the row's work
trigger counter (R444, R461). -/
def State.optWrite (s : State) (w : OptWait) (d i l : Nat) : State :=
  let n := w.slice
  let seq := fetch 0 s.opt.seqs l
  let slot := seq % 2 ^ s.optLog2 n
  let ring := s.optRing n d i
  let stg := if w.len = 0 then (s.optEntry n w.entry).fstg else ring + 64 * 2 ^ s.optLog2 n + 3072 * slot
  let s := s.writeB (ring + 64 * slot) (workItem seq w.entry w.block w.ord w.len stg)
  let s := { s with opt := { s.opt with
    items := s.opt.items ++ [OptItem.mk n l slot seq w.entry w.block w.ord w.len w.step false],
    seqs := store 0 s.opt.seqs l ((seq + 1) % 2 ^ 32),
    turn := store 0 s.opt.turn d ((i + 1) % (s.optRowsOf d).length) } }
  (s.count Ctr.OPT_ITEMS).ctrBump (s.ctrIdx n (s.rf (Reg.OPT_WORK_CFG n) 29 16 + 32 * d + i) % 16384)

/-- Gives a work item to the next row of the rotation with room; false when every ring is full (R449, R462). -/
def State.optTry (s : State) (w : OptWait) : State × Bool :=
  match s.optDie w.slice (s.optEntry w.slice w.entry) with
  | none => (s, false)
  | some d =>
    let ls := s.optRowsOf d
    let t := fetch 0 s.opt.turn d
    match (List.range ls.length).find? (fun i => s.optRoom w.slice (ls.getD ((t + i) % ls.length) 0)) with
    | some i =>
      let j := (t + i) % ls.length
      (s.optWrite w d j (ls.getD j 0), true)
    | none => (s, false)

/-- Hands a work item to a row, or lets it wait behind the items of its die that wait already (R462). -/
def State.optHand (s : State) (w : OptWait) : State :=
  let die (x : OptWait) := s.optDie x.slice (s.optEntry x.slice x.entry)
  let r := if s.opt.waits.any (fun x => x.slice = w.slice && die x == die w) then (s, false) else s.optTry w
  if r.2 then r.1
  else { s with opt := { s.opt with waits := s.opt.waits ++ [w] } }.count Ctr.OPT_RING_FULL

/-- Block `b`, the `j`-th owned one, of collective `coll` of slice `n` has finalised in `step` with `len` real
elements, and belongs to promoted entry `pe` if any (R556); `all` when every owned block has (R444). -/
def State.optFinalised (s : State) (n coll step b j len : Nat) (pe : Option Nat) (all : Bool) : State :=
  match s.optEntryOr n (·.gradColl) coll pe with
  | none => s
  | some (i, e) =>
    if e.factored then
      if !all then s
      else if (List.range e.blocks).all (fun j => s.optStamp e j = step) then s.countN Ctr.OPT_SKIP e.blocks
      else s.optHand (OptWait.mk n i 0 0 0 step)
    else if s.optStamp e j = step then s.count Ctr.OPT_SKIP
    else s.optHand (OptWait.mk n i b j len step)

/-- Is owned block `j` of a PUB_COLL held until its commit (R450)? -/
def State.optHolds (s : State) (n coll step j : Nat) (pe : Option Nat) : Bool :=
  match s.optEntryOr n (·.pubColl) coll pe with
  | none => false
  | some (_, e) => s.optStamp e j ≠ step

/-! ### Commits (R447, R451, R452) -/

/-- Copies `k` bytes with their tags. -/
def State.copyMarked (s : State) (dst src k : Nat) : State := s.writeMarked dst (s.readMarked src k)

/-- Casts the PUB image of owned block `j`, block `b` of its tensor, with `len` elements (R451, R452). -/
def State.optCast (s : State) (n : Nat) (e : OptEntry) (step b j len : Nat) : State :=
  let xs := (s.readImage 0 len (e.master + 1024 * j)).map (fun x => x.num 0)
  let st := attrRound e.pubAttr = 1
  let ds := (List.range len).map (fun i => drawOf st (s.jobSeed n) step e.pubTid (256 * b + i))
  let s := s.writeMarked (e.pub + imageFull (attrOut e.pubAttr) * j) (elemsOut (attrOut e.pubAttr) (finalNums (attrOut e.pubAttr) ds xs))
  (if st then s.seedUsed n else s).count Ctr.OPT_PUB

/-- Stamps, casts and counts owned block `j` (R447). -/
def State.optSeal (s : State) (n : Nat) (e : OptEntry) (step b j len : Nat) : State :=
  ((s.writeLe (e.stamp + 8 * j) 8 step).optCast n e step b j len).count Ctr.OPT_COMMIT

/-- The commit of a staged item (R445, R447). -/
def State.optCommit (s : State) (x : OptItem) : State :=
  let n := x.slice
  let e := s.optEntry n x.entry
  let s := { s with opt := { s.opt with items := s.opt.items.erase x } }
  if x.len = 0 then
    let el := s.optElements n e
    let s := s.copyMarked e.master e.fstg (4 * el)
    let s := if e.m1 = 0 then s else s.copyMarked e.m1 (e.fstg + 4 * el) (4 * el)
    let s := if e.m2 = 0 then s else s.copyMarked e.m2 (e.fstg + 8 * el) (4 * (s.optRows n e + s.optCols n e))
    (List.range e.blocks).foldl (fun s j => s.optSeal n e x.step j j (blockLen el j)) s
  else
    match s.optDie n e with
    | none => s
    | some d =>
      let i := (s.optRowsOf d).findIdx (fun l => l == x.row)
      let stg := s.optRing n d i + 64 * 2 ^ s.optLog2 n + 3072 * x.slot
      let s := s.copyMarked (e.master + 1024 * x.ord) stg (4 * x.len)
      let s := if e.m1 = 0 then s else s.copyMarked (e.m1 + 1024 * x.ord) (stg + 1024) (4 * x.len)
      let s := if e.m2 = 0 then s else s.copyMarked (e.m2 + 1024 * x.ord) (stg + 2048) (4 * x.len)
      s.optSeal n e x.step x.block x.ord x.len

/-- The engine of slice `n` is off: its outstanding items are dropped (R459, R463). -/
def State.optOff (s : State) (n : Nat) : State :=
  let s := { s with opt := { s.opt with items := s.opt.items.filter (fun x => x.slice ≠ n),
                                        waits := s.opt.waits.filter (fun x => x.slice ≠ n),
                                        drain := s.opt.drain.filter (fun x => x ≠ n) } }
  (s.wf (Reg.OPT_STAT n) 31 31 0).wf (Reg.OPT_STAT n) 30 30 0

/-- FP32 product of two stored words, rounded once (R441). -/
def fpMulWord (a b : Nat) : Nat :=
  match decodeFloat fmtFp32 a, decodeFloat fmtFp32 b with
  | .fin n m e, .fin n' m' e' => roundTo fmtFp32 false none (.fin (n != n') (m * m') (e + e'))
  | .inf n, .fin n' m _ => if m = 0 then canonNan fmtFp32 else packInf fmtFp32 (n != n')
  | .fin n m _, .inf n' => if m = 0 then canonNan fmtFp32 else packInf fmtFp32 (n != n')
  | .inf n, .inf n' => packInf fmtFp32 (n != n')
  | _, _ => canonNan fmtFp32

/-- At the step boundary P1' and P2' are written into every parameter block of an enabled engine (R441). -/
def State.optBoundary (s : State) (n : Nat) : State :=
  if s.optEnabled n then
    let promoted := match (s.ckpOf n).promo with
      | some p => (List.range p.params).map (fun i => 65536 + i)
      | none => []
    (List.range (s.optParams n) ++ promoted).foldl (fun s i =>
      let a := s.optParam n i
      let s := s.writeLe (a + 48) 4 (fpMulWord (s.le (a + 48) 4) (s.le (a + 12) 4))
      s.writeLe (a + 52) 4 (fpMulWord (s.le (a + 52) 4) (s.le (a + 16) 4))) s
  else s

end Sys2Proof.Machine
end

