-- ==== Sys2Proof/Machine/TwistDesc.lean ====
section
/-! DEFINITION. Collective descriptors (R197 to R203): reading one from the ring, its tables, the plans of each
algorithm (R214, R215, R928), and the checks made at fetch (R259). -/

namespace Sys2Proof.Machine

/-! ### Reading a descriptor (R197) -/

/-- The descriptor at address `a`. -/
def State.readDesc (s : State) (a : Nat) : CollDesc :=
  let f (o k hi lo : Nat) : Nat := bitsOf (s.le (a + o) k) hi lo
  { collId := f 0 2 15 0, epoch := f 2 2 15 0, kind := f 4 1 3 0, alg := f 4 1 5 4, tally := f 4 1 6 6 = 1,
    armEn := f 4 1 7 7 = 1, doneEn := f 5 1 0 0 = 1, stepEnd := f 5 1 1 1 = 1, group := f 6 2 11 0, attr := f 8 4 31 0,
    tensor := f 12 3 23 0, stitches := f 16 2 15 0 + 1, members := f 18 2 13 0 + 1, self := f 20 2 13 0,
    ownerCnt := f 22 2 15 0 + 1, elements := f 24 8 39 0, memberTbl := f 32 8 39 0, ownerTbl := f 40 8 39 0,
    srcAddr := f 48 8 39 0, srcLo := f 56 2 15 0, srcCnt := f 60 4 16 0, accAddr := f 64 8 39 0, accLog2 := f 64 8 44 40,
    gaugeAddr := f 72 8 39 0, outAddr := f 80 8 39 0, dstOff := f 88 8 43 0, localEp := f 96 6 47 0, armVal := f 104 4 31 0,
    armCtr := f 108 2 13 0, doneCtr := f 110 2 13 0, user := f 112 4 31 0, step := f 116 6 47 0 }

/-- Are the descriptor's reserved bits 0? -/
def State.descReserved (s : State) (a : Nat) : Bool :=
  let z (o k hi lo : Nat) : Bool := bitsOf (s.le (a + o) k) hi lo = 0
  z 5 1 7 2 && z 6 2 15 12 && z 15 1 7 0 && z 18 2 15 14 && z 20 2 15 14 && z 24 8 63 40 && z 32 8 63 40 &&
  z 40 8 63 40 && z 48 8 63 40 && z 58 2 15 0 && z 60 4 31 17 && z 64 8 63 45 && z 72 8 63 40 && z 80 8 63 40 &&
  z 88 8 63 44 && z 102 2 15 0 && z 108 2 15 14 && z 110 2 15 14 && z 122 6 47 0

/-! ### Kinds (R198) -/

def CollDesc.barrier (d : CollDesc) : Bool := d.kind = 6
def CollDesc.prepass (d : CollDesc) : Bool := d.kind = 5
/-- REDUCE_SCATTER or ALL_REDUCE: blocks are summed. -/
def CollDesc.reduces (d : CollDesc) : Bool := d.kind = 1 || d.kind = 3
/-- ALL_GATHER or BROADCAST: owners send the blocks at SRC_ADDR. -/
def CollDesc.gathers (d : CollDesc) : Bool := d.kind = 2 || d.kind = 4
/-- A gather in the sense of R927. -/
def CollDesc.delivers (d : CollDesc) : Bool := d.kind = 2 || d.kind = 3 || d.kind = 4
def CollDesc.forecast (d : CollDesc) : Bool := attrGmode d.attr = 1
def CollDesc.out (d : CollDesc) : Nat := attrOut d.attr
def CollDesc.ply (d : CollDesc) : Nat := attrPly d.attr
def CollDesc.blocks (d : CollDesc) : Nat := blocksOf d.elements
/-- Units that have a slot and a done bit: blocks, gauge groups of 256 blocks, or the one barrier slot. -/
def CollDesc.units (d : CollDesc) : Nat :=
  if d.barrier then 1 else if d.prepass then (d.blocks + 255) / 256 else d.blocks
/-- Positions of a bitmap: stitches, or members for BARRIER. -/
def CollDesc.total (d : CollDesc) : Nat := if d.barrier then d.members else d.stitches
/-- Endpoints that take part. -/
def CollDesc.eps (d : CollDesc) : List Nat := (onesOf 48 d.localEp).map (· + 1)

/-! ### The accumulator region (R218, R219, R929) -/

def CollDesc.slots (d : CollDesc) : Nat := if d.barrier then 1 else 2 ^ d.accLog2
/-- Bytes between a slot's state and its bitmap. -/
def CollDesc.bodyLen (d : CollDesc) : Nat := if d.barrier then 0 else if d.prepass then 256 else 16 + 2048 * d.ply
def CollDesc.mapLen (d : CollDesc) : Nat := (d.total + 511) / 512 * 64
def CollDesc.slotLen (d : CollDesc) : Nat := roundUp (64 + d.bodyLen + d.mapLen) 64
def CollDesc.doneLen (d : CollDesc) : Nat := roundUp ((2 * d.units + 7) / 8) 64
def CollDesc.accLen (d : CollDesc) : Nat := d.slots * d.slotLen + d.doneLen
def CollDesc.slotAddr (d : CollDesc) (u : Nat) : Nat := d.accAddr + d.slotLen * (u % d.slots)
def CollDesc.doneAddr (d : CollDesc) (u : Nat) : Nat := d.accAddr + d.slots * d.slotLen + u / 4

/-- Size of the gauge table, and of the pending table that follows a history (R229, R231). -/
def CollDesc.gaugeLen (d : CollDesc) : Nat := roundUp d.blocks 64

/-! ### Tables (R199 to R202) -/

/-- Entry `m` of the member table as it stands. -/
def State.memberEntry (s : State) (d : CollDesc) (m : Nat) : CollMember :=
  let w := s.le (d.memberTbl + 8 * m) 8
  ⟨bitsOf w 13 0, bitsOf w 31 16, bitsOf w 48 32⟩

def State.memberList (s : State) (d : CollDesc) : List CollMember := (List.range d.members).map (s.memberEntry d)

/-- Entry `i` of the owner table as it stands. -/
def State.ownerEntry (s : State) (d : CollDesc) (i : Nat) : Nat × Nat :=
  let w := s.le (d.ownerTbl + 8 * i) 8
  (bitsOf w 31 0, bitsOf w 45 32)

def State.ownerList (s : State) (d : CollDesc) : List (Nat × Nat) := (List.range d.ownerCnt).map (s.ownerEntry d)

/-- Do the spans tile from `lo` to `total` in member order (R200)? -/
def spansTile (total : Nat) : Nat → List CollMember → Bool
  | lo, [] => lo = total
  | lo, m :: ms => m.lo = lo && spansTile total (lo + m.cnt) ms

/-- The owner of block `b` (R202). -/
def ownerIn (owners : List (Nat × Nat)) (b : Nat) : Nat :=
  ((owners.filter (fun e => e.1 ≤ b)).getLast?.map (fun e => e.2)).getD 0

/-- The block ranges [first, last) of the owner table entries that name member `m`, cut to the tensor's blocks. -/
def ownedRanges (blocks : Nat) (m : Nat) : List (Nat × Nat) → List (Nat × Nat)
  | [] => []
  | (f, o) :: r =>
    let e := match r with
      | (g, _) :: _ => min g blocks
      | [] => blocks
    (if o = m ∧ f < e then [(f, e)] else []) ++ ownedRanges blocks m r

/-- The blocks that member `m` owns, rising. -/
def ownedBlocks (owners : List (Nat × Nat)) (blocks m : Nat) : List Nat :=
  (ownedRanges blocks m owners).flatMap (fun r => List.range' r.1 (r.2 - r.1))

/-- Size of the images of blocks packed one after another (R227, R238). -/
def packedLen (code elements : Nat) (bs : List Nat) : Nat := (bs.map (fun b => imageLen code (blockLen elements b))).sum

/-! ### Plans (R214, R215, R247, R249, R928) -/

def Coll.owner (c : Coll) (u : Nat) : Nat :=
  if c.d.barrier then 0 else ownerIn c.owners (if c.d.prepass then 256 * u else u)

/-- A member's own span. -/
def Coll.ownSpan (c : Coll) (m : Nat) : Nat × Nat :=
  if c.d.barrier then (m, 1) else match c.members[m]? with
    | some x => (x.lo, x.cnt)
    | none => (0, 0)

/-- The wrapped span that relative members [x, y) of owner `o` cover. -/
def Coll.relSpan (c : Coll) (o x y : Nat) : Nat × Nat :=
  let m (r : Nat) := (o + r) % c.d.members
  ((c.ownSpan (m x)).1 % c.d.total, ((List.range' x (y - x)).map (fun r => (c.ownSpan (m r)).2)).sum)

/-- The relative range of node `r` under TREE and its parent (R215), searched from node [a, b). -/
def treeNode (r : Nat) : Nat → Nat → Nat → Nat → Nat × Nat × Nat
  | 0, a, b, p => (a, b, p)
  | f + 1, a, b, p =>
    if r = a then (a, b, p) else
    let m := a + 1 + (b - a) / 2
    if r < m then treeNode r f (a + 1) m a else treeNode r f m b a

/-- The relative index of member `m` for unit `u`. -/
def Coll.rel (c : Coll) (m u : Nat) : Nat := (m + c.d.members - c.owner u) % c.d.members

/-- The expected span of member `m` for unit `u` (R214). -/
def Coll.expected (c : Coll) (m u : Nat) : Nat × Nat :=
  let r := c.rel m u
  if r = 0 then (0, c.d.total)
  else match c.d.alg with
    | 0 => c.ownSpan m
    | 1 => c.relSpan (c.owner u) 1 (r + 1)
    | _ => let t := treeNode r c.d.members 0 c.d.members 0
           c.relSpan (c.owner u) t.1 t.2.1

/-- The member to which member `m` sends its partial of unit `u`. -/
def Coll.target (c : Coll) (m u : Nat) : Nat :=
  let r := c.rel m u
  let dest := match c.d.alg with
    | 0 => 0
    | 1 => if r + 1 = c.d.members then 0 else r + 1
    | _ => (treeNode r c.d.members 0 c.d.members 0).2.2
  (c.owner u + dest) % c.d.members

/-- The spans that member `m` expects from other members for unit `u`. -/
def Coll.incoming (c : Coll) (m u : Nat) : List (Nat × Nat) :=
  let r := c.rel m u
  let o := c.owner u
  let k := c.d.members
  let spans := match c.d.alg with
    | 0 => if r = 0 then (List.range' 1 (k - 1)).map (fun x => c.relSpan o x (x + 1)) else []
    | 1 => if r = 0 then (if k = 1 then [] else [c.relSpan o 1 k]) else if r = 1 then [] else [c.relSpan o 1 r]
    | _ =>
      let t := treeNode r k 0 k 0
      let a := t.1
      let b := t.2.1
      let m := a + 1 + (b - a) / 2
      (if a + 1 < b then [c.relSpan o (a + 1) m] else []) ++ (if m < b then [c.relSpan o m b] else [])
  spans.filter (fun x => x.2 ≠ 0)

/-! ### The checks made at fetch (R259) -/

/-- The regions of a descriptor that must lie in the slice's memory: base, size, alignment (R198, R217, R227, R229, R231,
R238, R239). -/
def Coll.regions (c : Coll) : List (Nat × Nat × Nat) :=
  let d := c.d
  let mine := ownedBlocks c.owners d.blocks d.self
  (if d.reduces || d.prepass || d.barrier then [(d.accAddr, d.accLen, 64)] else []) ++
  (if d.reduces || d.prepass then
    [(d.gaugeAddr, max 1 (d.gaugeLen * (if d.forecast && !d.prepass then 2 else 1)), 64),
     (d.srcAddr, d.srcCnt * tensorLen (attrIn d.attr) d.elements, 1)] else []) ++
  (if d.gathers then [(d.srcAddr, packedLen d.out d.elements mine, 1)] else []) ++
  (if d.outAddr = 0 then [] else if d.kind = 1 then [(d.outAddr, packedLen d.out d.elements mine, 1)]
   else if d.delivers then [(d.outAddr, tensorLen d.out d.elements, 1)] else [])

/-- Is a table of `k` 8-byte entries aligned and in the slice's memory? -/
def State.tblPlaced (s : State) (n a k : Nat) : Bool := a % 8 = 0 && s.inSlice n a (8 * k)

/-- Is multicast group `g` defined on this part? -/
def State.groupDefined (s : State) (g : Nat) : Bool := bitOf (s.rd (Reg.SWT_MC g 7)).toNat 31

/-- The status of the descriptor of `c` as slice `n` fetches it, 0 when it passes (R259). `a` is the descriptor's
address. -/
def State.descStatus (s : State) (n a : Nat) (c : Coll) : Nat :=
  let d := c.d
  let st := if d.barrier then 0 else attrStatus d.attr
  let share := s.shareSize 16384
  let words (b k : Nat) : List Nat := (List.range k).map (fun i => s.le (b + 8 * i) 8)
  if d.kind = 0 ∨ 7 ≤ d.kind ∨ d.alg = 3 ∨ !s.descReserved a then 0x0150
  else if st ≠ 0 then st
  else if d.members ≤ d.self ∨ ((d.barrier ∨ d.kind = 4) ∧ d.ownerCnt ≠ 1) ∨ (d.armEn ∧ share ≤ d.armCtr) ∨
      (d.doneEn ∧ share ≤ d.doneCtr) then 0x0151
  else if !s.tblPlaced n d.memberTbl d.members then 0x0154
  else if (words d.memberTbl d.members).any (fun w => bitsOf w 15 14 ≠ 0 || bitsOf w 63 49 ≠ 0) ∨
      !spansTile d.stitches 0 c.members then 0x0152
  else if !s.tblPlaced n d.ownerTbl d.ownerCnt then 0x0154
  else if (words d.ownerTbl d.ownerCnt).any (fun w => bitsOf w 63 46 ≠ 0) ∨ (c.owners.headD (0, 0)).1 ≠ 0 ∨
      !strictlyRising (c.owners.map (fun e => e.1)) ∨ c.owners.any (fun e => d.members ≤ e.2) then 0x0153
  else if ((d.reduces || d.prepass) ∧ (d.accLog2 < 4 ∨ 24 < d.accLog2)) ∨
      c.regions.any (fun r => (r.2.1 ≠ 0 && !s.inSlice n r.1 r.2.1) || r.1 % r.2.2 ≠ 0) then 0x0154
  else if (!d.barrier && d.elements = 0) ∨ (d.gathers ∧ d.alg ≠ 0) ∨
      ((d.reduces || d.prepass) ∧ d.srcCnt ≠ 0 ∧
        (d.srcLo < (c.ownSpan d.self).1 ∨ (c.ownSpan d.self).1 + (c.ownSpan d.self).2 < d.srcLo + d.srcCnt)) then 0x0155
  else if !(s.job n).isOpen ∨ ¬(d.step = s.stepCtr n ∨ d.step = s.stepCtr n + 1) then 0x0256
  else if d.stepEnd ∧ s.tws.colls.any (fun x => x.slice = n && x.d.stepEnd && x.d.step = d.step) then 0x0257
  else if s.tws.colls.any (fun x => x.d.collId = d.collId) then 0x0250
  else if !s.groupDefined d.group then 0x0253
  else if d.epoch ≠ (s.job n).epoch then 0x0254
  else 0

end Sys2Proof.Machine
end

