-- ==== Sys2Proof/Machine/TwistSlot.lean ====
section
/-! DEFINITION. Accumulator slots, stitch bitmaps and done maps in memory (R218 to R220), and the adding of a record to
its slot (R153, R154, R186, R221 to R224, R236, R247, R249). -/

namespace Sys2Proof.Machine

/-! ### Collectives in State -/

/-- The collective in flight with COLL_ID `id` (R254: at most one). -/
def State.coll? (s : State) (id : Nat) : Option Coll := s.tws.colls.find? (fun c => c.d.collId = id)

/-- Replaces a collective in flight. -/
def State.setColl (s : State) (c : Coll) : State :=
  { s with tws := { s.tws with colls := s.tws.colls.map (fun x => if x.serial = c.serial then c else x) } }

/-- The first nonzero status a collective meets (R245). -/
def Coll.meet (c : Coll) (st : Nat) : Coll := if c.status = 0 then { c with status := st } else c

/-- Raises a Twist event. -/
def State.twsEvent (s : State) (i : Nat) : State := s.event Reg.TWS_EVT i

/-! ### Slots (R218, R219) -/

def State.slotBusy (s : State) (a : Nat) : Bool := bitOf (s.byte (a + 4)).toNat 0
def State.slotBlock (s : State) (a : Nat) : Nat := s.le a 4
def State.slotRound (s : State) (a : Nat) : Nat := bitsOf (s.byte (a + 4)).toNat 1 1
def State.slotMiss (s : State) (a : Nat) : Bool := bitOf (s.byte (a + 4)).toNat 2
def State.slotObs (s : State) (a : Nat) : Nat := (s.byte (a + 5)).toNat
def State.slotGauge (s : State) (a : Nat) : Nat := (s.byte (a + 6)).toNat
def State.slotArrived (s : State) (a : Nat) : Nat := s.le (a + 8) 4

/-- Sets or clears bit `i` of the flags byte of a slot. -/
def State.slotFlag (s : State) (a i : Nat) (b : Bool) : State :=
  s.writeLe (a + 4) 1 (putBits (s.byte (a + 4)).toNat i i (bit b))

/-- Does the slot at `a` hold unit `u`? -/
def State.slotHolds (s : State) (a u : Nat) : Bool := s.slotBusy a && s.slotBlock a = u

/-- Open split record `i` of a slot: first stitch, count, piece mask; a mask of 0 is an unused entry. -/
def State.slotOpen (s : State) (a i : Nat) : Nat × Nat × Nat :=
  (s.le (a + 12 + 5 * i) 2, s.le (a + 14 + 5 * i) 2 + 1, s.le (a + 16 + 5 * i) 1)

/-- The entry of a slot that tracks an open split record. -/
def State.openEntry (s : State) (a lo cnt : Nat) : Option Nat :=
  (List.range 8).find? (fun i => let e := s.slotOpen a i; e.2.2 ≠ 0 && e.1 = lo && e.2.1 = cnt)

/-- A free entry of a slot. -/
def State.openFree (s : State) (a : Nat) : Option Nat := (List.range 8).find? (fun i => (s.slotOpen a i).2.2 = 0)

def State.setOpen (s : State) (a i lo cnt mask : Nat) : State :=
  s.writeB (a + 12 + 5 * i) (record [(2, lo), (2, cnt - 1), (1, mask)])

/-- The bitmap of the slot at `a`. -/
def State.bitmap (s : State) (d : CollDesc) (a : Nat) : Nat := s.le (a + 64 + d.bodyLen) d.mapLen

def State.setBitmap (s : State) (d : CollDesc) (a x : Nat) : State := s.writeLe (a + 64 + d.bodyLen) d.mapLen x

/-! ### The done map (R218) -/

def State.unitDone (s : State) (d : CollDesc) (u : Nat) : Bool := bitOf (s.byte (d.doneAddr u)).toNat (2 * (u % 4))
def State.doneRound (s : State) (d : CollDesc) (u : Nat) : Nat :=
  bitsOf (s.byte (d.doneAddr u)).toNat (2 * (u % 4) + 1) (2 * (u % 4) + 1)

def State.setDone (s : State) (d : CollDesc) (u : Nat) (on : Bool) (round : Nat) : State :=
  s.writeLe (d.doneAddr u) 1 (putBits (s.byte (d.doneAddr u)).toNat (2 * (u % 4) + 1) (2 * (u % 4)) (bit on + 2 * round))

/-! ### Gauges (R229 to R232) -/

/-- The gauge byte a block of the reduction starts with, and whether it starts with MISS set. -/
def State.blockGauge (s : State) (d : CollDesc) (b : Nat) : Nat × Bool :=
  let h := (s.byte (d.gaugeAddr + b)).toNat
  if d.forecast then (if h = 0 then (0, true) else (forecast h, false)) else (max 1 h, false)

/-- Bytes of a fresh slot for unit `u`: its state and its ply block, with every word 0. -/
def freshSlot (d : CollDesc) (u round gauge : Nat) (miss : Bool) : List Byte :=
  record [(4, u), (1, 1 + 2 * round + 4 * bit miss), (1, 0), (1, gauge)] ++ List.replicate 57 0 ++
  (if d.reduces then fitBytes d.bodyLen (plyHeader d.ply gauge 0 (bit miss) d.tensor u) else List.replicate d.bodyLen 0) ++
  List.replicate d.mapLen 0

/-- Takes the slot of unit `u` in round `round`. -/
def State.takeSlot (s : State) (d : CollDesc) (u round gauge : Nat) (miss : Bool) : State :=
  s.writeB (d.slotAddr u) (freshSlot d u round gauge miss)

/-- Takes the slot for the first round, when it does not hold the unit already. -/
def State.ensureSlot (s : State) (d : CollDesc) (u : Nat) : State :=
  if s.slotHolds (d.slotAddr u) u then s
  else
    let g := if d.reduces then s.blockGauge d u else (0, false)
    s.takeSlot d u 0 g.1 g.2

def State.freeSlot (s : State) (d : CollDesc) (u : Nat) : State := s.slotFlag (d.slotAddr u) 0 false

/-! ### The ply block of a slot -/

def CollDesc.wordAddr (d : CollDesc) (a i : Nat) : Nat := a + 64 + 16 + 8 * d.ply * i

/-- Element `i` of a slot's ply block; a poisoned word reads as POISON. -/
def State.slotElem (s : State) (d : CollDesc) (a i : Nat) : List Nat := (s.imageElem (6 + d.ply) 256 (a + 64) i).words

/-- Writes elements of a slot from element `i` on. -/
def State.setSlotElems (s : State) (d : CollDesc) (a i : Nat) (els : List (List Nat)) : State :=
  s.writeB (d.wordAddr a i) (els.flatMap (fun ws => ws.flatMap (leBytes 8)))

/-- ORs flags into byte 2 of the slot's ply block header, and notes OBS there (R184, R185). -/
def State.slotHeader (s : State) (a obs flags : Nat) : State :=
  (s.writeLe (a + 65) 1 (max obs (s.byte (a + 65)).toNat)).writeLe (a + 66) 1 ((s.byte (a + 66)).toNat ||| flags)

/-- Marks every real element of the block in a slot POISON (R186, R236, R256). -/
def State.poisonSlot (s : State) (d : CollDesc) (u : Nat) : State :=
  let a := d.slotAddr u
  if d.reduces then
    (s.setSlotElems d a 0 (List.replicate (blockLen d.elements u) (specialWords d.ply spPoison))).slotHeader a 0 8
  else s

/-! ### Adding terms (R153, R154, R165, R167, R186) -/

/-- What a record adds to a slot and how it was taken: the state, and the status the collective meets, 0 for none; 0x0255
for a redo mismatch. -/
structure AddRes where
  s : State
  status : Nat

/-- Adds ply elements into a slot from element `i` on (R138, R165, R167). -/
def State.addElems (s : State) (d : CollDesc) (a i : Nat) (els : List (List Nat)) : AddRes :=
  let sums := ((List.range els.length).zip els).map (fun e => plyAdd d.ply (s.slotElem d a (i + e.1)) e.2)
  let carries := sums.countP (fun x => x.2)
  let pz := sums.any (fun x => plyPoison x.1)
  let sp := sums.any (fun x => plySpecial x.1)
  let s := (s.setSlotElems d a i (sums.map (fun x => x.1))).slotHeader a 0 (8 * bit pz + 16 * bit sp)
  let s := s.countN Ctr.TWS_WORD_ADD (d.ply * els.length)
  if carries = 0 then ⟨s, 0⟩ else ⟨(s.countN Ctr.TWS_CARRY carries).eventN Reg.TWS_EVT 1 carries, 0x0240⟩

/-- The elements of a CONTRIB piece. -/
def recElems (r : TwistRec) : List BElem := payloadIn r.format r.len r.poison r.payload

/-- The observed gauge byte of a CONTRIB piece (R144, R148). -/
def recObserved (r : TwistRec) : Nat :=
  if plyWordsOf r.format ≠ 0 then r.obs
  else ((recElems r).map (fun x => expByte (x.num r.format))).foldl max r.obs

/-- Takes the terms of a CONTRIB piece into the slot of its block. -/
def State.addTerms (s : State) (d : CollDesc) (r : TwistRec) : AddRes :=
  let a := d.slotAddr r.block
  let obs := recObserved r
  let s := (s.writeLe (a + 5) 1 (max obs (s.slotObs a))).slotHeader a obs (8 * bit r.poison + 16 * bit r.special)
  let raw := plyWordsOf r.format = 0
  let big := r.miss || (raw && s.slotGauge a < obs)
  if s.slotRound a = 1 ∧ big then ⟨(s.poisonSlot d r.block).twsEvent 4, 0x0255⟩
  else if big ∨ s.slotMiss a then ⟨(s.slotFlag a 2 true).slotHeader a 0 4, 0⟩
  else if !raw ∧ (max 1 r.gauge ≠ s.slotGauge a ∨ plyWordsOf r.format ≠ d.ply ∨ r.tensor ≠ d.tensor) then
    ⟨s.poisonSlot d r.block, 0x0142⟩
  else
    s.addElems d a (if 1 < r.pieces then 64 * r.piece else 0)
      ((recElems r).map (fun x => if raw then plyConvert d.ply (s.slotGauge a) (x.num r.format) else x.words))

/-- Combines gauge bytes by bytewise maximum (R247). -/
def State.addGauges (s : State) (d : CollDesc) (u : Nat) (bs : List Byte) : State :=
  let a := d.slotAddr u + 64
  s.writeB a (((List.range bs.length).zip bs).map (fun e => if (s.byte (a + e.1)).toNat < e.2.toNat then e.2 else s.byte (a + e.1)))

/-! ### Tally entries (R117, R208, R250) -/

def TallyEntry.zero : TallyEntry := ⟨0, 0, 0, false, false, 0⟩

def TallyEntry.plus (a b : TallyEntry) : TallyEntry :=
  ⟨(a.digest + b.digest) % 2 ^ 64, (a.elements + b.elements) % 2 ^ 40, min (a.poisoned + b.poisoned) (2 ^ 32 - 1),
   a.poison || b.poison, a.seen || b.seen, if a.seen then a.format else b.format⟩

/-- The entry of a part-scope tally. -/
def TallyEntry.ofAcc (t : TallyAcc) : TallyEntry :=
  ⟨t.digest, t.elements, t.poisoned, t.poisoned ≠ 0, t.seen, if t.seen then t.format else 0⟩

/-- A tally entry, 24 bytes (R208). -/
def TallyEntry.bytes (t : TallyEntry) : List Byte :=
  record [(8, t.digest), (8, t.elements), (4, t.poisoned), (1, bit t.poison + 2 * bit t.seen), (1, t.format), (2, 0)]

/-- Entry `i` of a payload. -/
def entryIn (bs : List Byte) (i : Nat) : TallyEntry :=
  let o := 24 * i
  ⟨leAt bs o 8, leAt bs (o + 8) 8 % 2 ^ 40, leAt bs (o + 16) 4, bitOf (byteAt bs (o + 20)) 0, bitOf (byteAt bs (o + 20)) 1,
   byteAt bs (o + 21)⟩

/-- Adds entries to a list from position `i` on. -/
def addEntries (es : List TallyEntry) (i : Nat) (xs : List TallyEntry) : List TallyEntry :=
  (List.range (max es.length (i + xs.length))).map (fun j =>
    let e := es.getD j .zero
    if i ≤ j then (match xs[j - i]? with | some x => e.plus x | none => e) else e)

end Sys2Proof.Machine
end

