-- ==== Sys2Proof/Machine/Twist.lean ====
section
/-! DEFINITION. What a Twist cluster does with its slots and records: sending and keeping records (R205 to R213),
forwarding and finalising (R225 to R227), redo rounds (R234 to R236), results (R237 to R240), gauge groups, barriers and
tallies (R246 to R251), and the end of a descriptor (R242 to R245, R252). -/

namespace Sys2Proof.Machine

/-! ### Sending and keeping (R210 to R212, R226) -/

/-- A record of collective `c` with everything but its header's own fields 0. -/
def State.mkRec (s : State) (c : Coll) (type block : Nat) : TwistRec :=
  { collId := c.d.collId, epoch := c.d.epoch, block, spanLo := 0, spanCnt := 1, type, round := 0, miss := false,
    poison := false, special := false, format := 0, gauge := 0, obs := 0, piece := 0, pieces := 1, len := 0,
    tensor := c.d.tensor, srcPart := s.partId, srcEp := 0, payload := [] }

/-- The identity by which a piece is acknowledged (R211). -/
def ackKey (r : TwistRec) : AckKey := ⟨r.collId, r.epoch, r.block, r.piece, r.spanLo, r.spanCnt, r.round, r.type⟩

/-- Keeps a piece until `part` acknowledges it; its timeout starts at 8 us (R211). -/
def State.keep (s : State) (slice part : Nat) (r : TwistRec) : State :=
  { s with tws := { s.tws with kept := s.tws.kept ++ [{ slice, peer := part, key := ackKey r, msg := r, timeout := 8000 }] } }

/-- Sends pieces to one member. -/
def State.sendTo (s : State) (c : Coll) (m : Nat) (rs : List TwistRec) : State :=
  let part := (c.members[m]?.map (fun x => x.part)).getD 0
  rs.foldl (fun s r => (s.emit (.twist part r)).keep c.slice part r) s

/-- The parts of the other members. -/
def Coll.peers (c : Coll) : List Nat :=
  ((List.range c.members.length).zip c.members).filterMap (fun e => if e.1 = c.d.self then none else some e.2.part)

/-- Sends pieces to GROUP, each kept for every other member (R210, R618). -/
def State.sendGroup (s : State) (c : Coll) (rs : List TwistRec) : State :=
  rs.foldl (fun s r => c.peers.foldl (fun s p => s.keep c.slice p r) (s.emit (.twistGroup c.d.group r))) s

/-- Cuts a list into pieces of `k`. -/
def chunksOf {α : Type} (k : Nat) : Nat → List α → List (List α)
  | 0, _ => []
  | _, [] => []
  | f + 1, xs => xs.take k :: chunksOf k f (xs.drop k)

/-- The pieces of a block record with elements `xs` (R207). -/
def blockRecs (r : TwistRec) (code : Nat) (xs : List BElem) : List TwistRec :=
  let cs := if 1 < piecesOf code xs.length then chunksOf 64 xs.length xs else [xs]
  ((List.range cs.length).zip cs).map (fun e =>
    { r with format := code, piece := e.1, pieces := cs.length, len := e.2.length, payload := payloadOut code e.2 })

/-- The pieces of a TOKEN or RELEASE with tally entries, 169 to a piece (R208). -/
def entryRecs (r : TwistRec) (es : List TallyEntry) : List TwistRec :=
  let cs := if es = [] then [[]] else chunksOf 169 es.length es
  ((List.range cs.length).zip cs).map (fun e =>
    { r with piece := e.1, pieces := cs.length, len := e.2.length, payload := e.2.flatMap TallyEntry.bytes })

/-- Sends a notice of collective `c` to every local endpoint (R627). -/
def State.noticeEps (s : State) (c : Coll) (kind x y : Nat) : State :=
  c.d.eps.foldl (fun s e => s.emit (.notice e kind c.d.collId c.d.epoch x y)) s

/-! ### Completion records (R242 to R245, R258) -/

/-- Has slice `n`'s completion ring no room (R258)? -/
def State.cqFull (s : State) (n : Nat) : Bool :=
  2 ^ s.rf (Reg.TWS_CQ_SIZE n) 3 0 ≤ aheadMod 16 (s.rf (Reg.TWS_CQ_HEAD n) 15 0) (s.rf (Reg.TWS_CQ_TAIL n) 15 0)

/-- TWS_Qn_ERR takes a nonzero status and the ring index that raised it. -/
def State.twsErr (s : State) (n st idx : Nat) : State :=
  if st = 0 then s else s.wr (Reg.TWS_ERR n) (BitVec.ofNat 32 (st * 65536 + idx % 65536))

/-- Writes a completion record with its phase, and CQ_TAIL (R245). -/
def State.cqWrite (s : State) (h : HeldRec) : State :=
  let t := s.rf (Reg.TWS_CQ_TAIL h.slice) 15 0
  let l := s.rf (Reg.TWS_CQ_SIZE h.slice) 3 0
  let a := s.addrOf (Reg.TWS_CQ_BASE_LO h.slice) (Reg.TWS_CQ_BASE_HI h.slice) + 16 * (t % 2 ^ l)
  let s := s.writeB a (fitBytes 15 h.bytes ++ leBytes 1 (if t / 2 ^ l % 2 = 0 then 1 else 0))
  (s.wf (Reg.TWS_CQ_TAIL h.slice) 15 0 (t + 1)).twsErr h.slice h.status h.idx

/-- The descriptor of serial `k` leaves the part once its record is written: DONE_CTR counts (R244), and a gather that
failed is noted for its step (R927). -/
def State.retireColl (s : State) (k st : Nat) : State :=
  match s.tws.colls.find? (fun c => c.serial = k) with
  | none => s
  | some c =>
    let s := { s with tws := { s.tws with
      colls := s.tws.colls.filter (fun x => x.serial ≠ k),
      past := s.tws.past ++ [c],
      failed := if c.d.delivers ∧ st ≠ 0 then s.tws.failed ++ [(c.slice, c.d.step, c.serial)] else s.tws.failed } }
    s.ctrBumpOpt c.slice (if c.d.doneEn then some c.d.doneCtr else none)

/-- Writes a completion record and retires its descriptor. -/
def State.complete (s : State) (h : HeldRec) : State :=
  let s := s.cqWrite h
  match h.serial with
  | some k => s.retireColl k h.status
  | none => s

/-- Writes a completion record, or holds it while the ring has no room (R258). -/
def State.completeOrHold (s : State) (h : HeldRec) : State :=
  if s.cqFull h.slice || s.tws.heldRecs.any (fun x => x.slice = h.slice) then
    { s with tws := { s.tws with
      heldRecs := s.tws.heldRecs ++ [h],
      colls := s.tws.colls.map (fun c => if some c.serial = h.serial then { c with held := true } else c) } }
  else s.complete h

/-- BLOCKS of a completion record (R245). -/
def Coll.blocksField (c : Coll) : Nat := if c.d.gathers then c.written.length else if c.d.barrier then 0 else c.blocks

/-- The completion record of `c` with status `st`, its phase apart (R245). -/
def Coll.heldRec (c : Coll) (st : Nat) : HeldRec :=
  ⟨c.slice, record [(2, c.d.collId), (2, st), (4, c.d.user), (4, c.blocksField), (2, min c.redo 0xFFFF)], st, c.idx, some c.serial⟩

/-- A descriptor completes with status `st`: COMPLETE or ABANDON to its endpoints, then its record (R242, R252). -/
def State.finishColl (s : State) (c : Coll) (st : Nat) (abandon : Bool) : State :=
  let s := s.setColl { c with status := st }
  let s := if abandon then s.noticeEps c 4 0 0 else s.noticeEps c 3 st 0
  s.completeOrHold (c.heldRec st)

/-- A status that completes the descriptor at once (R212, R236, R256); a STEP_END descriptor waits (R927). -/
def State.failColl (s : State) (serial st : Nat) : State :=
  match s.tws.colls.find? (fun c => c.serial = serial) with
  | none => s
  | some c =>
    if c.failed || c.held then s
    else
      let c := c.meet st
      if c.d.stepEnd then s.setColl { c with failed := true } else s.finishColl c c.status false

/-! ### Results (R237 to R240, R248) -/

/-- Byte offset, within a block image of `n` elements, of the piece that starts at element `i`, and the bytes it fills;
the first piece of a ply image brings the header and the last one the padding. -/
def resultBytes (r : TwistRec) (n : Nat) (xs : List BElem) : Nat × List (Byte × Bool) :=
  let k := plyWordsOf r.format
  if k = 0 then (0, elemsOut r.format xs)
  else
    let hdr := (plyHeader k r.gauge r.obs (2 * bit r.poison + 4 * bit r.special + 8) r.tensor r.block).map (fun b => (b, false))
    let pad := if r.piece + 1 = r.pieces then List.replicate (256 - n) { words := List.replicate k 0 } else []
    let body := elemsOut r.format (xs ++ pad)
    if r.piece = 0 then (0, hdr ++ body) else (16 + 8 * k * 64 * r.piece, body)

/-- One poison mark for every 8 bytes. -/
def poisonWords : Nat → List (Byte × Bool) → List Bool
  | 0, _ => []
  | _, [] => []
  | f + 1, bs => (bs.take 8).any (fun x => x.2) :: poisonWords f (bs.drop 8)

/-- A RESULT piece is written to OUT_ADDR and delivered to every local endpoint (R239). -/
def State.deliverResult (s : State) (c : Coll) (r : TwistRec) : State :=
  let p := resultBytes r (blockLen c.d.elements r.block) (recElems r)
  let o := r.block * imageFull r.format + p.1
  let s := if c.d.outAddr = 0 then s else s.writeMarked (c.d.outAddr + o) p.2
  c.d.eps.foldl (fun s e => s.emit (.edgeWrite e 1 (c.d.dstOff + o) (p.2.map (fun x => x.1)) (poisonWords p.2.length p.2))) s

/-- A gauge group's RESULT is written into the gauge table, 0x00 as 0x01 (R248). -/
def State.deliverGauges (s : State) (c : Coll) (r : TwistRec) : State :=
  s.writeB (c.d.gaugeAddr + r.block) (r.payload.map (fun b => if b = 0 then 1 else b))

/-- A member takes a RESULT piece (R239, R240, R248); the result says whether it was a duplicate. -/
def State.takeResult (s : State) (c : Coll) (r : TwistRec) : State × Bool :=
  let mask := ((c.openRes.find? (fun e => e.1 = r.block)).map (fun e => e.2)).getD 0
  if c.written.contains r.block || bitOf mask r.piece then (s, true)
  else
    let s := if c.d.prepass then s.deliverGauges c r else s.deliverResult c r
    let mask := mask + 2 ^ r.piece
    let rest := c.openRes.filter (fun e => e.1 ≠ r.block)
    let c := if popCount 256 mask = r.pieces then { c with openRes := rest, written := c.written ++ [r.block] }
      else { c with openRes := rest ++ [(r.block, mask)] }
    (s.setColl c, false)

/-- A member sends a RESULT to GROUP and acts on it itself (R930). -/
def State.sendResult (s : State) (c : Coll) (rs : List TwistRec) : State :=
  rs.foldl (fun s r => match s.coll? c.d.collId with
    | some c => (s.takeResult c r).1
    | none => s) (s.sendGroup c rs)

/-! ### Gauge notes (R233) -/

/-- A member writes the OBS bytes of a GNOTE into its pending table. -/
def State.takeNote (s : State) (slice step : Nat) (d : CollDesc) (first : Nat) (bs : List Byte) : State :=
  let s := s.writeB (d.gaugeAddr + d.gaugeLen + first) bs
  { s with tws := { s.tws with 
    noted := List.append s.tws.noted
      ((List.range bs.length).map (fun i => (slice, step, d.gaugeAddr + d.gaugeLen + first + i, d.gaugeAddr + first + i))) } }

/-- The GNOTE group of owned block `b`: its first block and end. -/
def Coll.noteGroup (c : Coll) (b : Nat) : Nat × Nat :=
  match (ownedRanges c.d.blocks c.d.self c.owners).find? (fun r => r.1 ≤ b && b < r.2) with
  | some (f, e) => (f + 256 * ((b - f) / 256), min e (f + 256 * ((b - f) / 256) + 256))
  | none => (b, b)

/-- Once every block of `b`'s group has finalised, its OBS bytes go to GROUP and into the own pending table (R233). -/
def State.sendNote (s : State) (c : Coll) (b : Nat) : State :=
  let g := c.noteGroup b
  let bs := (List.range' g.1 (g.2 - g.1)).map (fun b => (c.obsDone.find? (fun e => e.1 = b)).map (fun e => BitVec.ofNat 8 e.2))
  if c.d.forecast && bs.all Option.isSome then
    let bs := bs.filterMap id
    let s := s.sendGroup c [{ s.mkRec c 8 g.1 with len := bs.length, payload := bs }]
    s.takeNote c.slice c.d.step c.d g.1 bs
  else s

/-! ### Finalisation (R226, R227, R241, R251) -/

/-- Adds the tally terms of a block's elements (R251). -/
def State.tallyBlock (s : State) (c : Coll) (b code : Nat) (xs : List BElem) : State :=
  if c.d.tally then
    ((List.range xs.length).zip xs).foldl (fun s e => s.tallyAdd c.slice
      (elementTally c.d.step c.d.tensor (256 * b + e.1) code (e.2.tallyWords code) (e.2.poisoned code))) s
  else s

/-- Marks the FINAL of member `m` (R241, R242). -/
def Coll.markFinal (c : Coll) (m : Nat) : Coll := if c.finals.contains m then c else { c with finals := c.finals ++ [m] }

/-- The owned blocks that are packed with owned block `b`: those of its promoted entry, or those of none (R556). -/
def State.ownedSet (s : State) (c : Coll) (b : Nat) : List Nat :=
  (ownedBlocks c.owners c.d.blocks c.d.self).filter (fun x => s.promoEntry c.slice c.d.tensor x == s.promoEntry c.slice c.d.tensor b)

/-- Where owned block `b` stands in its plane: the promoted entry if any, and its ordinal (R227, R238, R556). -/
def State.ownedAt (s : State) (c : Coll) (b : Nat) : Option Nat × Nat :=
  (s.promoEntry c.slice c.d.tensor b, (s.ownedSet c b).findIdx (fun x => x == b))

/-- The owner finalises unit `u` of a reduction (R226). -/
def State.finalise (s : State) (c : Coll) (u : Nat) : State :=
  let d := c.d
  let a := d.slotAddr u
  let n := blockLen d.elements u
  let flags := bitsOf (s.byte (a + 66)).toNat 4 3
  let gauge := s.slotGauge a
  let obs := s.slotObs a
  let st := attrRound d.attr = 1 && plyWordsOf d.out = 0
  let ds := (List.range n).map (fun i => drawOf st (s.jobSeed c.slice) d.step d.tensor (256 * u + i))
  let xs := finalElems d.out d.ply gauge ds ((List.range n).map (s.slotElem d a))
  let pz := xs.any (fun x => x.poisoned d.out)
  let s := if st then s.seedUsed c.slice else s
  let s := s.tallyBlock c u d.out xs
  let owned := ownedBlocks c.owners d.blocks d.self
  let pe := (s.ownedAt c u).1
  let ord := (s.ownedAt c u).2
  let out := match pe with
    | some i => (s.optEntry c.slice i).grad
    | none => d.outAddr
  let s := if d.kind = 1 ∧ out ≠ 0 then
      s.writeMarked (out + ord * imageFull d.out) (imageOut d.out gauge obs (2 * flags + 8) d.tensor u xs)
    else s
  let s := ((s.setDone d u true (s.slotRound a)).slotHeader a 0 32).freeSlot d u
  let c := { c with blocks := c.blocks + 1, obsDone := c.obsDone ++ [(u, obs)] }
  let s := (s.setColl c).count Ctr.TWS_FINAL
  let s := s.optFinalised c.slice d.collId d.step u ord n pe (c.blocks = owned.length)
  let s := if d.kind = 3 then
      s.sendResult c (blockRecs { s.mkRec c 3 u with gauge := if plyWordsOf d.out = 0 then 0 else gauge, obs := obs, poison := pz,
                                                     special := bitOf flags 1 } d.out xs)
    else s
  let s := s.sendNote c u
  if c.blocks = owned.length then
    let s := s.sendGroup c [s.mkRec c 5 0]
    match s.coll? d.collId with
    | some c => s.setColl (c.markFinal d.self)
    | none => s
  else s

/-! ### Partials (R224, R225, R247, R249) -/

/-- A member other than the owner sends its partial of unit `u` on, and marks it done (R225). -/
def State.forward (s : State) (c : Coll) (u : Nat) : State :=
  let d := c.d
  let a := d.slotAddr u
  let span := c.expected d.self u
  let hdr := (s.byte (a + 66)).toNat
  let base := { s.mkRec c 1 u with
    spanLo := span.1 % d.total, spanCnt := span.2, round := s.slotRound a, miss := s.slotMiss a,
    poison := bitOf hdr 3, special := bitOf hdr 4, gauge := s.slotGauge a, obs := s.slotObs a }
  let rs :=
    if d.barrier then entryRecs { base with type := 6, gauge := 0 } c.entries
    else if d.prepass then
      let k := min 256 (d.blocks - 256 * u)
      [{ base with type := 2, block := 256 * u, gauge := 0, format := 0x0A, len := k, payload := s.bytes (a + 64) k }]
    else if s.slotMiss a then [{ base with format := 6 + d.ply }]
    else blockRecs base (6 + d.ply) ((List.range (blockLen d.elements u)).map (fun i => { words := s.slotElem d a i }))
  (s.setDone d u true (s.slotRound a)).sendTo c (c.target d.self u) rs

/-! ### The redo round (R234, R235) -/

/-- The local source images of unit `u`, to be added when its slot allows. -/
def Coll.images (c : Coll) (u : Nat) : List (Nat × Nat) := (List.range c.d.srcCnt).map (fun i => (u, i))

/-- Has this member taken the REDO of block `b` already? -/
def State.redoTaken (s : State) (c : Coll) (b : Nat) : Bool :=
  (s.slotHolds (c.d.slotAddr b) b && s.slotRound (c.d.slotAddr b) = 1) || (s.unitDone c.d b && s.doneRound c.d b = 1)

/-- A member takes the REDO of block `b` with redo gauge `g`: its slot is free or holds `b` (R235, R928). -/
def State.applyRedo (s : State) (c : Coll) (b g : Nat) : State :=
  let d := c.d
  let s := if (c.expected d.self b).2 = 0 then s.setDone d b true 1
    else (s.setDone d b false 0).takeSlot d b 1 (max 1 g) false
  let s := s.noticeEps c 2 b g
  s.setColl { c with localTodo := c.localTodo.filter (fun e => e.1 ≠ b) ++ c.images b,
                     redoPend := c.redoPend.filter (fun e => e.1 ≠ b) }

/-- The owner orders the redo of block `b` under its OBS (R234, R930). -/
def State.orderRedo (s : State) (c : Coll) (b : Nat) : State :=
  let g := s.slotObs (c.d.slotAddr b)
  let c := { c with redo := c.redo + 1 }
  let s := ((s.setColl c).count Ctr.TWS_REDO).sendGroup c [{ s.mkRec c 4 b with round := 1, gauge := g }]
  s.applyRedo c b g

/-! ### Barriers (R249, R250) -/

/-- A member takes RELEASE: the job-scope tally records go to its tally ring (R250). -/
def State.takeRelease (s : State) (c : Coll) (es : List TallyEntry) : State :=
  let set := (s.job c.slice).tallySet
  let accs := if c.d.tally then (set.zip es).map (fun e =>
      (⟨c.d.step, e.1, e.2.digest, e.2.elements, e.2.poisoned, e.2.seen, e.2.format⟩ : TallyAcc)) else []
  let s := accs.foldl (fun s t => s.writeTally t true) s
  let s := if c.d.tally then s.setJob c.slice { s.job c.slice with jobTallies := accs } else s
  s.setColl { c with released := true }

/-- The barrier root releases every member (R249, R250, R930). -/
def State.sendRelease (s : State) (c : Coll) : State :=
  let s := (s.setDone c.d 0 true 0).freeSlot c.d 0
  (s.sendGroup c (entryRecs (s.mkRec c 7 0) c.entries)).takeRelease c c.entries

/-- The owner of a complete gauge group sends it (R248). -/
def State.sendGauges (s : State) (c : Coll) (u : Nat) : State :=
  let k := min 256 (c.d.blocks - 256 * u)
  let bs := s.bytes (c.d.slotAddr u + 64) k
  let s := (s.setDone c.d u true 0).freeSlot c.d u
  let c := { c with blocks := c.blocks + 1 }
  (s.setColl c).sendResult c [{ s.mkRec c 3 (256 * u) with format := 0x0A, len := k, payload := bs }]

/-- This member's expected span of unit `u` is complete. -/
def State.unitFull (s : State) (c : Coll) (u : Nat) : State :=
  if c.owner u ≠ c.d.self then s.forward c u
  else if c.d.barrier then s.sendRelease c
  else if c.d.prepass then s.sendGauges c u
  else if s.slotMiss (c.d.slotAddr u) then s.orderRedo c u
  else s.finalise c u

/-! ### A reducing record meets its slot (R221 to R224, R256) -/

/-- Is the record's span one this member expects for unit `u` (R214, R216, R256)? -/
def State.spanExpected (s : State) (c : Coll) (r : TwistRec) (u : Nat) (loc : Bool) : Bool :=
  let own := c.ownSpan c.d.self
  let m := spanMask r.spanLo r.spanCnt c.d.total
  let inOwn := m &&& spanMask own.1 own.2 c.d.total = m && 1 ≤ r.spanCnt && r.spanCnt ≤ own.2
  if loc then inOwn
  else if r.srcEp ≠ 0 then r.srcPart = s.partId && c.d.eps.contains r.srcEp && inOwn
  else (c.incoming c.d.self u).any (fun x => x.1 % c.d.total = r.spanLo && x.2 = r.spanCnt)

/-- A stitch conflict (R256). -/
def State.conflict (s : State) (c : Coll) (u : Nat) : State :=
  let s := (s.count Ctr.TWS_CONFLICT).twsEvent 0
  let s := if u < c.d.units ∧ (!s.slotBusy (c.d.slotAddr u) ∨ s.slotHolds (c.d.slotAddr u) u) then
      (s.ensureSlot c.d u).poisonSlot c.d u
    else s
  s.failColl c.serial 0x0251

/-- The split record of a TOKEN that is open, or of a slot. -/
def State.pieceMask (s : State) (c : Coll) (r : TwistRec) (a : Nat) : Nat :=
  if c.d.barrier then ((c.openTok.find? (fun e => e.1 = r.spanLo && e.2.1 = r.spanCnt)).map (fun e => e.2.2)).getD 0
  else match s.openEntry a r.spanLo r.spanCnt with
    | some i => (s.slotOpen a i).2.2
    | none => 0

/-- Notes the arrived pieces of a split record; mask 0 closes it. -/
def State.setPieces (s : State) (c : Coll) (r : TwistRec) (a mask : Nat) : State :=
  if c.d.barrier then
    let rest := c.openTok.filter (fun e => !(e.1 = r.spanLo && e.2.1 = r.spanCnt))
    s.setColl { c with openTok := if mask = 0 then rest else rest ++ [(r.spanLo, r.spanCnt, mask)] }
  else match (s.openEntry a r.spanLo r.spanCnt).or (if mask = 0 then none else s.openFree a) with
    | some i => s.setOpen a i r.spanLo r.spanCnt mask
    | none => s

/-- Adds what a record brings into its slot. -/
def State.combine (s : State) (c : Coll) (r : TwistRec) (u : Nat) : AddRes :=
  if c.d.barrier then
    ⟨s.setColl { c with entries := addEntries c.entries (169 * r.piece) ((List.range r.len).map (entryIn r.payload)) }, 0⟩
  else if c.d.prepass then ⟨s.addGauges c.d u (r.payload.take 256), 0⟩
  else s.addTerms c.d r

/-- All pieces of a record are in: its stitches are set, and a complete span goes on (R223). -/
def State.spanIn (s : State) (c : Coll) (r : TwistRec) (u : Nat) : State :=
  let a := c.d.slotAddr u
  let bm := s.bitmap c.d a ||| spanMask r.spanLo r.spanCnt c.d.total
  let s := (s.setBitmap c.d a bm).writeLe (a + 8) 4 (s.slotArrived a + r.spanCnt)
  let e := c.expected c.d.self u
  let m := spanMask e.1 e.2 c.d.total
  if bm &&& m = m then s.unitFull c u else s

/-- A record piece passes its checks and is added (R148, R153, R186, R223, R236). -/
def State.acceptRecord (s : State) (c : Coll) (r : TwistRec) (u : Nat) : State :=
  let a := c.d.slotAddr u
  let s := (s.ensureSlot c.d u).count Ctr.TWS_REC_IN
  let x := s.combine c r u
  if x.status = 0x0255 then x.s.failColl c.serial 0x0255
  else
    let c := ((x.s.coll? c.d.collId).getD c)
    let c := if x.status = 0 then c else c.meet x.status
    let s := x.s.setColl c
    let mask := s.pieceMask c r a + 2 ^ r.piece
    if popCount 256 mask = r.pieces then
      let s := if r.pieces = 1 then s else s.setPieces c r a 0
      s.spanIn ((s.coll? c.d.collId).getD c) r u
    else s.setPieces c r a mask

/-- A CONTRIB, GAUGE_BYTES or TOKEN piece for unit `u`, from outside or from the local source buffer; the result says
whether it is refused as not ready. -/
def State.takeRecord (s : State) (c : Coll) (r : TwistRec) (u : Nat) (loc : Bool) : State × Bool :=
  let d := c.d
  let a := d.slotAddr u
  if d.units ≤ u then (s.conflict c u, false)
  else if s.unitDone d u then
    if s.doneRound d u < r.round then (s, true)
    else (s.count (if r.round < s.doneRound d u then Ctr.TWS_STALE else Ctr.TWS_DUP), false)
  else if s.slotBusy a ∧ s.slotBlock a ≠ u then (s, true)
  else
    let holds := s.slotHolds a u
    let round := if holds then s.slotRound a else 0
    let bm := if holds then s.bitmap d a else 0
    let m := spanMask r.spanLo r.spanCnt d.total
    let mask := if holds then s.pieceMask c r a else 0
    if r.round < round then (s.count Ctr.TWS_STALE, false)
    else if round < r.round then (s, true)
    else if bm &&& m = m ∨ bitOf mask r.piece then (s.count Ctr.TWS_DUP, false)
    else if bm &&& m ≠ 0 ∨ !s.spanExpected c r u loc then (s.conflict c u, false)
    else if 1 < r.pieces ∧ mask = 0 ∧
        (if d.barrier then 8 ≤ c.openTok.length else holds && (s.openFree a).isNone) then (s, true)
    else (s.acceptRecord c r u, false)

/-! ### Local sources (R216, R217, R246) -/

/-- The record that the local source buffer gives for unit `u` of image `i`. -/
def State.localRecord (s : State) (c : Coll) (u i : Nat) : TwistRec :=
  let d := c.d
  let code := attrIn d.attr
  let base := d.srcAddr + i * tensorLen code d.elements
  let blockAt (b : Nat) := base + b * imageFull code
  let round := if s.slotHolds (d.slotAddr u) u then s.slotRound (d.slotAddr u) else 0
  let r := { s.mkRec c 1 u with spanLo := (d.srcLo + i) % d.total, spanCnt := 1, round := round }
  let elems (b : Nat) := s.readImage code (blockLen d.elements b) (blockAt b)
  if d.prepass then
    let bs := (List.range' (256 * u) (min 256 (d.blocks - 256 * u))).map (fun b =>
      if plyWordsOf code ≠ 0 then s.byte (blockAt b + 1)
      else BitVec.ofNat 8 (((elems b).map (fun x => expByte (x.num code))).foldl max 0))
    { r with type := 2, block := 256 * u, format := 0x0A, len := bs.length, payload := bs }
  else
    let xs := elems u
    let f := (s.byte (blockAt u + 2)).toNat
    let r := { r with format := code, len := xs.length, payload := payloadOut code xs }
    if plyWordsOf code ≠ 0 then
      { r with gauge := (s.byte (blockAt u)).toNat, obs := (s.byte (blockAt u + 1)).toNat, miss := bitOf f 2,
               poison := bitOf f 3, special := bitOf f 4 }
    else { r with poison := xs.any (fun x => x.pz) }

/-- Tries to add one waiting local image; the result says whether its slot took it. -/
def State.addLocal (s : State) (id : Nat) (e : Nat × Nat) : State × Bool :=
  match s.coll? id with
  | none => (s, false)
  | some c =>
    if c.failed || c.held || !c.localTodo.contains e then (s, false)
    else
      let c := { c with localTodo := c.localTodo.erase e }
      let x := (s.setColl c).takeRecord c (s.localRecord c e.1 e.2) e.1 true
      if x.2 then (s, false) else (x.1, true)

/-- Passes over the waiting local images, while any is added. -/
def State.settle (id : Nat) : Nat → State → State
  | 0, s => s
  | f + 1, s =>
    match s.coll? id with
    | none => s
    | some c =>
      let x := c.localTodo.foldl (fun x e => let y := x.1.addLocal id e; (y.1, x.2 || y.2)) (s, false)
      if x.2 then State.settle id f x.1 else x.1

/-- Adds the local images that their slots allow; an image is added at most once in each round. -/
def State.settleLocal (s : State) (id : Nat) : State :=
  State.settle id (((s.coll? id).map (fun c => 2 * c.localTodo.length + 2)).getD 0) s

/-! ### Owners that send (R65, R238, R450) -/

/-- An owner sends block `b` of an ALL_GATHER or BROADCAST (R238). -/
def State.sendOwned (s : State) (c : Coll) (b : Nat) : State :=
  let d := c.d
  let src := match (s.ownedAt c b).1 with
    | some i => (s.optEntry c.slice i).pub
    | none => d.srcAddr
  let a := src + (s.ownedAt c b).2 * imageFull d.out
  let xs := s.readImage d.out (blockLen d.elements b) a
  let f := (s.byte (a + 2)).toNat
  let ply := plyWordsOf d.out ≠ 0
  let r := { s.mkRec c 3 b with
    gauge := if ply then (s.byte a).toNat else 0, obs := if ply then (s.byte (a + 1)).toNat else 0,
    poison := xs.any (fun x => x.poisoned d.out), special := ply && bitOf f 4 }
  (s.tallyBlock c b d.out xs).sendResult c (blockRecs r d.out xs)

/-- Sends the owned blocks that nothing holds back (R65, R450). -/
def State.sendReady (s : State) (id : Nat) : State :=
  match s.coll? id with
  | none => s
  | some c =>
    let go := c.ownTodo.filter (fun b => !s.optHolds c.slice id c.d.step (s.ownedAt c b).2 (s.ownedAt c b).1)
    let s := s.setColl { c with ownTodo := c.ownTodo.filter (fun b => !go.contains b) }
    go.foldl (fun s b => match s.coll? id with
      | some c => s.sendOwned c b
      | none => s) s

/-! ### Start (R220, R244, R928) -/

/-- Clears the slot states, bitmaps and done map of an accumulator region (R220). -/
def State.clearRegion (s : State) (d : CollDesc) : State :=
  let s := (pagesOf d.accAddr d.accLen).foldl State.touchPage s
  let hit (a : Nat) : Bool := d.accAddr ≤ a && a < d.accAddr + d.accLen &&
    (d.slots * d.slotLen ≤ a - d.accAddr || (a - d.accAddr) % d.slotLen < 64 || 64 + d.bodyLen ≤ (a - d.accAddr) % d.slotLen)
  { s with mem := s.mem.filter (fun e => !hit e.1), tags := s.tags.filter (fun e => !hit (8 * e.1)) }

/-- A descriptor starts (R220): its region is cleared, empty spans are done (R928), and its own sources are added. -/
def State.startColl (s : State) (c : Coll) : State :=
  let d := c.d
  let c := { c with started := true }
  if d.gathers then
    (s.setColl { c with ownTodo := ownedBlocks c.owners d.blocks d.self }).sendReady d.collId
  else
    let s := s.clearRegion d
    let s := (List.range d.units).foldl (fun s u => if (c.expected d.self u).2 = 0 then s.setDone d u true 0 else s) s
    if d.barrier then
      let s := if d.tally then s.writePartTallies c.slice d.step else s
      let es := if d.tally then (s.job c.slice).tallySet.map (fun t => TallyEntry.ofAcc (s.tallyOf c.slice d.step t)) else []
      let s := s.setColl c
      let s := s.ensureSlot d 0
      let c := { c with entries := es }
      (s.setColl c).spanIn c { s.mkRec c 6 0 with spanLo := d.self } 0
    else
      let c := { c with localTodo := (List.range d.units).flatMap c.images }
      (s.setColl c).settleLocal d.collId

/-! ### Abandonment (R252) -/

/-- Every descriptor of slice `n` in flight completes with 0x0651; what it kept is discarded (R189, R252). -/
def State.abandonColls (s : State) (n : Nat) : State :=
  let cs := s.tws.colls.filter (fun c => c.slice = n && !c.held)
  let s := { s with tws := { s.tws with
    kept := s.tws.kept.filter (fun k => k.slice ≠ n), noted := s.tws.noted.filter (fun x => x.1 ≠ n),
    past := s.tws.past.filter (fun c => c.slice ≠ n) } }
  cs.foldl (fun s c => ((s.count Ctr.TWS_ABANDON).twsEvent 3).finishColl
    { c with redoPend := [], openRes := [], localTodo := [], ownTodo := [] } (if c.status = 0 then 0x0651 else c.status) true) s

end Sys2Proof.Machine
end

