-- ==== Sys2Proof/Machine/OptCmd.lean ====
section
/-! DEFINITION. The commands of the optimizer engine (R442 to R464). -/

namespace Sys2Proof.Machine

/-- A write of OPT_Sn_TBL, CNT, PARAM, WORK or WORK_CFG at offset `a` (R463). -/
def State.optCfgWrite (s : State) (via : Via) (n a : Nat) (v : Word) : State :=
  if s.optEnabled n then s.reject via a 0x0291 else s.wr a v

/-- ENABLE (R442, R463). -/
def State.optEnable (s : State) (n : Nat) : State :=
  let r := s.optCheck n
  if r.1 = 0 then (s.optStat n 0 0).wf (Reg.OPT_STAT n) 31 31 1 else s.optStat n r.1 r.2

/-- DISABLE (R463): at once, or when the last staged item is committed. -/
def State.optDisable (s : State) (n : Nat) : State :=
  if !s.optEnabled n ∨ s.opt.drain.contains n then s.optStat n 0x0291 0
  else if s.opt.items.any (fun x => x.slice = n && x.staged) then
    ({ s with opt := { s.opt with drain := s.opt.drain ++ [n] } }.optStat n 0 0).wf (Reg.OPT_STAT n) 30 30 1
  else (s.optOff n).optStat n 0 0

/-- A write of OPT_Sn_CMD: GO in bit 31, OP in [1:0]. -/
def State.optCmdWrite (s : State) (n : Nat) (v : Word) : State :=
  let s := s.wr (Reg.OPT_CMD n) (v &&& 3)
  if fieldOf v 31 31 = 0 then s
  else match fieldOf v 1 0 with
    | 1 => s.optEnable n
    | 2 => s.optDisable n
    | _ => s.optStat n 0x0190 0

/-- The oldest delayed work item of slice `n` whose die has room is written (R462). -/
def State.optDispatch (s : State) (n : Nat) : State :=
  match s.opt.waits.find? (fun w => w.slice = n && (s.optTry w).2) with
  | none => s
  | some w => ({ s with opt := { s.opt with waits := s.opt.waits.erase w } }.optTry w).1

/-- A DONE write in slot `slot` of row `l`'s ring (R446, R448). -/
def State.optDone (s : State) (l slot : Nat) : State :=
  let n := s.rowSlice l
  let i := (s.optRowsOf (rowDie l)).findIdx (fun x => x == l)
  let done := s.le (s.optRing n (rowDie l) i + 64 * slot + 60) 4
  match s.opt.items.find? (fun x => x.row = l && x.slot = slot && !x.staged && x.seq = done) with
  | some x => { s with opt := { s.opt with items := s.opt.items.map (fun y => if y = x then { x with staged := true } else y) } }
  | none => (s.count Ctr.OPT_BAD_DONE).event Reg.OPT_EVT 1

/-- The commit of the staged item in slot `slot` of row `l`; its block goes to the all-gather, and a DISABLE that waited
for it ends (R447, R450, R463). -/
def State.optCommitSlot (s : State) (l slot : Nat) : State :=
  match s.opt.items.find? (fun x => x.row = l && x.slot = slot && x.staged) with
  | none => s
  | some x =>
    let e := s.optEntry x.slice x.entry
    let s := (s.optCommit x).sendReady e.pubColl
    if s.opt.drain.contains x.slice && !s.opt.items.any (fun y => y.slice = x.slice && y.staged) then s.optOff x.slice else s

/-- OPT_ENABLE (R442). -/
def execOptEnable (via : Via) (n : Nat) (v : Word) (s : State) : Host.Outcome State Fault Refusal :=
  .next (s.gated via n (fun s => s.optCmdWrite n v))

/-- OPT_DISABLE (R463). -/
def execOptDisable (via : Via) (n : Nat) (v : Word) (s : State) : Host.Outcome State Fault Refusal :=
  .next (s.gated via n (fun s => s.optCmdWrite n v))

/-- OPT_WORK_DISPATCH (R462). -/
def execOptWorkDispatch (n : Nat) (s : State) : Host.Outcome State Fault Refusal := .next (s.optDispatch n)

/-- OPT_ITEM_STAGED (R446). -/
def execOptItemStaged (row slot : Nat) (s : State) : Host.Outcome State Fault Refusal := .next (s.optDone row slot)

/-- OPT_COMMIT (R447). -/
def execOptCommit (row slot : Nat) (s : State) : Host.Outcome State Fault Refusal := .next (s.optCommitSlot row slot)

end Sys2Proof.Machine
end

