-- ==== Sys2Proof/Machine/TwistCmd.lean ====
section
/-! DEFINITION. The commands of the Twist units (file 04), but for those that end a step. -/

namespace Sys2Proof.Machine

/-! ### Queue registers (R257, R931) -/

/-- A rejected write recorded in TWS_Qn_ERR too (R925). -/
def State.twsReject (s : State) (via : Via) (n a st : Nat) : State :=
  let s := s.reject via a st
  s.wf (Reg.TWS_ERR n) 31 16 st

/-- A write of a queue's ring base or size register other than DQ_SIZE, at offset `a` (R931). -/
def State.twsRingWrite (s : State) (via : Via) (n a : Nat) (v : Word) : State :=
  if s.rf (Reg.TWS_DQ_SIZE n) 31 31 = 1 then s.twsReject via n a 0x0156 else s.wr a v

/-- The status of an EN write (R931). -/
def State.twsEnableStatus (s : State) (n log2 : Nat) : Nat :=
  let dl := s.rd (Reg.TWS_DQ_BASE_LO n)
  let cl := s.rd (Reg.TWS_CQ_BASE_LO n)
  let cl2 := s.rf (Reg.TWS_CQ_SIZE n) 3 0
  let dq := s.addrOf (Reg.TWS_DQ_BASE_LO n) (Reg.TWS_DQ_BASE_HI n)
  let cq := s.addrOf (Reg.TWS_CQ_BASE_LO n) (Reg.TWS_CQ_BASE_HI n)
  if dl.toNat % 128 ≠ 0 ∨ cl.toNat % 16 ≠ 0 ∨ !s.inSlice n dq (128 * 2 ^ log2) ∨ !s.inSlice n cq (16 * 2 ^ cl2) then 0x0154
  else if log2 < 4 ∨ 12 < log2 ∨ cl2 < 4 ∨ 12 < cl2 then 0x0156
  else 0

/-- A write of TWS_Qn_DQ_SIZE (R931). -/
def State.twsSizeWrite (s : State) (via : Via) (n : Nat) (v : Word) : State :=
  if s.rf (Reg.TWS_DQ_SIZE n) 31 31 = 1 then s.twsReject via n (Reg.TWS_DQ_SIZE n) 0x0156
  else if fieldOf v 31 31 = 0 then s.wr (Reg.TWS_DQ_SIZE n) (v &&& 0x8000000F)
  else
    let st := s.twsEnableStatus n (fieldOf v 3 0)
    if st = 0 then s.wr (Reg.TWS_DQ_SIZE n) (v &&& 0x8000000F) else s.twsReject via n (Reg.TWS_DQ_SIZE n) st

/-- A write of TWS_Qn_DQ_TAIL (R257). -/
def State.twsTailWrite (s : State) (via : Via) (n : Nat) (v : Word) : State :=
  let t := fieldOf v 15 0
  if 2 ^ s.rf (Reg.TWS_DQ_SIZE n) 3 0 < aheadMod 16 (s.rf (Reg.TWS_DQ_HEAD n) 15 0) t then
    (s.reject via (Reg.TWS_DQ_TAIL n) 0x0252).wr (Reg.TWS_ERR n) (BitVec.ofNat 32 (0x0252 * 65536 + t))
  else s.wr (Reg.TWS_DQ_TAIL n) (BitVec.ofNat 32 t)

/-- TWS_QUEUE_ENABLE (R931). -/
def execTwsQueueEnable (via : Via) (n : Nat) (v : Word) (s : State) : Host.Outcome State Fault Refusal :=
  .next (s.gated via n (fun s => s.twsSizeWrite via n v))

/-- TWS_DQ_TAIL_WRITE (R257). -/
def execTwsDqTailWrite (via : Via) (n : Nat) (v : Word) (s : State) : Host.Outcome State Fault Refusal :=
  .next (s.gated via n (fun s => s.twsTailWrite via n v))

/-! ### Fetch and start -/

/-- Descriptors that count against the 1,024 of R195: those in flight, and rejected ones whose record is held (R258). -/
def State.twsInflight (s : State) : Nat := s.tws.colls.length + s.tws.heldRecs.countP (fun h => h.serial.isNone)

/-- The check of a GRAD_COLL or PUB_COLL against its entry (R443). -/
def State.optCollOk (s : State) (c : Coll) : Bool :=
  let known (id : Nat) : Option Coll := (s.tws.colls ++ s.tws.past).find? (fun x => x.slice = c.slice && x.d.collId = id && x.d.step = c.d.step)
  let same (id : Nat) : Bool := match known id with
    | some x => x.owners = c.owners
    | none => true
  (match s.optEntryFor c.slice (·.gradColl) c.d.collId with
    | some (_, e) => c.d.out = e.gradFmt && same e.pubColl && (!e.factored || c.owners.all (fun o => o.2 = (c.owners.headD (0, 0)).2))
    | none => true) &&
  (match s.optEntryFor c.slice (·.pubColl) c.d.collId with
    | some (_, e) => same e.gradColl && (!e.factored || c.owners.all (fun o => o.2 = (c.owners.headD (0, 0)).2))
    | none => true)

/-- Slice `n` fetches the descriptor at its head (R195, R203, R257). -/
def State.fetchDesc (s : State) (n : Nat) : State :=
  let head := s.rf (Reg.TWS_DQ_HEAD n) 15 0
  if s.rf (Reg.TWS_DQ_SIZE n) 31 31 = 0 ∨ s.sliceState n ≠ 0 ∨ head = s.rf (Reg.TWS_DQ_TAIL n) 15 0 ∨ 1024 ≤ s.twsInflight then s
  else
    let a := s.addrOf (Reg.TWS_DQ_BASE_LO n) (Reg.TWS_DQ_BASE_HI n) + 128 * (head % 2 ^ s.rf (Reg.TWS_DQ_SIZE n) 3 0)
    let d := s.readDesc a
    let c : Coll := { slice := n, idx := head, d, members := s.memberList d, owners := s.ownerList d, serial := s.tws.nextSerial }
    let st := s.descStatus n a c
    let s := s.wf (Reg.TWS_DQ_HEAD n) 15 0 (head + 1)
    let s := { s with tws := { s.tws with nextSerial := s.tws.nextSerial + 1 } }
    if st ≠ 0 then
      let s := { s with tws := { s.tws with
        failed := if d.delivers then s.tws.failed ++ [(n, d.step, c.serial)] else s.tws.failed } }
      (s.twsErr n st head).completeOrHold { c.heldRec st with serial := none }
    else
      let s := { s with tws := { s.tws with colls := s.tws.colls ++ [c],
                                            past := s.tws.past.filter (fun x => x.d.collId ≠ d.collId) } }
      if s.optCollOk c then s else (s.event Reg.OPT_EVT 0).failColl c.serial 0x0293

/-- Does the slice's job hold back new work: in HOLD (R544), or where its state is kept as it stands (R546, R550)? -/
def State.inHold (s : State) (n : Nat) : Bool := 2 ≤ (s.job n).memb

/-- Descriptor `coll` starts when `ok` lets it. -/
def State.startWhen (s : State) (coll : Nat) (ok : Coll → Bool) : State :=
  match s.coll? coll with
  | none => s
  | some c => if c.started || c.failed || c.held || s.inHold c.slice || !ok c then s else s.startColl c

/-- DESCRIPTOR_FETCH (R203). -/
def execDescriptorFetch (n : Nat) (s : State) : Host.Outcome State Fault Refusal :=
  .next (if s.hasSlice n then s.fetchDesc n else s)

/-- DESCRIPTOR_START (R220). -/
def execDescriptorStart (coll : Nat) (s : State) : Host.Outcome State Fault Refusal :=
  .next (s.startWhen coll (fun c => !c.d.armEn))

/-- DESCRIPTOR_ARM (R244). -/
def execDescriptorArm (coll : Nat) (s : State) : Host.Outcome State Fault Refusal :=
  .next (s.startWhen coll (fun c => c.d.armEn && s.ctrReached (s.ctrIdx c.slice c.d.armCtr) c.d.armVal))

/-! ### Records received (R205, R210, R221, R255) -/

/-- Answers a record piece with ACK 0, NAK not-ready 1 or NAK target-resetting 2 (R210). -/
def State.answer (s : State) (r : TwistRec) (code : Nat) : State :=
  let s := s.emit (.twistAck r.srcPart r.srcEp (ackKey r) code)
  if code = 1 then s.count Ctr.TWS_NAK_NR else s

/-- Is `epoch` older than the epoch of every open job (R221, R644)? -/
def State.formerEpoch (s : State) (epoch : Nat) : Bool :=
  let js := ((List.range s.sliceCount).map s.job).filter (fun j => j.isOpen)
  js ≠ [] && js.all (fun j => laterMod 16 epoch j.epoch)

/-- The collective of record `r` that has completed here and whose COLL_ID has not been used again since. -/
def State.pastColl (s : State) (r : TwistRec) : Option Coll :=
  s.tws.past.find? (fun c => c.d.collId = r.collId && c.d.epoch = r.epoch)

/-- A record of a collective that has completed here is a duplicate (R222), but for a GNOTE of a reduction (R233), which is
still written until its step ends. DEDUCED, log 74. -/
def State.latePiece (s : State) (r : TwistRec) (c : Coll) : State :=
  if r.type = 8 ∧ c.d.reduces ∧ c.d.forecast ∧ c.status = 0 ∧ c.d.step = s.stepCtr c.slice then
    (s.takeNote c.slice c.d.step c.d r.block r.payload).count Ctr.TWS_REC_IN
  else s.count Ctr.TWS_DUP

/-- A record piece arrives: the checks that every type shares, and then `body`, which says whether it is refused. -/
def State.receive (s : State) (r : TwistRec) (body : Coll → State × Bool) : State :=
  if r.type = 0 ∨ 9 ≤ r.type ∨ r.pieces = 0 ∨ r.pieces ≤ r.piece then
    ((s.count Ctr.TWS_BAD_REC).twsEvent 5).answer r 0
  else match s.coll? r.collId with
    | none =>
      if s.tws.resetting.any (fun x => x.2 = r.collId && s.sliceState x.1 = 6) then s.answer r 2
      else if s.formerEpoch r.epoch then (s.count Ctr.TWS_STALE).answer r 0
      else match s.pastColl r with
        | some c => (s.latePiece r c).answer r 0
        | none => s.answer r 1
    | some c =>
      if r.epoch ≠ c.d.epoch then (s.count Ctr.TWS_STALE).answer r 0
      else if c.failed || c.held then s.answer r 0
      else if !c.started then s.answer r 1
      else
        let x := body c
        x.1.answer r (if x.2 then 1 else 0)

/-- A reducing record: taken by its slot, and then the local images that a freed slot lets in. -/
def State.reducing (s : State) (r : TwistRec) (c : Coll) : State × Bool :=
  let ok := (r.type = 1 && c.d.reduces) || (r.type = 2 && c.d.prepass) || (r.type = 6 && c.d.barrier)
  if !ok then (s, false)
  else
    let x := s.takeRecord c r (if r.type = 1 then r.block else if r.type = 2 then r.block / 256 else 0) false
    (x.1.settleLocal r.collId, x.2)

/-- A RESULT piece (R239, R240, R248). -/
def State.recvResult (s : State) (r : TwistRec) (c : Coll) : State × Bool :=
  if !(c.d.delivers || c.d.prepass) then (s, false)
  else
    let x := s.takeResult c r
    (x.1.count (if x.2 then Ctr.TWS_DUP else Ctr.TWS_REC_IN), false)

/-- A REDO (R235): taken, or kept pending while its slot holds another block, up to 64 (R195). -/
def State.recvRedo (s : State) (r : TwistRec) (c : Coll) : State × Bool :=
  let b := r.block
  if !c.d.reduces ∨ c.d.units ≤ b then (s, false)
  else if s.redoTaken c b ∨ c.redoPend.any (fun e => e.1 = b) then (s.count Ctr.TWS_DUP, false)
  else
    let a := c.d.slotAddr b
    if s.slotBusy a && s.slotBlock a ≠ b && (c.expected c.d.self b).2 ≠ 0 then
      if 64 ≤ c.redoPend.length then (s, true)
      else ((s.setColl { c with redoPend := c.redoPend ++ [(b, r.gauge)] }).count Ctr.TWS_REC_IN, false)
    else (((s.applyRedo c b r.gauge).count Ctr.TWS_REC_IN).settleLocal r.collId, false)

/-- A FINAL from the owner that sent it (R242). -/
def State.recvFinal (s : State) (r : TwistRec) (c : Coll) : State × Bool :=
  let m := c.members.findIdx (fun x => x.part = r.srcPart)
  if m < c.members.length then ((s.setColl (c.markFinal m)).count Ctr.TWS_REC_IN, false) else (s, false)

/-- A GNOTE (R233). -/
def State.recvNote (s : State) (r : TwistRec) (c : Coll) : State × Bool :=
  if c.d.reduces && c.d.forecast then ((s.takeNote c.slice c.d.step c.d r.block r.payload).count Ctr.TWS_REC_IN, false)
  else (s, false)

/-- A RELEASE piece (R250): its entries stand at 169 times its piece number. -/
def State.recvRelease (s : State) (r : TwistRec) (c : Coll) : State × Bool :=
  let mask := ((c.openRes.find? (fun e => e.1 = 0)).map (fun e => e.2)).getD 0
  if !c.d.barrier then (s, false)
  else if c.released || bitOf mask r.piece then (s.count Ctr.TWS_DUP, false)
  else
    let es := addEntries (if mask = 0 then [] else c.entries) (169 * r.piece) ((List.range r.len).map (entryIn r.payload))
    let mask := mask + 2 ^ r.piece
    let c := { c with entries := es, openRes := [(0, mask)] }
    let s := (s.setColl c).count Ctr.TWS_REC_IN
    (if popCount 256 mask = r.pieces then s.takeRelease c es else s, false)

/-- A record command acts only on its own TYPE, or on a reserved one (R205). -/
def State.receiveType (s : State) (t : Nat) (r : TwistRec) (body : Coll → State × Bool) : State :=
  if r.type = t ∨ r.type = 0 ∨ 9 ≤ r.type then s.receive r body else s

/-- CONTRIB_RECEIVE (R223). -/
def execContribReceive (r : TwistRec) (s : State) : Host.Outcome State Fault Refusal :=
  .next (s.receiveType 1 r (s.reducing r))

/-- GAUGE_BYTES_RECEIVE (R247). -/
def execGaugeBytesReceive (r : TwistRec) (s : State) : Host.Outcome State Fault Refusal :=
  .next (s.receiveType 2 r (s.reducing r))

/-- TOKEN_RECEIVE (R249). -/
def execTokenReceive (r : TwistRec) (s : State) : Host.Outcome State Fault Refusal :=
  .next (s.receiveType 6 r (s.reducing r))

/-- RESULT_RECEIVE (R239). -/
def execResultReceive (r : TwistRec) (s : State) : Host.Outcome State Fault Refusal :=
  .next (s.receiveType 3 r (s.recvResult r))

/-- REDO_RECEIVE (R235). -/
def execRedoReceive (r : TwistRec) (s : State) : Host.Outcome State Fault Refusal :=
  .next (s.receiveType 4 r (s.recvRedo r))

/-- FINAL_RECEIVE (R242). -/
def execFinalReceive (r : TwistRec) (s : State) : Host.Outcome State Fault Refusal :=
  .next (s.receiveType 5 r (s.recvFinal r))

/-- GNOTE_RECEIVE (R233). -/
def execGnoteReceive (r : TwistRec) (s : State) : Host.Outcome State Fault Refusal :=
  .next (s.receiveType 8 r (s.recvNote r))

/-- RELEASE_RECEIVE (R250). -/
def execReleaseReceive (r : TwistRec) (s : State) : Host.Outcome State Fault Refusal :=
  .next (s.receiveType 7 r (s.recvRelease r))

/-- A pending REDO whose slot is free is applied (R235). -/
def State.startPendingRedo (s : State) (coll b : Nat) : State :=
  match s.coll? coll with
  | none => s
  | some c =>
    match c.redoPend.find? (fun e => e.1 = b) with
    | none => s
    | some e =>
      if s.slotBusy (c.d.slotAddr b) && s.slotBlock (c.d.slotAddr b) ≠ b then s
      else (s.applyRedo c b e.2).settleLocal coll

/-- REDO_PENDING_START (R235). -/
def execRedoPendingStart (coll block : Nat) (s : State) : Host.Outcome State Fault Refusal :=
  .next (s.startPendingRedo coll block)

/-! ### Acknowledgements (R211 to R213, R225) -/

/-- Every count of consecutive timeouts toward a peer restarts (R212). -/
def State.restartCounts (s : State) (peer : Nat) : State :=
  { s with tws := { s.tws with kept := s.tws.kept.map (fun k => if k.peer = peer then { k with count := 0 } else k) } }

/-- A partial whose pieces are all acknowledged frees its slot (R225). -/
def State.freeForwarded (s : State) (key : AckKey) : State :=
  match s.coll? key.collId with
  | none => s
  | some c =>
    let u := if key.type = 2 then key.block / 256 else if key.type = 6 then 0 else key.block
    let a := c.d.slotAddr u
    if (key.type = 1 ∨ key.type = 2 ∨ key.type = 6) ∧ key.epoch = c.d.epoch ∧ c.started ∧ s.slotHolds a u ∧ s.unitDone c.d u ∧
        s.slotRound a = key.round ∧
        !s.tws.kept.any (fun k => k.key.collId = key.collId && k.key.type = key.type && k.key.block = key.block && k.key.round = key.round) then
      (s.freeSlot c.d u).settleLocal key.collId
    else s

/-- An ACK or NAK from `peer` for the piece `key` (R211 to R213). -/
def State.takeAck (s : State) (peer : Nat) (key : AckKey) (code : Nat) : State :=
  let s := s.restartCounts peer
  if code = 0 ∧ s.tws.kept.any (fun k => k.peer = peer && k.key = key) then
    let s := { s with tws := { s.tws with kept := s.tws.kept.filter (fun k => !(k.peer = peer && k.key = key)) } }
    s.freeForwarded key
  else s

/-- TWIST_ACK_RECEIVE (R210). -/
def execTwistAckReceive (peer : Nat) (key : AckKey) (code : Nat) (s : State) : Host.Outcome State Fault Refusal :=
  .next (s.takeAck peer key code)

/-- A kept piece's timeout expires (R211, R212). -/
def State.retxTimeout (s : State) (peer : Nat) (key : AckKey) : State :=
  match s.tws.kept.find? (fun k => k.peer = peer && k.key = key) with
  | none => s
  | some k =>
    if s.rf Reg.TWS_CTL 3 0 ≤ k.count + 1 then
      let s := { s with tws := { s.tws with kept := s.tws.kept.erase k, reported := s.tws.reported ++ [peer] } }
      let s := s.twsEvent 2
      match s.coll? key.collId with
      | some c => if c.d.epoch = key.epoch then s.failColl c.serial 0x0650 else s
      | none => s
    else
      let k' := { k with count := k.count + 1, timeout := min (2 * k.timeout) 4000000 }
      let s := { s with tws := { s.tws with kept := s.tws.kept.map (fun x => if x = k then k' else x) } }
      (s.emit (.twist peer k.msg)).count Ctr.TWS_RETX

/-- TWIST_RETX_TIMEOUT (R211). -/
def execTwistRetxTimeout (peer : Nat) (key : AckKey) (s : State) : Host.Outcome State Fault Refusal :=
  .next (s.retxTimeout peer key)

/-! ### Block acknowledgements and completion (R242, R629) -/

/-- BLOCK_ACK of endpoint `ep` for a delivered block (R629). -/
def State.blockAck (s : State) (ep coll epoch block : Nat) : State :=
  match s.coll? coll with
  | none => s
  | some c =>
    if c.d.epoch = epoch ∧ c.d.eps.contains ep ∧ !c.epAcks.contains (ep, block) then
      s.setColl { c with epAcks := c.epAcks ++ [(ep, block)] }
    else s

/-- BLOCK_ACK_RECEIVE (R629). -/
def execBlockAckReceive (ep coll epoch block : Nat) (s : State) : Host.Outcome State Fault Refusal :=
  .next (s.blockAck ep coll epoch block)

/-- Is the work of a descriptor complete (R242)? -/
def Coll.complete (c : Coll) : Bool :=
  let owned := ownedBlocks c.owners c.d.blocks c.d.self
  c.started && (
    if c.d.kind = 1 then
      c.blocks = owned.length &&
      (List.range c.members.length).all (fun m => ownedBlocks c.owners c.d.blocks m = [] || c.finals.contains m)
    else if c.d.delivers then
      c.written.length = c.d.blocks &&
      c.d.eps.all (fun e => (List.range c.d.blocks).all (fun b => c.epAcks.contains (e, b)))
    else if c.d.prepass then c.written.length = c.d.units
    else c.released)

/-- A descriptor that ends no step completes (R242). -/
def State.completeColl (s : State) (coll : Nat) : State :=
  match s.coll? coll with
  | none => s
  | some c => if c.complete && !c.d.stepEnd && !c.failed && !c.held then s.finishColl c c.status false else s

/-- COLLECTIVE_COMPLETE (R242). -/
def execCollectiveComplete (coll : Nat) (s : State) : Host.Outcome State Fault Refusal := .next (s.completeColl coll)

end Sys2Proof.Machine
end

