-- ==== Sys2Proof/Machine/Job.lean ====
section
/-! DEFINITION. Jobs (R78 to R83), the advance of a step (R66, R103, R151, R441, R521, R872), the ends of steps (R258, R927),
and the beat (R90 to R104). -/

namespace Sys2Proof.Machine

/-! ### The advance of a step -/

/-- A checkpoint boundary `b` is reached on slice `n` (R515, R519, R521, R522); in HOLD no capture starts (R544). -/
def State.ckpBoundary (s : State) (n b : Nat) : State :=
  let c := s.ckpOf n
  let i := s.rf (Reg.CKP_CFG n) 15 0
  if (s.job n).memb ≠ 1 ∨ !((i ≠ 0 && b % i = 0) || c.reqs.contains b) then s
  else
    let s := if c.waiting.isSome then s.drainCopy n else s
    let c := s.ckpOf n
    let s := s.setCkp n { c with reqs := c.reqs.filter (fun r => b < r), warned := false, epoch := (c.epoch + 1) % 2 ^ 32 }
    if c.copying.isSome then s.setCkp n { s.ckpOf n with waiting := some b } else s.captureNow n b

/-- The OBS bytes that GNOTEs of step `k` wrote into the pending tables go into the history (R151, R233). -/
def State.writeHistory (s : State) (n k : Nat) : State :=
  let s := (s.tws.noted.filter (fun x => x.1 = n && x.2.1 = k)).foldl (fun s x => s.writeB x.2.2.2 [s.byte x.2.2.1]) s
  { s with tws := { s.tws with noted := s.tws.noted.filter (fun x => x.1 ≠ n) } }

/-- Every draw count of slice `n`'s rows is 0 (R81, R123). -/
def State.zeroDraws (s : State) (n : Nat) : State :=
  (s.sliceRows n).foldl (fun s l => s.setRow l ((s.row l).mapNeedles (fun _ d => { d with draws := [] }))) s

/-- The step counter of slice `n` advances from k to k + 1 (R66): what the part keys to that boundary takes effect. -/
def State.advance (s : State) (n : Nat) (atBoundary : Bool) : State :=
  let k := s.stepCtr n
  let s := (s.setStep n (k + 1)).writeHistory n k
  let s := { s with tws := { s.tws with failed := s.tws.failed.filter (fun f => f.1 ≠ n || k < f.2.1) } }
  let s := (s.optBoundary n).zeroDraws n
  let j := s.job n
  let s := s.setJob n { j with waiting := false, atBoundary, tallies := j.tallies.filter (fun t => k ≤ t.step) }
  ((s.ckpBoundary n (k + 1)).feedStep n (k + 1)).fwBoundary (k + 1)

/-- STEP_ON_BEAT acts: it is 1 and the beat is enabled (R103). -/
def State.stepOnBeat (s : State) : Bool := s.beat.on && s.rf Reg.GLB_BEAT_CFG 29 29 = 1

/-- Step k of slice `n` has completed (R103): the next one starts now, at a boundary, or not while the job is in HOLD
(R544) or halts (R128). -/
def State.stepDone (s : State) (n : Nat) : State :=
  let j := s.job n
  if j.halting ∨ 2 ≤ j.memb ∨ (s.stepOnBeat ∧ s.beat.last ≠ some s.now) then s.setJob n { j with waiting := true }
  else s.advance n s.stepOnBeat

/-! ### The ends of steps (R258, R927) -/

/-- A STEP_END descriptor completes (R927). -/
def State.completeStepEnd (s : State) (coll : Nat) : State :=
  match s.coll? coll with
  | none => s
  | some c =>
    let earlier := s.tws.colls.any (fun x => x.slice = c.slice && x.d.step = c.d.step && x.serial < c.serial)
    if !c.d.stepEnd ∨ c.held ∨ !(c.complete || c.failed) ∨ earlier ∨ s.stepCtr c.slice ≠ c.d.step then s
    else
      let lost := s.tws.failed.any (fun f => f.1 = c.slice && f.2.1 = c.d.step && f.2.2 < c.serial)
      let st := if c.status ≠ 0 then c.status else if lost then 0x0258 else 0
      let s := s.finishColl c st false
      if st = 0 ∧ (s.coll? coll).isNone then s.stepDone c.slice else s

/-- Writes the held completion records of slice `n` for which the ring has room (R258). -/
def State.flushHeld (n : Nat) : Nat → State → State
  | 0, s => s
  | f + 1, s =>
    match s.tws.heldRecs.find? (fun h => h.slice = n) with
    | none => s
    | some h =>
      if s.cqFull n then s
      else
        let ends := match h.serial with
          | some k => h.status = 0 && s.tws.colls.any (fun c => c.serial = k && c.d.stepEnd)
          | none => false
        let s := { s with tws := { s.tws with heldRecs := s.tws.heldRecs.erase h } }
        let s := s.complete h
        State.flushHeld n f (if ends then s.stepDone n else s)

/-- A write of TWS_Qn_CQ_HEAD (R258). -/
def State.twsCqHeadWrite (s : State) (n : Nat) (v : Word) : State :=
  State.flushHeld n (s.tws.heldRecs.length) (s.wr (Reg.TWS_CQ_HEAD n) (v &&& 0xFFFF))

/-- TWS_CQ_HEAD_WRITE (R258). -/
def execTwsCqHeadWrite (via : Via) (n : Nat) (v : Word) (s : State) : Host.Outcome State Fault Refusal :=
  .next (s.gated via n (fun s => s.twsCqHeadWrite n v))

/-- STEP_END_COMPLETE (R927). -/
def execStepEndComplete (coll : Nat) (s : State) : Host.Outcome State Fault Refusal := .next (s.completeStepEnd coll)

/-! ### OPEN and CLOSE (R79 to R82) -/

/-- The job status register after a command. -/
def State.jobStat (s : State) (n st : Nat) : State := s.wf (Reg.GLB_JOB_STAT n) 15 0 st

/-- Member list entry `i` of the list at `a`. -/
def State.memberAt (s : State) (a i : Nat) : Nat := s.le (a + 8 * i) 8

/-- Does a table of `k` entries of `w` bytes at `a` lie aligned in slice `n`'s memory? An empty one is not read. -/
def State.tableOk (s : State) (n a k w : Nat) : Bool := k = 0 || (a % w = 0 && s.inSlice n a (k * w))

/-- The fields of the descriptor at `a` that R80 looks at: counts and tables. -/
def State.jobMembers (s : State) (a : Nat) : Nat := bitsOf (s.le (a + 20) 2) 13 0 + 1
def State.jobTallyCnt (s : State) (a : Nat) : Nat := bitsOf (s.le (a + 22) 2) 12 0
def State.jobHistCnt (s : State) (a : Nat) : Nat := bitsOf (s.le (a + 48) 2) 12 0

/-- The history ranges of the descriptor at `a`. -/
def State.jobRanges (s : State) (a : Nat) : List (Nat × Nat) :=
  (List.range (s.jobHistCnt a)).map (fun i => (bitsOf (s.le (s.le (a + 40) 5 + 16 * i) 8) 39 0, s.le (s.le (a + 40) 5 + 16 * i + 8) 4))

/-- Is anything of step 3 of R80 wrong with the descriptor at `a`? -/
def State.jobBad (s : State) (n a : Nat) : Bool :=
  let m := s.jobMembers a
  let es := (List.range m).map (s.memberAt (s.le (a + 24) 5))
  let key (e : Nat) : Nat := 4 * bitsOf e 13 0 + bitsOf e 17 16
  let h := s.jobHistCnt a
  bitsOf (s.le (a + 11) 1) 7 1 ≠ 0 || bitsOf (s.le (a + 20) 2) 15 14 ≠ 0 || bitsOf (s.le (a + 22) 2) 15 13 ≠ 0 ||
  s.le (a + 29) 3 ≠ 0 || s.le (a + 37) 3 ≠ 0 || s.le (a + 45) 3 ≠ 0 || bitsOf (s.le (a + 48) 2) 15 13 ≠ 0 || s.le (a + 50) 14 ≠ 0 ||
  4096 < h || !s.tableOk n (s.le (a + 24) 5) m 8 ||
  (s.jobTallyCnt a ≤ 4096 && s.jobTallyCnt a ≠ 0 && !(s.le (a + 32) 5 % 4 = 0 && s.inSlice n (s.le (a + 32) 5) (4 * s.jobTallyCnt a))) ||
  !s.tableOk n (s.le (a + 40) 5) h 16 ||
  (List.range h).any (fun i => bitsOf (s.le (s.le (a + 40) 5 + 16 * i) 8) 63 40 ≠ 0 || s.le (s.le (a + 40) 5 + 16 * i + 12) 4 ≠ 0) ||
  (s.jobRanges a).any (fun r => !s.inSliceRegion n .state r.1 r.2) ||
  es.any (fun e => bitsOf e 15 14 ≠ 0 || bitsOf e 63 18 ≠ 0) || !strictlyRising (es.map key) ||
  !es.any (fun e => bitsOf e 13 0 = s.partId && bitsOf e 17 16 = n)

/-- The tally set of the descriptor at `a`. -/
def State.jobTallySet (s : State) (a : Nat) : List Nat := (List.range (s.jobTallyCnt a)).map (fun i => s.le (s.le (a + 32) 5 + 4 * i) 4)

/-- The status of OPEN, in the order of R80. -/
def State.jobOpenStatus (s : State) (n : Nat) (rsv : Bool) : Nat :=
  let a := s.addrOf (Reg.GLB_JOB_ARG_LO n) (Reg.GLB_JOB_ARG_HI n)
  if (s.job n).isOpen then 0x0230
  else if a % 64 ≠ 0 ∨ !s.inSlice n a 64 then 0x0134
  else if rsv ∨ s.jobBad n a then 0x0134
  else if 4096 < s.jobTallyCnt a ∨ (s.jobTallySet a).any (fun t => 2 ^ 24 ≤ t) ∨ !strictlyRising (s.jobTallySet a) then 0x0133
  else if s.le (a + 10) 1 ≠ s.rf Reg.GLB_CONTRACT 7 0 then 0x0231
  else 0

/-- OPEN passes its checks (R81). -/
def State.jobOpen (s : State) (n : Nat) : State :=
  let a := s.addrOf (Reg.GLB_JOB_ARG_LO n) (Reg.GLB_JOB_ARG_HI n)
  let ms := (List.range (s.jobMembers a)).map (fun i => let e := s.memberAt (s.le (a + 24) 5) i
    (⟨bitsOf e 13 0, bitsOf e 17 16⟩ : Member))
  let hist := s.jobRanges a
  let k := s.le (a + 12) 6
  let j : Job := {
    isOpen := true, seed := s.le a 8, stitches := s.le (a + 8) 2 + 1, gen := s.le (a + 10) 1, members := ms, shards := ms,
    tallySet := s.jobTallySet a, hist := hist, epoch := s.le (a + 18) 2, memb := 1 }
  let resume := bitsOf (s.le (a + 11) 1) 0 0 = 1
  let s := (s.setJob n j).setStep n k
  let s := s.setCkp n { s.ckpOf n with reqs := [], warned := false, epoch := 0, full := true, waiting := none, round := 0,
                                       prop := none, lead := none, committed := none }
  let s := if resume then s else hist.foldl (fun s r => s.zeroRange r.1 r.2) s
  ((s.zeroDraws n).wf (Reg.GLB_JOB_STAT n) 30 30 1).feedStep n k

/-- CLOSE (R82). -/
def State.jobClose (s : State) (n : Nat) : State :=
  let s := (s.abandonColls n).feedsClose n
  let s := { s with tws := { s.tws with failed := s.tws.failed.filter (fun f => f.1 ≠ n), past := s.tws.past.filter (fun c => c.slice ≠ n) } }
  let s := s.setCkp n { s.ckpOf n with reqs := [], warned := false, waiting := none, prop := none, lead := none }
  (s.setJob n {}).wf (Reg.GLB_JOB_STAT n) 30 30 0

/-- A write of GLB_JOBn_CMD (R78). -/
def State.jobCmdWrite (s : State) (n : Nat) (v : Word) : State :=
  let s := s.wr (Reg.GLB_JOB_CMD n) (v &&& 3)
  let rsv := fieldOf v 30 2 ≠ 0
  if fieldOf v 31 31 = 0 then s
  else match fieldOf v 1 0 with
    | 1 =>
      let st := s.jobOpenStatus n rsv
      (if st = 0 then s.jobOpen n else s).jobStat n st
    | 2 =>
      if rsv then s.jobStat n 0x0134
      else if (s.job n).isOpen then (s.jobClose n).jobStat n 0 else s.jobStat n 0x0232
    | _ => s.jobStat n 0x0134

/-- JOB_OPEN (R81). -/
def execJobOpen (via : Via) (n : Nat) (v : Word) (s : State) : Host.Outcome State Fault Refusal :=
  .next (s.gated via n (fun s => s.jobCmdWrite n v))

/-- JOB_CLOSE (R82). -/
def execJobClose (via : Via) (n : Nat) (v : Word) (s : State) : Host.Outcome State Fault Refusal :=
  .next (s.gated via n (fun s => s.jobCmdWrite n v))

/-! ### The beat (R90 to R104, R926) -/

/-- P and W in ns (R91). -/
def State.beatP (s : State) : Nat := 1000 * s.rf Reg.GLB_BEAT_CFG 23 0
def State.beatW (s : State) : Nat := 125 * s.rf Reg.GLB_BEAT_CFG 23 0
def State.beatExternal (s : State) : Bool := s.rf Reg.GLB_BEAT_CFG 30 30 = 1
def State.beatState (s : State) : Nat := s.rf Reg.GLB_BEAT_STATE 2 0
def State.setBeatState (s : State) (x : Nat) : State := s.wr Reg.GLB_BEAT_STATE (BitVec.ofNat 32 x)

/-- The part enables the beat as it enters READY (R926). -/
def State.beatEnable (s : State) : State :=
  if s.rf Reg.GLB_BEAT_CFG 31 31 = 1 then
    { s with beat := { on := true } }.setBeatState (if s.beatExternal then 2 else 1)
  else s

/-- What a boundary does to slice `n`'s steps: a waiting step starts (R103), a running one overruns (R104). -/
def State.beatStep (s : State) (n : Nat) : State :=
  let j := s.job n
  if !s.stepOnBeat ∨ !j.isOpen ∨ j.halting ∨ 2 ≤ j.memb then s
  else if j.waiting then s.advance n true
  else if j.atBoundary then (s.count Ctr.GLB_STEP_OVERRUN).event Reg.GLB_CONTRACT_EVT 3
  else s

/-- A boundary at `t` (R99, R101, R103, R104, R495). -/
def State.boundary (s : State) (t : Nat) : State :=
  let prev := s.beat.last
  let s := s.reach t
  let s := s.wr Reg.GLB_BEAT_SEQ (s.rd Reg.GLB_BEAT_SEQ + 1)
  let s := s.wr64 Reg.GLB_BEAT_TS_LO Reg.GLB_BEAT_TS_HI t
  let s := { s with beat := { s.beat with last := some t, riseDue := some (t + 100) } }
  let s := (List.range s.sliceCount).foldl State.beatStep s
  s.feedBeat prev t (s.rd Reg.GLB_BEAT_SEQ).toNat

/-- The beat locks to a pulse at `p`: E is p + P. -/
def State.beatLock (s : State) (p : Nat) : State := { s with beat := { s.beat with expect := p + s.beatP } }.setBeatState 3

/-- A contract event with its counter (R96). -/
def State.beatSlip (s : State) (flag : Nat) : State := (s.event Reg.GLB_CONTRACT_EVT flag).count Ctr.GLB_BEAT_SLIP

/-- A pulse at `p` under source EXTERNAL (R96, R98). -/
def State.beatPulse (s : State) (p : Nat) : State :=
  if !(s.beat.on && s.beatExternal) then s
  else match s.beatState with
    | 2 => (s.boundary p).beatLock p
    | 3 =>
      let e := s.beat.expect
      if p + s.beatW < e then s.beatSlip 0
      else if p ≤ e + s.beatW then (s.boundary p).beatLock p
      else s
    | 4 =>
      match s.beat.last with
      | some b =>
        if b + s.beatP < p then s
        else if s.beatP ≤ 2 * (p - b) then ((s.boundary p).beatLock p).event Reg.GLB_CONTRACT_EVT 5
        else (s.beatLock p).event Reg.GLB_CONTRACT_EVT 5
      | none => s
    | _ => s

/-- No pulse by E + W in LOCKED (R96). -/
def State.beatLate (s : State) (t : Nat) : State :=
  if s.beat.on && s.beatExternal && s.beatState = 3 && t = s.beat.expect + s.beatW then
    ((s.boundary t).setBeatState 4).beatSlip 1
  else s

/-- No pulse by B + P in HOLDOVER (R96). -/
def State.beatHoldover (s : State) (t : Nat) : State :=
  if s.beat.on && s.beatExternal && s.beatState = 4 && s.beat.last.map (fun b => b + s.beatP) = some t then s.boundary t else s

/-- A time-base value that is a whole multiple of P under source INTERNAL (R92). -/
def State.beatInternal (s : State) (t : Nat) : State :=
  if s.beat.on && !s.beatExternal && t % s.beatP = 0 && s.beat.last ≠ some t then s.boundary t else s

/-- BEAT_OUT rises 100 ns after a boundary and stays high for WIDTH_US (R99). -/
def State.beatRise (s : State) (t : Nat) : State :=
  if s.beat.riseDue = some t then
    ({ s.reach t with beat := { s.beat with outHigh := true, riseDue := none,
                                            fallDue := some (t + 1000 * s.rf Reg.GLB_BEAT_OUT_CFG 9 0) } }).emit (.pin "BEAT_OUT" true)
  else s

/-- BEAT_OUT falls (R99). -/
def State.beatFall (s : State) (t : Nat) : State :=
  if s.beat.fallDue = some t then
    ({ s.reach t with beat := { s.beat with outHigh := false, fallDue := none } }).emit (.pin "BEAT_OUT" false)
  else s

/-- BEAT_INTERNAL_BOUNDARY (R92). -/
def execBeatInternalBoundary (t : Nat) (s : State) : Host.Outcome State Fault Refusal := .next (s.beatInternal t)

/-- BEAT_PULSE (R96). -/
def execBeatPulse (t : Nat) (s : State) : Host.Outcome State Fault Refusal := .next (s.beatPulse t)

/-- BEAT_GLITCH (R94). -/
def execBeatGlitch (t : Nat) (s : State) : Host.Outcome State Fault Refusal :=
  .next (if s.beat.on && s.beatExternal then ((s.reach t).event Reg.GLB_CONTRACT_EVT 2).count Ctr.GLB_BEAT_GLITCH else s)

/-- BEAT_LATE (R96). -/
def execBeatLate (t : Nat) (s : State) : Host.Outcome State Fault Refusal := .next (s.beatLate t)

/-- HOLDOVER_BOUNDARY (R96). -/
def execHoldoverBoundary (t : Nat) (s : State) : Host.Outcome State Fault Refusal := .next (s.beatHoldover t)

/-- BEAT_OUT_RISE (R99). -/
def execBeatOutRise (t : Nat) (s : State) : Host.Outcome State Fault Refusal := .next (s.beatRise t)

/-- BEAT_OUT_FALL (R99). -/
def execBeatOutFall (t : Nat) (s : State) : Host.Outcome State Fault Refusal := .next (s.beatFall t)

/-! ### Mirrored halves (R126 to R128) -/

/-- Does a job tally record of this half differ from the other half's? -/
def tallyDiffers (a : TallyAcc) (b : PeerTally) : Bool :=
  a.digest ≠ b.digest || a.elements ≠ b.elements || a.poisoned ≠ b.poisoned || bit (a.poisoned ≠ 0) + 2 + 4 * bit a.seen ≠ b.flags

/-- The other half's job tally records for `step` of slice `n`'s job (R126 to R128). -/
def State.tallyExchange (s : State) (n step : Nat) (other : List PeerTally) : State :=
  let own := (s.job n).jobTallies
  if s.rf Reg.GLB_PART_ID 17 16 ≠ 3 ∨ own = [] ∨ own.any (fun t => t.step ≠ step) then s
  else if own.any (fun a => match other.find? (fun b => b.tensor = a.tensor) with
      | some b => tallyDiffers a b
      | none => true) then
    let s := (s.event Reg.GLB_CONTRACT_EVT 4).count Ctr.GLB_DIVERGE
    if s.pat.mirrorHalt then s.setJob n { s.job n with halting := true } else s
  else s

/-- TALLY_EXCHANGE (R127). -/
def execTallyExchange (n step : Nat) (other : List PeerTally) (s : State) : Host.Outcome State Fault Refusal :=
  .next (s.tallyExchange n step other)

end Sys2Proof.Machine
end

