-- ==== Sys2Proof/Machine/Cast.lean ====
section
/-! DEFINITION. Cold and warm resets (R823 to R826) and the cast-on sequence (R829 to R852). -/

namespace Sys2Proof.Machine

/-! ### Resets -/

/-- The registers that show the fuses, and Distaff's copies of the secret and the owner key hash (R834). -/
def State.fusesRead (s : State) : State :=
  let f := s.fuses
  let nStacks := if f.variant = 1 then 9 else 12
  let links := if f.variant = 2 then 64 else 96
  let s := s.wr Reg.GLB_VARIANT (BitVec.ofNat 32 (f.variant + 0x40 + 2 ^ 8 * links + 2 ^ 16 * nStacks))
  let s := (s.wf Reg.GLB_STATUS 17 16 f.primary).wf Reg.GLB_STATUS 13 12 f.lc
  let s := s.wr64 Reg.TRUST_UID_LO Reg.TRUST_UID_HI f.uid
  let s := s.wr Reg.TRUST_LC (BitVec.ofNat 32 (f.lc + 16 * f.releases + 256 * bit (f.ownerHash ≠ [])))
  let s := s.wr Reg.CAST_SVN (BitVec.ofNat 32 (f.svns.getD 0 0 + 2 ^ 8 * f.svns.getD 1 0 + 2 ^ 16 * f.svns.getD 2 0))
  s.setTrust { s.trust with secret := f.secret, ownerHash := f.ownerHash }

/-- The registers that show what the flash holds. -/
def State.flashRead (s : State) : State :=
  (s.wr Reg.SPN_FW_DIR (BitVec.ofNat 32 s.flash.word &&& 0x0D0D0D00)).wr Reg.CAST_BOOT (BitVec.ofNat 32 s.flash.boots)

/-- The host ports' links, all untrained; their PERST_N stand as they are. -/
def State.portsDown (s : State) : SMap PortLink :=
  s.portLinks.foldl (fun m (e : Nat × PortLink) => store {} m e.1 { e.2 with trained := false }) []

/-- The link of host port `p` trains while its PERST_N is high (R923): rate, width and mode are its partner's to give, free
values; 64 GT/s is flit mode alone (R718). -/
def State.portTrain (s : State) (p : Nat) : State :=
  if (fetch ({} : PortLink) s.portLinks p).perst then
    let x := s.freeBits 32
    let rate := 1 + x % 6
    let flit := if rate = 6 then 1 else x / 6 % 2
    let s := { s with portLinks := store {} s.portLinks p { perst := true, trained := true } }.useFree
    (((s.wf (Reg.HOST_P_STAT p) 19 16 (1 + x / 12 % 5)).wf (Reg.HOST_P_STAT p) 15 12 rate).wf (Reg.HOST_P_STAT p) 11 11 flit).wf
      (Reg.HOST_P_STAT p) 10 10 1
  else s

/-- The part right after a cold reset (R823): what the fuses and the flash hold stays, with the commands that wait. -/
def State.coldState (s : State) : State :=
  let s' : State := { State.reset with pending := s.pending, free := s.free, out := s.out, fuses := s.fuses, flash := s.flash,
                                       ledger := s.ledger, ledgerHeld := s.ledgerHeld, tap := s.tap, portLinks := s.portsDown }
  s'.fusesRead.flashRead

/-- Is the register, or the counter, at `a` in domain COLD (R13)? -/
def coldReg (a : Nat) : Bool := (regRow a).any (fun r => r.dom = .cold)
def coldCtr (a : Nat) : Bool := (liveCtr a).any (fun r => r.2.dom = .cold)

/-- The part right after a warm reset (R824, R826): domain COLD stays; memory stays until cast-on wipes it. -/
def State.warmState (s : State) : State :=
  let pwr : Pwr := { hot := s.pwr.hot, tripLow := s.pwr.tripLow }
  let s' : State := { State.reset with pending := s.pending, free := s.free, out := s.out, fuses := s.fuses, flash := s.flash,
                                       ledger := s.ledger, ledgerHeld := s.ledgerHeld, mem := s.mem, tags := s.tags, tap := s.tap,
                                       portLinks := s.portsDown,
                                       regs := s.regs.filter (fun e => coldReg e.1), ctrs := s.ctrs.filter (fun e => coldCtr e.1),
                                       holds := s.holds.filter (fun e => coldCtr e.1), pwr }
  let s' := s'.setTrust { s'.trust with secret := s.trust.secret, ownerHash := s.trust.ownerHash }
  let s' := ((s'.wf Reg.GLB_STATUS 17 16 s.fuses.primary).wf Reg.GLB_STATUS 13 12 s'.lc).flashRead
  (s'.wf Reg.CAST_STATUS 12 12 1).count Ctr.CAST_WARM

/-! ### The phases (R829, R831) -/

/-- A phase of cast-on acts while it is the one in progress. -/
def State.inPhase (s : State) (k : Nat) (f : State → State) : State :=
  if s.partState = 1 ∧ s.rf Reg.CAST_PHASE 3 0 = k ∧ !s.cast.off then f s else s

/-- The next phase begins. -/
def State.toPhase (s : State) (k : Nat) : State := s.wr Reg.CAST_PHASE (BitVec.ofNat 32 k)

/-- Cast-on ends REFUSED with its cause (R831). -/
def State.castRefuse (s : State) (st : Nat) : State := (s.wf Reg.CAST_STATUS 31 16 st).wf Reg.GLB_STATUS 3 0 5

/-- This cast-on follows a warm reset. -/
def State.warm (s : State) : Bool := s.rf Reg.CAST_STATUS 12 12 = 1

/-- Phase 1 (R777, R778, R782, R834): a cold cast-on reads the fuses; the generator is seeded and the per-boot key drawn. -/
def State.castFuses (s : State) : State :=
  let s := if s.warm then s else s.fusesRead
  let s := (s.setFlash { s.flash with boots := (s.flash.boots + 1) % 2 ^ 32 }).flashRead
  if s.lc = 3 then s.castRefuse 0x0408
  else
    let s := s.setTrust { s.trust with draws := 0 }
    let k := s.draw 32
    let s := s.drew
    (s.setTrust { s.trust with bootKey := k }).toPhase 2

/-- What a slot read from flash gives on verification; a slot that cannot be read fails with 0x0515. -/
def State.slotStatus (s : State) (kind : Nat) (i : Option SlotImage) : Nat :=
  match i with
  | none => 0x0515
  | some i => s.imageStatus kind i

/-- `kind` boots from its other slot (R842). -/
def State.fellBack (s : State) (kind : Nat) : State :=
  ((s.wf Reg.SPN_FW_DIR (8 * kind + 1) (8 * kind + 1) 1).wf Reg.CAST_STATUS (7 + kind) (7 + kind) 1).event Reg.CAST_EVT 1

/-- An image of `kind` boots from the slots as read: the active one, or the other one when that fails (R842). The number is the status
of the active slot when neither verifies, and 0 otherwise. -/
def State.bootKind (s : State) (kind : Nat) (slots : List (Option SlotImage)) : State × Nat :=
  let a := slots.getD (s.dirActive kind) none
  let b := slots.getD (1 - s.dirActive kind) none
  let st := s.slotStatus kind a
  match a, b with
  | some i, _ =>
    if st = 0 then (s.runImage kind i, 0)
    else if s.slotStatus kind b = 0 then ((s.fellBack kind).runImage kind (b.getD i), 0) else (s, st)
  | none, some j => if s.slotStatus kind b = 0 then ((s.fellBack kind).runImage kind j, 0) else (s, st)
  | none, none => (s, st)

/-- An image that waits for the next reset becomes its kind's active one (R871, R872). -/
def State.dirSettle (s : State) (kind : Nat) : State :=
  if s.dirOther kind = 2 then (s.dirWrite kind (1 - s.dirActive kind) 0).setStaged kind none else s

/-- Phase 2 (R838, R841, R842): the directory copy in force is the one of the higher sequence number with a good CRC. -/
def State.castVerify (s : State) (bad : List Nat) (slots : List (Option SlotImage)) : State :=
  let f := s.flash
  if bad.contains 0 ∧ bad.contains 1 then s.castRefuse 0x0515
  else
    let cur := if bad.contains 0 then 1 else if bad.contains 1 then 0 else if f.dirA.1 < f.dirB.1 then 1 else 0
    let s := (s.setFlash { f with cur }).flashRead
    let s := [1, 2, 3].foldl State.dirSettle s
    match s.bootKind 1 slots with
    | (s, 0) => s.toPhase 3
    | (s, st) => s.castRefuse st

/-- A Pattern with what its header says of it. -/
def patOf (p : Pattern) (i : SlotImage) : Pattern := { p with variants := byteAt i.header 48, sysTag := leAt i.header 56 8 }

/-- The slot that runs, of those read. -/
def State.ranSlot (s : State) (kind : Nat) (slots : List (Option SlotImage)) : Option SlotImage :=
  let a := s.dirActive kind
  slots.getD (if s.rf Reg.CAST_STATUS (7 + kind) (7 + kind) = 1 then 1 - a else a) none

/-- Phase 3: the Spindle image and the Pattern are verified, and measurements 1 to 5 recorded; core 0 is released. -/
def State.castMeasure (s : State) (spindle pattern : List (Option SlotImage)) (p : Pattern) : State :=
  match s.bootKind 2 spindle with
  | (s, 0) =>
    match s.bootKind 3 pattern with
    | (s, 0) =>
      let s := match s.ranSlot 3 pattern with
        | some i => { s with pat := patOf p i }
        | none => s
      (s.measureAll.measureStaged.wf Reg.SPN_CORE 3 0 1).toPhase 4
    | (s, st) => s.castRefuse st
  | (s, st) => s.castRefuse st

/-- Clocked domains are locked and crossings aligned (R51): VCORE is commanded for the first time (R886), and the ports whose PERST_N is
high train (R923). -/
def State.aligned (s : State) : State :=
  let s := s.wr Reg.PWR_VCFG (BitVec.ofNat 32 s.pat.vcfg &&& 0x03FF03FF)
  let v := s.rf Reg.PWR_VCFG 9 0
  let s := s.wr Reg.PWR_VCORE (BitVec.ofNat 32 v)
  let s := [0, 1, 2, 3].foldl (fun s i => s.emit (.avsWrite i v)) s
  ((s.portTrain 0).portTrain 1).toPhase 5

/-- Phase 4: the Pattern is checked (R845); one that fails gives way to the other slot's, which is read with its Pattern `p` (R842). -/
def State.castAlign (s : State) (other : Option SlotImage) (p : Pattern) : State :=
  let st := s.patternStatus s.pat.variants s.pat
  if st = 0 then s.aligned
  else
    match other with
    | some i =>
      if s.rf Reg.CAST_STATUS 10 10 = 1 ∨ s.imageStatus 3 i ≠ 0 ∨ s.patternStatus (byteAt i.header 48) (patOf p i) ≠ 0 then s.castRefuse st
      else ({ (s.fellBack 3).runImage 3 i with pat := patOf p i }).measureAll.measureStaged.aligned
    | none => s.castRefuse st

/-! ### Start-time tests (R847 to R850) -/

/-- A ledger entry's place is the same. -/
def LedgerEntry.same (a b : LedgerEntry) : Bool :=
  a.kind = b.kind && a.die = b.die && a.unit = b.unit && a.sub = b.sub && a.addr = b.addr

/-- The entries that the results call for, without what is fused off (R835, R908). -/
def State.testEntries (s : State) (r : TestResults) : List LedgerEntry :=
  let boot := (s.rd Reg.CAST_BOOT).toNat
  let row (e : Nat × Nat × Nat) : LedgerEntry := ⟨1, e.1, e.2.1, e.2.2, 0, boot, 1⟩
  let lane (e : Nat × Nat) : LedgerEntry := ⟨2, e.1 / 2, e.1, e.2, 0, boot, 1⟩
  let mem (k : Nat) (b : BadRow) : LedgerEntry := ⟨k, b.die, b.unit, b.sub, b.addr, boot, 1⟩
  r.rows.map row ++ (r.lanes.filter (fun e => !(s.variant = 2 && 16 ≤ e.2 && e.2 < 24))).map lane ++
    ((r.hbm.filter (fun b => b.unit < s.stacksOf b.die)).map (mem 3)) ++ r.hank.map (mem 4)

/-- Enters each failure that is not in the ledger yet; the result says whether the ledger had room for all. -/
def State.enterAll (s : State) (es : List LedgerEntry) : State × Bool :=
  es.foldl (fun (r : State × Bool) e =>
    if r.1.ledger.any (fun x => x.same e) then r
    else if r.1.ledger.length < 4096 then (r.1.ledgerAdd e, r.2) else (r.1, false)) (s, s.ledgerHeld = [])

/-- Slots of panel `p` of die `d` that work, ascending (R310). -/
def State.goodSlots (s : State) (d p : Nat) : List Nat := (List.range 9).filter (fun k => !s.slotDead d p k)

/-- The cause for which the tests refuse READY, in the order of R831; 0 for none. -/
def State.testCause (s : State) (r : TestResults) (room : Bool) : Nat :=
  let lanes (c : Nat) : Nat := (s.ledger.filter (fun e => e.kind = 2 && e.unit = c)).length
  if r.dies ≠ [] then 0x0514
  else if (List.range 4).any (fun d => (List.range 4).any (fun p => (s.goodSlots d p).length < s.panelRows)) then 0x0510
  else if (List.range 8).any (fun c => 2 < lanes c) then 0x0511
  else if r.training.any (fun e => e.2 < s.stacksOf e.1) ∨ r.hbm.any (fun b => b.unit < s.stacksOf b.die && !b.repaired) then 0x0512
  else if r.hank.any (fun b => !b.repaired) then 0x0513
  else if !room then 0x0310
  else if r.cores ≠ [] then 0x0516
  else 0

/-- Phase 5 (R835, R848 to R850). -/
def State.castTest (s : State) (r : TestResults) : State :=
  let ok := ((List.range 4).filter (fun d => !r.dies.contains d)).map (fun d => 2 ^ d)
  let s := s.wf Reg.GLB_STATUS 27 24 ok.sum
  match s.enterAll (s.testEntries r) with
  | (s, room) =>
    let st := s.testCause r room
    if st = 0 then s.toPhase 6 else s.castRefuse st

/-! ### Wipe, apply, topology, ready -/

/-- The panel map of a panel: its rows take the lowest slots that work (R310). -/
def State.mapPanel (s : State) (d p : Nat) : State :=
  let ks := s.goodSlots d p
  (List.range 8).foldl (fun s r =>
    let l := 32 * d + 8 * p + r
    if r < s.panelRows then (s.mapRow l (ks.getD r 0xF)).setRowState l 1 else (s.mapRow l 0xF).setRowState l 0) s

/-- Phase 6 (R310, R826): HBM, hank, scratch and program buffers are wiped, and the panel maps built. -/
def State.castWipe (s : State) : State :=
  let s := { s with mem := [], tags := [], rows := [] }
  ((List.range 4).foldl (fun s d => (List.range 4).foldl (fun s p => s.mapPanel d p) s) s).toPhase 7

/-- Identity, slices, kinds, regions and rings of the Pattern. -/
def State.applyPart (s : State) : State :=
  let p := s.pat
  let s := s.wr Reg.GLB_PART_ID (BitVec.ofNat 32 (p.partId % 2 ^ 14 + 2 ^ 16 * bit p.paired + 2 ^ 17 * bit p.mirrored + 2 ^ 31))
  let s := s.wf Reg.GLB_STATUS 19 18 (if p.slices = 4 then 2 else if p.slices = 2 then 1 else 0)
  let s := (List.range 4).foldl (fun s n => s.setSliceState n (if s.hasSlice n then 0 else 7)) s
  let s := (List.range 128).foldl (fun s l => s.wf (Reg.NDL_ROW l) 6 4 (p.rowKinds.getD l 0)) s
  let s := (List.range 4).foldl (fun s d => s.wr (Reg.MEM_PART d) (BitVec.ofNat 32 (p.parts.getD d 0))) s
  let s := s.wr64 Reg.GLB_TALLY_BASE_LO Reg.GLB_TALLY_BASE_HI (p.tallyBase % 2 ^ 40 / 32 * 32)
  let s := s.wr Reg.GLB_TALLY_SIZE (BitVec.ofNat 32 p.tallyLog2)
  let s := s.wr64 Reg.NDL_TRAP_BASE_LO Reg.NDL_TRAP_BASE_HI (p.trapBase % 2 ^ 40)
  let s := s.wr64 Reg.CRD_LOG_BASE_LO Reg.CRD_LOG_BASE_HI (p.logBase % 2 ^ 40 / 32 * 32)
  let s := s.wr Reg.CRD_LOG_SIZE (BitVec.ofNat 32 p.logLog2)
  let s := s.wr Reg.CRD_TRIG_BASE (BitVec.ofNat 32 (p.trigBase % 2 ^ 14))
  let cfg := 2 ^ 31 * bit p.beatOn + 2 ^ 30 * bit p.beatExternal + 2 ^ 29 * bit p.stepOnBeat + (if p.beatOn then p.beatPeriod else 0)
  (s.wr Reg.GLB_BEAT_CFG (BitVec.ofNat 32 cfg)).wr Reg.GLB_BEAT_OUT_CFG (BitVec.ofNat 32 (if p.beatOn then p.beatWidth else 0))

/-- Links leave DOWN (R572, R580, R835), and ports in ETHERNET mode train (R688). -/
def State.applyLinks (s : State) : State :=
  let s := (List.range 96).foldl (fun s n =>
    let m := s.patMode s.pat n
    let fec := ((s.wiring n).map (fun l => l.fec)).getD 0
    (s.wr (Reg.LNK_N_CTL n) (BitVec.ofNat 32 (m + 4 * fec))).setLinkState n (if m = 0 then 0 else if m = 2 then 0xA else 2)) s
  (List.range 32).foldl (fun s q => if s.linkMode (portLink q) = 2 then s.wf (Reg.ETH_P_STAT q) 1 0 1 else s) s

/-- Entries, rules, settings of the Ethernet edge, the system tag, the time source and telemetry. -/
def State.applyEdge (s : State) : State :=
  let p := s.pat
  let s := s.wr64 Reg.SWT_SYSTAG_LO Reg.SWT_SYSTAG_HI p.sysTag
  let s := (p.regs.filter (fun e => codeOf e.1 = 0x8 || codeOf e.1 = 0xC)).foldl (fun (s : State) (e : Nat × Nat) =>
    s.wr e.1 (BitVec.ofNat 32 e.2)) s
  let rules := p.rules.foldl (fun m (e : Nat × Nat × List Nat) => store (List.replicate 16 0) m (8192 * e.1 + e.2.1) e.2.2) s.ethRules
  let s := { s with ethRules := rules }
  let s := s.wr Reg.PWR_TB_SRC (BitVec.ofNat 32 p.tbSrc &&& 0x7F03)
  (s.wr Reg.PWR_TEL_CFG (BitVec.ofNat 32 p.telCfg &&& 0x8000FFFF)).wr Reg.PWR_TEL_MASK (BitVec.ofNat 32 p.telMask &&& 0xFFFF)

/-- The stamp corrections of the Ethernet ports, measured at a cold cast-on (R714): values that the spec leaves open. -/
def State.calibrate (s : State) : State :=
  if s.warm then s
  else (List.range 32).foldl (fun s q => (s.wr (Reg.ETH_P_LAT q) (BitVec.ofNat 32 (s.freeBits 32))).useFree) s

/-- Phase 7: the Pattern is loaded. -/
def State.castApply (s : State) : State :=
  let s := s.applyPart.applyLinks.applyEdge.calibrate
  (s.setCast { s.cast with topoAt := s.now }).toPhase 8

/-- Links in WOARD mode. -/
def State.woardLinks (s : State) : List Nat := (List.range 96).filter (fun n => s.linkMode n = 1)

/-- Phase 8 at instant `t` (R851, R852): it ends once every Woard link is UP, DEGRADED or quarantined, or after TOPO_WAIT_MS. -/
def State.castTopology (s : State) (t : Nat) : State :=
  let settled (n : Nat) : Bool := s.linkLive n || s.linkState n = 8
  if s.woardLinks.all settled ∨ s.cast.topoAt + 1000000 * s.pat.topoWait ≤ t then
    let s := s.reach t
    let late := s.woardLinks.filter (fun n => !s.linkLive n && (s.wiring n).any (fun l => l.required))
    let s := late.foldl (fun s n => s.topoMark n true) s
    if late = [] then s.toPhase 9 else s.castRefuse 0x0610
  else s

/-- Phase 9 (R843, R893, R926): every core runs, images that have proved themselves raise their fuses, the part is READY, and the beat
is enabled. -/
def State.castReady (s : State) : State :=
  let s := (s.wr Reg.SPN_CORE 0x11111111).wf Reg.GLB_STATUS 3 0 2
  let s := [1, 2, 3].foldl State.svnBurn s
  { s with tbFixed := true }.beatEnable.evidenceSync

/-! ### Commands -/

/-- COLD_RESET (R823). -/
def execColdReset (s : State) : Host.Outcome State Fault Refusal :=
  .next (if s.pwr.tripLow then s.coldState.emit (.pin "TRIP_N" true) else s.coldState)

/-- CAST_FUSES (R834). -/
def execCastFuses (s : State) : Host.Outcome State Fault Refusal := .next (s.inPhase 1 State.castFuses)

/-- CAST_VERIFY (R842). -/
def execCastVerify (bad : List Nat) (slots : List (Option SlotImage)) (s : State) : Host.Outcome State Fault Refusal :=
  .next (s.inPhase 2 (fun s => s.castVerify bad slots))

/-- CAST_MEASURE (R829). -/
def execCastMeasure (spindle pattern : List (Option SlotImage)) (pat : Pattern) (s : State) : Host.Outcome State Fault Refusal :=
  .next (s.inPhase 3 (fun s => s.castMeasure spindle pattern pat))

/-- CAST_ALIGN (R51). -/
def execCastAlign (other : Option SlotImage) (pat : Pattern) (s : State) : Host.Outcome State Fault Refusal :=
  .next (s.inPhase 4 (fun s => s.castAlign other pat))

/-- CAST_TEST (R849). -/
def execCastTest (r : TestResults) (s : State) : Host.Outcome State Fault Refusal := .next (s.inPhase 5 (fun s => s.castTest r))

/-- CAST_WIPE (R826). -/
def execCastWipe (s : State) : Host.Outcome State Fault Refusal := .next (s.inPhase 6 State.castWipe)

/-- CAST_APPLY (R829). -/
def execCastApply (s : State) : Host.Outcome State Fault Refusal := .next (s.inPhase 7 State.castApply)

/-- CAST_TOPOLOGY (R852). -/
def execCastTopology (t : Nat) (s : State) : Host.Outcome State Fault Refusal := .next (s.inPhase 8 (fun s => s.castTopology t))

/-- CAST_READY (R829). -/
def execCastReady (s : State) : Host.Outcome State Fault Refusal := .next (s.inPhase 9 State.castReady)

end Sys2Proof.Machine
end

