-- ==== Sys2Proof/Machine/Host.lean ====
section
/-! DEFINITION. The host ports (file 13): windows into slice memory, copy queues, notify entries and heartbeats. -/

namespace Sys2Proof.Machine

/-! ### DMA and poison (R726, R754 to R756) -/

/-- The PASID that a DMA request of function `fn` of `port` for slice `n` carries (R726). -/
def State.dmaPasid (s : State) (port fn n : Nat) : Option Nat :=
  if fetch false s.host.pasidOn (4 * port + fn) then some (s.rf (Reg.HOST_S_PASID n) 19 0) else none

/-- Poison marks of marked bytes, one for each 8 bytes. -/
def marksOf (bs : List (Byte × Bool)) : List Bool :=
  (List.range ((bs.length + 7) / 8)).map (fun i => ((bs.drop (8 * i)).take 8).any (fun b => b.2))

/-- Outbound TLPs of at most 512 bytes, cut at 512-byte boundaries of the address `a`, that carry a poisoned word (R718, R755). -/
def poisonTlps (a : Nat) (bs : List (Byte × Bool)) : Nat :=
  ((List.range ((bs.length + a % 512 + 511) / 512)).filter (fun i =>
    ((bs.drop (512 * i - a % 512)).take (if i = 0 then 512 - a % 512 else 512)).any (fun b => b.2))).length

/-- `k` TLPs are sent with EP set (R755). -/
def State.poisonSent (s : State) (port k : Nat) : State :=
  if k = 0 then s else (s.countN (Ctr.HOST_P_POISON_TX port) k).event Reg.HOST_EVT 4

/-- A DMA write of marked bytes (R726, R755). -/
def State.dmaWrite (s : State) (port fn n a : Nat) (bs : List (Byte × Bool)) : State :=
  (s.emit (.hostWrite port (s.dmaPasid port fn n) a (bs.map (fun b => b.1)) (marksOf bs))).poisonSent port (poisonTlps a bs)

/-- The payload of a TLP from the host is written at `a`, with the poison mark if it came with EP (R754). -/
def State.tlpWrite (s : State) (port a : Nat) (bs : List Byte) (ep : Bool) : State :=
  let s := if ep then ((s.count (Ctr.HOST_P_POISON_RX port)).event Reg.HOST_EVT 4).aerError port 1 13 true else s
  s.write a bs ep

/-- What has come of a transfer of `len` bytes to `a` is written: nothing beyond the transfer. -/
def State.tlpsWrite (s : State) (port a len : Nat) (cs : List HostChunk) : State :=
  cs.foldl (fun s c => s.tlpWrite port (a + c.off) (c.bytes.take (len - c.off)) c.ep) s

/-- Do the chunks cover every byte of a transfer of `len` bytes, one after another? -/
def chunksCover : Nat → Nat → List HostChunk → Bool
  | at_, len, [] => at_ == len
  | at_, len, c :: cs => c.off == at_ && c.bytes.length ≠ 0 && at_ + c.bytes.length ≤ len && chunksCover (at_ + c.bytes.length) len cs

/-! ### Windows (R728 to R730) -/

/-- Bytes of PF1 BAR2 of a port (R719). -/
def State.bar2Size (s : State) (port : Nat) : Nat := 2 ^ fetch 36 s.host.bar2 port

/-- Bytes of each slice's part of BAR2 (R728). -/
def State.bar2Part (s : State) (port : Nat) : Nat := s.bar2Size port / s.sliceCount

/-- A request is refused (R729): counted, and a read answered with Unsupported Request. -/
def State.barRefuse (s : State) (port : Nat) (read : Bool) : State :=
  let s := s.urRefuse port
  if read then s.emit (.unsupported port) else s

/-- An access of `k` bytes at offset `x` of BAR2 (R728 to R730, R749): a write of the bytes `wr`, or a read. -/
def State.bar2Access (s : State) (port x k : Nat) (wr : Option (List Byte)) (ep : Bool) : State :=
  if s.bar2Size port < x + k ∨ k = 0 ∨ 2 ≤ port then s
  else if wr.isSome ∧ s.hostLost port then s.count (Ctr.HOST_P_DB_DROP port)
  else
    let n := x / s.bar2Part port
    let a := s.addrOf (Reg.HOST_S_WIN_LO n) (Reg.HOST_S_WIN_HI n) + x % s.bar2Part port
    if !s.inSlice n a k then s.barRefuse port wr.isNone
    else
      match wr with
      | some bs => s.tlpWrite port a (fitBytes k bs) ep
      | none =>
        let bs := s.readMarked a k
        (s.emit (.barData port (bs.map (fun b => b.1)) (marksOf bs))).poisonSent port (poisonTlps a bs)

/-! ### Copy queues (R732 to R737) -/

def State.copyList (s : State) (n k : Nat) : List CopyReq := fetch [] s.host.copies (8 * n + k)

def State.setCopyList (s : State) (n k : Nat) (cs : List CopyReq) : State :=
  { s with host := { s.host with copies := store [] s.host.copies (8 * n + k) cs } }

/-- The port a copy queue is bound to (R732). -/
def State.copyPort (s : State) (n k : Nat) : Nat := s.rf (Reg.PAGE_CPY_CFG n k) 30 30

/-- A write of CPY_CFG (R732): it arrives through a doorbell page. -/
def State.copyCfgWrite (s : State) (via : Via) (n k : Nat) (v : Word) : State :=
  let a := Reg.PAGE_CPY_CFG n k
  let old := s.rd a
  let en := fieldOf v 31 31 = 1
  let port := match via with
    | .page _ p _ => p
    | _ => 0
  if en ∧ (fieldOf v 3 0 < 4 ∨ 12 < fieldOf v 3 0 ∨ fieldOf v 11 8 < 4 ∨ 12 < fieldOf v 11 8) then s.reject via a 0x01F1
  else if bitOf old.toNat 31 ∧ (fieldOf v 3 0 ≠ fieldOf old 3 0 ∨ fieldOf v 11 8 ≠ fieldOf old 11 8) then s.reject via a 0x02F0
  else if bitOf old.toNat 31 ∧ en then s
  else s.wr a (setField (v &&& 0x80000F0F) 30 30 (if en then port else 0))

/-- A write of a copy queue's ring base at offset `a`, whose lowest `low` bits must be 0. -/
def State.copyRingWrite (s : State) (via : Via) (n k a low : Nat) (v : Word) : State :=
  if v.toNat % 2 ^ low ≠ 0 then s.reject via a 0x01F2
  else if s.rf (Reg.PAGE_CPY_CFG n k) 31 31 = 1 then s.reject via a 0x02F0
  else s.wr a v

/-- A write of CPY_TAIL (R257, R734). -/
def State.copyTailWrite (s : State) (via : Via) (n k : Nat) (v : Word) : State :=
  let t := fieldOf v 15 0
  if 2 ^ s.rf (Reg.PAGE_CPY_CFG n k) 3 0 < aheadMod 16 (s.rf (Reg.PAGE_CPY_HEAD n k) 15 0) t then
    s.reject via (Reg.PAGE_CPY_TAIL n k) 0x02F6
  else s.wr (Reg.PAGE_CPY_TAIL n k) (BitVec.ofNat 32 t)

/-- Is the completion ring of the copy queue full (R258)? -/
def State.copyFull (s : State) (n k : Nat) : Bool :=
  2 ^ s.rf (Reg.PAGE_CPY_CFG n k) 11 8 ≤ aheadMod 16 (s.rf (Reg.PAGE_CPY_CQ_HEAD n k) 15 0) (s.rf (Reg.PAGE_CPY_CQ_TAIL n k) 15 0)

/-- A copy's counter is incremented (R736). -/
def State.copyCtr (s : State) (n : Nat) (c : CopyReq) : State := s.ctrBumpOpt n c.doneCtr

/-- Writes the record of the oldest copy, when it has ended and the ring has room: bytes 0 to 14, then byte 15 (R734 to
R736). The result says whether it did. -/
def State.copyRecord (s : State) (n k : Nat) : State × Bool :=
  match s.copyList n k with
  | [] => (s, false)
  | c :: rest =>
    match c.ended with
    | none => (s, false)
    | some e =>
      if s.copyFull n k ∨ s.hostLost (s.copyPort n k) then (s, false)
      else
        let log2 := s.rf (Reg.PAGE_CPY_CFG n k) 11 8
        let t := s.rf (Reg.PAGE_CPY_CQ_TAIL n k) 15 0
        let a := (s.rd64 (Reg.PAGE_CPY_CQ_LO n k) (Reg.PAGE_CPY_CQ_HI n k)) + 16 * (t % 2 ^ log2)
        let r := record [(2, c.idx), (2, e.1), (4, c.user), (4, e.2), (3, 0)]
        let phase := leBytes 1 (if t / 2 ^ log2 % 2 = 0 then 1 else 0)
        let s := s.dmaWrite (s.copyPort n k) 1 n a (r.map (fun b => (b, false)))
        let s := s.dmaWrite (s.copyPort n k) 1 n (a + 15) (phase.map (fun b => (b, false)))
        let s := (s.wr (Reg.PAGE_CPY_CQ_TAIL n k) (BitVec.ofNat 32 ((t + 1) % 65536))).setCopyList n k rest
        (s.copyCtr n c, true)

/-- Writes every record that can be written. -/
def State.copyFlush (n k : Nat) : Nat → State → State
  | 0, s => s
  | f + 1, s =>
    match s.copyRecord n k with
    | (s, true) => State.copyFlush n k f s
    | (s, false) => s

def State.copyRecords (s : State) (n k : Nat) : State := State.copyFlush n k (s.copyList n k).length s

/-- The status of a copy descriptor (R733, R737). -/
def State.copyStatus (s : State) (n : Nat) (d : List Byte) : Nat :=
  if byteAt d 0 / 4 ≠ 0 ∨ byteAt d 1 ≠ 0 ∨ 2 ^ 14 ≤ leAt d 2 2 ∨ 2 ^ 31 ≤ leAt d 4 4 ∨ leAt d 21 3 ≠ 0 ∨ leAt d 28 4 ≠ 0 then 0x01F0
  else if leAt d 4 4 = 0 ∨ 2 ^ 30 < leAt d 4 4 ∨ (bitOf (byteAt d 0) 1 ∧ !s.ctrInShare (leAt d 2 2)) then 0x01F1
  else if !s.inSlice n (leAt d 16 5) (leAt d 4 4) then 0x01F2
  else 0

/-- The next descriptor of the copy queue is fetched from host memory as the 32 bytes `d`, and its copy starts (R732 to
R737, R741, R749). -/
def State.copyStart (s : State) (n k : Nat) (d : List Byte) : State :=
  let h := s.rf (Reg.PAGE_CPY_HEAD n k) 15 0
  if !s.hasSlice n ∨ 8 ≤ k ∨ s.sliceState n ≠ 0 ∨ s.rf (Reg.PAGE_CPY_CFG n k) 31 31 = 0 ∨
      h = s.rf (Reg.PAGE_CPY_TAIL n k) 15 0 ∨ s.hostLost (s.copyPort n k) ∨ d.length ≠ 32 then s
  else
    let st := s.copyStatus n d
    let c : CopyReq := {
      idx := h, toHost := bitOf (byteAt d 0) 0, host := leAt d 8 8, loc := leAt d 16 5, len := leAt d 4 4, user := leAt d 24 4,
      doneCtr := if bitOf (byteAt d 0) 1 && s.ctrInShare (leAt d 2 2 % 2 ^ 14) then some (leAt d 2 2 % 2 ^ 14) else none,
      ended := if st = 0 then none else some (st, 0) }
    let s := s.wr (Reg.PAGE_CPY_HEAD n k) (BitVec.ofNat 32 ((h + 1) % 65536))
    (s.setCopyList n k (s.copyList n k ++ [c])).copyRecords n k

/-- The oldest copy of the queue that has not ended. -/
def State.copyRunning (s : State) (n k : Nat) : Option CopyReq := (s.copyList n k).find? (fun c => c.ended.isNone)

/-- Copy `c` of the queue ends with a status and the bytes it moved. -/
def State.copyEnd (s : State) (n k : Nat) (c : CopyReq) (st bytes : Nat) : State :=
  s.setCopyList n k ((s.copyList n k).map (fun x => if x.idx = c.idx ∧ x.ended.isNone then ({ x with ended := some (st, bytes) } : CopyReq) else x))

/-- The data of copy `c` have come from the host in full (R754): they are written. -/
def State.copyIn (s : State) (n k : Nat) (c : CopyReq) (data : List HostChunk) : State :=
  (s.tlpsWrite (s.copyPort n k) c.loc c.len data).copyEnd n k c (if data.any (fun x => x.ep) then 0x05F1 else 0) c.len

/-- The data of copy `c` are issued to the host (R755). -/
def State.copyOut (s : State) (n k : Nat) (c : CopyReq) : State :=
  let bs := s.readMarked c.loc c.len
  (s.dmaWrite (s.copyPort n k) 1 n c.host bs).copyEnd n k c (if bs.any (fun b => b.2) then 0x0580 else 0) c.len

/-- The oldest running copy of the queue moves all its data (R735); `data` is what the host gave to a copy from it. -/
def State.copyFinish (s : State) (n k : Nat) (data : List HostChunk) : State :=
  match s.copyRunning n k with
  | none => s
  | some c =>
    if s.hostLost (s.copyPort n k) then s
    else if c.toHost then (s.copyOut n k c).copyRecords n k
    else if chunksCover 0 c.len data then (s.copyIn n k c data).copyRecords n k
    else s

/-- The host read of the oldest running copy fails (R756): what came is written, and no more. -/
def State.copyReadFail (s : State) (n k : Nat) (data : List HostChunk) : State :=
  match s.copyRunning n k with
  | none => s
  | some c =>
    if c.toHost then s
    else
      let s := (s.tlpsWrite (s.copyPort n k) c.loc c.len data).copyEnd n k c 0x05F0 ((data.map (fun x => x.bytes.length)).sum)
      (s.event Reg.HOST_EVT 3).copyRecords n k

/-- The part-side effect of the copies bound to `port` whose host data have come in full (R749, R752): they are written,
their counters incremented, and no record goes to the host; every other copy goes without effect. -/
def State.copiesDrop (s : State) (port : Nat) (arrived : List CopyArrival) : State :=
  let s := arrived.foldl (fun s (x : CopyArrival) =>
    match s.copyRunning x.slice x.queue with
    | some c => if !c.toHost && s.copyPort x.slice x.queue = port && chunksCover 0 c.len x.data then s.copyIn x.slice x.queue c x.data else s
    | none => s) s
  (List.range 32).foldl (fun s i =>
    if s.copyPort (i / 8) (i % 8) = port then
      let cs := s.copyList (i / 8) (i % 8)
      (cs.filter (fun c => c.ended.isSome)).foldl (fun s c => s.copyCtr (i / 8) c) (s.setCopyList (i / 8) (i % 8) [])
    else s) s

/-- The copy queues bound to `port` are disabled (R752). -/
def State.copyQueuesOff (s : State) (port : Nat) (arrived : List CopyArrival) : State :=
  let s := s.copiesDrop port arrived
  (List.range 32).foldl (fun s i =>
    let a := Reg.PAGE_CPY_CFG (i / 8) (i % 8)
    if s.rf a 31 31 = 1 ∧ s.copyPort (i / 8) (i % 8) = port then (s.wf a 31 31 0).wf a 30 30 0 else s) s

/-! ### Notify entries (R738, R739) -/

/-- A write of word 1 of notify entry `i` of slice `n`. -/
def State.notifyWrite (s : State) (via : Via) (n i : Nat) (v : Word) : State :=
  let a := Reg.PAGE_NOTIFY_CTL n i
  if fieldOf v 31 31 = 1 ∧ (2048 / s.sliceCount ≤ fieldOf v 26 16 ∨ !s.ctrInShare (fieldOf v 13 0)) then s.reject via a 0x01F1
  else (s.wr a (v &&& 0xC7FF3FFF)).notifyCheck n i

/-! ### Heartbeats (R747 to R749) -/

/-- A heartbeat on `port`. -/
def State.heartbeat (s : State) (port : Nat) : State :=
  if s.hostLost port then s.count (Ctr.HOST_P_DB_DROP port)
  else
    let s := (s.wf (Reg.HOST_P_STAT port) 1 0 1).wf (Reg.HOST_P_STAT port) 3 2 0
    { s with host := { s.host with beats := store false s.host.beats port true } }

/-- A write of HOST_Pp_HB, or of offset 0x40 of slice `n`'s page (R747). -/
def State.heartbeatWrite (s : State) (via : Via) (n : Nat) : State :=
  match via with
  | .pf0 p => if p = n then s.heartbeat p else s
  | .page m p pasid =>
    if s.hostLost p then s.count (Ctr.HOST_P_DB_DROP p)
    else if !s.pasidOk m pasid then s.urRefuse p
    else if s.hasSlice m then s.heartbeat p else s
  | _ => s

/-! ### Rows -/

/-- BAR2_ACCESS (R729). -/
def execBar2Access (port off size : Nat) (wr : Option (List Byte)) (ep : Bool) (s : State) : Host.Outcome State Fault Refusal :=
  .next (s.bar2Access port off size wr ep)

/-- COPY_QUEUE_ENABLE (R732): `k` is the queue. -/
def execCopyQueueEnable (via : Via) (n k : Nat) (v : Word) (s : State) : Host.Outcome State Fault Refusal :=
  .next (if k < 8 then s.gated via n (fun s => s.copyCfgWrite via n k v) else s)

/-- COPY_TAIL_WRITE (R734). -/
def execCopyTailWrite (via : Via) (n k : Nat) (v : Word) (s : State) : Host.Outcome State Fault Refusal :=
  .next (if k < 8 then s.gated via n (fun s => s.copyTailWrite via n k v) else s)

/-- COPY_CQ_HEAD_WRITE (R734). -/
def execCopyCqHeadWrite (via : Via) (n k : Nat) (v : Word) (s : State) : Host.Outcome State Fault Refusal :=
  .next (if k < 8 then s.gated via n (fun s => (s.wr (Reg.PAGE_CPY_CQ_HEAD n k) (v &&& 0xFFFF)).copyRecords n k) else s)

/-- COPY_START (R737). -/
def execCopyStart (n k : Nat) (desc : List Byte) (s : State) : Host.Outcome State Fault Refusal := .next (s.copyStart n k desc)

/-- COPY_COMPLETE (R735). -/
def execCopyComplete (n k : Nat) (data : List HostChunk) (s : State) : Host.Outcome State Fault Refusal :=
  .next (s.copyFinish n k data)

/-- NOTIFY_ARM (R739). -/
def execNotifyArm (via : Via) (n k : Nat) (v : Word) (s : State) : Host.Outcome State Fault Refusal :=
  .next (if k < 256 then s.gated via n (fun s => s.notifyWrite via n k v) else s)

/-- HEARTBEAT (R747). -/
def execHeartbeat (via : Via) (n : Nat) (v : Word) (s : State) : Host.Outcome State Fault Refusal :=
  .next (let _ := v; s.heartbeatWrite via n)

end Sys2Proof.Machine
end

