-- ==== Sys2Proof/Machine/Nvme.lean ====
section
/-! DEFINITION. The storage function (R757 to R773): controllers, their queues and completions, and the namespaces with
their stage slots. -/

namespace Sys2Proof.Machine

/-! ### Tables -/

def State.ctl (s : State) (p : Nat) : NvmeCtl := fetch {} s.nvme p

def State.setCtl (s : State) (p : Nat) (c : NvmeCtl) : State := { s with nvme := store {} s.nvme p c }

def State.space (s : State) (n j : Nat) : Option Namespace := fetch none s.spaces (8 * n + j)

def State.setSpace (s : State) (n j : Nat) (x : Namespace) : State := { s with spaces := store none s.spaces (8 * n + j) (some x) }

/-- The slice of I/O queue `q` (R758). -/
def queueSlice (q : Nat) : Nat := (q - 1) / 64

/-- Is `q` an I/O queue ID of a slice that exists (R757, R758)? -/
def State.queueIdOk (s : State) (q : Nat) : Bool := 1 ≤ q && q ≤ 64 * s.sliceCount

/-- The controller serves commands: enabled and ready, its host not lost. -/
def State.nvmeUp (s : State) (p : Nat) : Bool := (s.ctl p).rdy && !s.hostLost p && p < 2

/-- Some namespace command of port `p` is in progress. -/
def State.ioBusy (s : State) (p : Nat) : Bool :=
  s.spaces.any (fun e => e.2.any (fun x => x.cmds.any (fun c => c.port = p && !c.quiet)))

/-! ### Completions (R757) -/

/-- Writes a completion entry into its queue (NVM Express Base 2.0). -/
def State.cqePut (s : State) (p : Nat) (e : NvmeCqe) : State :=
  let c := s.ctl p
  match c.cqs.find? (fun q => q.id = e.cq) with
  | none => s
  | some q =>
    let sqHead := ((c.sqs.find? (fun x => x.id = e.sq)).map (fun x => x.head)).getD 0
    let phase := if q.tail / q.size % 2 = 0 then 1 else 0
    let bs := record [(4, e.dw0), (4, 0), (2, sqHead), (2, e.sq), (2, e.cid), (2, phase + 2 * e.status)]
    let s := s.setCtl p { c with cqs := c.cqs.map (fun x => if x.id = q.id then ({ q with tail := q.tail + 1 } : NvmeCq) else x) }
    let pasid := if q.id = 0 then none else s.dmaPasid p 2 (queueSlice q.id)
    let s := s.emit (.hostWrite p pasid (q.base + 16 * (q.tail % q.size)) bs (List.replicate 2 false))
    if q.ien then s.msix p 2 q.vec else s

/-- Room for one entry more in completion queue `q`. -/
def NvmeCq.room (q : NvmeCq) : Bool := q.tail - q.head + 1 < q.size

/-- Posts held completions, oldest first, while their queues have room. -/
def State.cqeFlush (p : Nat) : List NvmeCqe → State → State
  | [], s => s
  | e :: es, s =>
    if (s.ctl p).cqs.any (fun q => q.id = e.cq && q.room) then State.cqeFlush p es (s.cqePut p e)
    else State.cqeFlush p es (s.setCtl p { s.ctl p with held := (s.ctl p).held ++ [e] })

/-- Posts what can be posted. -/
def State.cqeRetry (s : State) (p : Nat) : State := State.cqeFlush p (s.ctl p).held (s.setCtl p { s.ctl p with held := [] })

/-- A command of queue `q` completes with `st` (code type * 256 + code) and dword 0. -/
def State.nvmePost (s : State) (p q cid st dw0 nsid : Nat) : State :=
  let c := s.ctl p
  match c.sqs.find? (fun x => x.id = q) with
  | none => s
  | some x =>
    let errs := if st = 0 then c.errs else ((q, cid, st, nsid) :: c.errs).take 64
    let s := s.setCtl p { c with held := c.held ++ [⟨q, x.cq, cid, st, dw0⟩], errs, errCount := c.errCount + bit (st ≠ 0) }
    (s.count Ctr.HOST_NVME_CMD).cqeRetry p

/-- Reports an asynchronous event while a request for one is outstanding. -/
def State.eventReport (s : State) (p : Nat) : State :=
  let c := s.ctl p
  match c.aers, c.events with
  | cid :: as, ev :: es => (s.setCtl p { c with aers := as, events := es }).nvmePost p 0 cid 0 ev 0
  | _, _ => s

/-- An asynchronous event of controller `p`: type, information and log page; a notice is posted when the Asynchronous
Event Configuration enables it. -/
def State.nvmeEvent (s : State) (p type info log : Nat) : State :=
  let c := s.ctl p
  if !c.rdy ∨ (type = 2 ∧ !bitOf (fetch 0 c.features 0x0B) (8 + info)) then s
  else (s.setCtl p { c with events := c.events ++ [type + 256 * info + 65536 * log] }).eventReport p

/-- Status `st` of the storage function is recorded for namespace `j` of slice `n` (R766, R769, R773). -/
def State.storageStatus (s : State) (n j st : Nat) : State := (s.event Reg.HOST_EVT 5).reportStatus n st (8 * n + j + 1)

/-! ### Stage slots (R762 to R768) -/

def Namespace.slotOf (x : Namespace) (u : Nat) : NsSlot := fetch {} x.slot (u % x.slots)

/-- Is unit `u` resident? -/
def Namespace.resident (x : Namespace) (u : Nat) : Bool := (x.slotOf u).unit = some u

/-- May unit `u` be put into its slot: the slot holds no other dirty unit (R763)? -/
def Namespace.slotFree (x : Namespace) (u : Nat) : Bool := x.resident u || !(x.slotOf u).dirty

/-- Address of byte `o` of unit `u` in stage. -/
def Namespace.stageAt (x : Namespace) (u o : Nat) : Nat := x.stage + 65536 * (u % x.slots) + o

/-- Unit `u` is written: RESIDENT and DIRTY (R764, R765). -/
def Namespace.wrote (x : Namespace) (u : Nat) : Namespace :=
  let t := x.slotOf u
  { x with slot := store {} x.slot (u % x.slots) { t with unit := some u, dirty := true, again := t.draining } }

/-- A command needs unit `u`: it is read from the depot, once its slot has no dirty unit (R763). -/
def State.unitWant (s : State) (n j u : Nat) : State :=
  match s.space n j with
  | none => s
  | some x =>
    if x.fetching.contains u ∨ !x.slotFree u then s
    else (s.setSpace n j { x with fetching := x.fetching ++ [u] }).emit (.depotRead x.conn x.key (x.off + 65536 * u) 65536)

/-- The first piece of command `c`, if it can be done now: the state and the command without it (R763 to R768). -/
def State.pieceDo (s : State) (n j : Nat) (c : NvmeCmd) : State × NvmeCmd × Bool :=
  match s.space n j, c.parts with
  | some x, (u, o, k) :: rest =>
    if c.op = 2 ∨ c.op = 0x81 then
      if x.resident u then
        (s, { c with parts := rest, data := if c.op = 2 then c.data ++ s.readMarked (x.stageAt u o) k else c.data }, true)
      else (s.unitWant n j u, c, false)
    else if x.resident u ∨ (o = 0 ∧ k = 65536 ∧ x.slotFree u) then
      let bs := if c.op = 1 then c.data.take k else List.replicate k (0, false)
      ((s.setSpace n j (x.wrote u)).writeMarked (x.stageAt u o) bs, { c with parts := rest, data := c.data.drop k }, true)
    else if o = 0 ∧ k = 65536 then (s, c, false)
    else (s.unitWant n j u, c, false)
  | _, _ => (s, c, false)

/-- As many pieces as can be done. -/
def State.piecesDo (n j : Nat) : Nat → State → NvmeCmd → State × NvmeCmd
  | 0, s, c => (s, c)
  | f + 1, s, c =>
    match s.pieceDo n j c with
    | (s, c, true) => State.piecesDo n j f s c
    | (s, c, false) => (s, c)

/-- Is a command done? -/
def NvmeCmd.done (c : NvmeCmd) : Bool := c.parts = [] && c.flush = []

/-- A command of namespace `j` of slice `n` completes: data of a Read go out, with EP where poisoned (R755, R773). -/
def State.cmdEnd (s : State) (n j : Nat) (c : NvmeCmd) : State :=
  if c.quiet then s
  else
    let bad := c.data.any (fun b => b.2)
    let st := if c.status ≠ 0 then c.status else if c.op = 2 ∧ bad then 0x281 else 0
    let s := if c.op = 2 ∧ c.status = 0 then
        (s.emit (.nvmeData c.port c.sq c.cid (c.data.map (fun b => b.1)) (marksOf c.data))).poisonSent c.port (poisonTlps 0 c.data)
      else s
    let s := s.nvmePost c.port c.sq c.cid st 0 (8 * n + j + 1)
    if s.ioBusy c.port then s else s.setCtl c.port { s.ctl c.port with idleAt := s.now }

/-- Goes on with each command of a list, in order; commands that are done complete. -/
def State.cmdsGo (n j : Nat) : List NvmeCmd → State → State
  | [], s => s
  | c :: cs, s =>
    let r := State.piecesDo n j c.parts.length s c
    let s := match r.1.space n j with
      | some x => r.1.setSpace n j { x with cmds := if r.2.done then x.cmds else x.cmds ++ [r.2] }
      | none => r.1
    State.cmdsGo n j cs (if r.2.done then s.cmdEnd n j r.2 else s)

/-- NS_DETACH of namespace `j` ends once its commands are complete and nothing is dirty (R769). -/
def State.detachCheck (s : State) (n j : Nat) : State :=
  match s.space n j with
  | some x =>
    if x.leaving ∧ x.cmds = [] ∧ !x.slot.any (fun e => e.2.dirty) then
      let s := ({ s with spaces := store none s.spaces (8 * n + j) none }.wf (Reg.HOST_S_NSMAP n) j j 0).sliceCmdEnd n (if x.lost then 0x0903 else 0)
      if x.lost then s.storageStatus n j 0x0903 else s
    else s
  | none => s

/-- One pass over the commands of a namespace. -/
def State.spacePass (s : State) (n j : Nat) : State :=
  match s.space n j with
  | some x => State.cmdsGo n j x.cmds (s.setSpace n j { x with cmds := [] })
  | none => s

/-- The commands of a namespace go on as far as they can. -/
def State.spaceGoN (n j : Nat) : Nat → State → State
  | 0, s => s.detachCheck n j
  | f + 1, s => State.spaceGoN n j f (s.spacePass n j)

def State.spaceGo (s : State) (n j : Nat) : State :=
  State.spaceGoN n j (((s.space n j).map (fun x => x.cmds.length)).getD 0 + 1) s

/-- A unit has been read from the depot (R763, R773); `ok`: the read succeeded. -/
def State.unitFetched (s : State) (n j u : Nat) (data : List HostChunk) (ok : Bool) : State :=
  match s.space n j with
  | none => s
  | some x =>
    if !x.fetching.contains u ∨ (ok ∧ !chunksCover 0 65536 data) then s
    else
      let x := { x with fetching := x.fetching.filter (fun v => v ≠ u) }
      if !ok then
        let hit (c : NvmeCmd) : Bool := (c.parts.head?).any (fun q => q.1 = u)
        let x := { x with cmds := x.cmds.map (fun c => if hit c then ({ c with parts := [], status := 0x281 } : NvmeCmd) else c) }
        ((s.setSpace n j x).storageStatus n j 0x0902).spaceGo n j
      else
        let s := s.count Ctr.HOST_DEPOT_FETCH
        if x.resident u ∨ (x.slotOf u).dirty then (s.setSpace n j x).spaceGo n j
        else
          let bs := data.flatMap (fun c => c.bytes.map (fun b => (b, c.ep)))
          let s := s.setSpace n j { x with slot := store {} x.slot (u % x.slots) { unit := some u } }
          (s.writeMarked (x.stageAt u 0) bs).spaceGo n j

/-- The lowest dirty slot that is not draining begins its drain (R765). -/
def State.unitDrain (s : State) (n j : Nat) : State :=
  match s.space n j with
  | none => s
  | some x =>
    match x.slot.find? (fun e => e.2.dirty && !e.2.draining) with
    | some (k, t) =>
      let u := t.unit.getD 0
      let bs := s.readMarked (x.stage + 65536 * k) 65536
      (s.setSpace n j { x with slot := store {} x.slot k { t with draining := true, again := false } }).emit
        (.depotWrite x.conn x.key (x.off + 65536 * u) (bs.map (fun b => b.1)) (marksOf bs))
    | none => s

/-- The drain of slot `k` ends (R765, R766, R769). -/
def State.unitDrained (s : State) (n j k : Nat) (ok : Bool) : State :=
  match s.space n j with
  | none => s
  | some x =>
    let t := fetch {} x.slot k
    if !t.draining then s
    else if ok then
      let cmds := x.cmds.map (fun c => ({ c with flush := c.flush.filterMap (fun f =>
        if f.1 = k then (if f.2 then some (k, false) else none) else some f) } : NvmeCmd))
      let s := s.setSpace n j { x with cmds, slot := store {} x.slot k { t with dirty := t.again, draining := false, again := false } }
      (s.count Ctr.HOST_DEPOT_DRAIN).spaceGo n j
    else
      let cmds := x.cmds.map (fun c => if c.flush.any (fun f => f.1 = k) then ({ c with flush := [], status := 0x280 } : NvmeCmd) else c)
      let t' : NsSlot := if x.leaving then {} else { t with draining := false, again := false }
      let s := s.setSpace n j { x with cmds, slot := store {} x.slot k t', lost := x.lost || x.leaving }
      (s.storageStatus n j 0x0901).spaceGo n j

/-! ### Arbitration (R770) -/

/-- The next of the ascending IDs after `last`, round and round. -/
def rrNext (ids : List Nat) (last : Nat) : Option Nat := match ids.find? (fun q => last < q) with
  | some q => some q
  | none => ids.head?

/-- May queue `q` of port `p` be served now: not while its slice is frozen (R741, R773)? -/
def State.queueServed (s : State) (q : Nat) : Bool :=
  q = 0 || s.sliceState (queueSlice q) = 0 || s.sliceState (queueSlice q) = 6

/-- Round robin over the queues `ids` of class `k`, each served at most the Arbitration Burst in a turn. -/
def NvmeCtl.rr (c : NvmeCtl) (k : Nat) (ids : List Nat) : Option (Nat × NvmeCtl) :=
  let ab := fetch 0 c.features 1 % 8
  let last := fetch 0 c.last k
  let run := fetch 0 c.run k
  if ids.contains last && (ab = 7 || run < 2 ^ ab) then some (last, { c with run := store 0 c.run k (run + 1) })
  else (rrNext ids last).map (fun q => (q, { c with last := store 0 c.last k q, run := store 0 c.run k 1 }))

/-- The weight of class 1 high, 2 medium or 3 low: commands in a turn. -/
def NvmeCtl.weight (c : NvmeCtl) (k : Nat) : Nat :=
  let f := fetch 0 c.features 1
  1 + (if k = 1 then bitsOf f 31 24 else if k = 2 then bitsOf f 23 16 else bitsOf f 15 8)

/-- The queue that the controller serves next, and its arbitration state after that. -/
def State.nvmePick (s : State) (p : Nat) : Option (Nat × NvmeCtl) :=
  let c := s.ctl p
  let ready := c.sqs.filter (fun q => q.entries ≠ [] && s.queueServed q.id)
  let ids (k : Nat) : List Nat := (ready.filter (fun q => q.id ≠ 0 && q.prio = k)).map (fun q => q.id)
  if bitsOf c.cc 13 11 ≠ 1 then c.rr 0 (ready.map (fun q => q.id))
  else if ready.any (fun q => q.id = 0) then some (0, c)
  else if ids 0 ≠ [] then c.rr 0 (ids 0)
  else if 0 < c.left ∧ ids c.cls ≠ [] then ({ c with left := c.left - 1 } : NvmeCtl).rr c.cls (ids c.cls)
  else
    match [c.cls % 3 + 1, (c.cls + 1) % 3 + 1, (c.cls + 2) % 3 + 1].find? (fun k => ids k ≠ []) with
    | some k => ({ c with cls := k, left := c.weight k - 1 } : NvmeCtl).rr k (ids k)
    | none => none

/-! ### Taking commands -/

/-- Opcodes of the admin queue and of I/O queues (R757). -/
def opcodeKnown (q opc : Nat) : Bool :=
  if q = 0 then [0x00, 0x01, 0x02, 0x04, 0x05, 0x06, 0x08, 0x09, 0x0A, 0x0C, 0x14].contains opc
  else [0x00, 0x01, 0x02, 0x08, 0x09, 0x81].contains opc

/-- The controller takes the command that arbitration picks: its queue and entry. -/
def State.nvmePop (s : State) (p : Nat) : Option (State × Nat × NvmeEntry) :=
  if !s.nvmeUp p then none
  else
    match s.nvmePick p with
    | none => none
    | some (q, c) =>
      match c.sqs.find? (fun x => x.id = q) with
      | none => none
      | some x =>
        match x.entries with
        | [] => none
        | e :: es =>
          let x' : NvmeSq := { x with entries := es, head := (x.head + 1) % x.size }
          some (s.setCtl p { c with sqs := c.sqs.map (fun y => if y.id = q then x' else y) }, q, e)

/-- Commands at the front with an opcode outside the subset, or with SGLs, complete with an error (R757, R773). -/
def State.nvmeSkip (p : Nat) : Nat → State → State
  | 0, s => s
  | f + 1, s =>
    match s.nvmePop p with
    | some (s', q, e) =>
      if !opcodeKnown q e.opc then State.nvmeSkip p f (s'.nvmePost p q e.cid 0x0001 0 e.nsid)
      else if e.psdt ≠ 0 then State.nvmeSkip p f (s'.nvmePost p q e.cid 0x0002 0 e.nsid)
      else s
    | none => s

/-- Entries that wait in the queues of port `p`. -/
def State.nvmeWaiting (s : State) (p : Nat) : Nat := ((s.ctl p).sqs.map (fun q => q.entries.length)).sum

/-- The controller takes its next command when that is an admin command of opcode `opc`, and `k` says what comes of it. -/
def State.adminTake (s : State) (p opc : Nat) (k : State → NvmeEntry → State) : State :=
  match s.nvmePop p with
  | some (s', q, e) => if q = 0 ∧ e.opc = opc then (let t := k s' e; State.nvmeSkip p (t.nvmeWaiting p) t) else s
  | none => s

/-- The same for an I/O command. -/
def State.ioTake (s : State) (p opc : Nat) (k : State → Nat → NvmeEntry → State) : State :=
  match s.nvmePop p with
  | some (s', q, e) => if q ≠ 0 ∧ e.opc = opc then (let t := k s' q e; State.nvmeSkip p (t.nvmeWaiting p) t) else s
  | none => s

/-! ### Namespace commands (R759, R763 to R768, R773) -/

/-- A command on queue `q` names its namespace: `k` goes on with its index, or it ends with an error. -/
def State.withSpace (s : State) (p q : Nat) (e : NvmeEntry) (k : State → Nat → Nat → Namespace → State) : State :=
  let n := queueSlice q
  let fail (st : Nat) : State := s.nvmePost p q e.cid st 0 e.nsid
  if e.nsid ≤ 8 * n ∨ 8 * n + 8 < e.nsid then fail 0x000B
  else if s.sliceState n = 6 then fail 0x0082
  else
    match s.space n (e.nsid - 8 * n - 1) with
    | some x => if x.leaving then fail 0x000B else k s n (e.nsid - 8 * n - 1) x
    | none => fail 0x000B

/-- The pieces of `len` bytes from byte `b` of a namespace, one for each unit. -/
def unitParts (b len : Nat) : List (Nat × Nat × Nat) :=
  if len = 0 then [] else
  (List.range' (b / 65536) ((b + len - 1) / 65536 + 1 - b / 65536)).map (fun u =>
    let lo := max b (65536 * u)
    let hi := min (b + len) (65536 * u + 65536)
    (u, lo - 65536 * u, hi - lo))

/-- A namespace command starts. -/
def State.cmdStart (s : State) (n j : Nat) (c : NvmeCmd) : State :=
  match s.space n j with
  | some x => (s.setSpace n j { x with cmds := x.cmds ++ [c] }).spaceGo n j
  | none => s

def entrySlba (e : NvmeEntry) : Nat := e.cdw10 + 2 ^ 32 * e.cdw11
def entryBlocks (e : NvmeEntry) : Nat := e.cdw12 % 65536 + 1

/-- A command over the range that SLBA and NLB name: `write` for one that writes, `data` for its bytes. -/
def State.rangeCmd (s : State) (p q : Nat) (e : NvmeEntry) (write : Bool) (data : List (Byte × Bool)) : State :=
  s.withSpace p q e (fun s n j x =>
    let fail (st : Nat) : State := s.nvmePost p q e.cid st 0 e.nsid
    if (e.opc = 1 ∨ e.opc = 2) ∧ 256 < entryBlocks e then fail 0x0002
    else if x.units * 16 < entrySlba e + entryBlocks e then fail 0x0080
    else if write ∧ x.ro then fail 0x0282
    else s.cmdStart n j { port := p, sq := q, cid := e.cid, op := e.opc, parts := unitParts (4096 * entrySlba e) (4096 * entryBlocks e), data })

/-- Dataset Management of the ranges (SLBA, blocks) that its list in host memory holds (R767). -/
def State.deallocate (s : State) (p q : Nat) (e : NvmeEntry) (ranges : List (Nat × Nat)) : State :=
  s.withSpace p q e (fun s n j x =>
    let fail (st : Nat) : State := s.nvmePost p q e.cid st 0 e.nsid
    if !bitOf e.cdw11 2 then fail 0
    else if ranges.any (fun r => x.units * 16 < r.1 + r.2) then fail 0x0080
    else if x.ro then fail 0x0282
    else s.cmdStart n j { port := p, sq := q, cid := e.cid, op := e.opc,
                          parts := ranges.flatMap (fun r => unitParts (4096 * r.1) (4096 * r.2)) })

/-- Flush (R766): it waits for every unit that is dirty now. -/
def State.flushCmd (s : State) (p q : Nat) (e : NvmeEntry) : State :=
  s.withSpace p q e (fun s n j x =>
    s.cmdStart n j { port := p, sq := q, cid := e.cid, op := 0,
                     flush := (x.slot.filter (fun t => t.2.dirty)).map (fun t => (t.1, t.2.again)) })

/-- The entry that arbitration would take next, with its queue. -/
def State.nvmeNext (s : State) (p : Nat) : Option (Nat × NvmeEntry) := (s.nvmePop p).map (fun r => r.2)

/-- A Write whose data the host has given in full (R754, R764). -/
def State.writeCmd (s : State) (p : Nat) (data : List HostChunk) : State :=
  match s.nvmeNext p with
  | none => s
  | some (_, e) =>
    if !chunksCover 0 (4096 * entryBlocks e) data then s
    else
      s.ioTake p 1 (fun s q e =>
        let k := (data.filter (fun c => c.ep)).length
        let s := if k = 0 then s else ((s.countN (Ctr.HOST_P_POISON_RX p) k).event Reg.HOST_EVT 4).aerError p 2 13 true
        s.rangeCmd p q e true (data.flatMap (fun c => c.bytes.map (fun b => (b, c.ep)))))

/-! ### Resets and loss -/

/-- A self-test ends with a result (R771): 0 passed, 1 aborted by command, 2 by reset, 7 failed in a segment. -/
def State.testEnd (s : State) (p result seg : Nat) : State :=
  let c := s.ctl p
  match c.test with
  | some t => s.setCtl p { c with test := none, tests := ((t.code, result, seg, t.nsid) :: c.tests).take 20 }
  | none => s

/-- The commands in progress of port `p` that `gone` names go; the others are answered no more (R749). -/
def State.cmdsQuiet (s : State) (p : Nat) (gone : NvmeCmd → Bool) : State :=
  let hush (c : NvmeCmd) : NvmeCmd := if c.port = p then { c with quiet := true } else c
  let go (x : Namespace) : Namespace := { x with cmds := (x.cmds.filter (fun c => !(c.port = p && gone c))).map hush }
  { s with spaces := s.spaces.map (fun e => (e.1, e.2.map go)) }

/-- A controller reset (R752, R757): its queues are deleted, and its commands are answered no more. -/
def State.ctlReset (s : State) (p : Nat) : State :=
  let s := (s.testEnd p 2 0).cmdsQuiet p (fun c => c.op = 2)
  let c := s.ctl p
  s.setCtl p { aqa := c.aqa, asq := c.asq, acq := c.acq, tests := c.tests, errs := c.errs, errCount := c.errCount }

/-- The host of port `p` is lost (R749): reads go, and other commands go on unanswered. -/
def State.ctlLost (s : State) (p : Nat) : State :=
  let s := s.cmdsQuiet p (fun c => c.op = 2)
  s.setCtl p { s.ctl p with held := [] }

/-- A write of CC (R757). -/
def State.ccWrite (s : State) (p v : Nat) : State :=
  let c := s.ctl p
  if 2 ≤ p then s
  else if s.hostLost p then s.count (Ctr.HOST_P_DB_DROP p)
  else if !bitOf v 0 then (s.ctlReset p).setCtl p { (s.ctlReset p).ctl p with cc := v }
  else if bitOf c.cc 0 then s.setCtl p { c with cc := v, shst := if bitsOf v 15 14 ≠ 0 then 2 else c.shst }
  else if bitsOf v 6 4 = 0 ∧ bitsOf v 10 7 = 0 ∧ bitsOf v 13 11 ≤ 1 then
    s.setCtl p { c with cc := v, rdy := true, sqs := [{ id := 0, size := bitsOf c.aqa 11 0 + 1 }],
                        cqs := [{ id := 0, size := bitsOf c.aqa 27 16 + 1, base := c.acq, ien := true, vec := 0 }] }
  else s.setCtl p { c with cc := v }

/-! ### Queues (R757, R758) -/

/-- A submission queue doorbell (R770, R772): the entries posted are read from host memory; arriving I/O suspends a test. -/
def State.sqDoorbell (s : State) (p q tail : Nat) (entries : List NvmeEntry) : State :=
  let c := s.ctl p
  if p < 2 ∧ s.hostLost p then s.count (Ctr.HOST_P_DB_DROP p)
  else if !s.nvmeUp p then s
  else
    match c.sqs.find? (fun x => x.id = q) with
    | none => s.nvmeEvent p 0 0 1
    | some x =>
      if x.size ≤ tail then s.nvmeEvent p 0 1 1
      else if (tail + x.size - x.tail) % x.size ≠ entries.length then s
      else
        let x' : NvmeSq := { x with tail, entries := x.entries ++ entries }
        let test := if q ≠ 0 ∧ entries ≠ [] then c.test.map (fun t => ({ t with suspended := true } : SelfTest)) else c.test
        let s := s.setCtl p { c with test, sqs := c.sqs.map (fun y => if y.id = q then x' else y) }
        State.nvmeSkip p (s.nvmeWaiting p) s

/-- A completion queue doorbell: entries are freed. -/
def State.cqDoorbell (s : State) (p q head : Nat) : State :=
  let c := s.ctl p
  if p < 2 ∧ s.hostLost p then s.count (Ctr.HOST_P_DB_DROP p)
  else if !s.nvmeUp p then s
  else
    match c.cqs.find? (fun x => x.id = q) with
    | none => s.nvmeEvent p 0 0 1
    | some x =>
      let freed := (head + x.size - x.head % x.size) % x.size
      if x.size ≤ head ∨ x.tail - x.head < freed then s.nvmeEvent p 0 1 1
      else
        let x' : NvmeCq := { x with head := x.head + freed }
        (s.setCtl p { c with cqs := c.cqs.map (fun y => if y.id = q then x' else y) }).cqeRetry p

/-- Create I/O Completion Queue. -/
def State.createCq (s : State) (p : Nat) (e : NvmeEntry) : State :=
  let q := e.cdw10 % 65536
  let size := bitsOf e.cdw10 31 16 + 1
  let fail (st : Nat) : State := s.nvmePost p 0 e.cid st 0 0
  if !s.queueIdOk q ∨ (List.range 2).any (fun i => (s.ctl i).cqs.any (fun x => x.id = q)) then fail 0x101
  else if size < 2 ∨ 4096 < size then fail 0x102
  else if !bitOf e.cdw11 0 then fail 0x0002
  else if 257 ≤ bitsOf e.cdw11 31 16 then fail 0x108
  else if e.prp1 % 4096 ≠ 0 then fail 0x0013
  else
    let c := s.ctl p
    (s.setCtl p { c with cqs := c.cqs ++ [{ id := q, size, base := e.prp1, ien := bitOf e.cdw11 1, vec := bitsOf e.cdw11 31 16 }] }).nvmePost
      p 0 e.cid 0 0 0

/-- Create I/O Submission Queue. -/
def State.createSq (s : State) (p : Nat) (e : NvmeEntry) : State :=
  let q := e.cdw10 % 65536
  let size := bitsOf e.cdw10 31 16 + 1
  let cq := bitsOf e.cdw11 31 16
  let fail (st : Nat) : State := s.nvmePost p 0 e.cid st 0 0
  if !s.queueIdOk q ∨ (List.range 2).any (fun i => (s.ctl i).sqs.any (fun x => x.id = q)) then fail 0x101
  else if size < 2 ∨ 4096 < size then fail 0x102
  else if cq = 0 then fail 0x101
  else if !(s.ctl p).cqs.any (fun x => x.id = cq) ∨ queueSlice cq ≠ queueSlice q then fail 0x100
  else if !bitOf e.cdw11 0 then fail 0x0002
  else if e.prp1 % 4096 ≠ 0 then fail 0x0013
  else
    let c := s.ctl p
    let sqs := ((c.sqs.filter (fun x => x.id < q)) ++ [{ id := q, size, cq, prio := bitsOf e.cdw11 2 1 }]) ++ c.sqs.filter (fun x => q < x.id)
    (s.setCtl p { c with sqs }).nvmePost p 0 e.cid 0 0 0

/-- Delete I/O Submission Queue: its commands are answered no more. -/
def State.deleteSq (s : State) (p : Nat) (e : NvmeEntry) : State :=
  let q := e.cdw10 % 65536
  let c := s.ctl p
  if q = 0 ∨ !c.sqs.any (fun x => x.id = q) then s.nvmePost p 0 e.cid 0x101 0 0
  else
    let s := s.setCtl p { c with sqs := c.sqs.filter (fun x => x.id ≠ q) }
    let hush (y : NvmeCmd) : NvmeCmd := if y.port = p ∧ y.sq = q then { y with quiet := true } else y
    let go (x : Namespace) : Namespace := { x with cmds := x.cmds.map hush }
    let s := { s with spaces := s.spaces.map (fun (t : Nat × Option Namespace) => (t.1, t.2.map go)) }
    s.nvmePost p 0 e.cid 0 0 0

/-- Delete I/O Completion Queue: none while a submission queue names it. -/
def State.deleteCq (s : State) (p : Nat) (e : NvmeEntry) : State :=
  let q := e.cdw10 % 65536
  let c := s.ctl p
  if q = 0 ∨ !c.cqs.any (fun x => x.id = q) then s.nvmePost p 0 e.cid 0x101 0 0
  else if c.sqs.any (fun x => x.cq = q) then s.nvmePost p 0 e.cid 0x10C 0 0
  else (s.setCtl p { c with cqs := c.cqs.filter (fun x => x.id ≠ q), held := c.held.filter (fun h => h.cq ≠ q) }).nvmePost p 0 e.cid 0 0 0

/-! ### Rows -/

/-- NVME_CC_EN_WRITE (R757). -/
def execNvmeCcEnWrite (port : Nat) (v : Word) (s : State) : Host.Outcome State Fault Refusal := .next (s.ccWrite port v.toNat)

/-- NVME_SQ_DOORBELL (R770). -/
def execNvmeSqDoorbell (port q tail : Nat) (entries : List NvmeEntry) (s : State) : Host.Outcome State Fault Refusal :=
  .next (s.sqDoorbell port q tail entries)

/-- NVME_CQ_DOORBELL (R757). -/
def execNvmeCqDoorbell (port q head : Nat) (s : State) : Host.Outcome State Fault Refusal := .next (s.cqDoorbell port q head)

/-- NVME_CREATE_IO_SQ (R758). -/
def execNvmeCreateIoSq (port : Nat) (s : State) : Host.Outcome State Fault Refusal :=
  .next (s.adminTake port 0x01 (fun s e => s.createSq port e))

/-- NVME_CREATE_IO_CQ (R758). -/
def execNvmeCreateIoCq (port : Nat) (s : State) : Host.Outcome State Fault Refusal :=
  .next (s.adminTake port 0x05 (fun s e => s.createCq port e))

/-- NVME_DELETE_IO_SQ (R757). -/
def execNvmeDeleteIoSq (port : Nat) (s : State) : Host.Outcome State Fault Refusal :=
  .next (s.adminTake port 0x00 (fun s e => s.deleteSq port e))

/-- NVME_DELETE_IO_CQ (R757). -/
def execNvmeDeleteIoCq (port : Nat) (s : State) : Host.Outcome State Fault Refusal :=
  .next (s.adminTake port 0x04 (fun s e => s.deleteCq port e))

/-- NVME_READ (R763). -/
def execNvmeRead (port : Nat) (s : State) : Host.Outcome State Fault Refusal :=
  .next (s.ioTake port 2 (fun s q e => s.rangeCmd port q e false []))

/-- NVME_WRITE (R764). -/
def execNvmeWrite (port : Nat) (data : List HostChunk) (s : State) : Host.Outcome State Fault Refusal := .next (s.writeCmd port data)

/-- NVME_FLUSH (R766). -/
def execNvmeFlush (port : Nat) (s : State) : Host.Outcome State Fault Refusal :=
  .next (s.ioTake port 0 (fun s q e => s.flushCmd port q e))

/-- NVME_WRITE_ZEROES (R767). -/
def execNvmeWriteZeroes (port : Nat) (s : State) : Host.Outcome State Fault Refusal :=
  .next (s.ioTake port 8 (fun s q e => s.rangeCmd port q e true []))

/-- NVME_DEALLOCATE (R767). -/
def execNvmeDeallocate (port : Nat) (ranges : List (Nat × Nat)) (s : State) : Host.Outcome State Fault Refusal :=
  .next (s.ioTake port 9 (fun s q e => if ranges.length = e.cdw10 % 256 + 1 then s.deallocate port q e ranges
    else s.nvmePost port q e.cid 0x0004 0 e.nsid))

/-- NVME_LOAD (R768). -/
def execNvmeLoad (port : Nat) (s : State) : Host.Outcome State Fault Refusal :=
  .next (s.ioTake port 0x81 (fun s q e => s.rangeCmd port q e false []))

/-- NS_UNIT_FETCH_DONE (R763). -/
def execNsUnitFetchDone (n j u : Nat) (data : List HostChunk) (ok : Bool) (s : State) : Host.Outcome State Fault Refusal :=
  .next (s.unitFetched n j u data ok)

/-- NS_UNIT_DRAIN (R765). -/
def execNsUnitDrain (n j : Nat) (s : State) : Host.Outcome State Fault Refusal := .next (s.unitDrain n j)

/-- NS_UNIT_DRAIN_DONE (R765). -/
def execNsUnitDrainDone (n j slot : Nat) (ok : Bool) (s : State) : Host.Outcome State Fault Refusal :=
  .next (s.unitDrained n j slot ok)

end Sys2Proof.Machine
end

