-- ==== Sys2Proof/Machine/Rma.lean ====
section
/-! DEFINITION. RMA connections at work (R639 to R685): work queues, packets, windows and timers at the initiator, and
placement and release at the target. -/

namespace Sys2Proof.Machine

/-! ### Tables -/

def State.conn (s : State) (cid : Nat) : RmaConn := fetch {} s.rma.conns cid

def State.setConn (s : State) (cid : Nat) (c : RmaConn) : State := { s with rma := { s.rma with conns := store {} s.rma.conns cid c } }

def State.wq (s : State) (w : Nat) : Option WorkQueue := fetch none s.rma.wqs w

def State.setWq (s : State) (w : Nat) (q : Option WorkQueue) : State := { s with rma := { s.rma with wqs := store none s.rma.wqs w q } }

def State.region (s : State) (i : Nat) : Option RmaRegion := fetch none s.rma.regions i

/-- Does index `i` of a resource of `total` per part lie in slice `n`'s share (R636)? -/
def State.inShare (s : State) (n total i : Nat) : Bool := n * s.shareSize total ≤ i && i < (n + 1) * s.shareSize total

/-- The slice in whose share index `i` lies. -/
def State.shareOwner (s : State) (total i : Nat) : Nat := i / s.shareSize total

/-- The slice of a connection. -/
def State.connSlice (s : State) (cid : Nat) : Nat := s.shareOwner 262144 cid

/-! ### Work queues (R653 to R662) -/

/-- Request `idx` of queue `w` has ended with `st`, having moved `bytes`. -/
def State.wqDone (s : State) (w idx st bytes : Nat) : State :=
  match s.wq w with
  | some q => s.setWq w (some { q with reqs := q.reqs.map (fun r =>
      if r.idx = idx ∧ r.status.isNone then ({ r with status := some st, bytes } : WqReq) else r) })
  | none => s

/-- The completion ring of queue `w` is full (R661). -/
def State.wqFull (s : State) (w : Nat) (q : WorkQueue) : Bool :=
  2 ^ q.cqLog2 ≤ aheadMod 16 (s.rf (Reg.RMA_WQ_CQ_HEAD w) 15 0) (s.rf (Reg.RMA_WQ_CQ_TAIL w) 15 0)

/-- Writes the completion record of the oldest request of queue `w`, when it has ended and the ring has room, and increments
its DONE_CTR (R659 to R662). -/
def State.wqRecord (s : State) (w : Nat) : State :=
  match s.wq w with
  | none => s
  | some q =>
    match q.reqs with
    | [] => s
    | r :: rest =>
      match r.status with
      | none => s
      | some st =>
        if s.wqFull w q then s
        else
          let t := s.rf (Reg.RMA_WQ_CQ_TAIL w) 15 0
          let phase := if t / 2 ^ q.cqLog2 % 2 = 0 then 1 else 0
          let s := s.writeB (q.cq + 16 * (t % 2 ^ q.cqLog2))
            (record [(2, r.idx), (2, st), (4, r.user), (4, r.bytes), (3, 0), (1, phase)])
          let s := s.wr (Reg.RMA_WQ_CQ_TAIL w) (BitVec.ofNat 32 ((t + 1) % 65536))
          let s := s.setWq w (some { q with reqs := rest })
          match r.doneCtr with
          | some c => s.ctrBump c
          | none => s

/-- Writes every record of queue `w` that can be written. -/
def State.wqFlush (w : Nat) : Nat → State → State
  | 0, s => s
  | f + 1, s => State.wqFlush w f (s.wqRecord w)

/-! ### Errors (R674, R678) -/

/-- Every request of connection `cid` that has not completed ends with 0x02D2, but for the oldest, which ends with `st`. -/
def State.rmaFlush (s : State) (cid st : Nat) : State :=
  let c := s.conn cid
  let s := ((List.range c.msgs.length).zip c.msgs).foldl (fun s (e : Nat × RmaMsg) =>
    s.wqDone e.2.wq e.2.idx (if e.1 = 0 then st else 0x02D2) 0) s
  s.setConn cid { s.conn cid with msgs := [], flight := [], waitSince := none }

/-- Connection `cid` enters ERROR with `st`; `cause`: its oldest request caused it (R678). -/
def State.rmaError (s : State) (cid st : Nat) (cause : Bool) : State :=
  let s := s.rmaFlush cid (if cause then st else 0x02D2)
  let s := s.setConn cid { s.conn cid with state := 2, err := st, held := [], sinceAck := 0 }
  ((s.count Ctr.RMA_CONN_ERR).event Reg.RMA_EVT 1).feedDepotLost cid

/-! ### Packets (R589, R663, R664) -/

/-- The VC of a connection's requests (R639). -/
def classVc (cls : Nat) : Nat := if cls = 1 then 4 else if cls = 2 then 7 else 2

/-- The Ethernet queue of a connection's frames (R709). -/
def classQueue (cls : Nat) : Nat := if cls = 2 then 1 else if cls = 1 then 6 else 4

/-- A packet to part `part`: opcode, VC, offset, ARGS, and its payload with poison marks. -/
def State.rmaPacket (s : State) (part opcode vc off dcid flags psn epoch rkey : Nat) (data : List (Byte × Bool)) : List Byte :=
  let k := data.length
  let poison := data.any (fun b => b.2)
  let mask := (List.range ((k + 7) / 8)).foldl (fun m i => if ((data.drop (8 * i)).take 8).any (fun b => b.2) then m + 2 ^ i else m) 0
  record [(8, part * 2 ^ 50 + off % 2 ^ 40), (2, s.partId), (1, 0), (1, opcode), (2, k), (1, vc + bit poison * 8),
    (1, s.rf Reg.SWT_CTL 5 0), (2, 0), (2, 0), (3, dcid + flags * 2 ^ 18), (3, psn), (2, epoch), (4, rkey)] ++
  data.map (fun b => b.1) ++ (if poison then leBytes (roundUp (((k + 7) / 8 + 7) / 8) 8) mask else [])

/-- Payload of a packet with its poison marks. -/
def pktData (p : List Byte) : List (Byte × Bool) :=
  let k := pktLen p
  let mask := if pktPoison p then leNat (p.drop (32 + k)) else 0
  ((List.range k).zip ((p.drop 32).take k)).map (fun e => (e.2, bitOf mask (e.1 / 8)))

def pktCid (p : List Byte) : Nat := leAt p 20 3 % 2 ^ 18
def pktFirst (p : List Byte) : Bool := bitOf (leAt p 20 3) 18
def pktLast (p : List Byte) : Bool := bitOf (leAt p 20 3) 19
def pktNotify (p : List Byte) : Bool := bitOf (leAt p 20 3) 20
def pktPsn (p : List Byte) : Nat := leAt p 23 3
def pktEpoch (p : List Byte) : Nat := leAt p 26 2
def pktRkey (p : List Byte) : Nat := leAt p 28 4

/-- A packet with RETX set. -/
def withRetx (p : List Byte) : List Byte := p.take 22 ++ [BitVec.ofNat 8 (putBits (byteAt p 22) 5 5 1)] ++ p.drop 23

/-- The shim before the packet header on Ethernet (R680). -/
def rmaShim (enc : Bool) (txctr : Nat) : List Byte := record [(1, 1), (1, bit enc), (6, 0), (8, if enc then txctr else 0)]

/-- Sends a packet of connection `cid`: into the switch, or over its Ethernet path, encrypted with ENC (R663, R680 to
R682). -/
def State.rmaSend (s : State) (cid : Nat) (p : List Byte) : State :=
  let c := s.conn cid
  if !c.eth then (s.count Ctr.RMA_PKT_TX).packetForward 96 p
  else
    let path := fetch [] s.rma.paths c.path
    let out (s : State) (payload : List Byte) : State :=
      (s.count Ctr.RMA_PKT_TX).ethQueue (byteAt path 0 % 32) ⟨classQueue c.cls, pathFrame path (s.rf Reg.RMA_CTL 31 16) payload, false⟩
    if !c.enc then out s (rmaShim false 0 ++ p)
    else if 2 ^ 48 ≤ c.txctr then s.rmaError cid 0x04D2 true
    else
      match (fetch {} s.ciphers c.cipher).tx with
      | none => s.rmaError cid 0x0404 true
      | some k =>
        let shim := rmaShim true c.txctr
        let e := gcmSeal k.1 (k.2 ++ leBytes 8 c.txctr) (shim ++ p.take 32) (p.drop 32)
        out (s.setConn cid { c with txctr := c.txctr + 1 }) (shim ++ p.take 32 ++ e.1 ++ e.2)

/-! ### Edge accesses (R624, R670) -/

/-- The lowest tag that no access to endpoint `e` uses. -/
def State.edgeTag (s : State) (e : Nat) : Nat :=
  let used := (s.rma.edge.filter (fun o => o.ep = e)).map (fun o => o.tag)
  ((List.range (used.length + 1)).find? (fun t => !used.contains t)).getD 0

def State.addEdge (s : State) (o : EdgeOp) : State := { s with rma := { s.rma with edge := s.rma.edge ++ [o] } }

/-- An EDGE_WR with ACKREQ of marked bytes (R670). -/
def State.edgePlace (s : State) (e off : Nat) (data : List (Byte × Bool)) (w : EdgeWork) : State :=
  let t := s.edgeTag e
  let marks := (List.range ((data.length + 7) / 8)).map (fun i => ((data.drop (8 * i)).take 8).any (fun b => b.2))
  (s.addEdge ⟨e, t, w⟩).emit (.edgeWriteAck e t off (data.map (fun b => b.1)) marks)

/-- An EDGE_RD (R670). -/
def State.edgeFetch (s : State) (e off len : Nat) (w : EdgeWork) : State :=
  let t := s.edgeTag e
  (s.addEdge ⟨e, t, w⟩).emit (.edgeRead e t off len)

/-! ### The initiator (R673 to R679) -/

/-- Is a flight done with: a WRITE acknowledged, a READ wholly placed (R675)? -/
def RmaConn.satisfied (c : RmaConn) (f : RmaFlight) : Bool :=
  if f.read then c.msgs.any (fun m => m.wq = f.wq && m.idx = f.idx && m.len ≤ (m.placed.map (fun x => x.2)).sum) else f.acked

/-- Packets kept unacknowledged and not waiting to be sent again. -/
def RmaConn.inFlight (c : RmaConn) : Nat := (c.flight.filter (fun f => !f.lost && !c.satisfied f)).length

/-- The window in packets (R673). -/
def RmaConn.window (c : RmaConn) : Nat := min c.maxWnd (c.win / 256)

/-- Restarts the timer of a connection. -/
def State.rmaTimer (s : State) (cid : Nat) : State := s.setConn cid { s.conn cid with deadline := s.now + (s.conn cid).rto }

/-- Sends again the oldest lost packet of connection `cid` (R674). -/
def State.rmaResend (s : State) (cid : Nat) (f : RmaFlight) : State :=
  let c := s.conn cid
  let p := withRetx f.packet
  let f' : RmaFlight := { f with lost := false, retx := true, sentAt := s.now, packet := p }
  let s := s.setConn cid { c with flight := c.flight.map (fun g => if g.psn = f.psn then f' else g) }
  (s.count Ctr.RMA_RETX).rmaSend cid p

/-- Sends the next new packet of message `m` of connection `cid`, with the bytes `data`. -/
def State.rmaNew (s : State) (cid : Nat) (m : RmaMsg) (data : List (Byte × Bool)) : State :=
  let c := s.conn cid
  let last := m.sent + 1 = m.total
  let flags := bit (m.sent = 0) + 2 * bit last + 4 * bit m.notify
  let off := m.roff + (if m.read then 0 else m.sent * c.mtu)
  let p := s.rmaPacket c.rpart (if m.read then 0x11 else 0x10) (classVc c.cls) off c.rcid flags c.psn c.epoch m.rkey data
  let f : RmaFlight := { psn := c.psn, wq := m.wq, idx := m.idx, read := m.read, last, packet := p, sentAt := s.now }
  let m' : RmaMsg := { m with sent := m.sent + 1, fetched := none, asked := false }
  let c' := { c with psn := (c.psn + 1) % 2 ^ 24, flight := c.flight ++ [f],
                     msgs := c.msgs.map (fun x => if x.wq = m.wq ∧ x.idx = m.idx then m' else x) }
  let s := (s.setConn cid c').rmaSend cid p
  if c.inFlight = 0 then s.rmaTimer cid else s

/-- The bytes of the next packet of a WRITE, when its source is part memory. -/
def State.rmaSource (s : State) (c : RmaConn) (m : RmaMsg) : List (Byte × Bool) :=
  s.readMarked (m.loc + m.sent * c.mtu) (min c.mtu (m.len - m.sent * c.mtu))

/-- One packet more, if the window and the state of the connection let one go. -/
def State.rmaPumpOne (s : State) (cid : Nat) : State × Bool :=
  let c := s.conn cid
  if c.state ≠ 1 ∨ c.window ≤ c.inFlight then (s, false)
  else
    match c.flight.find? (fun f => f.lost && !c.satisfied f) with
    | some f => (s.rmaResend cid f, true)
    | none =>
      if c.waitSince.isSome then (s, false)
      else
        match c.msgs.find? (fun m => m.sent < m.total) with
        | none => (s, false)
        | some m =>
          if m.read then (s.rmaNew cid m ((leBytes 4 m.len ++ leBytes 4 0).map (fun b => (b, false))), true)
          else if m.ep = 0 ∨ m.len = 0 then (s.rmaNew cid m (s.rmaSource c m), true)
          else
            match m.fetched with
            | some d => (s.rmaNew cid m d, true)
            | none =>
              if m.asked then (s, false)
              else
                let m' : RmaMsg := { m with asked := true }
                let s := s.setConn cid { c with msgs := c.msgs.map (fun x => if x.wq = m.wq ∧ x.idx = m.idx then m' else x) }
                (s.edgeFetch m.ep (m.loc + m.sent * c.mtu) (min c.mtu (m.len - m.sent * c.mtu)) (.source cid m.wq m.idx), false)

/-- Sends what the connection may send. -/
def State.rmaPumpN (cid : Nat) : Nat → State → State
  | 0, s => s
  | f + 1, s =>
    match s.rmaPumpOne cid with
    | (s, true) => State.rmaPumpN cid f s
    | (s, false) => s

def State.rmaPump (s : State) (cid : Nat) : State := State.rmaPumpN cid 4096 s

/-- Drops the flights that are done with, in PSN order: a READ only when every earlier packet is acknowledged (R658). The
result lists the messages that are complete. -/
def settleFlights (c : RmaConn) : Bool → List RmaFlight → List RmaFlight × List (Nat × Nat)
  | _, [] => ([], [])
  | clear, f :: fs =>
    let ok := c.satisfied f
    let r := settleFlights c (clear && ok) fs
    if ok && (clear || !f.read) then (r.1, if f.last then (f.wq, f.idx) :: r.2 else r.2)
    else (f :: r.1, r.2)

/-- Completes what connection `cid` has completed (R658). -/
def State.rmaSettle (s : State) (cid : Nat) : State :=
  let c := s.conn cid
  let r := settleFlights c true c.flight
  let s := r.2.foldl (fun s (e : Nat × Nat) =>
    s.wqDone e.1 e.2 0 ((c.msgs.find? (fun m => m.wq = e.1 && m.idx = e.2)).map (fun m => m.len) |>.getD 0)) s
  s.setConn cid { s.conn cid with flight := r.1, msgs := c.msgs.filter (fun m => !r.2.contains (m.wq, m.idx)) }

/-- Is PSN `p` covered by the cumulative acknowledgement `a`? -/
def psnCovered (a p : Nat) : Bool := aheadMod 24 p a < 2 ^ 23

/-- The window after an ACK of `n` new packets with the sample `rtt` (R679); `a` is the PSN acknowledged. -/
def RmaConn.ackWindow (c : RmaConn) (n rtt a : Nat) : RmaConn :=
  if rtt ≤ c.target then { c with win := min (c.maxWnd * 256) (c.win + n * 65536 / c.win) }
  else if c.decPsn.any (fun p => !psnCovered a p) then c
  else { c with win := max 256 (c.win * (rtt + c.target) / (2 * rtt)), decPsn := some c.psn }

/-- A cumulative acknowledgement of every PSN up to `a` at `t` (R674, R679). -/
def State.rmaAcked (s : State) (cid t a : Nat) : State :=
  let c := s.conn cid
  let fresh := c.flight.filter (fun f => !f.acked && psnCovered a f.psn)
  if fresh = [] then s
  else
    let c := match (fresh.filter (fun f => !f.retx)).getLast? with
      | some f => c.ackWindow fresh.length (t - f.sentAt) a
      | none => c
    let flight := c.flight.map (fun f => if psnCovered a f.psn then ({ f with acked := true, lost := f.lost && f.read } : RmaFlight) else f)
    let s := s.setConn cid { c with rto := 8000, tries := 0, waitSince := none, flight }
    ((s.rmaSettle cid).rmaTimer cid)

/-- Go back: every packet kept is sent again. -/
def RmaConn.goBack (c : RmaConn) : RmaConn :=
  { c with flight := c.flight.map (fun f => if c.satisfied f then f else ({ f with lost := true } : RmaFlight)) }

/-! ### The target (R667 to R672) -/

/-- Sends an ACK of connection `cid` (R671). -/
def State.rmaAck (s : State) (cid : Nat) : State :=
  let c := s.conn cid
  let s := s.setConn cid { c with sinceAck := 0 }
  s.rmaSend cid (s.rmaPacket c.rpart 0x13 3 0 c.rcid 0 ((c.epsn + 2 ^ 24 - 1) % 2 ^ 24) c.epoch 0 [])

/-- Sends a NAK for the request `p` of connection `cid` (R665): its EPOCH is the request's, so that it reaches the
incarnation that sent it (R666). -/
def State.rmaNak (s : State) (cid : Nat) (p : List Byte) (code psn st : Nat) : State :=
  let c := s.conn cid
  (s.count Ctr.RMA_NAK_TX).rmaSend cid
    (s.rmaPacket (if c.eth then 0 else pktSrcPart p) 0x14 3 0 c.rcid 0 psn (pktEpoch p) (code + st * 65536) [])

/-- One READ_RESP packet (R669). -/
def State.rmaRespond (s : State) (cid psn off : Nat) (data : List (Byte × Bool)) : State :=
  let c := s.conn cid
  s.rmaSend cid (s.rmaPacket c.rpart 0x12 3 off c.rcid 0 psn c.epoch 0 data)

/-- Serves a READ_REQ of `len` bytes at `off` of region `r` (R669, R670). -/
def State.rmaServe (s : State) (cid psn : Nat) (r : RmaRegion) (off len : Nat) : State :=
  let c := s.conn cid
  (List.range ((len + c.mtu - 1) / c.mtu)).foldl (fun s i =>
    let o := i * c.mtu
    let k := min c.mtu (len - o)
    if r.ep = 0 then s.rmaRespond cid psn o (s.readMarked (r.base + off + o) k)
    else s.edgeFetch r.ep (r.base + off + o) k (.serve cid c.epoch psn o)) s

/-- Releases one request of connection `cid` (R668). -/
def State.rmaRelease (s : State) (cid : Nat) (h : RmaHeld) : State :=
  let reg := s.region (h.key / 4096)
  let s := match h.read, reg with
    | some x, some r => s.rmaServe cid h.psn r x.1 x.2
    | _, _ => s
  match h.notify && h.last, reg.bind (fun r => r.ctr) with
  | true, some k => s.ctrBump k
  | _, _ => s

/-- EPSN advances over every consecutive PSN placed, releasing (R667, R668); 16 releases since the last ACK send one. -/
def State.rmaAdvance (cid : Nat) : Nat → State → State
  | 0, s => s
  | f + 1, s =>
    let c := s.conn cid
    match c.held.find? (fun h => h.psn = c.epsn && h.placed) with
    | none => s
    | some h =>
      let s := s.setConn cid { c with epsn := (c.epsn + 1) % 2 ^ 24, held := c.held.erase h, sinceAck := c.sinceAck + 1 }
      let s := s.rmaRelease cid h
      State.rmaAdvance cid f (if 16 ≤ (s.conn cid).sinceAck then s.rmaAck cid else s)

/-- Receive trackers in use by slice `n`: connections that hold packets ahead of EPSN (R672). -/
def State.trackersUsed (s : State) (n : Nat) : Nat :=
  (s.rma.conns.filter (fun e => s.connSlice e.1 = n && e.2.held.any (fun h => h.psn ≠ e.2.epsn))).length

/-- The key check of R651 for a request of `len` bytes at `off`. -/
def State.keyOk (s : State) (n : Nat) (c : RmaConn) (key off len : Nat) (read : Bool) : Bool :=
  let i := key / 4096
  s.inShare n 1048576 i &&
  match s.region i with
  | some r => r.valid && key % 4096 = fetch 0 s.rma.gens i && r.pd = c.pd && (if read then r.rr else r.rw) && off + len ≤ r.len
  | none => false

/-- Places a WRITE packet (R667, R670). -/
def State.rmaPlace (s : State) (cid : Nat) (p : List Byte) (h : RmaHeld) : State :=
  match s.region (h.key / 4096) with
  | none => s
  | some r =>
    let off := pktOff p % 2 ^ 40
    let s := s.count Ctr.RMA_PKT_RX
    let c := s.conn cid
    if r.ep = 0 ∨ pktLen p = 0 then
      (s.writeMarked (r.base + off) (pktData p)).setConn cid { c with held := c.held ++ [{ h with placed := true }] }
    else (s.setConn cid { c with held := c.held ++ [h] }).edgePlace r.ep (r.base + off) (pktData p)
      (.place cid c.epoch h.psn (h.key / 4096))

/-- A request packet of connection `cid` passes the state checks: its place in PSN order, its key, and its effect (R667). -/
def State.rmaTake (s : State) (cid : Nat) (p : List Byte) : State :=
  let n := s.connSlice cid
  let c := s.conn cid
  let d := aheadMod 24 c.epsn (pktPsn p)
  let read := pktOpcode p = 0x11
  let len := if read then leAt p 32 4 else pktLen p
  let off := pktOff p % 2 ^ 40
  let h : RmaHeld := { psn := pktPsn p, last := pktLast p, notify := pktNotify p, key := pktRkey p,
                       read := if read then some (off, len) else none, placed := read }
  if 2 ^ 23 ≤ d then
    let s := s.count Ctr.RMA_DUP
    let s := match s.region (h.key / 4096) with
      | some r => if read ∧ s.keyOk n c h.key off len true then s.rmaServe cid h.psn r off len else s
      | none => s
    s.rmaAck cid
  else if 4096 ≤ d then s.count Ctr.RMA_BAD_PKT
  else if 0 < d ∧ !c.held.any (fun x => x.psn ≠ c.epsn) ∧ s.shareSize 4096 ≤ s.trackersUsed n then
    ((s.count Ctr.RMA_TRACKER_FULL).event Reg.RMA_EVT 3).rmaNak cid p 1 ((c.epsn + 2 ^ 24 - 1) % 2 ^ 24) 0
  else if c.held.any (fun x => x.psn = h.psn) then s.count Ctr.RMA_DUP
  else if !s.keyOk n c h.key off len read then
    ((s.rmaError cid 0x04D0 false).event Reg.RMA_EVT 2).rmaNak cid p 6 (pktPsn p) 0x04D0
  else
    let s := if read then (s.setConn cid { c with held := c.held ++ [h] }).count Ctr.RMA_PKT_RX else s.rmaPlace cid p h
    State.rmaAdvance cid ((s.conn cid).held.length) s

/-- A request packet reaches the target (R667); `src` is the source IP of one that came over Ethernet. -/
def State.rmaRequest (s : State) (src : Option (List Byte)) (p : List Byte) : State :=
  let cid := pktCid p
  let c := s.conn cid
  let n := s.connSlice cid
  let path := fetch [] s.rma.paths c.path
  let ip := if bitOf (byteAt path 0) 7 then (path.drop 36).take 16 else (path.drop 36).take 4
  if pktOpcode p ≠ 0x10 ∧ pktOpcode p ≠ 0x11 then s.count Ctr.RMA_BAD_PKT
  else if s.rf (Reg.HOST_S_STAT n) 3 0 = 6 then s.rmaNak cid p 3 (pktPsn p) 0
  else if c.state = 0 ∨ c.state = 3 then s.rmaNak cid p 5 (pktPsn p) 0
  else if (if c.eth then src ≠ some ip else src.isSome ∨ pktSrcPart p ≠ c.rpart) then s.count Ctr.RMA_BAD_PKT
  else if laterMod 16 (pktEpoch p) c.epoch then (s.count Ctr.RMA_STALE).rmaNak cid p 4 (pktPsn p) 0
  else if pktEpoch p ≠ c.epoch then s.rmaNak cid p 2 (pktPsn p) 0
  else if c.state = 2 then (s.event Reg.RMA_EVT 2).rmaNak cid p 6 (pktPsn p) c.err
  else s.rmaTake cid p

/-! ### Answers to the initiator -/

/-- Does an answer packet meet an OPEN connection of its own epoch (R666)? -/
def State.rmaCurrent (s : State) (p : List Byte) : Bool := (s.conn (pktCid p)).state = 1 && pktEpoch p = (s.conn (pktCid p)).epoch

/-- An ACK at `t` (R674, R679). -/
def State.rmaAckIn (s : State) (t : Nat) (p : List Byte) : State :=
  if s.rmaCurrent p then ((s.reach t).rmaAcked (pktCid p) t (pktPsn p)).rmaPump (pktCid p) else s.count Ctr.RMA_STALE

/-- A NAK at `t` (R665). -/
def State.rmaNakIn (s : State) (t : Nat) (p : List Byte) : State :=
  let cid := pktCid p
  if !s.rmaCurrent p then s.count Ctr.RMA_STALE
  else
    let s := s.reach t
    match byteAt p 28 with
    | 1 =>
      let s := s.rmaAcked cid t (pktPsn p)
      let c := s.conn cid
      ((s.setConn cid { c.goBack with win := max 256 (c.win / 2) }).rmaTimer cid).rmaPump cid
    | 2 =>
      let c := s.conn cid
      (s.setConn cid { c with rto := min 4000000 (2 * c.rto), waitSince := some (c.waitSince.getD t) }).rmaTimer cid
    | 3 =>
      let c := s.conn cid
      (s.setConn cid { c with rto := min 4000000 (2 * c.rto), waitSince := some (c.waitSince.getD t) }).rmaTimer cid
    | 4 => s.rmaError cid 0x06D2 true
    | 5 => s.rmaError cid 0x06D1 true
    | 6 => s.rmaError cid (leAt p 30 2) true
    | _ => s

/-- Bytes `[off, off + len)` of the READ of request `idx` of queue `w` are placed (R675, R676). -/
def State.respPlaced (s : State) (cid w idx off len : Nat) : State :=
  let c := s.conn cid
  let s := s.setConn cid { c with msgs := c.msgs.map (fun m =>
    if m.wq = w ∧ m.idx = idx then ({ m with placed := m.placed ++ [(off, len)] } : RmaMsg) else m) }
  (s.rmaSettle cid).rmaPump cid

/-- A READ_RESP (R676). -/
def State.respIn (s : State) (p : List Byte) : State :=
  let cid := pktCid p
  if !s.rmaCurrent p then s.count Ctr.RMA_STALE
  else
    let c := s.conn cid
    let off := pktOff p % 2 ^ 40
    let len := pktLen p
    match c.flight.find? (fun f => f.read && f.psn = pktPsn p) with
    | none => s.count Ctr.RMA_DUP
    | some f =>
      match c.msgs.find? (fun m => m.wq = f.wq && m.idx = f.idx) with
      | none => s.count Ctr.RMA_DUP
      | some m =>
        let busy := s.rma.edge.any (fun o => o.work = .resp cid m.wq m.idx off len)
        if m.placed.any (fun x => x.1 ≤ off && off < x.1 + x.2) ∨ busy then s.count Ctr.RMA_DUP
        else if m.len < off + len then s.count Ctr.RMA_BAD_PKT
        else if m.ep = 0 then (s.writeMarked (m.loc + off) (pktData p)).respPlaced cid m.wq m.idx off len
        else s.edgePlace m.ep (m.loc + off) (pktData p) (.resp cid m.wq m.idx off len)

/-- The timer of connection `cid` expires at `t` (R674). While the target answers that it is not ready, no retry is
counted. -/
def State.rmaExpire (s : State) (cid t : Nat) : State :=
  let c := s.conn cid
  if c.state ≠ 1 ∨ t < c.deadline ∨ c.flight.all (fun f => c.satisfied f) then s
  else
    let s := (s.reach t).count Ctr.RMA_TIMEOUT
    let tries := if c.waitSince.isSome then c.tries else c.tries + 1
    if c.retry < tries then s.rmaError cid 0x06D0 true
    else
      let s := s.setConn cid { c.goBack with win := 256, tries, rto := min 4000000 (2 * c.rto) }
      (s.rmaTimer cid).rmaPump cid

/-- NOT_READY or TARGET_RESETTING has gone on for WAIT_LIMIT_MS at `t` (R674). -/
def State.rmaWaitLimit (s : State) (cid t : Nat) : State :=
  match (s.conn cid).waitSince with
  | some t0 => if (s.conn cid).state = 1 ∧ t0 + 1000000 * s.rf Reg.RMA_TIMING 31 16 ≤ t then (s.reach t).rmaError cid 0x06D3 true else s
  | none => s

/-! ### Answers from endpoints (R625, R670) -/

/-- The access of endpoint `e` with tag `tag`, taken from the table. -/
def State.takeEdge (s : State) (e tag : Nat) : State × Option EdgeWork :=
  match s.rma.edge.find? (fun o => o.ep = e && o.tag = tag) with
  | some o => ({ s with rma := { s.rma with edge := s.rma.edge.erase o } }, some o.work)
  | none => (s, none)

/-- An EDGE_WACK (R670): the bytes are written. An access beyond the endpoint's memory (0x0608) ends the connection. -/
def State.edgeWack (s : State) (e tag st : Nat) : State :=
  match s.takeEdge e tag with
  | (s, some (.place cid epoch psn _)) =>
    let c := s.conn cid
    if c.state ≠ 1 ∨ c.epoch ≠ epoch then s
    else if st ≠ 0 then s.rmaError cid st false
    else
      let s := s.setConn cid { c with held := c.held.map (fun h => if h.psn = psn then ({ h with placed := true } : RmaHeld) else h) }
      State.rmaAdvance cid c.held.length s
  | (s, some (.resp cid w idx off len)) => if st ≠ 0 then s.rmaError cid st true else s.respPlaced cid w idx off len
  | (s, _) => s

/-- An EDGE_RDATA (R625, R670). -/
def State.edgeRdata (s : State) (e tag st : Nat) (bytes : List Byte) (poison : List Bool) : State :=
  let data := ((List.range bytes.length).zip bytes).map (fun x => (x.2, poison.getD (x.1 / 8) false))
  match s.takeEdge e tag with
  | (s, some (.source cid w idx)) =>
    let c := s.conn cid
    if st ≠ 0 then s.rmaError cid st true
    else
      (s.setConn cid { c with msgs := c.msgs.map (fun m =>
        if m.wq = w ∧ m.idx = idx then ({ m with fetched := some data } : RmaMsg) else m) }).rmaPump cid
  | (s, some (.serve cid epoch psn off)) =>
    let c := s.conn cid
    if c.state ≠ 1 ∨ c.epoch ≠ epoch then s
    else if st ≠ 0 then s.rmaError cid st false
    else s.rmaRespond cid psn off data
  | (s, _) => s

end Sys2Proof.Machine
end

