-- ==== Sys2Proof/Machine/RmaCmd.lean ====
section
/-! DEFINITION. The RMA commands (R639 to R652, R684, R685), doorbells and trigger counters (R653 to R662), and the mode of
hank segments (R408, R409, R649). -/

namespace Sys2Proof.Machine

/-! ### OPEN, CLOSE and RESET (R639 to R645) -/

/-- The status of a command's argument block of `k` bytes at `a` (R686): misaligned, or outside the slice's memory. -/
def State.rmaArgStatus (s : State) (n a k : Nat) : Nat :=
  if a % 32 ≠ 0 then 0x01D3 else if !s.inSlice n a k then 0x0181 else 0

def State.rmaArg (s : State) (n : Nat) : Nat := s.addrOf (Reg.RMA_ARG_LO n) (Reg.RMA_ARG_HI n)
def State.rmaIndex (s : State) (n : Nat) : Nat := (s.rd (Reg.RMA_INDEX n)).toNat

/-- The status of OPEN for the descriptor at `a` (R639, R641, R643, R686, R806). -/
def State.openStatus (s : State) (n a : Nat) : Nat :=
  let f (o k : Nat) : Nat := s.le (a + o) k
  let cid := f 0 3
  let fl := f 3 1
  let eth := bitOf fl 2
  let enc := bitOf fl 3
  let c := s.conn (cid % 2 ^ 18)
  let ch := fetch {} s.ciphers (f 24 2 % 1024)
  if 2 ^ 18 ≤ cid ∨ fl % 4 = 3 ∨ 16 ≤ fl ∨ (enc ∧ !eth) ∨ 4096 ≤ f 6 2 ∨ 2 ^ 14 ≤ f 8 2 ∨ (eth ∧ f 8 2 ≠ 0) ∨ 2 ^ 18 ≤ f 10 3 ∨
      3 ≤ f 13 1 ∨ 16 ≤ f 14 1 ∨ f 15 1 ≠ 0 ∨ 2 ^ 13 ≤ f 16 2 ∨ 2 ^ 13 ≤ f 18 2 ∨ 256 ≤ f 20 2 ∨ 4096 ≤ f 22 2 ∨
      (!eth ∧ f 22 2 ≠ 0) ∨ 1024 ≤ f 24 2 ∨ (!enc ∧ f 24 2 ≠ 0) ∨ f 26 38 ≠ 0 then 0x01D0
  else if !s.inShare n 262144 cid ∨ !s.inShare n 4096 (f 6 2) ∨ (eth ∧ !s.inShare n 4096 (f 22 2)) ∨
      (enc ∧ !s.inShare n 1024 (f 24 2)) then 0x01D1
  else if f 14 1 = 0 ∨ f 16 2 = 0 ∨ 4096 < f 16 2 ∨ f 18 2 = 0 ∨ f 16 2 < f 18 2 then 0x01D2
  else if c.state = 3 then 0x03D0
  else if c.state ≠ 0 then 0x02D0
  else if c.known ∧ f 4 2 ≠ (c.epoch + 1) % 65536 then 0x02D1
  else if enc ∧ (ch.used ∨ ch.tx.isNone) then 0x0409
  else 0

/-- OPEN passes its checks (R641, R806). -/
def State.rmaOpen (s : State) (n a : Nat) : State :=
  let f (o k : Nat) : Nat := s.le (a + o) k
  let cid := f 0 3
  let fl := f 3 1
  let cls := fl % 4
  let enc := bitOf fl 3
  let c : RmaConn := {
    state := 1, epoch := f 4 2, known := true, opens := (s.conn cid).opens + 1, cls, eth := bitOf fl 2, enc, pd := f 6 2,
    rpart := f 8 2, rcid := f 10 3, mtu := if cls = 2 then 200 else 1024 * 2 ^ f 13 1, retry := f 14 1, maxWnd := f 16 2,
    target := 1000 * (if f 20 2 = 0 then s.rf Reg.RMA_CTL 15 8 else f 20 2), path := f 22 2, cipher := f 24 2,
    win := f 18 2 * 256 }
  let s := s.setConn cid c
  if enc then { s with ciphers := modifyAt {} s.ciphers (f 24 2) (fun k => { k with used := true }) } else s

/-- Connection `cid` is closed (R641, R642, R645): CLOSED, or QUARANTINED after 65,536 openings. -/
def State.rmaClose (s : State) (cid : Nat) : State :=
  let s := s.rmaFlush cid 0x02D2
  let c := s.conn cid
  let c' : RmaConn := { state := if 65536 ≤ c.opens then 3 else 0, epoch := c.epoch, known := c.known, opens := c.opens, rcid := c.rcid,
                        rpart := c.rpart, eth := c.eth, path := c.path, cls := c.cls }
  let s := s.setConn cid c'
  if 65536 ≤ c.opens then s.event Reg.RMA_EVT 0 else s

/-! ### Regions (R647 to R650) -/

/-- The lowest index from `i` that is free: neither registered nor quarantined; `f` candidates are left. -/
def State.freeKey (s : State) : Nat → Nat → Nat
  | 0, i => i
  | f + 1, i => if (s.region i).isSome || fetch false s.rma.keyQuar i then s.freeKey f (i + 1) else i

/-- The lowest free index of slice `n`'s share. -/
def State.lowestKey (s : State) (n : Nat) : Nat :=
  s.freeKey (s.rma.regions.length + s.rma.keyQuar.length) (n * s.shareSize 1048576)

/-- The status of REG_REGION for the descriptor at `a` (R648). -/
def State.regionStatus (s : State) (n a : Nat) : Nat :=
  let f (o k : Nat) : Nat := s.le (a + o) k
  let ep := f 5 1
  if 64 ≤ ep ∨ 4096 ≤ f 6 2 ∨ 8 ≤ f 13 1 ∨ 2 ^ 14 ≤ f 14 2 ∨ f 16 16 ≠ 0 then 0x01D0
  else if !s.inShare n 4096 (f 6 2) ∨ (bitOf (f 13 1) 2 ∧ !s.inShare n 16384 (f 14 2)) ∨ 48 < ep ∨ (ep ≠ 0 ∧ !s.epOfSlice n ep) then 0x01D1
  else if f 8 5 = 0 ∨ 2 ^ 40 < f 0 5 + f 8 5 then 0x01D2
  else if ep = 0 ∧ !s.inSlice n (f 0 5) (f 8 5) then 0x0181
  else if !s.inShare n 1048576 (s.lowestKey n) then 0x03D1
  else 0

/-- REG_REGION passes its checks (R647). -/
def State.regRegion (s : State) (n a : Nat) : State :=
  let f (o k : Nat) : Nat := s.le (a + o) k
  let i := s.lowestKey n
  let fl := f 13 1
  let r : RmaRegion := { slice := n, base := f 0 5, ep := f 5 1, pd := f 6 2, len := f 8 5, rw := bitOf fl 0, rr := bitOf fl 1,
                         ctr := if bitOf fl 2 then some (f 14 2) else none }
  ({ s with rma := { s.rma with regions := store none s.rma.regions i (some r) } }).wr (Reg.RMA_RESULT n)
    (BitVec.ofNat 32 (i * 4096 + fetch 0 s.rma.gens i))

/-- The status of DEREG_REGION of `key`. -/
def State.deregStatus (s : State) (n key : Nat) : Nat :=
  let i := key / 4096
  if !s.inShare n 1048576 i then 0x01D1
  else if (s.region i).any (fun r => r.valid && key % 4096 = fetch 0 s.rma.gens i) then 0 else 0x02D0

/-- The key becomes invalid at once (R650). -/
def State.deregRegion (s : State) (n key : Nat) : State :=
  let i := key / 4096
  let regions := store none s.rma.regions i ((s.region i).map (fun r => { r with valid := false }))
  { s with rma := { s.rma with regions, deregs := store none s.rma.deregs n (some i) } }.wf (Reg.RMA_STAT n) 31 31 1

/-- Index `i` leaves its region: its GEN rises, or it is quarantined (R650). -/
def State.retireKey (s : State) (i : Nat) : State :=
  let g := fetch 0 s.rma.gens i
  let s := { s with rma := { s.rma with regions := store none s.rma.regions i none } }
  if g = 0xFFF then
    { s with rma := { s.rma with gens := store 0 s.rma.gens i 0, keyQuar := store false s.rma.keyQuar i true } }.event Reg.RMA_EVT 0
  else { s with rma := { s.rma with gens := store 0 s.rma.gens i (g + 1) } }

/-- Is a packet that carried a key of index `i` still being placed? -/
def State.placing (s : State) (i : Nat) : Bool :=
  s.rma.edge.any (fun o => match o.work with
    | .place _ _ _ k => k = i
    | _ => false)

/-- No packet bearing the key is being placed any more: DEREG_REGION of slice `n` completes (R650). -/
def State.deregDone (s : State) (n : Nat) : State :=
  match fetch none s.rma.deregs n with
  | none => s
  | some i =>
    if s.placing i then s
    else
      let s := s.retireKey i
      ({ s with rma := { s.rma with deregs := store none s.rma.deregs n none } }.wf (Reg.RMA_STAT n) 31 31 0).wf (Reg.RMA_STAT n) 15 0 0

/-! ### Paths and work queues (R652, R680) -/

/-- The status of SET_PATH for the entry at `a`. -/
def State.pathStatus (s : State) (n a : Nat) : Nat :=
  let f (o k : Nat) : Nat := s.le (a + o) k
  let v6 := bitOf (f 0 1) 7
  if bitsOf (f 0 1) 6 5 ≠ 0 ∨ 64 ≤ f 1 1 ∨ 2 ≤ f 3 1 ∨ bitOf (f 4 2) 12 ∨ f 52 12 ≠ 0 ∨ (!v6 ∧ (f 24 12 ≠ 0 ∨ f 40 12 ≠ 0)) then 0x01D0
  else if !s.inShare n 4096 (s.rmaIndex n) then 0x01D1
  else if f 2 1 = 0 then 0x01D2
  else 0

/-- The status of CREATE_WQ for the descriptor at `a` (R652). -/
def State.createWqStatus (s : State) (n a : Nat) : Nat :=
  let f (o k : Nat) : Nat := s.le (a + o) k
  let w := s.rmaIndex n
  if f 6 2 ≠ 0 ∨ f 14 18 ≠ 0 then 0x01D0
  else if !s.inShare n 1024 w then 0x01D1
  else if f 5 1 < 4 ∨ 12 < f 5 1 ∨ f 13 1 < 4 ∨ 12 < f 13 1 then 0x01D2
  else if f 0 5 % 64 ≠ 0 ∨ f 8 5 % 16 ≠ 0 then 0x01D3
  else if !s.inSlice n (f 0 5) (64 * 2 ^ f 5 1) ∨ !s.inSlice n (f 8 5) (16 * 2 ^ f 13 1) then 0x0181
  else if (s.wq w).isSome then 0x02D0
  else 0

/-- The doorbells of a work queue at 0. -/
def State.zeroDoorbells (s : State) (w : Nat) : State :=
  (((s.wr (Reg.RMA_WQ_TAIL w) 0).wr (Reg.RMA_WQ_HEAD w) 0).wr (Reg.RMA_WQ_CQ_HEAD w) 0).wr (Reg.RMA_WQ_CQ_TAIL w) 0

/-- CREATE_WQ passes its checks. -/
def State.createWq (s : State) (n a : Nat) : State :=
  let w := s.rmaIndex n
  (s.setWq w (some { slice := n, ring := s.le a 5, log2 := s.le (a + 5) 1, cq := s.le (a + 8) 5, cqLog2 := s.le (a + 13) 1 })).zeroDoorbells w

/-! ### Fences (R684, R685) -/

/-- FENCE of slice `n`: what it will release. -/
def State.rmaFence (s : State) (n : Nat) : State :=
  let cids := (s.rma.conns.filter (fun e => e.2.state = 3 && s.connSlice e.1 = n)).map (fun e => e.1)
  let keys := (s.rma.keyQuar.filter (fun e => s.inShare n 1048576 e.1)).map (fun e => e.1)
  { s with rma := { s.rma with fences := store none s.rma.fences n (some ⟨s.now, cids, keys⟩) } }.wf (Reg.RMA_STAT n) 30 30 1

/-- The fence of slice `n` completes at `t` (R684): its CIDs and key indices are released. -/
def State.fenceDone (s : State) (n t : Nat) : State :=
  match fetch none s.rma.fences n with
  | none => s
  | some x =>
    if t < x.since + 1000000 * s.rf Reg.RMA_TIMING 15 0 then s
    else
      let s := s.reach t
      let s := x.cids.foldl (fun s c => s.setConn c { s.conn c with state := 0, known := false, opens := 0 }) s
      let quar := x.keys.foldl (fun m k => store false m k false) s.rma.keyQuar
      { s with rma := { s.rma with keyQuar := quar, fences := store none s.rma.fences n none } }.wf (Reg.RMA_STAT n) 30 30 0

/-! ### The command register -/

/-- The status of a command on a CID (R637, R641). -/
def State.cidStatus (s : State) (n cid : Nat) : Nat :=
  if !s.inShare n 262144 cid then 0x01D1 else if (s.conn cid).state = 3 then 0x03D0 else 0

/-- What a command answers and does: its status, and the state if it succeeds (R686). -/
def State.rmaCommand (s : State) (n op : Nat) : Nat × State :=
  let i := s.rmaIndex n
  let a := s.rmaArg n
  let withArg (k : Nat) (st : Nat) (t : State) : Nat × State := (if s.rmaArgStatus n a k ≠ 0 then s.rmaArgStatus n a k else st, t)
  match op with
  | 1 => withArg 64 (s.openStatus n a) (s.rmaOpen n a)
  | 2 =>
    let st := s.cidStatus n i
    (if st ≠ 0 then st else if (s.conn i).state = 1 ∨ (s.conn i).state = 2 then 0 else 0x02D0, s.rmaClose i)
  | 3 =>
    let st := s.cidStatus n i
    (if st ≠ 0 then st else if (s.conn i).state = 2 then 0 else 0x02D0, s.rmaClose i)
  | 4 => withArg 32 (s.regionStatus n a) (s.regRegion n a)
  | 5 => (s.deregStatus n i, s.deregRegion n i)
  | 6 => withArg 64 (s.pathStatus n a) { s with rma := { s.rma with paths := store [] s.rma.paths i (s.bytes a 64) } }
  | 7 => withArg 32 (s.createWqStatus n a) (s.createWq n a)
  | 8 =>
    (if !s.inShare n 1024 i then 0x01D1 else if (s.wq i).isNone then 0x02D0 else 0, (s.setWq i none).zeroDoorbells i)
  | 9 => (if (fetch none s.rma.fences n).isSome then 0x02D0 else 0, s.rmaFence n)
  | 10 =>
    let c := s.conn i
    (if !s.inShare n 262144 i then 0x01D1 else 0,
      s.wr (Reg.RMA_RESULT n) (BitVec.ofNat 32 (c.epoch * 65536 + c.state)))
  | _ => (0x01D0, s)

/-- The status that a command which succeeds leaves: the error status of the connection for QUERY, else 0. -/
def State.rmaOkStatus (s : State) (n op : Nat) : Nat := if op = 10 then (s.conn (s.rmaIndex n)).err else 0

/-- A write of RMA_Sn_CMD. -/
def State.rmaCmdWrite (s : State) (n : Nat) (v : Word) : State :=
  let s := s.wr (Reg.RMA_CMD n) (v &&& 0xF)
  if fieldOf v 31 31 = 0 then s
  else
    let op := fieldOf v 3 0
    let ok := s.rmaOkStatus n op
    let r := if fieldOf v 30 4 ≠ 0 then (0x01D0, s) else if s.rf (Reg.RMA_STAT n) 31 31 = 1 then (0x02D0, s) else s.rmaCommand n op
    if r.1 ≠ 0 then s.wf (Reg.RMA_STAT n) 15 0 r.1 else r.2.wf (Reg.RMA_STAT n) 15 0 ok

/-! ### Doorbells and counters (R653, R656, R657, R661) -/

/-- A write of RMA_WQw_TAIL (R257 with 0x02D4, R653). -/
def State.wqTailWrite (s : State) (via : Via) (w : Nat) (v : Word) : State :=
  let t := fieldOf v 15 0
  let log2 := (s.wq w).map (fun q => q.log2) |>.getD 0
  if (s.wq w).isNone ∨ 2 ^ log2 < aheadMod 16 (s.rf (Reg.RMA_WQ_HEAD w) 15 0) t then s.reject via (Reg.RMA_WQ_TAIL w) 0x02D4
  else s.wr (Reg.RMA_WQ_TAIL w) (BitVec.ofNat 32 t)

/-- A write of RMA_WQw_CQ_HEAD (R661). -/
def State.wqCqHeadWrite (s : State) (w : Nat) (v : Word) : State :=
  let s := s.wr (Reg.RMA_WQ_CQ_HEAD w) (v &&& 0xFFFF)
  State.wqFlush w ((s.wq w).map (fun q => q.reqs.length) |>.getD 0) s

/-- The status of the work request at `a` (R652, R654, R686). -/
def State.wrStatus (s : State) (n a : Nat) : Nat :=
  let f (o k : Nat) : Nat := s.le (a + o) k
  let op := f 0 1
  let fl := f 1 1
  let cid := f 4 3
  let loc := f 8 6
  let ep := bitsOf loc 45 40
  let len := f 28 4
  let c := s.conn (cid % 2 ^ 18)
  if op = 0 ∨ 4 ≤ op ∨ 16 ≤ fl ∨ f 2 2 ≠ 0 ∨ (op ≠ 3 ∧ 2 ^ 18 ≤ cid) ∨ f 7 1 ≠ 0 ∨ 2 ^ 46 ≤ loc ∨ f 14 2 ≠ 0 ∨ f 21 3 ≠ 0 ∨
      2 ^ 14 ≤ f 32 2 ∨ 2 ^ 14 ≤ f 34 2 ∨ f 44 20 ≠ 0 then 0x01D0
  else if (op ≠ 3 ∧ !s.inShare n 262144 cid) ∨ (bitOf fl 2 ∧ !s.inShare n 16384 (f 32 2)) ∨ (bitOf fl 3 ∧ !s.inShare n 16384 (f 34 2)) ∨
      (op ≠ 3 ∧ ep ≠ 0 ∧ !s.epOfSlice n ep) then 0x01D1
  else if (if op = 3 then len ≠ 0 else 2 ^ 28 < len ∨ (len = 0 ∧ (op = 2 ∨ !bitOf fl 0))) then 0x01D2
  else if op = 3 then 0
  else if ep = 0 ∧ len ≠ 0 ∧ !s.inSlice n (bitsOf loc 39 0) len then 0x0181
  else if c.state = 3 then 0x03D0
  else if c.state ≠ 1 then 0x02D2
  else 0

/-- Read trackers in use by slice `n` (R676). -/
def State.readTrackers (s : State) (n : Nat) : Nat :=
  ((s.rma.conns.filter (fun e => s.connSlice e.1 = n)).map (fun e => (e.2.msgs.filter (fun m => m.read)).length)).sum

/-- May the request at `a` of queue `q` start: its trigger, its fence, and a read tracker (R652, R657, R676)? -/
def State.wrReady (s : State) (q : WorkQueue) (a : Nat) : Bool :=
  let fl := s.le (a + 1) 1
  (!bitOf fl 2 || s.ctrReached (s.le (a + 32) 2 % 2 ^ 14) (s.le (a + 36) 4)) && (!bitOf fl 1 || q.reqs = []) &&
  (s.le a 1 ≠ 2 || s.readTrackers q.slice < s.shareSize 4096)

/-- The next request of queue `w` starts, or ends with its status (R653, R654); not while its slice is stopped (R741). -/
def State.wrStart (s : State) (w : Nat) : State :=
  match s.wq w with
  | none => s
  | some q =>
    let h := s.rf (Reg.RMA_WQ_HEAD w) 15 0
    let a := q.ring + 64 * (h % 2 ^ q.log2)
    if h = s.rf (Reg.RMA_WQ_TAIL w) 15 0 ∨ s.sliceState q.slice ≠ 0 then s
    else
      let st := s.wrStatus q.slice a
      if st = 0 ∧ !s.wrReady q a then s
      else
        let f (o k : Nat) : Nat := s.le (a + o) k
        let op := f 0 1
        let fl := f 1 1
        let cid := f 4 3
        let done := if bitOf fl 3 && s.inShare q.slice 16384 (f 34 2) then some (f 34 2) else none
        let r : WqReq := { idx := h, user := f 40 4, doneCtr := done,
                           status := if st ≠ 0 then some st else if op = 3 then some 0 else none }
        let s := (s.setWq w (some { q with reqs := q.reqs ++ [r] })).wr (Reg.RMA_WQ_HEAD w) (BitVec.ofNat 32 ((h + 1) % 65536))
        if st ≠ 0 ∨ op = 3 then s
        else
          let c := s.conn cid
          let len := f 28 4
          let m : RmaMsg := { wq := w, idx := h, read := op = 2, ep := bitsOf (f 8 6) 45 40, loc := bitsOf (f 8 6) 39 0, roff := f 16 5,
                              rkey := f 24 4, len, notify := bitOf fl 0, total := if op = 2 then 1 else max 1 ((len + c.mtu - 1) / c.mtu) }
          (s.setConn cid { c with msgs := c.msgs ++ [m] }).rmaPump cid

/-- The path to a resource of `total` per part at index `i`: a page of another slice does not reach it. -/
def State.shareGated (s : State) (via : Via) (total i : Nat) (k : State → State) : State :=
  if i < total then s.gated via (s.shareOwner total i) k else s

/-! ### Hank modes (R408, R409, R649) -/

/-- Bytes of hank segment `g` of die `d`. -/
def segBytes (d g : Nat) : Nat := hankBase d + g * 0x4000000

/-- Does a valid region overlap hank segment `g` of die `d` (R649)? -/
def State.segRegistered (s : State) (d g : Nat) : Bool :=
  s.rma.regions.any (fun e => match e.2 with
    | some r => r.valid && r.ep = 0 && r.base < segBytes d g + 0x4000000 && segBytes d g < r.base + r.len
    | none => false)

/-- A masked write of MEM_HANK_MODEd (R14, R408, R409, R649). -/
def State.hankModeWrite (s : State) (via : Via) (d : Nat) (v : Word) : State :=
  let a := Reg.MEM_HANK_MODE d
  let sel := fieldOf v 31 16
  let old := s.rf a 15 0
  let segs := (List.range 16).filter (fun g => bitOf sel g)
  let foreign : Bool := match via with
    | .page n _ _ => s.sliceOfDie d != n
    | _ => false
  if 4 ≤ d then s
  else if foreign then s.reject via a 0x0183
  else if segs.any (fun g => bitOf (s.rd (Reg.MEM_HANK_BUSY d)).toNat g) then s.reject via a 0x0280
  else if segs.any (fun g => bitOf v.toNat g && !bitOf old g && s.segRegistered d g) then s.reject via a 0x02D3
  else
    let changed := segs.filter (fun g => bitOf v.toNat g != bitOf old g)
    let s := changed.foldl (fun s g => (s.zeroRange (segBytes d g) 0x4000000).wf (Reg.MEM_HANK_BUSY d) g g 1) s
    changed.foldl (fun s g => s.wf a g g (bit (bitOf v.toNat g))) s

/-- A page write of a hank mode register passes the checks on the port and PASID; the die's owner is R408's to check. -/
def State.hankGated (s : State) (via : Via) (d : Nat) (k : State → State) : State :=
  match via with
  | .page n _ _ => s.gated via n k
  | _ => s.gated via (s.sliceOfDie d) k

/-- MEM_HANK_MODE_WRITE (R408). -/
def execMemHankModeWrite (via : Via) (n : Nat) (v : Word) (s : State) : Host.Outcome State Fault Refusal :=
  .next (s.hankGated via n (fun s => s.hankModeWrite via n v))

/-- HANK_MODE_CHANGE_DONE (R409): the segment has drained, and holds zeros if it is in SCRATCH mode. -/
def execHankModeChangeDone (die seg : Nat) (s : State) : Host.Outcome State Fault Refusal :=
  .next (if die < 4 ∧ seg < 16 then s.wf (Reg.MEM_HANK_BUSY die) seg seg 0 else s)

/-! ### Commands -/

/-- RMA_OPEN (R641). -/
def execRmaOpen (via : Via) (n : Nat) (v : Word) (s : State) : Host.Outcome State Fault Refusal :=
  .next (s.gated via n (fun s => s.rmaCmdWrite n v))

/-- RMA_CLOSE (R642). -/
def execRmaClose (via : Via) (n : Nat) (v : Word) (s : State) : Host.Outcome State Fault Refusal :=
  .next (s.gated via n (fun s => s.rmaCmdWrite n v))

/-- RMA_RESET (R641). -/
def execRmaReset (via : Via) (n : Nat) (v : Word) (s : State) : Host.Outcome State Fault Refusal :=
  .next (s.gated via n (fun s => s.rmaCmdWrite n v))

/-- REG_REGION (R647). -/
def execRegRegion (via : Via) (n : Nat) (v : Word) (s : State) : Host.Outcome State Fault Refusal :=
  .next (s.gated via n (fun s => s.rmaCmdWrite n v))

/-- DEREG_REGION (R650). -/
def execDeregRegion (via : Via) (n : Nat) (v : Word) (s : State) : Host.Outcome State Fault Refusal :=
  .next (s.gated via n (fun s => s.rmaCmdWrite n v))

/-- SET_PATH (R680). -/
def execSetPath (via : Via) (n : Nat) (v : Word) (s : State) : Host.Outcome State Fault Refusal :=
  .next (s.gated via n (fun s => s.rmaCmdWrite n v))

/-- CREATE_WQ (R652). -/
def execCreateWq (via : Via) (n : Nat) (v : Word) (s : State) : Host.Outcome State Fault Refusal :=
  .next (s.gated via n (fun s => s.rmaCmdWrite n v))

/-- DESTROY_WQ (R652). -/
def execDestroyWq (via : Via) (n : Nat) (v : Word) (s : State) : Host.Outcome State Fault Refusal :=
  .next (s.gated via n (fun s => s.rmaCmdWrite n v))

/-- RMA_FENCE (R684). -/
def execRmaFence (via : Via) (n : Nat) (v : Word) (s : State) : Host.Outcome State Fault Refusal :=
  .next (s.gated via n (fun s => s.rmaCmdWrite n v))

/-- RMA_QUERY (R686). -/
def execRmaQuery (via : Via) (n : Nat) (v : Word) (s : State) : Host.Outcome State Fault Refusal :=
  .next (s.gated via n (fun s => s.rmaCmdWrite n v))

/-- DEREG_COMPLETE (R650). -/
def execDeregComplete (n : Nat) (s : State) : Host.Outcome State Fault Refusal := .next (s.deregDone n)

/-- FENCE_COMPLETE (R684). -/
def execFenceComplete (n t : Nat) (s : State) : Host.Outcome State Fault Refusal := .next (s.fenceDone n t)

/-- RMA_WQ_TAIL_WRITE (R653): `n` is the queue's index in the part. -/
def execRmaWqTailWrite (via : Via) (n : Nat) (v : Word) (s : State) : Host.Outcome State Fault Refusal :=
  .next (s.shareGated via 1024 n (fun s => s.wqTailWrite via n v))

/-- RMA_WQ_CQ_HEAD_WRITE (R661). -/
def execRmaWqCqHeadWrite (via : Via) (n : Nat) (v : Word) (s : State) : Host.Outcome State Fault Refusal :=
  .next (s.shareGated via 1024 n (fun s => s.wqCqHeadWrite n v))

/-- WORK_REQUEST_START (R653). -/
def execWorkRequestStart (w : Nat) (s : State) : Host.Outcome State Fault Refusal := .next (s.wrStart w)

/-- WORK_REQUEST_COMPLETE (R658 to R662). -/
def execWorkRequestComplete (w : Nat) (s : State) : Host.Outcome State Fault Refusal := .next (s.wqRecord w)

/-- RMA_CTR_VAL_WRITE (R657): `n` is the counter's index in the part. -/
def execRmaCtrValWrite (via : Via) (n : Nat) (v : Word) (s : State) : Host.Outcome State Fault Refusal :=
  .next (s.shareGated via 16384 n (fun s => s.ctrSet n v))

/-- RMA_CTR_ADD (R656). -/
def execRmaCtrAdd (via : Via) (n : Nat) (v : Word) (s : State) : Host.Outcome State Fault Refusal :=
  .next (s.shareGated via 16384 n (fun s => s.ctrSet n (s.rd (Reg.RMA_CTR_VAL n) + v)))

/-- RMA_REQUEST_RECEIVE (R667). -/
def execRmaRequestReceive (src : Option (List Byte)) (p : List Byte) (s : State) : Host.Outcome State Fault Refusal :=
  .next (s.rmaRequest src p)

/-- RMA_ACK_TIMER (R671): 1 us after a release that no ACK has covered. -/
def execRmaAckTimer (cid : Nat) (s : State) : Host.Outcome State Fault Refusal :=
  .next (if (s.conn cid).state = 1 ∧ (s.conn cid).sinceAck ≠ 0 then s.rmaAck cid else s)

/-- RMA_ACK_RECEIVE (R674). -/
def execRmaAckReceive (t : Nat) (p : List Byte) (s : State) : Host.Outcome State Fault Refusal := .next (s.rmaAckIn t p)

/-- RMA_NAK_RECEIVE (R665). -/
def execRmaNakReceive (t : Nat) (p : List Byte) (s : State) : Host.Outcome State Fault Refusal := .next (s.rmaNakIn t p)

/-- READ_RESP_RECEIVE (R676). -/
def execReadRespReceive (p : List Byte) (s : State) : Host.Outcome State Fault Refusal := .next (s.respIn p)

/-- RMA_TIMEOUT (R674). -/
def execRmaTimeout (cid t : Nat) (s : State) : Host.Outcome State Fault Refusal := .next (s.rmaExpire cid t)

/-- RMA_WAIT_LIMIT (R674). -/
def execRmaWaitLimit (cid t : Nat) (s : State) : Host.Outcome State Fault Refusal := .next (s.rmaWaitLimit cid t)

/-- EDGE_WACK_RECEIVE (R670). -/
def execEdgeWackReceive (ep tag status : Nat) (s : State) : Host.Outcome State Fault Refusal := .next (s.edgeWack ep tag status)

/-- EDGE_RDATA_RECEIVE (R625). -/
def execEdgeRdataReceive (ep tag status : Nat) (bytes : List Byte) (poison : List Bool) (s : State) :
    Host.Outcome State Fault Refusal :=
  .next (s.edgeRdata ep tag status bytes poison)

end Sys2Proof.Machine
end

