-- ==== Sys2Proof/Machine/Ckp.lean ====
section
/-! DEFINITION. Checkpoints (R510 to R540): requests, page differences, the buddy's image and landing area, digests,
shard records, drains and restores. -/

namespace Sys2Proof.Machine

/-- An address lies in slice `n`'s memory, and is aligned. -/
def State.ckpAddrOk (s : State) (n a k align : Nat) : Bool := a % align = 0 && s.inSlice n a k

/-- Members of slice `n`'s job by part, each once, in order. -/
def State.memberParts (s : State) (n : Nat) : List Nat := ((s.job n).members.map (fun m => m.part)).eraseDups

/-- The other parts of slice `n`'s job. -/
def State.otherParts (s : State) (n : Nat) : List Nat := (s.memberParts n).filter (fun p => p ≠ s.partId)

/-! ### Requests (R515 to R518) -/

/-- Records boundary `b` among the pending requests. -/
def State.ckpRecord (s : State) (n b : Nat) : State :=
  let c := s.ckpOf n
  if c.reqs.contains b then s else s.setCkp n { c with reqs := c.reqs ++ [b] }

/-- May boundary `b` be requested (R517)? -/
def State.ckpRoom (s : State) (n b : Nat) : Bool := (s.ckpOf n).reqs.contains b || (s.ckpOf n).reqs.length < 8

/-- Records `b` and sends the request to every other member (R516). -/
def State.ckpRequestAll (s : State) (n b : Nat) : State :=
  (s.otherParts n).foldl (fun s p => (List.range 4).foldl (fun s k =>
    if (s.job n).members.any (fun m => m.part = p && m.slice = k) then s.emit (.ckpRequest p k b) else s) s) (s.ckpRecord n b)

/-- A failure warning of a slice (R515, R518, R421). -/
def State.failureWarning (s : State) (n : Nat) : State :=
  let c := s.ckpOf n
  let b := s.stepCtr n + 2
  if (s.job n).memb ≠ 1 ∨ c.warned ∨ !s.ckpRoom n b then s
  else ((s.setCkp n { c with warned := true }).ckpRequestAll n b).event Reg.CKP_EVT 0

/-- CHECKPOINT at ARG (R515, R517). -/
def State.ckpCheckpoint (s : State) (n : Nat) : State :=
  let b := s.stepOf (Reg.CKP_ARG_LO n) (Reg.CKP_ARG_HI n)
  if s.rf (Reg.CKP_ARG_HI n) 31 16 ≠ 0 then s.ckpStat n 0x01B0
  else if b < s.stepCtr n + 2 then s.ckpStat n 0x01B1
  else if (s.job n).memb ≠ 1 then s.ckpStat n 0x02B0
  else if !s.ckpRoom n b then s.ckpStat n 0x03B0
  else (s.ckpRequestAll n b).ckpStat n 0

/-- Another member's request for boundary `b` (R516, R517). -/
def State.ckpRequestIn (s : State) (n b : Nat) : State :=
  if !(s.job n).isOpen then s
  else if s.ckpRoom n b then (s.ckpRecord n b).emit (.ckpRequestAck n b 0) else s.emit (.ckpRequestAck n b 0x03B0)

/-! ### Page differences (R527, R529) -/

/-- The XOR of two pages by offset. -/
def xorPage (a b : SMap Byte) : SMap Byte :=
  (a ++ b).foldl (fun m e => store 0 m e.1 (fetch 0 a e.1 ^^^ fetch 0 b e.1)) []

/-- Maximal runs of zero and of other bytes. -/
def runsOf : List Byte → List (Bool × List Byte)
  | [] => []
  | b :: bs =>
    match runsOf bs with
    | (z, r) :: rs => if z = (b = 0) then (z, b :: r) :: rs else (b = 0, [b]) :: (z, r) :: rs
    | [] => [(b = 0, [b])]

/-- The tokens of one run (R529). -/
def zrunTokens : Nat → Bool × List Byte → List Byte
  | 0, _ => []
  | f + 1, (z, r) =>
    if r = [] then []
    else
      let k := min 32768 r.length
      leBytes 2 (k - 1 + (if z then 0 else 32768)) ++ (if z then [] else r.take k) ++ zrunTokens f (z, r.drop k)

/-- The ZRUN body of a difference. -/
def zrunBody (bs : List Byte) : List Byte := (runsOf bs).flatMap (zrunTokens bs.length)

/-- The encoded difference of page `page` (R529). -/
def encodeDiff (page : Nat) (d : SMap Byte) : List Byte :=
  let bs := pageList d
  let z := zrunBody bs
  if z.length ≤ 65536 then record [(4, page), (1, 1), (3, z.length)] ++ z else record [(4, page), (1, 0), (3, 65536)] ++ bs

/-- The bytes that a ZRUN body stands for. -/
def zrunDecode : Nat → List Byte → List Byte
  | 0, _ => []
  | f + 1, bs =>
    if bs.length < 2 then []
    else
      let t := leAt bs 0 2
      let k := t % 32768 + 1
      if t < 32768 then List.replicate k 0 ++ zrunDecode f (bs.drop 2)
      else (bs.drop 2).take k ++ zrunDecode f (bs.drop (2 + k))

/-- The page differences of an object, one after another: page and XOR. -/
def decodeDiffs : Nat → List Byte → List (Nat × SMap Byte)
  | 0, _ => []
  | f + 1, bs =>
    if bs.length < 8 then []
    else
      let len := leAt bs 5 3
      let body := (bs.drop 8).take len
      let d := if byteAt bs 4 = 1 then zrunDecode body.length body else body
      (leAt bs 0 4, imgOf (d.take 65536) 0) :: decodeDiffs f (bs.drop (8 + len))

/-! ### The buddy's image and landing area (R514, R527 to R533) -/

/-- Address of page `page` of die `d` of the image, or of the state region a push goes to. -/
def State.imagePage (s : State) (toState : Bool) (d page : Nat) : Nat :=
  s.regionBase d (if toState then .state else .buddy) + 65536 * page

/-- Gives a page its content. -/
def State.setPage (s : State) (a : Nat) (m : SMap Byte) : State :=
  m.foldl (fun s e => s.writeB (a + e.1) [e.2]) (s.zeroRange a 65536)

/-- XORs a difference into a page. -/
def State.xorInto (s : State) (a : Nat) (d : SMap Byte) : State :=
  d.foldl (fun s e => s.writeB (a + e.1) [s.byte (a + e.1) ^^^ e.2]) s

def State.setImage (s : State) (n : Nat) (i : Option HeldImage) : State := s.setCkp n { s.ckpOf n with image := i }

/-- The landing area of die `d` of slice `n`: base and bytes (R528). -/
def State.landArea (s : State) (n d : Nat) : Nat × Nat :=
  (s.regionBase d .stage + (s.rd (Reg.CKP_LAND_LO n)).toNat + 2 ^ 32 * s.rf (Reg.CKP_LAND_HI n) 7 0,
   s.rf (Reg.CKP_LAND_SIZE n) 15 0 * 2 ^ 20)

/-- The lowest offset at which `len` bytes fit among the differences landed on a die. -/
def landFit (ls : List Landed) (die len size : Nat) : Option Nat :=
  let mine := ls.filter (fun l => l.die = die)
  let cand := 0 :: mine.map (fun l => l.off + l.len)
  let ok := cand.filter (fun o => o + len ≤ size && mine.all (fun l => o + len ≤ l.off || l.off + l.len ≤ o))
  ok.foldl (fun best o => match best with
    | none => some o
    | some b => some (min b o)) none

/-- A landed difference that R530 frees next: drained and no longer retained, and then undrained and older. -/
def HeldImage.freeable (i : HeldImage) (die : Nat) : Option Landed :=
  let old := i.landed.filter (fun l => l.die = die && some l.step ≠ i.step && l.step ≠ i.pushStep)
  (old.find? (fun l => l.drained)).or (old.find? (fun l => !l.drained))

/-- Frees room for `len` bytes on die `die` (R530): the image, the place found, and the undrained differences freed. -/
def landRoom (die len size : Nat) : Nat → HeldImage → HeldImage × Option Nat × Nat
  | 0, i => (i, none, 0)
  | f + 1, i =>
    match landFit i.landed die len size with
    | some o => (i, some o, 0)
    | none =>
      match i.freeable die with
      | none => (i, none, 0)
      | some l =>
        let r := landRoom die len size f { i with landed := i.landed.erase l, broken := i.broken || !l.drained }
        (r.1, r.2.1, r.2.2 + bit (!l.drained))

/-- The image that slice `n` holds of a shard, a fresh one where it holds none. -/
def State.imageOf (s : State) (n part slice : Nat) : HeldImage :=
  match (s.ckpOf n).image with
  | some i => if i.part = part ∧ i.slice = slice then i else { part, slice }
  | none => { part, slice }

/-- A push for `step` begins, unless it runs already. -/
def HeldImage.beginPush (i : HeldImage) (step : Nat) (toState : Bool) : HeldImage :=
  if i.pushStep = step ∧ i.cond ≠ .complete then i
  else match i.cond with
    | .complete => { i with cond := .mid, pushStep := step, covered := true, toState }
    | .mid => { i with cond := .invalid, pushStep := step, covered := false, toState,
                       landed := i.landed.filter (fun l => l.step ≠ i.pushStep) }
    | _ => { i with pushStep := step, covered := false, toState }

/-- Does slice `n` take the pushes of this shard: its buddy in the Pattern (R513), or the replacement of its part (R559)? -/
def State.takesPush (s : State) (n part slice : Nat) (toState : Bool) : Bool :=
  if toState then part = s.partId && slice = n
  else s.pat.buddies.any (fun b => b.part = part && b.slice = slice && b.bPart = s.partId && b.bSlice = n)

/-- A pushed page arrives (R527, R530). -/
def State.pageArrive (s : State) (n : Nat) (p : PushedPage) : State :=
  if !s.hasSlice n ∨ s.sliceState n = 6 ∨ 2 ≤ (s.job n).memb ∨ !s.takesPush n p.part p.slice p.toState ∨
      !(s.diesOf n).contains p.die ∨ s.regionSize p.die .state ≤ 65536 * p.page then s
  else
    let i := (s.imageOf n p.part p.slice).beginPush p.step p.toState
    let a := s.imagePage p.toState p.die p.page
    let new := p.bytes.foldl (fun m e => store 0 m (e.1 % 65536) e.2) ([] : SMap Byte)
    let d := xorPage (s.pageBytes (a / 65536)) new
    if d = [] then s.setImage n (some i)
    else
      let enc := encodeDiff p.page d
      let area := s.landArea n p.die
      let r : HeldImage × Option Nat × Nat := if i.cond = .torn then (i, none, 0) else landRoom p.die enc.length area.2 (i.landed.length + 1) i
      let s := s.countN Ctr.CKP_CHAIN_BREAK r.2.2
      let s := match r.2.1 with
        | some o =>
          let l : Landed := ⟨p.die, p.page, p.step, o, enc.length, d, false⟩
          ((s.writeB (area.1 + o) enc).countN Ctr.CKP_LANDED enc.length).setImage n (some { r.1 with landed := r.1.landed ++ [l] })
        | none =>
          let i := { r.1 with cond := if r.1.cond = ImageCond.invalid then ImageCond.invalid else ImageCond.torn, covered := false }
          (if r.1.cond = ImageCond.torn ∨ r.1.cond = ImageCond.invalid then s else s.event Reg.CKP_EVT 2).setImage n (some i)
      s.setPage a new

/-- XORs the landed differences of one step back into the image (R532, R549). -/
def State.undoStep (s : State) (i : HeldImage) (step : Nat) : State :=
  (i.landed.filter (fun l => l.step = step)).foldl (fun s l => s.xorInto (s.imagePage i.toState l.die l.page) l.diff) s

/-- The region digest of a die by the content of memory at `base` (R534). -/
def State.digestAt (s : State) (base size : Nat) : List Byte :=
  sha3x256 ((List.range' (base / 65536) (size / 65536)).flatMap (fun g => pageDigest (s.pageBytes g)))

/-- The owner's region digests arrive at the buddy (R531, R532). -/
def State.pushDigests (s : State) (n part slice step : Nat) (ds : List (Nat × List Byte)) : State :=
  if !s.hasSlice n ∨ s.sliceState n = 6 ∨ 2 ≤ (s.job n).memb ∨
      !s.takesPush n part slice ((s.ckpOf n).image.any (fun i => i.toState)) then s
  else
    let i := s.imageOf n part slice
    let i := i.beginPush step i.toState
    let ok := (s.diesOf n).all (fun d => ds.contains (d, s.digestAt (s.imagePage i.toState d 0) (s.regionSize d .state)))
    if ok then
      let i := { i with cond := .complete, prev := if i.cond = .mid && i.covered then i.step else none, step := some step }
      (s.setImage n (some i)).emit (.ckpAnswer part slice step true)
    else
      let s := s.emit (.ckpAnswer part slice step false)
      let rest := i.landed.filter (fun l => l.step ≠ step)
      if i.cond = .mid && i.covered then
        (s.undoStep i step).setImage n (some { i with cond := .complete, landed := rest })
      else ((if i.cond = .invalid then s else s.event Reg.CKP_EVT 2)).setImage n (some { i with cond := .invalid, landed := rest })

/-! ### Shard records (R538, R539) -/

/-- The signed bytes of slice `n`'s shard record for a confirmed push (R538). -/
def State.recordBody (s : State) (n : Nat) (c : Confirm) : List Byte :=
  let j := s.job n
  let b := s.buddyOf n
  let regions := c.sums.flatMap (fun e => record [(1, e.1), (7, 0), (8, s.regionSize e.1 .state)] ++ fitBytes 32 e.2)
  fitBytes 256 (record [(2, 1), (1, s.rf Reg.GLB_CONTRACT 7 0), (1, bit c.full), (4, c.ckpEpoch), (6, c.step), (2, c.membEpoch),
    (2, s.partId), (2, s.partId), (1, n), (1, c.sums.length), (2, match b with
      | some b => b.1 + 2 ^ 15
      | none => 0), (8, j.seed), (2, j.stitches - 1),
    (6, s.addrOf (Reg.OPT_TBL_LO n) (Reg.OPT_TBL_HI n)), (2, s.rf (Reg.OPT_CNT n) 12 0), (2, s.rf (Reg.OPT_CNT n) 26 16),
    (4, j.members.length), (16, 0)] ++ regions)

/-- A shard record with its two signatures (R538, R539). -/
def State.shardRecord (s : State) (n : Nat) (c : Confirm) : List Byte :=
  let m := s.recordBody n c
  let signed := signContext "MZ-CKP-RECORD" ++ m
  m ++ fitBytes 64 (Config.signEd s.aliasKey signed) ++ fitBytes 3309 (Config.signMl s.aliasKey signed) ++ List.replicate 19 0

/-- The buddy reports that a push failed (R532): that checkpoint fails, and the next capture takes every page (R526). -/
def State.pushRefused (s : State) (n : Nat) (f : Confirm) : State :=
  let c := s.ckpOf n
  let s := s.setCkp n { c with confirming := c.confirming.erase f, full := true }
  ((s.ckpStat n 0x0702).count Ctr.CKP_FAILED).event Reg.CKP_EVT 1

/-- The owner hears from its buddy of the push of boundary `step` (R531, R532, R538). -/
def State.pushConfirm (s : State) (n step : Nat) (ok : Bool) : State :=
  let c := s.ckpOf n
  match c.confirming.find? (fun f => f.step = step) with
  | none => s
  | some f =>
    if !ok then s.pushRefused n f
    else
      let s := (s.setCkp n { c with confirming := c.confirming.erase f, noBuddy := false }).emit (.shardRecord n (s.shardRecord n f))
      let s := s.wr (Reg.CKP_LAST_LO n) (BitVec.ofNat 32 step)
      (s.wr (Reg.CKP_LAST_HI n) (BitVec.ofNat 32 (2 ^ 31 + step / 2 ^ 32 % 65536))).count Ctr.CKP_TAKEN

/-! ### Drains (R535 to R537) -/

/-- A drain object: its header and its page differences (R537). -/
def drainBytes (step part slice die prev : Nat) (full : Bool) (diffs : List (Nat × SMap Byte)) : List Byte :=
  let body := diffs.flatMap (fun e => encodeDiff e.1 e.2)
  record [(6, step), (2, part), (1, slice + 16 * die), (1, bit full), (6, prev), (8, body.length), (40, 0)] ++ body

/-- The pages of die `d` of the image that are not all zero. -/
def State.imagePages (s : State) (i : HeldImage) (d : Nat) : List (Nat × SMap Byte) :=
  let b := s.imagePage i.toState d 0
  let gs := ((s.mem.filter (fun e => b ≤ e.1 && e.1 < b + s.regionSize d .state)).map (fun e => e.1 / 65536)).eraseDups
  gs.map (fun g => (g - b / 65536, s.pageBytes g))

/-- The differences of a step on die `d`, ordered by page. -/
def HeldImage.diffs (i : HeldImage) (step d : Nat) : List (Nat × SMap Byte) :=
  (i.landed.filter (fun l => l.step = step && l.die = d)).foldl (fun m l => insertAt m l.page l.diff) []

/-- The buddy drains the difference of the shard record's step, or a FULL object of its image (R535, R537); `ok` is false
where the RMA connection fails. -/
def State.depotDrain (s : State) (n : Nat) (rec : List Byte) (ok : Bool) : State :=
  match (s.ckpOf n).image with
  | none => s
  | some i =>
    let step := leAt rec 8 6
    let s := s.setImage n (some { i with record := rec })
    if s.rf (Reg.CKP_CFG n) 16 16 = 0 ∨ i.cond = .invalid ∨ i.cond = .torn ∨ i.step.all (fun k => k < step) ∨
        (i.chain.any (fun k => step ≤ k)) then s
    else if !ok then
      ((s.setImage n (some { i with record := rec, broken := true })).ckpStat n 0x0703).event Reg.CKP_EVT 1
    else
      let every := s.rf (Reg.CKP_CFG n) 31 24
      let full := i.broken || (every ≠ 0 && (i.drains + 1) % every = 0)
      if full ∧ (i.step ≠ some step ∨ i.cond ≠ .complete) then s
      else
        let conn := s.rf (Reg.CKP_DEPOT n) 17 0
        let key := (s.rd (Reg.CKP_DEPOT_KEY n)).toNat
        let prev := if full then step else i.chain.getD step
        let objs := (s.diesOf n).map (fun d => drainBytes step i.part i.slice d prev full (if full then s.imagePages i d else i.diffs step d))
        let s := objs.foldl (fun s o => (s.emit (.drainObject conn key o)).countN Ctr.CKP_DRAINED o.length) (s.emit (.drainObject conn key rec))
        let i := { i with record := rec, broken := false, drains := i.drains + 1, chain := some step,
                          landed := i.landed.map (fun l => if l.step ≤ step then { l with drained := true } else l) }
        let s := s.wr (Reg.CKP_DRAIN_LO n) (BitVec.ofNat 32 step)
        (s.wr (Reg.CKP_DRAIN_HI n) (BitVec.ofNat 32 (2 ^ 31 + step / 2 ^ 32 % 65536))).setImage n (some i)

/-! ### Restore (R562 to R567) -/

/-- A refused restore sets RESTORE_FAIL where its status is 0x0704 to 0x0707. -/
def State.restoreFail (s : State) (n st : Nat) : State :=
  let s := (s.ckpStat n st).wf (Reg.CKP_STAT n) 31 31 0
  if 0x0704 ≤ st ∧ st ≤ 0x0707 then s.event Reg.CKP_EVT 7 else s

/-- The status of a restore plan at `a` with record `r`, in the order of R564. -/
def State.planStatus (s : State) (n a : Nat) (r : List Byte) : Nat :=
  let j := s.job n
  let key := if leAt r 18 2 = s.partId then s.aliasKey else Config.aliasKeys (leAt r 18 2)
  let signed := signContext "MZ-CKP-RECORD" ++ r.take 256
  let ds := s.diesOf n
  if !(Config.verifyEd key signed ((r.drop 256).take 64) && Config.verifyMl key signed ((r.drop 320).take 3309)) then 0x04B0
  else if leAt r 2 1 ≠ s.rf Reg.GLB_CONTRACT 7 0 then 0x0231
  else if leAt r 8 6 ≠ s.le a 6 ∨ (j.isOpen ∧ (leAt r 24 8 ≠ j.seed ∨ leAt r 32 2 + 1 ≠ j.stitches)) ∨ leAt r 21 1 ≠ ds.length ∨
      ((List.range ds.length).any (fun k => leAt r (64 + 48 * k) 1 ≠ ds.getD k 0 ||
        leAt r (72 + 48 * k) 8 ≠ s.regionSize (ds.getD k 0) .state)) then 0x0706
  else if s.le (a + 12) 1 = 1 ∧ (s.le (a + 8) 4 = 0 ∨ s.le (a + 64 + 3648 + 12) 1 ≠ 1) then 0x0705
  else 0

/-- RESTORE of the plan at SRC (R563, R564). -/
def State.ckpRestore (s : State) (n : Nat) : State :=
  let a := s.addrOf (Reg.CKP_SRC_LO n) (Reg.CKP_SRC_HI n)
  let m := (s.job n).memb
  if !s.ckpAddrOk n a 3712 64 ∨ !s.inSlice n a (3712 + 16 * s.le (a + 8) 4) then s.ckpStat n 0x01B2
  else if m ≠ 0 ∧ m ≠ 5 ∧ m ≠ 6 then s.ckpStat n 0x02B0
  else
    let r := s.bytes (a + 64) 3648
    let st := s.planStatus n a r
    if st ≠ 0 then s.restoreFail n st
    else
      let s := s.setJob n { s.job n with memb := 6 }
      let s := s.setCkp n { s.ckpOf n with
        restoring := some (s.le a 6), planRecord := r, planDepot := s.le (a + 12) 1 = 1, verified := false,
        planKinds := (List.range (s.le (a + 8) 4)).map (fun i => s.le (a + 3712 + 16 * i + 12) 1) }
      (s.ckpStat n 0).wf (Reg.CKP_STAT n) 31 31 1

/-- A write of CKP_Sn_CMD. -/
def State.ckpCmdWrite (s : State) (n : Nat) (v : Word) : State :=
  let s := s.wr (Reg.CKP_CMD n) (v &&& 3)
  if fieldOf v 31 31 = 0 then s
  else if fieldOf v 30 2 ≠ 0 then s.ckpStat n 0x01B0
  else match fieldOf v 1 0 with
    | 1 => s.ckpCheckpoint n
    | 2 => s.ckpRestore n
    | _ => s.ckpStat n 0x01B0

/-- Do the objects of die `d`, in order, begin with a FULL one and name each its forerunner (R564)? -/
def chainOk : Option Nat → List (List Byte) → Bool
  | _, [] => true
  | none, o :: os => byteAt o 9 = 1 && chainOk (some (leAt o 0 6)) os
  | some p, o :: os => leAt o 10 6 = p && chainOk (some (leAt o 0 6)) os

/-- The objects of one die. -/
def objectsOf (d : Nat) (os : List (List Byte)) : List (List Byte) := os.filter (fun o => bitsOf (byteAt o 8) 5 4 = d)

/-- Rebuilds die `d`'s state region from a chain of objects, or from the buddy's image (R565). -/
def State.rebuildDie (s : State) (n d : Nat) (os : List (List Byte)) (imgs : List (Nat × List (Nat × Byte))) : State :=
  let b := s.regionBase d .state
  let s := s.zeroRange b (s.regionSize d .state)
  if (s.ckpOf n).planDepot then
    (objectsOf d os).foldl (fun s o => (decodeDiffs o.length (o.drop 64)).foldl (fun s e => s.xorInto (b + 65536 * e.1) e.2) s) s
  else
    ((imgs.find? (fun e => e.1 = d)).map (fun e => e.2)).getD [] |>.foldl (fun s e => s.writeB (b + e.1) [e.2]) s

/-- The regions of a restore have been fetched: they are rebuilt and checked (R564, R565). -/
def State.restoreRebuild (s : State) (n : Nat) (os : List (List Byte)) (imgs : List (Nat × List (Nat × Byte))) : State :=
  let c := s.ckpOf n
  let ds := s.diesOf n
  if c.restoring = none ∨ c.verified ∨ (c.planDepot ∧ os.length ≠ c.planKinds.length) then s
  else if c.planDepot ∧ ds.any (fun d => objectsOf d os = [] || !chainOk none (objectsOf d os)) then s.restoreFail n 0x0705
  else
    let s := ds.foldl (fun s d => s.rebuildDie n d os imgs) s
    let bad := ((List.range ds.length).zip ds).filter (fun e =>
      s.digestAt (s.regionBase e.2 .state) (s.regionSize e.2 .state) ≠ (c.planRecord.drop (80 + 48 * e.1)).take 32)
    if bad = [] then (s.setCkp n { s.ckpOf n with verified := true }).wf (Reg.CKP_STAT n) 31 31 0
    else (bad.foldl (fun s e => s.zeroRange (s.regionBase e.2 .state) (s.regionSize e.2 .state)) s).restoreFail n 0x0704

/-! ### Commands -/

/-- CKP_CHECKPOINT (R517). -/
def execCkpCheckpoint (via : Via) (n : Nat) (v : Word) (s : State) : Host.Outcome State Fault Refusal :=
  .next (s.gated via n (fun s => s.ckpCmdWrite n v))

/-- CKP_RESTORE (R564). -/
def execCkpRestore (via : Via) (n : Nat) (v : Word) (s : State) : Host.Outcome State Fault Refusal :=
  .next (s.gated via n (fun s => s.ckpCmdWrite n v))

/-- CHECKPOINT_REQUEST (R516). -/
def execCheckpointRequest (n boundary : Nat) (s : State) : Host.Outcome State Fault Refusal := .next (s.ckpRequestIn n boundary)

/-- CHECKPOINT_CAPTURE (R521, R522): the copy that a capture waits for ends, and the capture takes place. -/
def execCheckpointCapture (n : Nat) (s : State) : Host.Outcome State Fault Refusal :=
  .next (if (s.ckpOf n).waiting.isSome then s.drainCopy n else s)

/-- The background copy reads die `d`'s next PEND page (R523); with none left on the slice the copy ends. -/
def State.backgroundCopy (s : State) (d : Nat) : State :=
  let n := s.sliceOfDie d
  if (s.ckpOf n).copying.isNone then s
  else
    let s := match (s.pendPages n).find? (fun e => e.1 = d) with
      | some e => s.capturePage e.1 e.2
      | none => s
    if s.pendPages n = [] then s.endCopy n else s

/-- BACKGROUND_PAGE_COPY (R523). -/
def execBackgroundPageCopy (die : Nat) (s : State) : Host.Outcome State Fault Refusal := .next (s.backgroundCopy die)

/-- COPY_BEFORE_WRITE (R524): the page that a stalled write to `addr` waits for is read. -/
def execCopyBeforeWrite (addr : Nat) (s : State) : Host.Outcome State Fault Refusal :=
  .next (match s.statePage (addr / 65536) with
    | some d => if fetch false s.pend (addr / 65536) then (s.capturePage d (addr / 65536)).count Ctr.CKP_CBW_STALL else s
    | none => s)

/-- PAGE_ARRIVE (R527). -/
def execPageArrive (n : Nat) (p : PushedPage) (s : State) : Host.Outcome State Fault Refusal := .next (s.pageArrive n p)

/-- PUSH_DIGESTS_RECEIVE (R531). -/
def execPushDigestsReceive (n part slice step : Nat) (digests : List (Nat × List (BitVec 8))) (s : State) :
    Host.Outcome State Fault Refusal := .next (s.pushDigests n part slice step digests)

/-- DEPOT_DRAIN (R535). -/
def execDepotDrain (n : Nat) (shardRec : List (BitVec 8)) (ok : Bool) (s : State) : Host.Outcome State Fault Refusal :=
  .next (s.depotDrain n shardRec ok)

/-- RESTORE_REBUILD_DONE (R565). -/
def execRestoreRebuildDone (n : Nat) (objects : List (List (BitVec 8))) (images : List (Nat × List (Nat × BitVec 8))) (s : State) :
    Host.Outcome State Fault Refusal := .next (s.restoreRebuild n objects images)

end Sys2Proof.Machine
end

