-- ==== Sys2Proof/Machine/Memb.lean ====
section
/-! DEFINITION. Membership (R541 to R569): keepalives and suspicion, agreement, the commit of a membership, resume steps,
promotion and handover, and withdrawal (R313, R314). -/

namespace Sys2Proof.Machine

/-! ### Watching (R541, R542) -/

/-- Keys of State.suspects: a part, a part that has withdrawn, an attached endpoint, and an endpoint of another part. -/
def withdrawnKey (p : Nat) : Nat := 2 ^ 17 + p
def endpointKey (e : Nat) : Nat := 2 ^ 16 + e
def farEndpointKey (p e : Nat) : Nat := 2 ^ 18 + 64 * p + e

def State.setSuspect (s : State) (k : Nat) (b : Bool) : State := { s with suspects := store false s.suspects k b }

/-- Does this part suspect part `p` (R542)? -/
def State.suspected (s : State) (p : Nat) : Bool := fetch false s.suspects p || fetch false s.suspects (withdrawnKey p)

/-- The endpoints that this part suspects: its own, and those reported to it (R543). -/
def State.lostEps (s : State) : List (Nat × Nat) :=
  ((List.range' 1 48).filter (fun e => fetch false s.suspects (endpointKey e))).map (fun e => (s.partId, e)) ++
  (s.suspects.filter (fun x => 2 ^ 18 ≤ x.1)).map (fun x => ((x.1 - 2 ^ 18) / 64, (x.1 - 2 ^ 18) % 64))

/-- The coordinator of slice `n`'s job: its lowest member that this part does not suspect (R543). -/
def State.coordinator (s : State) (n : Nat) : Nat :=
  ((s.memberParts n).filter (fun p => p = s.partId || !s.suspected p)).foldl min s.partId

/-- Sets slice `n`'s membership state. -/
def State.setMemb (s : State) (n x : Nat) : State := s.setJob n { s.job n with memb := x }

/-! ### The copies this part holds (R549) -/

/-- Copies that an image is. -/
def HeldImage.copies (i : HeldImage) : List CopyAt :=
  let at' (k : Option Nat) : List CopyAt := k.toList.map (fun k => ⟨i.part, i.slice, k⟩)
  match i.cond with
  | .complete => at' i.step ++ (if i.prev.any (fun _ => i.landed.any (fun l => some l.step = i.step)) then at' i.prev else [])
  | .mid => if i.covered then at' i.step else []
  | _ => []

/-- The copies that slice `n` reports: its live state, and its image; a restoring slice its verified shard (R566). -/
def State.copies (s : State) (n : Nat) : List CopyAt :=
  let c := s.ckpOf n
  let live : List CopyAt := if (s.job n).isOpen && c.restoring.isNone then
      [⟨s.partId, n, s.stepCtr n⟩] ++ (match c.promo with
        | some p => [⟨p.part, p.slice, s.stepCtr n⟩]
        | none => [])
    else if c.verified then c.restoring.toList.map (fun k => ⟨s.partId, n, k⟩) else []
  live ++ (match c.image with
    | some i => i.copies
    | none => [])

/-! ### Agreement (R543 to R547) -/

/-- Slice `n` enters QUORUM_LOST or EXCLUDED (R546). -/
def State.loseQuorum (s : State) (n x st : Nat) : State :=
  let s := (s.setMemb n x).setCkp n { s.ckpOf n with prop := none, lead := none }
  (s.event Reg.CKP_EVT 5).reportStatus n st 0

/-- May this slice accept the proposal: a restore only with its regions verified (R566)? -/
def State.mayAccept (s : State) (n : Nat) (p : Proposal) : Bool := !p.restore || (s.ckpOf n).verified

/-- Slice `n` accepts a proposal: it enters HOLD (R544). -/
def State.enterHold (s : State) (n : Nat) (p : Proposal) : State :=
  (s.setMemb n 2).setCkp n { s.ckpOf n with round := p.round, prop := some p }

/-- More than half of the parts of the current membership (R545)? -/
def State.majority (s : State) (n k : Nat) : Bool := (s.memberParts n).length < 2 * k

/-- This part proposes to `parts` as coordinator of slice `n`'s job (R543, R545); without a majority it enters
QUORUM_LOST and tells the parts it can reach, by a commit of no members (R546). -/
def State.lead (s : State) (n : Nat) (parts : List Nat) (resume : Option Nat) (restore : Bool) : State :=
  let c := s.ckpOf n
  let p : Proposal := ⟨c.round + 1, ((s.job n).epoch + 1) % 65536, parts, s.lostEps, resume, restore⟩
  if !s.majority n parts.length then
    (parts.filter (fun q => q ≠ s.partId)).foldl (fun s q => s.emit (.commit q ⟨p.epoch, none, s.partId, [], [], [], false, false⟩))
      (s.loseQuorum n 3 0x0660)
  else
    let own := s.copies n
    let s := s.enterHold n p
    let s := s.setCkp n { s.ckpOf n with lead := some ⟨p, [(s.partId, own)]⟩ }
    (parts.filter (fun q => q ≠ s.partId)).foldl (fun s q => s.emit (.propose q p)) s

/-- The members that this part does not suspect. -/
def State.unsuspected (s : State) (n : Nat) : List Nat := (s.memberParts n).filter (fun p => p = s.partId || !s.suspected p)

/-- Does slice `n`'s job take part in agreement: open, and neither without a quorum nor excluded (R546)? -/
def State.agrees (s : State) (n : Nat) : Bool := (s.job n).isOpen && (s.job n).memb ≠ 3 && (s.job n).memb ≠ 4

/-- A suspicion reaches the coordinator: it proposes (R543), or this part reports to the coordinator. -/
def State.raiseSuspicion (s : State) (n part : Nat) (ep : Option Nat) : State :=
  if !s.agrees n then s
  else if s.coordinator n = s.partId then s.lead n (s.unsuspected n) none false
  else s.emit (.suspicion (s.coordinator n) part ep)

/-- This part suspects part `part`, or its own endpoint `ep` (R542, R543). -/
def State.suspect (s : State) (part : Nat) (ep : Option Nat) (key : Nat) : State :=
  if fetch false s.suspects key then s
  else
    let s := (s.setSuspect key true).event Reg.CKP_EVT 3
    (List.range s.sliceCount).foldl (fun s n =>
      if (s.memberParts n).contains part then s.raiseSuspicion n part ep else s) s

/-- A watched part, or an endpoint, has been silent for DETECT_MS (R542). -/
def State.suspectTimeout (s : State) (part : Nat) (ep : Option Nat) : State :=
  match ep with
  | none => if s.pat.watch.contains part then s.suspect part none part else s
  | some e => if part = s.partId ∧ bitOf (s.rd (Reg.SWT_EP_HI (e - 1))).toNat 31 then s.suspect part (some e) (endpointKey e) else s

/-- Another member's report: the coordinator takes up the suspicion and proposes, unless a proposal that knows of it is
out (R543). -/
def State.suspectReport (s : State) (n part : Nat) (ep : Option Nat) : State :=
  if !s.agrees n ∨ !(s.memberParts n).contains part then s
  else
    let key := match ep with
      | none => part
      | some e => if part = s.partId then endpointKey e else farEndpointKey part e
    let known := fetch false s.suspects key
    let s := if known then s else (s.setSuspect key true).event Reg.CKP_EVT 3
    if s.coordinator n = s.partId ∧ !(known ∧ (s.ckpOf n).lead.isSome) then s.lead n (s.unsuspected n) none false else s

/-- PROPOSE (R544). -/
def State.proposeIn (s : State) (n coord : Nat) (p : Proposal) : State :=
  let c := s.ckpOf n
  if !(s.job n).isOpen && c.restoring.isNone then s
  else if p.round ≤ c.round ∨ !s.mayAccept n p then s.emit (.refuse coord p.round)
  else
    let s := (s.enterHold n p).emit (.accept coord p.round (s.copies n))
    s.setCkp n { s.ckpOf n with lead := none }

/-- The newest step at which every shard has a copy (R549). -/
def resumeStep (shards : List Member) (cs : List CopyAt) : Option Nat :=
  let steps := (cs.map (fun c => c.step)).filter (fun k => shards.all (fun m => cs.any (fun c => c.part = m.part && c.slice = m.slice && c.step = k)))
  steps.foldl (fun best k => match best with
    | none => some k
    | some b => some (max b k)) none

/-- The part that holds the copy at `r` of a shard, by the accepts. -/
def holderOf (accepts : List (Nat × List CopyAt)) (m : Member) (r : Nat) : Option Nat :=
  (accepts.find? (fun a => a.2.any (fun c => c.part = m.part && c.slice = m.slice && c.step = r))).map (fun a => a.1)

/-- The commit message of a complete agreement (R545, R548, R549). -/
def State.commitOf (s : State) (n : Nat) (l : Lead) : Commit :=
  let ms := (s.job n).members
  let shards := (s.job n).shards
  let cs := l.accepts.flatMap (fun a => a.2)
  let r := match l.prop.resume with
    | some k => some k
    | none => resumeStep shards cs
  let lost := shards.filter (fun m => !l.prop.parts.contains m.part)
  let held := lost.filterMap (fun m => (r.bind (holderOf l.accepts m)).map (fun h => (h, m)))
  let entry (p : Nat) : PartEntry := match (held.find? (fun h => h.1 = p && ms.contains h.2)).or (held.find? (fun h => h.1 = p)) with
    | some h => ⟨p, !l.prop.parts.contains p, true, h.2.part, h.2.slice⟩
    | none => ⟨p, !l.prop.parts.contains p, false, 0, 0⟩
  { epoch := l.prop.epoch, resume := r, coord := s.partId, entries := (s.memberParts n).map entry, lostEps := l.prop.lostEps,
    members := (ms.filter (fun m => l.prop.parts.contains m.part)).map (fun m => (m.part, m.slice)),
    restore := l.prop.restore, handover := l.prop.resume.isSome && !l.prop.restore }

/-- The members that a proposal of this coordinator left out although it does not suspect them, so that they learn of the
commit (R546). DEDUCED, log 109. -/
def State.leftOut (s : State) (n : Nat) (p : Proposal) : List Nat :=
  if p.restore then [] else (s.unsuspected n).filter (fun q => !p.parts.contains q)

/-- An answer to this coordinator's proposal (R545, R566). -/
def State.acceptIn (s : State) (n part round : Nat) (copies : List CopyAt) (ok : Bool) : State :=
  match (s.ckpOf n).lead with
  | none => s
  | some l =>
    if l.prop.round ≠ round ∨ !l.prop.parts.contains part ∨ l.accepts.any (fun a => a.1 = part) then s
    else if !ok then
      if l.prop.restore then
        let c : Commit := ⟨l.prop.epoch, none, s.partId, [], [], [], true, false⟩
        let s := s.setCkp n { s.ckpOf n with lead := none }
        l.prop.parts.foldl (fun s p => s.emit (.commit p c)) s
      else s
    else
      let l := { l with accepts := l.accepts ++ [(part, copies)] }
      if l.prop.parts.all (fun p => l.accepts.any (fun a => a.1 = p)) && s.majority n l.prop.parts.length then
        let s := s.setCkp n { s.ckpOf n with lead := none }
        let c := s.commitOf n l
        (l.prop.parts ++ s.leftOut n l.prop).foldl (fun s p => s.emit (.commit p c)) s
      else s.setCkp n { s.ckpOf n with lead := some l }

/-- Accepts are missing after AGREE_MS / 2: the next round goes to the members that answered (R545, R546). -/
def State.agreeTimeout (s : State) (n : Nat) : State :=
  match (s.ckpOf n).lead with
  | none => s
  | some l =>
    let parts := l.prop.parts.filter (fun p => l.accepts.any (fun a => a.1 = p))
    if parts.length = l.prop.parts.length then s
    else (s.setCkp n { s.ckpOf n with lead := none }).lead n parts l.prop.resume l.prop.restore

/-- A member in HOLD has heard nothing for AGREE_MS (R547): it suspects the coordinator that is silent, and proposes
itself or reports. -/
def State.holdTimeout (s : State) (n : Nat) : State :=
  if (s.job n).memb ≠ 2 ∨ (s.ckpOf n).lead.isSome then s
  else
    let c := s.coordinator n
    let s := if c = s.partId then s else (s.setSuspect c true).event Reg.CKP_EVT 3
    s.raiseSuspicion n c none

/-! ### Commit (R548 to R552, R561, R567) -/

/-- The membership record (R548). -/
def memRecord (m : Commit) (resume : Nat) (rollback : Bool) : List Byte :=
  fitBytes 64 (record [(2, m.epoch), (6, resume), (2, m.coord), (2, m.entries.length), (2, m.lostEps.length), (1, bit rollback)]) ++
  m.entries.flatMap (fun e => leBytes 8 (e.part + 2 ^ 16 * bit e.lost + 2 ^ 17 * bit e.holder + 2 ^ 20 * e.shardPart + 2 ^ 34 * e.shardSlice)) ++
  m.lostEps.flatMap (fun e => leBytes 4 (e.1 + 2 ^ 16 * e.2))

/-- Writes the membership record at MREC, and reports the change to the slice (R548). -/
def State.writeMembership (s : State) (n : Nat) (m : Commit) (resume : Nat) (rollback : Bool) : State :=
  let a := s.addrOf (Reg.CKP_MREC_LO n) (Reg.CKP_MREC_HI n)
  let bs := memRecord m resume rollback
  let s := if a % 64 = 0 ∧ s.inSlice n a bs.length then s.writeB a bs else s
  let s := (s.event Reg.CKP_EVT 4).count Ctr.CKP_MEMB_CHANGE
  let s := if rollback then s.count Ctr.CKP_ROLLBACK else s
  s.report n 4 0 s.now (record [(2, m.epoch), (6, resume), (1, bit rollback)])

/-- Replaces the live shard of slice `n` by its buddy's copy (R551). -/
def State.rollBack (s : State) (n : Nat) (copies : List (Nat × List (Nat × Byte))) : State :=
  (s.diesOf n).foldl (fun s d =>
    let b := s.regionBase d .state
    (((copies.find? (fun e => e.1 = d)).map (fun e => e.2)).getD []).foldl (fun s e => s.writeB (b + e.1) [e.2])
      (s.zeroRange b (s.regionSize d .state))) s

/-- Discards the captures, pushes and requests of steps above `r` (rollback); the next capture takes every page (R526). -/
def State.dropCaptures (s : State) (n r : Nat) : State :=
  let mine (g : Nat) : Bool := (s.statePage g).any (fun d => s.sliceOfDie d == n)
  let c := s.ckpOf n
  let s := { s with pend := s.pend.filter (fun e => !mine e.1), push := s.push.filter (fun p => s.sliceOfDie p.die ≠ n) }
  s.setCkp n { c with reqs := c.reqs.filter (fun b => b ≤ r), waiting := none, copying := none, full := true,
                      confirming := c.confirming.filter (fun f => f.step ≤ r) }

/-- Brings the image to step `r` where it holds that copy (R549, R551, R552). -/
def State.imageTo (s : State) (n r : Nat) : State :=
  match (s.ckpOf n).image with
  | none => s
  | some i =>
    if i.cond = .mid ∧ i.covered ∧ i.step = some r then
      (s.undoStep i i.pushStep).setImage n (some { i with cond := .complete, landed := i.landed.filter (fun l => l.step ≠ i.pushStep) })
    else if i.cond = .complete ∧ i.step ≠ some r ∧ i.prev = some r then
      match i.step with
      | some k => (s.undoStep i k).setImage n (some { i with step := some r, prev := none, landed := i.landed.filter (fun l => l.step ≠ k) })
      | none => s
    else s

/-- Promotes slice `n`'s image of a lost shard (R552, R554): the place of its parameter blocks is a free value. -/
def State.promote (s : State) (n r : Nat) : State :=
  let s := s.imageTo n r
  match (s.ckpOf n).image with
  | none => s
  | some i =>
    let p : Promo := ⟨i.part, i.slice, leAt i.record 34 6 % 2 ^ 40, leAt i.record 40 2, leAt i.record 42 2, s.freeBits 40⟩
    (s.useFree).setCkp n { s.ckpOf n with image := none, promo := some p }

/-- At the handover the promoted regions become a complete buddy image at `r` again (R561). -/
def State.handOver (s : State) (n r : Nat) (members : List (Nat × Nat)) : State :=
  match (s.ckpOf n).promo with
  | some p =>
    if members.contains (p.part, p.slice) then
      let i : HeldImage := { part := p.part, slice := p.slice, cond := .complete, step := some r }
      s.setCkp n { s.ckpOf n with promo := none, image := some i }
    else s
  | none => match (s.ckpOf n).image with
    | some i => if i.toState then s.setImage n none else s
    | none => s

/-- What a commit does to the buddy relations: the buddy gone fails a running push (R533), a new one asks for a full
capture (R526). -/
def State.rebuddy (s : State) (n : Nat) (old : List Member) : State :=
  let had := match s.buddyOf n with
    | some b => old.any (fun m => m.part = b.1 && m.slice = b.2)
    | none => false
  let has := s.buddyThere n
  let c := s.ckpOf n
  if has then
    if had then s else s.setCkp n { c with full := true }
  else
    let s := s.setCkp n { c with noBuddy := true }
    if c.copying.isSome ∨ c.confirming ≠ [] then s.failPush n 0x0701 else s

/-- A restore is committed (R567). -/
def State.restored (s : State) (n : Nat) : State :=
  let c := s.ckpOf n
  let img := c.image.map (fun i => { i with cond := .invalid, step := none, prev := none, landed := [] })
  let s := if c.image.isSome then s.event Reg.CKP_EVT 2 else s
  s.setCkp n { c with restoring := none, verified := false, epoch := leAt c.planRecord 4 4, image := img, full := true }

/-- A refused restore ends: what was restored is zeroed, and the slice stays RESTORING (R566). -/
def State.restoreAborted (s : State) (n : Nat) : State :=
  let s := (s.diesOf n).foldl (fun s d => s.zeroRange (s.regionBase d .state) (s.regionSize d .state)) s
  let s := (s.setMemb n 6).setCkp n { s.ckpOf n with verified := false, prop := none, lead := none }
  (s.restoreFail n 0x0707).reportStatus n 0x0707 0

/-- A membership is committed on slice `n` (R548). -/
def State.commitMembership (s : State) (n : Nat) (m : Commit) (copies : List (Nat × List (Nat × Byte))) : State :=
  let c := s.ckpOf n
  let old := (s.job n).members
  let k := s.stepCtr n
  if (!(s.job n).isOpen ∧ c.restoring.isNone) ∨ c.committed = some m.epoch then s
  else if m.restore ∧ m.resume.isNone then s.restoreAborted n
  else if m.members = [] then s.loseQuorum n 3 0x0660
  else if !m.members.contains (s.partId, n) then s.loseQuorum n 4 0x0661
  else
    let s := s.setCkp n { c with committed := some m.epoch, prop := none, lead := none }
    let s := (s.abandonColls n).feedsStop n
    let j := s.job n
    let s := s.setJob n { j with
      epoch := m.epoch, members := m.members.map (fun x => ⟨x.1, x.2⟩), memb := if m.resume.isSome then 1 else 5,
      shards := if m.restore ∧ m.resume.isSome then m.members.map (fun x => ⟨x.1, x.2⟩) else j.shards,
      waiting := false, atBoundary := false }
    let s := m.members.foldl (fun s x => s.setSuspect x.1 false) s
    match m.resume with
    | none =>
      let s := s.writeMembership n m k false
      ((s.ckpStat n 0x0708).event Reg.CKP_EVT 6).reportStatus n 0x0708 0
    | some r =>
      let rollback := r < k && !m.restore
      let s := s.setStep n r
      let s := { s with tws := { s.tws with failed := s.tws.failed.filter (fun f => f.1 ≠ n || f.2.1 < r) } }
      let s := s.setJob n { s.job n with tallies := (s.job n).tallies.filter (fun t => t.step < r) }
      let s := if rollback then ((s.rollBack n copies).dropCaptures n r).imageTo n r else s
      let holds := m.entries.any (fun e => e.part = s.partId && e.holder && (s.ckpOf n).image.any (fun i => i.part = e.shardPart && i.slice = e.shardSlice))
      let s := if holds then s.promote n r else s
      let s := if m.handover then s.handOver n r m.members else s
      let s := if m.restore then s.restored n else s
      (s.rebuddy n old).writeMembership n m r rollback

/-! ### Withdrawal (R313, R314) -/

/-- Spindle withdraws this part from slice `n`'s job (R314). -/
def State.withdraw (s : State) (n : Nat) : State :=
  if (s.job n).isOpen then (s.otherParts n).foldl (fun s p => s.emit (.withdraw p n)) s else s

/-- A change of membership that keeps every member, reported to slice `n`'s job after a row was lost (R313). -/
def State.rowMembership (s : State) (n : Nat) : State :=
  if (s.job n).isOpen then
    if s.coordinator n = s.partId then s.lead n (s.unsuspected n) none false else s.emit (.suspicion (s.coordinator n) s.partId none)
  else s

/-- The membership state that CKP_MEMB shows: of the lowest slice that holds a job or a membership state. -/
def State.membView (s : State) : Word :=
  match (List.range s.sliceCount).find? (fun n => (s.job n).isOpen || (s.job n).memb ≠ 0) with
  | some n => BitVec.ofNat 32 (65536 * (s.job n).epoch + (s.job n).memb)
  | none => 0

/-- The holder's push to a replacement has completed: the coordinator proposes the handover (R561). -/
def State.proposeHandover (s : State) (n step : Nat) : State :=
  match (s.ckpOf n).promo with
  | some p => if (s.memberParts n).contains p.part ∧ s.coordinator n = s.partId then s.lead n (s.unsuspected n) (some step) false else s
  | none => s

/-! ### Commands -/

/-- PUSH_CONFIRM (R538, R561). -/
def execPushConfirm (n step : Nat) (ok : Bool) (s : State) : Host.Outcome State Fault Refusal :=
  .next (let t := s.pushConfirm n step ok
    if ok && (s.ckpOf n).confirming.any (fun f => f.step = step) then t.proposeHandover n step else t)

/-- KEEPALIVE_SEND (R541): a keepalive goes to each watched part; a part unheard since the last period is a miss. -/
def execKeepaliveSend (s : State) : Host.Outcome State Fault Refusal :=
  .next { s.pat.watch.foldl (fun s p => (if s.heard.contains p then s else s.count Ctr.CKP_KA_MISS).emit (.keepalive p)) s with heard := [] }

/-- A keepalive of `part`, or its answer to one, has arrived (R541, R542): only a keepalive is answered. -/
def State.keepaliveIn (s : State) (part : Nat) (reply : Bool) : State :=
  let s := { s with heard := if s.heard.contains part then s.heard else s.heard ++ [part] }.setSuspect part false
  if reply then s else s.emit (.keepaliveAck part)

/-- KEEPALIVE_RECEIVE (R541). -/
def execKeepaliveReceive (part : Nat) (reply : Bool) (s : State) : Host.Outcome State Fault Refusal := .next (s.keepaliveIn part reply)

/-- SUSPECT_TIMEOUT (R542). -/
def execSuspectTimeout (part : Nat) (ep : Option Nat) (s : State) : Host.Outcome State Fault Refusal := .next (s.suspectTimeout part ep)

/-- SUSPECT_REPORT (R543). -/
def execSuspectReport (n part : Nat) (ep : Option Nat) (s : State) : Host.Outcome State Fault Refusal := .next (s.suspectReport n part ep)

/-- PROPOSE_RECEIVE (R544). -/
def execProposeReceive (n coord : Nat) (p : Proposal) (s : State) : Host.Outcome State Fault Refusal := .next (s.proposeIn n coord p)

/-- ACCEPT_RECEIVE (R545). -/
def execAcceptReceive (n part round : Nat) (copies : List CopyAt) (ok : Bool) (s : State) : Host.Outcome State Fault Refusal :=
  .next (s.acceptIn n part round copies ok)

/-- AGREE_TIMEOUT (R545). -/
def execAgreeTimeout (n : Nat) (s : State) : Host.Outcome State Fault Refusal := .next (s.agreeTimeout n)

/-- HOLD_TIMEOUT (R547). -/
def execHoldTimeout (n : Nat) (s : State) : Host.Outcome State Fault Refusal := .next (s.holdTimeout n)

/-- MEMBERSHIP_COMMIT (R548). -/
def execMembershipCommit (n : Nat) (m : Commit) (copies : List (Nat × List (Nat × BitVec 8))) (s : State) :
    Host.Outcome State Fault Refusal := .next (s.commitMembership n m copies)

/-- WITHDRAWAL_ANNOUNCE (R314, R542): another member has withdrawn from slice `n`'s job. -/
def execWithdrawalAnnounce (n part : Nat) (s : State) : Host.Outcome State Fault Refusal :=
  .next (if (s.memberParts n).contains part then s.suspect part none (withdrawnKey part) else s)

end Sys2Proof.Machine
end

