-- ==== Sys2Proof/Machine/NeedleDecode.lean ====
section
/-! DEFINITION. Decoding a needle instruction word: which mnemonic it is, and whether its fields are legal (R329 to
R331, and the tables of R337, R351, R387 and the matrix functions). -/

namespace Sys2Proof.Machine

/-- The needle mnemonics. -/
inductive Mn where
  | aluAdd | aluSub | aluAnd | aluOr | aluXor | aluShl | aluShr | aluSar | mul | mulhu | mulhs | mins | maxs | minu
  | maxu | cmp | mov | popc | clz | addi | cmpi | movz | movk | andi | ori | xori | shli | shri | sari | ldb | ldh
  | ldw | ldd | stb | sth | stw | std | vld | vst | pld | pst | vadd | vsub | vmul | vmax | vmin | vabs | vneg | vmov
  | vand | vor | vxor | vshl | vshr | vsar | bCc | call | rep | repn | chkb | sset | sget | draw | drawe | sdef | srd
  | vfma | vcmp | vsel | vcvt | vbcst | vext | vxch | gauge | pcvt | padd | pfin | tally | pmov | pzero | mld | mma
  | mclr | mrd | mst | nop | endRow | safe | ret | rtt | rttNext | fclr | br | mfs | drst | waitb | waitt | fence
  | trap
  deriving DecidableEq, Repr

/-- The ALU functions in the order of R337. -/
def aluTable : List Mn :=
  [.aluAdd, .aluSub, .aluAnd, .aluOr, .aluXor, .aluShl, .aluShr, .aluSar, .mul, .mulhu,
   .mulhs, .mins, .maxs, .minu, .maxu, .cmp, .mov, .popc, .clz]

/-- Opcodes 0x02 to 0x0B (R330). -/
def immTable : List Mn := [.addi, .cmpi, .movz, .movk, .andi, .ori, .xori, .shli, .shri, .sari]

/-- Opcodes 0x10 to 0x1B (R330). -/
def memTable : List Mn := [.ldb, .ldh, .ldw, .ldd, .stb, .sth, .stw, .std, .vld, .vst, .pld, .pst]

/-- The vector operations in the order of R351. -/
def vopTable : List Mn :=
  [.vadd, .vsub, .vmul, .vmax, .vmin, .vabs, .vneg, .vmov, .vand, .vor, .vxor, .vshl, .vshr, .vsar]

/-- The CTL functions 0x000 to 0x00C in the order of R387. -/
def ctlTable : List Mn :=
  [.nop, .endRow, .safe, .ret, .rtt, .rttNext, .fclr, .br, .mfs, .drst, .waitb, .waitt, .fence]

/-- The MTX functions. -/
def mtxTable : List Mn := [.mld, .mma, .mclr, .mrd, .mst]

/-- The mnemonic of a word; none for a reserved opcode or function (R330, R331). -/
def mnOf (w : Nat) : Option Mn :=
  let o := opc w
  if 0x02 ≤ o ∧ o ≤ 0x0B then immTable[o - 2]?
  else if 0x10 ≤ o ∧ o ≤ 0x1B then memTable[o - 0x10]?
  else match o with
    | 0x01 => aluTable[bitsOf w 5 0]?
    | 0x20 => some .bCc
    | 0x21 => some .call
    | 0x22 => if 0x40 ≤ fX w ∧ fX w ≤ 0x7F then some .trap else ctlTable[fX w]?
    | 0x23 => some .rep
    | 0x24 => some .repn
    | 0x25 => some .chkb
    | 0x28 => some .sset
    | 0x29 => some .sget
    | 0x2A => some .draw
    | 0x2B => some .drawe
    | 0x2D => some .sdef
    | 0x2E => some .srd
    | 0x30 => vopTable[bitsOf w 7 0]?
    | 0x31 => some .vfma
    | 0x32 => some .vcmp
    | 0x33 => some .vsel
    | 0x34 => some .vcvt
    | 0x35 => some .vbcst
    | 0x36 => some .vext
    | 0x37 => some .vxch
    | 0x38 => some .gauge
    | 0x39 => some .pcvt
    | 0x3A => some .padd
    | 0x3B => some .pfin
    | 0x3C => some .tally
    | 0x3D => if bitOf w 0 then some .pzero else some .pmov
    | 0x3E => mtxTable[bitsOf w 10 8]?
    | _ => none

/-- Lanes of a vector format (R331). -/
def vLanes (f : Nat) : Nat := match f with | 0 => 8 | 1 => 16 | 2 => 32 | 3 => 32 | _ => 8

/-- Lane width in bits. -/
def vWidth (f : Nat) : Nat := 256 / vLanes f

/-- Terms of a v register in a raw FORMAT (R357). -/
def fmtTerms (code : Nat) : Nat := match code with | 0 => 8 | 1 => 16 | _ => 32

/-- Is lane group `q` inside a FORMAT's terms? A ply FORMAT is left to PLY_OPERAND. -/
def groupOk (code q : Nat) : Bool := code ≥ 7 || 8 * q + 8 ≤ fmtTerms code

/-- k of a ply memory or register instruction: 1 to 3. -/
def kOk (k : Nat) : Bool := 1 ≤ k && k ≤ 3

/-- Are the fields of a word legal for its mnemonic, in a row with program `m` of kind `kind`, in handler mode or not
(R331, R369, R376, R388, R389)? -/
def legal (m : SMap Byte) (kind : Nat) (hm : Bool) (mn : Mn) (w : Nat) : Bool :=
  let z (hi lo : Nat) : Bool := bitsOf w hi lo = 0
  let tOk (t : Nat) : Bool := t < tensorCnt m
  match mn with
  | .aluAdd | .aluSub | .aluAnd | .aluOr | .aluXor | .aluShl | .aluShr | .aluSar | .mul | .mulhu | .mulhs | .mins
  | .maxs | .minu | .maxu | .mov | .popc | .clz => z 10 6
  | .cmp => z 10 6 && z 25 21
  | .addi | .andi | .ori | .xori => true
  | .cmpi => z 25 21
  | .movz | .movk => z 20 18
  | .shli | .shri | .sari => z 15 6
  | .ldb | .ldh | .ldw | .ldd | .stb | .sth | .stw | .std | .vld | .vst => bitsOf w 20 17 ≤ 8
  | .pld | .pst => bitsOf w 20 17 ≤ 8 && kOk (bitsOf w 25 24)
  | .bCc => true
  | .call => bitsOf w 25 16 < imgLe m 16 2 && z 15 15
  | .rep => z 22 0
  | .repn => z 22 8
  | .chkb => bitsOf w 20 17 ≤ 8 && z 16 16 && z 7 0 && bitsOf w 10 8 ≤ 5
  | .sset => fD w ≤ 7 && z 10 0
  | .sget => fA w ≤ 7 && z 15 11 && z 10 1
  | .draw => z 15 11 && z 10 2 && bitsOf w 1 0 < imgLe m 21 1
  | .drawe => z 15 11 && z 10 6 && tOk (bitsOf w 5 0)
  | .sdef => bitsOf w 24 21 ≤ 7 && z 5 0
  | .srd => z 20 11 && z 10 1
  | .vadd | .vsub | .vmul | .vmax | .vmin => bitsOf w 10 8 ≤ 4
  | .vabs | .vneg | .vmov => bitsOf w 10 8 ≤ 4 && z 15 11
  | .vand | .vor | .vxor | .vshl | .vshr | .vsar => bitsOf w 10 8 = 4
  | .vfma => bitsOf w 5 3 ≤ 4 && z 2 0
  | .vcmp => bitsOf w 10 8 ≤ 4 && z 7 4 && bitsOf w 3 0 ≤ 5
  | .vsel => bitsOf w 5 3 ≤ 4 && z 2 0
  | .vcvt => bitsOf w 10 8 ≤ 4 && bitsOf w 7 5 ≤ 4 && z 0 0 && z 15 11 &&
      8 * bitsOf w 4 3 + 8 ≤ vLanes (bitsOf w 10 8) && 8 * bitsOf w 2 1 + 8 ≤ vLanes (bitsOf w 7 5)
  | .vbcst => bitsOf w 10 8 ≤ 4 && z 7 0 && z 15 11
  | .vext => bitsOf w 10 8 ≤ 4 && z 7 5 && z 15 11 && bitsOf w 4 0 < vLanes (bitsOf w 10 8)
  | .vxch => z 10 0
  | .gauge => tOk (bitsOf w 10 5) && z 4 0 && z 15 11
  | .pcvt => fD w ≤ 7 && tOk (bitsOf w 15 10) && z 2 0 && groupOk (attrIn (tensorAttr m (bitsOf w 15 10))) (bitsOf w 4 3)
  | .padd => fD w ≤ 7 && fA w ≤ 7 && fB w ≤ 7 && kOk (bitsOf w 10 9) && z 8 0
  | .pfin =>
    let f := attrOut (tensorAttr m (bitsOf w 17 12))
    tOk (bitsOf w 17 12) && (if isMx f then z 1 0 else groupOk f (bitsOf w 1 0))
  | .tally =>
    let t := bitsOf w 19 14
    tOk t && z 3 0 && (if bitOf w 20 then z 8 7 && fD w ≤ 7 else groupOk (attrOut (tensorAttr m t)) (bitsOf w 8 7))
  | .pmov => fD w ≤ 7 && fA w ≤ 7 && z 15 11 && kOk (bitsOf w 10 9) && z 8 1
  | .pzero => fD w ≤ 7 && z 20 11 && kOk (bitsOf w 10 9) && z 8 1
  | .mld => fD w ≤ 1 && 1 ≤ bitsOf w 7 5 && bitsOf w 7 5 ≤ 3 && bitsOf w 4 1 ≤ 8 && z 0 0
  | .mma => z 25 21 && z 7 0
  | .mclr => z 25 11 && z 7 0
  | .mrd => z 20 11 && z 7 5 && z 1 0
  | .mst => z 25 21 && z 15 11 && z 7 5 && bitsOf w 4 1 ≤ 8 && z 0 0
  | .nop | .endRow | .ret | .rtt | .rttNext | .fclr | .fence | .trap => z 25 11
  | .safe => z 25 11 && kind ≠ 4 && !hm
  | .waitb => z 25 11 && !(kind = 4 && hm)
  | .br => z 25 21 && z 15 11
  | .mfs => z 20 16 && fB w ≤ 0x0F
  | .drst => z 25 13
  | .waitt => z 25 21

/-- Is the mnemonic row-collective in a row of kind `kind` (R380, R388)? -/
def isCollective (kind : Nat) : Mn → Bool
  | .safe | .vxch | .mld | .mma | .mclr | .mst => true
  | .waitb => kind = 4
  | _ => false

/-- May a repeat prefix run the mnemonic (R347)? -/
def repeatable : Mn → Bool
  | .bCc | .call | .rep | .repn | .sset | .sdef | .vxch | .mld | .mma | .mclr | .mst => false
  | .nop | .endRow | .safe | .ret | .rtt | .rttNext | .fclr | .br | .mfs | .drst | .waitb | .waitt | .fence | .trap => false
  | _ => true

/-- The positions that are whole register fields, as STEP bits: 4 for [25:21], 2 for [20:16], 1 for [15:11] (R346, R347). -/
def regFields : Mn → Nat
  | .cmp => 3
  | .addi | .andi | .ori | .xori | .shli | .shri | .sari => 6
  | .cmpi => 2
  | .movz | .movk | .ldb | .ldh | .ldw | .ldd | .stb | .sth | .stw | .std | .vld | .vst | .srd | .pfin | .tally | .pzero | .mrd => 4
  | .chkb => 5
  | .sget | .draw | .drawe | .vabs | .vneg | .vmov | .vcvt | .vbcst | .vext | .gauge | .pcvt | .pmov => 6
  | .pld | .pst => 0
  | _ => 7

/-- The g registers that a word names (R347). -/
def gNamed (mn : Mn) (w : Nat) : List Nat :=
  match mn with
  | .aluAdd | .aluSub | .aluAnd | .aluOr | .aluXor | .aluShl | .aluShr | .aluSar | .mul | .mulhu | .mulhs | .mins
  | .maxs | .minu | .maxu => [fD w, fA w, fB w]
  | .cmp => [fA w, fB w]
  | .mov | .popc | .clz | .addi | .andi | .ori | .xori | .shli | .shri | .sari | .draw | .drawe => [fD w, fA w]
  | .cmpi | .vbcst => [fA w]
  | .movz | .movk | .vcmp | .vext | .gauge | .sget => [fD w]
  | .ldb | .ldh | .ldw | .ldd | .stb | .sth | .stw | .std => [fD w, bitsOf w 16 12]
  | .vld | .vst | .pld | .pst => [bitsOf w 16 12]
  | .chkb => [fD w, fB w]
  | .vsel => [bitsOf w 10 6]
  | .pcvt => [bitsOf w 9 5]
  | .pfin => [bitsOf w 11 7, bitsOf w 6 2]
  | .tally => [bitsOf w 13 9]
  | _ => []

end Sys2Proof.Machine
end

