-- ==== Sys2Proof/Machine/NeedleScalar.lean ====
section
/-! DEFINITION. The scalar, memory, segment, generator and stream instructions of a needle (R330 to R338, R369 to R379). -/

namespace Sys2Proof.Machine

/-- ALU functions (R337, R338). -/
def opAlu (mn : Mn) (w : Nat) (s : State) (n : Needle) : NRes :=
  let a := n.gv (fA w)
  let b := n.gv (fB w)
  let pz := n.gp (fA w) || n.gp (fB w)
  let d := fD w
  let m := n.mark pz
  let arith (x : Nat × Bool × Bool) : NRes := .ok s ((m.setG d x.1 pz).flagArith x)
  let logic (r : Nat) : NRes := .ok s (((m.setG d r pz).flagZN r).flagCV false false)
  let shift (k : Nat) : NRes :=
    let x := shift64 k a (b % 64)
    .ok s (((m.setG d x.1 pz).flagZN x.1).flagCV x.2 false)
  let plain (r : Nat) : NRes := .ok s ((m.setG d r pz).flagZN r)
  let one (r : Nat) : NRes := .ok s (((n.mark (n.gp (fA w))).setG d r (n.gp (fA w))).flagZN r)
  match mn with
  | .aluAdd => arith (addFlags a b)
  | .aluSub => arith (subFlags a b)
  | .aluAnd => logic (a &&& b)
  | .aluOr => logic (a ||| b)
  | .aluXor => logic (a ^^^ b)
  | .aluShl => shift 0
  | .aluShr => shift 1
  | .aluSar => shift 2
  | .mul => plain (a * b % 2 ^ 64)
  | .mulhu => plain (a * b / 2 ^ 64)
  | .mulhs => plain (unsigned 64 (sg64 a * sg64 b / (2 ^ 64 : Nat)))
  | .mins => plain (if sg64 a ≤ sg64 b then a else b)
  | .maxs => plain (if sg64 a ≤ sg64 b then b else a)
  | .minu => plain (min a b)
  | .maxu => plain (max a b)
  | .cmp => .ok s (m.flagArith (subFlags a b))
  | .mov => one a
  | .popc => one (popCount 64 a)
  | _ => one (64 - (if a = 0 then 0 else Nat.log2 a + 1))

/-- Immediate instructions, opcodes 0x02 to 0x0B (R330). -/
def opImm (mn : Mn) (w : Nat) (s : State) (n : Needle) : NRes :=
  let a := n.gv (fA w)
  let pz := n.gp (fA w)
  let d := fD w
  let m := n.mark pz
  let logic (r : Nat) : NRes := .ok s (((m.setG d r pz).flagZN r).flagCV false false)
  let shift (k : Nat) : NRes :=
    let x := shift64 k a (bitsOf w 5 0)
    .ok s (((m.setG d x.1 pz).flagZN x.1).flagCV x.2 false)
  let hw := bitsOf w 17 16
  match mn with
  | .addi => let x := addFlags a (simm16 w); .ok s ((m.setG d x.1 pz).flagArith x)
  | .cmpi => .ok s (m.flagArith (subFlags a (simm16 w)))
  | .movz => .ok s (n.setG d (fImm16 w <<< (16 * hw)) false)
  | .movk => .ok s ((n.mark (n.gp d)).setG d (putBits (n.gv d) (16 * hw + 15) (16 * hw) (fImm16 w)) (n.gp d))
  | .andi => logic (a &&& fImm16 w)
  | .ori => logic (a ||| fImm16 w)
  | .xori => logic (a ^^^ fImm16 w)
  | .shli => shift 0
  | .shri => shift 1
  | _ => shift 2

/-- The offset of a memory instruction: gB plus the immediate times the scale, and times the iteration in a repeat (R334, R346). -/
def memOff (c : Ctx) (w scale : Nat) (n : Needle) : Nat :=
  unsigned 64 ((n.gv (bitsOf w 16 12) : Int) + signed 12 (bitsOf w 11 0) * scale * c.k)

/-- Bytes that a scalar or vector memory instruction moves. -/
def memSize : Mn → Nat
  | .ldb | .stb => 1
  | .ldh | .sth => 2
  | .ldw | .stw => 4
  | .ldd | .std => 8
  | _ => 32

/-- Poison of four 8-byte words as the mask of a v register's quarters. -/
def tagMask : List Bool → Nat
  | [] => 0
  | b :: bs => bit b + 2 * tagMask bs

/-- LDB, LDH, LDW, LDD and VLD (R322, R334, R335). -/
def opLoad (mn : Mn) (c : Ctx) (ecc : Ecc) (w : Nat) (s : State) (n : Needle) : NRes :=
  let z := memSize mn
  trapIf (n.gp (bitsOf w 16 12)) 0x09 0 <|
  match s.nAddr (rowDie c.l) n (bitsOf w 20 17) (memOff c w z n) z z false with
  | .bad cause addr => .trap cause addr
  | a =>
    let n := n.markUe a z ecc.ue
    let x := leNat (s.nBytes n a z)
    let t := s.nTags n a z
    let n := n.mark (t.any id)
    .ok s (if mn = .vld then n.setV (fD w) x (tagMask t) else n.setG (fD w) x (t.any id))

/-- STB, STH, STW, STD and VST (R322, R334, R335). -/
def opStore (mn : Mn) (c : Ctx) (w : Nat) (s : State) (n : Needle) : NRes :=
  let z := memSize mn
  trapIf (n.gp (bitsOf w 16 12)) 0x09 0 <|
  match s.nAddr (rowDie c.l) n (bitsOf w 20 17) (memOff c w z n) z z true with
  | .bad cause addr => .trap cause addr
  | a =>
    let x :=
      if mn = .vst then
        nStoreWords s (n.mark (n.vp (fD w) ≠ 0)) a
          ((List.range 4).map (fun q => (bitsOf (n.vv (fD w)) (64 * q + 63) (64 * q), bitOf (n.vp (fD w)) q)))
      else nStore s (n.mark (n.gp (fD w))) a (leBytes z (n.gv (fD w))) (n.gp (fD w))
    .ok x.1 x.2

/-- Is `r` a legal k-ply operand (R356)? -/
def plyOperand (r k : Nat) : Bool := k ≠ 0 && r % k = 0 && r + k ≤ 8

/-- Is a ply element POISON? -/
def elPoison (ws : List Nat) : Bool := plyKind ws == .poison

/-- PLD.k (R335): 8 elements of k words in the order of R184; an element with a marked word is POISON. -/
def opPld (c : Ctx) (ecc : Ecc) (w : Nat) (s : State) (n : Needle) : NRes :=
  let k := bitsOf w 25 24
  let d := bitsOf w 23 21
  trapIf (n.gp (bitsOf w 16 12)) 0x09 0 <|
  match s.nAddr (rowDie c.l) n (bitsOf w 20 17) (memOff c w 16 n) (64 * k) 16 false with
  | .bad cause addr => .trap cause addr
  | a =>
    trapIf (!plyOperand d k) 0x0D 0 <|
    let n := n.markUe a (64 * k) ecc.ue
    let ws := wordsLe (8 * k) (s.nBytes n a (64 * k))
    let ts := s.nTags n a (64 * k)
    .ok s ((List.range 8).foldl (fun n e =>
      let el := if ((ts.drop (k * e)).take k).any id then specialWords k spPoison else (ws.drop (k * e)).take k
      (n.setPly d e el).mark (elPoison el)) n)

/-- PST.k (R335). -/
def opPst (c : Ctx) (w : Nat) (s : State) (n : Needle) : NRes :=
  let k := bitsOf w 25 24
  let d := bitsOf w 23 21
  trapIf (n.gp (bitsOf w 16 12)) 0x09 0 <|
  match s.nAddr (rowDie c.l) n (bitsOf w 20 17) (memOff c w 16 n) (64 * k) 16 true with
  | .bad cause addr => .trap cause addr
  | a =>
    trapIf (!plyOperand d k) 0x0D 0 <|
    let els := (List.range 8).map (fun e => n.plyEl d k e)
    let x := nStoreWords s (n.mark (els.any elPoison)) a (els.flatten.map (fun x => (x, false)))
    .ok x.1 x.2

/-- CHKB (R336). -/
def opChkb (w : Nat) (s : State) (n : Needle) : NRes :=
  let sp := bitsOf w 20 17
  let lim := if sp = 8 then 98304 else segLimit (n.sv sp)
  let i := n.gv (fD w)
  trapIf (!(i < n.gv (fB w) && (i + 1) * 2 ^ bitsOf w 10 8 ≤ lim)) 0x08 i (.ok s (n.mark (n.gp (fD w) || n.gp (fB w))))

/-- SSET (R333). -/
def opSset (c : Ctx) (w : Nat) (s : State) (n : Needle) : NRes :=
  let x := n.gv (fA w) + 2 ^ 64 * n.gv (fB w)
  trapIf (!s.segOk (rowDie c.l) x) 0x07 (fD w)
    (.ok s { n.mark (n.gp (fA w) || n.gp (fB w)) with seg := store 0 n.seg (fD w) x })

/-- SGET. -/
def opSget (w : Nat) (s : State) (n : Needle) : NRes :=
  .ok s (n.setG (fD w) (n.sv (fA w) / 2 ^ (64 * bitsOf w 0 0)) false)

/-- DRAW (R369, R370). -/
def opDraw (c : Ctx) (w : Nat) (s : State) (n : Needle) : NRes :=
  let st := bitsOf w 1 0
  let k := fetch 0 n.draws st
  let gs := n.gv (fA w)
  let pz := n.gp (fA w)
  trapIf (k = 0xFFFFFF) 0x0F st <|
  .ok (s.seedUsed (s.rowSlice c.l))
    { (n.mark pz).setG (fD w) (gen (s.jobSeed (s.rowSlice c.l)) (gs / 65536) (imgLe c.m (24 + 4 * st) 3) (gs % 65536 * 2 ^ 24 + k)) pz
      with draws := store 0 n.draws st (k + 1) }

/-- DRAWE (R372). -/
def opDrawe (c : Ctx) (w : Nat) (s : State) (n : Needle) : NRes :=
  let k := s.rowSlice c.l
  let pz := n.gp (fA w)
  .ok (s.seedUsed k)
    ((n.mark pz).setG (fD w) (gen (s.jobSeed k) (s.stepCtr k) (tensorId c.m (bitsOf w 5 0)) (n.gv (fA w) % 2 ^ 40)) pz)

/-- SDEF (R376, R379). -/
def opSdef (w : Nat) (s : State) (n : Needle) : NRes :=
  let off := n.gv (fA w)
  let st := n.gv (fB w)
  let gc := bitsOf w 10 6
  trapIf (off % 32 ≠ 0 || st % 32 ≠ 0) 0x03 off <|
  .ok s { n.mark (n.gp (fA w) || n.gp (fB w) || n.gp gc) with
    streams := store none n.streams (bitsOf w 25 25) (some ⟨bitsOf w 24 21, off, sg64 st, n.gv gc, 0⟩) }

/-- SRD (R377, R378). -/
def opSrd (c : Ctx) (w : Nat) (s : State) (n : Needle) : NRes :=
  let f := bitsOf w 0 0
  match fetch none n.streams f with
  | none => .trap 0x11 f
  | some x =>
    if x.count ≤ x.next then .trap 0x11 f else
    match s.nAddr (rowDie c.l) n x.sp (unsigned 64 ((x.off : Int) + x.next * x.stride)) 32 32 false with
    | .bad cause addr => .trap cause addr
    | a =>
      let t := s.nTags n a 32
      .ok s ({ n.mark (t.any id) with streams := store none n.streams f (some { x with next := x.next + 1 }) }.setV (fD w)
        (leNat (s.nBytes n a 32)) (tagMask t))

end Sys2Proof.Machine
end

