-- ==== Sys2Proof/Machine/NeedleVector.lean ====
section
/-! DEFINITION. The vector and ply instructions of a needle (R351 to R368), and exact arithmetic on numbers. -/

namespace Sys2Proof.Machine

/-! ### Exact arithmetic on numbers (R352) -/

/-- A signed magnitude on the grid 2^g, for g at most its own exponent. -/
def onGrid (neg : Bool) (m : Nat) (e g : Int) : Int :=
  let x : Int := (m * 2 ^ (e - g).toNat : Nat)
  if neg then -x else x

/-- Exact sum. An exact zero sum is +0 unless both operands are -0. -/
def numAdd : Num → Num → Num
  | .fin n1 m1 e1, .fin n2 m2 e2 =>
    let g := min e1 e2
    let i := onGrid n1 m1 e1 g + onGrid n2 m2 e2 g
    .fin (if i = 0 then n1 && n2 else i < 0) i.natAbs g
  | .nan, _ => .nan
  | _, .nan => .nan
  | .poison, _ => .nan
  | _, .poison => .nan
  | .inf a, .inf b => if a = b then .inf a else .nan
  | .inf a, _ => .inf a
  | _, .inf b => .inf b

def numNeg : Num → Num
  | .fin n m e => .fin (!n) m e
  | .inf n => .inf (!n)
  | x => x

def numAbs : Num → Num
  | .fin _ m e => .fin false m e
  | .inf _ => .inf false
  | x => x

/-- Exact product; zero times infinity is NaN. -/
def numMul : Num → Num → Num
  | .fin n1 m1 e1, .fin n2 m2 e2 => .fin (n1 != n2) (m1 * m2) (e1 + e2)
  | .nan, _ => .nan
  | _, .nan => .nan
  | .poison, _ => .nan
  | _, .poison => .nan
  | .inf a, .inf b => .inf (a != b)
  | .inf a, .fin n m _ => if m = 0 then .nan else .inf (a != n)
  | .fin n m _, .inf b => if m = 0 then .nan else .inf (n != b)

/-- Order of two numbers, -0 equal to +0: -1, 0 or 1; none with a NaN. -/
def numCmp : Num → Num → Option Int
  | .fin n1 m1 e1, .fin n2 m2 e2 =>
    let g := min e1 e2
    some (Int.sign (onGrid n1 m1 e1 g - onGrid n2 m2 e2 g))
  | .nan, _ => none
  | _, .nan => none
  | .poison, _ => none
  | _, .poison => none
  | .inf a, .inf b => some (if a = b then 0 else if a then -1 else 1)
  | .inf a, _ => some (if a then -1 else 1)
  | _, .inf b => some (if b then 1 else -1)

/-- Is the sign of a number negative? -/
def numNegative : Num → Bool
  | .fin n _ _ => n
  | .inf n => n
  | _ => false

/-- Larger (or, with `lo`, smaller) of two numbers; -0 orders below +0, and a NaN gives NaN. -/
def numMax (lo : Bool) (a b : Num) : Num :=
  match numCmp a b with
  | none => .nan
  | some c =>
    let bLarger := c < 0 || (c = 0 && numNegative a)
    if bLarger = lo then a else b

/-! ### Lanes -/

/-- Lane `i` of a 256-bit value in a vector format. -/
def lane (f v i : Nat) : Nat := bitsOf v (vWidth f * i + vWidth f - 1) (vWidth f * i)

/-- A lane as a number, in a floating-point vector format. -/
def laneNum (f x : Nat) : Num := decodeFloat (fmtOf f) x

/-- A number rounded into a lane (R352). -/
def numLane (f : Nat) (x : Num) : Nat := roundTo (fmtOf f) false none x

/-- The value whose lanes, lane 0 first, are given. -/
def ofLanes (width : Nat) : List Nat → Nat
  | [] => 0
  | x :: xs => x % 2 ^ width + 2 ^ width * ofLanes width xs

/-- A 32-bit lane as a signed integer. -/
def sg32 (x : Nat) : Int := signed 32 x

/-- One lane of a two-operand operation (R351 to R353). -/
def laneOp (mn : Mn) (f a b : Nat) : Nat :=
  if f = 4 then
    match mn with
    | .vadd => (a + b) % 2 ^ 32
    | .vsub => (a + 2 ^ 32 - b) % 2 ^ 32
    | .vmul => a * b % 2 ^ 32
    | .vmax => if sg32 a ≤ sg32 b then b else a
    | .vmin => if sg32 a ≤ sg32 b then a else b
    | .vabs => if bitOf a 31 then (2 ^ 32 - a) % 2 ^ 32 else a
    | .vneg => (2 ^ 32 - a) % 2 ^ 32
    | .vand => a &&& b
    | .vor => a ||| b
    | .vxor => a ^^^ b
    | .vshl => (a <<< (b % 32)) % 2 ^ 32
    | .vshr => a >>> (b % 32)
    | .vsar => unsigned 32 (sg32 a / (2 ^ (b % 32) : Nat))
    | _ => a
  else
    let x := laneNum f a
    let y := laneNum f b
    match mn with
    | .vadd => numLane f (numAdd x y)
    | .vsub => numLane f (numAdd x (numNeg y))
    | .vmul => numLane f (numMul x y)
    | .vmax => numLane f (numMax false x y)
    | .vmin => numLane f (numMax true x y)
    | .vabs => numLane f (numAbs x)
    | .vneg => numLane f (numNeg x)
    | _ => a

/-- A register built lane by lane. -/
def mapLanes (f : Nat) (g : Nat → Nat) : Nat := ofLanes (vWidth f) ((List.range (vLanes f)).map g)

/-- VOP (R351): poison goes quarter by quarter. -/
def opVop (mn : Mn) (w : Nat) (s : State) (n : Needle) : NRes :=
  let f := bitsOf w 10 8
  let unary := mn = .vabs || mn = .vneg || mn = .vmov
  let pz := n.vp (fA w) ||| (if unary then 0 else n.vp (fB w))
  .ok s ((n.mark (pz ≠ 0)).setV (fD w) (mapLanes f (fun i => laneOp mn f (lane f (n.vv (fA w)) i) (lane f (n.vv (fB w)) i))) pz)

/-- VFMA: one rounding (R330). -/
def opVfma (w : Nat) (s : State) (n : Needle) : NRes :=
  let f := bitsOf w 5 3
  let c := bitsOf w 10 6
  let pz := n.vp (fA w) ||| n.vp (fB w) ||| n.vp c
  let g (i : Nat) : Nat :=
    let a := lane f (n.vv (fA w)) i
    let b := lane f (n.vv (fB w)) i
    let x := lane f (n.vv c) i
    if f = 4 then (a * b + x) % 2 ^ 32 else numLane f (numAdd (numMul (laneNum f a) (laneNum f b)) (laneNum f x))
  .ok s ((n.mark (pz ≠ 0)).setV (fD w) (mapLanes f g) pz)

/-- A comparison condition on an order (R354). -/
def condHolds (cond : Nat) : Option Int → Bool
  | none => cond = 1
  | some c =>
    match cond with
    | 0 => c = 0
    | 1 => c ≠ 0
    | 2 => c < 0
    | 3 => c ≤ 0
    | 4 => 0 < c
    | _ => 0 ≤ c

/-- The order of two lanes. -/
def laneCmp (f a b : Nat) : Option Int :=
  if f = 4 then some (Int.sign (sg32 a - sg32 b)) else numCmp (laneNum f a) (laneNum f b)

/-- VCMP (R354). -/
def opVcmp (w : Nat) (s : State) (n : Needle) : NRes :=
  let f := bitsOf w 10 8
  let pz := n.vp (fA w) ≠ 0 || n.vp (fB w) ≠ 0
  let bits := (List.range (vLanes f)).map (fun i =>
    bit (condHolds (bitsOf w 3 0) (laneCmp f (lane f (n.vv (fA w)) i) (lane f (n.vv (fB w)) i))))
  .ok s ((n.mark pz).setG (fD w) (ofLanes 1 bits) pz)

/-- Quarters of a register whose lanes `p` selects. -/
def quarterMask (f : Nat) (p : Nat → Bool) : Nat :=
  ofLanes 1 ((List.range 4).map (fun q => bit ((List.range (vLanes f)).any (fun i => vWidth f * i / 64 = q && p i))))

/-- VSEL (R330). -/
def opVsel (w : Nat) (s : State) (n : Needle) : NRes :=
  let f := bitsOf w 5 3
  let gm := bitsOf w 10 6
  let pick (i : Nat) : Nat := if bitOf (n.gv gm) i then fA w else fB w
  let pz := if n.gp gm then 15 else quarterMask f (fun i => bitOf (n.vp (pick i)) (vWidth f * i / 64))
  .ok s ((n.mark (n.gp gm || n.vp (fA w) ≠ 0 || n.vp (fB w) ≠ 0)).setV (fD w) (mapLanes f (fun i => lane f (n.vv (pick i)) i)) pz)

/-- Writes lanes `[lo, lo + xs.length)` of a register in lanes of `f`, each with its poison; whole quarters are written. -/
def Needle.putLanes (n : Needle) (r f lo : Nat) (xs : List (Nat × Bool)) : Needle :=
  let inside (i : Nat) : Bool := lo ≤ i && i < lo + xs.length
  let v := mapLanes f (fun i => if inside i then (xs.getD (i - lo) (0, false)).1 else lane f (n.vv r) i)
  let touched := quarterMask f inside
  let fresh := quarterMask f (fun i => inside i && (xs.getD (i - lo) (0, false)).2)
  n.setV r v ((n.vp r &&& (15 - touched)) ||| fresh)

/-- A number as a signed 32-bit lane: nearest even, saturated, 0x8000_0000 for NaN (R353). -/
def numInt32 : Num → Nat
  | .fin neg m e =>
    let i : Int := rneInt m e
    unsigned 32 (clampInt (-(2 ^ 31 : Nat)) ((2 ^ 31 : Nat) - 1) (if neg then -i else i))
  | .inf neg => if neg then 0x80000000 else 0x7FFFFFFF
  | _ => 0x80000000

/-- One lane converted between vector formats (R353). -/
def laneConv (f t x : Nat) : Nat :=
  let num : Num := if f = 4 then .fin (sg32 x < 0) (sg32 x).natAbs 0 else laneNum f x
  if f = 4 ∧ t = 4 then x else if t = 4 then numInt32 num else numLane t num

/-- VCVT (R330, R355). -/
def opVcvt (w : Nat) (s : State) (n : Needle) : NRes :=
  let f := bitsOf w 10 8
  let t := bitsOf w 7 5
  let src (j : Nat) : Nat := 8 * bitsOf w 4 3 + j
  let xs := (List.range 8).map (fun j => (laneConv f t (lane f (n.vv (fA w)) (src j)), bitOf (n.vp (fA w)) (vWidth f * src j / 64)))
  .ok s ((n.mark (xs.any (fun x => x.2))).putLanes (fD w) t (8 * bitsOf w 2 1) xs)

/-- VBCST. -/
def opVbcst (w : Nat) (s : State) (n : Needle) : NRes :=
  let f := bitsOf w 10 8
  .ok s ((n.mark (n.gp (fA w))).setV (fD w) (mapLanes f (fun _ => n.gv (fA w) % 2 ^ vWidth f)) (if n.gp (fA w) then 15 else 0))

/-- VEXT. -/
def opVext (w : Nat) (s : State) (n : Needle) : NRes :=
  let f := bitsOf w 10 8
  let i := bitsOf w 4 0
  let pz := bitOf (n.vp (fA w)) (vWidth f * i / 64)
  .ok s ((n.mark pz).setG (fD w) (lane f (n.vv (fA w)) i) pz)

/-! ### Ply instructions (R356 to R368) -/

/-- Term `i` of a v register in a raw FORMAT: its stored bits and its poison (R357). -/
def Needle.term (n : Needle) (r code i : Nat) : Nat × Bool :=
  let b := if code = 6 then 4 else fmtBits code
  (bitsOf (n.vv r) (b * i + b - 1) (b * i), bitOf (n.vp r) (b * i / 64))

/-- A term as a number; `g` is the gauge register, whose bits [15:8] are an MX scale byte. -/
def Needle.termNum (n : Needle) (r code i g : Nat) : Num :=
  let x := n.term r code i
  if x.2 then .poison else decodeElem code (bitsOf g 15 8) x.1

/-- GAUGE (R358). -/
def opGauge (c : Ctx) (w : Nat) (s : State) (n : Needle) : NRes :=
  let code := attrIn (tensorAttr c.m (bitsOf w 10 5))
  trapIf (7 ≤ code) 0x0D 0 <|
  let g := n.gv (fD w)
  let bytes := (List.range (fmtTerms code)).map (fun i => expByte (n.termNum (fA w) code i g))
  let pz := n.gp (fD w)
  .ok s ((n.mark (pz || n.vp (fA w) ≠ 0)).setG (fD w) (putBits g 7 0 (bytes.foldl max (g % 256))) pz)

/-- PCVT (R359, R360). -/
def opPcvt (c : Ctx) (w : Nat) (s : State) (n : Needle) : NRes :=
  let attr := tensorAttr c.m (bitsOf w 15 10)
  let code := attrIn attr
  let k := attrPly attr
  let gr := bitsOf w 9 5
  let gb := max 1 (n.gv gr % 256)
  trapIf (7 ≤ code || !plyOperand (fD w) k) 0x0D 0 <|
  let xs := (List.range 8).map (fun j => n.termNum (fA w) code (8 * bitsOf w 4 3 + j) (n.gv gr))
  let miss (x : Num) : Bool := gb < expByte x
  let el (x : Num) : List Nat :=
    if n.gp gr then specialWords k spPoison else if miss x then List.replicate k 0 else plyConvert k gb x
  let n := n.mark (n.gp gr || (List.range 8).any (fun j => (n.term (fA w) code (8 * bitsOf w 4 3 + j)).2))
  .ok s { ((List.range 8).zip xs).foldl (fun n e => n.setPly (fD w) e.1 (el e.2)) n with vf := xs.any miss }

/-- PADD (R361, R362). -/
def opPadd (w : Nat) (s : State) (n : Needle) : NRes :=
  let k := bitsOf w 10 9
  trapIf (!(plyOperand (fD w) k && plyOperand (fA w) k && plyOperand (fB w) k)) 0x0D 0 <|
  let rs := (List.range 8).map (fun j => plyAdd k (n.plyEl (fA w) k j) (n.plyEl (fB w) k j))
  let n' := ((List.range 8).zip rs).foldl (fun n e => (n.setPly (fD w) e.1 e.2.1).mark (elPoison e.2.1)) n
  let carry := ofLanes 1 (rs.map (fun r => bit r.2))
  if carry = 0 then .ok s n' else .okTrap s n' 0x0E carry

/-- The draw that rounds element `i` of a tensor, if its ROUND is stochastic (R178, R365). -/
def State.roundDrawOf (s : State) (c : Ctx) (t i : Nat) : Option Nat :=
  if attrRound (tensorAttr c.m t) = 1 then
    some (roundDraw (s.jobSeed (s.rowSlice c.l)) (s.stepCtr (s.rowSlice c.l)) (tensorId c.m t) (i % 2 ^ 40))
  else none

/-- PFIN (R363 to R365). -/
def opPfin (c : Ctx) (w : Nat) (s : State) (n : Needle) : NRes :=
  let t := bitsOf w 17 12
  let attr := tensorAttr c.m t
  let code := attrOut attr
  let k := attrPly attr
  let ps := bitsOf w 20 18
  let gi := bitsOf w 11 7
  let gr := bitsOf w 6 2
  let q := bitsOf w 1 0
  let gpz := n.gp gr || (n.gp gi && attrRound attr = 1)
  let i0 := n.gv gi % 2 ^ 40
  let num (r j : Nat) : Num := if gpz then .poison else plyNum k (n.gv gr % 256) (n.plyEl r k j)
  let s' := if attrRound attr = 1 then s.seedUsed (s.rowSlice c.l) else s
  if 7 ≤ code then .trap 0x0D 0
  else if isMx code then
    trapIf (!((k = 1 && (ps = 0 || ps = 4)) || (k = 2 && ps = 0))) 0x0D 0 <|
    let xs := (List.range 32).map (fun e => num (ps + k * (e / 8)) (e % 8))
    let r := finalMx code ((List.range 32).map (fun e => s.roundDrawOf c t (i0 + e))) xs
    let b := if code = 6 then 4 else 8
    let n := n.mark (gpz || xs.any (· == .poison))
    let n := n.setV (fD w) (ofLanes b r.2.1) (if r.2.2 then (if code = 6 then 3 else 15) else 0)
    .ok s' (n.setG gr (putBits (n.gv gr) 15 8 r.1) (n.gp gr || r.2.2))
  else
    trapIf (!plyOperand ps k) 0x0D 0 <|
    let xs := (List.range 8).map (fun j => finalRaw code (s.roundDrawOf c t (i0 + 8 * q + j)) (num ps j))
    .ok s' ((n.mark (gpz || xs.any (fun x => x.2))).putLanes (fD w) code (8 * q) xs)

/-- TALLY (R366 to R368). -/
def opTally (c : Ctx) (w : Nat) (s : State) (n : Needle) : NRes :=
  let t := bitsOf w 19 14
  let attr := tensorAttr c.m t
  let id := tensorId c.m t
  let gi := bitsOf w 13 9
  let q := bitsOf w 8 7
  let k := s.rowSlice c.l
  let cnt := bitsOf w 6 4 + 1
  let ply := bitOf w 20
  let code := if ply then 6 + attrPly attr else attrOut attr
  trapIf (if ply then !plyOperand (fD w) (attrPly attr) else 7 ≤ code) 0x0D 0 <|
  trapIf (!((s.job k).isOpen && (s.job k).tallySet.contains id)) 0x10 id <|
  let el (j : Nat) : List Nat × Bool :=
    if ply then (n.plyEl (fD w) (attrPly attr) j, elPoison (n.plyEl (fD w) (attrPly attr) j))
    else
      let x := n.term (fD w) code (8 * q + j)
      ([if isMx code then bitsOf (n.gv gi) 63 56 * 256 + x.1 else x.1], x.2)
  let els := (List.range cnt).map el
  let s' := ((List.range cnt).zip els).foldl (fun s e =>
    s.tallyAdd k (elementTally (s.stepCtr k) id ((n.gv gi % 2 ^ 40 + 8 * q + e.1) % 2 ^ 40) code e.2.1 (e.2.2 || n.gp gi))) s
  .ok s' (n.mark (n.gp gi || els.any (fun e => e.2)))

/-- PMOV and PZERO. -/
def opPmov (w : Nat) (s : State) (n : Needle) : NRes :=
  let k := bitsOf w 10 9
  trapIf (!(plyOperand (fD w) k && plyOperand (fA w) k)) 0x0D 0 <|
  let els := (List.range 8).map (fun j => n.plyEl (fA w) k j)
  .ok s (((List.range 8).zip els).foldl (fun n e => n.setPly (fD w) e.1 e.2) (n.mark (els.any elPoison)))

def opPzero (w : Nat) (s : State) (n : Needle) : NRes :=
  let k := bitsOf w 10 9
  trapIf (!plyOperand (fD w) k) 0x0D 0 <|
  .ok s ((List.range 8).foldl (fun n j => n.setPly (fD w) j (List.replicate k 0)) n)

end Sys2Proof.Machine
end

