-- ==== Sys2Proof/Machine/NeedleRow.lean ====
section
/-! DEFINITION. Control instructions, repeat prefixes, row-collective instructions and the matrix block, and the one
operation that executes an instruction of a needle (R266 to R269, R339 to R350, R380 to R397). -/

namespace Sys2Proof.Machine

/-! ### Instructions that only change their needle -/

/-- The instructions a repeat prefix may run, by mnemonic. The program counter is the runner's to move. -/
def dataOp (mn : Mn) (c : Ctx) (ecc : Ecc) (w : Nat) (s : State) (n : Needle) : NRes :=
  match mn with
  | .aluAdd | .aluSub | .aluAnd | .aluOr | .aluXor | .aluShl | .aluShr | .aluSar | .mul | .mulhu | .mulhs | .mins
  | .maxs | .minu | .maxu | .cmp | .mov | .popc | .clz => opAlu mn w s n
  | .addi | .cmpi | .movz | .movk | .andi | .ori | .xori | .shli | .shri | .sari => opImm mn w s n
  | .ldb | .ldh | .ldw | .ldd | .vld => opLoad mn c ecc w s n
  | .stb | .sth | .stw | .std | .vst => opStore mn c w s n
  | .pld => opPld c ecc w s n
  | .pst => opPst c w s n
  | .chkb => opChkb w s n
  | .sset => opSset c w s n
  | .sget => opSget w s n
  | .draw => opDraw c w s n
  | .drawe => opDrawe c w s n
  | .sdef => opSdef w s n
  | .srd => opSrd c w s n
  | .vadd | .vsub | .vmul | .vmax | .vmin | .vabs | .vneg | .vmov | .vand | .vor | .vxor | .vshl | .vshr | .vsar => opVop mn w s n
  | .vfma => opVfma w s n
  | .vcmp => opVcmp w s n
  | .vsel => opVsel w s n
  | .vcvt => opVcvt w s n
  | .vbcst => opVbcst w s n
  | .vext => opVext w s n
  | .gauge => opGauge c w s n
  | .pcvt => opPcvt c w s n
  | .padd => opPadd w s n
  | .pfin => opPfin c w s n
  | .tally => opTally c w s n
  | .pmov => opPmov w s n
  | .pzero => opPzero w s n
  | .mrd =>
    let r := 2 * c.i + bitsOf w 4 4
    let c0 := 8 * bitsOf w 3 2
    let row := s.row c.l
    let xs := (List.range 8).map (fun j => (fetch 0 row.tile (32 * r + c0 + j), fetch false row.tilePoison (32 * r + c0 + j)))
    .ok s ((n.mark (xs.any (fun x => x.2))).putLanes (fD w) 0 0 xs)
  | .fclr => .ok s { n with pf := false }
  | .drst => .ok s { n with draws := store 0 n.draws (bitsOf w 12 11) 0 }
  | .mfs =>
    let k := s.rowSlice c.l
    let x := match fB w with
      | 0x00 => c.i
      | 0x01 => c.l
      | 0x02 => rowDie c.l
      | 0x03 => k
      | 0x04 => s.stepCtr k
      | 0x05 => n.flags
      | 0x06 => n.tcause
      | 0x07 => n.tpc
      | 0x08 => n.taddr
      | 0x09 => n.titer
      | 0x0A => n.tflags
      | 0x0F => (s.rd Reg.GLB_BEAT_SEQ).toNat
      | r => fetch 0 n.draws (r - 0x0B)
    .ok s (n.setG (fD w) x false)
  | _ => .ok s n

/-! ### Transfers of control (R339 to R344) -/

/-- Does a condition code hold (R339)? -/
def ccHolds (n : Needle) (cc : Nat) : Bool :=
  match cc with
  | 0x0 => n.zf
  | 0x1 => !n.zf
  | 0x2 => n.cf
  | 0x3 => !n.cf
  | 0x4 => n.nf
  | 0x5 => !n.nf
  | 0x6 => n.vf
  | 0x7 => !n.vf
  | 0x8 => n.cf && !n.zf
  | 0x9 => !n.cf || n.zf
  | 0xA => n.nf == n.vf
  | 0xB => n.nf != n.vf
  | 0xC => !n.zf && (n.nf == n.vf)
  | 0xD => n.zf || (n.nf != n.vf)
  | 0xE => n.pf
  | _ => true

/-- Transfers to offset `t`, which must lie inside the code (R340). -/
def jumpTo (c : Ctx) (t : Nat) (s : State) (n : Needle) : NRes := trapIf (!inCode c.m t) 0x02 t (.ok s { n with pc := t })

/-- The registers that a CALL mask names, ascending (R341). -/
def maskRegs (mask : Nat) : List Nat := (onesOf 15 mask).map (fun i => 16 + i)

/-- CALL (R341, R342, R344). -/
def opCall (c : Ctx) (w : Nat) (s : State) (n : Needle) : NRes :=
  let t := fnEntry c.m (bitsOf w 25 16)
  let mask := bitsOf w 15 0
  let regs := maskRegs mask
  let frame := 8 * (1 + regs.length)
  let g := n.gv 31
  trapIf (!inCode c.m t) 0x02 t <|
  trapIf (g % 8 ≠ 0) 0x03 (unsigned 64 ((g : Int) - frame)) <|
  trapIf (!segWr (n.sv 7)) 0x06 (unsigned 64 ((g : Int) - frame)) <|
  trapIf (segMode (n.sv 7) ≠ 0 || g < frame || segLimit (n.sv 7) < g) 0x0A g <|
  match s.nAddr (rowDie c.l) n 7 (g - frame) frame 8 true with
  | .bad cause addr => .trap cause addr
  | a =>
    let words := ((n.pc + 4) % 65536 + 65536 * mask, false) :: regs.map (fun r => (n.gv r, n.gp r))
    let x := nStoreWords s (n.mark (n.gp 31 || regs.any n.gp)) a words
    .ok x.1 { x.2.setG 31 (g - frame) (n.gp 31) with pc := t }

/-- RET (R343, R344). -/
def opRet (c : Ctx) (s : State) (n : Needle) : NRes :=
  let g := n.gv 31
  trapIf (g % 8 ≠ 0) 0x03 g <|
  trapIf (segMode (n.sv 7) ≠ 0 || segLimit (n.sv 7) < g + 8) 0x0A g <|
  match s.nAddr (rowDie c.l) n 7 g 8 8 false with
  | .bad cause addr => .trap cause addr
  | a =>
    let link := leNat (s.nBytes n a 8)
    let regs := maskRegs (bitsOf link 31 16)
    let frame := 8 * (1 + regs.length)
    let t := bitsOf link 15 0
    trapIf (!inCode c.m t) 0x02 t <|
    trapIf ((s.nTags n a 8).any id) 0x09 0 <|
    trapIf (segLimit (n.sv 7) < g + frame) 0x0A g <|
    match s.nAddr (rowDie c.l) n 7 g frame 8 false with
    | .bad cause addr => .trap cause addr
    | b =>
      let ws := (wordsLe (1 + regs.length) (s.nBytes n b frame)).drop 1
      let ts := (s.nTags n b frame).drop 1
      let n' := (regs.zip (ws.zip ts)).foldl (fun n e => n.setG e.1 e.2.1 e.2.2) (n.mark (n.gp 31 || ts.any id))
      .ok s { n'.setG 31 (g + frame) (n.gp 31) with pc := t }

/-- RTT and RTT.NEXT (R349, R394, R395). -/
def opRtt (c : Ctx) (next : Bool) (s : State) (n : Needle) : NRes :=
  trapIf (!n.hm) 0x0C 0 <|
  let mn := mnOf (imgLe c.m n.tpc 4)
  let n' := { n.setFlags n.tflags with hm := false }
  if n.tpair then
    if next then .ok s { n' with pc := n.tpc + 8 }
    else trapIf (mn = some .repn) 0x0C 0 (.ok s { n' with pc := n.tpc, resumeAt := some n.titer })
  else .ok s { n' with pc := if next ∧ n.tcause < 128 then n.tpc + (if mn = some .rep ∨ mn = some .repn then 8 else 4) else n.tpc }

/-! ### Row-collective instructions (R380 to R386) -/

/-- The g registers whose values a row-collective instruction compares (R380). -/
def collectiveRegs (mn : Mn) (w : Nat) : List Nat :=
  match mn with
  | .vxch => [fB w]
  | .mld | .mma => [fA w, fB w]
  | .mst => [fA w]
  | _ => []

/-- Every needle of the row takes `f`. -/
def State.mapRow' (s : State) (l : Nat) (f : Nat → Needle → Needle) : State := s.setRow l ((s.row l).mapNeedles f)

/-- A collective's needles go on after it. -/
def Needle.goOn (n : Needle) : Needle := { n with pc := n.pc + 4, wait := .run }

/-- Each needle in `is` meets the same trap of a row-collective instruction. -/
def State.trapNeedles (s : State) (l : Nat) (is : List Nat) (cause addr : Nat) : State :=
  is.foldl (fun s i =>
    let n := s.needle l i
    match n.wait with
    | .collective off _ _ => s.needleTrap l i { n with wait := .run } cause addr 0 false false off off
    | _ => s) s

/-- Elements of one slice of 32 that lie at byte `o` of the access, in format `fmt` (R383): bits and poison. -/
def mldElems (fmt : Nat) (bs : List Byte) (tags : List Bool) (count : Nat) : List (Nat × Nat × Bool) :=
  let z := if fmt = 1 then 2 else 1
  (List.range count).map (fun e => (e, leAt bs (z * e) z, tags.getD (z * e / 8) false))

/-- MLD (R383): K slices from memory into slots 0 to K - 1. The needle that acts names the space. -/
def State.actMld (s : State) (l w : Nat) (n : Needle) : State × Option (Nat × Nat) :=
  let fmt := bitsOf w 7 5
  let k := n.gv (fB w)
  let z := if fmt = 1 then 2 else 1
  let most := if fmt = 1 then 256 else 512
  if n.gp (fA w) then (s, some (0x09, 0))
  else match s.nAddr (rowDie l) n (bitsOf w 4 1) (n.gv (fA w)) (32 * z * k) 32 false with
  | .bad cause addr => (s, some (cause, addr))
  | a =>
    if most < k then (s, some (0x13, k)) else
    let els := mldElems fmt (s.nBytes n a (32 * z * k)) (s.nTags n a (32 * z * k)) (32 * k)
    let buf : MatBuf := { fmt := fmt, slices := k,
                          elems := els.foldl (fun m e => store 0 m e.1 e.2.1) [],
                          poison := els.foldl (fun m e => store false m e.1 e.2.2) [] }
    let r := s.row l
    (s.setRow l (if fD w = 0 then { r with bufA := buf } else { r with bufB := buf }), none)

/-- An element of a matrix operand buffer as a number. -/
def MatBuf.num (b : MatBuf) (k i : Nat) : Num := decodeFloat (fmtOf b.fmt) (fetch 0 b.elems (32 * k + i))

/-- One tile element over slices k0 to k0 + kn - 1, ascending, with its poison (R384, R385). -/
def mmaElem (a b : MatBuf) (i j : Nat) : Nat → Nat → Nat × Bool → Nat × Bool
  | _, 0, acc => acc
  | k, kn + 1, acc =>
    let x := numAdd (decodeFloat fmtFp32 acc.1) (numMul (a.num k i) (b.num k j))
    mmaElem a b i j (k + 1) kn
      (roundTo fmtFp32 false none x, acc.2 || fetch false a.poison (32 * k + i) || fetch false b.poison (32 * k + j))

/-- MMA (R384 to R386). -/
def State.actMma (s : State) (l w : Nat) (n : Needle) : State × Option (Nat × Nat) :=
  let r := s.row l
  let k0 := n.gv (fA w)
  let k := n.gv (fB w)
  if k = 0 || min r.bufA.slices r.bufB.slices < k0 + k || ((r.bufA.fmt = 1) != (r.bufB.fmt = 1)) then (s, some (0x13, k)) else
  let els := (List.range 1024).map (fun e =>
    (e, mmaElem r.bufA r.bufB (e / 32) (e % 32) k0 k (fetch 0 r.tile e, fetch false r.tilePoison e)))
  (s.setRow l { r with tile := els.foldl (fun m e => store 0 m e.1 e.2.1) r.tile,
                       tilePoison := els.foldl (fun m e => store false m e.1 e.2.2) r.tilePoison, tileLive := true }, none)

/-- MST (R386): the tile, 4,096 bytes, row-major. Needle `i` acts. -/
def State.actMst (s : State) (l i w : Nat) (n : Needle) : State × Option (Nat × Nat) :=
  let r := s.row l
  if n.gp (fA w) then (s, some (0x09, 0))
  else match s.nAddr (rowDie l) n (bitsOf w 4 1) (n.gv (fA w)) 4096 32 true with
  | .bad cause addr => (s, some (cause, addr))
  | a =>
    let words := (List.range 512).map (fun x =>
      (fetch 0 r.tile (2 * x) + 2 ^ 32 * fetch 0 r.tile (2 * x + 1), fetch false r.tilePoison (2 * x) || fetch false r.tilePoison (2 * x + 1)))
    let y := nStoreWords s n a words
    let s := y.1.setNeedle l i y.2
    (s.setRow l { s.row l with tileLive := false }, none)

/-- Row `l` has reached a safe point at `off` (R293, R299): a PAUSING row stops there, another goes on. -/
def State.safePoint (s : State) (l off : Nat) : State :=
  let s := s.mapRow' l (fun _ n => { n.goOn with streams := [] })
  if s.rowState l = 5 then
    ((s.setRow l { s.row l with safe := off }).setRowState l 6).rowDone l 0
  else s

/-- The row acts on the row-collective instruction `w` at `off` that all its needles have issued; needle `i` issued it
last. A trap is raised in every needle (R380 to R386). -/
def State.rowAct (s : State) (l i off w : Nat) (mn : Mn) : State :=
  let n := s.needle l i
  let finish (x : State × Option (Nat × Nat)) : State :=
    match x.2 with
    | some t => s.trapNeedles l (List.range 16) t.1 t.2
    | none => x.1.mapRow' l (fun _ n => n.goOn)
  match mn with
  | .safe => if (s.row l).tileLive then s.trapNeedles l (List.range 16) 0x14 0 else s.safePoint l off
  | .waitb => s.mapRow' l (fun _ n => { n with wait := .beat (s.rd Reg.GLB_BEAT_SEQ).toNat })
  | .vxch =>
    let row := s.row l
    let g := n.gv (fB w)
    s.mapRow' l (fun k n =>
      let src := row.needle ((k + g) % 16)
      ((n.mark (src.vp (fA w) ≠ 0)).setV (fD w) (src.vv (fA w)) (src.vp (fA w))).goOn)
  | .mld => finish (s.actMld l w n)
  | .mma => finish (s.actMma l w n)
  | .mclr =>
    finish (s.setRow l { s.row l with tile := [], tilePoison := [], tileLive := false }, none)
  | .mst => finish (s.actMst l i w n)
  | _ => s

/-- The needles of a row that wait at a row-collective instruction. -/
def State.waiters (s : State) (l : Nat) : List Nat :=
  (List.range 16).filter (fun i => match (s.needle l i).wait with | .collective _ _ _ => true | _ => false)

/-- Looks at the needles that wait at row-collective instructions: the row acts, raises ROW_MISMATCH, or waits on (R380,
R381). Needle `i` issued last. -/
def State.collectiveCheck (s : State) (l i : Nat) : State :=
  let ws := s.waiters l
  let ended := (List.range 16).any (fun j => (s.needle l j).wait = .ended)
  if ws = [] then s
  else if ended then s.trapNeedles l ws 0x12 0
  else if ws.length < 16 then s
  else
    match (s.needle l i).wait with
    | .collective off w ops =>
      if ws.all (fun j => (s.needle l j).wait = .collective off w ops) then
        match mnOf w with
        | some mn => s.rowAct l i off w mn
        | none => s
      else s.trapNeedles l ws 0x12 0
    | _ => s

/-! ### Repeat prefixes (R345 to R350) -/

/-- A word with its register fields advanced for iteration `i` (R346). -/
def advance (w step i : Nat) : Nat :=
  let adv (w hi lo : Nat) (b : Bool) : Nat := if b then putBits w hi lo ((bitsOf w hi lo + i) % 32) else w
  adv (adv (adv w 25 21 (bitOf step 2)) 20 16 (bitOf step 1)) 15 11 (bitOf step 0)

/-- Where a pair stands: done, or stopped by a trap of an iteration. -/
inductive PairRes where
  | done (s : State) (n : Needle)
  | trap (s : State) (n : Needle) (iter cause addr : Nat) (completing : Bool)
  deriving DecidableEq, Repr

/-- Runs `k` iterations of a pair from iteration `i`; under REP, g0 counts down (R345, R348). -/
def runPair (rep : Bool) (kind step w : Nat) (mn : Mn) (c : Ctx) (ecc : Ecc) : Nat → Nat → State → Needle → PairRes
  | 0, _, s, n => .done s n
  | k + 1, i, s, n =>
    let w' := advance w step i
    let dec (n : Needle) : Needle := if rep then n.setG 0 k (n.gp 0) else n
    if !legal c.m kind n.hm mn w' then .trap s n i 0x01 0 false
    else match dataOp mn { c with k := i } ecc w' s n with
      | .ok s' n' => runPair rep kind step w mn c ecc k (i + 1) s' (dec n')
      | .okTrap s' n' cause addr => .trap s' (dec n') i cause addr true
      | .trap cause addr => .trap s n i cause addr false

/-- A repeat prefix and the instruction after it, as one (R345 to R350). -/
def State.repeatPair (s : State) (l i : Nat) (n : Needle) (rep : Bool) (w : Nat) (c : Ctx) (ecc : Ecc) : State :=
  let off := n.pc
  let step := bitsOf w 25 23
  let w2 := imgLe c.m (off + 4) 4
  let bad (cause addr : Nat) : State := s.needleTrap l i n cause addr 0 true false off off
  let kind := s.rowKind l
  if !inCode c.m (off + 4) then bad 0x02 (off + 4) else
  match mnOf w2 with
  | none => bad 0x01 0
  | some mn =>
    if !repeatable mn || step &&& regFields mn ≠ step || (rep && (gNamed mn w2).contains 0) then bad 0x01 0
    else if rep && 2 ^ 20 ≤ n.gv 0 then bad 0x0B (n.gv 0)
    else
      let i0 := if rep then n.resumeAt.getD 0 else 0
      let n := { n.mark (rep && n.gp 0) with resumeAt := none }
      match runPair rep kind step w2 mn c ecc (if rep then n.gv 0 else bitsOf w 7 0 + 1) i0 s n with
      | .done s' n' => s'.setNeedle l i { n' with pc := off + 8 }
      | .trap s' n' it cause addr completing => s'.needleTrap l i n' cause addr it true completing off (off + 4)

/-! ### The runner -/

/-- All 16 needles have ended: the row returns to LOADED (R288). -/
def State.endCheck (s : State) (l : Nat) : State :=
  if (List.range 16).all (fun i => (s.needle l i).wait = .ended) then (s.setRowState l 3).rowDone l 0 else s

/-- Executes the instruction `w` of mnemonic `mn` at needle `i`'s program counter. -/
def State.needleExec (s : State) (l i : Nat) (n : Needle) (mn : Mn) (w : Nat) (ecc : Ecc) : State :=
  let c : Ctx := ⟨l, i, (s.row l).prog, 1⟩
  let off := n.pc
  let kind := s.rowKind l
  let n := if mn = .rep then n else { n with resumeAt := none }
  let finish (r : NRes) (step : Nat) : State :=
    match r with
    | .ok s' n' => s'.setNeedle l i { n' with pc := if step = 0 then n'.pc else off + step }
    | .okTrap s' n' cause addr => s'.needleTrap l i { n' with pc := off + 4 } cause addr 0 false true (off + 4) off
    | .trap cause addr => s.needleTrap l i n cause addr 0 false false off off
  if !legal c.m kind n.hm mn w then s.needleTrap l i n 0x01 0 0 false false off off
  else if isCollective kind mn then
    (s.setNeedle l i { n with wait := .collective off w ((collectiveRegs mn w).map n.gv) }).collectiveCheck l i
  else match mn with
  | .rep => s.repeatPair l i n true w c ecc
  | .repn => s.repeatPair l i n false w c ecc
  | .bCc =>
    let t := unsigned 64 ((off : Int) + 4 * signed 22 (bitsOf w 21 0))
    finish (if ccHolds n (bitsOf w 25 22) then jumpTo c t s n else .ok s { n with pc := off + 4 }) 0
  | .call => finish (opCall c w s n) 0
  | .ret => finish (opRet c s n) 0
  | .br =>
    finish (trapIf (!inCode c.m (n.gv (fA w))) 0x02 (n.gv (fA w)) (trapIf (n.gp (fA w)) 0x09 0 (jumpTo c (n.gv (fA w)) s n))) 0
  | .rtt => finish (opRtt c false s n) 0
  | .rttNext => finish (opRtt c true s n) 0
  | .trap => finish (.okTrap s n (fX w) 0) 0
  | .endRow => ((s.setNeedle l i { n with wait := .ended }).collectiveCheck l i).endCheck l
  | .waitb => s.setNeedle l i { n with wait := .beat (s.rd Reg.GLB_BEAT_SEQ).toNat }
  | .waitt => s.setNeedle l i { n.mark (n.gp (fA w) || n.gp (fB w)) with wait := .trigger (n.gv (fA w)) (n.gv (fB w) % 2 ^ 32) }
  | _ => finish (dataOp mn c ecc w s n) 4

/-- Needle `i` of row `l` executes the instruction at its program counter, if that is `mn`; a fetch outside the code or a
reserved word traps (R331, R390). A needle that does not run, or stands at another instruction, takes no step. -/
def State.needleStep (s : State) (mn : Mn) (l i : Nat) (ecc : Ecc) : State :=
  let n := s.needle l i
  let m := (s.row l).prog
  if !(l < 128 && i < 16 && s.rowRuns l && n.wait = .run) then s
  else if !inCode m n.pc then s.needleTrap l i n 0x02 n.pc 0 false false n.pc n.pc
  else
    let w := imgLe m n.pc 4
    match mnOf w with
    | none => s.needleTrap l i n 0x01 0 0 false false n.pc n.pc
    | some mn' => if mn' = mn then (s.countN Ctr.NDL_ECC_CE ecc.ce).needleExec l i n mn w ecc else s

/-- The beat boundary reaches needle `i` of row `l`, which waits in WAITB (R388): in a SERVING row the whole row, at a
safe point. -/
def State.waitbWake (s : State) (l i : Nat) : State :=
  match (s.needle l i).wait with
  | .beat q =>
    if !s.rowRuns l || (s.rd Reg.GLB_BEAT_SEQ).toNat = q then s
    else if s.rowKind l = 4 then s.safePoint l (s.needle l i).pc
    else s.setNeedle l i (s.needle l i).goOn
  | _ => s

/-- The trigger counter that needle `i` of row `l` waits for in WAITT has reached its value (R387, R655). -/
def State.waittWake (s : State) (l i : Nat) : State :=
  match (s.needle l i).wait with
  | .trigger c v =>
    if s.rowRuns l && s.ctrInShare c && s.ctrReached (s.ctrIdx (s.rowSlice l) c) v then s.setNeedle l i (s.needle l i).goOn
    else s
  | _ => s

end Sys2Proof.Machine
end

