-- ==== Sys2Proof/Machine/NdlCmd.lean ====
section
/-! DEFINITION. The row commands (R279 to R316): loading a program, starting, pausing, saving, restoring, stopping and
retiring rows, and what befalls a row. -/

namespace Sys2Proof.Machine

/-! ### The checks of a row command (R290) -/

/-- Do the `k` bytes at `a` lie in the memory of the slice of command set `n`; of any slice for Spindle's set 4? -/
def State.setReach (s : State) (n a k : Nat) : Bool :=
  if n = 4 then (List.range s.sliceCount).any (fun m => s.inSlice m a k) else s.inSlice n a k

/-- The rows in the mask of command set `n`, ascending. -/
def State.maskRows (s : State) (n : Nat) : List Nat :=
  (List.range 128).filter (fun l => bitOf (s.rd (Reg.NDL_ROWS n (l / 32))).toNat (l % 32))

def State.ndlAddr (s : State) (n : Nat) : Nat := s.addrOf (Reg.NDL_ADDR_LO n) (Reg.NDL_ADDR_HI n)
def State.ndlDig (s : State) (n : Nat) : Nat := s.addrOf (Reg.NDL_DIG_LO n) (Reg.NDL_DIG_HI n)
def State.ndlLen (s : State) (n : Nat) : Nat := s.rf (Reg.NDL_LEN n) 16 0

/-- The context slot of row `l` (R300). -/
def State.ctxSlot (s : State) (n l : Nat) : Nat := s.addrOf (Reg.NDL_CTX_LO n) (Reg.NDL_CTX_HI n) + l * 0x200000

/-- The image that command set `n` names. -/
def State.loadImage (s : State) (n : Nat) : SMap Byte := imgOf (s.bytes (s.ndlAddr n) (s.ndlLen n)) 0

/-- Is a row's state one that a command starts from (R287)? -/
def rowOpAllowed (op st : Nat) : Bool :=
  match op with
  | 1 => [1, 3, 7].contains st
  | 2 => st = 3
  | 3 => st = 4
  | 4 => st = 6
  | 5 => st = 6
  | 6 => st = 3
  | 7 => [4, 5, 6, 7].contains st
  | 8 => [1, 3, 0xA].contains st
  | _ => false

/-- Are the operands of a command in range, aligned, and in the slice's memory (0x0162)? -/
def State.rowOperandsOk (s : State) (n op : Nat) (rows : List Nat) : Bool :=
  match op with
  | 1 =>
    let len := s.ndlLen n
    64 ≤ len && len ≤ 65536 && len % 64 = 0 && s.ndlAddr n % 64 = 0 && s.ndlDig n % 32 = 0 &&
    s.setReach n (s.ndlAddr n) len && s.setReach n (s.ndlDig n) 32
  | 5 => s.ctxSlot n 0 % 0x200000 = 0 && rows.all (fun l => s.setReach n (s.ctxSlot n l) 0x200000)
  | 6 => s.ctxSlot n 0 % 0x200000 = 0 && rows.all (fun l => s.setReach n (s.ctxSlot n l) 0x200000)
  | _ => true

/-- The header status of a LOAD's image (R326), and 0x0164 when its kind is not the kind of a target row (R280). -/
def State.loadStatus (s : State) (n : Nat) (rows : List Nat) : Nat :=
  let m := s.loadImage n
  let st := rowHeaderStatus m (s.ndlLen n)
  if st ≠ 0 then st
  else if rows.any (fun l => s.rowKind l = 0 || s.rowKind l ≠ imgLe m 6 1) then 0x0164 else 0

/-- Do the header segments of the rows' programs pass the checks of SSET (R328)? -/
def State.startOk (s : State) (rows : List Nat) : Bool :=
  rows.all (fun l => (List.range 8).all (fun k => s.segOk (rowDie l) (headerSeg (s.row l).prog k)))

/-- Bytes of a context image that its digest covers (R302). -/
def ctxLen : Nat := 1609728

/-- IMG_DIGEST of the context image bytes `bs` (R300). -/
def ctxDigest (bs : List Byte) : List Byte := sha3x256 (bs.take 48 ++ List.replicate 32 0 ++ bs.drop 80)

/-- The status of RESTORE for the context image of row `l` (R301, R302). -/
def State.restoreStatus (s : State) (n l : Nat) : Nat :=
  let a := s.ctxSlot n l
  if s.bytes (a + 16) 32 ≠ (s.row l).digest ∨ s.le (a + 2) 1 ≠ s.rowKind l then 0x0264
  else if s.le a 2 ≠ 1 ∨ ctxDigest (s.bytes a ctxLen) ≠ s.bytes (a + 48) 32 then 0x0265
  else 0

/-- The status of a row command, and the row that raised it (R290, R317). -/
def State.rowStatus (s : State) (n op : Nat) (rsv : Bool) (rows : List Nat) : Nat × Nat :=
  let first (p : Nat → Bool) : Nat := (rows.find? p).getD 0
  if rsv ∨ op = 0 ∨ 9 ≤ op then (0x0160, 0)
  else if rows = [] ∨ rows.any (fun l => s.rowState l = 0) then (0x0161, first (fun l => s.rowState l = 0))
  else if !s.rowOperandsOk n op rows then (0x0162, 0)
  else
    let ld := if op = 1 then s.loadStatus n rows else 0
    if ld ≠ 0 then (ld, if ld = 0x0164 then first (fun l => s.rowKind l = 0 || s.rowKind l ≠ imgLe (s.loadImage n) 6 1) else 0)
    else if n < 4 ∧ rows.any (fun l => s.rowSlice l ≠ n) then (0x0460, first (fun l => s.rowSlice l ≠ n))
    else if (s.rowCmd n).isSome ∨ rows.any (fun l => (s.row l).owner.isSome) then
      (0x0261, first (fun l => (s.row l).owner.isSome))
    else if rows.any (fun l => !rowOpAllowed op (s.rowState l)) then (0x0260, first (fun l => !rowOpAllowed op (s.rowState l)))
    else if op = 2 ∧ !s.startOk rows then (0x0171, first (fun l => !s.startOk [l]))
    else if op = 6 then
      match rows.find? (fun l => s.restoreStatus n l ≠ 0) with
      | some l => (s.restoreStatus n l, l)
      | none => (0, 0)
    else (0, 0)

/-! ### Context images (R300, R301) -/

/-- 64-bit words with their poison bits, as marked bytes. -/
def markedWords (ws : List (Nat × Bool)) : List (Byte × Bool) :=
  ws.flatMap (fun w => (leBytes 8 w.1).map (fun b => (b, w.2)))

/-- Bytes without poison marks. -/
def plainBytes (bs : List Byte) : List (Byte × Bool) := bs.map (fun b => (b, false))

/-- The register area of a needle, whose row stands at the safe point `safe`. -/
def Needle.ctxArea (n : Needle) (safe : Nat) : List (Byte × Bool) :=
  markedWords ((List.range 32).map (fun r => (n.gv r, n.gp r))) ++
  markedWords ((List.range 128).map (fun i => (n.vv (i / 4) / 2 ^ (64 * (i % 4)) % 2 ^ 64, bitOf (n.vp (i / 4)) (i % 4)))) ++
  plainBytes ((List.range 64).flatMap (fun i => leBytes 8 (n.pv (i / 8) (i % 8))) ++
    (List.range 8).flatMap (fun k => leBytes 16 (n.sv k)) ++
    leBytes 2 safe ++ leBytes 1 n.flags ++ leBytes 1 0 ++
    (List.range 4).flatMap (fun d => leBytes 4 (fetch 0 n.draws d)) ++ List.replicate 108 0)

/-- The scratch of a needle. -/
def Needle.ctxScratch (n : Needle) : List (Byte × Bool) :=
  (List.range 98304).map (fun i => (fetch 0 n.scratch i, fetch false n.scratchTags (i / 8)))

/-- The context image of row `l` (R300), its digest filled in. -/
def State.ctxImage (s : State) (l : Nat) : List (Byte × Bool) :=
  let r := s.row l
  let head := record [(2, 1), (1, s.rowKind l), (1, 0), (2, l), (6, s.stepCtr (s.rowSlice l)), (4, r.safe)] ++ fitBytes 32 r.digest
  let tail := plainBytes (List.replicate 944 0 ++ s.cursorBlock l) ++
    (List.range 16).flatMap (fun i => (r.needle i).ctxArea r.safe) ++ (List.range 16).flatMap (fun i => (r.needle i).ctxScratch)
  let digest := sha3x256 (head ++ List.replicate 32 0 ++ tail.map (fun b => b.1))
  plainBytes (head ++ digest) ++ tail

/-- Needle `i` of a context image at `a`: its registers, poison bits and scratch (R301, R322). -/
def State.ctxNeedle (s : State) (a i : Nat) : Needle :=
  let b := a + 4096 + 2048 * i
  let c := a + 36864 + 98304 * i
  let n : Needle := { pc := s.le (b + 1920) 2 + 4 }
  let n := (List.range 32).foldl (fun (n : Needle) r => n.setG r (s.le (b + 8 * r) 8) (s.tagged (b + 8 * r))) n
  let n := (List.range 32).foldl (fun (n : Needle) r =>
    let o := b + 256 + 32 * r
    n.setV r (s.le o 32) ((List.range 4).foldl (fun m q => m + bit (s.tagged (o + 8 * q)) * 2 ^ q) 0)) n
  let n := (List.range 64).foldl (fun (n : Needle) k => n.setP (k / 8) (k % 8) (s.le (b + 1280 + 8 * k) 8)) n
  let n := (List.range 8).foldl (fun (n : Needle) k => { n with seg := store 0 n.seg k (s.le (b + 1792 + 16 * k) 16) }) n
  let n := (List.range 4).foldl (fun (n : Needle) d =>
    { n with draws := store 0 n.draws d (s.le (b + 1924 + 4 * d) 3) }) n
  let n := n.setFlags (s.le (b + 1922) 1)
  { n with scratch := imgOf (s.bytes c 98304) 0,
           scratchTags := (List.range 12288).foldl (fun m w => store false m w (s.tagged (c + 8 * w))) [] }

/-- The items that the Carder holds for a saved row go to the row into which its image is restored (R505). -/
def State.moveItems (s : State) (l' l : Nat) : State :=
  if s.rowKind l = 2 ∧ l' ≠ l ∧ s.rowState l' ≠ 4 then
    { s with carder := { s.carder with items := s.carder.items.map (fun i =>
        if i.row = l' then ({ i with row := l, die := rowDie l } : FeedItem) else i) } }
  else s

/-! ### What a command does to one row -/

/-- START of row `l` (R327). -/
def State.startRow (s : State) (l : Nat) : State :=
  let r := s.row l
  let r : Row := { prog := r.prog, len := r.len, addr := r.addr, digest := r.digest, owner := r.owner }
  (s.setRow l (r.mapNeedles (fun i _ => startNeedle r.prog l i))).setRowState l 4

/-- SAVE of row `l` (R300). -/
def State.saveRow (s : State) (n l : Nat) : State := (s.writeMarked (s.ctxSlot n l) (s.ctxImage l)).rowCleared l

/-- RESTORE of row `l` (R301). -/
def State.restoreRow (s : State) (n l : Nat) : State :=
  let a := s.ctxSlot n l
  let r := s.row l
  let r : Row := { prog := r.prog, len := r.len, addr := r.addr, digest := r.digest, owner := r.owner, safe := s.le (a + 12) 4 }
  ((s.setRow l (r.mapNeedles (fun i _ => s.ctxNeedle a i))).setRowState l 6).moveItems (s.le (a + 4) 2) l

/-- STOP of row `l` (R289): its program stays; its registers and scratch are undefined until START or RESTORE sets them. -/
def State.stopRow (s : State) (l : Nat) : State :=
  let r := s.row l
  (s.setRow l { prog := r.prog, len := r.len, addr := r.addr, digest := r.digest, owner := r.owner, undef := true }).setRowState l 3

/-- RETIRE of row `l` by command (R311, R312, R314). -/
def State.retireCmd (s : State) (l : Nat) : State × Nat :=
  let r := s.retireRow l
  if r.2 then (r.1, 0)
  else (if s.rowKind l ≠ 0 then r.1.withdraw (s.rowSlice l) else r.1, 0x0562)

/-- Row `l` is released into activity by START, RESUME or RESTORE of command set `n` (R833). -/
def State.releaseRow (s : State) (n op l : Nat) : State :=
  (match op with
    | 2 => s.startRow l
    | 4 => s.setRowState l 4
    | _ => s.restoreRow n l).rowDone l 0

/-- A command that passes its checks goes to the rows of its mask. A START, RESUME or RESTORE of more than 16 rows waits
for its waves (R833); LOAD for its loader, PAUSE for its safe points. -/
def State.rowIssue (s : State) (n op : Nat) (rows : List Nat) : State :=
  let c : RowCmd := { op, rows, targets := rows }
  let c := if op = 1 then { c with image := s.loadImage n, len := s.ndlLen n, digest := s.bytes (s.ndlDig n) 32 } else c
  let s := (s.setRowCmd n (some c)).wr (Reg.NDL_STAT n) 0x80000000
  let s := rows.foldl (fun s l => s.setRow l { s.row l with owner := some n }) s
  match op with
  | 1 => rows.foldl (fun s l => (s.setRow l { owner := some n, len := c.len, addr := s.ndlAddr n }).setRowState l 2) s
  | 3 => rows.foldl (fun s l => s.setRowState l 5) s
  | 5 => rows.foldl (fun s l => (s.saveRow n l).rowDone l 0) s
  | 7 => rows.foldl (fun s l => (s.stopRow l).rowDone l 0) s
  | 8 => rows.foldl (fun s l => let r := s.retireCmd l; r.1.rowDone l r.2) s
  | _ => if 16 < rows.length then s else rows.foldl (fun s l => s.releaseRow n op l) s

/-- A write of NDL_Sn_CMD (R287, R290 to R292). -/
def State.ndlCmdWrite (s : State) (n : Nat) (v : Word) : State :=
  let s := s.wr (Reg.NDL_CMD n) (v &&& 0xF)
  if fieldOf v 31 31 = 0 then s
  else
    let op := fieldOf v 3 0
    let rows := s.maskRows n
    let st := s.rowStatus n op (fieldOf v 30 4 ≠ 0) rows
    if st.1 ≠ 0 then
      s.wr (Reg.NDL_STAT n) (setField (setField (s.rd (Reg.NDL_STAT n)) 22 16 st.2) 15 0 st.1)
    else s.rowIssue n op rows

/-- The path to command set `n` (R292): set 4 is Spindle's alone. -/
def State.ndlGated (s : State) (via : Via) (n : Nat) (k : State → State) : State :=
  if n = 4 then (match via with
    | .spindle => k s
    | _ => s)
  else if n < 4 then s.gated via n k else s

/-- ROW_LOAD (R280). -/
def execRowLoad (via : Via) (n : Nat) (v : Word) (s : State) : Host.Outcome State Fault Refusal :=
  .next (s.ndlGated via n (fun s => s.ndlCmdWrite n v))

/-- ROW_START (R327). -/
def execRowStart (via : Via) (n : Nat) (v : Word) (s : State) : Host.Outcome State Fault Refusal :=
  .next (s.ndlGated via n (fun s => s.ndlCmdWrite n v))

/-- ROW_PAUSE (R296). -/
def execRowPause (via : Via) (n : Nat) (v : Word) (s : State) : Host.Outcome State Fault Refusal :=
  .next (s.ndlGated via n (fun s => s.ndlCmdWrite n v))

/-- ROW_RESUME (R299). -/
def execRowResume (via : Via) (n : Nat) (v : Word) (s : State) : Host.Outcome State Fault Refusal :=
  .next (s.ndlGated via n (fun s => s.ndlCmdWrite n v))

/-- ROW_SAVE (R300). -/
def execRowSave (via : Via) (n : Nat) (v : Word) (s : State) : Host.Outcome State Fault Refusal :=
  .next (s.ndlGated via n (fun s => s.ndlCmdWrite n v))

/-- ROW_RESTORE (R301). -/
def execRowRestore (via : Via) (n : Nat) (v : Word) (s : State) : Host.Outcome State Fault Refusal :=
  .next (s.ndlGated via n (fun s => s.ndlCmdWrite n v))

/-- ROW_STOP (R289). -/
def execRowStop (via : Via) (n : Nat) (v : Word) (s : State) : Host.Outcome State Fault Refusal :=
  .next (s.ndlGated via n (fun s => s.ndlCmdWrite n v))

/-- ROW_RETIRE (R311). -/
def execRowRetire (via : Via) (n : Nat) (v : Word) (s : State) : Host.Outcome State Fault Refusal :=
  .next (s.ndlGated via n (fun s => s.ndlCmdWrite n v))

/-! ### Loading (R281 to R285) -/

/-- Chunks of a row's image. -/
def Row.chunkCount (r : Row) : Nat := (r.len + 1023) / 1024

/-- Is a row's chunk bitmap complete? -/
def Row.complete (r : Row) : Bool := (List.range r.chunkCount).all (fun c => r.chunks.contains c)

/-- Row `l` asks for chunks again: a repair round, or LOAD_EXHAUSTED once 4 are used (R284). -/
def State.repairRound (s : State) (l : Nat) : State :=
  let r := s.row l
  if 4 ≤ r.rounds then s.rowFault l 0x82
  else ((s.setRow l { r with rounds := r.rounds + 1 }).count Ctr.NDL_REPAIR).event Reg.NDL_EVT 3

/-- Chunks reach row `l`, all but those in `bad`, whose CRC fails; an incomplete bitmap asks again (R282). -/
def State.chunksIn (s : State) (l : Nat) (c : RowCmd) (bad : List Nat) : State :=
  let r := s.row l
  let got := (List.range r.chunkCount).filter (fun k => !r.chunks.contains k && !bad.contains k)
  let prog := got.foldl (fun m k =>
    ((List.range (min 1024 (r.len - 1024 * k))).foldl (fun m i => store 0 m (1024 * k + i) (fetch 0 c.image (1024 * k + i))) m)) r.prog
  let r := { r with prog, chunks := r.chunks ++ got }
  let s := s.setRow l r
  if r.complete then s else s.repairRound l

/-- The loader of command set `n` ends its first pass; `bad` lists the chunks that a row discarded (R281, R282). -/
def State.loadPassEnd (s : State) (n : Nat) (bad : List (Nat × List Nat)) : State :=
  match s.rowCmd n with
  | some c =>
    if c.op ≠ 1 then s
    else c.rows.foldl (fun s l =>
      if (s.row l).rounds = 0 ∧ (s.row l).chunks = [] then
        s.chunksIn l c ((bad.find? (fun b => b.1 = l)).map (fun b => b.2) |>.getD [])
      else s) s
  | none => s

/-- The command in progress on row `l`, when that is a LOAD. -/
def State.loadOf (s : State) (l : Nat) : Option RowCmd :=
  if s.rowState l = 2 then (s.row l).owner.bind (fun n => s.rowCmd n) else none

/-- The loader answers row `l`'s repair request (R282). -/
def State.repairRequest (s : State) (l : Nat) (bad : List Nat) : State :=
  match s.loadOf l with
  | some c => if 1 ≤ (s.row l).rounds ∧ !(s.row l).complete then s.chunksIn l c bad else s
  | none => s

/-- Row `l` has hashed its image (R283, R284). -/
def State.digestCheck (s : State) (l : Nat) : State :=
  match s.loadOf l with
  | some c =>
    let r := s.row l
    if !r.complete then s
    else
      let h := sha3x256 (imgBytes r.prog r.len)
      if h = c.digest then
        let s := (s.setRow l { r with digest := h, chunks := [], rounds := 0 }).setRowState l 3
        (s.count Ctr.NDL_LOAD).rowDone l 0
      else (s.setRow l { r with chunks := [] }).repairRound l
  | none => s

/-- LOAD_PASS_END (R282). -/
def execLoadPassEnd (n : Nat) (bad : List (Nat × List Nat)) (s : State) : Host.Outcome State Fault Refusal :=
  .next (s.loadPassEnd n bad)

/-- REPAIR_REQUEST (R282). -/
def execRepairRequest (row : Nat) (bad : List Nat) (s : State) : Host.Outcome State Fault Refusal :=
  .next (s.repairRequest row bad)

/-- ROW_DIGEST_CHECK (R283). -/
def execRowDigestCheck (row : Nat) (s : State) : Host.Outcome State Fault Refusal := .next (s.digestCheck row)

/-! ### Pauses, waves and faults -/

/-- A freeze of slice `n` ends with `st`: rows that paused for it resume, fetching resumes, and the slice is in RUN
(R742). -/
def State.freezeBack (s : State) (n st : Nat) : State :=
  match s.rowCmd (5 + n) with
  | some c =>
    let s := c.targets.foldl (fun s l =>
      let s := if s.rowState l = 5 ∨ s.rowState l = 6 then s.setRowState l 4 else s
      s.setRow l { s.row l with owner := none }) s
    ((s.setRowCmd (5 + n) none).setSliceState n 0).sliceCmdEnd n st
  | none => s

/-- Row `l` has not reached a safe point within its pause limit (R296, R742); a bind-off goes on without it. -/
def State.pauseTimeout (s : State) (l : Nat) : State :=
  if s.rowState l ≠ 5 then s
  else
    let s := ((s.count Ctr.NDL_SAFE_TO).event Reg.NDL_EVT 2).setRowState l 4
    match (s.row l).owner with
    | some k =>
      if s.partState = 3 then s.rowDone l 0x0262
      else if 5 ≤ k then s.freezeBack (k - 5) 0x0262
      else if s.sliceState (s.rowSlice l) = 1 then (s.rowDone l 0x0262).freezeBack (s.rowSlice l) 0x0262
      else s.rowDone l 0x0262
    | none => s

/-- The next wave at `t` (R833): at most 16 rows, in ascending order, of the rows that commands hold for release. -/
def State.rowWave (s : State) (t : Nat) : State :=
  let gap := 1000 * s.rf Reg.CAST_CTL 23 16
  if s.lastWave.any (fun w => t < w + gap) then s
  else
    let held := (List.range 128).filterMap (fun l =>
      match (s.row l).owner with
      | some n => (match s.rowCmd n with
        | some c => if [2, 4, 6].contains c.op && c.rows.contains l then some (l, n, c.op) else none
        | none => none)
      | none => none)
    let wave := held.take 16
    let s := if wave = [] then s else { s.reach t with lastWave := some t }
    wave.foldl (fun s (e : Nat × Nat × Nat) => s.releaseRow e.2.1 e.2.2 e.1) s

/-- Spindle retires row `l`, which serves a job and is in FAULT (R313, R314). -/
def State.faultRecovery (s : State) (l : Nat) : State :=
  if s.rowState l = 0xA ∧ s.rowServesJob l then
    let r := s.retireRow l
    if r.2 then r.1.rowMembership (s.rowSlice l) else r.1.withdraw (s.rowSlice l)
  else s

/-- Row `l` makes no internal progress for HANG_MS (R305, R306): a needle of it runs. -/
def State.rowHang (s : State) (l : Nat) : State :=
  if s.rowRuns l ∧ (List.range 16).any (fun i => (s.needle l i).wait = .run) then s.rowFault l 0x80 else s

/-- An uncorrected error in row `l`'s program buffer (R264). -/
def State.pbufUe (s : State) (l : Nat) : State :=
  if s.rowState l = 0 ∨ s.rowState l = 1 ∨ s.rowState l = 0xA then s else s.rowFault l 0x81

/-- PAUSE_TIMEOUT (R296). -/
def execPauseTimeout (row : Nat) (s : State) : Host.Outcome State Fault Refusal := .next (s.pauseTimeout row)

/-- ROW_WAVE (R833). -/
def execRowWave (t : Nat) (s : State) : Host.Outcome State Fault Refusal := .next (s.rowWave t)

/-- ROW_HANG (R305). -/
def execRowHang (row : Nat) (s : State) : Host.Outcome State Fault Refusal := .next (s.rowHang row)

/-- PBUF_UE (R264). -/
def execPbufUe (row : Nat) (s : State) : Host.Outcome State Fault Refusal := .next (s.pbufUe row)

/-- ROW_FAULT_RECOVERY (R313). -/
def execRowFaultRecovery (row : Nat) (s : State) : Host.Outcome State Fault Refusal := .next (s.faultRecovery row)

/-- PACE_UPDATE (R277). -/
def execPaceUpdate (die pace : Nat) (s : State) : Host.Outcome State Fault Refusal :=
  .next (if die < 4 then s.wf (Reg.NDL_PACE die) 15 0 pace else s)

end Sys2Proof.Machine
end

