-- ==== Sys2Proof/Machine/SliceImage.lean ====
section
/-! DEFINITION. The slice state block (R744, R746): what it holds, and its byte form, which the spec does not give. -/

namespace Sys2Proof.Machine

/-- A row that SAVE has saved: its program image's address and length. -/
structure SavedRow where
  row : Nat
  addr : Nat
  len : Nat
  deriving DecidableEq, Repr

/-- What a slice state block records (R744): VERSION and GEN; die numbers with their region sizes; saved rows; ring
indices, trigger counters and notify entries by register; RMA regions and keys; connections; Carder feeds. -/
structure SliceImage where
  version : Nat
  gen : Nat
  dies : List (Nat × Nat)
  rows : List SavedRow
  regs : SMap Word
  regions : SMap (Option RmaRegion)
  gens : SMap Nat
  quar : SMap Bool
  conns : SMap RmaConn
  feeds : List Feed
  deriving DecidableEq, Repr

/-- The bytes of a block before its digest, and the block that 4 MiB of memory hold, as the length of those bytes and what
they record; their form is the part's own (log entry 30). -/
opaque Config.sliceBytes : SliceImage → List (BitVec 8)
opaque Config.sliceRead : List (BitVec 8) → Option (Nat × SliceImage)

end Sys2Proof.Machine
end

