-- ==== Sys2Proof/Machine/Time.lean ====
section
/-! DEFINITION. The time base (R48, R892, R893). -/

namespace Sys2Proof.Machine

/-- The time base in units of 2^-32 ns after one TCLK cycle with rate correction ADJ (R892). -/
def tbAdvance (tb : Nat) (adj : Word) : Nat := ((tb : Int) + 2 ^ 32 + signed 32 adj.toNat).toNat

/-- One TCLK cycle passes: the time base advances (R892). -/
def State.tick (s : State) : State :=
  let tb := tbAdvance (s.now * 2 ^ 32 + s.nowFrac) (s.rd Reg.PWR_TB_ADJ)
  { s with now := tb / 2 ^ 32 % 2 ^ 64, nowFrac := tb % 2 ^ 32 }

/-- State of the time base (R894): 0 FREE, 1 ACQUIRING, 2 LOCKED, 3 HOLDOVER. -/
def State.tbState (s : State) : Nat := s.rf Reg.PWR_TB_STAT 2 0

def State.setTbState (s : State) (x : Nat) : State := s.wf Reg.PWR_TB_STAT 2 0 x

/-- Kind of the time source: 0 FREE, 1 PTP, 2 WOARD; and its port or link. -/
def State.tbKind (s : State) : Nat := s.rf Reg.PWR_TB_SRC 1 0
def State.tbIndex (s : State) : Nat := s.rf Reg.PWR_TB_SRC 14 8

/-- The source is measured at `t` to be `d` ns ahead of the time base (R893 to R895). Before the part first reaches READY
the first measurement sets the time base; later ones steer it by ADJ, a free value within its bounds. -/
def State.measure (s : State) (t : Nat) (d : Int) : State :=
  let s := s.wf Reg.PWR_TB_STAT 31 8 (unsigned 24 (clampInt (-8388608) 8388607 d))
  if !s.tbFixed then
    { s with now := ((s.now : Int) + d).toNat % 2 ^ 64, tbFixed := true, tbOffsets := [], tbHeard := ((t : Int) + d).toNat }.setTbState 1
  else
    let adj : Int := (s.freeBits 64 % 858995 : Nat) - 429497
    let s := s.useFree.wr Reg.PWR_TB_ADJ (BitVec.ofNat 32 (unsigned 32 adj))
    let ds := (d :: s.tbOffsets).take 16
    let s := { s with tbOffsets := ds, tbHeard := t }
    if 16 ≤ ds.length ∧ ds.all (fun x => -100 ≤ x && x ≤ 100) then
      if s.tbState = 2 then s else (s.setTbState 2).event Reg.PWR_EVT 6
    else if s.tbState = 2 ∧ -1000 ≤ d ∧ d ≤ 1000 then s
    else s.setTbState 1

end Sys2Proof.Machine
end

