-- ==== Sys2Proof/Machine/SliceCmd.lean ====
section
/-! DEFINITION. The slice commands (R740 to R746, R760, R761, R769): reset, freeze, save, restore, and namespaces. -/

namespace Sys2Proof.Machine

/-! ### Which registers a slice owns -/

/-- The slice that the register or counter at offset `a` of a row with these dimensions belongs to. -/
def State.ownerBy (s : State) (base : Nat) (dims : List (Nat × Nat)) (a : Nat) : Option Nat :=
  match dims with
  | (c, st) :: _ =>
    let i := (a - base) / st
    if c = 1024 ∨ c = 16384 then some (s.shareOwner c i)
    else if base = Reg.MEM_HANK_MODE 0 ∨ base = Reg.MEM_HANK_BUSY 0 then some (s.sliceOfDie i)
    else if base = Reg.NDL_ROW 0 then none
    else some i
  | [] => none

/-- Is the register at offset `a` reset with slice `n` (R13)? The row states are not: R315 gives them. -/
def State.sliceReg (s : State) (n a : Nat) : Bool :=
  (regRow a).any (fun r => r.dom = .slice && s.ownerBy r.base r.dims a = some n)

/-- Is the counter at offset `a` reset with slice `n`? -/
def State.sliceCtr (s : State) (n a : Nat) : Bool :=
  (liveCtr a).any (fun r => r.2.dom = .slice && s.ownerBy r.2.base r.2.dims a = some n)

/-! ### Slice reset (R315, R752) -/

/-- Every row of slice `n` stops where it is (R315); a command on it ends, without a status when it is the slice's own. -/
def State.rowsReset (s : State) (n : Nat) : State :=
  let rows := s.sliceRows n
  let s := rows.foldl (fun s l => if s.rowState l = 0 then s else s.rowCleared l) s
  let s := rows.foldl (fun s l => if (s.row l).owner = some 4 then s.rowDone l 0 else s.setRow l { s.row l with owner := none }) s
  (s.setRowCmd n none).setRowCmd (5 + n) none

/-- Twist holds nothing of slice `n` any more (R255); what was in flight is known as of a slice in reset. -/
def State.twistReset (s : State) (n : Nat) : State :=
  let t := s.tws
  { s with tws := { t with
      colls := t.colls.filter (fun c => c.slice ≠ n), kept := t.kept.filter (fun k => k.slice ≠ n),
      failed := t.failed.filter (fun f => f.1 ≠ n), noted := t.noted.filter (fun f => f.1 ≠ n),
      heldRecs := t.heldRecs.filter (fun h => h.slice ≠ n), past := t.past.filter (fun c => c.slice ≠ n),
      resetting := t.resetting ++ (t.colls.filter (fun c => c.slice = n)).map (fun c => (n, c.d.collId)) } }

/-- The RMA tables of slice `n` (file 11): connections QUARANTINED, regions invalid and their indices quarantined, work
queues gone. -/
def State.rmaReset (s : State) (n : Nat) : State :=
  let r := s.rma
  let conns := r.conns.map (fun (e : Nat × RmaConn) =>
    if s.connSlice e.1 = n then (e.1, ({ state := 3, epoch := e.2.epoch, known := e.2.known, opens := e.2.opens } : RmaConn)) else e)
  let mine (e : Nat × Option RmaRegion) : Bool := s.inShare n 1048576 e.1
  let quar := (r.regions.filter mine).foldl (fun m e => store false m e.1 true) r.keyQuar
  { s with rma := { r with
      conns, regions := r.regions.filter (fun e => !mine e), keyQuar := quar,
      wqs := r.wqs.filter (fun e => s.shareOwner 1024 e.1 ≠ n), fences := store none r.fences n none, deregs := store none r.deregs n none,
      edge := r.edge.filter (fun o => match o.work with
        | .place c _ _ _ => s.connSlice c ≠ n
        | .resp c _ _ _ _ => s.connSlice c ≠ n
        | .source c _ _ => s.connSlice c ≠ n
        | .serve c _ _ _ => s.connSlice c ≠ n) } }

/-- The namespaces of slice `n` go; their commands complete with Namespace Not Ready (R752, R773). -/
def State.spacesReset (s : State) (n : Nat) : State :=
  (List.range 8).foldl (fun s j =>
    match s.space n j with
    | some x => x.cmds.foldl (fun (s : State) (c : NvmeCmd) => s.cmdEnd n j { c with status := 0x0082 })
        { s with spaces := store none s.spaces (8 * n + j) none }
    | none => s) s

/-- The memory of slice `n` is wiped: HBM and hank of its dies, their tags, and the marks of their pages. -/
def State.sliceWipe (s : State) (n : Nat) : State :=
  let mine (a : Nat) : Bool := s.ownerOf a = some n
  { s with mem := s.mem.filter (fun e => !mine e.1), tags := s.tags.filter (fun e => !mine (8 * e.1)),
           dirty := s.dirty.filter (fun e => !mine (65536 * e.1)), pend := s.pend.filter (fun e => !mine (65536 * e.1)),
           push := s.push.filter (fun p => s.sliceOfDie p.die ≠ n) }

/-- RESET begins: everything of the slice goes at once, and the slice is RESETTING until `resetEnd`. -/
def State.resetStart (s : State) (n : Nat) : State :=
  let s := (((((s.rowsReset n).feedsClose n).optOff n).twistReset n).rmaReset n).spacesReset n
  let s := (List.range 8).foldl (fun s k => s.setCopyList n k []) s
  let s := (((s.setCkp n {}).setJob n {}).sliceWipe n).trustSliceErase n
  let regs := s.regs.filter (fun e => !s.sliceReg n e.1)
  let ctrs := s.ctrs.filter (fun e => !s.sliceCtr n e.1)
  let holds := s.holds.filter (fun e => !s.sliceCtr n e.1)
  ((({ s with regs, ctrs, holds }.setSliceState n 6).wf (Reg.HOST_S_STAT n) 31 31 1).trustShow n).evidenceSync

/-- RESET ends: the slice is in RUN, and the part starts a fence for it (file 11). -/
def State.resetEnd (s : State) (n : Nat) : State :=
  let s := ((s.setSliceState n 0).sliceCmdEnd n 0).rmaFence n
  { s with tws := { s.tws with resetting := s.tws.resetting.filter (fun x => x.1 ≠ n) } }.evidenceSync

/-- One TCLK cycle with no command: the time base advances, and slice resets that run end (log entry 3). -/
def State.idle (s : State) : State :=
  (List.range 4).foldl (fun s n => if s.hasSlice n && s.sliceState n == 6 then s.resetEnd n else s) s.tick

/-! ### Freeze and thaw (R741, R742) -/

/-- Slice `n` stops fetching, and pauses its RUNNING rows. -/
def State.freezeStart (s : State) (n : Nat) : State :=
  let running := (s.sliceRows n).filter (fun l => s.rowState l = 4)
  let held := (s.sliceRows n).filter (fun l => (s.row l).owner = some (5 + n))
  let s := (s.setRowCmd (5 + n) (some { op := 3, rows := running, targets := running ++ held })).setSliceState n 1
  let s := held.foldl (fun s l => s.setRow l { s.row l with owner := none }) s
  running.foldl (fun s l => (s.setRow l { s.row l with owner := some (5 + n) }).setRowState l 5) s

/-- Every row of slice `n` has paused, and its started work requests, copies and NVMe commands are complete (R741). -/
def State.freezeDone (s : State) (n : Nat) : Bool :=
  !(s.sliceRows n).any (fun l => [2, 4, 5, 8, 9].contains (s.rowState l)) &&
  !s.rma.wqs.any (fun e => e.2.any (fun q => q.slice = n && q.reqs ≠ [])) &&
  (List.range 8).all (fun k => s.copyList n k = []) &&
  (List.range 8).all (fun j => (s.space n j).all (fun x => x.cmds = []))

/-- FREEZE of slice `n` completes: it is FROZEN. A bind-off has set no command running. -/
def State.freezeEnd (s : State) (n : Nat) : State :=
  if s.hasSlice n ∧ s.sliceState n = 1 ∧ s.freezeDone n then
    let s := s.setSliceState n 2
    if s.partState = 3 then s else s.sliceCmdEnd n 0
  else s

/-- The rows that THAW resumes: those that FREEZE paused, or RESTORE restored. -/
def State.thawRows (s : State) (n : Nat) : List Nat :=
  (match s.rowCmd (5 + n) with
    | some c => c.targets
    | none => []).filter (fun l => s.rowState l = 6 && (s.row l).owner = none)

/-- THAW: the slice is in RUN, and its rows resume, in waves when they are more than 16 (R833). -/
def State.thaw (s : State) (n : Nat) : State :=
  let rows := s.thawRows n
  let s := s.setSliceState n 0
  if rows.length ≤ 16 then (rows.foldl (fun s l => s.setRowState l 4) s).setRowCmd (5 + n) none
  else
    rows.foldl (fun s l => s.setRow l { s.row l with owner := some (5 + n) })
      (s.setRowCmd (5 + n) (some { op := 4, rows, targets := rows }))

/-! ### Save and restore (R744 to R746) -/

def State.saveAddr (s : State) (n : Nat) : Nat := s.addrOf (Reg.HOST_S_SAVE_LO n) (Reg.HOST_S_SAVE_HI n)

/-- Is the place of the state block in the slice's system region? -/
def State.savePlaced (s : State) (n : Nat) : Bool := s.inSliceRegion n .system (s.saveAddr n) 0x400000 && s.inSlice n (s.saveAddr n) 0x400000

/-- The registers of slice `n` that the state block holds: ring indices, trigger counters and notify entries. -/
def State.savedReg (s : State) (n a : Nat) : Bool :=
  [Reg.TWS_DQ_TAIL n, Reg.TWS_DQ_HEAD n, Reg.TWS_CQ_HEAD n, Reg.TWS_CQ_TAIL n].contains a ||
  (List.range 8).any (fun k => [Reg.PAGE_CPY_TAIL n k, Reg.PAGE_CPY_HEAD n k, Reg.PAGE_CPY_CQ_HEAD n k, Reg.PAGE_CPY_CQ_TAIL n k].contains a) ||
  (Reg.RMA_WQ_TAIL 0 ≤ a && a < Reg.RMA_WQ_TAIL 1024 && s.shareOwner 1024 ((a - Reg.RMA_WQ_TAIL 0) / 16) = n) ||
  (Reg.RMA_CTR_VAL 0 ≤ a && a < Reg.RMA_CTR_VAL 16384 && s.shareOwner 16384 ((a - Reg.RMA_CTR_VAL 0) / 8) = n) ||
  (Reg.PAGE_NOTIFY_VALUE n 0 ≤ a && a < Reg.PAGE_NOTIFY_VALUE n 256)

/-- What the state block of slice `n` records. -/
def State.sliceImage (s : State) (n : Nat) (rows : List Nat) : SliceImage :=
  { version := 1, gen := s.rf Reg.GLB_CONTRACT 7 0, dies := (s.diesOf n).map (fun d => (d, (s.rd (Reg.MEM_PART d)).toNat)),
    rows := rows.map (fun l => ⟨l, (s.row l).addr, (s.row l).len⟩),
    regs := s.regs.filter (fun e => s.savedReg n e.1),
    regions := s.rma.regions.filter (fun e => s.inShare n 1048576 e.1),
    gens := s.rma.gens.filter (fun e => s.inShare n 1048576 e.1),
    quar := s.rma.keyQuar.filter (fun e => s.inShare n 1048576 e.1),
    conns := s.rma.conns.filter (fun e => s.connSlice e.1 = n),
    feeds := s.carder.feeds.filter (fun x => x.slice = n) }

/-- The rows of slice `n` that are PAUSED. -/
def State.pausedRows (s : State) (n : Nat) : List Nat := (s.sliceRows n).filter (fun l => s.rowState l = 6)

/-- SAVE (R744): every PAUSED row to its context slot, and the state block with its digest. -/
def State.sliceSave (s : State) (n : Nat) : State :=
  let rows := s.pausedRows n
  let body := (Config.sliceBytes (s.sliceImage n rows)).take (0x400000 - 32)
  let s := rows.foldl (fun s l => s.saveRow n l) s
  (s.writeB (s.saveAddr n) (body ++ sha3x256 body)).setSliceState n 4

/-- The state block at HOST_Sn_SAVE, if its digest and VERSION are good. -/
def State.readBlock (s : State) (n : Nat) : Option SliceImage :=
  let bs := s.bytes (s.saveAddr n) 0x400000
  match Config.sliceRead bs with
  | some (k, x) => if k + 32 ≤ 0x400000 ∧ x.version = 1 ∧ sha3x256 (bs.take k) = (bs.drop k).take 32 then some x else none
  | none => none

/-- A saved row's program is loaded from its address. -/
def State.loadSaved (s : State) (r : SavedRow) : State :=
  let bs := s.bytes r.addr r.len
  (s.setRow r.row { prog := imgOf bs 0, len := r.len, addr := r.addr, digest := sha3x256 bs }).setRowState r.row 3

/-- The state of slice `n` that the block records is restored (R746): connections CLOSED with their last epochs, feeds OPEN
and stopped. -/
def State.blockIn (s : State) (n : Nat) (x : SliceImage) : State :=
  let regs := (x.regs.filter (fun e => s.savedReg n e.1)).foldl (fun m e => store (regReset e.1) m e.1 e.2) s.regs
  let r := s.rma
  let regions := (x.regions.filter (fun e => s.inShare n 1048576 e.1)).foldl (fun m e => store none m e.1 e.2) r.regions
  let gens := (x.gens.filter (fun e => s.inShare n 1048576 e.1)).foldl (fun m e => store 0 m e.1 e.2) r.gens
  let quar := (x.quar.filter (fun e => s.inShare n 1048576 e.1)).foldl (fun m e => store false m e.1 e.2) r.keyQuar
  let conns := (x.conns.filter (fun e => s.connSlice e.1 = n)).foldl (fun m (e : Nat × RmaConn) =>
    store {} m e.1 { state := if e.2.state = 3 then 3 else 0, epoch := e.2.epoch, known := e.2.known, opens := e.2.opens }) r.conns
  let feeds := (x.feeds.filter (fun f => f.slice = n && f.idx < 16)).map (fun (f : Feed) => { f with stopped := true, written := [], ready := [] })
  let s := { s with regs, rma := { r with regions, gens, keyQuar := quar, conns },
                    carder := { s.carder with feeds := s.carder.feeds.filter (fun f => f.slice ≠ n) ++ feeds } }
  feeds.foldl (fun s (f : Feed) => s.setFeedState n f.idx 1) s

/-- Rows IDLE, and every ring and queue of slice `n` disabled, as RESTORE asks. -/
def State.restoreReady (s : State) (n : Nat) : Bool :=
  (s.sliceRows n).all (fun l => s.rowState l ≤ 1) && s.rf (Reg.TWS_DQ_SIZE n) 31 31 = 0 && !s.optEnabled n &&
  s.rf (Reg.SPN_RING_CFG n) 31 31 = 0 && s.rma.wqs.all (fun e => e.2.all (fun q => q.slice ≠ n)) &&
  (List.range 8).all (fun k => s.rf (Reg.PAGE_CPY_CFG n k) 31 31 = 0) &&
  (List.range 2).all (fun p => (s.ctl p).sqs.all (fun q => q.id = 0 || queueSlice q.id ≠ n))

/-- The status of RESTORE for block `x` (R746). -/
def State.blockStatus (s : State) (n : Nat) (x : SliceImage) : Nat :=
  if x.gen ≠ s.rf Reg.GLB_CONTRACT 7 0 then 0x0231
  else if x.dies ≠ (s.diesOf n).map (fun d => (d, (s.rd (Reg.MEM_PART d)).toNat)) then 0x02F4
  else 0

/-- RESTORE (R746): the status, and the slice with the block restored. -/
def State.sliceRestore (s : State) (n : Nat) : Nat × State :=
  match s.readBlock n with
  | none => (0x02F3, s)
  | some x =>
    if s.blockStatus n x ≠ 0 then (s.blockStatus n x, s)
    else
      let rows := x.rows.filter (fun r => r.row < 128 && s.rowSlice r.row = n && s.rowState r.row = 1)
      let t := rows.foldl (fun s r => s.loadSaved r) s
      match rows.find? (fun r => t.restoreStatus n r.row ≠ 0) with
      | some r => (t.restoreStatus n r.row, s)
      | none =>
        let t := rows.foldl (fun s (r : SavedRow) => s.restoreRow n r.row) t
        let t := t.setRowCmd (5 + n) (some { op := 3, rows := [], targets := rows.map (fun r => r.row) })
        (0, (t.blockIn n x).setSliceState n 2)

/-! ### Namespaces (R760, R761, R769) -/

def State.hostArg (s : State) (n : Nat) : Nat := s.addrOf (Reg.HOST_S_ARG_LO n) (Reg.HOST_S_ARG_HI n)

/-- The status of NS_ATTACH of namespace `j` with the descriptor at HOST_Sn_ARG (R761). -/
def State.attachStatus (s : State) (n j : Nat) : Nat :=
  let a := s.hostArg n
  let f (o k : Nat) : Nat := s.le (a + o) k
  if !s.inSlice n a 32 then 0x01F2
  else if f 15 1 / 2 ≠ 0 ∨ f 16 3 / 2 ^ 18 ≠ 0 ∨ f 19 1 ≠ 0 ∨ f 29 3 ≠ 0 ∨ (s.space n j).isSome then 0x01F0
  else if f 5 5 = 0 ∨ f 10 5 < f 5 5 then 0x01F1
  else if f 0 5 % 65536 ≠ 0 ∨ !s.inSliceRegion n .stage (f 0 5) (65536 * f 5 5) then 0x01F2
  else 0

/-- NS_ATTACH passes its checks: every slot is empty, and both controllers post an event. -/
def State.attach (s : State) (n j : Nat) : State :=
  let a := s.hostArg n
  let f (o k : Nat) : Nat := s.le (a + o) k
  let x : Namespace := { stage := f 0 5, slots := f 5 5, units := f 10 5, ro := bitOf (f 15 1) 0, conn := f 16 3, key := f 20 4, off := f 24 5 }
  let s := (s.setSpace n j x).wf (Reg.HOST_S_NSMAP n) j j 1
  (s.nvmeEvent 0 2 0 4).nvmeEvent 1 2 0 4

/-! ### The command register (R740) -/

/-- The states in which a slice command is allowed. -/
def sliceOpStates (op : Nat) : List Nat :=
  match op with
  | 1 => [0, 1, 2, 3, 4, 5, 6]
  | 2 => [0]
  | 3 => [2, 4]
  | 4 => [2]
  | 5 => [0]
  | 6 => [0, 2]
  | 7 => [0, 2]
  | _ => []

/-- The class 0x01 status of a slice command. -/
def State.sliceIllegal (s : State) (n op j : Nat) (rsv : Bool) : Nat :=
  if rsv ∨ op = 0 ∨ 8 ≤ op then 0x01F0
  else if (op = 4 ∨ op = 5) ∧ !s.savePlaced n then 0x01F2
  else if op = 6 then s.attachStatus n j
  else 0

/-- The status of a slice command (R31, R740). -/
def State.sliceStatus (s : State) (via : Via) (n op j : Nat) (rsv : Bool) : Nat :=
  let paged : Bool := match via with
    | .page _ _ _ => true
    | _ => false
  let busy := s.rf (Reg.HOST_S_STAT n) 31 31 = 1
  if s.sliceIllegal n op j rsv ≠ 0 then s.sliceIllegal n op j rsv
  else if !(sliceOpStates op).contains (s.sliceState n) ∨ (busy ∧ op ≠ 1) then 0x02F0
  else if op = 5 ∧ !s.restoreReady n then 0x02F0
  else if op = 7 ∧ (s.space n j).isNone then 0x02F0
  else if paged ∧ op ≤ 5 then 0x04F0
  else 0

/-- A slice command that has passed its checks. -/
def State.sliceIssue (s : State) (n op j : Nat) : State :=
  match op with
  | 1 => s.resetStart n
  | 2 => (s.freezeStart n).wf (Reg.HOST_S_STAT n) 31 31 1
  | 3 => (s.thaw n).sliceCmdEnd n 0
  | 4 => (s.sliceSave n).sliceCmdEnd n 0
  | 5 => let r := s.sliceRestore n
         r.2.sliceCmdEnd n r.1
  | 6 => (s.attach n j).sliceCmdEnd n 0
  | _ =>
    match s.space n j with
    | some x => ((s.setSpace n j { x with leaving := true }).wf (Reg.HOST_S_STAT n) 31 31 1).spaceGo n j
    | none => s

/-- The status of a slice command that is refused: one that runs goes on. -/
def State.sliceRefuse (s : State) (n st : Nat) : State :=
  (s.wr (Reg.HOST_S_ERR n) (BitVec.ofNat 32 st)).wf (Reg.HOST_S_STAT n) 15 4 (st / 16)

/-- A write of HOST_Sn_CMD. -/
def State.sliceCmdWrite (s : State) (via : Via) (n : Nat) (v : Word) : State :=
  let s := s.wr (Reg.HOST_S_CMD n) (v &&& 0x70F)
  if fieldOf v 31 31 = 0 then s
  else
    let rsv := fieldOf v 30 11 ≠ 0 || fieldOf v 7 4 ≠ 0
    let st := s.sliceStatus via n (fieldOf v 3 0) (fieldOf v 10 8) rsv
    if st ≠ 0 then s.sliceRefuse n st else s.sliceIssue n (fieldOf v 3 0) (fieldOf v 10 8)

/-- SLICE_RESET (R315). -/
def execSliceReset (via : Via) (n : Nat) (v : Word) (s : State) : Host.Outcome State Fault Refusal :=
  .next (s.gated via n (fun s => s.sliceCmdWrite via n v))

/-- SLICE_FREEZE (R741). -/
def execSliceFreeze (via : Via) (n : Nat) (v : Word) (s : State) : Host.Outcome State Fault Refusal :=
  .next (s.gated via n (fun s => s.sliceCmdWrite via n v))

/-- FREEZE_COMPLETE (R741). -/
def execFreezeComplete (n : Nat) (s : State) : Host.Outcome State Fault Refusal := .next (s.freezeEnd n)

/-- SLICE_THAW (R740). -/
def execSliceThaw (via : Via) (n : Nat) (v : Word) (s : State) : Host.Outcome State Fault Refusal :=
  .next (s.gated via n (fun s => s.sliceCmdWrite via n v))

/-- SLICE_SAVE (R744). -/
def execSliceSave (via : Via) (n : Nat) (v : Word) (s : State) : Host.Outcome State Fault Refusal :=
  .next (s.gated via n (fun s => s.sliceCmdWrite via n v))

/-- SLICE_RESTORE (R746). -/
def execSliceRestore (via : Via) (n : Nat) (v : Word) (s : State) : Host.Outcome State Fault Refusal :=
  .next (s.gated via n (fun s => s.sliceCmdWrite via n v))

/-- NS_ATTACH (R761). -/
def execNsAttach (via : Via) (n : Nat) (v : Word) (s : State) : Host.Outcome State Fault Refusal :=
  .next (s.gated via n (fun s => s.sliceCmdWrite via n v))

/-- NS_DETACH (R769). -/
def execNsDetach (via : Via) (n : Nat) (v : Word) (s : State) : Host.Outcome State Fault Refusal :=
  .next (s.gated via n (fun s => s.sliceCmdWrite via n v))

end Sys2Proof.Machine
end

