-- ==== Sys2Proof/Machine/Bind.lean ====
section
/-! DEFINITION. Bind-off and the warm-reset command (R825, R827, R828). -/

namespace Sys2Proof.Machine

/-- The status of the last part command, and no command running. -/
def State.castCmdEnd (s : State) (st : Nat) : State := s.wr Reg.CAST_CMD_STAT (BitVec.ofNat 32 st)

/-- BIND_OFF (R827): every slice stops fetching new work, as FREEZE does. -/
def State.bindOff (s : State) : State :=
  let s := (s.wf Reg.GLB_STATUS 3 0 3).wr Reg.CAST_CMD_STAT 0x80000000
  let s := (s.setCast { s.cast with bindAt := s.now })
  (s.slices.foldl (fun s n => if s.sliceState n = 0 then s.freezeStart n else s) s).evidenceSync

/-- Some stage slot of a namespace is dirty, or its commands are not complete. -/
def Namespace.busy (x : Namespace) : Bool := x.cmds ≠ [] || x.slot.any (fun e => e.2.dirty)

/-- The part leaves BIND_OFF: it announces its withdrawal from every job, and is QUIESCED (R314, R827). -/
def State.quiesce (s : State) (st : Nat) : State :=
  let s := s.slices.foldl (fun s n => (if s.sliceState n = 1 then s.setSliceState n 2 else s).withdraw n) s
  ((s.wf Reg.GLB_STATUS 3 0 4).castCmdEnd st).evidenceSync

/-- Bind-off ends once started work is complete and every dirty unit has drained (R827). -/
def State.bindOffEnd (s : State) : State :=
  if s.partState = 3 ∧ s.slices.all (fun n => s.freezeDone n) ∧ s.spaces.all (fun e => e.2.all (fun x => !x.busy)) then s.quiesce 0 else s

/-- The work of slice `n` that has not completed is dropped (R828). -/
def State.workDrop (s : State) (n : Nat) : State :=
  let s := (s.sliceRows n).foldl (fun s l =>
    let s := if s.rowState l = 4 ∨ s.rowState l = 5 then s.setRowState l 6 else s
    s.setRow l { s.row l with owner := none }) s
  let s := ((s.setRowCmd n none).setRowCmd (5 + n) none).twistReset n
  let s := { s with tws := { s.tws with resetting := s.tws.resetting.filter (fun x => x.1 ≠ n) } }
  let s := (s.rma.conns.filter (fun e => s.connSlice e.1 = n)).foldl (fun s e =>
    s.setConn e.1 { s.conn e.1 with msgs := [], flight := [], waitSince := none }) s
  let wqs := s.rma.wqs.map (fun (e : Nat × Option WorkQueue) =>
    if e.2.any (fun q => q.slice = n) then (e.1, e.2.map (fun q => { q with reqs := [] })) else e)
  let s := { s with rma := { s.rma with wqs } }
  let s := (List.range 8).foldl (fun s k => s.setCopyList n k []) s
  (List.range 8).foldl (fun s j =>
    match s.space n j with
    | some x => s.setSpace n j { x with cmds := [], slot := [], fetching := [] }
    | none => s) s

/-- The limit of bind-off has passed at `t` (R828). -/
def State.bindOffTimeout (s : State) (t : Nat) : State :=
  if s.partState = 3 ∧ s.cast.bindAt + 1000000000 * s.rf Reg.CAST_CTL 31 24 ≤ t then
    let s := s.reach t
    ((s.slices.foldl State.workDrop s).quiesce 0x0213).event Reg.CAST_EVT 3
  else s

/-- The status of a part command (R31, R825). -/
def State.castCmdStatus (s : State) (v : Word) : Nat :=
  let op := fieldOf v 3 0
  if fieldOf v 30 24 ≠ 0 ∨ fieldOf v 7 5 ≠ 0 ∨ op = 0 ∨ 3 ≤ op then 0x0110
  else if op = 1 then (if s.partState = 2 then 0 else 0x0210)
  else if fieldOf v 23 8 ≠ 0x5752 then 0x0113
  else if s.partState ≠ 4 ∧ fieldOf v 4 4 = 0 then 0x0211
  else 0

/-- The status of a part command that is refused: a bind-off that runs goes on. -/
def State.castCmdRefuse (s : State) (st : Nat) : State := s.wf Reg.CAST_CMD_STAT 15 0 st

/-- A write of CAST_CMD, which the operator and Spindle reach. -/
def State.castCmdWrite (s : State) (via : Via) (v : Word) : State :=
  let go (s : State) : State :=
    let s := s.wr Reg.CAST_CMD (v &&& 0x00FFFF1F)
    if fieldOf v 31 31 = 0 then s
    else
      let st := s.castCmdStatus v
      if st ≠ 0 then s.castCmdRefuse st
      else if fieldOf v 3 0 = 1 then s.bindOff
      else s.warmState
  match via with
  | .pf0 _ => go s
  | .spindle => go s
  | _ => s

/-- WARM_RESET (R825). -/
def execWarmReset (via : Via) (v : Word) (s : State) : Host.Outcome State Fault Refusal := .next (s.castCmdWrite via v)

/-- BIND_OFF (R827). -/
def execBindOff (via : Via) (v : Word) (s : State) : Host.Outcome State Fault Refusal := .next (s.castCmdWrite via v)

/-- BIND_OFF_COMPLETE (R827). -/
def execBindOffComplete (s : State) : Host.Outcome State Fault Refusal := .next s.bindOffEnd

/-- BIND_OFF_TIMEOUT (R828). -/
def execBindOffTimeout (t : Nat) (s : State) : Host.Outcome State Fault Refusal := .next (s.bindOffTimeout t)

end Sys2Proof.Machine
end

