-- ==== Sys2Proof/Machine/LinkCmd.lean ====
section
/-! DEFINITION. The events of the links and the switch: a flit that arrives, with FEC, CRC, order, cut-through, stomping and
replacement (R575, R597, R604 to R608); bring-up, replay, retrain, calibration and time sync; packets and entries. -/

namespace Sys2Proof.Machine

/-! ### The receive path -/

/-- One received codeword of a Tight link: its data bits join the deframer, unless it belongs to the alignment group at the
start of the block (R575, R577). -/
def State.codewordIn (s : State) (n w : Nat) : State :=
  let l := s.link n
  let r := tightDecode w
  let align := l.rxPos < 4
  let l := { l with rxPos := (l.rxPos + 1) % 1028 }
  let d := match r with
    | some x => x.1
    | none => w % 2 ^ 120
  let l := if align then l else
    { l with rxBits := l.rxBits + d * 2 ^ l.rxLen, rxLen := l.rxLen + 120, rxBad := l.rxBad || r.isNone }
  let s := s.setLink n l
  match r with
  | some (_, true) => s.count (Ctr.LNK_FEC_CORR n)
  | some (_, false) => s
  | none => s.count (Ctr.LNK_FEC_UNC n)

/-- What the receiver has of a flit: its bytes, and whether a codeword in it failed; none while bits are missing. -/
def State.deframe (s : State) (n : Nat) (rx : FlitRx) : State × Option (List Byte × Bool) :=
  if s.linkTight n then
    let ws := rx.groups.flatMap (tightGroup (s.linkState n = 7))
    let s := ws.foldl (fun s w => s.codewordIn n w) s
    let l := s.link n
    if 2048 ≤ l.rxLen then
      let rest := l.rxLen - 2048
      let bytes := leBytes 256 (l.rxBits % 2 ^ 2048)
      (s.setLink n { l with rxBits := l.rxBits / 2 ^ 2048, rxLen := rest, rxBad := l.rxBad && rest ≠ 0 }, some (bytes, l.rxBad))
    else (s, none)
  else
    ((s.countN (Ctr.LNK_FEC_CORR n) rx.corr).countN (Ctr.LNK_FEC_UNC n) rx.unc, some (fitBytes 256 rx.loose, rx.unc ≠ 0))

/-- The receiver asks for a replay once (R597). -/
def State.sendNak (s : State) (n : Nat) : State :=
  let l := s.link n
  if l.nakSent then s else (s.setLink n { l with nakSent := true }).sendFlit n 0 0 true [] false

/-- The next SEQ expected. -/
def Link.expected (l : Link) : Nat :=
  match l.rxSeq with
  | some q => (q + 1) % 4096
  | none => 0

def State.vcRx (s : State) (n vc : Nat) : VcRx := fetch {} (s.link n).rx vc

def State.setVcRx (s : State) (n vc : Nat) (r : VcRx) : State :=
  s.setLink n { s.link n with rx := store {} (s.link n).rx vc r }

/-- The output on which a packet whose first flit arrives may be cut through (R604): a unicast packet for another part. -/
def State.cutOutput (s : State) (n vc : Nat) (idle : Bool) (payload : List Byte) : Option Nat :=
  if !(idle && s.rf Reg.SWT_CTL 8 8 = 1 && s.linkTight n) then none
  else if pktMalformed vc payload || !(opcodeVcs (pktOpcode payload)).contains vc || pktHops payload = 0 || pktMcast payload ||
      pktDstPart payload = s.partId then none
  else
    match s.routeOut payload with
    | some o =>
      if s.mayStart o vc ((pktSize payload + 239) / 240) && !(s.link o).queue.any (fun q => q.1 = vc) then some o else none
    | none => none

/-- Forwards one flit of a packet that is cut through to output `o`; the header's HOPS falls by one. -/
def State.cutFlit (s : State) (o vc : Nat) (sop eop replace stomp : Bool) (payload : List Byte) : State :=
  let payload := if sop then withHops payload (pktHops payload - 1) else payload
  if s.linkLive o then s.newData o vc sop eop replace stomp payload else s.count (Ctr.LNK_DROP o)

/-- A DATA flit whose CRC fails (R597, R605): a copy under way on an output ends stomped. -/
def State.badData (s : State) (n : Nat) (idle : Bool) (header : Nat) (payload : List Byte) : State :=
  let l := s.link n
  let vc := bitsOf header 6 4
  let sop := bitOf header 7
  let r := s.vcRx n vc
  if bitsOf header 3 0 = 1 ∧ bitsOf header 21 10 = l.expected ∧ !l.nakSent ∧ idle ∧ !r.hold then
    match (if sop then s.cutOutput n vc idle payload else r.cutTo) with
    | some o =>
      let s := ((s.cutFlit o vc sop (bitOf header 8) r.stomped true payload).count Ctr.SWT_STOMP_TX).count Ctr.SWT_CUT
      s.setVcRx n vc { r with cutTo := some o, stomped := true }
    | none => s
  else s

/-- A stomped DATA flit, accepted in order (R606, R608): its payload is discarded and its credit returned. -/
def State.stompedData (s : State) (n header : Nat) : State :=
  let vc := bitsOf header 6 4
  let eop := bitOf header 8
  let r := s.vcRx n vc
  let s := (s.giveCredit n vc 1).count (Ctr.LNK_STOMP_RX n)
  let s := match r.cutTo with
    | some o => (s.cutFlit o vc false eop (r.stomped || bitOf header 9) true []).count Ctr.SWT_STOMP_TX
    | none => s
  if bitOf header 9 && eop then (s.setVcRx n vc {}).count (Ctr.LNK_DROP n) |>.giveCredit n vc r.flits.length
  else s.setVcRx n vc { r with hold := true, stomped := r.cutTo.isSome }

/-- A good DATA flit, accepted in order: it joins its packet, or goes on by cut-through (R604, R607). -/
def State.goodData (s : State) (n : Nat) (idle : Bool) (header : Nat) (payload : List Byte) : State :=
  let vc := bitsOf header 6 4
  let sop := bitOf header 7
  let eop := bitOf header 8
  let r := s.vcRx n vc
  let out := if r.cutTo.isSome then r.cutTo else if sop then s.cutOutput n vc idle payload else none
  match out with
  | some o =>
    let s := (s.cutFlit o vc sop eop r.stomped false payload).giveCredit n vc 1
    let s := if idle && !r.stomped then s.count Ctr.SWT_CUT else s
    let s := if sop then s.count Ctr.SWT_FWD else s
    s.setVcRx n vc (if eop then {} else { cutTo := some o })
  | none =>
    let flits := (if sop then [] else r.flits) ++ [payload]
    if eop then
      let s := s.setVcRx n vc {}
      let p := flits.flatten
      s.setLink n { s.link n with inbox := (s.link n).inbox ++ [(vc, flits.length, p.take (pktSize p))] }
    else s.setVcRx n vc { flits }

/-- A DATA flit with a good or a stomped CRC (R597). -/
def State.dataIn (s : State) (n : Nat) (idle stomped : Bool) (header : Nat) (payload : List Byte) : State :=
  let l := s.link n
  let seq := bitsOf header 21 10
  if s.linkState n = 8 then s
  else if seq ≠ l.expected then s.sendNak n
  else
    let s := s.setLink n { l with rxSeq := some seq, nakSent := false, owed := l.owed + 1 }
    let s := s.count (Ctr.LNK_FLIT_RX n)
    if stomped then s.stompedData n header else s.goodData n idle header payload

/-- A flit arrives on link `n` (R575, R585 to R587, R597). -/
def State.flitIn (s : State) (n : Nat) (rx : FlitRx) : State :=
  if n < 96 && (s.linkLive n || s.linkState n = 5 || s.linkState n = 8) then
    if rx.lost then s.enterRetrain n
    else
      match s.deframe n rx with
      | (s, none) => s
      | (s, some (bytes, bad)) =>
        let header := leAt bytes 0 8
        let payload := (bytes.drop 8).take 240
        let c := crc64 (bytes.take 248)
        let got := leAt bytes 248 8
        let good := !bad && got = c
        let stomped := !bad && got = c ^^^ (2 ^ 64 - 1) && bitsOf header 3 0 = 1
        if !good && !stomped then
          ((s.count (Ctr.LNK_CRC_ERR n)).badData n rx.idle header payload).sendNak n
        else
          match bitsOf header 3 0 with
          | 0 => s.ackIn n header
          | 1 => (s.dataIn n rx.idle stomped header payload).ackIn n header
          | 2 => s.ackIn n header
          | 3 => (s.count (Ctr.LNK_CAL n)).ackIn n header
          | _ => s.count (Ctr.LNK_CRC_ERR n)
  else s

/-- LINK_DOWN_RETRY (R580). -/
def execLinkDownRetry (n t : Nat) (present : Bool) (s : State) : Host.Outcome State Fault Refusal := .next (s.linkRetry n t present)

/-- LINK_TRAIN_DONE (R581). -/
def execLinkTrainDone (n : Nat) (s : State) : Host.Outcome State Fault Refusal := .next (s.trainDone n)

/-- LINK_TRAIN_TIMEOUT (R581). -/
def execLinkTrainTimeout (n : Nat) (s : State) : Host.Outcome State Fault Refusal := .next (s.trainTimeout n)

/-- IDENT_REPEAT (R582). -/
def execIdentRepeat (n : Nat) (s : State) : Host.Outcome State Fault Refusal := .next (s.identRepeat n)

/-- IDENT_RECEIVE (R582). -/
def execIdentReceive (n : Nat) (payload : List Byte) (s : State) : Host.Outcome State Fault Refusal := .next (s.identIn n payload)

/-- HELLO_RECEIVE (R584). -/
def execHelloReceive (n : Nat) (payload : List Byte) (s : State) : Host.Outcome State Fault Refusal := .next (s.helloIn n payload)

/-- FLIT_RECEIVE (R597). -/
def execFlitReceive (n : Nat) (rx : FlitRx) (s : State) : Host.Outcome State Fault Refusal := .next (s.flitIn n rx)

/-- LINK_ACK_SEND (R598). -/
def execLinkAckSend (n : Nat) (s : State) : Host.Outcome State Fault Refusal :=
  .next (if s.linkLive n && (s.link n).owed ≠ 0 then s.sendFlit n 0 0 false [] false else s)

/-- REPLAY_TIMEOUT (R599). -/
def execReplayTimeout (n : Nat) (s : State) : Host.Outcome State Fault Refusal := .next (s.replayLink n)

/-- LINK_SILENCE_TIMEOUT (R588). -/
def execLinkSilenceTimeout (n : Nat) (s : State) : Host.Outcome State Fault Refusal := .next (s.enterRetrain n)

/-- LINK_RETRAIN_DONE (R601). -/
def execLinkRetrainDone (n : Nat) (lane0 lane1 : Bool) (s : State) : Host.Outcome State Fault Refusal :=
  .next (s.retrainDone n lane0 lane1)

/-- A CAL flit leaves on link `n` (R609). -/
def State.calSlot (s : State) (n : Nat) : State :=
  if s.linkLive n then
    let r := prbs31 1920 (s.link n).prbs
    (s.setLink n { s.link n with prbs := r.2 }).sendFlit n 3 0 false (leBytes 240 r.1) false
  else s

/-- CAL_SLOT (R609). -/
def execCalSlot (n : Nat) (s : State) : Host.Outcome State Fault Refusal := .next (s.calSlot n)

/-! ### Time sync (R612, R613) -/

/-- A TSYNC leaves on link `n` at `t`. -/
def State.tsyncOut (s : State) (t n : Nat) : State :=
  if s.linkState n = 6 then
    let x := (s.link n).tsync.getD (0, 0)
    s.sendCtrl n (fitBytes 240 (leBytes 1 3 ++ leBytes 7 0 ++ leBytes 8 t ++ leBytes 8 x.1 ++ leBytes 8 x.2))
  else s

/-- A TSYNC arrives on link `n` at `t`: half the round trip is the link delay, and on the source's link the offset steers the
time base. -/
def State.tsyncIn (s : State) (n t : Nat) (p : List Byte) : State :=
  if !s.linkLive n ∨ byteAt p 0 ≠ 3 then s
  else
    let sent := leAt p 8 8
    let arrived := leAt p 16 8
    let departed := leAt p 24 8
    let s := (s.reach t).setLink n { s.link n with tsync := some (t, sent) }
    if s.tbKind = 2 ∧ s.tbIndex = n ∧ arrived ≠ 0 then
      let trip : Int := ((t : Int) - departed) - ((sent : Int) - arrived)
      s.measure t ((sent : Int) + trip / 2 - t)
    else s

/-- TSYNC_SEND (R612). -/
def execTsyncSend (t : Nat) (s : State) : Host.Outcome State Fault Refusal :=
  .next ((List.range 96).foldl (fun s n => s.tsyncOut t n) (s.reach t))

/-- TSYNC_RECEIVE (R613). -/
def execTsyncReceive (n t : Nat) (payload : List Byte) (s : State) : Host.Outcome State Fault Refusal := .next (s.tsyncIn n t payload)

/-! ### Register writes -/

/-- A write that reaches a block that no doorbell page copies: PF0 and Spindle alone. -/
def State.hubOnly (s : State) (via : Via) (k : State → State) : State :=
  match via with
  | .pf0 _ => k s
  | .spindle => k s
  | _ => s

/-- A write of LNK_n_CTL (R580): DOWN first, then RETRAIN. -/
def State.linkCtlWrite (s : State) (via : Via) (n : Nat) (v : Word) : State :=
  if 96 ≤ n then s
  else
    let st := s.linkState n
    let s := if fieldOf v 4 4 = 1 ∧ st ≠ 0 ∧ st ≠ 0xA then
        let s := s.linkDown n 0
        s.setLink n { s.link n with held := true }
      else s
    if fieldOf v 3 3 = 1 then
      if s.linkLive n then s.enterRetrain n
      else if s.linkState n = 1 then
        (s.setLink n { s.link n with held := false }).setLinkState n 2
      else s.reject via (Reg.LNK_N_CTL n) 0x02C0
    else s

/-- LINK_DOWN_CMD (R580). -/
def execLinkDownCmd (via : Via) (n : Nat) (v : Word) (s : State) : Host.Outcome State Fault Refusal :=
  .next (s.hubOnly via (fun s => s.linkCtlWrite via n v))

/-- LINK_RETRAIN_CMD (R580). -/
def execLinkRetrainCmd (via : Via) (n : Nat) (v : Word) (s : State) : Host.Outcome State Fault Refusal :=
  .next (s.hubOnly via (fun s => s.linkCtlWrite via n v))

/-- PACKET_FORWARD (R614). -/
def execPacketForward (inp : Nat) (injected : List Byte) (s : State) : Host.Outcome State Fault Refusal :=
  .next (s.packetForward inp injected)

/-- SWT_RT_COMMIT (R633). -/
def execSwtRtCommit (via : Via) (n : Nat) (v : Word) (s : State) : Host.Outcome State Fault Refusal :=
  .next (s.hubOnly via (fun s => if n < 16384 then s.commitEntry via false (Reg.SWT_RT_LO n) (Reg.SWT_RT_HI n) v else s))

/-- SWT_EP_COMMIT (R634): endpoint n + 1. -/
def execSwtEpCommit (via : Via) (n : Nat) (v : Word) (s : State) : Host.Outcome State Fault Refusal :=
  .next (s.hubOnly via (fun s => if n < 48 then s.commitEntry via true (Reg.SWT_EP_LO n) (Reg.SWT_EP_HI n) v else s))

/-- SWT_MC_COMMIT (R633). -/
def execSwtMcCommit (via : Via) (n : Nat) (v : Word) (s : State) : Host.Outcome State Fault Refusal :=
  .next (s.hubOnly via (fun s => if n < 4096 then s.commitGroup via n v else s))

/-- EP_ALIVE_RECEIVE (R629, R542). -/
def execEpAliveReceive (ep : Nat) (s : State) : Host.Outcome State Fault Refusal := .next (s.setSuspect (endpointKey ep) false)

end Sys2Proof.Machine
end

