-- ==== Sys2Proof/Machine/TrustCmd.lean ====
section
/-! DEFINITION. The cipher engine (R799 to R816): wide channels, context records, sealed objects, alarms and the generator. -/

namespace Sys2Proof.Machine

/-! ### Alarms (R813 to R816) -/

/-- An encrypted connection whose transmit key is gone enters ERROR (R815). -/
def State.cipherLost (s : State) : State :=
  (s.rma.conns.filter (fun e => e.2.enc && e.2.state = 1 && (s.cipher e.2.cipher).tx.isNone)).foldl
    (fun s e => s.rmaError e.1 0x0404 false) s

/-- Alarm source `i` (R813, R814). -/
def State.alarm (s : State) (i : Nat) : State :=
  let s := ((s.count Ctr.TRUST_ALARMS).event Reg.TRUST_ALARM i).event Reg.TRUST_EVT 0
  (s.wf Reg.TRUST_STATE 16 16 1).alarmErase.cipherLost

/-! ### Commands of a slice's set -/

/-- A command of slice `n` ends with `st`; the staging registers clear (R805). -/
def State.trustEnd (s : State) (n st : Nat) : State :=
  let s := (List.range 8).foldl (fun s k => s.wr (Reg.TRUST_KEY n k) 0) (s.wr (Reg.TRUST_SALT n) 0)
  (s.wf (Reg.TRUST_STAT n) 15 0 st).trustShow n

def State.trustArg (s : State) (n : Nat) : Nat := s.addrOf (Reg.TRUST_ARG_LO n) (Reg.TRUST_ARG_HI n)

/-- The staged key and salt of slice `n` (R805). -/
def State.stagedKey (s : State) (n : Nat) : List Byte × List Byte :=
  ((List.range 8).flatMap (fun k => leBytes 4 (s.rd (Reg.TRUST_KEY n k)).toNat), leBytes 4 (s.rd (Reg.TRUST_SALT n)).toNat)

/-- A key enters a direction of wide channel `i` (R805, R806). -/
def State.cipherLoad (s : State) (i : Nat) (rx : Bool) (key salt : List Byte) : State :=
  let c := s.cipher i
  s.setCipher i (if rx then { c with rx := some (key, salt) } else { c with tx := some (key, salt), used := false })

/-- ERASE of a direction. -/
def State.cipherErase (s : State) (i : Nat) (rx : Bool) : State :=
  let c := s.cipher i
  s.setCipher i (if rx then { c with rx := none } else { c with tx := none, used := false })

/-- A channel holds no key. -/
def Cipher.empty (c : Cipher) : Bool := c.tx.isNone && c.rx.isNone

/-- The body of a channel's context record: both keys and both salts. -/
def Cipher.body (c : Cipher) : List Byte :=
  let tx := c.tx.getD ([], [])
  let rx := c.rx.getD ([], [])
  fitBytes 32 tx.1 ++ fitBytes 32 rx.1 ++ fitBytes 4 tx.2 ++ fitBytes 4 rx.2

/-- Bytes 0 to 31 of a context record. -/
def contextHead (form used ch slice : Nat) (nonce : List Byte) (gen : Nat) : List Byte :=
  record [(2, 1), (1, form), (1, used), (2, ch), (1, slice), (1, 0)] ++ fitBytes 12 nonce ++ record [(4, gen), (8, 0)]

/-- SAVE_CLEAR or SAVE_WRAPPED of channel `i` to `a` (R809 to R811): the generation rises, and the channel is erased. -/
def State.cipherSave (s : State) (n i a : Nat) (wrapped : Bool) : State :=
  let c := s.cipher i
  let gen := (c.gen + 1) % 2 ^ 32
  let nonce := if wrapped then s.draw 12 else []
  let s := if wrapped then s.drew else s
  let head := contextHead (bit wrapped) (bit c.used) i n nonce gen
  let e := if wrapped then gcmSeal s.trust.bootKey nonce head c.body else (c.body, List.replicate 16 0)
  (s.writeB a (head ++ e.1 ++ e.2 ++ List.replicate 8 0)).setCipher i { gen }

/-- The channel that a context record restores, or why not (R811). -/
def State.contextOpen (s : State) (r : List Byte) (i : Nat) : Nat ⊕ Cipher :=
  let wrapped := byteAt r 2 = 1
  let body := if wrapped then gcmOpen s.trust.bootKey ((r.drop 8).take 12) (r.take 32) ((r.drop 32).take 72) ((r.drop 104).take 16)
    else some ((r.drop 32).take 72)
  match body with
  | none => .inl 0x0406
  | some b =>
    if wrapped ∧ leAt r 20 4 ≠ (s.cipher i).gen then .inl 0x0406
    else .inr { tx := some (b.take 32, (b.drop 64).take 4), rx := some ((b.drop 32).take 32, (b.drop 68).take 4),
                used := bitOf (byteAt r 3) 0, gen := (s.cipher i).gen }

/-- The form of a context record for channel `i` of slice `n`. -/
def contextOk (r : List Byte) (n i : Nat) : Bool :=
  leAt r 0 2 = 1 && byteAt r 2 < 2 && byteAt r 3 < 2 && leAt r 4 2 = i && byteAt r 6 = n && byteAt r 7 = 0 && leAt r 24 8 = 0 && leAt r 120 8 = 0

/-- A privileged channel's two results differ (R808): nothing is released, the key it used is erased, and the alarm raised. -/
def State.privMismatch (s : State) (erase : State → State) : State := ((erase s).count Ctr.TRUST_MISMATCH).alarm 4

/-! ### Sealed objects (R801 to R803) -/

/-- Chunks of `len` plaintext bytes. -/
def sealChunks (len : Nat) : Nat := (len + 65535) / 65536

/-- Bytes of a sealed object. -/
def sealedLen (len : Nat) : Nat := 128 + len + 16 * sealChunks len

/-- Header of a sealed object. -/
def sealHead (id len : Nat) (salt : List Byte) : List Byte :=
  record [(4, 0x4C414553), (2, 1), (2, 0), (8, id), (8, len)] ++ fitBytes 32 salt ++ List.replicate 72 0

/-- Object key, nonce and additional data of a chunk (R801). -/
def sealKey (key salt : List Byte) : List Byte := kmac256 key salt 32 (asciiBytes "MZ-SEAL")
def sealNonce (i : Nat) : List Byte := leBytes 8 i ++ [0, 0, 0, 0]
def sealAad (head : List Byte) (i : Nat) : List Byte := head ++ leBytes 8 i

/-- Decrypts `k` chunks from chunk `i` of the object at `src` to `dst`; the result says whether every tag was good. -/
def State.unsealN (src dst len : Nat) (key head : List Byte) : Nat → Nat → State → State × Bool
  | 0, _, s => (s, true)
  | k + 1, i, s =>
    let m := min 65536 (len - 65536 * i)
    let a := src + 128 + 65552 * i
    match gcmOpen key (sealNonce i) (sealAad head i) (s.bytes a m) (s.bytes (a + m) 16) with
    | none => (s.writeB dst (List.replicate (min len (65536 * i)) 0), false)
    | some p => State.unsealN src dst len key head k (i + 1) (s.writeB (dst + 65536 * i) p)

/-- Encrypts `k` chunks from chunk `i`. -/
def State.sealN (src dst len : Nat) (key head : List Byte) : Nat → Nat → State → State
  | 0, _, s => s
  | k + 1, i, s =>
    let m := min 65536 (len - 65536 * i)
    let e := gcmSeal key (sealNonce i) (sealAad head i) (s.bytes (src + 65536 * i) m)
    State.sealN src dst len key head k (i + 1) (s.writeB (dst + 128 + 65552 * i) (e.1 ++ e.2))

/-- The weight key `id` of slice `n`. -/
def State.weightKey (s : State) (n id : Nat) : Option WeightKey := s.trust.weights.find? (fun w => w.slice = n && w.id = id)

/-- A weight key is erased. -/
def State.weightErase (s : State) (w : WeightKey) : State := s.setTrust { s.trust with weights := s.trust.weights.filter (fun x => x ≠ w) }

/-- The form of the command block at `a` (R802). -/
def State.sealBlockOk (s : State) (a : Nat) : Bool :=
  let f (o k : Nat) : Nat := s.le (a + o) k
  let op := f 0 1
  (op = 1 || op = 2) && f 1 1 < 2 && f 2 2 < 2 ^ 14 && f 4 4 = 0 && f 21 3 = 0 && f 29 3 = 0 && f 40 24 = 0 &&
  (op = 2 || (f 8 8 = 0 && f 32 8 = 0)) && (op = 1 || (1 ≤ f 32 8 && f 32 8 < 2 ^ 40))

/-- SEAL_CMD of the block at ARG (R801 to R803): its status and what comes of it. -/
def State.sealCommand (s : State) (n : Nat) (mismatch : Bool) : Nat × State :=
  let a := s.trustArg n
  let f (o k : Nat) : Nat := s.le (a + o) k
  let src := f 16 5
  let dst := f 24 5
  let done (s : State) : State := if f 1 1 = 1 then s.ctrBump (s.ctrIdx n (f 2 2)) else s
  if !s.inSlice n a 64 then (0x0181, s)
  else if !s.sealBlockOk a then (0x0120, s)
  else if f 1 1 = 1 ∧ !s.ctrInShare (f 2 2) then (0x0120, s)
  else if f 0 1 = 1 then
    let head := s.bytes src 128
    let len := leAt head 16 8
    if !s.inSlice n src 128 then (0x0181, s)
    else if leAt head 0 4 ≠ 0x4C414553 ∨ leAt head 4 2 ≠ 1 ∨ leAt head 6 2 ≠ 0 ∨ leAt head 56 72 ≠ 0 ∨ len = 0 ∨ 2 ^ 40 ≤ len then (0x0120, s)
    else if !s.inSlice n src (sealedLen len) ∨ !s.inSlice n dst len then (0x0181, s)
    else
      match s.weightKey n (leAt head 8 8) with
      | none => (0x0121, s)
      | some w =>
        if mismatch then (0x0520, s.privMismatch (fun s => s.weightErase w))
        else
          let r := State.unsealN src dst len (sealKey w.key ((head.drop 24).take 32)) head (sealChunks len) 0 s
          if r.2 then (0, done (r.1.countN Ctr.TRUST_UNSEAL_BYTES len)) else (0x0405, r.1)
  else
    let len := f 32 8
    if !s.inSlice n src len ∨ !s.inSlice n dst (sealedLen len) then (0x0181, s)
    else
      match s.weightKey n (f 8 8) with
      | none => (0x0121, s)
      | some w =>
        if mismatch then (0x0520, s.privMismatch (fun s => s.weightErase w))
        else
          let salt := s.draw 32
          let head := sealHead w.id len salt
          let t := s.drew.writeB dst head
          (0, done ((State.sealN src dst len (sealKey w.key salt) head (sealChunks len) 0 t).countN Ctr.TRUST_UNSEAL_BYTES len))

/-- REVOKE of the weight key whose ID is at ARG: its whole grant goes, unless it is PINNED (R799, R800). -/
def State.revoke (s : State) (n : Nat) : Nat × State :=
  match s.weightKey n (s.le (s.trustArg n) 8) with
  | none => (0x0121, s)
  | some w =>
    if w.pinned then (0x0221, s)
    else (0, s.setTrust { s.trust with weights := s.trust.weights.filter (fun x => x.grant ≠ w.grant) })

/-- What a command answers and does (R805 to R816). -/
def State.trustCommand (s : State) (n : Nat) (v : Word) (mismatch : Bool) : Nat × State :=
  let op := fieldOf v 19 16
  let ch := fieldOf v 9 0
  let i := s.shareIdx n 1024 ch
  let rx := fieldOf v 20 20 = 1
  let a := s.trustArg n
  if fieldOf v 30 21 ≠ 0 ∨ fieldOf v 15 10 ≠ 0 ∨ op = 0 ∨ 8 ≤ op then (0x0120, s)
  else if s.lc = 3 then (0x0408, s)
  else if op ≤ 5 ∧ s.shareSize 1024 ≤ ch then (0x0121, s)
  else if (op = 3 ∨ op = 4 ∨ op = 5) ∧ !s.inSlice n a 128 then (0x0181, s)
  else match op with
    | 1 => if s.alarmSet then (0x0404, s) else let k := s.stagedKey n; (0, s.cipherLoad i rx k.1 k.2)
    | 2 => (0, s.cipherErase i rx)
    | 3 =>
      if s.rf Reg.TRUST_CTL 0 0 = 0 then (0x0407, s) else if (s.cipher i).empty then (0x0221, s) else (0, s.cipherSave n i a false)
    | 4 =>
      if (s.cipher i).empty then (0x0221, s)
      else if mismatch then (0x0520, s.privMismatch (fun s => s))
      else (0, s.cipherSave n i a true)
    | 5 =>
      let r := s.bytes a 128
      if !contextOk r n i then (0x0120, s)
      else if !(s.cipher i).empty then (0x0221, s)
      else if s.alarmSet then (0x0404, s)
      else if mismatch ∧ byteAt r 2 = 1 then (0x0520, s.privMismatch (fun s => s))
      else match s.contextOpen r i with
        | .inl st => (st, s)
        | .inr c => (0, s.setCipher i c)
    | 6 => s.sealCommand n mismatch
    | _ => s.revoke n

/-- A write of TRUST_Sn_CMD. -/
def State.trustCmdWrite (s : State) (n : Nat) (v : Word) (mismatch : Bool) : State :=
  let s := s.wr (Reg.TRUST_CMD n) (v &&& 0x001F03FF)
  if fieldOf v 31 31 = 0 then s
  else
    let r := s.trustCommand n v mismatch
    r.2.trustEnd n r.1

/-- The path to slice `n`'s set: PF0 and Spindle (R818). -/
def State.trustGated (s : State) (via : Via) (n : Nat) (k : State → State) : State :=
  s.hubOnly via (fun s => if s.hasSlice n then k s else s)

/-! ### Rows -/

/-- TRUST_LOAD (R805). -/
def execTrustLoad (via : Via) (n : Nat) (v : Word) (s : State) : Host.Outcome State Fault Refusal :=
  .next (s.trustGated via n (fun s => s.trustCmdWrite n v false))

/-- TRUST_ERASE (R805). -/
def execTrustErase (via : Via) (n : Nat) (v : Word) (s : State) : Host.Outcome State Fault Refusal :=
  .next (s.trustGated via n (fun s => s.trustCmdWrite n v false))

/-- SAVE_CLEAR (R810). -/
def execSaveClear (via : Via) (n : Nat) (v : Word) (s : State) : Host.Outcome State Fault Refusal :=
  .next (s.trustGated via n (fun s => s.trustCmdWrite n v false))

/-- SAVE_WRAPPED (R811). -/
def execSaveWrapped (via : Via) (n : Nat) (v : Word) (mismatch : Bool) (s : State) : Host.Outcome State Fault Refusal :=
  .next (s.trustGated via n (fun s => s.trustCmdWrite n v mismatch))

/-- TRUST_RESTORE (R811). -/
def execTrustRestore (via : Via) (n : Nat) (v : Word) (mismatch : Bool) (s : State) : Host.Outcome State Fault Refusal :=
  .next (s.trustGated via n (fun s => s.trustCmdWrite n v mismatch))

/-- UNSEAL (R803). -/
def execUnseal (via : Via) (n : Nat) (v : Word) (mismatch : Bool) (s : State) : Host.Outcome State Fault Refusal :=
  .next (s.trustGated via n (fun s => s.trustCmdWrite n v mismatch))

/-- SEAL (R801). -/
def execSeal (via : Via) (n : Nat) (v : Word) (mismatch : Bool) (s : State) : Host.Outcome State Fault Refusal :=
  .next (s.trustGated via n (fun s => s.trustCmdWrite n v mismatch))

/-- REVOKE (R800). -/
def execRevoke (via : Via) (n : Nat) (v : Word) (s : State) : Host.Outcome State Fault Refusal :=
  .next (s.trustGated via n (fun s => s.trustCmdWrite n v false))

/-- ALARM (R814): `src` is its bit in TRUST_ALARM. -/
def execAlarm (src : Nat) (s : State) : Host.Outcome State Fault Refusal := .next (if src < 6 then s.alarm src else s)

/-- DRBG_RESEED (R777): after 2^20 requests; a failed health test raises ENTROPY. -/
def execDrbgReseed (healthy : Bool) (s : State) : Host.Outcome State Fault Refusal :=
  .next (if s.trust.draws < 2 ^ 20 then s
    else if healthy then s.setTrust { s.trust with draws := 0 } else s.alarm 5)

/-- RELEASE_SESSION_EXPIRE (R796). -/
def execReleaseSessionExpire (n t : Nat) (s : State) : Host.Outcome State Fault Refusal :=
  .next (match fetch none s.trust.sessions n with
    | some x => if x.since + 60000000000 ≤ t then (s.reach t).setTrust { s.trust with sessions := store none s.trust.sessions n none } else s
    | none => s)

end Sys2Proof.Machine
end

