-- ==== Sys2Proof/Machine/Power.lean ====
section
/-! DEFINITION. Regulators, sensors, the governor, throttles and TRIP_N (R876 to R889), and telemetry (R896 to R898). -/

namespace Sys2Proof.Machine

/-! ### What the governor sees -/

def State.vt (s : State) : Nat := s.rf Reg.PWR_VCORE 9 0
def State.vnom (s : State) : Nat := s.rf Reg.PWR_VCFG 9 0
def State.vmin (s : State) : Nat := s.rf Reg.PWR_VCFG 25 16
def State.gSlow (s : State) : Nat := s.rf Reg.PWR_STAT 15 12

/-- Gating levels of the fast causes (R883). -/
def State.hotGate (s : State) : Nat := s.rf Reg.PWR_CTL 27 24
def State.fastGate (s : State) : Nat := s.rf Reg.PWR_CTL 23 20

/-- A sensor's good reading at the present instant (R881). -/
def State.goodSensor (s : State) (k : Nat) : Option Int :=
  match fetch none s.pwr.junction k with
  | some x => if -40 ≤ x ∧ x ≤ 150 ∧ s.now ≤ fetch 0 s.pwr.junctionAt k + 100000 then some x else none
  | none => none

/-- Good readings of die `d`, with the index of each sensor. -/
def State.goodOf (s : State) (d : Nat) : List (Nat × Int) :=
  (List.range 16).filterMap (fun i => (s.goodSensor (16 * d + i)).map (fun x => (i, x)))

/-- The hottest of some readings: its sensor and value. -/
def hottest : List (Nat × Int) → Option (Nat × Int)
  | [] => none
  | e :: es => match hottest es with
    | some m => if m.2 ≤ e.2 then some e else some m
    | none => some e

/-- The highest stack reading of die `d`. -/
def State.stackMax (s : State) (d : Nat) : Nat := ((List.range 3).map (fun k => fetch 0 s.pwr.stack (4 * d + k))).foldl max 0

/-- A die whose sensors have begun to report and of which fewer than 12 are good counts as above TJ_HOT (R881). -/
def State.blindDie (s : State) (d : Nat) : Bool :=
  s.pwr.junction.any (fun e => e.1 / 16 = d) && (s.goodOf d).length < 12

/-- Does a die stand above `x` °C (R881, R882)? -/
def State.tjAbove (s : State) (x : Int) : Bool := (List.range 4).any (fun d => s.blindDie d || (s.goodOf d).any (fun e => x < e.2))

/-- Is TJ below `x` °C? -/
def State.tjBelow (s : State) (x : Int) : Bool := (List.range 4).all (fun d => !s.blindDie d && (s.goodOf d).all (fun e => e.2 < x))

/-- TH, the highest stack reading. -/
def State.th (s : State) : Nat := ((List.range 4).map s.stackMax).foldl max 0

/-- The causes that hold, in the bit order of PWR_STAT.CAUSE. -/
def State.causes (s : State) : Nat :=
  bit (s.rf Reg.PWR_CTL 15 0 < s.rf Reg.PWR_POWER 15 0) + 2 * bit (s.tjAbove (s.rf Reg.PWR_TLIM 7 0 : Nat)) +
  4 * bit (s.rf Reg.PWR_TLIM 15 8 < s.th) + 8 * bit s.pwr.hot + 16 * bit s.pwr.icc + 32 * bit (s.pwr.silent ≠ [])

/-! ### The gating level and throttles (R878, R883, R885) -/

/-- g (R882). -/
def State.gate (s : State) : Nat := max s.pwr.gFast s.gSlow

/-- A throttle that has run from `start` ends at `t` (R885). -/
def State.throttleEnd (s : State) (start causes t : Nat) : State :=
  let us := (t - start + 999) / 1000
  let s := s.wr64 Reg.PWR_THR_START_LO Reg.PWR_THR_START_HI start
  let s := s.wr Reg.PWR_THR_INFO (BitVec.ofNat 32 (min us (2 ^ 24 - 1) + 2 ^ 24 * causes))
  let s := s.wr Reg.PWR_THR_SEQ (s.rd Reg.PWR_THR_SEQ + 1)
  let s := ((s.count Ctr.PWR_THROTTLE).countN Ctr.PWR_THR_US us).event Reg.PWR_EVT 2
  s.setPwr { s.pwr with thr := none, reports := s.pwr.reports ++ [(start, t)] }

/-- The levels and causes at `t` are shown, and a throttle begins, goes on or ends (R278, R885). -/
def State.powerShow (s : State) (t : Nat) : State :=
  let g := s.gate
  let cs := s.causes
  let on := s.vt < s.vnom ∨ 0 < g
  let s := (s.wf Reg.PWR_STAT 11 8 g).wf Reg.PWR_STAT 21 16 cs
  let s := s.wf Reg.PWR_STAT 3 0 (if s.pwr.tripLow then 2 else if on then 1 else 0)
  let s := (List.range 4).foldl (fun s d => s.wf (Reg.NDL_PACE d) 27 24 g) s
  let s := if cs = 0 then s else s.setPwr { s.pwr with badAt := some t }
  match s.pwr.thr with
  | none => if on then s.setPwr { s.pwr with thr := some (t, cs) } else s
  | some (b, c) => if on then s.setPwr { s.pwr with thr := some (b, c ||| cs) } else s.throttleEnd b (c ||| cs) t

/-- A fast cause raises g_fast to `x` at least (R883). -/
def State.gateRaise (s : State) (x t : Nat) : State :=
  if x ≤ s.pwr.gFast then s
  else (s.setPwr { s.pwr with gFast := x, fastAt := t }).count Ctr.PWR_FAST

/-- HOT_N is asserted at `t` (R883, R884). -/
def State.hotAssert (s : State) (t : Nat) : State :=
  let s := s.reach t
  let s := ((s.setPwr { s.pwr with hot := true }).gateRaise s.hotGate t).powerShow t
  (s.count Ctr.PWR_HOT_N).event Reg.PWR_EVT 1

/-- A die's current estimate exceeds ICC_MAX at `t` (R883). -/
def State.iccOver (s : State) (t : Nat) : State :=
  let s := s.reach t
  ((s.setPwr { s.pwr with icc := true }).gateRaise s.fastGate t).powerShow t

/-- Interface `i` has not answered after three retries: gating holds at FAST_GATE at least until it answers (R879). -/
def State.avsFail (s : State) (t i : Nat) : State :=
  let s := if s.pwr.silent.contains i then s else (s.setPwr { s.pwr with silent := s.pwr.silent ++ [i] }).event Reg.PWR_EVT 3
  s.gateRaise s.fastGate t

/-- Interface `i` answers. -/
def State.avsAnswer (s : State) (i : Nat) : State := s.setPwr { s.pwr with silent := s.pwr.silent.filter (fun x => x ≠ i) }

/-! ### The governor (R882) -/

/-- `over` and `clear` of R882. -/
def State.govOver (s : State) : Bool := s.causes % 16 ≠ 0

def State.govClear (s : State) : Bool :=
  s.rf Reg.PWR_POWER 15 0 + 50 < s.rf Reg.PWR_CTL 15 0 && s.tjBelow ((s.rf Reg.PWR_TLIM 7 0 : Nat) - 3) &&
  s.th + 3 < s.rf Reg.PWR_TLIM 15 8 && !s.pwr.hot

/-- Every VCORE reads within 10 mV of the target. -/
def State.vcoreSettled (s : State) (vt : Nat) : Bool :=
  (List.range 4).all (fun d => let v := s.rf (Reg.PWR_DIE_VI d) 9 0; v ≤ vt + 10 && vt ≤ v + 10)

/-- The decision on vt and g_slow. -/
def State.govSlow (s : State) : State :=
  let vt := s.vt
  if s.govOver then
    let s := s.setPwr { s.pwr with clears := 0 }
    let s := if vt = s.vmin then s.wf Reg.PWR_STAT 15 12 (min 15 (s.gSlow + 1)) else s
    s.wr Reg.PWR_VCORE (BitVec.ofNat 32 (max s.vmin (vt - 10)))
  else if s.govClear then
    let s := s.setPwr { s.pwr with clears := s.pwr.clears + 1 }
    if s.pwr.clears < 10 then s
    else if 0 < s.gSlow then s.wf Reg.PWR_STAT 15 12 (s.gSlow - 1)
    else s.wr Reg.PWR_VCORE (BitVec.ofNat 32 (min s.vnom (vt + 5)))
  else s.setPwr { s.pwr with clears := 0 }

/-- The decision on g_fast; a silent interface holds it at FAST_GATE at least (R879). -/
def State.govFast (s : State) (t : Nat) : State :=
  if 0 < s.pwr.gFast ∧ s.pwr.fastAt + 1000000 ≤ t ∧ !s.pwr.hot ∧ !s.pwr.icc ∧ s.pwr.silent = [] ∧ s.vcoreSettled s.vt then
    s.setPwr { s.pwr with gFast := s.pwr.gFast - 1 }
  else s

/-- VCORE is commanded on AVS0 to AVS3, of which those in `silent` do not answer; `again` frames are sent again (R878, R879). -/
def State.avsCommand (s : State) (t : Nat) (silent : List Nat) (again : Nat) : State :=
  let s := s.countN Ctr.PWR_AVS_ERR again
  [0, 1, 2, 3].foldl (fun s i =>
    let s := s.emit (.avsWrite i s.vt)
    if silent.contains i then s.avsFail t i else s.avsAnswer i) s

/-- A decision at `t`, a whole multiple of 100 µs, with the levels of HOT_N and of the current estimates; from phase ALIGN on it commands
VCORE (R878, R882, R886). -/
def State.decide (s : State) (t : Nat) (hot icc : Bool) (silent : List Nat) (again : Nat) : State :=
  if t % 100000 ≠ 0 ∨ s.cast.off then s
  else
    let s := s.reach t
    let s := s.setPwr { s.pwr with hot, icc }
    let s := s.govSlow
    let s := s.govFast t
    (if s.partState = 1 ∧ s.rf Reg.CAST_PHASE 3 0 < 5 then s else s.avsCommand t silent again).powerShow t

/-! ### AVSBus readings (R878, R879) -/

/-- One interface's readings. -/
def State.avsOne (s : State) (t i : Nat) (r : AvsRead) : State :=
  let s := s.countN Ctr.PWR_AVS_ERR r.again
  match r.read with
  | some (v, a) =>
    let p := s.pwr
    let s := (s.setPwr { p with volts := store 0 p.volts i v, amps := store 0 p.amps i a }).avsAnswer i
    if i < 4 then s.wr (Reg.PWR_DIE_VI i) (BitVec.ofNat 32 (v % 1024 + 65536 * (a % 1024))) else s
  | none => s.avsFail t i

/-- Readings of AVS0 to AVS5 at `t`, with the estimate in W for the rails that are not on AVSBus: package power over the last 1 ms and
package energy follow. -/
def State.avsRead (s : State) (t : Nat) (rs : List AvsRead) (est : Nat) : State :=
  if t % 100000 ≠ 0 then s
  else
    let s := s.reach t
    let s := ((List.range 6).zip rs).foldl (fun s (e : Nat × AvsRead) => s.avsOne t e.1 e.2) s
    let mw := ((List.range 6).map (fun i => fetch 0 s.pwr.volts i * fetch 0 s.pwr.amps i)).sum + 1000 * est
    let samples := (mw :: s.pwr.samples).take 10
    let e := s.pwr.energy + mw
    let s := s.setPwr { s.pwr with samples, energy := e % 10000 }
    let s := s.countN Ctr.PWR_ENERGY_MJ (e / 10000)
    (s.wr Reg.PWR_POWER (BitVec.ofNat 32 (samples.sum / samples.length / 1000 % 65536 + 65536 * (est % 65536)))).powerShow t

/-! ### Sensors and the trip (R880, R881, R887) -/

/-- The part drives TRIP_N low (R887). -/
def State.trip (s : State) (t : Nat) : State :=
  if s.pwr.tripLow then s
  else
    let s := (s.setPwr { s.pwr with tripLow := true }).emit (.pin "TRIP_N" false)
    let s := (s.wf Reg.PWR_STAT 15 12 15).wr Reg.PWR_VCORE (BitVec.ofNat 32 s.vmin)
    ((s.event Reg.PWR_EVT 0).alarm 1).powerShow t

/-- Sensor `k` at `t`: its reading, none when it has not updated; a failure counts once, until a good reading. -/
def State.sensorOne (s : State) (t k : Nat) (x : Option Int) : State :=
  let p := s.pwr
  let p := match x with
    | some v => { p with junction := store none p.junction k (some v), junctionAt := store 0 p.junctionAt k t }
    | none => p
  let s := s.setPwr p
  let bad := (fetch none p.junction k).isSome && (s.goodSensor k).isNone
  let s' := s.setPwr { s.pwr with failed := store false s.pwr.failed k bad }
  if bad && !fetch false s.pwr.failed k then s'.event Reg.PWR_EVT 4 else s'

/-- Junction readings of die `d` at `t` (R880): two samples in a row at TJ_TRIP trip (R887). -/
def State.sensorSample (s : State) (t d : Nat) (xs : List (Option Int)) : State :=
  if 4 ≤ d then s
  else
    let s := s.reach t
    let s := ((List.range 16).zip xs).foldl (fun s (e : Nat × Option Int) => s.sensorOne t (16 * d + e.1) e.2) s
    let lim : Int := (s.rf Reg.PWR_TLIM 23 16 : Nat)
    let at_ (i : Nat) : Bool := (s.goodSensor (16 * d + i)).any (fun v => lim ≤ v)
    let again := (List.range 16).any (fun i => at_ i && fetch false s.pwr.atTrip (16 * d + i))
    let s := s.setPwr { s.pwr with atTrip := (List.range 16).foldl (fun m i => store false m (16 * d + i) (at_ i)) s.pwr.atTrip }
    let s := match hottest (s.goodOf d) with
      | some e => (s.wf (Reg.PWR_DIE_T d) 7 0 (unsigned 8 e.2)).wf (Reg.PWR_DIE_T d) 21 16 e.1
      | none => s
    if again then s.trip t else s.powerShow t

/-- Stack readings of die `d` at `t` (R880): HBM_TRIP trips (R887). -/
def State.hbmTemp (s : State) (t d : Nat) (xs : List Nat) : State :=
  if 4 ≤ d then s
  else
    let s := s.reach t
    let xs := xs.take (s.stacksOf d)
    let s := s.setPwr { s.pwr with stack := ((List.range 3).zip xs).foldl (fun m (e : Nat × Nat) => store 0 m (4 * d + e.1) e.2) s.pwr.stack }
    let s := s.wf (Reg.PWR_DIE_T d) 15 8 (s.stackMax d)
    if s.rf Reg.PWR_TLIM 31 24 ≤ s.stackMax d then s.trip t else s.powerShow t

/-! ### Throttle reports (R819, R820, R862) -/

/-- At a multiple of 10 ms Spindle reports the throttles that have ended, merged into one, to each slice. -/
def State.throttleReport (s : State) (t : Nat) : State :=
  match s.pwr.reports with
  | [] => s
  | (b, e) :: rest =>
    if t % 10000000 ≠ 0 ∨ s.coreAway 3 then s
    else
      let last := (rest.map (fun x => x.2)).foldl max e
      let s := (s.reach t).setPwr { s.pwr with reports := [] }
      let ms := (last - b + 999999) / 1000000
      s.slices.foldl (fun s n => s.report n 3 0 (b / 1000000 * 1000000) (leBytes 4 ms)) s

/-! ### ALERT_N (R889) -/

/-- Is ALERT_N low? -/
def State.alertLow (s : State) : Bool :=
  s.rf Reg.PWR_EVT 7 0 &&& s.rf Reg.PWR_ALERT_MASK 7 0 ≠ 0 || (List.range 8).any (fun c => s.rf Reg.SPN_CORE (4 * c + 3) (4 * c) = 3)

/-! ### Telemetry (R896 to R898) -/

/-- Offsets of the live counters of the block with base `b`, ascending, and of each link or port of LNK and ETH. -/
def sectionCtrs (code : Nat) : List (List Nat) :=
  let all := (ctrRowsOf code).flatMap (fun r => ctrsOfDims r.dims r.base)
  if code = 0x6 then (List.range 96).map (fun n => (List.range 11).map (fun k => 0x610100 + 0x1000 * n + 8 * k))
  else if code = 0xC then (List.range 32).map (fun n => (List.range 12).map (fun k => 0xC10100 + 0x1000 * n + 8 * k))
  else [(List.range 512).filterMap (fun i => all.find? (fun a => a % 65536 = 8 * i))]

/-- A section of pairs. -/
def State.telSection (s : State) (code : Nat) (cs : List Nat) : List Byte :=
  record [(2, code), (2, cs.length)] ++ cs.flatMap (fun a => let c := s.ctr a; leBytes 8 (c.count + 2 ^ 63 * bit c.sat))

/-- The 64 bytes of a capture's header, FRAG and FRAGS left 0. -/
def State.telHead (s : State) (t : Nat) : List Byte :=
  record [(4, 0x4C45545A), (2, 1), (2, s.partId + 2 ^ 15 * s.rf Reg.GLB_PART_ID 31 31), (4, (s.rd Reg.PWR_TEL_SEQ).toNat), (4, 0), (8, t),
    (2, s.rf Reg.PWR_POWER 15 0), (2, s.vt), (1, s.gate), (1, s.rf Reg.PWR_STAT 3 0), (1, s.rf Reg.PWR_STAT 21 16), (1, s.tbState),
    (1, s.rf (Reg.PWR_DIE_T 0) 7 0), (1, s.rf (Reg.PWR_DIE_T 1) 7 0), (1, s.rf (Reg.PWR_DIE_T 2) 7 0), (1, s.rf (Reg.PWR_DIE_T 3) 7 0),
    (1, s.rf (Reg.PWR_DIE_T 0) 15 8), (1, s.rf (Reg.PWR_DIE_T 1) 15 8), (1, s.rf (Reg.PWR_DIE_T 2) 15 8), (1, s.rf (Reg.PWR_DIE_T 3) 15 8),
    (24, 0)]

/-- Capture period in ns. -/
def State.telPeriod (s : State) : Nat := 1000000 * s.rf Reg.PWR_TEL_CFG 15 0

/-- A capture at `t` (R896). -/
def State.telCapture (s : State) (t : Nat) : State :=
  if s.rf Reg.PWR_TEL_CFG 31 31 = 0 ∨ s.telPeriod = 0 ∨ t % s.telPeriod ≠ 0 then s
  else
    let s := (s.reach t).wr Reg.PWR_TEL_SEQ (s.rd Reg.PWR_TEL_SEQ + 1)
    let codes := ((List.range 16).zip (regBlocks.map (fun b => b.2.2))).filter (fun e => bitOf (s.rd Reg.PWR_TEL_MASK).toNat e.1)
    let sections := codes.flatMap (fun e => (sectionCtrs e.2).map (s.telSection e.2))
    let c : Capture := { time := t, head := s.telHead t, sections }
    s.setPwr { s.pwr with captures := s.pwr.captures ++ [c], lastHead := some c.head }

/-- Sections gathered into datagrams of at most 1,408 bytes after the header; no section spans two. -/
def packSections : List Byte → List (List Byte) → List (List Byte)
  | acc, [] => [acc]
  | acc, x :: xs => if acc.length + x.length ≤ 1408 then packSections (acc ++ x) xs else acc :: packSections x xs

/-- The datagrams of a capture. -/
def Capture.datagrams (c : Capture) : List (List Byte) :=
  let ps := packSections [] c.sections
  ((List.range ps.length).zip ps).map (fun e => c.head.take 12 ++ leBytes 1 e.1 ++ leBytes 1 ps.length ++ c.head.drop 14 ++ e.2)

/-- Spindle sends the oldest capture to the collector (R897). -/
def State.telSend (s : State) : State :=
  match s.pwr.captures with
  | [] => s
  | c :: rest =>
    let q := s.pat.collector
    if s.coreAway 6 ∨ s.portState q.2.2 ≠ 2 then s
    else
      let s := s.setPwr { s.pwr with captures := rest }
      let s := c.datagrams.foldl (fun s d => s.ethQueue q.2.2 ⟨2, Config.udpFrame q.1 q.2.1 d, false⟩) s
      s.count Ctr.PWR_TEL_SENT

/-- A capture that has waited a whole period at `t` is dropped (R898). -/
def State.telDrop (s : State) (t : Nat) : State :=
  match s.pwr.captures with
  | c :: rest =>
    if t < c.time + s.telPeriod then s
    else (((s.reach t).setPwr { s.pwr with captures := rest }).count Ctr.PWR_TEL_DROP).event Reg.PWR_EVT 7
  | [] => s

/-! ### Commands -/

/-- GOVERNOR_DECISION (R882). -/
def execGovernorDecision (t : Nat) (hot icc : Bool) (silent : List Nat) (again : Nat) (s : State) : Host.Outcome State Fault Refusal :=
  .next (s.decide t hot icc silent again)

/-- HOT_N_ASSERT (R884). -/
def execHotNAssert (t : Nat) (s : State) : Host.Outcome State Fault Refusal := .next (s.hotAssert t)

/-- ICC_OVER (R883). -/
def execIccOver (t die : Nat) (s : State) : Host.Outcome State Fault Refusal := .next (if die < 4 then s.iccOver t else s)

/-- AVS_READ (R878). -/
def execAvsRead (t : Nat) (reads : List AvsRead) (est : Nat) (s : State) : Host.Outcome State Fault Refusal := .next (s.avsRead t reads est)

/-- SENSOR_SAMPLE (R880). -/
def execSensorSample (t die : Nat) (readings : List (Option Int)) (s : State) : Host.Outcome State Fault Refusal :=
  .next (s.sensorSample t die readings)

/-- HBM_TEMP_READ (R880). -/
def execHbmTempRead (t die : Nat) (readings : List Nat) (s : State) : Host.Outcome State Fault Refusal := .next (s.hbmTemp t die readings)

/-- THROTTLE_REPORT (R862). -/
def execThrottleReport (t : Nat) (s : State) : Host.Outcome State Fault Refusal := .next (s.throttleReport t)

/-- TELEMETRY_CAPTURE (R896). -/
def execTelemetryCapture (t : Nat) (s : State) : Host.Outcome State Fault Refusal := .next (s.telCapture t)

/-- TELEMETRY_SEND (R897). -/
def execTelemetrySend (s : State) : Host.Outcome State Fault Refusal := .next s.telSend

/-- TELEMETRY_DROP (R898). -/
def execTelemetryDrop (t : Nat) (s : State) : Host.Outcome State Fault Refusal := .next (s.telDrop t)

end Sys2Proof.Machine
end

