-- ==== Sys2Proof/Machine/Board.lean ====
section
/-! DEFINITION. The board-controller port (R889 to R891), the clocks and rails (R912, R922), and the TAP (R914). -/

namespace Sys2Proof.Machine

/-! ### The board-controller port -/

/-- An MCTP control response: command code, completion code and data, in the form of DSP0236, which R891 names. -/
def State.mctpSay (s : State) (command completion : Nat) (data : List Nat) : State :=
  s.emit (.mctp (record ([(1, 0), (1, 0), (1, command), (1, completion)] ++ data.map (fun x => (1, x)))))

/-- Set Endpoint ID: operations 0 (set) and 1 (force) assign the EID; 0 and 255 are no EIDs. -/
def State.setEid (s : State) (op eid : Nat) : State :=
  if 2 ≤ op ∨ eid = 0 ∨ 255 ≤ eid then s.mctpSay 1 2 []
  else (s.setPwr { s.pwr with eid }).mctpSay 1 0 [0, eid, 0]

/-- SET_ENDPOINT_ID (R891). -/
def execSetEndpointId (op eid : Nat) (s : State) : Host.Outcome State Fault Refusal := .next (s.setEid op eid)

/-- GET_ENDPOINT_ID (R891): a simple endpoint with a dynamic EID. -/
def execGetEndpointId (s : State) : Host.Outcome State Fault Refusal := .next (s.mctpSay 2 0 [s.pwr.eid, 0, 0])

/-- GET_MCTP_VERSION_SUPPORT (R891): the base specification, control messages, and vendor-defined PCI messages. -/
def execGetMctpVersionSupport (type : Nat) (s : State) : Host.Outcome State Fault Refusal :=
  .next (if type = 0xFF ∨ type = 0 ∨ type = 0x7E then s.mctpSay 4 0 [1, 0xF1, 0xF3, 0xF1, 0] else s.mctpSay 4 0x80 [])

/-- GET_MESSAGE_TYPE_SUPPORT (R891): vendor-defined PCI. Every control command that the part does not answer ends here too, with
completion code 0x05. -/
def execGetMessageTypeSupport (command : Nat) (s : State) : Host.Outcome State Fault Refusal :=
  .next (if command = 5 then s.mctpSay 5 0 [1, 0x7E]
    else if command = 1 ∨ command = 2 ∨ command = 4 then s else s.mctpSay command 5 [])

/-- A response to a vendor-defined request. -/
def State.boardSay (s : State) (code : Nat) (bs : List Byte) : State := s.emit (.board code bs)

/-- BOARD_WARM_RESET (R824, R825): it always proceeds, after its response. -/
def execBoardWarmReset (s : State) : Host.Outcome State Fault Refusal := .next (s.boardSay 2 (leBytes 2 0)).warmState

/-- GET_TELEMETRY (R891): the header of the last capture; what it holds before the first is left open. -/
def State.lastTelemetry (s : State) : State :=
  match s.pwr.lastHead with
  | some h => s.boardSay 3 h
  | none => (s.boardSay 3 (leBytes 64 (s.freeBits 512))).useFree

def execGetTelemetry (s : State) : Host.Outcome State Fault Refusal := .next s.lastTelemetry

/-- ALERT_RESPONSE (R889, R890): the part answers with its address while ALERT_N is low. -/
def execAlertResponse (s : State) : Host.Outcome State Fault Refusal := .next (if s.alertLow then s.emit (.alertAddress 0x5A) else s)

/-! ### Host port links, clocks and rails -/

def State.portUpLink (s : State) (p : Nat) : PortLink := fetch {} s.portLinks p

def State.setPortLink (s : State) (p : Nat) (x : PortLink) : State := { s with portLinks := store {} s.portLinks p x }

/-- Phase ALIGN has ended, after which the host ports train (R923). -/
def State.portMayTrain (s : State) : Bool := !(s.partState = 1 && s.rf Reg.CAST_PHASE 3 0 < 5)

/-- PERST_N of a port rises: its link trains when phase ALIGN has ended (R923). -/
def State.perstRelease (s : State) (p : Nat) : State :=
  if 2 ≤ p then s
  else
    let s := s.setPortLink p { perst := true }
    if s.portMayTrain then s.portTrain p else s

/-- PERST_RELEASE (R923). -/
def execPerstRelease (port : Nat) (s : State) : Host.Outcome State Fault Refusal := .next (s.perstRelease port)

/-- Every link of lane chiplet `c` goes DOWN (R912). -/
def State.chipletDown (s : State) (c : Nat) : State :=
  let s := (List.range' (12 * c) 12).foldl (fun s n =>
    if s.linkState n = 0 ∨ s.linkState n = 0xA then s else s.linkDown n 0x05C0) s
  (List.range' (4 * c) 4).foldl (fun s q =>
    if s.linkMode (portLink q) = 2 ∧ s.portState q ≠ 0 then
      let x := s.ethPort q
      let s := (s.countN (Ctr.ETH_TX_DROP q) x.frames.length).setEthPort q { downAt := some s.now }
      (s.wr (Reg.ETH_P_STAT q) (BitVec.ofNat 32 (0x05C0 * 65536))).event Reg.ETH_EVT 0
    else s) s

/-- REFCLK_LOSS (R912): clock 0 is REFCLK_SYS, 1 REFCLK_TB, and 2 + c REFCLK_LANEc. -/
def execRefclkLoss (clk : Nat) (s : State) : Host.Outcome State Fault Refusal :=
  .next (if clk < 2 then s.alarm 2 else if clk < 10 then s.chipletDown (clk - 2) else s)

/-- RAIL_LOSS (R888, R922): every volatile state is lost; the flash directory and the defect ledger stay. Nothing runs until the next
power-on. -/
def State.railLoss (s : State) : State :=
  let s' := (if s.pwr.tripLow then s.emit (.pin "TRIP_N" true) else s).coldState
  s'.setCast { s'.cast with off := true }

def execRailLoss (s : State) : Host.Outcome State Fault Refusal := .next s.railLoss

/-! ### The TAP (R914) -/

def State.setTap (s : State) (x : Tap) : State := { s with tap := x }

/-- EXTEST, CLAMP and HIGHZ take effect while RESET_N is low, in BLANK and PROVISIONED. -/
def State.tapFree (s : State) (resetLow : Bool) : Bool := resetLow && s.lc < 2

/-- BYPASS (R914): one bit, 0 at first, between TDI and TDO; every other instruction code selects it too. -/
def execBypass (bits : List Bool) (s : State) : Host.Outcome State Fault Refusal :=
  .next ((s.setTap { s.tap with ir := .bypass }).emit (.tdo ((false :: bits).take bits.length)))

/-- Part number of IDCODE. -/
def idPart (variant : Nat) : Nat := if variant = 1 then 0x9609 else if variant = 2 then 0x6412 else 0x9612

/-- The IDCODE of the first revision. -/
def State.idcode (s : State) : Nat := 1 + 2 * 0x2B5 + 2 ^ 12 * idPart s.variant + 2 ^ 28

/-- IDCODE (R914): shifted out, bit 0 first. -/
def execIdcode (s : State) : Host.Outcome State Fault Refusal :=
  .next ((s.setTap { s.tap with ir := .idcode }).emit (.tdo ((List.range 32).map (bitOf s.idcode))))

/-- SAMPLE_PRELOAD (R914): the boundary cells sample the lands, and take the bits shifted in. -/
def execSamplePreload (lands cells : List Bool) (s : State) : Host.Outcome State Fault Refusal :=
  .next ((s.setTap { ir := .sample, cells }).emit (.tdo lands))

/-- EXTEST (R914): the boundary cells drive the control lands, or BYPASS is selected. -/
def execExtest (resetLow : Bool) (s : State) : Host.Outcome State Fault Refusal :=
  .next (if s.tapFree resetLow then (s.setTap { s.tap with ir := .extest }).emit (.lands (some s.tap.cells)) else s.setTap { s.tap with ir := .bypass })

/-- CLAMP (R914): as EXTEST, with the bypass register between TDI and TDO. -/
def execClamp (resetLow : Bool) (s : State) : Host.Outcome State Fault Refusal :=
  .next (if s.tapFree resetLow then (s.setTap { s.tap with ir := .clamp }).emit (.lands (some s.tap.cells)) else s.setTap { s.tap with ir := .bypass })

/-- HIGHZ (R914): the boundary outputs float. -/
def execHighz (resetLow : Bool) (s : State) : Host.Outcome State Fault Refusal :=
  .next (if s.tapFree resetLow then (s.setTap { s.tap with ir := .highz }).emit (.lands none) else s.setTap { s.tap with ir := .bypass })

end Sys2Proof.Machine
end

