-- ==== Sys2Proof/Machine/Eth.lean ====
section
/-! DEFINITION. The Ethernet edge (R687 to R716): parsing, classification, policing, actions, the hash, egress, ports, rules
and PTP. -/

namespace Sys2Proof.Machine

/-! ### Parsing (R693, R694) -/

/-- What the parser reads of a frame. -/
structure Parsed where
  tagged : Bool
  vid : Nat
  etype : Nat
  /-- 0 neither, 1 IPv4, 2 IPv6; its offset, and the offset of what follows its header. -/
  l3 : Nat
  l3Off : Nat
  l4Off : Nat
  dscp : Nat
  proto : Nat
  src : List Byte
  dst : List Byte
  /-- UDP or TCP ports that lie within 64 bytes. -/
  l4 : Option (Nat × Nat)
  deriving DecidableEq, Repr

/-- Is a type field a VLAN tag's? -/
def isTag (t : Nat) : Bool := t = 0x8100 || t = 0x88A8

/-- Offset of the EtherType; none for a third tag. -/
def etypeOff (f : List Byte) : Option Nat :=
  if !isTag (frameAt f 12 2) then some 12
  else if frameAt f 16 2 ≠ 0x8100 then some 16
  else if isTag (frameAt f 20 2) then none
  else some 20

/-- The parser (R693, R694): none when it fails. -/
def parseFrame (f : List Byte) : Option Parsed :=
  match etypeOff f with
  | none => none
  | some o =>
    let et := frameAt f o 2
    let b := o + 2
    let tagged := o ≠ 12
    let vid := frameAt f 14 2 % 4096
    let ports (proto l4 : Nat) : Option (Nat × Nat) :=
      if (proto = 17 ∨ proto = 6) ∧ l4 + 4 ≤ 64 then some (frameAt f l4 2, frameAt f (l4 + 2) 2) else none
    if et = 0x0800 then
      let ihl := byteAt f b % 16
      if byteAt f b / 16 ≠ 4 ∨ ihl < 5 ∨ f.length < b + frameAt f (b + 2) 2 then none
      else some { tagged, vid, etype := et, l3 := 1, l3Off := b, l4Off := b + 4 * ihl, dscp := byteAt f (b + 1) / 4,
                  proto := byteAt f (b + 9), src := (f.drop (b + 12)).take 4, dst := (f.drop (b + 16)).take 4,
                  l4 := ports (byteAt f (b + 9)) (b + 4 * ihl) }
    else if et = 0x86DD then
      if byteAt f b / 16 ≠ 6 ∨ f.length < b + 40 + frameAt f (b + 4) 2 then none
      else some { tagged, vid, etype := et, l3 := 2, l3Off := b, l4Off := b + 40, dscp := frameAt f b 2 / 64 % 64,
                  proto := byteAt f (b + 6), src := (f.drop (b + 8)).take 16, dst := (f.drop (b + 24)).take 16,
                  l4 := ports (byteAt f (b + 6)) (b + 40) }
    else some { tagged, vid, etype := et, l3 := 0, l3Off := b, l4Off := b, dscp := 0, proto := 0, src := [], dst := [], l4 := none }

/-! ### Classification (R695 to R698) -/

/-- Word `k` of a rule. -/
def ruleWord (r : List Nat) (k : Nat) : Nat := r.getD k 0

/-- Do the first `plen` bits of an address equal those of the rule's words from `k` on? -/
def prefixMatch (r : List Nat) (k plen : Nat) (addr : List Byte) : Bool :=
  plen = 0 ||
  (addr ≠ [] && plen ≤ 8 * addr.length &&
    (let want := beNat ((List.range 4).flatMap (fun i => beBytes 4 (ruleWord r (k + i))))
     beNat (natBytes addr) / 2 ^ (8 * addr.length - plen) = want / 2 ^ (128 - plen)))

/-- A port under its mask. -/
def portMatch (mask want : Nat) (p : Option Nat) : Bool := mask = 0 || p.any (fun x => x &&& mask = want &&& mask)

/-- Does a rule match a parsed frame of die-local port `i` (R695, R697)? -/
def ruleMatches (r : List Nat) (i : Nat) (x : Parsed) : Bool :=
  let w0 := ruleWord r 0
  let w1 := ruleWord r 1
  let w2 := ruleWord r 2
  bitOf (ruleWord r 15) 31 && bitOf w0 i &&
  (match bitsOf w0 9 8 with
    | 0 => true
    | 3 => x.l3 = 0
    | k => x.l3 = k) &&
  (match bitsOf w0 11 10 with
    | 0 => true
    | 1 => !x.tagged
    | _ => x.tagged) &&
  prefixMatch r 5 (bitsOf w0 23 16) x.src && prefixMatch r 9 (bitsOf w0 31 24) x.dst &&
  (!bitOf w1 16 || x.etype = bitsOf w1 15 0) && (!bitOf w1 17 || (x.l3 ≠ 0 && x.proto = bitsOf w1 31 24)) &&
  (!bitOf w2 12 || (x.tagged && x.vid = bitsOf w2 11 0)) && (!bitOf w2 22 || (x.l3 ≠ 0 && x.dscp = bitsOf w2 21 16)) &&
  portMatch (bitsOf (ruleWord r 4) 15 0) (bitsOf (ruleWord r 3) 15 0) (x.l4.map (fun p => p.1)) &&
  portMatch (bitsOf (ruleWord r 4) 31 16) (bitsOf (ruleWord r 3) 31 16) (x.l4.map (fun p => p.2))

/-- A frame's action: KIND, ARG, policer, egress queue, and the rewrites of word 14 (0 for a default action). -/
structure EthAction where
  kind : Nat
  arg : Nat
  policer : Nat
  queue : Nat
  rewrite : Nat
  deriving DecidableEq, Repr

/-- The action of a matching rule. -/
def ruleAction (r : List Nat) : EthAction :=
  ⟨bitsOf (ruleWord r 13) 3 0, bitsOf (ruleWord r 13) 15 4, bitsOf (ruleWord r 13) 23 16, bitsOf (ruleWord r 15) 2 0, ruleWord r 14⟩

/-- The rules of die `d`, by index. -/
def State.dieRules (s : State) (d : Nat) : List (List Nat) := (s.ethRules.filter (fun e => e.1 / 8192 = d)).map (fun e => e.2)

/-- The action for a frame of port `p`; none stands for the default action (R695, R696). -/
def State.classify (s : State) (p : Nat) (x : Option Parsed) : Option EthAction :=
  match x with
  | none => none
  | some x => ((s.dieRules (p / 8)).find? (fun r => ruleMatches r (p % 8) x)).map ruleAction

/-- The default action of port `p`. -/
def State.defaultAction (s : State) (p : Nat) : EthAction :=
  let w := s.rd (Reg.ETH_P_DEFAULT p)
  ⟨fieldOf w 3 0, fieldOf w 23 16, fieldOf w 15 8, fieldOf w 26 24, 0⟩

/-! ### Policing (R707, R708) -/

/-- A frame of `len` bytes meets policer `k` of die `d` at `t`: the state after it, and whether it conforms. -/
def State.police (s : State) (d k t len : Nat) : State × Bool :=
  let w0 := s.rd (Reg.ETH_D_POL0 d k)
  if k = 255 ∨ fieldOf w0 31 31 = 0 then (s, true)
  else
    let cap := 80 * s.rf (Reg.ETH_D_POL1 d k) 23 0
    let x := (fetch none s.policers (256 * d + k)).getD (cap, t)
    let level := min cap (x.1 + fieldOf w0 11 0 * (t - x.2))
    if 80 * len ≤ level then ({ s with policers := store none s.policers (256 * d + k) (some (level - 80 * len, t)) }, true)
    else ({ s with policers := store none s.policers (256 * d + k) (some (level, t)) }, false)

/-! ### The hash and the rewrites (R699, R704) -/

/-- An address in 16 bytes. -/
def addr16 (a : List Byte) : List Byte := List.replicate (16 - a.length) 0 ++ a

/-- The smaller, then the larger, of two strings of bytes. -/
def ordered (a b : List Byte) : List Byte := if beNat (natBytes a) ≤ beNat (natBytes b) then a ++ b else b ++ a

/-- The symmetric hash (R704). -/
def State.ethHash (s : State) (f : List Byte) (x : Option Parsed) : Nat :=
  let seed := (s.rd Reg.ETH_HASH_SEED).toNat
  let etype := (x.map (fun y => y.etype)).getD (frameAt f ((etypeOff f).getD 20) 2)
  match x with
  | some y =>
    if y.l3 ≠ 0 then
      let p := y.l4.getD (0, 0)
      crc32cFrom seed (ordered (addr16 y.src ++ be 2 p.1) (addr16 y.dst ++ be 2 p.2) ++ be 1 y.proto)
    else crc32cFrom seed (ordered (f.take 6) ((f.drop 6).take 6) ++ be 2 etype)
  | none => crc32cFrom seed (ordered (f.take 6) ((f.drop 6).take 6) ++ be 2 etype)

/-- Replaces bytes of a frame from offset `o`. -/
def patch (f : List Byte) (o : Nat) (bs : List Byte) : List Byte := f.take o ++ bs ++ f.drop (o + bs.length)

/-- POP, PUSH, SET_PCP, SET_DSCP, in that order (R699). -/
def rewriteFrame (w : Nat) (f : List Byte) : List Byte :=
  let f := if bitOf w 0 && isTag (frameAt f 12 2) then f.take 12 ++ f.drop 16 else f
  let f := if bitOf w 1 then f.take 12 ++ be 2 0x8100 ++ be 2 (bitsOf w 15 4 + 8192 * bitsOf w 18 16) ++ f.drop 12 else f
  let f := if bitOf w 2 && isTag (frameAt f 12 2) then patch f 14 (be 2 (frameAt f 14 2 % 8192 + 8192 * bitsOf w 18 16)) else f
  if bitOf w 3 then
    match etypeOff f with
    | none => f
    | some o =>
      let b := o + 2
      let d := bitsOf w 24 19
      if frameAt f o 2 = 0x0800 then
        let f := patch (patch f (b + 1) (be 1 (4 * d + byteAt f (b + 1) % 4))) (b + 10) [0, 0]
        patch f (b + 10) (be 2 (inetSum (sum16 ((f.drop b).take (4 * (byteAt f b % 16))))))
      else if frameAt f o 2 = 0x86DD then
        let v := frameAt f b 2
        patch f b (be 2 (v / 4096 * 4096 + d * 64 + v % 64))
      else f
  else f

/-! ### Actions (R698, R700, R701, R705) -/

/-- A frame with no target (R701, R705). -/
def State.noTarget (s : State) (p : Nat) : State := (s.count (Ctr.ETH_NO_TARGET p)).event Reg.ETH_EVT 1

/-- FORWARD to group `g` (R705). -/
def State.ethFwd (s : State) (p : Nat) (a : EthAction) (f : List Byte) (x : Option Parsed) : State :=
  let mask := if a.arg < 16 then (s.rd (Reg.ETH_GRP a.arg)).toNat else 0
  let live := (List.range 32).filter (fun q => bitOf mask q && s.portState q = 2)
  match live[s.ethHash f x % live.length]? with
  | some q => s.ethForward q ⟨a.queue, rewriteFrame a.rewrite f, false⟩
  | none => s.noTarget p

/-- An RMA packet reaches its engine, by its opcode. -/
def State.rmaDeliver (s : State) (src : Option (List Byte)) (t : Nat) (p : List Byte) : State :=
  match pktOpcode p with
  | 0x12 => s.respIn p
  | 0x13 => s.rmaAckIn t p
  | 0x14 => s.rmaNakIn t p
  | _ => s.rmaRequest src p

/-- The packet in a UDP payload, decrypted under ENC (R681, R683); none when its tag fails. -/
def State.rmaDecode (s : State) (u : List Byte) : Option (List Byte) :=
  let h := (u.drop 16).take 32
  let c := s.conn (pktCid h)
  if bitOf (byteAt u 1) 0 != c.enc then none
  else if !c.enc then some (u.drop 16)
  else
    match (fetch {} s.ciphers c.cipher).rx with
    | none => none
    | some k =>
      let body := u.drop 48
      let n := body.length - 16
      (gcmOpen k.1 (k.2 ++ (u.drop 8).take 8) (u.take 16 ++ h) (body.take n) (body.drop n)).map (fun pt => h ++ pt)

/-- RMA (R700, R683). -/
def State.ethRma (s : State) (t : Nat) (f : List Byte) (x : Option Parsed) : State :=
  match x with
  | none => s.count Ctr.RMA_BAD_PKT
  | some y =>
    let u := f.drop (y.l4Off + 8)
    let h := u.drop 16
    if y.l3 = 0 ∨ y.proto ≠ 17 ∨ frameAt f (y.l4Off + 2) 2 ≠ s.rf Reg.RMA_CTL 31 16 ∨ u.length < 48 ∨ byteAt u 0 ≠ 1 ∨
        pktDstPart h ≠ s.partId ∨ pktDstEp h ≠ 0 then s.count Ctr.RMA_BAD_PKT
    else
      match s.rmaDecode u with
      | some p => s.rmaDeliver (some y.src) t p
      | none => (s.count Ctr.RMA_AUTH_FAIL).event Reg.RMA_EVT 4

/-- CARDER (R701). -/
def State.ethCarder (s : State) (p stream stamp : Nat) (f : List Byte) (x : Option Parsed) : State :=
  if (s.streamFeed stream).isNone then s.noTarget p
  else
    let udp := match x with
      | some y => if y.l3 ≠ 0 && y.proto = 17 then (f.drop (y.l4Off + 8)).take (frameAt f (y.l4Off + 4) 2 - 8) else []
      | none => []
    s.rtpPacket stream udp stamp

/-- A frame received on port `p` at `t`, without its FCS (R690, R691, R695 to R698, R708, R713). -/
def State.ethIn (s : State) (p t : Nat) (f : List Byte) (fcsOk : Bool) : State :=
  let len := f.length + 4
  if 32 ≤ p ∨ s.portState p ≠ 2 then s
  else
    let s := s.reach t
    if !fcsOk then s.count (Ctr.ETH_RX_FCS p)
    else if len < 64 ∨ s.rf (Reg.ETH_P_CFG p) 29 16 < len then s.count (Ctr.ETH_RX_SIZE p)
    else
      let s := (s.count (Ctr.ETH_RX_FRAMES p)).countN (Ctr.ETH_RX_BYTES p) len
      if frameAt f 12 2 = 0x8808 then s.count (Ctr.ETH_PAUSE_RX p)
      else
        let x := parseFrame f
        let m := s.classify p x
        let a := m.getD (s.defaultAction p)
        let s := if m.isNone then s.count (Ctr.ETH_DEFAULT_HIT p) else s
        let stamp := t - s.rf (Reg.ETH_P_LAT p) 15 0
        match s.police (p / 8) a.policer t len with
        | (s, false) => s.count (Ctr.ETH_POLICE_DROP p)
        | (s, true) =>
          match a.kind with
          | 1 => s.ethFwd p a f x
          | 2 => s.ethRma t f x
          | 3 => s.ethCarder p a.arg stamp f x
          | 4 => if s.coreAway 5 then s.noTarget p else s.emit (.toSpindle p f stamp)
          | _ => s.count (Ctr.ETH_RULE_DROP p)

/-! ### Egress (R710, R711, R713) -/

/-- The register of queue `q` of port `p`. -/
def ethQueueReg (p q : Nat) : Nat := if q < 2 then Reg.ETH_P_Q01 p q else Reg.ETH_P_Q27 p (q - 2)

/-- The credit of queue `q` at `t`, in 1/80 byte (R710). -/
def State.ethCredit (s : State) (p q t : Nat) : Nat :=
  let x := s.ethPort p
  let w := s.rd (ethQueueReg p q)
  min (80 * 64 * fieldOf w 19 8) (fetch 0 x.credit q + fieldOf w 31 20 * (t - x.creditAt))

/-- The head frame of queue `q`, when its shaper lets it go. -/
def State.ethHead (s : State) (p q t : Nat) : Option EthTx :=
  match (s.ethPort p).frames.find? (fun f => f.queue = q) with
  | some f => if fieldOf (s.rd (ethQueueReg p q)) 31 20 = 0 ∨ 80 * (f.frame.length + 4) ≤ s.ethCredit p q t then some f else none
  | none => none

/-- Deficit round robin over queues 2 to 7: the frame it sends, and the deficits and turn after it; `fuel` visits. -/
def State.ethRound (s : State) (p t : Nat) : Nat → SMap Nat → Nat → Option (EthTx × SMap Nat × Nat)
  | 0, _, _ => none
  | fuel + 1, def', q =>
    let next := if q = 7 then 2 else q + 1
    let quantum := 256 * fieldOf (s.rd (ethQueueReg p next)) 7 0
    let go (d : SMap Nat) : Option (EthTx × SMap Nat × Nat) :=
      State.ethRound s p t fuel (if (s.ethHead p next t).isSome then modifyAt 0 d next (fun k => k + quantum) else d) next
    match s.ethHead p q t with
    | some f =>
      let len := f.frame.length + 4
      if len ≤ fetch 0 def' q then some (f, modifyAt 0 def' q (fun k => k - len), q) else go def'
    | none =>
      if (s.ethPort p).frames.any (fun f => f.queue = q) then go def' else go (store 0 def' q 0)

/-- Sends frame `f` of port `p` at `t`. -/
def State.ethSend (s : State) (p t : Nat) (f : EthTx) : State :=
  let x := s.ethPort p
  let len := f.frame.length + 4
  let credit := (List.range 8).foldl (fun m q => store 0 m q (s.ethCredit p q t)) x.credit
  let credit := if fieldOf (s.rd (ethQueueReg p f.queue)) 31 20 = 0 then credit else modifyAt 0 credit f.queue (fun k => k - 80 * len)
  let s := s.setEthPort p { x with frames := x.frames.erase f, credit, creditAt := t }
  ((s.count (Ctr.ETH_TX_FRAMES p)).countN (Ctr.ETH_TX_BYTES p) len).emit
    (.ethFrame p f.frame (if f.mark then some (t + s.rf (Reg.ETH_P_LAT p) 31 16) else none))

/-- A frame boundary of port `p` at `t` (R711). -/
def State.ethOut (s : State) (p t : Nat) : State :=
  if 32 ≤ p ∨ s.portState p ≠ 2 then s
  else
    let s := s.reach t
    match s.ethHead p 0 t with
    | some f => s.ethSend p t f
    | none =>
      match s.ethHead p 1 t with
      | some f => s.ethSend p t f
      | none =>
        let x := s.ethPort p
        match s.ethRound p t 300 x.deficit x.turn with
        | some (f, d, q) => (s.setEthPort p { x with deficit := d, turn := q }).ethSend p t f
        | none => s

/-! ### Ports (R688, R692, R706) -/

/-- Does port `p` run: its link is in ETHERNET mode (R688)? -/
def State.portRuns (s : State) (p : Nat) : Bool := p < 32 && s.linkMode (portLink p) = 2

/-- Port `p` goes DOWN at `t` (R692). -/
def State.portDown (s : State) (p t : Nat) : State :=
  if !s.portRuns p ∨ s.portState p = 0 then s
  else
    let x := s.ethPort p
    let s := ((s.reach t).countN (Ctr.ETH_TX_DROP p) x.frames.length).setEthPort p { downAt := some t }
    (s.wr (Reg.ETH_P_STAT p) (BitVec.ofNat 32 (0x05E0 * 65536))).event Reg.ETH_EVT 0

/-- A DOWN port trains again (R692). -/
def State.portRetry (s : State) (p t : Nat) : State :=
  if s.portRuns p ∧ s.portState p = 0 ∧ !(s.ethPort p).downAt.any (fun d => t < d + 100000000) then
    (s.reach t).wf (Reg.ETH_P_STAT p) 1 0 1
  else s

/-- Training and block lock complete (R706). -/
def State.portUp (s : State) (p : Nat) : State :=
  if s.portRuns p ∧ s.portState p = 1 then s.wf (Reg.ETH_P_STAT p) 1 0 2 else s

/-! ### Rules and policers (R702, R708) -/

/-- The committed words of rule `i` of die `d`. -/
def State.ethRule (s : State) (d i : Nat) : List Nat := fetch (List.replicate 16 0) s.ethRules (8192 * d + i)

/-- The staged words of die `d`. -/
def State.ethStaged (s : State) (d : Nat) : List Nat := fetch (List.replicate 16 0) s.ethStage d

def State.setStage (s : State) (d : Nat) (r : List Nat) : State :=
  { s with ethStage := store (List.replicate 16 0) s.ethStage d r }

/-- A write of ETH_Dd_RSEL (R702). -/
def State.rselWrite (s : State) (via : Via) (d : Nat) (v : Word) : State :=
  if fieldOf v 31 13 ≠ 0 then s.reject via (Reg.ETH_D_RSEL d) 0x01E0
  else (s.wr (Reg.ETH_D_RSEL d) (v &&& 0x1FFF)).setStage d (s.ethRule d (fieldOf v 12 0))

/-- Is a rule free of reserved values, and its FORWARD group defined (R697, R698, R702)? -/
def State.ruleOk (s : State) (r : List Nat) : Bool :=
  let w (k hi lo : Nat) : Nat := bitsOf (ruleWord r k) hi lo
  let lim := if w 0 9 8 = 1 then 32 else 128
  let arg := w 13 15 4
  w 0 15 12 = 0 && w 0 11 10 ≠ 3 && w 0 23 16 ≤ lim && w 0 31 24 ≤ lim && w 1 23 18 = 0 && w 2 15 13 = 0 && w 2 31 23 = 0 &&
  w 13 31 24 = 0 && w 14 31 25 = 0 && w 15 30 3 = 0 &&
  (match w 13 3 0 with
    | 0 => arg = 0
    | 1 => arg < 16 && (s.rd (Reg.ETH_GRP arg)).toNat ≠ 0
    | 2 => arg = 0
    | 3 => arg < 64
    | 4 => arg = 0
    | _ => false)

/-- A write of word 15 of die `d`'s staged rule (R702). -/
def State.ruleCommit (s : State) (via : Via) (d : Nat) (v : Word) : State :=
  let r := (s.ethStaged d).take 15 ++ [v.toNat]
  if s.ruleOk r then
    { s.setStage d r with ethRules := store (List.replicate 16 0) s.ethRules (8192 * d + s.rf (Reg.ETH_D_RSEL d) 12 0) r }
  else s.reject via (Reg.ETH_D_RW d 15) 0x01E0

/-- A write of word `n % 2` of policer `n / 2 % 256` of die `n / 512` (R708). -/
def State.policerWrite (s : State) (via : Via) (n : Nat) (v : Word) : State :=
  let d := n / 512
  let k := n / 2 % 256
  if 4 ≤ d ∨ k = 255 then s
  else
    let a := if n % 2 = 0 then Reg.ETH_D_POL0 d k else Reg.ETH_D_POL1 d k
    let bad := if n % 2 = 0 then fieldOf v 11 0 = 0 ∨ 4000 < fieldOf v 11 0 ∨ fieldOf v 30 12 ≠ 0 else fieldOf v 23 0 < 64 ∨ fieldOf v 31 24 ≠ 0
    if bad then s.reject via a 0x01E0
    else { s.wr a (v &&& (if n % 2 = 0 then 0x80000FFF else 0x00FFFFFF)) with policers := store none s.policers (256 * d + k) none }

/-! ### PTP (R715) -/

/-- Spindle handles a PTP message of port `p` at `t`: from a Sync, its Follow_Up and the Delay_Resp it measures the offset. -/
def State.ptpIn (s : State) (p t : Nat) (m : PtpMsg) : State :=
  let s := s.reach t
  let source := s.tbKind = 1 ∧ s.tbIndex = p
  match m with
  | .sync seq => if source then { s with ptpSync := some (seq, t), ptpOrigin := none, ptpAsk := none } else s
  | .followUp seq origin =>
    match s.ptpSync with
    | some (q, _) =>
      if source ∧ q = seq then { s with ptpOrigin := some origin, ptpAsk := some t }.emit (.ptpDelayReq p seq) else s
    | none => s
  | .delayResp seq receive =>
    match s.ptpSync, s.ptpOrigin, s.ptpAsk with
    | some (q, t2), some t1, some t3 =>
      if source ∧ q = seq then
        { s with ptpSync := none, ptpOrigin := none, ptpAsk := none }.measure t
          (((receive : Int) - t3 - ((t2 : Int) - t1)) / 2)
      else s
    | _, _, _ => s
  | .delayReq seq => s.emit (.ptpDelayResp p seq t)

/-- The time source has been silent for 3 s at `t` (R894, R895). -/
def State.tbHoldover (s : State) (t : Nat) : State :=
  if s.tbKind ≠ 0 ∧ (s.tbState = 1 ∨ s.tbState = 2) ∧ s.tbHeard + 3000000000 ≤ t then
    { ((s.reach t).setTbState 3).event Reg.PWR_EVT 5 with tbOffsets := [] }
  else s

/-! ### Commands -/

/-- ETH_FRAME_RECEIVE (R695). -/
def execEthFrameReceive (port t : Nat) (frame : List Byte) (fcsOk : Bool) (s : State) : Host.Outcome State Fault Refusal :=
  .next (s.ethIn port t frame fcsOk)

/-- ETH_FRAME_TRANSMIT (R711). -/
def execEthFrameTransmit (port t : Nat) (s : State) : Host.Outcome State Fault Refusal := .next (s.ethOut port t)

/-- ETH_PORT_DOWN (R692). -/
def execEthPortDown (port t : Nat) (s : State) : Host.Outcome State Fault Refusal := .next (s.portDown port t)

/-- ETH_PORT_RETRY (R692). -/
def execEthPortRetry (port t : Nat) (s : State) : Host.Outcome State Fault Refusal := .next (s.portRetry port t)

/-- ETH_PORT_TRAIN_DONE (R706). -/
def execEthPortTrainDone (port : Nat) (s : State) : Host.Outcome State Fault Refusal := .next (s.portUp port)

/-- ETH_RSEL_WRITE (R702): `n` is the die. -/
def execEthRselWrite (via : Via) (n : Nat) (v : Word) (s : State) : Host.Outcome State Fault Refusal :=
  .next (s.hubOnly via (fun s => if n < 4 then s.rselWrite via n v else s))

/-- ETH_RULE_COMMIT (R702). -/
def execEthRuleCommit (via : Via) (n : Nat) (v : Word) (s : State) : Host.Outcome State Fault Refusal :=
  .next (s.hubOnly via (fun s => if n < 4 then s.ruleCommit via n v else s))

/-- ETH_POLICER_WRITE (R708): `n` is 512 * die + 2 * policer + word. -/
def execEthPolicerWrite (via : Via) (n : Nat) (v : Word) (s : State) : Host.Outcome State Fault Refusal :=
  .next (s.hubOnly via (fun s => s.policerWrite via n v))

/-- PTP_MESSAGE (R715). -/
def execPtpMessage (port t : Nat) (m : PtpMsg) (s : State) : Host.Outcome State Fault Refusal := .next (s.ptpIn port t m)

/-- TB_HOLDOVER (R894). -/
def execTbHoldover (t : Nat) (s : State) : Host.Outcome State Fault Refusal := .next (s.tbHoldover t)

end Sys2Proof.Machine
end

