-- ==== Sys2Proof/Machine/Firmware.lean ====
section
/-! DEFINITION. Spindle's cores under their watchdogs (R855 to R858), and firmware updates: staging, distribution and
activation (R863 to R874). -/

namespace Sys2Proof.Machine

/-! ### The update command (R863 to R866, R869) -/

/-- An update command, or an update in progress, ends with `st`. -/
def State.fwEnd (s : State) (st : Nat) : State :=
  let s := ((s.wf Reg.SPN_FW_STAT 15 0 st).wf Reg.SPN_FW_STAT 31 31 0).wf Reg.SPN_FW_STAT 23 16 0
  if st = 0 then s else (s.fwPhase 0).event Reg.SPN_EVT 5

def State.fwBusy (s : State) : Bool := s.rf Reg.SPN_FW_STAT 31 31 = 1

/-- The other slot of `kind` is STAGED with image `i`, which enters the measurement list (R863, R865). -/
def State.markStaged (s : State) (kind : Nat) (i : SlotImage) : State :=
  (((s.dirWrite kind (s.dirActive kind) 1).setStaged kind (some i)).event Reg.SPN_EVT 2).measureStaged

/-- The other slot of `kind` is EMPTY. -/
def State.markEmpty (s : State) (kind : Nat) : State := ((s.dirWrite kind (s.dirActive kind) 0).setStaged kind none).measureStaged

/-- The status of STAGE (R841, R845, R863, R864). -/
def State.stageStatus (s : State) (kind : Nat) (i : SlotImage) (p : Pattern) (flashOk : Bool) : Nat :=
  let len := s.rf Reg.SPN_FW_LEN 25 0
  if s.fwBusy ∨ s.cast.recv.isSome ∨ s.cast.commit.isSome ∨ s.dirOther kind = 2 then 0x0210
  else if s.trust.pinned ≠ [] then 0x0222
  else if slotBytes kind < len then 0x0311
  else if imageLength i ≠ len then 0x0112
  else
    let st := s.imageStatus kind i
    if st ≠ 0 then st
    else if kind = 3 ∧ s.patternStatus (byteAt i.header 48) (patOf p i) ≠ 0 then s.patternStatus (byteAt i.header 48) (patOf p i)
    else if flashOk then 0 else 0x0515

/-- STAGE: the image `i` has been read from the host (R863). -/
def State.fwStage (s : State) (kind : Nat) (i : SlotImage) (p : Pattern) (flashOk : Bool) : State :=
  let st := s.stageStatus kind i p flashOk
  if st = 0 then (s.markStaged kind i).fwEnd 0 else s.fwEnd st

/-- The image in the STAGED slot of `kind`. -/
def State.fwStaged (s : State) (kind : Nat) : Option SlotImage := if s.dirOther kind = 1 then s.stagedImage kind else none

/-- The messages of a distribution, in order (R866). -/
def fwMessages (kind : Nat) (i : SlotImage) : List FwMsg :=
  let cs := imageChunks i
  [.header kind i.cert i.header, .table i.table] ++ ((List.range cs.length).zip cs).map (fun e => .chunk e.1 e.2) ++ [.finish]

/-- Is group `g` defined on the switch? -/
def State.groupValid (s : State) (g : Nat) : Bool := bitOf (s.rd (Reg.SWT_MC g 7)).toNat 31

/-- The update commands beside STAGE, each with the state it leaves; `kind` is KIND. -/
def State.fwCommand (s : State) (kind op : Nat) : State :=
  let g := s.rf Reg.SPN_FW_ARG 11 0
  match s.fwStaged kind with
  | none => s.fwEnd 0x0210
  | some i =>
    if s.fwBusy then s.fwEnd 0x0210
    else if op = 2 then (s.markEmpty kind).fwEnd 0
    else if s.partState = 5 then s.fwEnd 0x0210
    else if !s.groupValid g then s.fwEnd 0x0253
    else if op = 3 then
      let s := (fwMessages kind i).foldl (fun s m => s.emit (.fwGroup g m)) (s.wr Reg.SPN_FW_CONF 0)
      s.fwEnd 0
    else
      let l : FwLead := { kind, group := g, targets := s.rf Reg.SPN_FW_ARG 29 16 + 1, since := s.now }
      let s := (s.setCast { s.cast with lead := some l }).wr Reg.SPN_FW_CONF 0
      ((s.wf Reg.SPN_FW_STAT 31 31 1).fwPhase 4).emit (.fwPrepare g kind (imageTableDigest i))

/-- A write of SPN_FW_CMD; `k` is what STAGE does. -/
def State.fwCmdWrite (s : State) (via : Via) (v : Word) (k : Nat → State → State) : State :=
  s.hubOnly via (fun s =>
    let s := s.wr Reg.SPN_FW_CMD (v &&& 0x307)
    let kind := fieldOf v 9 8
    let op := fieldOf v 2 0
    if fieldOf v 31 31 = 0 then s
    else if fieldOf v 30 10 ≠ 0 ∨ fieldOf v 7 3 ≠ 0 ∨ kind = 0 ∨ op = 0 ∨ 4 < op then s.fwEnd 0x0110
    else if op = 1 then k kind s
    else s.fwCommand kind op)

/-! ### Receiving a distribution (R867, R868) -/

def State.setRecv (s : State) (r : Option FwRecv) : State := s.setCast { s.cast with recv := r }

/-- Entry `k` of a chunk table. -/
def tableEntry (t : List Byte) (k : Nat) : List Byte := (t.drop (32 * k)).take 32

/-- A message of a distribution by part `part` (R867). -/
def State.fwMessage (s : State) (part : Nat) (m : FwMsg) : State :=
  match m with
  | .header kind cert header =>
    if s.headerStatus kind cert header ≠ 0 ∨ s.fwBusy ∨ s.cast.recv.isSome ∨ s.cast.commit.isSome ∨ s.dirOther kind = 2 then s
    else s.setRecv (some { part, kind, cert, header, heard := s.now })
  | _ =>
    match s.cast.recv with
    | none => s
    | some r =>
      let r := { r with heard := s.now }
      match m with
      | .table bytes =>
        s.setRecv (some (if r.table.isNone && sha3x256 bytes == (r.header.drop 16).take 32 then { r with table := some bytes } else r))
      | .chunk k bytes =>
        let fresh := r.table.any (fun t => sha3x256 bytes == tableEntry t k) && (fetch none r.chunks k).isNone
        if fresh then
          let s := s.setRecv (some { r with chunks := store none r.chunks k (some bytes) })
          if r.rounds = 0 then s else s.count Ctr.SPN_FW_REPAIR
        else s.setRecv (some r)
      | _ => s.setRecv (some { r with ended := true })

/-- Chunks in all, by BODY_LEN, and the chunks that a target lacks. -/
def FwRecv.total (r : FwRecv) : Nat := (leAt r.header 12 4 + 65535) / 65536
def FwRecv.missing (r : FwRecv) : List Nat := (List.range r.total).filter (fun k => (fetch none r.chunks k).isNone)

/-- The image that a complete target holds. -/
def FwRecv.image (r : FwRecv) : SlotImage :=
  { cert := r.cert, header := r.header, table := r.table.getD [],
    body := (List.range r.total).flatMap (fun k => (fetch none r.chunks k).getD []) }

/-- The parts that a target asks in turn (R868). -/
def State.repairFrom (s : State) (r : FwRecv) : List Nat := s.pat.watch ++ [r.part]

/-- After END, or 50 ms of silence, a target at `t` is STAGED, asks for what it lacks, or after 8 rounds is FAILED (R868). A round asks
each part once. -/
def State.repairStart (s : State) (t : Nat) (flashOk : Bool) : State :=
  match s.cast.recv with
  | none => s
  | some r =>
    let complete := r.table.isSome && r.missing = []
    if !r.ended && !complete && t < r.heard + 50000000 then s
    else
      let s := s.reach t
      let asks := s.repairFrom r
      if complete then
        if flashOk then (((s.setRecv none).markStaged r.kind r.image).fwPhase 0).emit (.fwAnswer r.part .staged)
        else ((s.setRecv none).fwEnd 0x0515).emit (.fwAnswer r.part (.failed 0x0515))
      else if 8 * asks.length ≤ r.rounds then ((s.setRecv none).fwEnd 0x0611).emit (.fwAnswer r.part (.failed 0x0611))
      else
        let p := asks.getD (r.rounds % asks.length) r.part
        let s := s.setRecv (some { r with rounds := r.rounds + 1, heard := t, ended := false })
        (s.fwPhase 3).emit (.fwRepair p ((r.header.drop 16).take 32) (if r.table.isSome then r.missing else []))

/-- The chunk `k` of the image with table digest `d`, where this part holds it. -/
def State.heldChunk (s : State) (d : List Byte) (k : Nat) : Option (List Byte) :=
  let staged := [1, 2, 3].findSome? (fun kind => (s.stagedImage kind).bind (fun i =>
    if imageTableDigest i == d then (imageChunks i)[k]? else none))
  match staged with
  | some b => some b
  | none => s.cast.recv.bind (fun r => if (r.header.drop 16).take 32 == d then fetch none r.chunks k else none)

/-- The chunk table of that image, where this part holds it. -/
def State.heldTable (s : State) (d : List Byte) : Option (List Byte) :=
  let staged := [1, 2, 3].findSome? (fun kind => (s.stagedImage kind).bind (fun i => if imageTableDigest i == d then some i.table else none))
  match staged with
  | some b => some b
  | none => s.cast.recv.bind (fun r => if (r.header.drop 16).take 32 == d then r.table else none)

/-- A repair request of part `part`: this part answers with the chunks it holds; a request that names none asks for the table too (R868). -/
def State.fwRepairRequest (s : State) (part : Nat) (d : List Byte) (ks : List Nat) : State :=
  let s := match ks, s.heldTable d with
    | [], some t => s.emit (.fwPart part (.table t))
    | _, _ => s
  ks.foldl (fun s k => match s.heldChunk d k with
    | some b => s.emit (.fwPart part (.chunk k b))
    | none => s) s

/-! ### Activation (R869 to R874) -/

/-- PREPARE: a target answers READY when it holds that image STAGED (R869). -/
def State.prepareIn (s : State) (part kind : Nat) (d : List Byte) : State :=
  let ok := (s.fwStaged kind).any (fun i => imageTableDigest i == d)
  s.emit (.fwAnswer part (if ok then .ready else .refuse 0x0210))

/-- The coordinator's boundary: its own step counter plus 2, 0 with no job (R870). -/
def State.commitBoundary (s : State) : Nat :=
  match (List.range 4).find? (fun n => (s.job n).isOpen) with
  | some n => (s.stepCtr n + 2) % 2 ^ 48
  | none => 0

/-- The coordinator aborts (R870). -/
def State.fwAbort (s : State) (l : FwLead) : State :=
  ((s.setCast { s.cast with lead := none }).emit (.fwAbort l.group l.kind)).fwEnd 0x0212

/-- FAILED and READY of SPN_FW_CONF. -/
def State.confAdd (s : State) (hi lo : Nat) : State := s.wf Reg.SPN_FW_CONF hi lo (s.rf Reg.SPN_FW_CONF hi lo + 1)

/-- A target's report reaches the part that distributes or coordinates (R868 to R870). -/
def State.answerIn (s : State) (part : Nat) (a : FwAnswer) : State :=
  match s.cast.lead, a with
  | none, .staged => s.confAdd 13 0
  | none, .failed _ => s.confAdd 29 16
  | some l, .ready =>
    if l.ready.contains part then s
    else
      let l := { l with ready := l.ready ++ [part] }
      let s := (s.setCast { s.cast with lead := some l }).wf Reg.SPN_FW_CONF 13 0 l.ready.length
      if l.ready.length < l.targets then s
      else ((((s.setCast { s.cast with lead := none }).emit (.fwCommit l.group l.kind s.commitBoundary)).fwEnd 0).fwPhase 5)
  | some l, .refuse _ => (s.confAdd 29 16).fwAbort l
  | _, _ => s

/-- Answers are missing 10 s after PREPARE (R870). -/
def State.prepareTimeout (s : State) (t : Nat) : State :=
  match s.cast.lead with
  | some l => if l.since + 10000000000 ≤ t then (s.reach t).fwAbort l else s
  | none => s

/-- COMMIT with boundary `b`: the directory makes the staged slot active (R871); a Spindle image takes effect at a boundary, at once
with no open job (R872). -/
def State.commitIn (s : State) (kind b : Nat) : State :=
  match s.fwStaged kind with
  | none => s
  | some _ =>
    let s := ((s.dirWrite kind (s.dirActive kind) 2).event Reg.SPN_EVT 3).fwPhase 5
    if kind ≠ 2 then s.evidenceSync
    else
      let s := s.setCast { s.cast with commit := some b }
      (if (List.range 4).any (fun n => (s.job n).isOpen) then s else s.fwTry).evidenceSync

/-- The eight cores restart into the committed image, one by one (R843, R872). -/
def State.restartCores (s : State) : State :=
  let s := if s.cast.commit.isSome ∧ !s.cast.go ∧ !(List.range 4).any (fun n => (s.job n).isOpen) then s.fwTry else s
  match s.cast.go, s.stagedImage 2 with
  | true, some i =>
    let s := (List.range 8).foldl (fun s _ => (s.count Ctr.SPN_RESTART).event Reg.SPN_EVT 0) s
    let s := s.setTrust { s.trust with narrow := [] }
    let s := ((s.runImage 2 i).setStaged 2 none).dirWrite 2 (1 - s.dirActive 2) 0
    let s := (s.wf Reg.SPN_FW_DIR 17 17 0).setCast { s.cast with commit := none, go := false, run := store (0, []) s.cast.run 2 (imageSvn i, imageDigest i) }
    ((s.svnBurn 2).fwPhase 0).measureAll.measureStaged
  | _, _ => s

/-! ### Watchdogs (R855, R856, R858, R865) -/

/-- A restart of core 7 ends a distribution or repair in progress, and leaves its slot EMPTY (R865). -/
def State.updateLost (s : State) : State :=
  match s.cast.recv with
  | some r => ((s.setRecv none).markEmpty r.kind).fwEnd 0x0214
  | none => s

/-- The watchdog of core `c` expires at `t`: the core restarts, or is HALTED at more than 4 restarts within 60 s (R855, R858). -/
def State.watchdog (s : State) (c t : Nat) : State :=
  if 8 ≤ c ∨ s.rf Reg.SPN_CORE (4 * c + 3) (4 * c) ≠ 1 then s
  else
    let s := s.reach t
    let rs := (fetch [] s.cast.restarts c).filter (fun r => t < r + 60000000000)
    let s := s.setTrust { s.trust with narrow := store [] s.trust.narrow c [] }
    let s := if c = 7 then s.updateLost else s
    if 4 ≤ rs.length then
      let s := (s.wf Reg.SPN_CORE (4 * c + 3) (4 * c) 3).event Reg.SPN_EVT 1
      (s.slices.foldl (fun s n => s.reportStatus n 0x0516 c) s).evidenceSync
    else
      let s := (s.wf Reg.SPN_CORE (4 * c + 3) (4 * c) 2).setCast { s.cast with restarts := store [] s.cast.restarts c (rs ++ [t]) }
      ((s.count Ctr.SPN_RESTART).event Reg.SPN_EVT 0).evidenceSync

/-- Core `c` has reloaded its code (R855). -/
def State.coreBack (s : State) (c : Nat) : State :=
  if c < 8 ∧ s.rf Reg.SPN_CORE (4 * c + 3) (4 * c) = 2 then (s.wf Reg.SPN_CORE (4 * c + 3) (4 * c) 1).evidenceSync else s

/-! ### Commands -/

/-- FW_STAGE (R863). -/
def execFwStage (via : Via) (v : Word) (img : SlotImage) (pat : Pattern) (flashOk : Bool) (s : State) : Host.Outcome State Fault Refusal :=
  .next (s.fwCmdWrite via v (fun kind s => s.fwStage kind img pat flashOk))

/-- FW_DISCARD (R865). -/
def execFwDiscard (via : Via) (v : Word) (s : State) : Host.Outcome State Fault Refusal := .next (s.fwCmdWrite via v (fun _ s => s))

/-- FW_DISTRIBUTE (R866). -/
def execFwDistribute (via : Via) (v : Word) (s : State) : Host.Outcome State Fault Refusal := .next (s.fwCmdWrite via v (fun _ s => s))

/-- FW_ACTIVATE (R869). -/
def execFwActivate (via : Via) (v : Word) (s : State) : Host.Outcome State Fault Refusal := .next (s.fwCmdWrite via v (fun _ s => s))

/-- FW_CHUNK_RECEIVE (R867). -/
def execFwChunkReceive (part : Nat) (m : FwMsg) (s : State) : Host.Outcome State Fault Refusal := .next (s.fwMessage part m)

/-- FW_REPAIR_START (R868). -/
def execFwRepairStart (t : Nat) (flashOk : Bool) (s : State) : Host.Outcome State Fault Refusal := .next (s.repairStart t flashOk)

/-- FW_REPAIR_REQUEST (R868). -/
def execFwRepairRequest (part : Nat) (digest : List Byte) (chunks : List Nat) (s : State) : Host.Outcome State Fault Refusal :=
  .next (s.fwRepairRequest part digest chunks)

/-- PREPARE_RECEIVE (R869). -/
def execPrepareReceive (part kind : Nat) (digest : List Byte) (s : State) : Host.Outcome State Fault Refusal :=
  .next (s.prepareIn part kind digest)

/-- READY_RECEIVE (R870). -/
def execReadyReceive (part : Nat) (a : FwAnswer) (s : State) : Host.Outcome State Fault Refusal := .next (s.answerIn part a)

/-- PREPARE_TIMEOUT (R870). -/
def execPrepareTimeout (t : Nat) (s : State) : Host.Outcome State Fault Refusal := .next (s.prepareTimeout t)

/-- COMMIT_RECEIVE (R871). -/
def execCommitReceive (kind boundary : Nat) (s : State) : Host.Outcome State Fault Refusal := .next (s.commitIn kind boundary)

/-- ABORT_RECEIVE (R870): the target does not activate, and its slot stays STAGED; nothing changes. -/
def execAbortReceive (_kind : Nat) (s : State) : Host.Outcome State Fault Refusal := .next s

/-- FW_RESTART_CORES (R872). -/
def execFwRestartCores (s : State) : Host.Outcome State Fault Refusal := .next s.restartCores

/-- WATCHDOG_EXPIRE (R855). -/
def execWatchdogExpire (core t : Nat) (s : State) : Host.Outcome State Fault Refusal := .next (s.watchdog core t)

/-- CORE_RESTART_DONE (R855). -/
def execCoreRestartDone (core : Nat) (s : State) : Host.Outcome State Fault Refusal := .next (s.coreBack core)

end Sys2Proof.Machine
end

