-- ==== Sys2Proof/Machine/HostReset.lean ====
section
/-! DEFINITION. What befalls a host port (R748 to R752, R756): loss of its host, reclaim, resets, and failed reads. -/

namespace Sys2Proof.Machine

/-! ### Heartbeats (R748, R749) -/

/-- Port `p` enters HOST_LOST (R749). -/
def State.hostLose (s : State) (p : Nat) (arrived : List CopyArrival) : State :=
  let s := ((s.copiesDrop p arrived).ctlLost p).wf (Reg.HOST_P_STAT p) 1 0 2
  (s.count (Ctr.HOST_P_LOST p)).event Reg.HOST_EVT p

/-- Port `p` at a whole second: a miss, unless a heartbeat came since the last one (R748). -/
def State.heartbeatLook (s : State) (p : Nat) (arrived : List CopyArrival) : State :=
  if s.rf (Reg.HOST_P_STAT p) 1 0 ≠ 1 then s
  else if fetch false s.host.beats p then { s with host := { s.host with beats := store false s.host.beats p false } }
  else
    let k := s.rf (Reg.HOST_P_STAT p) 3 2 + 1
    let s := s.wf (Reg.HOST_P_STAT p) 3 2 k
    if 3 ≤ k then s.hostLose p arrived else s

/-- The whole second `t` of the time base. -/
def State.heartbeatCheck (s : State) (t : Nat) (arrived : List CopyArrival) : State :=
  if t % 1000000000 ≠ 0 ∨ t ≤ s.host.second ∨ t < s.now then s
  else
    let s := { s with host := { s.host with second := t } }.reach t
    (s.heartbeatLook 0 arrived).heartbeatLook 1 arrived

/-! ### Resets (R752) -/

/-- The MSI-X tables and AER status of the functions of port `p` that `fns` names are at reset. -/
def State.msixReset (s : State) (p : Nat) (fns : List Nat) : State :=
  let mine (k : Nat) : Bool := k / 16384 = p && fns.contains (k / 4096 % 4)
  { s with msixOpen := s.msixOpen.filter (fun e => !mine e.1), msixPending := s.msixPending.filter (fun e => !mine e.1),
           msixTable := s.msixTable.filter (fun e => !mine (e.1 / 4)), msixOn := fns.foldl (fun m fn => store 0 m (4 * p + fn) 0) s.msixOn,
           host := { s.host with aer := fns.foldl (fun m fn => store 0 (store 0 m (8 * p + 2 * fn) 0) (8 * p + 2 * fn + 1) 0) s.host.aer } }

/-- PASID Enable of function `fn` of port `p` is 0. -/
def State.pasidClear (s : State) (p fn : Nat) : State :=
  { s with host := { s.host with pasidOn := store false s.host.pasidOn (4 * p + fn) false } }

/-- FLR of function `fn` of port `p`. -/
def State.flr (s : State) (p fn : Nat) (arrived : List CopyArrival) : State :=
  if 2 ≤ p then s
  else match fn with
    | 0 => (s.msixReset p [0]).setTrust { s.trust with spdm := store {} s.trust.spdm p {} }
    | 1 =>
      let s := ((s.copyQueuesOff p arrived).msixReset p [1]).pasidClear p 1
      { s with host := { s.host with bar2 := store 36 s.host.bar2 p 36 } }
    | 2 => s.ctlReset p
    | _ => s

/-- The registers of port `p` and its counters at reset (R13). -/
def State.portRegs (s : State) (p : Nat) : State :=
  let mine (base : Nat) (dims : List (Nat × Nat)) (a : Nat) : Bool := dims.any (fun d => (a - base) / d.2 = p)
  let reg (a : Nat) : Bool := (regRow a).any (fun r => r.dom = .port && mine r.base r.dims a)
  let ctr (a : Nat) : Bool := (liveCtr a).any (fun r => r.2.dom = .port && mine r.2.base r.2.dims a)
  { s with regs := s.regs.filter (fun e => !reg e.1), ctrs := s.ctrs.filter (fun e => !ctr e.1), holds := s.holds.filter (fun e => !ctr e.1) }

/-- PERST_N of port `p` goes low, or a hot reset reaches it, after which its link trains again. -/
def State.portReset (s : State) (p : Nat) (perst : Bool) (arrived : List CopyArrival) : State :=
  if 2 ≤ p then s
  else
    let s := (((s.flr p 0 arrived).flr p 1 arrived).flr p 2 arrived).msixReset p [2]
    let c := s.ctl p
    let s := (s.setCtl p { tests := c.tests, errs := c.errs, errCount := c.errCount }).pasidClear p 2
    let s := { s with host := { s.host with beats := store false s.host.beats p false } }.portRegs p
    if perst then s.setPortLink p {}
    else if s.portMayTrain then s.portTrain p
    else s.setPortLink p { s.portUpLink p with trained := false }

/-- A write of HOST_Pn_CTL (R751). -/
def State.reclaim (s : State) (via : Via) (n : Nat) (v : Word) (arrived : List CopyArrival) : State :=
  if 2 ≤ n ∨ !bitOf v.toNat 0 then s
  else match via with
    | .pf0 q =>
      if q = n then
        let s := (s.flr n 1 arrived).flr n 2 arrived
        let s := { s with host := { s.host with beats := store false s.host.beats n false } }
        (s.wf (Reg.HOST_P_STAT n) 1 0 0).wf (Reg.HOST_P_STAT n) 3 2 0
      else s.reject via (Reg.HOST_P_CTL n) 0x04F0
    | .spindle => s.reject via (Reg.HOST_P_CTL n) 0x04F0
    | _ => s

/-! ### Failed reads (R756) -/

/-- The read of host data for the command that the NVMe controller of port `p` takes next fails: it has no effect. -/
def State.nvmeReadFail (s : State) (p : Nat) : State :=
  match s.nvmeNext p with
  | some (_, e) => if e.opc = 1 ∨ e.opc = 9 then s.ioTake p e.opc (fun s q e => s.nvmePost p q e.cid 0x0004 0 e.nsid) else s
  | none => s

/-- A DMA read ends in a timeout, which AER reports, or in UR or CA; `data` came before. -/
def State.dmaReadFail (s : State) (u : DmaUnit) (data : List HostChunk) (timeout : Bool) : State :=
  match u with
  | .copy n k =>
    let p := s.copyPort n k
    if s.hostLost p ∨ (s.copyRunning n k).all (fun c => c.toHost) then s
    else (if timeout then s.aerError p 1 14 false else s).copyReadFail n k data
  | .nvme p => (if timeout && s.nvmeUp p then s.aerError p 2 14 false else s).nvmeReadFail p

/-! ### Rows -/

/-- HEARTBEAT_CHECK (R748). -/
def execHeartbeatCheck (t : Nat) (arrived : List CopyArrival) (s : State) : Host.Outcome State Fault Refusal :=
  .next (s.heartbeatCheck t arrived)

/-- RECLAIM (R751). -/
def execReclaim (via : Via) (n : Nat) (v : Word) (arrived : List CopyArrival) (s : State) : Host.Outcome State Fault Refusal :=
  .next (s.reclaim via n v arrived)

/-- PORT_RESET (R752). -/
def execPortReset (port : Nat) (perst : Bool) (arrived : List CopyArrival) (s : State) : Host.Outcome State Fault Refusal :=
  .next (s.portReset port perst arrived)

/-- FLR (R752). -/
def execFlr (port fn : Nat) (arrived : List CopyArrival) (s : State) : Host.Outcome State Fault Refusal := .next (s.flr port fn arrived)

/-- DMA_READ_FAIL (R756). -/
def execDmaReadFail (u : DmaUnit) (data : List HostChunk) (timeout : Bool) (s : State) : Host.Outcome State Fault Refusal :=
  .next (s.dmaReadFail u data timeout)

end Sys2Proof.Machine
end

