-- ==== Sys2Proof/Machine/IsaControl.lean ====
section
/-! DEFINITION. Control, row-collective and matrix instructions, and the ends of waits (file 06). Each command is one needle of one row executing the
instruction at its program counter, when that instruction is the command's. -/

namespace Sys2Proof.Machine

/-- B_CC (R339). -/
def execBCc (row needle : Nat) (ecc : Ecc) (s : State) : Host.Outcome State Fault Refusal :=
  .next (s.needleStep .bCc row needle ecc)

/-- CALL (R342). -/
def execCall (row needle : Nat) (ecc : Ecc) (s : State) : Host.Outcome State Fault Refusal :=
  .next (s.needleStep .call row needle ecc)

/-- REP (R345). -/
def execRep (row needle : Nat) (ecc : Ecc) (s : State) : Host.Outcome State Fault Refusal :=
  .next (s.needleStep .rep row needle ecc)

/-- REPN (R345). -/
def execRepn (row needle : Nat) (ecc : Ecc) (s : State) : Host.Outcome State Fault Refusal :=
  .next (s.needleStep .repn row needle ecc)

/-- VXCH (R382). -/
def execVxch (row needle : Nat) (ecc : Ecc) (s : State) : Host.Outcome State Fault Refusal :=
  .next (s.needleStep .vxch row needle ecc)

/-- MLD (R383). -/
def execMld (row needle : Nat) (ecc : Ecc) (s : State) : Host.Outcome State Fault Refusal :=
  .next (s.needleStep .mld row needle ecc)

/-- MMA (R384). -/
def execMma (row needle : Nat) (ecc : Ecc) (s : State) : Host.Outcome State Fault Refusal :=
  .next (s.needleStep .mma row needle ecc)

/-- MCLR (R386). -/
def execMclr (row needle : Nat) (ecc : Ecc) (s : State) : Host.Outcome State Fault Refusal :=
  .next (s.needleStep .mclr row needle ecc)

/-- MRD (R330). -/
def execMrd (row needle : Nat) (ecc : Ecc) (s : State) : Host.Outcome State Fault Refusal :=
  .next (s.needleStep .mrd row needle ecc)

/-- MST (R386). -/
def execMst (row needle : Nat) (ecc : Ecc) (s : State) : Host.Outcome State Fault Refusal :=
  .next (s.needleStep .mst row needle ecc)

/-- NOP (R387). -/
def execNop (row needle : Nat) (ecc : Ecc) (s : State) : Host.Outcome State Fault Refusal :=
  .next (s.needleStep .nop row needle ecc)

/-- END (R288). -/
def execEndRow (row needle : Nat) (ecc : Ecc) (s : State) : Host.Outcome State Fault Refusal :=
  .next (s.needleStep .endRow row needle ecc)

/-- SAFE (R293). -/
def execSafe (row needle : Nat) (ecc : Ecc) (s : State) : Host.Outcome State Fault Refusal :=
  .next (s.needleStep .safe row needle ecc)

/-- RET (R343). -/
def execRet (row needle : Nat) (ecc : Ecc) (s : State) : Host.Outcome State Fault Refusal :=
  .next (s.needleStep .ret row needle ecc)

/-- RTT (R394). -/
def execRtt (row needle : Nat) (ecc : Ecc) (s : State) : Host.Outcome State Fault Refusal :=
  .next (s.needleStep .rtt row needle ecc)

/-- RTT_NEXT (R394). -/
def execRttNext (row needle : Nat) (ecc : Ecc) (s : State) : Host.Outcome State Fault Refusal :=
  .next (s.needleStep .rttNext row needle ecc)

/-- FCLR (R321). -/
def execFclr (row needle : Nat) (ecc : Ecc) (s : State) : Host.Outcome State Fault Refusal :=
  .next (s.needleStep .fclr row needle ecc)

/-- BR (R340). -/
def execBr (row needle : Nat) (ecc : Ecc) (s : State) : Host.Outcome State Fault Refusal :=
  .next (s.needleStep .br row needle ecc)

/-- MFS (R387). -/
def execMfs (row needle : Nat) (ecc : Ecc) (s : State) : Host.Outcome State Fault Refusal :=
  .next (s.needleStep .mfs row needle ecc)

/-- DRST (R371). -/
def execDrst (row needle : Nat) (ecc : Ecc) (s : State) : Host.Outcome State Fault Refusal :=
  .next (s.needleStep .drst row needle ecc)

/-- WAITB (R388). -/
def execWaitb (row needle : Nat) (ecc : Ecc) (s : State) : Host.Outcome State Fault Refusal :=
  .next (s.needleStep .waitb row needle ecc)

/-- WAITT (R387). -/
def execWaitt (row needle : Nat) (ecc : Ecc) (s : State) : Host.Outcome State Fault Refusal :=
  .next (s.needleStep .waitt row needle ecc)

/-- FENCE (R375). -/
def execFence (row needle : Nat) (ecc : Ecc) (s : State) : Host.Outcome State Fault Refusal :=
  .next (s.needleStep .fence row needle ecc)

/-- TRAP (R387). -/
def execTrap (row needle : Nat) (ecc : Ecc) (s : State) : Host.Outcome State Fault Refusal :=
  .next (s.needleStep .trap row needle ecc)

/-- WAITB_WAKE (R388). -/
def execWaitbWake (row needle : Nat) (s : State) : Host.Outcome State Fault Refusal := .next (s.waitbWake row needle)

/-- WAITT_WAKE (R655). -/
def execWaittWake (row needle : Nat) (s : State) : Host.Outcome State Fault Refusal := .next (s.waittWake row needle)

end Sys2Proof.Machine
end

