-- ==== Sys2Proof/Machine/IsaMemory.lean ====
section
/-! DEFINITION. The memory instructions (file 06). Each command is one needle of one row executing the
instruction at its program counter, when that instruction is the command's. -/

namespace Sys2Proof.Machine

/-- LDB (R334). -/
def execLdb (row needle : Nat) (ecc : Ecc) (s : State) : Host.Outcome State Fault Refusal :=
  .next (s.needleStep .ldb row needle ecc)

/-- LDH (R334). -/
def execLdh (row needle : Nat) (ecc : Ecc) (s : State) : Host.Outcome State Fault Refusal :=
  .next (s.needleStep .ldh row needle ecc)

/-- LDW (R334). -/
def execLdw (row needle : Nat) (ecc : Ecc) (s : State) : Host.Outcome State Fault Refusal :=
  .next (s.needleStep .ldw row needle ecc)

/-- LDD (R334). -/
def execLdd (row needle : Nat) (ecc : Ecc) (s : State) : Host.Outcome State Fault Refusal :=
  .next (s.needleStep .ldd row needle ecc)

/-- STB (R334). -/
def execStb (row needle : Nat) (ecc : Ecc) (s : State) : Host.Outcome State Fault Refusal :=
  .next (s.needleStep .stb row needle ecc)

/-- STH (R334). -/
def execSth (row needle : Nat) (ecc : Ecc) (s : State) : Host.Outcome State Fault Refusal :=
  .next (s.needleStep .sth row needle ecc)

/-- STW (R334). -/
def execStw (row needle : Nat) (ecc : Ecc) (s : State) : Host.Outcome State Fault Refusal :=
  .next (s.needleStep .stw row needle ecc)

/-- STD (R334). -/
def execStd (row needle : Nat) (ecc : Ecc) (s : State) : Host.Outcome State Fault Refusal :=
  .next (s.needleStep .std row needle ecc)

/-- VLD (R334). -/
def execVld (row needle : Nat) (ecc : Ecc) (s : State) : Host.Outcome State Fault Refusal :=
  .next (s.needleStep .vld row needle ecc)

/-- VST (R334). -/
def execVst (row needle : Nat) (ecc : Ecc) (s : State) : Host.Outcome State Fault Refusal :=
  .next (s.needleStep .vst row needle ecc)

/-- PLD (R335). -/
def execPld (row needle : Nat) (ecc : Ecc) (s : State) : Host.Outcome State Fault Refusal :=
  .next (s.needleStep .pld row needle ecc)

/-- PST (R335). -/
def execPst (row needle : Nat) (ecc : Ecc) (s : State) : Host.Outcome State Fault Refusal :=
  .next (s.needleStep .pst row needle ecc)

end Sys2Proof.Machine
end

