-- ==== Sys2Proof/Machine/IsaScalar.lean ====
section
/-! DEFINITION. The scalar, segment, generator and stream instructions (file 06). Each command is one needle of one row executing the
instruction at its program counter, when that instruction is the command's. -/

namespace Sys2Proof.Machine

/-- ALU_ADD (R337). -/
def execAluAdd (row needle : Nat) (ecc : Ecc) (s : State) : Host.Outcome State Fault Refusal :=
  .next (s.needleStep .aluAdd row needle ecc)

/-- ALU_SUB (R337). -/
def execAluSub (row needle : Nat) (ecc : Ecc) (s : State) : Host.Outcome State Fault Refusal :=
  .next (s.needleStep .aluSub row needle ecc)

/-- ALU_AND (R337). -/
def execAluAnd (row needle : Nat) (ecc : Ecc) (s : State) : Host.Outcome State Fault Refusal :=
  .next (s.needleStep .aluAnd row needle ecc)

/-- ALU_OR (R337). -/
def execAluOr (row needle : Nat) (ecc : Ecc) (s : State) : Host.Outcome State Fault Refusal :=
  .next (s.needleStep .aluOr row needle ecc)

/-- ALU_XOR (R337). -/
def execAluXor (row needle : Nat) (ecc : Ecc) (s : State) : Host.Outcome State Fault Refusal :=
  .next (s.needleStep .aluXor row needle ecc)

/-- ALU_SHL (R337). -/
def execAluShl (row needle : Nat) (ecc : Ecc) (s : State) : Host.Outcome State Fault Refusal :=
  .next (s.needleStep .aluShl row needle ecc)

/-- ALU_SHR (R337). -/
def execAluShr (row needle : Nat) (ecc : Ecc) (s : State) : Host.Outcome State Fault Refusal :=
  .next (s.needleStep .aluShr row needle ecc)

/-- ALU_SAR (R337). -/
def execAluSar (row needle : Nat) (ecc : Ecc) (s : State) : Host.Outcome State Fault Refusal :=
  .next (s.needleStep .aluSar row needle ecc)

/-- MUL (R337). -/
def execMul (row needle : Nat) (ecc : Ecc) (s : State) : Host.Outcome State Fault Refusal :=
  .next (s.needleStep .mul row needle ecc)

/-- MULHU (R337). -/
def execMulhu (row needle : Nat) (ecc : Ecc) (s : State) : Host.Outcome State Fault Refusal :=
  .next (s.needleStep .mulhu row needle ecc)

/-- MULHS (R337). -/
def execMulhs (row needle : Nat) (ecc : Ecc) (s : State) : Host.Outcome State Fault Refusal :=
  .next (s.needleStep .mulhs row needle ecc)

/-- MINS (R337). -/
def execMins (row needle : Nat) (ecc : Ecc) (s : State) : Host.Outcome State Fault Refusal :=
  .next (s.needleStep .mins row needle ecc)

/-- MAXS (R337). -/
def execMaxs (row needle : Nat) (ecc : Ecc) (s : State) : Host.Outcome State Fault Refusal :=
  .next (s.needleStep .maxs row needle ecc)

/-- MINU (R337). -/
def execMinu (row needle : Nat) (ecc : Ecc) (s : State) : Host.Outcome State Fault Refusal :=
  .next (s.needleStep .minu row needle ecc)

/-- MAXU (R337). -/
def execMaxu (row needle : Nat) (ecc : Ecc) (s : State) : Host.Outcome State Fault Refusal :=
  .next (s.needleStep .maxu row needle ecc)

/-- CMP (R337). -/
def execCmp (row needle : Nat) (ecc : Ecc) (s : State) : Host.Outcome State Fault Refusal :=
  .next (s.needleStep .cmp row needle ecc)

/-- MOV (R337). -/
def execMov (row needle : Nat) (ecc : Ecc) (s : State) : Host.Outcome State Fault Refusal :=
  .next (s.needleStep .mov row needle ecc)

/-- POPC (R337). -/
def execPopc (row needle : Nat) (ecc : Ecc) (s : State) : Host.Outcome State Fault Refusal :=
  .next (s.needleStep .popc row needle ecc)

/-- CLZ (R337). -/
def execClz (row needle : Nat) (ecc : Ecc) (s : State) : Host.Outcome State Fault Refusal :=
  .next (s.needleStep .clz row needle ecc)

/-- ADDI (R330). -/
def execAddi (row needle : Nat) (ecc : Ecc) (s : State) : Host.Outcome State Fault Refusal :=
  .next (s.needleStep .addi row needle ecc)

/-- CMPI (R330). -/
def execCmpi (row needle : Nat) (ecc : Ecc) (s : State) : Host.Outcome State Fault Refusal :=
  .next (s.needleStep .cmpi row needle ecc)

/-- MOVZ (R330). -/
def execMovz (row needle : Nat) (ecc : Ecc) (s : State) : Host.Outcome State Fault Refusal :=
  .next (s.needleStep .movz row needle ecc)

/-- MOVK (R330). -/
def execMovk (row needle : Nat) (ecc : Ecc) (s : State) : Host.Outcome State Fault Refusal :=
  .next (s.needleStep .movk row needle ecc)

/-- ANDI (R330). -/
def execAndi (row needle : Nat) (ecc : Ecc) (s : State) : Host.Outcome State Fault Refusal :=
  .next (s.needleStep .andi row needle ecc)

/-- ORI (R330). -/
def execOri (row needle : Nat) (ecc : Ecc) (s : State) : Host.Outcome State Fault Refusal :=
  .next (s.needleStep .ori row needle ecc)

/-- XORI (R330). -/
def execXori (row needle : Nat) (ecc : Ecc) (s : State) : Host.Outcome State Fault Refusal :=
  .next (s.needleStep .xori row needle ecc)

/-- SHLI (R330). -/
def execShli (row needle : Nat) (ecc : Ecc) (s : State) : Host.Outcome State Fault Refusal :=
  .next (s.needleStep .shli row needle ecc)

/-- SHRI (R330). -/
def execShri (row needle : Nat) (ecc : Ecc) (s : State) : Host.Outcome State Fault Refusal :=
  .next (s.needleStep .shri row needle ecc)

/-- SARI (R330). -/
def execSari (row needle : Nat) (ecc : Ecc) (s : State) : Host.Outcome State Fault Refusal :=
  .next (s.needleStep .sari row needle ecc)

/-- CHKB (R336). -/
def execChkb (row needle : Nat) (ecc : Ecc) (s : State) : Host.Outcome State Fault Refusal :=
  .next (s.needleStep .chkb row needle ecc)

/-- SSET (R333). -/
def execSset (row needle : Nat) (ecc : Ecc) (s : State) : Host.Outcome State Fault Refusal :=
  .next (s.needleStep .sset row needle ecc)

/-- SGET (R330). -/
def execSget (row needle : Nat) (ecc : Ecc) (s : State) : Host.Outcome State Fault Refusal :=
  .next (s.needleStep .sget row needle ecc)

/-- DRAW (R369). -/
def execDraw (row needle : Nat) (ecc : Ecc) (s : State) : Host.Outcome State Fault Refusal :=
  .next (s.needleStep .draw row needle ecc)

/-- DRAWE (R372). -/
def execDrawe (row needle : Nat) (ecc : Ecc) (s : State) : Host.Outcome State Fault Refusal :=
  .next (s.needleStep .drawe row needle ecc)

/-- SDEF (R376). -/
def execSdef (row needle : Nat) (ecc : Ecc) (s : State) : Host.Outcome State Fault Refusal :=
  .next (s.needleStep .sdef row needle ecc)

/-- SRD (R377). -/
def execSrd (row needle : Nat) (ecc : Ecc) (s : State) : Host.Outcome State Fault Refusal :=
  .next (s.needleStep .srd row needle ecc)

end Sys2Proof.Machine
end

