-- ==== Sys2Proof/Machine/IsaVector.lean ====
section
/-! DEFINITION. The vector and ply instructions (file 06). Each command is one needle of one row executing the
instruction at its program counter, when that instruction is the command's. -/

namespace Sys2Proof.Machine

/-- VADD (R351). -/
def execVadd (row needle : Nat) (ecc : Ecc) (s : State) : Host.Outcome State Fault Refusal :=
  .next (s.needleStep .vadd row needle ecc)

/-- VSUB (R351). -/
def execVsub (row needle : Nat) (ecc : Ecc) (s : State) : Host.Outcome State Fault Refusal :=
  .next (s.needleStep .vsub row needle ecc)

/-- VMUL (R351). -/
def execVmul (row needle : Nat) (ecc : Ecc) (s : State) : Host.Outcome State Fault Refusal :=
  .next (s.needleStep .vmul row needle ecc)

/-- VMAX (R351). -/
def execVmax (row needle : Nat) (ecc : Ecc) (s : State) : Host.Outcome State Fault Refusal :=
  .next (s.needleStep .vmax row needle ecc)

/-- VMIN (R351). -/
def execVmin (row needle : Nat) (ecc : Ecc) (s : State) : Host.Outcome State Fault Refusal :=
  .next (s.needleStep .vmin row needle ecc)

/-- VABS (R351). -/
def execVabs (row needle : Nat) (ecc : Ecc) (s : State) : Host.Outcome State Fault Refusal :=
  .next (s.needleStep .vabs row needle ecc)

/-- VNEG (R351). -/
def execVneg (row needle : Nat) (ecc : Ecc) (s : State) : Host.Outcome State Fault Refusal :=
  .next (s.needleStep .vneg row needle ecc)

/-- VMOV (R351). -/
def execVmov (row needle : Nat) (ecc : Ecc) (s : State) : Host.Outcome State Fault Refusal :=
  .next (s.needleStep .vmov row needle ecc)

/-- VAND (R351). -/
def execVand (row needle : Nat) (ecc : Ecc) (s : State) : Host.Outcome State Fault Refusal :=
  .next (s.needleStep .vand row needle ecc)

/-- VOR (R351). -/
def execVor (row needle : Nat) (ecc : Ecc) (s : State) : Host.Outcome State Fault Refusal :=
  .next (s.needleStep .vor row needle ecc)

/-- VXOR (R351). -/
def execVxor (row needle : Nat) (ecc : Ecc) (s : State) : Host.Outcome State Fault Refusal :=
  .next (s.needleStep .vxor row needle ecc)

/-- VSHL (R351). -/
def execVshl (row needle : Nat) (ecc : Ecc) (s : State) : Host.Outcome State Fault Refusal :=
  .next (s.needleStep .vshl row needle ecc)

/-- VSHR (R351). -/
def execVshr (row needle : Nat) (ecc : Ecc) (s : State) : Host.Outcome State Fault Refusal :=
  .next (s.needleStep .vshr row needle ecc)

/-- VSAR (R351). -/
def execVsar (row needle : Nat) (ecc : Ecc) (s : State) : Host.Outcome State Fault Refusal :=
  .next (s.needleStep .vsar row needle ecc)

/-- VFMA (R330). -/
def execVfma (row needle : Nat) (ecc : Ecc) (s : State) : Host.Outcome State Fault Refusal :=
  .next (s.needleStep .vfma row needle ecc)

/-- VCMP (R354). -/
def execVcmp (row needle : Nat) (ecc : Ecc) (s : State) : Host.Outcome State Fault Refusal :=
  .next (s.needleStep .vcmp row needle ecc)

/-- VSEL (R330). -/
def execVsel (row needle : Nat) (ecc : Ecc) (s : State) : Host.Outcome State Fault Refusal :=
  .next (s.needleStep .vsel row needle ecc)

/-- VCVT (R355). -/
def execVcvt (row needle : Nat) (ecc : Ecc) (s : State) : Host.Outcome State Fault Refusal :=
  .next (s.needleStep .vcvt row needle ecc)

/-- VBCST (R330). -/
def execVbcst (row needle : Nat) (ecc : Ecc) (s : State) : Host.Outcome State Fault Refusal :=
  .next (s.needleStep .vbcst row needle ecc)

/-- VEXT (R355). -/
def execVext (row needle : Nat) (ecc : Ecc) (s : State) : Host.Outcome State Fault Refusal :=
  .next (s.needleStep .vext row needle ecc)

/-- GAUGE (R358). -/
def execGauge (row needle : Nat) (ecc : Ecc) (s : State) : Host.Outcome State Fault Refusal :=
  .next (s.needleStep .gauge row needle ecc)

/-- PCVT (R359). -/
def execPcvt (row needle : Nat) (ecc : Ecc) (s : State) : Host.Outcome State Fault Refusal :=
  .next (s.needleStep .pcvt row needle ecc)

/-- PADD (R361). -/
def execPadd (row needle : Nat) (ecc : Ecc) (s : State) : Host.Outcome State Fault Refusal :=
  .next (s.needleStep .padd row needle ecc)

/-- PFIN (R363). -/
def execPfin (row needle : Nat) (ecc : Ecc) (s : State) : Host.Outcome State Fault Refusal :=
  .next (s.needleStep .pfin row needle ecc)

/-- TALLY (R366). -/
def execTally (row needle : Nat) (ecc : Ecc) (s : State) : Host.Outcome State Fault Refusal :=
  .next (s.needleStep .tally row needle ecc)

/-- PMOV (R330). -/
def execPmov (row needle : Nat) (ecc : Ecc) (s : State) : Host.Outcome State Fault Refusal :=
  .next (s.needleStep .pmov row needle ecc)

/-- PZERO (R330). -/
def execPzero (row needle : Nat) (ecc : Ecc) (s : State) : Host.Outcome State Fault Refusal :=
  .next (s.needleStep .pzero row needle ecc)

end Sys2Proof.Machine
end

