-- ==== Sys2Proof/Machine/Spdm.lean ====
section
/-! DEFINITION. The DOE mailboxes of PF0 (R790 to R798): discovery, the SPDM responder, evidence and key release. The forms
of SPDM messages and of their signatures are those of SPDM 1.3, which R791 cites. -/

namespace Sys2Proof.Machine

/-! ### DOE and SPDM (R790 to R792) -/

/-- A DOE Discovery response for `index`: Discovery, then CMA/SPDM, and no other type. -/
def doeDiscovery (index : Nat) : List Byte :=
  let body := if index = 0 then record [(2, 1), (1, 0), (1, 1)] else if index = 1 then record [(2, 1), (1, 1), (1, 0)]
    else record [(2, 0xFFFF), (1, 0xFF), (1, 0)]
  record [(2, 1), (1, 0), (1, 0), (4, 3)] ++ body

def State.spdm (s : State) (p : Nat) : Spdm := fetch {} s.trust.spdm p

def State.setSpdm (s : State) (p : Nat) (x : Spdm) : State := s.setTrust { s.trust with spdm := store {} s.trust.spdm p x }

/-- A DOE data object that holds an SPDM message. -/
def doeWrap (m : List Byte) : List Byte :=
  let k := roundUp m.length 4
  record [(2, 1), (1, 1), (1, 0), (4, 2 + k / 4)] ++ fitBytes k m

def State.spdmSay (s : State) (p : Nat) (m : List Byte) : State := s.emit (.doe p (doeWrap m))

/-- An SPDM ERROR: 1 invalid request, 4 unexpected request, 5 unspecified. -/
def State.spdmError (s : State) (p code : Nat) : State := s.spdmSay p (record [(1, 0x13), (1, 0x7F), (1, code), (1, 0)])

/-- An SPDM signature by the alias Ed25519 key over a transcript (SPDM 1.3). -/
def State.spdmSign (s : State) (context : String) (transcript : List Byte) : List Byte :=
  let lead := (List.replicate 4 (asciiBytes "dmtf-spdm-v1.3.*")).flatten
  let c := asciiBytes context
  fitBytes 64 (Config.signEd s.aliasKey (lead ++ List.replicate (36 - c.length) 0 ++ c ++ sha3x256 transcript))

/-- The chain of slot 0 in SPDM's form: length, digest of the root, certificates (R791). -/
def State.spdmChain (s : State) : List Byte :=
  let c := Config.certChain s.aliasCert
  record [(2, 36 + c.length), (2, 0)] ++ fitBytes 32 (sha3x256 (fitBytes 1984 Config.rootKeys)) ++ c

/-- The request `req` with code `code` reaches the mailbox of port `p`: it is answered by `k` when the connection has reached
`stage` and the part has an identity (R782), and otherwise with an ERROR. -/
def State.spdmTake (s : State) (p code stage : Nat) (req : List Byte) (k : State → Spdm → State) : State :=
  if 2 ≤ p ∨ byteAt req 1 ≠ code then s
  else if 16384 < req.length ∨ (code ≠ 0x84 ∧ byteAt req 0 ≠ 0x13) then s.spdmError p 1
  else if (s.spdm p).stage < stage then s.spdmError p 4
  else if 3 ≤ stage ∧ (s.lc = 0 ∨ s.lc = 3) then s.spdmError p 5
  else k s (s.spdm p)

/-- GET_VERSION: the connection starts anew. -/
def State.spdmVersion (s : State) (p : Nat) (req : List Byte) : State :=
  s.spdmTake p 0x84 0 req (fun s _ =>
    let m := record [(1, 0x10), (1, 0x04), (2, 0), (1, 0), (1, 1), (2, 0x1300)]
    (s.setSpdm p { stage := 1, a := req ++ m }).spdmSay p m)

/-- GET_CAPABILITIES: CERT_CAP, CHAL_CAP and MEAS_CAP with signature (R791). -/
def State.spdmCaps (s : State) (p : Nat) (req : List Byte) : State :=
  s.spdmTake p 0xE1 1 req (fun s x =>
    let m := record [(1, 0x13), (1, 0x61), (2, 0), (1, 0), (1, s.freeBits 8), (2, 0), (4, 0x16), (4, 16384), (4, 16384)]
    (s.useFree.setSpdm p { x with stage := 2, a := x.a ++ req ++ m }).spdmSay p m)

/-- NEGOTIATE_ALGORITHMS: Ed25519, SHA3-256 and the DMTF measurement specification, each when the requester offers it. -/
def State.spdmAlgs (s : State) (p : Nat) (req : List Byte) : State :=
  s.spdmTake p 0xE3 2 req (fun s x =>
    let meas := byteAt req 6 % 2
    let asym := leAt req 8 4 &&& 0x400
    let hash := leAt req 12 4 &&& 0x8
    let m := record [(1, 0x13), (1, 0x63), (2, 0), (2, 52), (1, meas), (1, 0), (4, if meas = 1 then 0x10 else 0), (4, asym), (4, hash), (11, 0), (1, 0),
      (1, 0), (1, 0), (2, 0), (12, 0)]
    (s.setSpdm p { x with stage := 3, a := x.a ++ req ++ m }).spdmSay p m)

/-- GET_DIGESTS: the digest of slot 0's chain. -/
def State.spdmDigests (s : State) (p : Nat) (req : List Byte) : State :=
  s.spdmTake p 0x81 3 req (fun s x =>
    let m := record [(1, 0x13), (1, 0x01), (1, 1), (1, 1)] ++ sha3x256 s.spdmChain
    (s.setSpdm p { x with b := x.b ++ req ++ m }).spdmSay p m)

/-- GET_CERTIFICATE: a portion of slot 0's chain. -/
def State.spdmCert (s : State) (p : Nat) (req : List Byte) : State :=
  s.spdmTake p 0x82 3 req (fun s x =>
    let off := leAt req 4 2
    let len := leAt req 6 2
    let c := s.spdmChain
    if byteAt req 2 % 16 ≠ 0 ∨ c.length ≤ off then s.spdmError p 1
    else
      let part := (c.drop off).take (min len 16376)
      let m := record [(1, 0x13), (1, 0x02), (1, 0), (1, 0), (2, part.length), (2, c.length - off - part.length)] ++ part
      (s.setSpdm p { x with b := x.b ++ req ++ m }).spdmSay p m)

/-- CHALLENGE: an Ed25519 signature over the connection's transcript. -/
def State.spdmChallenge (s : State) (p : Nat) (req : List Byte) : State :=
  s.spdmTake p 0x83 3 req (fun s x =>
    if byteAt req 2 ≠ 0 then s.spdmError p 1
    else
      let nonce := s.draw 32
      let s := s.drew
      let meas := if byteAt req 3 = 0 then [] else sha3x256 (s.trust.running.flatMap (fun m => m.digest))
      let m := record [(1, 0x13), (1, 0x03), (1, 0), (1, 1)] ++ sha3x256 s.spdmChain ++ nonce ++ meas ++ record [(2, 0)] ++ (req.drop 36).take 8
      let sig := s.spdmSign "responder-challenge_auth signing" (x.a ++ x.b ++ req ++ m)
      (s.setSpdm p { x with b := [], l := [] }).spdmSay p (m ++ sig))

/-- A measurement block of SPDM (R792). -/
def Measure.block (m : Measure) : List Byte := record [(1, m.index), (1, 1), (2, 35), (1, m.type), (2, 32)] ++ fitBytes 32 m.digest

/-- GET_MEASUREMENTS (R792). -/
def State.spdmMeasure (s : State) (p : Nat) (req : List Byte) : State :=
  s.spdmTake p 0xE0 3 req (fun s x =>
    let ms := s.trust.running ++ s.trust.staged
    let op := byteAt req 3
    let sign := byteAt req 2 % 2 = 1
    let sel := if op = 0 then [] else if op = 0xFF then ms else ms.filter (fun m => m.index = op)
    if op ≠ 0 ∧ sel = [] then s.spdmError p 1
    else
      let rec_ := sel.flatMap Measure.block
      let nonce := s.draw 32
      let s := s.drew
      let ctx := if sign then (req.drop 37).take 8 else (req.drop 4).take 8
      let m := record [(1, 0x13), (1, 0x60), (1, if op = 0 then ms.length else 0), (1, 0), (1, sel.length), (3, rec_.length)] ++ rec_ ++ nonce ++
        record [(2, 0)] ++ fitBytes 8 ctx
      let l := x.l ++ req ++ m
      if sign then (s.setSpdm p { x with l := [] }).spdmSay p (m ++ s.spdmSign "responder-measurements signing" (x.a ++ l))
      else (s.setSpdm p { x with l }).spdmSay p m)

/-! ### Vendor-defined requests (R793 to R798) -/

/-- A vendor response that is a status. -/
def State.vendorStatus (s : State) (p code st : Nat) : State := s.emit (.vendor p code (leBytes 2 st))

/-- GET_EVIDENCE (R787 to R789, R795); the other request codes that are reserved end here too (R793). -/
def State.getEvidence (s : State) (p code : Nat) (q : List Byte) : State :=
  let scope := byteAt q 32
  let kem := byteAt q 33
  if 2 ≤ p ∨ (2 ≤ code ∧ code ≤ 4) then s
  else if code ≠ 1 ∨ q.length ≠ 34 then s.vendorStatus p code 0x0122
  else if s.lc = 0 ∨ s.lc = 3 then s.vendorStatus p code 0x0408
  else if (scope ≠ 0xFF ∧ !s.hasSlice scope) ∨ 1 < kem ∨ (kem = 1 ∧ scope = 0xFF) then s.vendorStatus p code 0x0120
  else
    let sc := if scope = 0xFF then none else some scope
    if kem = 0 then (s.count Ctr.TRUST_EVIDENCE).emit (.vendor p code (s.evidenceBlock sc (q.take 32) []))
    else
      let xs := s.draw 32
      let s := s.drew
      let ks := s.draw 64
      let s := s.drew
      let keys := fitBytes 32 (Config.xPublic xs) ++ fitBytes 1184 (Config.kemPublic ks)
      let e := s.evidenceBlock sc (q.take 32) (sha3x256 keys)
      let x : Session := { since := s.now, evidence := e.take 768, xs, ks }
      let s := s.setTrust { s.trust with sessions := store none s.trust.sessions scope (some x) }
      (s.evidenceSync.count Ctr.TRUST_EVIDENCE).emit (.vendor p code (e ++ keys))

/-- GET_IDCERT (R793). -/
def State.getIdcert (s : State) (p : Nat) (q : List Byte) : State :=
  let k := byteAt q 0
  if 2 ≤ p then s
  else if q.length ≠ 1 then s.vendorStatus p 2 0x0122
  else if s.lc = 0 ∨ s.lc = 3 then s.vendorStatus p 2 0x0408
  else if k = 0 ∨ 4 ≤ k then s.vendorStatus p 2 0x0120
  else s.emit (.vendor p 2 (if k = 3 then s.aliasCert else fitBytes 5456 (Config.flashCert k)))

/-- The grant that a RELEASE payload holds under session `x`, if its tag is good (R797). -/
def Session.grant (x : Session) (q : List Byte) : Option (List Byte) :=
  let xb := q.take 32
  let ct := (q.drop 32).take 1088
  let len := leAt q 1120 2
  let kek := kmac256 (Config.xShared x.xs xb ++ Config.kemDecaps x.ks ct) (sha3x256 (x.evidence ++ xb ++ ct)) 32 (asciiBytes "MZ-RELEASE")
  gcmOpen kek (List.replicate 12 0) (q.take 1128) ((q.drop 1128).take len) ((q.drop (1128 + len)).take 16)

/-- A grant's entry `j`: DEST, and whether it loads a weight key. -/
def grantDest (g : List Byte) (j : Nat) : Nat := leAt g (16 + 48 * j) 2
def grantWeight (g : List Byte) (j : Nat) : Bool := !bitOf (grantDest g j) 15

/-- Is a grant for slice `n` well formed (R797)? -/
def grantOk (g : List Byte) (n : Nat) : Bool :=
  let k := byteAt g 3
  byteAt g 0 = 1 && byteAt g 1 < 2 && byteAt g 2 = n && 1 ≤ k && k ≤ 8 && leAt g 4 4 = 0 && g.length = 8 + 48 * k &&
  (List.range k).all (fun j => leAt g (22 + 48 * j) 2 = 0 &&
    (if grantWeight g j then grantDest g j = 0 && leAt g (18 + 48 * j) 4 = 0 else bitsOf (grantDest g j) 13 10 = 0))

/-- The status of a well-formed grant for slice `n` (R798). -/
def State.grantStatus (s : State) (n : Nat) (g : List Byte) : Nat :=
  let js := List.range (byteAt g 3)
  let chans := (js.filter (fun j => !grantWeight g j)).map (fun j => grantDest g j)
  let busy (d : Nat) : Bool :=
    let c := s.cipher (s.shareIdx n 1024 (d % 1024))
    if bitOf d 14 then c.rx.isSome else c.tx.isSome
  if chans.any (fun d => s.shareSize 1024 ≤ d % 1024 || busy d) ∨ chans.eraseDups.length ≠ chans.length then 0x0121
  else if s.shareSize 64 < (s.trust.weights.filter (fun w => w.slice = n)).length + (js.filter (grantWeight g)).length then 0x0320
  else 0

/-- Every key of a grant is loaded (R798, R799). -/
def State.grantLoad (s : State) (n : Nat) (g : List Byte) : State :=
  let pin := byteAt g 1 = 1
  let id := s.trust.grants + 1
  let s := s.setTrust { s.trust with grants := id, pinned := if pin && !s.trust.pinned.contains n then s.trust.pinned ++ [n] else s.trust.pinned }
  let s := (List.range (byteAt g 3)).foldl (fun s j =>
    let key := (g.drop (24 + 48 * j)).take 32
    let d := grantDest g j
    if grantWeight g j then
      s.setTrust { s.trust with weights := s.trust.weights ++ [⟨n, id, leAt g (8 + 48 * j) 8, key, pin⟩] }
    else s.cipherLoad (s.shareIdx n 1024 (d % 1024)) (bitOf d 14) key ((g.drop (18 + 48 * j)).take 4)) s
  (s.count Ctr.TRUST_RELEASE).trustShow n

/-- The live sessions, by slice. -/
def State.liveSessions (s : State) : List (Nat × Session) :=
  (List.range 4).filterMap (fun n => (fetch none s.trust.sessions n).map (fun x => (n, x)))

/-- A RELEASE is refused with `st`. -/
def State.releaseRefuse (s : State) (p st : Nat) : State := ((s.count Ctr.TRUST_REFUSE).event Reg.TRUST_EVT 2).vendorStatus p 3 st

/-- RELEASE (R796 to R798, R808, R816): the grant belongs to the live session under whose keys it opens. -/
def State.release (s : State) (p : Nat) (q : List Byte) (mismatch : Bool) : State :=
  let xs := s.liveSessions
  let ended (s : State) : State := s.setTrust { s.trust with sessions := [] }
  if 2 ≤ p then s
  else if q.length ≠ 1144 + leAt q 1120 2 then s.vendorStatus p 3 0x0122
  else if s.alarmSet then s.releaseRefuse p 0x0404
  else if s.lc ≠ 2 then (if s.lc = 3 then s else ended s).releaseRefuse p 0x0408
  else if xs = [] then s.releaseRefuse p 0x0402
  else if leAt q 1122 6 ≠ 0 then (ended s).releaseRefuse p 0x0120
  else if mismatch then (s.privMismatch ended).releaseRefuse p 0x0520
  else
    match xs.findSome? (fun x => (x.2.grant q).map (fun g => (x.1, g))) with
    | none => (ended s).releaseRefuse p 0x0403
    | some (n, g) =>
      let s := s.setTrust { s.trust with sessions := store none s.trust.sessions n none }
      let st := if grantOk g n then s.grantStatus n g else 0x0120
      if st ≠ 0 then s.releaseRefuse p st else (s.grantLoad n g).evidenceSync.vendorStatus p 3 0

/-! ### Rows -/

/-- DOE_DISCOVERY (R790). -/
def execDoeDiscovery (port index : Nat) (s : State) : Host.Outcome State Fault Refusal :=
  .next (if port < 2 then s.emit (.doe port (doeDiscovery index)) else s)

/-- GET_VERSION (R791). -/
def execGetVersion (port : Nat) (req : List Byte) (s : State) : Host.Outcome State Fault Refusal := .next (s.spdmVersion port req)

/-- GET_CAPABILITIES (R791). -/
def execGetCapabilities (port : Nat) (req : List Byte) (s : State) : Host.Outcome State Fault Refusal := .next (s.spdmCaps port req)

/-- NEGOTIATE_ALGORITHMS (R791). -/
def execNegotiateAlgorithms (port : Nat) (req : List Byte) (s : State) : Host.Outcome State Fault Refusal := .next (s.spdmAlgs port req)

/-- GET_DIGESTS (R791). -/
def execGetDigests (port : Nat) (req : List Byte) (s : State) : Host.Outcome State Fault Refusal := .next (s.spdmDigests port req)

/-- GET_CERTIFICATE (R791). -/
def execGetCertificate (port : Nat) (req : List Byte) (s : State) : Host.Outcome State Fault Refusal := .next (s.spdmCert port req)

/-- CHALLENGE (R791). -/
def execChallenge (port : Nat) (req : List Byte) (s : State) : Host.Outcome State Fault Refusal := .next (s.spdmChallenge port req)

/-- GET_MEASUREMENTS (R792). -/
def execGetMeasurements (port : Nat) (req : List Byte) (s : State) : Host.Outcome State Fault Refusal := .next (s.spdmMeasure port req)

/-- GET_EVIDENCE (R793). -/
def execGetEvidence (port code : Nat) (payload : List Byte) (s : State) : Host.Outcome State Fault Refusal :=
  .next (s.getEvidence port code payload)

/-- GET_IDCERT (R793). -/
def execGetIdcert (port : Nat) (payload : List Byte) (s : State) : Host.Outcome State Fault Refusal := .next (s.getIdcert port payload)

/-- RELEASE (R798). -/
def execRelease (port : Nat) (payload : List Byte) (mismatch : Bool) (s : State) : Host.Outcome State Fault Refusal :=
  .next (s.release port payload mismatch)

end Sys2Proof.Machine
end

