-- ==== Sys2Proof/Machine/Life.lean ====
section
/-! DEFINITION. Life-cycle transitions (R779 to R781). -/

namespace Sys2Proof.Machine

/-- Is FROM → TO a transition (file 14)? 0 BLANK, 1 PROVISIONED, 2 DEPLOYED, 3 DECOMMISSIONED. -/
def lcMove (a b : Nat) : Bool := (a = 0 && b = 1) || (a = 1 && b = 2) || (a = 2 && b = 1) || (a < 3 && b = 3)

/-- The keys that must sign the transition: the owner's from DEPLOYED, the Shehijor product keys otherwise. -/
def State.lcKeys (s : State) : List Byte := if s.lc = 2 then Config.ownerKeys s.trust.ownerHash else Config.productKeys

/-- Fields of a token that are neither its state nor its signatures. -/
def State.lcFields (s : State) (q : List Byte) : Bool :=
  leAt q 0 4 = 0x4E4B544C && byteAt q 4 = 1 && byteAt q 7 = s.fuses.releases && leAt q 8 8 = s.uid && zeroAt q 48 64 && zeroAt q 3437 3440 &&
  (byteAt q 6 = 2 || zeroAt q 16 48)

/-- The status of a life-cycle request (R779, R780). -/
def State.lcStatus (s : State) (q : List Byte) : Nat :=
  if q.length ≠ 3440 then 0x0122
  else if s.lc = 3 then 0x0408
  else if !s.lcFields q then 0x0120
  else if s.partState ≠ 4 ∨ byteAt q 5 ≠ s.lc ∨ !lcMove (byteAt q 5) (byteAt q 6) ∨ (s.lc = 2 ∧ byteAt q 6 = 1 ∧ 7 ≤ s.fuses.releases) then 0x0220
  else if dualOk s.lcKeys "MZ-LC-TOKEN" (q.take 64) ((q.drop 64).take 64) ((q.drop 128).take 3309) then 0
  else 0x0401

/-- The fuses that a transition writes (R781). -/
def State.lcFuses (s : State) (q : List Byte) : State :=
  let dest := byteAt q 6
  let f := s.fuses
  if s.lc = 0 ∧ dest = 1 then
    let k := s.draw 32
    let s := s.drew
    { s with fuses := { f with secret := k, lc := 1 } }
  else if s.lc = 1 ∧ dest = 2 then { s with fuses := { f with ownerHash := (q.drop 16).take 32, lc := 2 } }
  else if s.lc = 2 ∧ dest = 1 then { s with fuses := { f with releases := f.releases + 1, ownerHash := [], lc := 1 } }
  else { s with fuses := { f with lc := 3 } }

/-- LC_REQUEST on the mailbox of port `p`: a token refused, or the fuses written and a warm reset (R779, R781, R824). -/
def State.lcRequest (s : State) (p : Nat) (q : List Byte) : State :=
  if 2 ≤ p then s
  else
    let st := s.lcStatus q
    let sigBad := st = 0x0401
    if st ≠ 0 then ((if sigBad then s.sigFail else s).vendorStatus p 4 st)
    else ((s.lcFuses q).fusesRead.vendorStatus p 4 0).warmState

/-- LC_REQUEST (R779). -/
def execLcRequest (port : Nat) (payload : List Byte) (s : State) : Host.Outcome State Fault Refusal := .next (s.lcRequest port payload)

end Sys2Proof.Machine
end

