-- ==== Sys2Proof/Machine/Mem.lean ====
section
/-! DEFINITION. Memory as a shared resource (R410 to R435): corrected and uncorrected errors, scrubbing and refresh,
stream prefetchers, and the arbiters. -/

namespace Sys2Proof.Machine

/-! ### Errors (R418 to R421) -/

/-- A corrected error at address `a` (R418, R421): counted for the slice that owns the memory; at the threshold of the
running second the failure warning is raised. -/
def State.memCe (s : State) (a : Nat) : State :=
  match s.ownerOf a with
  | none => s
  | some n =>
    let s := s.count (Ctr.MEM_S_CE n)
    let k := fetch 0 s.ceSec n + 1
    let s := { s with ceSec := store 0 s.ceSec n k }
    if k = s.rf Reg.MEM_CE_THRESH 15 0 then (s.event Reg.MEM_EVT 1).failureWarning n else s

/-- The words that an uncorrected error at `a` tags: a 32-byte unit of HBM, or one hank word (R419). -/
def State.ueWords (s : State) (a : Nat) : Nat × List Nat :=
  match s.place a with
  | .hbm _ _ => (a / 32 * 32, List.range' (a / 32 * 4) 4)
  | _ => (a / 8 * 8, [a / 8])

/-- An uncorrected error at address `a` (R419). -/
def State.memUe (s : State) (a : Nat) : State :=
  match s.ownerOf a with
  | none => s
  | some n =>
    let w := s.ueWords a
    let s := { s with tags := w.2.foldl (fun m k => store false m k true) s.tags }
    let s := s.wr (Reg.MEM_UE_ADDR_LO n) (BitVec.ofNat 32 w.1)
    let s := s.wr (Reg.MEM_UE_ADDR_HI n) (BitVec.ofNat 32 (2 ^ 31 + w.1 / 2 ^ 32 % 256))
    ((s.count (Ctr.MEM_S_UE n)).event Reg.MEM_EVT 0).report n 2 0x0580 s.now (leBytes 5 w.1)

/-- The errors that a read of memory meets: corrected ones, then uncorrected ones. -/
def State.memErrors (s : State) (ce ue : List Nat) : State := ue.foldl State.memUe (ce.foldl State.memCe s)

/-! ### Arbiters (R429 to R434, R596, R817) -/

def State.arb (s : State) (k : Nat) : Arbiter := fetch {} s.arbs k

def State.setArb (s : State) (k : Nat) (a : Arbiter) : State := { s with arbs := store {} s.arbs k a }

/-- Is the arbiter in the MEM block: not a switch output (R427, R595)? -/
def memArb (k : Nat) : Bool := k / 4096 < 3

/-- Counts at an arbiter of the MEM block. -/
def State.arbCount (s : State) (k a : Nat) : State := if memArb k then s.count a else s

/-- Arrivals join the waiting requests at their base class; a requester waits once. -/
def Arbiter.arrive (a : Arbiter) (rs : List ArbReq) : Arbiter :=
  rs.foldl (fun a r => if a.waiting.any (fun w => w.req.idx = r.idx) then a
    else { a with waiting := a.waiting ++ [⟨r, r.base, 0⟩] }) a

/-- Does an arrival preempt the running transfer (R433)? -/
def Arbiter.preempted (a : Arbiter) (k : Nat) (rs : List ArbReq) : Bool :=
  match a.running with
  | some w => memArb k && 256 < w.req.len && w.preempts < 3 && rs.any (fun r => w.req.base < r.base)
  | none => false

/-- The requests that the grant slot admits: on a part of several slices, a divided output serves its slot's slice, and
transit (slice 4) where the slice has nothing to send (R596, R817). -/
def Arbiter.admitted (a : Arbiter) (k slices : Nat) : List ArbWait :=
  if slices = 1 ∨ k / 4096 < 2 then a.waiting
  else
    let transit := a.waiting.filter (fun w => w.req.slice = 4)
    if a.slot % 16 < 8 then transit
    else
      let own := a.waiting.filter (fun w => w.req.slice = (a.slot % 16 - 8) % slices)
      if own = [] then transit else own

/-- The requester of highest current priority; among equals the first after the last granted one (R429). -/
def chooseReq (last : Nat) (ws : List ArbWait) : Option ArbWait :=
  let top := (ws.map (fun w => w.prio)).foldl max 0
  let best := ws.filter (fun w => w.prio = top)
  let least (l : List ArbWait) : Option ArbWait := l.foldl (fun b w => match b with
    | none => some w
    | some v => if w.req.idx < v.req.idx then some w else some v) none
  (least (best.filter (fun w => last < w.req.idx))).or (least best)

/-- A decision of arbiter `k` (R429 to R434). It is made while the previous transfer runs, so a transfer that an arrival
preempts is no choice of this decision; it waits at priority 7 for the next (R431, R434). -/
def State.arbDecide (s : State) (k : Nat) (rs : List ArbReq) (withdrawn : Bool) : State :=
  let a := s.arb k
  let pre := a.preempted k rs
  let back : List ArbWait := if pre then (a.running.map (fun w => { w with prio := 7, preempts := w.preempts + 1 })).toList else []
  let a := { a with running := if pre then none else a.running }.arrive rs
  let s := if pre then s.arbCount k Ctr.MEM_PREEMPT else s
  let a := { a with slot := (a.slot + 1) % 16 }
  match chooseReq a.last ({ a with slot := a.slot + 15 }.admitted k s.sliceCount) with
  | none => s.setArb k { a with waiting := a.waiting ++ back }
  | some w =>
    let rest := (a.waiting.erase w).map (fun v => { v with prio := min (v.prio + 1) 7 })
    let a := { a with waiting := rest ++ back, last := w.req.idx }
    if withdrawn then (s.setArb k { a with running := none }).arbCount k Ctr.MEM_EMPTY_GRANT
    else (s.setArb k { a with running := some { w with prio := w.req.base } }).arbCount k Ctr.MEM_GRANT

/-- The granted transfer of arbiter `k` runs to its end (R428), with the errors it meets; `cached` says whether it was a
read through the stream cache that the hank served (R405). -/
def State.memTransfer (s : State) (k : Nat) (ce ue : List Nat) (cached : Option Bool) : State :=
  let a := s.arb k
  match a.running with
  | none => s
  | some w =>
    if w.req.len < 32 ∨ 2048 < w.req.len then s
    else
      let s := (s.setArb k { a with running := none }).memErrors ce ue
      match cached with
      | some true => s.count Ctr.MEM_SC_HIT
      | some false => s.count Ctr.MEM_SC_MISS
      | none => s

/-! ### Commands -/

/-- MEMORY_TRANSFER (R428). -/
def execMemoryTransfer (arb : Nat) (ce ue : List Nat) (cached : Option Bool) (s : State) : Host.Outcome State Fault Refusal :=
  .next (s.memTransfer arb ce ue cached)

/-- ARBITER_DECISION (R429). -/
def execArbiterDecision (arb : Nat) (arrivals : List ArbReq) (withdrawn : Bool) (s : State) : Host.Outcome State Fault Refusal :=
  .next (s.arbDecide arb arrivals withdrawn)

/-- CE_RATE_WINDOW (R421): at whole-second value `t` every count restarts. -/
def execCeRateWindow (t : Nat) (s : State) : Host.Outcome State Fault Refusal :=
  .next (if t % 1000000000 = 0 then { s.reach t with ceSec := [] } else s)

/-- PATROL_SCRUB (R422): die `die` reads `units` 32-byte units. -/
def execPatrolScrub (die units : Nat) (ce ue : List Nat) (s : State) : Host.Outcome State Fault Refusal :=
  .next (if s.rf Reg.MEM_CTL 0 0 = 1 ∧ die < 4 then (s.memErrors ce ue).countN Ctr.MEM_SCRUB units else s)

/-- HBM_REFRESH (R423, R424). -/
def execHbmRefresh (die stack : Nat) (retrained : Bool) (s : State) : Host.Outcome State Fault Refusal :=
  .next (if retrained ∧ die < 4 ∧ stack < s.stacksOf die then (s.count Ctr.MEM_CAL_RETRAIN).event Reg.MEM_EVT 2 else s)

/-- STREAM_DECLARE (R410, R411): `ended` streams have ended on the die; a stream beyond 64 gets no prefetcher, and its
reads are counted. -/
def execStreamDeclare (die reads ended : Nat) (s : State) : Host.Outcome State Fault Refusal :=
  .next (
    let used := fetch 0 s.prefetch die - ended
    if 4 ≤ die then s
    else if used < 64 then { s with prefetch := store 0 s.prefetch die (used + 1) }
    else ({ s with prefetch := store 0 s.prefetch die used }.countN Ctr.MEM_PF_OVER reads).event Reg.MEM_EVT 3)

end Sys2Proof.Machine
end

