-- ==== Sys2Proof/Machine/NvmeAdmin.lean ====
section
/-! DEFINITION. NVMe admin commands that return data or set features, and device self-tests (R757, R771, R772). The places
of fields in the data pages are those of NVM Express Base 2.0, which R757 cites; bytes that neither gives are free. -/

namespace Sys2Proof.Machine

/-! ### Data pages -/

/-- A data page of `len` bytes: the fields (offset, width, value), and free bytes elsewhere. -/
def dataPage (kind id len : Nat) (fields : List (Nat × Nat × Nat)) : List Byte :=
  (List.range len).map (fun o => match fields.find? (fun f => f.1 ≤ o && o < f.1 + f.2.1) with
    | some f => BitVec.ofNat 8 (f.2.2 / 2 ^ (8 * (o - f.1)))
    | none => Config.nvmeByte kind id o)

/-- The device IDs of a function (R719). -/
def State.deviceIdOf (s : State) (fn : Nat) : Nat := 0x9600 + 16 * fn + s.variant

/-- Identify Controller (R757, R771). -/
def State.identifyCtl (s : State) (p : Nat) : List Byte :=
  dataPage 0 p 4096 [(0, 2, Config.vendorId % 65536), (77, 1, 8), (80, 4, 0x00020000), (256, 2, 0x0010), (316, 2, 30), (512, 1, 0x66), (513, 1, 0x44),
    (516, 4, 8 * s.sliceCount), (520, 2, 0x000C), (525, 1, 1), (526, 2, 0), (536, 4, 0)]

/-- Identify Namespace (R757, R760, R767): zeros for one that is not attached. -/
def State.identifyNs (s : State) (nsid : Nat) : List Byte :=
  match s.space ((nsid - 1) / 8) ((nsid - 1) % 8) with
  | some x => dataPage 1 nsid 4096 [(0, 8, 16 * x.units), (8, 8, 16 * x.units), (16, 8, 16 * x.units), (25, 1, 0), (26, 1, 0), (29, 1, 0), (33, 1, 1),
      (99, 1, bit x.ro), (128, 4, 0x000C0000)]
  | none => List.replicate 4096 0

/-- The namespaces attached, ascending. -/
def State.activeNs (s : State) : List Nat :=
  (List.range (8 * s.sliceCount)).filterMap (fun i => if (s.space (i / 8) (i % 8)).isSome then some (i + 1) else none)

/-- A list of namespace IDs above `nsid`, in 4,096 bytes. -/
def State.nsList (s : State) (nsid : Nat) : List Byte :=
  fitBytes 4096 (((s.activeNs.filter (fun i => nsid < i)).take 1024).flatMap (fun i => leBytes 4 i))

/-- The Error Information log. -/
def NvmeCtl.errorLog (c : NvmeCtl) : List Byte :=
  ((List.range c.errs.length).zip c.errs).flatMap (fun e =>
    record [(8, c.errCount - e.1), (2, e.2.1), (2, e.2.2.1), (2, 2 * e.2.2.2.1), (2, 0), (8, 0), (4, e.2.2.2.2), (36, 0)])

/-- The Device Self-test log (R772): the test that runs with its progress, and the results. -/
def State.testLog (s : State) (p : Nat) : List Byte :=
  let c := s.ctl p
  record [(1, (c.test.map (fun t => t.code)).getD 0)] ++
  (if c.test.isSome then [BitVec.ofNat 8 ((Config.nvmeByte 2 p 1).toNat % 101)] else [0]) ++ [0, 0] ++
  c.tests.flatMap (fun r => record [(1, r.2.1 + 16 * r.1), (1, r.2.2.1), (10, 0), (4, r.2.2.2), (8, 0), (2, if r.2.1 = 7 then 0x0904 else 0), (2, 0)]) ++
  (List.replicate (20 - c.tests.length) (0x0F : Byte)).flatMap (fun b => b :: List.replicate 27 0)

/-- Returns data to admin command `e`, which succeeds. -/
def State.adminData (s : State) (p : Nat) (e : NvmeEntry) (bs : List Byte) : State :=
  (s.emit (.nvmeData p 0 e.cid bs (List.replicate ((bs.length + 7) / 8) false))).nvmePost p 0 e.cid 0 0 0

/-- Identify, CNS 0x00 to 0x03. -/
def State.identify (s : State) (p : Nat) (e : NvmeEntry) : State :=
  let fail (st : Nat) : State := s.nvmePost p 0 e.cid st 0 e.nsid
  let inRange : Bool := 1 ≤ e.nsid && e.nsid ≤ 8 * s.sliceCount
  match e.cdw10 % 256 with
  | 0 => if inRange then s.adminData p e (s.identifyNs e.nsid) else fail 0x000B
  | 1 => s.adminData p e (s.identifyCtl p)
  | 2 => if 0xFFFFFFFE ≤ e.nsid then fail 0x000B else s.adminData p e (s.nsList e.nsid)
  | 3 => if s.activeNs.contains e.nsid then s.adminData p e (dataPage 3 e.nsid 4096 []) else fail 0x000B
  | _ => fail 0x0002

/-- Get Log Page: Error Information, SMART / Health Information, Device Self-test. -/
def State.getLog (s : State) (p : Nat) (e : NvmeEntry) : State :=
  let len := 4 * (bitsOf e.cdw10 31 16 + 65536 * (e.cdw11 % 65536) + 1)
  let off := e.cdw12 + 2 ^ 32 * e.cdw13
  let reply (bs : List Byte) : State := s.adminData p e ((bs.drop off).take len)
  match e.cdw10 % 256 with
  | 1 => reply (fitBytes 4096 (s.ctl p).errorLog)
  | 2 => reply (dataPage 4 p 512 [])
  | 6 => reply (s.testLog p)
  | _ => s.nvmePost p 0 e.cid 0x109 0 0

/-- Abort of command CID of queue SQID: one still in progress ends as aborted. -/
def State.abortCmd (s : State) (p : Nat) (e : NvmeEntry) : State :=
  let q := e.cdw10 % 65536
  let cid := bitsOf e.cdw10 31 16
  let hit (c : NvmeCmd) : Bool := c.port = p && c.sq = q && c.cid = cid && !c.quiet
  if s.spaces.any (fun t => t.2.any (fun x => x.cmds.any hit)) then
    let go (x : Namespace) : Namespace := { x with cmds := x.cmds.filter (fun c => !hit c) }
    let s := { s with spaces := s.spaces.map (fun (t : Nat × Option Namespace) => (t.1, t.2.map go)) }
    let s := (s.nvmePost p q cid 0x0007 0 0).nvmePost p 0 e.cid 0 0 0
    (List.range 32).foldl (fun s i => s.detachCheck (i / 8) (i % 8)) s
  else s.nvmePost p 0 e.cid 0 1 0

/-- Allocated I/O queues, as Number of Queues reports them. -/
def State.queueNumbers (s : State) : Nat := (64 * s.sliceCount - 1) * 65537

/-- Set Features. -/
def State.setFeature (s : State) (p : Nat) (e : NvmeEntry) : State :=
  let done (st dw0 : Nat) : State := s.nvmePost p 0 e.cid st dw0 0
  let c := s.ctl p
  let fid := e.cdw10 % 256
  if bitOf e.cdw10 31 then done 0x10D 0
  else if fid = 6 then done (if bitOf e.cdw11 0 then 0 else 0x0002) 0
  else if fid = 7 then
    if c.sqs.any (fun q => q.id ≠ 0) ∨ c.cqs.any (fun q => q.id ≠ 0) then done 0x000C 0
    else if e.cdw11 % 65536 = 65535 ∨ bitsOf e.cdw11 31 16 = 65535 then done 0x0002 0
    else done 0 s.queueNumbers
  else if [1, 8, 0x0B].contains fid then
    ((s.setCtl p { c with features := store 0 c.features fid e.cdw11 }).nvmePost p 0 e.cid 0 0 0).eventReport p
  else done 0x0002 0

/-- Get Features. -/
def State.getFeature (s : State) (p : Nat) (e : NvmeEntry) : State :=
  let fid := e.cdw10 % 256
  let done (st dw0 : Nat) : State := s.nvmePost p 0 e.cid st dw0 0
  if fid = 6 then done 0 1
  else if fid = 7 then done 0 s.queueNumbers
  else if [1, 8, 0x0B].contains fid then done 0 (if bitsOf e.cdw10 10 8 = 0 then fetch 0 (s.ctl p).features fid else 0)
  else done 0x0002 0

/-- Asynchronous Event Request. -/
def State.asyncRequest (s : State) (p : Nat) (e : NvmeEntry) : State :=
  (s.setCtl p { s.ctl p with aers := (s.ctl p).aers ++ [e.cid] }).eventReport p

/-- Device Self-test (R771). -/
def State.selfTest (s : State) (p : Nat) (e : NvmeEntry) : State :=
  let done (s : State) (st : Nat) : State := s.nvmePost p 0 e.cid st 0 e.nsid
  let code := e.cdw10 % 16
  let c := s.ctl p
  if code ≠ 1 ∧ code ≠ 2 ∧ code ≠ 0xF then done s 0x0002
  else if code = 0xF then done (s.testEnd p 1 0) 0
  else if e.nsid ≠ 0xFFFFFFFF ∧ !s.activeNs.contains e.nsid then done s 0x000B
  else if c.test.isSome then done s 0x11D
  else done (s.setCtl p { c with test := some { code, nsid := e.nsid, suspended := s.ioBusy p } }) 0

/-- Namespaces that a test looks at. -/
def State.testedNs (s : State) (t : SelfTest) : List Nat := if t.nsid = 0xFFFFFFFF then s.activeNs else [t.nsid]

/-- A suspended test resumes at `t` (R772): 1 ms with no I/O command outstanding. -/
def State.testResume (s : State) (p t : Nat) : State :=
  let c := s.ctl p
  match c.test with
  | some x =>
    if x.suspended ∧ !s.ioBusy p ∧ c.sqs.all (fun q => q.id = 0 || q.entries = []) ∧ c.idleAt + 1000000 ≤ t then
      (s.reach t).setCtl p { c with test := some { x with suspended := false } }
    else s
  | none => s

/-- A test ends (R771, R772), having passed or failed in a segment; segment 3 reads through each depot connection. -/
def State.testComplete (s : State) (p : Nat) (failed : Option Nat) : State :=
  match (s.ctl p).test with
  | none => s
  | some t =>
    if t.suspended ∨ s.ioBusy p then s
    else
      let ns := s.testedNs t
      let probe := failed.all (fun g => 3 ≤ g)
      let s := if probe then ns.foldl (fun s i => match s.space ((i - 1) / 8) ((i - 1) % 8) with
        | some x => s.emit (.depotRead x.conn x.key x.off 4096)
        | none => s) s else s
      match failed with
      | none => s.testEnd p 0 0
      | some g =>
        let s := (s.testEnd p 7 g).event Reg.HOST_EVT 5
        if t.nsid = 0xFFFFFFFF then s else s.reportStatus ((t.nsid - 1) / 8) 0x0904 t.nsid

/-! ### Rows -/

/-- NVME_GET_LOG_PAGE (R757). -/
def execNvmeGetLogPage (port : Nat) (s : State) : Host.Outcome State Fault Refusal :=
  .next (s.adminTake port 0x02 (fun s e => s.getLog port e))

/-- NVME_IDENTIFY (R757). -/
def execNvmeIdentify (port : Nat) (s : State) : Host.Outcome State Fault Refusal :=
  .next (s.adminTake port 0x06 (fun s e => s.identify port e))

/-- NVME_ABORT (R757). -/
def execNvmeAbort (port : Nat) (s : State) : Host.Outcome State Fault Refusal :=
  .next (s.adminTake port 0x08 (fun s e => s.abortCmd port e))

/-- NVME_SET_FEATURES (R757). -/
def execNvmeSetFeatures (port : Nat) (s : State) : Host.Outcome State Fault Refusal :=
  .next (s.adminTake port 0x09 (fun s e => s.setFeature port e))

/-- NVME_GET_FEATURES (R757). -/
def execNvmeGetFeatures (port : Nat) (s : State) : Host.Outcome State Fault Refusal :=
  .next (s.adminTake port 0x0A (fun s e => s.getFeature port e))

/-- NVME_ASYNC_EVENT_REQUEST (R757). -/
def execNvmeAsyncEventRequest (port : Nat) (s : State) : Host.Outcome State Fault Refusal :=
  .next (s.adminTake port 0x0C (fun s e => s.asyncRequest port e))

/-- NVME_DEVICE_SELF_TEST (R771). -/
def execNvmeDeviceSelfTest (port : Nat) (s : State) : Host.Outcome State Fault Refusal :=
  .next (s.adminTake port 0x14 (fun s e => s.selfTest port e))

/-- SELF_TEST_RESUME (R772). -/
def execSelfTestResume (port t : Nat) (s : State) : Host.Outcome State Fault Refusal := .next (s.testResume port t)

/-- SELF_TEST_COMPLETE (R771): `failed` is the segment that failed. -/
def execSelfTestComplete (port : Nat) (failed : Option Nat) (s : State) : Host.Outcome State Fault Refusal :=
  .next (s.testComplete port failed)

end Sys2Proof.Machine
end

