-- ==== Sys2Proof/Machine/Snap.lean ====
section
/-! DEFINITION. Snapshots of the event counters (R20 to R27, R924). A block is named by its base (R7); GLB's is 0. -/

namespace Sys2Proof.Machine

/-- Does offset `a` lie in the block with base `b`? -/
def inBlock (b a : Nat) : Bool :=
  match blockOf a with
  | some x => x.1 == b
  | none => false

def State.snap (s : State) (b : Nat) : SnapBlk := fetch {} s.snaps b

def State.setSnap (s : State) (b : Nat) (x : SnapBlk) : State := { s with snaps := store {} s.snaps b x }

/-- A copy of every counter that `p` selects into its holding pair, at one instant (R22). -/
def copyHolds (p : Nat → Bool) (holds ctrs : SMap Counter) : SMap Counter :=
  (ctrs.filter (fun e => p e.1)).foldl (fun h e => store {} h e.1 e.2) (holds.filter (fun e => !p e.1))

/-- The copy instant: holding registers take the counts, and CLR zeroes the live ones (R22, R23). -/
def State.copyAt (s : State) (p : Nat → Bool) (clr : Bool) : State :=
  { s with holds := copyHolds p s.holds s.ctrs,
           ctrs := if clr then s.ctrs.filter (fun e => !p e.1) else s.ctrs }

/-- A copy of block `b` starts: BUSY rises at the copy instant. -/
def State.startBlkCopy (s : State) (b : Nat) (clr : Bool) : State :=
  (s.copyAt (inBlock b) clr).setSnap b { busy := true, armed := false, clr := false }

/-- A GLB_SNAP copy, a copy of every block, starts (R924). -/
def State.startGlbCopy (s : State) (clr : Bool) : State :=
  (s.copyAt (fun _ => true) clr).setSnap 0 { busy := true, armed := false, clr := false }

/-- Arms a further copy; CLR gathers over the GO writes that arm it or find it armed (R24). -/
def SnapBlk.arm (x : SnapBlk) (clr : Bool) : SnapBlk := { x with armed := true, clr := x.clr || clr }

/-- Does any copy run? -/
def State.anyCopy (s : State) : Bool := s.snaps.any (fun e => e.2.busy)

/-- A GO write to the SNAP register of block `b` (R22 to R24, R924). -/
def State.snapGo (s : State) (b : Nat) (clr : Bool) : State :=
  let x := s.snap b
  if b = 0 then
    if s.anyCopy || x.armed then s.setSnap 0 (x.arm clr) else s.startGlbCopy clr
  else
    if x.busy || x.armed || (s.snap 0).busy || (s.snap 0).armed then s.setSnap b (x.arm clr) else s.startBlkCopy b clr

/-- Increments the SNAP_SEQ of block `b`. -/
def State.bumpSnapSeq (s : State) (b : Nat) : State := s.wr (b + 0xC) (s.rd (b + 0xC) + 1)

/-- Starts the copies that waited for the copies that have now ended: an armed GLB_SNAP copy once no copy runs, before
the armed block copies (log entry 4). -/
def State.startArmed (s : State) (bs : List Nat) : State :=
  if (s.snap 0).busy then s
  else if (s.snap 0).armed then
    if s.anyCopy then s else s.startGlbCopy (s.snap 0).clr
  else
    bs.foldl (fun s b => if (s.snap b).armed && !(s.snap b).busy then s.startBlkCopy b (s.snap b).clr else s) s

/-- The bases of the blocks that have their own SNAP. -/
def blockBases : List Nat := (regBlocks.map (fun x => x.1)).filter (fun b => b ≠ 0)

/-- A running copy ends (R25): of block `b`, or of every block when `b` is 0. -/
def State.snapEnd (s : State) (b : Nat) : State :=
  if (s.snap b).busy then
    let s := s.setSnap b { s.snap b with busy := false }
    if b = 0 then ((0 :: blockBases).foldl State.bumpSnapSeq s).startArmed blockBases
    else (s.bumpSnapSeq b).startArmed [b]
  else s

/-- SNAP_GO (R22): a write of <BLK>_SNAP.GO. -/
def execSnapGo (blk : Nat) (clr : Bool) (s : State) : Host.Outcome State Fault Refusal :=
  .next (if blockBases.contains blk then s.snapGo blk clr else s)

/-- GLB_SNAP_GO (R924). -/
def execGlbSnapGo (clr : Bool) (s : State) : Host.Outcome State Fault Refusal := .next (s.snapGo 0 clr)

/-- SNAP_COPY_END (R25). -/
def execSnapCopyEnd (blk : Nat) (s : State) : Host.Outcome State Fault Refusal := .next (s.snapEnd blk)

end Sys2Proof.Machine
end

