-- ==== Sys2Proof/Machine/RegRead.lean ====
section
/-! DEFINITION. Reading registers: what each offset shows (R8, R10, R14), and where a path's offsets lead (R7, R731). -/

namespace Sys2Proof.Machine

/-! ### Where an offset leads -/

/-- What a dword offset of a path reaches: nothing; a copy of another slice's register, which reads 0 and takes no writes
(R731); MEM_HANK_MODE of a die of another slice, which reads 0 (R731, R408); a register, by its offset in the register space,
and whether the path may write it; a word of the MSI-X table or Pending bits of a function; an NVMe register; a dword of a
capability. -/
inductive Target where
  | nothing
  | foreign
  | foreignHank (die : Nat)
  | reg (a : Nat) (writable : Bool)
  | msix (port fn o : Nat)
  | nvme (port o : Nat)
  | cap (port fn id o : Nat)
  deriving DecidableEq, Repr

/-- Does offset `a` of the register space hold a register or a counter? -/
def definedReg (a : Nat) : Bool :=
  (regRow a).isSome || (liveCtr a).isSome || (holdCtr a).isSome || (blockOf a).any (fun b => a = b.1 || a = b.1 + 8 || a = b.1 + 0xC)

/-- A register of the register space. -/
def regTarget (a : Nat) (writable : Bool) : Target := if a % 4 = 0 && definedReg a then .reg a writable else .nothing

/-- The bases of the command sets that a page copies, in the order of R731. -/
def setBases : List Nat :=
  [Reg.TWS_DQ_BASE_LO 0, Reg.NDL_ROWS 0 0, Reg.OPT_TBL_LO 0, Reg.CRD_FD_LO 0, Reg.CKP_CFG 0, Reg.RMA_CMD 0]

/-- Offset `o` of the doorbell page of slice `n`, on `port` (R731). -/
def State.pageTarget (s : State) (n port o : Nat) : Target :=
  let own (d : Nat) (a : Nat) : Target := if s.sliceOfDie d = n then regTarget a true else .foreign
  if o < 0x1000 then
    match o with
    | 0x00 => regTarget (Reg.HOST_S_STAT n) true
    | 0x04 => regTarget (Reg.HOST_S_CMD n) true
    | 0x08 => regTarget (Reg.HOST_S_ARG_LO n) true
    | 0x0C => regTarget (Reg.HOST_S_ARG_HI n) true
    | 0x10 => regTarget (Reg.HOST_S_NSMAP n) true
    | 0x14 => regTarget (Reg.HOST_S_PASID n) true
    | 0x18 => regTarget (Reg.HOST_S_WIN_LO n) false
    | 0x1C => regTarget (Reg.HOST_S_WIN_HI n) false
    | 0x20 => regTarget (Reg.HOST_S_SAVE_LO n) false
    | 0x24 => regTarget (Reg.HOST_S_SAVE_HI n) false
    | 0x28 => regTarget (Reg.HOST_S_ERR n) true
    | 0x2C => regTarget (Reg.HOST_S_WREJ n) true
    | 0x40 => regTarget (Reg.HOST_P_HB port) true
    | _ => .nothing
  else if o < 0x1600 then regTarget (setBases.getD ((o - 0x1000) / 0x100) 0 + 0x100 * n + o % 0x100) true
  else if o < 0x1618 then regTarget (Reg.GLB_JOB_CMD n + (o - 0x1600)) true
  else if 0x1800 ≤ o ∧ o < 0x1810 then
    let d := (o - 0x1800) / 4
    if s.sliceOfDie d = n then regTarget (Reg.MEM_HANK_MODE d) true else .foreignHank d
  else if 0x1810 ≤ o ∧ o < 0x1820 then own ((o - 0x1810) / 4) (Reg.MEM_HANK_BUSY ((o - 0x1810) / 4))
  else if 0x1820 ≤ o ∧ o < 0x1838 then
    match o with
    | 0x1820 => regTarget (Reg.MEM_UE_ADDR_LO n) true
    | 0x1824 => regTarget (Reg.MEM_UE_ADDR_HI n) true
    | 0x1828 => regTarget (Ctr.MEM_S_CE n) true
    | 0x182C => regTarget (Ctr.MEM_S_CE n + 4) true
    | 0x1830 => regTarget (Ctr.MEM_S_UE n) true
    | 0x1834 => regTarget (Ctr.MEM_S_UE n + 4) true
    | _ => .nothing
  else if 0x2000 ≤ o ∧ o < 0x2200 then own ((o - 0x2000) / 128) (Reg.NDL_ROW ((o - 0x2000) / 4))
  else if (0x4000 ≤ o ∧ o < 0x4200) ∨ (0x8000 ≤ o ∧ o < 0x9000) then regTarget (Reg.PAGE_CPY_SQ_LO n 0 - 0x4000 + o) true
  else if 0x10000 ≤ o ∧ (o - 0x10000) / 16 < s.shareSize 1024 then
    regTarget (Reg.RMA_WQ_TAIL (s.shareIdx n 1024 ((o - 0x10000) / 16)) + o % 16) true
  else if 0x20000 ≤ o ∧ (o - 0x20000) / 8 < s.shareSize 16384 then
    regTarget (Reg.RMA_CTR_VAL (s.shareIdx n 16384 ((o - 0x20000) / 8)) + o % 8) true
  else .nothing

/-- What the aligned dword at offset `o` of a path reaches. PF0's MSI-X table stands at HOST offset 0x1_0000 (R719). -/
def State.target (s : State) (via : Via) (o : Nat) : Target :=
  match via with
  | .pf0 p => if 0x410000 ≤ o ∧ o < 0x412000 then .msix p 0 (o - 0x410000) else if o < 0x4000000 then regTarget o true else .nothing
  | .spindle => if o < 0x4000000 then regTarget o true else .nothing
  | .page n p _ => s.pageTarget n p o
  | .board => if o < 0x300000 then regTarget o false else .nothing
  | .msix p fn => .msix p fn o
  | .config p fn id => .cap p fn id o
  | .nvme p => .nvme p o

/-! ### What a register shows -/

/-- The halves of a counter pair (R20). -/
def Counter.lo (c : Counter) : Word := BitVec.ofNat 32 c.count
def Counter.hi (c : Counter) : Word := BitVec.ofNat 32 (2 ^ 31 * bit c.sat + c.count / 2 ^ 32)

/-- The header of the block with base `b` and code `c` (R8, R924). -/
def State.headerView (s : State) (b c o : Nat) : Word :=
  if o = 0 then BitVec.ofNat 32 (c * 2 ^ 20 + Config.blockRev c % 2 ^ 16)
  else if o = 8 then BitVec.ofNat 32 (4 * bit ((s.snap b).busy || (s.snap 0).busy) + 8 * bit (s.snap b).armed)
  else s.rd (b + o)

/-- COPY of CKP_Sn_STATE, and PROGRESS of the running copy. -/
def State.ckpCopy (s : State) (n : Nat) : Nat × Nat :=
  let c := s.ckpOf n
  if c.restoring.isSome then (4, 0)
  else if c.copying.isSome then (if c.waiting.isSome then 1 else 2, if c.total = 0 then 100 else 100 - 100 * (s.pendPages n).length / c.total)
  else if c.confirming ≠ [] then (3, 0)
  else (0, 0)

/-- CKP_Sn_STATE. -/
def State.ckpStateView (s : State) (n : Nat) : Word :=
  let c := s.ckpOf n
  let x := s.ckpCopy n
  let bad := c.image.any (fun i => i.cond = .torn || i.cond = .invalid)
  BitVec.ofNat 32 (x.1 + 16 * bit c.noBuddy + 32 * bit bad + 64 * bit c.promo.isSome + 2 ^ 24 * x.2)

/-- CAST_LEDGER (R850). -/
def State.ledgerView (s : State) : Word :=
  BitVec.ofNat 32 (s.ledger.length + 2 ^ 30 * bit (s.ledgerHeld ≠ []) + 2 ^ 31 * bit (4096 ≤ s.ledger.length))

/-- CAST_LEDGER_Wk: word `k` of the entry that CAST_LEDGER_SEL names. -/
def State.ledgerWord (s : State) (k : Nat) : Word :=
  match s.ledger[s.rf Reg.CAST_LEDGER_SEL 11 0]? with
  | some e => BitVec.ofNat 32 (leAt e.bytes (4 * k) 4)
  | none => 0

/-- CAST_TOPO: links expected, UP or DEGRADED, otherwise, and quarantined. -/
def State.topoView (s : State) : Word :=
  let ls := s.woardLinks
  let up := (ls.filter (fun n => s.linkLive n)).length
  BitVec.ofNat 32 (ls.length + 2 ^ 8 * up + 2 ^ 16 * (ls.length - up) + 2 ^ 24 * (ls.filter (fun n => s.linkState n = 8)).length)

/-- GLB_STEP: of the lowest-numbered slice that holds an open job (R83). -/
def State.stepView (s : State) : Nat :=
  match s.slices.find? (fun n => (s.job n).isOpen) with
  | some n => s.stepCtr n
  | none => 0

/-- The committed word `k` of the rule that die `d`'s window shows (R702). -/
def State.ruleView (s : State) (d k : Nat) : Word := BitVec.ofNat 32 ((s.ethRule d (s.rf (Reg.ETH_D_RSEL d) 12 0)).getD k 0)

/-- A register whose value the part computes from other state. -/
def State.computed (s : State) (a : Nat) : Option Word :=
  if a = Reg.GLB_STEP_LO then some (BitVec.ofNat 32 s.stepView)
  else if a = Reg.GLB_STEP_HI then some (BitVec.ofNat 32 (s.stepView / 2 ^ 32))
  else if a = Reg.CAST_LEDGER then some s.ledgerView
  else if Reg.CAST_LEDGER_W 0 ≤ a ∧ a < Reg.CAST_LEDGER_W 4 then some (s.ledgerWord ((a - Reg.CAST_LEDGER_W 0) / 4))
  else if a = Reg.CAST_TOPO then some s.topoView
  else if a = Reg.PWR_TB_LO then some (BitVec.ofNat 32 s.now)
  else if a = Reg.PWR_TB_HI then some (BitVec.ofNat 32 (s.now / 2 ^ 32))
  else if a = Reg.TWS_INFLIGHT then some (BitVec.ofNat 32 s.twsInflight)
  else if a = Reg.CKP_MEMB then some s.membView
  else if (List.range 4).any (fun n => a = Reg.CKP_STATE n) then some (s.ckpStateView ((a - Reg.CKP_STATE 0) / 0x100))
  else
    match (List.range 4).find? (fun d => Reg.ETH_D_RW d 0 ≤ a && a < Reg.ETH_D_RW d 16) with
    | some d => some (s.ruleView d ((a - Reg.ETH_D_RW d 0) / 4))
    | none => none

/-- The value that a read of the register at offset `a` returns. -/
def State.show (s : State) (a : Nat) : Word :=
  match blockOf a with
  | some b =>
    if a = b.1 ∨ a = b.1 + 8 ∨ a = b.1 + 0xC then s.headerView b.1 b.2.2 (a - b.1)
    else
      match holdCtr a, liveCtr a with
      | some h, _ => let c := fetch {} s.holds h.1
                     if (a - h.2.hold) % 8 = 0 then c.lo else c.hi
      | none, some l => if (a - l.2.base) % 8 = 0 then (s.ctr l.1).lo else (s.ctr l.1).hi
      | none, none =>
        match s.computed a, regRow a with
        | some v, _ => v
        | none, some r => if r.kind = .wo then 0 else s.draft a
        | none, none => 0
  | none => s.rd a

/-! ### Functions of a host port beside PF0's registers -/

/-- Vectors of a function (R719). -/
def msixVectors (fn : Nat) : Nat := [16, 2048, 257].getD fn 0

/-- Offset of the Pending bits from the MSI-X table of a function (R719). -/
def pbaOffset (fn : Nat) : Nat := [0x1000, 0x8000, 0x1800].getD fn 0

/-- A word of an MSI-X table, or of the Pending bits. -/
def State.msixShow (s : State) (p fn o : Nat) : Word :=
  if o < 16 * msixVectors fn then
    let k := msixKey p fn (o / 16)
    if o % 16 = 12 then BitVec.ofNat 32 (bit (!fetch false s.msixOpen k)) else fetch 0 s.msixTable (4 * k + o % 16 / 4)
  else if pbaOffset fn ≤ o ∧ 8 * (o - pbaOffset fn) < msixVectors fn then
    BitVec.ofNat 32 (((List.range 32).map (fun i => 2 ^ i * bit (fetch false s.msixPending (msixKey p fn (8 * (o - pbaOffset fn) + i))))).sum)
  else 0

/-- A register of an NVMe controller (NVM Express Base 2.0; R757): version 2.0, one page size, weighted round robin. -/
def State.nvmeShow (s : State) (p o : Nat) : Word :=
  let c := s.ctl p
  let free (k : Nat) : Nat := leNat ((List.range 4).map (fun i => Config.nvmeByte 7 k i))
  match o with
  | 0x00 => BitVec.ofNat 32 (putBits (free 0) 18 17 1)
  | 0x04 => BitVec.ofNat 32 (putBits (putBits (free 4) 12 5 1) 23 16 0)
  | 0x08 => 0x00020000
  | 0x14 => BitVec.ofNat 32 c.cc
  | 0x1C => BitVec.ofNat 32 (bit c.rdy + 4 * c.shst)
  | 0x24 => BitVec.ofNat 32 c.aqa
  | 0x28 => BitVec.ofNat 32 c.asq
  | 0x2C => BitVec.ofNat 32 (c.asq / 2 ^ 32)
  | 0x30 => BitVec.ofNat 32 c.acq
  | 0x34 => BitVec.ofNat 32 (c.acq / 2 ^ 32)
  | _ => 0

/-- A word of a capability that the spec gives: MSI-X (0x11) with its Message Control, AER (0x1) with its status and severity,
Resizable BAR (0x15) and PASID (0x1B); none for what it does not give. -/
def State.capShow (s : State) (p fn id o : Nat) : Option Word :=
  match id, o with
  | 0x11, 0 => some (BitVec.ofNat 32 (2 ^ 16 * (msixVectors fn - 1) + 2 ^ 30 * fetch 0 s.msixOn (4 * p + fn) + 0x11))
  | 0x01, 0x04 => some (BitVec.ofNat 32 (fetch 0 s.host.aer (8 * p + 2 * fn)))
  | 0x01, 0x0C => some 0x00042010
  | 0x01, 0x10 => some (BitVec.ofNat 32 (fetch 0 s.host.aer (8 * p + 2 * fn + 1)))
  | 0x15, 0x04 => if fn = 1 then some 0x00003FF0 else none
  | 0x15, 0x08 => if fn = 1 then some (BitVec.ofNat 32 (2 + 2 ^ 5 + 2 ^ 8 * (fetch 36 s.host.bar2 p - 20))) else none
  | 0x1B, 0x04 => if fn = 0 then none else some (BitVec.ofNat 32 (0x1400 + 2 ^ 16 * bit (fetch false s.host.pasidOn (4 * p + fn))))
  | _, _ => none

/-! ### Reads (R10, R11, R19, R722) -/

/-- A TV read that finds a copy differing rewrites it, and counts it (R19). -/
def State.tvFix (s : State) (a : Nat) : State :=
  if fetch 0 s.tvOdd a = 0 then s else { s with tvOdd := store 0 s.tvOdd a 0 }.count Ctr.GLB_TV_FIX

/-- A read of the dword at offset `o`: its value, and what the read does. -/
def State.readDword (s : State) (via : Via) (o : Nat) : State × Word :=
  match s.target via o with
  | .nothing => (s, 0)
  | .foreign => (s, 0)
  | .foreignHank _ => (s, 0)
  | .reg a _ => (s.tvFix a, s.show a)
  | .msix p fn o => (s, s.msixShow p fn o)
  | .nvme p o => (s, s.nvmeShow p o)
  | .cap p fn id o =>
    match s.capShow p fn id o with
    | some v => (s, v)
    | none => (s.useFree, BitVec.ofNat 32 (s.freeBits 32))

/-- The bits of the bytes that `be` enables. -/
def byteMask (be : Nat) : Nat := ((List.range 4).map (fun i => bit (bitOf be i) * (255 * 2 ^ (8 * i)))).sum

/-- The form of an access (R11): the dwords it is made of, each with its byte enables and the place of its bytes in the data; none
for a size or alignment that R11 discards. -/
def accessDwords (a : Access) : Option (List (Nat × Nat × Nat)) :=
  if a.size = 8 ∧ a.off % 8 = 0 then some [(a.off, a.be % 16, 0), (a.off + 4, a.be / 16 % 16, 32)]
  else if a.size ≠ 0 ∧ a.off % 4 + a.size ≤ 4 then some [(a.off / 4 * 4, a.be % 2 ^ a.size * 2 ^ (a.off % 4), 0)]
  else none

/-- The answer to a read (R10, R11): the enabled bytes, 0 elsewhere. -/
def State.readAccess (s : State) (via : Via) (a : Access) : State :=
  match accessDwords a with
  | none => (s.count Ctr.GLB_BAD_ACC).emit (.readData via a.off a.size 0)
  | some ds =>
    let r := ds.foldl (fun (x : State × Nat) (d : Nat × Nat × Nat) =>
      let y := x.1.readDword via d.1
      (y.1, x.2 + (y.2.toNat &&& byteMask d.2.1) * 2 ^ d.2.2)) (s, 0)
    r.1.emit (.readData via a.off a.size (r.2 / 2 ^ (if a.size = 8 then 0 else 8 * (a.off % 4))))

/-- A read on a path: one to a page with a foreign PASID is refused (R727); configuration requests wait for phase APPLY
(R923). -/
def State.readOn (s : State) (via : Via) (a : Access) : State :=
  match via with
  | .page n p pasid => if s.pasidOk n pasid then s.readAccess via a else (s.urRefuse p).emit (.unsupported p)
  | .config p _ _ => if s.partState = 1 ∧ s.rf Reg.CAST_PHASE 3 0 < 7 then s.emit (.configRetry p) else s.readAccess via a
  | _ => s.readAccess via a

end Sys2Proof.Machine
end

