-- ==== Sys2Proof/Machine/RegWrite.lean ====
section
/-! DEFINITION. Writing registers (R10, R11, R14, R15, R31, R925): what a write of each register does. -/

namespace Sys2Proof.Machine

/-! ### What a write leaves in a register -/

/-- The bits of `new` under mask `m`, and those of `old` elsewhere. -/
def mixBits (old new : Word) (m : Nat) : Word := BitVec.ofNat 32 (old.toNat - (old.toNat &&& m) + (new.toNat &&& m))

/-- Indexes of the copy of `r` at offset `a`. -/
def rowI (r : RegRow) (a : Nat) : Nat := match r.dims with
  | [] => 0
  | d :: _ => (a - r.base) / d.2

def rowJ (r : RegRow) (a : Nat) : Nat := match r.dims with
  | d :: e :: _ => (a - r.base) % d.2 / e.2
  | _ => 0

/-- A plain write (R14): the writable fields take the written value; a TV register's three copies take it. -/
def State.put (s : State) (r : RegRow) (a : Nat) (v : Word) : State :=
  { s.wr a (mixBits (s.rd a) v r.mask) with tvOdd := store 0 s.tvOdd a 0 }

/-- A plain write, or its rejection with `st` when `bad` holds (R31, R925). -/
def State.putIf (s : State) (via : Via) (r : RegRow) (a : Nat) (v : Word) (bad : Bool) (st : Nat) : State :=
  if bad then s.reject via a st else s.put r a v

/-- Is `x` outside `lo` to `hi`? -/
def outside (x lo hi : Nat) : Bool := x < lo || hi < x

/-- A write of an SC register whose byte enables are `be` (R15). -/
def State.scWrite (s : State) (a be : Nat) (v : Word) : State :=
  let old := s.rd a
  if bitOf be 3 ∧ fieldOf v 31 24 = fieldOf old 31 24 then
    s.wr a (BitVec.ofNat 32 (old.toNat - (old.toNat &&& (v.toNat &&& byteMask (be % 8)))))
  else s

/-! ### Registers of each block that a write reaches: `i` and `j` are the indexes of the register, `v` the word written -/

def State.writeGlb (s : State) (via : Via) (r : RegRow) (a i : Nat) (v : Word) : State :=
  if r.base = Reg.GLB_JOB_CMD 0 then s.gated via i (fun s => s.jobCmdWrite i v)
  else if r.base = Reg.GLB_JOB_ARG_LO 0 ∨ r.base = Reg.GLB_JOB_ARG_HI 0 then s.gated via i (fun s => s.put r a v)
  else s

def State.writeCast (s : State) (via : Via) (r : RegRow) (a : Nat) (v : Word) : State :=
  if r.base = Reg.CAST_CMD then s.castCmdWrite via v
  else s.hubOnly via (fun s =>
    s.putIf via r a v (r.base = Reg.CAST_CTL && (fieldOf v 31 24 = 0 || fieldOf v 23 16 < 10)) 0x0112)

/-- Is a word out of range, or a reserved bit set, in a PWR register? -/
def pwrBad (a : Nat) (v : Word) : Bool :=
  if a = Reg.PWR_CTL then
    fieldOf v 27 24 = 0 || fieldOf v 23 20 = 0 || outside (fieldOf v 15 0) 800 2000 || fieldOf v 31 28 ≠ 0 || fieldOf v 19 16 ≠ 0
  else if a = Reg.PWR_TLIM then outside (fieldOf v 15 8) 80 95 || outside (fieldOf v 7 0) 85 105
  else if a = Reg.PWR_ILIM then outside (fieldOf v 9 0) 200 450 || fieldOf v 31 10 ≠ 0
  else if a = Reg.PWR_ALERT_MASK then fieldOf v 31 8 ≠ 0
  else if a = Reg.PWR_TEL_CFG then outside (fieldOf v 15 0) 10 10000 || fieldOf v 30 16 ≠ 0
  else if a = Reg.PWR_TEL_MASK then fieldOf v 31 16 ≠ 0
  else false

def State.writeTrust (s : State) (via : Via) (r : RegRow) (a i : Nat) (v : Word) : State :=
  if r.base = Reg.TRUST_CTL then s.hubOnly via (fun s => s.put r a v)
  else if r.base = Reg.TRUST_CMD 0 then s.trustGated via i (fun s => s.trustCmdWrite i v false)
  else s.trustGated via i (fun s => s.put r a v)

/-- Is a window base of slice `n` aligned to the BAR2 part of both ports (R728)? -/
def State.winAligned (s : State) (x : Nat) : Bool := (List.range 2).all (fun p => x % s.bar2Part p = 0)

/-- No copy queue and no NVMe I/O queue of slice `n` is enabled (R725). -/
def State.queuesOff (s : State) (n : Nat) : Bool :=
  (List.range 8).all (fun k => s.rf (Reg.PAGE_CPY_CFG n k) 31 31 = 0) &&
  (List.range 2).all (fun p => (s.ctl p).sqs.all (fun q => q.id = 0 || queueSlice q.id ≠ n) &&
    (s.ctl p).cqs.all (fun q => q.id = 0 || queueSlice q.id ≠ n))

/-- Did the write come through PF0? -/
def viaPf0 : Via → Bool
  | .pf0 _ => true
  | _ => false

def State.writeHost (s : State) (via : Via) (r : RegRow) (a i : Nat) (v : Word) : State :=
  if r.base = Reg.HOST_P_HB 0 then s.heartbeatWrite via i
  else if r.base = Reg.HOST_P_CTL 0 then s.reclaim via i v []
  else s.gated via i (fun s =>
    if r.base = Reg.HOST_S_CMD 0 then s.sliceCmdWrite via i v
    else if r.base = Reg.HOST_S_PASID 0 then s.putIf via r a v (!viaPf0 via || !s.queuesOff i) 0x02F1
    else if r.base = Reg.HOST_S_WIN_LO 0 then
      if !viaPf0 via then s else s.putIf via r a v (!s.winAligned (v.toNat + 2 ^ 32 * s.rf (Reg.HOST_S_WIN_HI i) 7 0)) 0x01F2
    else if r.base = Reg.HOST_S_WIN_HI 0 then
      if !viaPf0 via then s else s.putIf via r a v (!s.winAligned ((s.rd (Reg.HOST_S_WIN_LO i)).toNat + 2 ^ 32 * fieldOf v 7 0)) 0x01F2
    else if r.base = Reg.HOST_S_SAVE_LO 0 then if !viaPf0 via then s else s.putIf via r a v (v.toNat % 2 ^ 22 ≠ 0) 0x01F2
    else if r.base = Reg.HOST_S_SAVE_HI 0 then if !viaPf0 via then s else s.put r a v
    else s.putIf via r a v (r.base = Reg.HOST_S_ARG_LO 0 && v.toNat % 32 ≠ 0) 0x01F2)

def State.writeLnk (s : State) (via : Via) (r : RegRow) (a i : Nat) (v : Word) : State :=
  s.hubOnly via (fun s =>
    if r.base = Reg.LNK_N_CTL 0 then s.linkCtlWrite via i v
    else s.putIf via r a v (fieldOf v 15 0 = 0 || fieldOf v 19 16 = 0) 0x01C0)

def State.writeSwt (s : State) (via : Via) (r : RegRow) (a i j : Nat) (v : Word) : State :=
  s.hubOnly via (fun s =>
    if r.base = Reg.SWT_CTL then s.putIf via r a v (fieldOf v 5 0 = 0) 0x01C0
    else if r.base = Reg.SWT_EP_LO 0 ∨ r.base = Reg.SWT_RT_LO 0 then s.setDraft a (some v)
    else if r.base = Reg.SWT_EP_HI 0 then s.commitEntry via true (Reg.SWT_EP_LO i) a v
    else if r.base = Reg.SWT_RT_HI 0 then s.commitEntry via false (Reg.SWT_RT_LO i) a v
    else if j < 4 then s.setDraft a (some v)
    else if j = 4 then s.setDraft a (some (v &&& 0x1FFFF))
    else if j = 7 then s.commitGroup via i v
    else s)

def State.writeRma (s : State) (via : Via) (r : RegRow) (a i : Nat) (v : Word) : State :=
  if r.base = Reg.RMA_CTL then s.hubOnly via (fun s => s.putIf via r a v (fieldOf v 31 16 = 0 || fieldOf v 15 8 = 0) 0x01D2)
  else if r.base = Reg.RMA_TIMING then
    s.hubOnly via (fun s => s.putIf via r a v (outside (fieldOf v 31 16) 100 60000 || outside (fieldOf v 15 0) 10 10000) 0x01D2)
  else if r.base = Reg.RMA_CMD 0 then s.gated via i (fun s => s.rmaCmdWrite i v)
  else if r.base = Reg.RMA_WQ_TAIL 0 then s.shareGated via 1024 i (fun s => s.wqTailWrite via i v)
  else if r.base = Reg.RMA_WQ_CQ_HEAD 0 then s.shareGated via 1024 i (fun s => s.wqCqHeadWrite i v)
  else if r.base = Reg.RMA_CTR_VAL 0 then s.shareGated via 16384 i (fun s => s.ctrSet i v)
  else if r.base = Reg.RMA_CTR_ADD 0 then s.shareGated via 16384 i (fun s => s.ctrSet i (s.rd (Reg.RMA_CTR_VAL i) + v))
  else s.gated via i (fun s => s.put r a v)

/-- Is a word of queue `j` of a port out of range, with frames of up to `maxFrame` bytes? -/
def queueBad (maxFrame j : Nat) (v : Word) : Bool :=
  4000 < fieldOf v 31 20 || 64 * fieldOf v 19 8 < maxFrame || (2 ≤ j && fieldOf v 7 0 = 0)

def State.writeEth (s : State) (via : Via) (r : RegRow) (a i j : Nat) (v : Word) : State :=
  s.hubOnly via (fun s =>
    if r.base = Reg.ETH_D_RSEL 0 then s.rselWrite via i v
    else if r.base = Reg.ETH_D_RW 0 0 then
      if j < 15 then s.setStage i ((s.ethStaged i).set j v.toNat) else s.ruleCommit via i v
    else if r.base = Reg.ETH_D_POL0 0 0 then s.policerWrite via (512 * i + 2 * j) v
    else if r.base = Reg.ETH_D_POL1 0 0 then s.policerWrite via (512 * i + 2 * j + 1) v
    else if r.base = Reg.ETH_P_CFG 0 then
      s.putIf via r a v (fieldOf v 31 30 ≠ 0 || fieldOf v 15 2 ≠ 0 || outside (fieldOf v 29 16) 1518 9216) 0x01E0
    else if r.base = Reg.ETH_P_DEFAULT 0 then
      s.putIf via r a v (fieldOf v 31 27 ≠ 0 || fieldOf v 7 4 ≠ 0 || 4 < fieldOf v 3 0) 0x01E0
    else if r.base = Reg.ETH_P_Q01 0 0 then s.putIf via r a v (queueBad (s.rf (Reg.ETH_P_CFG i) 29 16) 0 v) 0x01E0
    else if r.base = Reg.ETH_P_Q27 0 0 then s.putIf via r a v (queueBad (s.rf (Reg.ETH_P_CFG i) 29 16) 2 v) 0x01E0
    else s.put r a v)

def State.writeTws (s : State) (via : Via) (r : RegRow) (a i : Nat) (v : Word) : State :=
  if r.base = Reg.TWS_CTL then s.hubOnly via (fun s => s.putIf via r a v (fieldOf v 3 0 = 0) 0x0156)
  else s.gated via i (fun s =>
    if r.base = Reg.TWS_DQ_SIZE 0 then s.twsSizeWrite via i v
    else if r.base = Reg.TWS_DQ_TAIL 0 then s.twsTailWrite via i v
    else if r.base = Reg.TWS_CQ_HEAD 0 then s.twsCqHeadWrite i v
    else s.twsRingWrite via i a (mixBits 0 v r.mask))

def State.writeNdl (s : State) (via : Via) (r : RegRow) (a i : Nat) (v : Word) : State :=
  if r.base = Reg.NDL_CTL then
    s.hubOnly via (fun s => s.putIf via r a v (outside (fieldOf v 25 16) 10 1000 || outside (fieldOf v 15 0) 100 60000) 0x0163)
  else if r.base = Reg.NDL_TRAP_TAIL then
    match via with
    | .spindle => s.put r a v
    | _ => s
  else if r.base = Reg.NDL_CMD 0 then s.ndlGated via i (fun s => s.ndlCmdWrite i v)
  else s.ndlGated via i (fun s => s.put r a v)

def State.writeMem (s : State) (via : Via) (r : RegRow) (a i be : Nat) (v : Word) : State :=
  if r.base = Reg.MEM_HANK_MODE 0 then
    let m := byteMask be
    s.hankGated via i (fun s => s.hankModeWrite via i (BitVec.ofNat 32 (v.toNat &&& (m % 2 ^ 16 * (2 ^ 16 + 1)) &&& (m / 2 ^ 16 * 2 ^ 16 + m % 2 ^ 16))))
  else s.hubOnly via (fun s =>
    s.putIf via r a v (if r.base = Reg.MEM_CTL then outside (fieldOf v 23 16) 4 64 else fieldOf v 15 0 = 0) 0x0182)

/-- The smallest stage region of the dies of slice `n`. -/
def State.smallStage (s : State) (n : Nat) : Nat :=
  ((s.diesOf n).map (fun d => s.regionSize d .stage)).foldl min (2 ^ 40)

/-- Does a landing area of slice `n` with this offset and size fail R528? -/
def State.landBad (s : State) (n off mib : Nat) : Bool := off % 2 ^ 20 ≠ 0 || s.smallStage n < off + 2 ^ 20 * mib

def State.writeCkp (s : State) (via : Via) (r : RegRow) (a i : Nat) (v : Word) : State :=
  let lo := (s.rd (Reg.CKP_LAND_LO i)).toNat
  let hi := 2 ^ 32 * s.rf (Reg.CKP_LAND_HI i) 7 0
  let mib := s.rf (Reg.CKP_LAND_SIZE i) 15 0
  if r.base = Reg.CKP_CTL then
    s.hubOnly via (fun s => s.putIf via r a v (outside (fieldOf v 31 16) 200 30000 || outside (fieldOf v 15 0) 100 30000) 0x01B3)
  else s.gated via i (fun s =>
    if r.base = Reg.CKP_CMD 0 then s.ckpCmdWrite i v
    else if r.base = Reg.CKP_CFG 0 then s.putIf via r a v (s.job i).isOpen 0x02B0
    else if r.base = Reg.CKP_LAND_LO 0 then s.putIf via r a v (s.landBad i (v.toNat + hi) mib) 0x01B2
    else if r.base = Reg.CKP_LAND_HI 0 then s.putIf via r a v (s.landBad i (lo + 2 ^ 32 * fieldOf v 7 0) mib) 0x01B2
    else if r.base = Reg.CKP_LAND_SIZE 0 then s.putIf via r a v (s.landBad i (lo + hi) (fieldOf v 15 0)) 0x01B2
    else s.put r a v)

/-- A write of a report ring register, which leaves the ring as `cfg`, `lo` and `hi` say (R859). -/
def State.ringWrite (s : State) (via : Via) (r : RegRow) (a i : Nat) (v cfg : Word) (lo hi : Nat) : State :=
  s.putIf via r a v (fieldOf cfg 31 31 = 1 && !s.ringPlaced i lo hi (fieldOf cfg 3 0)) 0x0112

def State.writeSpn (s : State) (via : Via) (r : RegRow) (a i : Nat) (v : Word) : State :=
  let cfg := s.rd (Reg.SPN_RING_CFG i)
  let lo := (s.rd (Reg.SPN_RING_LO i)).toNat
  let hi := s.rf (Reg.SPN_RING_HI i) 7 0
  if r.base = Reg.SPN_FW_CMD then s.fwCmdWrite via v (fun _ s => s)
  else s.hubOnly via (fun s =>
    if r.base = Reg.SPN_FW_SRC_LO then s.putIf via r a v (v.toNat % 4096 ≠ 0) 0x0112
    else if r.base = Reg.SPN_RING_LO 0 then
      if v.toNat % 4096 ≠ 0 then s.reject via a 0x0112 else s.ringWrite via r a i v cfg v.toNat hi
    else if r.base = Reg.SPN_RING_HI 0 then s.ringWrite via r a i v cfg lo (fieldOf v 7 0)
    else if r.base = Reg.SPN_RING_CFG 0 then s.ringWrite via r a i v v lo hi
    else s.put r a v)

def State.writePage (s : State) (via : Via) (r : RegRow) (a i j : Nat) (v : Word) : State :=
  s.gated via i (fun s =>
    if r.base = Reg.PAGE_CPY_CFG 0 0 then s.copyCfgWrite via i j v
    else if r.base = Reg.PAGE_CPY_SQ_LO 0 0 then s.copyRingWrite via i j a 5 v
    else if r.base = Reg.PAGE_CPY_CQ_LO 0 0 then s.copyRingWrite via i j a 4 v
    else if r.base = Reg.PAGE_CPY_SQ_HI 0 0 ∨ r.base = Reg.PAGE_CPY_CQ_HI 0 0 then s.copyRingWrite via i j a 0 v
    else if r.base = Reg.PAGE_CPY_TAIL 0 0 then s.copyTailWrite via i j v
    else if r.base = Reg.PAGE_CPY_CQ_HEAD 0 0 then (s.put r a v).copyRecords i j
    else if r.base = Reg.PAGE_NOTIFY_CTL 0 0 then s.notifyWrite via i j v
    else s.put r a v)

/-! ### One dword -/

/-- The base that the unwritten bytes of a sub-dword write keep (R11): the word as written so far. -/
def State.writeBase (s : State) (r : RegRow) (a : Nat) : Word :=
  if r.base = Reg.ETH_D_RW 0 0 then BitVec.ofNat 32 ((s.ethStaged (rowI r a)).getD (rowJ r a) 0)
  else if r.kind = .mw then 0
  else s.draft a

/-- A write of word `v`, its bytes `be` enabled, to the register at offset `a`. -/
def State.writeReg (s : State) (via : Via) (a be : Nat) (w : Word) : State :=
  match regRow a with
  | none =>
    if (blockOf a).any (fun b => a = b.1 + 8) then
      s.hubOnly via (fun s => if bitOf (w.toNat &&& byteMask be) 0 then s.snapGo (a - 8) (bitOf (w.toNat &&& byteMask be) 1) else s)
    else s
  | some r =>
    let v := mixBits (s.writeBase r a) w (byteMask be)
    let i := rowI r a
    let j := rowJ r a
    match r.kind with
    | .ro => s
    | .sc => s.hubOnly via (fun s => s.scWrite a be v)
    | _ =>
      match codeOf a with
      | 0x000 => s.writeGlb via r a i v
      | 0x001 => s.writeCast via r a v
      | 0x002 => s.hubOnly via (fun s => s.putIf via r a v (pwrBad r.base v) 0x0100)
      | 0x003 => s.writeTrust via r a i v
      | 0x004 => s.writeHost via r a i v
      | 0x006 => s.writeLnk via r a i v
      | 0x008 => s.writeSwt via r a i j v
      | 0x00A => s.writeRma via r a i v
      | 0x00C => s.writeEth via r a i j v
      | 0x00E => s.writeTws via r a i v
      | 0x010 => s.writeNdl via r a i v
      | 0x018 => s.writeMem via r a i be v
      | 0x01C => s.gated via i (fun s => if r.base = Reg.OPT_CMD 0 then s.optCmdWrite i v else s.optCfgWrite via i a (mixBits 0 v r.mask))
      | 0x01E =>
        if r.base = Reg.CRD_CTL then s.hubOnly via (fun s => s.putIf via r a v (outside (fieldOf v 13 0) 1 10000) 0x01A4)
        else s.gated via i (fun s => if r.base = Reg.CRD_CMD 0 then s.feedCmdWrite i v else s.put r a v)
      | 0x020 => s.writeCkp via r a i v
      | 0x022 => s.writeSpn via r a i v
      | 0x040 => s.writePage via r a i j v
      | _ => s

/-- A write to a word of an MSI-X table; unmasking a vector sends its pending message (R719, R739). -/
def State.msixWrite (s : State) (p fn o be : Nat) (w : Word) : State :=
  let v := mixBits (s.msixShow p fn o) w (byteMask be)
  let k := msixKey p fn (o / 16)
  if 16 * msixVectors fn ≤ o then s
  else if o % 16 = 12 then
    let opened := !bitOf v.toNat 0
    let s := { s with msixOpen := store false s.msixOpen k opened }
    if opened && s.msixUp p fn && fetch false s.msixPending k then
      { s with msixPending := store false s.msixPending k false }.emit (.msix p fn (o / 16))
    else s
  else { s with msixTable := store 0 s.msixTable (4 * k + o % 16 / 4) v }

/-- Sends the pending messages of every unmasked vector of a function, once MSI-X is enabled (R739). -/
def State.msixFlush (s : State) (p fn : Nat) : State :=
  let due := s.msixPending.filter (fun e => e.1 / 4096 = 4 * p + fn && e.2 && fetch false s.msixOpen e.1)
  due.foldl (fun s (e : Nat × Bool) =>
    { s with msixPending := store false s.msixPending e.1 false }.emit (.msix p fn (e.1 % 4096))) s

/-- A write to dword `o` of a capability. -/
def State.capWrite (s : State) (p fn id o be : Nat) (w : Word) : State :=
  let v := mixBits ((s.capShow p fn id o).getD 0) w (byteMask be)
  let clear (corr : Nat) : State :=
    { s with host := { s.host with aer := modifyAt 0 s.host.aer (8 * p + 2 * fn + corr) (fun x => x - (x &&& (w.toNat &&& byteMask be))) } }
  match id, o with
  | 0x11, 0 =>
    let s := { s with msixOn := store 0 s.msixOn (4 * p + fn) (fieldOf v 31 30) }
    if s.msixUp p fn then s.msixFlush p fn else s
  | 0x01, 0x04 => clear 0
  | 0x01, 0x10 => clear 1
  | 0x15, 0x08 =>
    let n := fieldOf v 13 8 + 20
    if fn = 1 ∧ 30 ≤ n ∧ n ≤ 39 then { s with host := { s.host with bar2 := store 36 s.host.bar2 p n } } else s
  | 0x1B, 0x04 =>
    if fn = 0 then s else { s with host := { s.host with pasidOn := store false s.host.pasidOn (4 * p + fn) (bitOf v.toNat 16) } }
  | _, _ => s

/-- A write to an NVMe register (R757, R770): a submission doorbell written here has no entries behind it. -/
def State.nvmeWrite (s : State) (p o be : Nat) (w : Word) : State :=
  let v := (mixBits (s.nvmeShow p o) w (byteMask be)).toNat
  let c := s.ctl p
  if o = 0x14 then s.ccWrite p v
  else if 0x1000 ≤ o ∧ o < 0x1000 + 8 * 257 then
    if o / 4 % 2 = 0 then s.sqDoorbell p ((o - 0x1000) / 8) v [] else s.cqDoorbell p ((o - 0x1000) / 8) v
  else if 2 ≤ p then s
  else if s.hostLost p then s.count (Ctr.HOST_P_DB_DROP p)
  else
    match o with
    | 0x24 => s.setCtl p { c with aqa := v &&& 0x0FFF0FFF }
    | 0x28 => s.setCtl p { c with asq := c.asq / 2 ^ 32 * 2 ^ 32 + v / 4096 * 4096 }
    | 0x2C => s.setCtl p { c with asq := c.asq % 2 ^ 32 + v * 2 ^ 32 }
    | 0x30 => s.setCtl p { c with acq := c.acq / 2 ^ 32 * 2 ^ 32 + v / 4096 * 4096 }
    | 0x34 => s.setCtl p { c with acq := c.acq % 2 ^ 32 + v * 2 ^ 32 }
    | _ => s

/-- A write of the dword at offset `o` of a path. -/
def State.writeDword (s : State) (via : Via) (o be : Nat) (w : Word) : State :=
  match s.target via o with
  | .nothing => s.count Ctr.GLB_BAD_ACC
  | .foreign => s
  | .foreignHank d => s.hankGated via d (fun s => s.hankModeWrite via d w)
  | .reg a writable => if writable then s.writeReg via a be w else s
  | .msix p fn o => s.msixWrite p fn o be w
  | .nvme p o => s.nvmeWrite p o be w
  | .cap p fn id o => s.capWrite p fn id o be w

/-- A write of any size (R11): of another size or alignment, it is discarded and counted. -/
def State.writeAccess (s : State) (via : Via) (a : Access) : State :=
  match accessDwords a with
  | none => s.count Ctr.GLB_BAD_ACC
  | some ds =>
    let data := a.data * 2 ^ (if a.size = 8 then 0 else 8 * (a.off % 4))
    ds.foldl (fun s (d : Nat × Nat × Nat) => s.writeDword via d.1 d.2.1 (BitVec.ofNat 32 (data / 2 ^ d.2.2))) s

/-- A write on a path: a page of a host in HOST_LOST takes none (R749), a foreign PASID is refused (R727), and configuration
requests wait for phase APPLY (R923). -/
def State.writeOn (s : State) (via : Via) (a : Access) : State :=
  match via with
  | .page n p pasid =>
    if s.hostLost p then s.count (Ctr.HOST_P_DB_DROP p)
    else if s.pasidOk n pasid then s.writeAccess via a
    else s.urRefuse p
  | .config p _ _ => if s.partState = 1 ∧ s.rf Reg.CAST_PHASE 3 0 < 7 then s.emit (.configRetry p) else s.writeAccess via a
  | _ => s.writeAccess via a

/-! ### Rows -/

/-- A register access (R7 to R14, R925). -/
def State.access (s : State) (via : Via) (a : Access) : State := if a.isWrite then s.writeOn via a else s.readOn via a

/-- Does some dword of the access reach a register of kind `k`? -/
def State.reaches (s : State) (via : Via) (a : Access) (k : RegKind) : Bool :=
  ((accessDwords a).getD []).any (fun d => match s.target via d.1 with
    | .reg x _ => (regRow x).any (fun r => r.kind = k)
    | _ => false)

/-- REGISTER_WRITE (R10, R11, R14, R31, R925): any access to any register. -/
def execRegisterWrite (via : Via) (a : Access) (s : State) : Host.Outcome State Fault Refusal := .next (s.access via a)

/-- SC_WRITE_BACK (R15): a write to an SC register. -/
def execScWriteBack (via : Via) (a : Access) (s : State) : Host.Outcome State Fault Refusal :=
  .next (if a.isWrite && s.reaches via a .sc then s.writeOn via a else s)

/-- TV_READ (R19): a read of a TV register. -/
def execTvRead (via : Via) (a : Access) (s : State) : Host.Outcome State Fault Refusal :=
  .next (if !a.isWrite && s.reaches via a .tv then s.readOn via a else s)

/-- A vendor-defined request on the board-controller port (R891): READ_REG of an offset of GLB, CAST or PWR; the codes of the
other two requests belong to their own rows, and every other code is reserved. -/
def State.boardRequest (s : State) (code off : Nat) : State :=
  if code = 2 ∨ code = 3 then s
  else if code ≠ 1 then s.boardSay code (leBytes 2 0x0100)
  else if off < 0x300000 ∧ off % 4 = 0 then
    let r := s.readDword .board off
    r.1.boardSay 1 (leBytes 2 0 ++ leBytes 4 r.2.toNat)
  else (s.boardSay 1 (leBytes 2 0x0100 ++ leBytes 4 (s.freeBits 32))).useFree

/-- READ_REG (R891). -/
def execReadReg (code off : Nat) (s : State) : Host.Outcome State Fault Refusal := .next (s.boardRequest code off)

end Sys2Proof.Machine
end

