-- ==== Sys2Proof/Machine/Dispatch.lean ====
section
/-! DEFINITION. What each command does: one arm per constructor of Instr, each one direct call of its meaning. -/

namespace Sys2Proof.Machine

def exec (i : Instr) (s : State) : Host.Outcome State Fault Refusal :=
  match i with
  | .registerWrite via a => Sys2Proof.Machine.execRegisterWrite via a s
  | .scWriteBack via a => Sys2Proof.Machine.execScWriteBack via a s
  | .tvRead via a => Sys2Proof.Machine.execTvRead via a s
  | .snapGo blk clr => Sys2Proof.Machine.execSnapGo blk clr s
  | .glbSnapGo clr => Sys2Proof.Machine.execGlbSnapGo clr s
  | .snapCopyEnd blk => Sys2Proof.Machine.execSnapCopyEnd blk s
  | .jobOpen via n v => Sys2Proof.Machine.execJobOpen via n v s
  | .jobClose via n v => Sys2Proof.Machine.execJobClose via n v s
  | .beatInternalBoundary t => Sys2Proof.Machine.execBeatInternalBoundary t s
  | .beatPulse t => Sys2Proof.Machine.execBeatPulse t s
  | .beatGlitch t => Sys2Proof.Machine.execBeatGlitch t s
  | .beatLate t => Sys2Proof.Machine.execBeatLate t s
  | .holdoverBoundary t => Sys2Proof.Machine.execHoldoverBoundary t s
  | .beatOutRise t => Sys2Proof.Machine.execBeatOutRise t s
  | .beatOutFall t => Sys2Proof.Machine.execBeatOutFall t s
  | .tallyExchange n step other => Sys2Proof.Machine.execTallyExchange n step other s
  | .twsQueueEnable via n v => Sys2Proof.Machine.execTwsQueueEnable via n v s
  | .twsDqTailWrite via n v => Sys2Proof.Machine.execTwsDqTailWrite via n v s
  | .twsCqHeadWrite via n v => Sys2Proof.Machine.execTwsCqHeadWrite via n v s
  | .descriptorFetch n => Sys2Proof.Machine.execDescriptorFetch n s
  | .descriptorStart coll => Sys2Proof.Machine.execDescriptorStart coll s
  | .descriptorArm coll => Sys2Proof.Machine.execDescriptorArm coll s
  | .contribReceive r => Sys2Proof.Machine.execContribReceive r s
  | .gaugeBytesReceive r => Sys2Proof.Machine.execGaugeBytesReceive r s
  | .resultReceive r => Sys2Proof.Machine.execResultReceive r s
  | .redoReceive r => Sys2Proof.Machine.execRedoReceive r s
  | .redoPendingStart coll block => Sys2Proof.Machine.execRedoPendingStart coll block s
  | .finalReceive r => Sys2Proof.Machine.execFinalReceive r s
  | .gnoteReceive r => Sys2Proof.Machine.execGnoteReceive r s
  | .tokenReceive r => Sys2Proof.Machine.execTokenReceive r s
  | .releaseReceive r => Sys2Proof.Machine.execReleaseReceive r s
  | .twistAckReceive peer key code => Sys2Proof.Machine.execTwistAckReceive peer key code s
  | .twistRetxTimeout peer key => Sys2Proof.Machine.execTwistRetxTimeout peer key s
  | .blockAckReceive ep coll epoch block => Sys2Proof.Machine.execBlockAckReceive ep coll epoch block s
  | .collectiveComplete coll => Sys2Proof.Machine.execCollectiveComplete coll s
  | .stepEndComplete coll => Sys2Proof.Machine.execStepEndComplete coll s
  | .rowLoad via n v => Sys2Proof.Machine.execRowLoad via n v s
  | .loadPassEnd n bad => Sys2Proof.Machine.execLoadPassEnd n bad s
  | .repairRequest row bad => Sys2Proof.Machine.execRepairRequest row bad s
  | .rowDigestCheck row => Sys2Proof.Machine.execRowDigestCheck row s
  | .rowStart via n v => Sys2Proof.Machine.execRowStart via n v s
  | .rowPause via n v => Sys2Proof.Machine.execRowPause via n v s
  | .pauseTimeout row => Sys2Proof.Machine.execPauseTimeout row s
  | .rowResume via n v => Sys2Proof.Machine.execRowResume via n v s
  | .rowSave via n v => Sys2Proof.Machine.execRowSave via n v s
  | .rowRestore via n v => Sys2Proof.Machine.execRowRestore via n v s
  | .rowStop via n v => Sys2Proof.Machine.execRowStop via n v s
  | .rowRetire via n v => Sys2Proof.Machine.execRowRetire via n v s
  | .rowHang row => Sys2Proof.Machine.execRowHang row s
  | .pbufUe row => Sys2Proof.Machine.execPbufUe row s
  | .rowFaultRecovery row => Sys2Proof.Machine.execRowFaultRecovery row s
  | .paceUpdate die pace => Sys2Proof.Machine.execPaceUpdate die pace s
  | .aluAdd row needle ecc => Sys2Proof.Machine.execAluAdd row needle ecc s
  | .aluSub row needle ecc => Sys2Proof.Machine.execAluSub row needle ecc s
  | .aluAnd row needle ecc => Sys2Proof.Machine.execAluAnd row needle ecc s
  | .aluOr row needle ecc => Sys2Proof.Machine.execAluOr row needle ecc s
  | .aluXor row needle ecc => Sys2Proof.Machine.execAluXor row needle ecc s
  | .aluShl row needle ecc => Sys2Proof.Machine.execAluShl row needle ecc s
  | .aluShr row needle ecc => Sys2Proof.Machine.execAluShr row needle ecc s
  | .aluSar row needle ecc => Sys2Proof.Machine.execAluSar row needle ecc s
  | .mul row needle ecc => Sys2Proof.Machine.execMul row needle ecc s
  | .mulhu row needle ecc => Sys2Proof.Machine.execMulhu row needle ecc s
  | .mulhs row needle ecc => Sys2Proof.Machine.execMulhs row needle ecc s
  | .mins row needle ecc => Sys2Proof.Machine.execMins row needle ecc s
  | .maxs row needle ecc => Sys2Proof.Machine.execMaxs row needle ecc s
  | .minu row needle ecc => Sys2Proof.Machine.execMinu row needle ecc s
  | .maxu row needle ecc => Sys2Proof.Machine.execMaxu row needle ecc s
  | .cmp row needle ecc => Sys2Proof.Machine.execCmp row needle ecc s
  | .mov row needle ecc => Sys2Proof.Machine.execMov row needle ecc s
  | .popc row needle ecc => Sys2Proof.Machine.execPopc row needle ecc s
  | .clz row needle ecc => Sys2Proof.Machine.execClz row needle ecc s
  | .addi row needle ecc => Sys2Proof.Machine.execAddi row needle ecc s
  | .cmpi row needle ecc => Sys2Proof.Machine.execCmpi row needle ecc s
  | .movz row needle ecc => Sys2Proof.Machine.execMovz row needle ecc s
  | .movk row needle ecc => Sys2Proof.Machine.execMovk row needle ecc s
  | .andi row needle ecc => Sys2Proof.Machine.execAndi row needle ecc s
  | .ori row needle ecc => Sys2Proof.Machine.execOri row needle ecc s
  | .xori row needle ecc => Sys2Proof.Machine.execXori row needle ecc s
  | .shli row needle ecc => Sys2Proof.Machine.execShli row needle ecc s
  | .shri row needle ecc => Sys2Proof.Machine.execShri row needle ecc s
  | .sari row needle ecc => Sys2Proof.Machine.execSari row needle ecc s
  | .ldb row needle ecc => Sys2Proof.Machine.execLdb row needle ecc s
  | .ldh row needle ecc => Sys2Proof.Machine.execLdh row needle ecc s
  | .ldw row needle ecc => Sys2Proof.Machine.execLdw row needle ecc s
  | .ldd row needle ecc => Sys2Proof.Machine.execLdd row needle ecc s
  | .stb row needle ecc => Sys2Proof.Machine.execStb row needle ecc s
  | .sth row needle ecc => Sys2Proof.Machine.execSth row needle ecc s
  | .stw row needle ecc => Sys2Proof.Machine.execStw row needle ecc s
  | .std row needle ecc => Sys2Proof.Machine.execStd row needle ecc s
  | .vld row needle ecc => Sys2Proof.Machine.execVld row needle ecc s
  | .vst row needle ecc => Sys2Proof.Machine.execVst row needle ecc s
  | .pld row needle ecc => Sys2Proof.Machine.execPld row needle ecc s
  | .pst row needle ecc => Sys2Proof.Machine.execPst row needle ecc s
  | .bCc row needle ecc => Sys2Proof.Machine.execBCc row needle ecc s
  | .call row needle ecc => Sys2Proof.Machine.execCall row needle ecc s
  | .ret row needle ecc => Sys2Proof.Machine.execRet row needle ecc s
  | .rep row needle ecc => Sys2Proof.Machine.execRep row needle ecc s
  | .repn row needle ecc => Sys2Proof.Machine.execRepn row needle ecc s
  | .chkb row needle ecc => Sys2Proof.Machine.execChkb row needle ecc s
  | .sset row needle ecc => Sys2Proof.Machine.execSset row needle ecc s
  | .sget row needle ecc => Sys2Proof.Machine.execSget row needle ecc s
  | .draw row needle ecc => Sys2Proof.Machine.execDraw row needle ecc s
  | .drawe row needle ecc => Sys2Proof.Machine.execDrawe row needle ecc s
  | .sdef row needle ecc => Sys2Proof.Machine.execSdef row needle ecc s
  | .srd row needle ecc => Sys2Proof.Machine.execSrd row needle ecc s
  | .vadd row needle ecc => Sys2Proof.Machine.execVadd row needle ecc s
  | .vsub row needle ecc => Sys2Proof.Machine.execVsub row needle ecc s
  | .vmul row needle ecc => Sys2Proof.Machine.execVmul row needle ecc s
  | .vmax row needle ecc => Sys2Proof.Machine.execVmax row needle ecc s
  | .vmin row needle ecc => Sys2Proof.Machine.execVmin row needle ecc s
  | .vabs row needle ecc => Sys2Proof.Machine.execVabs row needle ecc s
  | .vneg row needle ecc => Sys2Proof.Machine.execVneg row needle ecc s
  | .vmov row needle ecc => Sys2Proof.Machine.execVmov row needle ecc s
  | .vand row needle ecc => Sys2Proof.Machine.execVand row needle ecc s
  | .vor row needle ecc => Sys2Proof.Machine.execVor row needle ecc s
  | .vxor row needle ecc => Sys2Proof.Machine.execVxor row needle ecc s
  | .vshl row needle ecc => Sys2Proof.Machine.execVshl row needle ecc s
  | .vshr row needle ecc => Sys2Proof.Machine.execVshr row needle ecc s
  | .vsar row needle ecc => Sys2Proof.Machine.execVsar row needle ecc s
  | .vfma row needle ecc => Sys2Proof.Machine.execVfma row needle ecc s
  | .vcmp row needle ecc => Sys2Proof.Machine.execVcmp row needle ecc s
  | .vsel row needle ecc => Sys2Proof.Machine.execVsel row needle ecc s
  | .vcvt row needle ecc => Sys2Proof.Machine.execVcvt row needle ecc s
  | .vbcst row needle ecc => Sys2Proof.Machine.execVbcst row needle ecc s
  | .vext row needle ecc => Sys2Proof.Machine.execVext row needle ecc s
  | .vxch row needle ecc => Sys2Proof.Machine.execVxch row needle ecc s
  | .gauge row needle ecc => Sys2Proof.Machine.execGauge row needle ecc s
  | .pcvt row needle ecc => Sys2Proof.Machine.execPcvt row needle ecc s
  | .padd row needle ecc => Sys2Proof.Machine.execPadd row needle ecc s
  | .pfin row needle ecc => Sys2Proof.Machine.execPfin row needle ecc s
  | .tally row needle ecc => Sys2Proof.Machine.execTally row needle ecc s
  | .pmov row needle ecc => Sys2Proof.Machine.execPmov row needle ecc s
  | .pzero row needle ecc => Sys2Proof.Machine.execPzero row needle ecc s
  | .mld row needle ecc => Sys2Proof.Machine.execMld row needle ecc s
  | .mma row needle ecc => Sys2Proof.Machine.execMma row needle ecc s
  | .mclr row needle ecc => Sys2Proof.Machine.execMclr row needle ecc s
  | .mrd row needle ecc => Sys2Proof.Machine.execMrd row needle ecc s
  | .mst row needle ecc => Sys2Proof.Machine.execMst row needle ecc s
  | .nop row needle ecc => Sys2Proof.Machine.execNop row needle ecc s
  | .endRow row needle ecc => Sys2Proof.Machine.execEndRow row needle ecc s
  | .safe row needle ecc => Sys2Proof.Machine.execSafe row needle ecc s
  | .rtt row needle ecc => Sys2Proof.Machine.execRtt row needle ecc s
  | .rttNext row needle ecc => Sys2Proof.Machine.execRttNext row needle ecc s
  | .fclr row needle ecc => Sys2Proof.Machine.execFclr row needle ecc s
  | .br row needle ecc => Sys2Proof.Machine.execBr row needle ecc s
  | .mfs row needle ecc => Sys2Proof.Machine.execMfs row needle ecc s
  | .drst row needle ecc => Sys2Proof.Machine.execDrst row needle ecc s
  | .waitb row needle ecc => Sys2Proof.Machine.execWaitb row needle ecc s
  | .waitbWake row needle => Sys2Proof.Machine.execWaitbWake row needle s
  | .waitt row needle ecc => Sys2Proof.Machine.execWaitt row needle ecc s
  | .waittWake row needle => Sys2Proof.Machine.execWaittWake row needle s
  | .fence row needle ecc => Sys2Proof.Machine.execFence row needle ecc s
  | .trap row needle ecc => Sys2Proof.Machine.execTrap row needle ecc s
  | .memoryTransfer arb ce ue cached => Sys2Proof.Machine.execMemoryTransfer arb ce ue cached s
  | .arbiterDecision arb arrivals withdrawn => Sys2Proof.Machine.execArbiterDecision arb arrivals withdrawn s
  | .ceRateWindow t => Sys2Proof.Machine.execCeRateWindow t s
  | .patrolScrub die units ce ue => Sys2Proof.Machine.execPatrolScrub die units ce ue s
  | .hbmRefresh die stack retrained => Sys2Proof.Machine.execHbmRefresh die stack retrained s
  | .memHankModeWrite via n v => Sys2Proof.Machine.execMemHankModeWrite via n v s
  | .hankModeChangeDone die seg => Sys2Proof.Machine.execHankModeChangeDone die seg s
  | .streamDeclare die reads ended => Sys2Proof.Machine.execStreamDeclare die reads ended s
  | .optEnable via n v => Sys2Proof.Machine.execOptEnable via n v s
  | .optDisable via n v => Sys2Proof.Machine.execOptDisable via n v s
  | .optWorkDispatch n => Sys2Proof.Machine.execOptWorkDispatch n s
  | .optItemStaged row slot => Sys2Proof.Machine.execOptItemStaged row slot s
  | .optCommit row slot => Sys2Proof.Machine.execOptCommit row slot s
  | .feedOpen via n v => Sys2Proof.Machine.execFeedOpen via n v s
  | .feedClose via n v => Sys2Proof.Machine.execFeedClose via n v s
  | .feedRetarget via n v => Sys2Proof.Machine.execFeedRetarget via n v s
  | .itemDecodeStart die => Sys2Proof.Machine.execItemDecodeStart die s
  | .itemDecodeDone die pipe fetched => Sys2Proof.Machine.execItemDecodeDone die pipe fetched s
  | .carderItemWrite row => Sys2Proof.Machine.execCarderItemWrite row s
  | .feedItemPacked n feed row slot => Sys2Proof.Machine.execFeedItemPacked n feed row slot s
  | .feedStepWrite n feed ep step => Sys2Proof.Machine.execFeedStepWrite n feed ep step s
  | .feedStepDelivered n feed ep step => Sys2Proof.Machine.execFeedStepDelivered n feed ep step s
  | .feedReleaseReceive ep id step => Sys2Proof.Machine.execFeedReleaseReceive ep id step s
  | .rtpPacket stream packet stamp => Sys2Proof.Machine.execRtpPacket stream packet stamp s
  | .frameAgeExpire stream ts now => Sys2Proof.Machine.execFrameAgeExpire stream ts now s
  | .ckpCheckpoint via n v => Sys2Proof.Machine.execCkpCheckpoint via n v s
  | .ckpRestore via n v => Sys2Proof.Machine.execCkpRestore via n v s
  | .checkpointRequest n boundary => Sys2Proof.Machine.execCheckpointRequest n boundary s
  | .checkpointCapture n => Sys2Proof.Machine.execCheckpointCapture n s
  | .backgroundPageCopy die => Sys2Proof.Machine.execBackgroundPageCopy die s
  | .copyBeforeWrite addr => Sys2Proof.Machine.execCopyBeforeWrite addr s
  | .pageArrive n p => Sys2Proof.Machine.execPageArrive n p s
  | .pushDigestsReceive n part slice step digests => Sys2Proof.Machine.execPushDigestsReceive n part slice step digests s
  | .pushConfirm n step ok => Sys2Proof.Machine.execPushConfirm n step ok s
  | .depotDrain n shardRec ok => Sys2Proof.Machine.execDepotDrain n shardRec ok s
  | .keepaliveSend => Sys2Proof.Machine.execKeepaliveSend s
  | .keepaliveReceive part reply => Sys2Proof.Machine.execKeepaliveReceive part reply s
  | .suspectTimeout part ep => Sys2Proof.Machine.execSuspectTimeout part ep s
  | .suspectReport n part ep => Sys2Proof.Machine.execSuspectReport n part ep s
  | .proposeReceive n coord p => Sys2Proof.Machine.execProposeReceive n coord p s
  | .acceptReceive n part round copies ok => Sys2Proof.Machine.execAcceptReceive n part round copies ok s
  | .agreeTimeout n => Sys2Proof.Machine.execAgreeTimeout n s
  | .holdTimeout n => Sys2Proof.Machine.execHoldTimeout n s
  | .membershipCommit n m copies => Sys2Proof.Machine.execMembershipCommit n m copies s
  | .restoreRebuildDone n objects images => Sys2Proof.Machine.execRestoreRebuildDone n objects images s
  | .linkDownRetry n t present => Sys2Proof.Machine.execLinkDownRetry n t present s
  | .linkTrainDone n => Sys2Proof.Machine.execLinkTrainDone n s
  | .linkTrainTimeout n => Sys2Proof.Machine.execLinkTrainTimeout n s
  | .identRepeat n => Sys2Proof.Machine.execIdentRepeat n s
  | .identReceive n payload => Sys2Proof.Machine.execIdentReceive n payload s
  | .helloReceive n payload => Sys2Proof.Machine.execHelloReceive n payload s
  | .flitReceive n rx => Sys2Proof.Machine.execFlitReceive n rx s
  | .linkAckSend n => Sys2Proof.Machine.execLinkAckSend n s
  | .replayTimeout n => Sys2Proof.Machine.execReplayTimeout n s
  | .linkSilenceTimeout n => Sys2Proof.Machine.execLinkSilenceTimeout n s
  | .linkRetrainDone n lane0 lane1 => Sys2Proof.Machine.execLinkRetrainDone n lane0 lane1 s
  | .calSlot n => Sys2Proof.Machine.execCalSlot n s
  | .tsyncSend t => Sys2Proof.Machine.execTsyncSend t s
  | .tsyncReceive n t payload => Sys2Proof.Machine.execTsyncReceive n t payload s
  | .linkDownCmd via n v => Sys2Proof.Machine.execLinkDownCmd via n v s
  | .linkRetrainCmd via n v => Sys2Proof.Machine.execLinkRetrainCmd via n v s
  | .packetForward inp injected => Sys2Proof.Machine.execPacketForward inp injected s
  | .swtRtCommit via n v => Sys2Proof.Machine.execSwtRtCommit via n v s
  | .swtEpCommit via n v => Sys2Proof.Machine.execSwtEpCommit via n v s
  | .swtMcCommit via n v => Sys2Proof.Machine.execSwtMcCommit via n v s
  | .edgeWackReceive ep tag status => Sys2Proof.Machine.execEdgeWackReceive ep tag status s
  | .edgeRdataReceive ep tag status bytes poison => Sys2Proof.Machine.execEdgeRdataReceive ep tag status bytes poison s
  | .epAliveReceive ep => Sys2Proof.Machine.execEpAliveReceive ep s
  | .rmaOpen via n v => Sys2Proof.Machine.execRmaOpen via n v s
  | .rmaClose via n v => Sys2Proof.Machine.execRmaClose via n v s
  | .rmaReset via n v => Sys2Proof.Machine.execRmaReset via n v s
  | .regRegion via n v => Sys2Proof.Machine.execRegRegion via n v s
  | .deregRegion via n v => Sys2Proof.Machine.execDeregRegion via n v s
  | .deregComplete n => Sys2Proof.Machine.execDeregComplete n s
  | .setPath via n v => Sys2Proof.Machine.execSetPath via n v s
  | .createWq via n v => Sys2Proof.Machine.execCreateWq via n v s
  | .destroyWq via n v => Sys2Proof.Machine.execDestroyWq via n v s
  | .rmaFence via n v => Sys2Proof.Machine.execRmaFence via n v s
  | .fenceComplete n t => Sys2Proof.Machine.execFenceComplete n t s
  | .rmaQuery via n v => Sys2Proof.Machine.execRmaQuery via n v s
  | .rmaWqTailWrite via n v => Sys2Proof.Machine.execRmaWqTailWrite via n v s
  | .rmaWqCqHeadWrite via n v => Sys2Proof.Machine.execRmaWqCqHeadWrite via n v s
  | .workRequestStart w => Sys2Proof.Machine.execWorkRequestStart w s
  | .workRequestComplete w => Sys2Proof.Machine.execWorkRequestComplete w s
  | .rmaCtrValWrite via n v => Sys2Proof.Machine.execRmaCtrValWrite via n v s
  | .rmaCtrAdd via n v => Sys2Proof.Machine.execRmaCtrAdd via n v s
  | .rmaRequestReceive src p => Sys2Proof.Machine.execRmaRequestReceive src p s
  | .rmaAckTimer cid => Sys2Proof.Machine.execRmaAckTimer cid s
  | .rmaAckReceive t p => Sys2Proof.Machine.execRmaAckReceive t p s
  | .rmaNakReceive t p => Sys2Proof.Machine.execRmaNakReceive t p s
  | .readRespReceive p => Sys2Proof.Machine.execReadRespReceive p s
  | .rmaTimeout cid t => Sys2Proof.Machine.execRmaTimeout cid t s
  | .rmaWaitLimit cid t => Sys2Proof.Machine.execRmaWaitLimit cid t s
  | .ethFrameReceive port t frame fcsOk => Sys2Proof.Machine.execEthFrameReceive port t frame fcsOk s
  | .ethFrameTransmit port t => Sys2Proof.Machine.execEthFrameTransmit port t s
  | .ethPortDown port t => Sys2Proof.Machine.execEthPortDown port t s
  | .ethPortRetry port t => Sys2Proof.Machine.execEthPortRetry port t s
  | .ethRselWrite via n v => Sys2Proof.Machine.execEthRselWrite via n v s
  | .ethRuleCommit via n v => Sys2Proof.Machine.execEthRuleCommit via n v s
  | .ethPolicerWrite via n v => Sys2Proof.Machine.execEthPolicerWrite via n v s
  | .ptpMessage port t m => Sys2Proof.Machine.execPtpMessage port t m s
  | .sliceReset via n v => Sys2Proof.Machine.execSliceReset via n v s
  | .sliceFreeze via n v => Sys2Proof.Machine.execSliceFreeze via n v s
  | .freezeComplete n => Sys2Proof.Machine.execFreezeComplete n s
  | .sliceThaw via n v => Sys2Proof.Machine.execSliceThaw via n v s
  | .sliceSave via n v => Sys2Proof.Machine.execSliceSave via n v s
  | .sliceRestore via n v => Sys2Proof.Machine.execSliceRestore via n v s
  | .nsAttach via n v => Sys2Proof.Machine.execNsAttach via n v s
  | .nsDetach via n v => Sys2Proof.Machine.execNsDetach via n v s
  | .bar2Access port off size wr ep => Sys2Proof.Machine.execBar2Access port off size wr ep s
  | .copyQueueEnable via n k v => Sys2Proof.Machine.execCopyQueueEnable via n k v s
  | .copyTailWrite via n k v => Sys2Proof.Machine.execCopyTailWrite via n k v s
  | .copyCqHeadWrite via n k v => Sys2Proof.Machine.execCopyCqHeadWrite via n k v s
  | .copyStart n k desc => Sys2Proof.Machine.execCopyStart n k desc s
  | .copyComplete n k data => Sys2Proof.Machine.execCopyComplete n k data s
  | .notifyArm via n k v => Sys2Proof.Machine.execNotifyArm via n k v s
  | .heartbeat via n v => Sys2Proof.Machine.execHeartbeat via n v s
  | .heartbeatCheck t arrived => Sys2Proof.Machine.execHeartbeatCheck t arrived s
  | .reclaim via n v arrived => Sys2Proof.Machine.execReclaim via n v arrived s
  | .portReset port perst arrived => Sys2Proof.Machine.execPortReset port perst arrived s
  | .flr port fn arrived => Sys2Proof.Machine.execFlr port fn arrived s
  | .dmaReadFail u data timeout => Sys2Proof.Machine.execDmaReadFail u data timeout s
  | .nvmeCcEnWrite port v => Sys2Proof.Machine.execNvmeCcEnWrite port v s
  | .nvmeSqDoorbell port q tail entries => Sys2Proof.Machine.execNvmeSqDoorbell port q tail entries s
  | .nvmeCreateIoSq port => Sys2Proof.Machine.execNvmeCreateIoSq port s
  | .nvmeCreateIoCq port => Sys2Proof.Machine.execNvmeCreateIoCq port s
  | .nvmeDeleteIoSq port => Sys2Proof.Machine.execNvmeDeleteIoSq port s
  | .nvmeDeleteIoCq port => Sys2Proof.Machine.execNvmeDeleteIoCq port s
  | .nvmeGetLogPage port => Sys2Proof.Machine.execNvmeGetLogPage port s
  | .nvmeIdentify port => Sys2Proof.Machine.execNvmeIdentify port s
  | .nvmeAbort port => Sys2Proof.Machine.execNvmeAbort port s
  | .nvmeSetFeatures port => Sys2Proof.Machine.execNvmeSetFeatures port s
  | .nvmeGetFeatures port => Sys2Proof.Machine.execNvmeGetFeatures port s
  | .nvmeAsyncEventRequest port => Sys2Proof.Machine.execNvmeAsyncEventRequest port s
  | .nvmeDeviceSelfTest port => Sys2Proof.Machine.execNvmeDeviceSelfTest port s
  | .selfTestResume port t => Sys2Proof.Machine.execSelfTestResume port t s
  | .nvmeRead port => Sys2Proof.Machine.execNvmeRead port s
  | .nvmeWrite port data => Sys2Proof.Machine.execNvmeWrite port data s
  | .nvmeFlush port => Sys2Proof.Machine.execNvmeFlush port s
  | .nvmeWriteZeroes port => Sys2Proof.Machine.execNvmeWriteZeroes port s
  | .nvmeDeallocate port ranges => Sys2Proof.Machine.execNvmeDeallocate port ranges s
  | .nvmeLoad port => Sys2Proof.Machine.execNvmeLoad port s
  | .nsUnitFetchDone n j u data ok => Sys2Proof.Machine.execNsUnitFetchDone n j u data ok s
  | .nsUnitDrain n j => Sys2Proof.Machine.execNsUnitDrain n j s
  | .nsUnitDrainDone n j slot ok => Sys2Proof.Machine.execNsUnitDrainDone n j slot ok s
  | .getVersion port req => Sys2Proof.Machine.execGetVersion port req s
  | .getCapabilities port req => Sys2Proof.Machine.execGetCapabilities port req s
  | .negotiateAlgorithms port req => Sys2Proof.Machine.execNegotiateAlgorithms port req s
  | .getDigests port req => Sys2Proof.Machine.execGetDigests port req s
  | .getCertificate port req => Sys2Proof.Machine.execGetCertificate port req s
  | .challenge port req => Sys2Proof.Machine.execChallenge port req s
  | .getMeasurements port req => Sys2Proof.Machine.execGetMeasurements port req s
  | .getEvidence port code payload => Sys2Proof.Machine.execGetEvidence port code payload s
  | .getIdcert port payload => Sys2Proof.Machine.execGetIdcert port payload s
  | .release port payload mismatch => Sys2Proof.Machine.execRelease port payload mismatch s
  | .lcRequest port payload => Sys2Proof.Machine.execLcRequest port payload s
  | .releaseSessionExpire n t => Sys2Proof.Machine.execReleaseSessionExpire n t s
  | .drbgReseed healthy => Sys2Proof.Machine.execDrbgReseed healthy s
  | .trustLoad via n v => Sys2Proof.Machine.execTrustLoad via n v s
  | .trustErase via n v => Sys2Proof.Machine.execTrustErase via n v s
  | .saveClear via n v => Sys2Proof.Machine.execSaveClear via n v s
  | .saveWrapped via n v mismatch => Sys2Proof.Machine.execSaveWrapped via n v mismatch s
  | .trustRestore via n v mismatch => Sys2Proof.Machine.execTrustRestore via n v mismatch s
  | .unseal via n v mismatch => Sys2Proof.Machine.execUnseal via n v mismatch s
  | .seal via n v mismatch => Sys2Proof.Machine.execSeal via n v mismatch s
  | .revoke via n v => Sys2Proof.Machine.execRevoke via n v s
  | .alarm src => Sys2Proof.Machine.execAlarm src s
  | .coldReset => Sys2Proof.Machine.execColdReset s
  | .warmReset via v => Sys2Proof.Machine.execWarmReset via v s
  | .bindOff via v => Sys2Proof.Machine.execBindOff via v s
  | .bindOffComplete => Sys2Proof.Machine.execBindOffComplete s
  | .bindOffTimeout t => Sys2Proof.Machine.execBindOffTimeout t s
  | .castFuses => Sys2Proof.Machine.execCastFuses s
  | .castVerify bad slots => Sys2Proof.Machine.execCastVerify bad slots s
  | .castMeasure spindle pattern pat => Sys2Proof.Machine.execCastMeasure spindle pattern pat s
  | .castAlign other pat => Sys2Proof.Machine.execCastAlign other pat s
  | .castTest r => Sys2Proof.Machine.execCastTest r s
  | .rowWave t => Sys2Proof.Machine.execRowWave t s
  | .castWipe => Sys2Proof.Machine.execCastWipe s
  | .castApply => Sys2Proof.Machine.execCastApply s
  | .castTopology t => Sys2Proof.Machine.execCastTopology t s
  | .castReady => Sys2Proof.Machine.execCastReady s
  | .watchdogExpire core t => Sys2Proof.Machine.execWatchdogExpire core t s
  | .throttleReport t => Sys2Proof.Machine.execThrottleReport t s
  | .fwStage via v img pat flashOk => Sys2Proof.Machine.execFwStage via v img pat flashOk s
  | .fwDiscard via v => Sys2Proof.Machine.execFwDiscard via v s
  | .fwDistribute via v => Sys2Proof.Machine.execFwDistribute via v s
  | .fwChunkReceive part m => Sys2Proof.Machine.execFwChunkReceive part m s
  | .fwRepairStart t flashOk => Sys2Proof.Machine.execFwRepairStart t flashOk s
  | .fwRepairRequest part digest chunks => Sys2Proof.Machine.execFwRepairRequest part digest chunks s
  | .fwActivate via v => Sys2Proof.Machine.execFwActivate via v s
  | .prepareReceive part kind digest => Sys2Proof.Machine.execPrepareReceive part kind digest s
  | .readyReceive part a => Sys2Proof.Machine.execReadyReceive part a s
  | .prepareTimeout t => Sys2Proof.Machine.execPrepareTimeout t s
  | .commitReceive kind boundary => Sys2Proof.Machine.execCommitReceive kind boundary s
  | .abortReceive kind => Sys2Proof.Machine.execAbortReceive kind s
  | .fwRestartCores => Sys2Proof.Machine.execFwRestartCores s
  | .governorDecision t hot icc silent again => Sys2Proof.Machine.execGovernorDecision t hot icc silent again s
  | .hotNAssert t => Sys2Proof.Machine.execHotNAssert t s
  | .iccOver t die => Sys2Proof.Machine.execIccOver t die s
  | .avsRead t reads est => Sys2Proof.Machine.execAvsRead t reads est s
  | .sensorSample t die readings => Sys2Proof.Machine.execSensorSample t die readings s
  | .hbmTempRead t die readings => Sys2Proof.Machine.execHbmTempRead t die readings s
  | .tbHoldover t => Sys2Proof.Machine.execTbHoldover t s
  | .telemetryCapture t => Sys2Proof.Machine.execTelemetryCapture t s
  | .telemetrySend => Sys2Proof.Machine.execTelemetrySend s
  | .telemetryDrop t => Sys2Proof.Machine.execTelemetryDrop t s
  | .setEndpointId op eid => Sys2Proof.Machine.execSetEndpointId op eid s
  | .getEndpointId => Sys2Proof.Machine.execGetEndpointId s
  | .getMctpVersionSupport type => Sys2Proof.Machine.execGetMctpVersionSupport type s
  | .getMessageTypeSupport command => Sys2Proof.Machine.execGetMessageTypeSupport command s
  | .readReg code off => Sys2Proof.Machine.execReadReg code off s
  | .boardWarmReset => Sys2Proof.Machine.execBoardWarmReset s
  | .getTelemetry => Sys2Proof.Machine.execGetTelemetry s
  | .alertResponse => Sys2Proof.Machine.execAlertResponse s
  | .perstRelease port => Sys2Proof.Machine.execPerstRelease port s
  | .refclkLoss clk => Sys2Proof.Machine.execRefclkLoss clk s
  | .railLoss => Sys2Proof.Machine.execRailLoss s
  | .bypass bits => Sys2Proof.Machine.execBypass bits s
  | .idcode => Sys2Proof.Machine.execIdcode s
  | .samplePreload lands cells => Sys2Proof.Machine.execSamplePreload lands cells s
  | .extest resetLow => Sys2Proof.Machine.execExtest resetLow s
  | .clamp resetLow => Sys2Proof.Machine.execClamp resetLow s
  | .highz resetLow => Sys2Proof.Machine.execHighz resetLow s
  | .ethPortTrainDone port => Sys2Proof.Machine.execEthPortTrainDone port s
  | .coreRestartDone core => Sys2Proof.Machine.execCoreRestartDone core s
  | .selfTestComplete port failed => Sys2Proof.Machine.execSelfTestComplete port failed s
  | .nvmeCqDoorbell port q head => Sys2Proof.Machine.execNvmeCqDoorbell port q head s
  | .doeDiscovery port index => Sys2Proof.Machine.execDoeDiscovery port index s
  | .withdrawalAnnounce n part => Sys2Proof.Machine.execWithdrawalAnnounce n part s

end Sys2Proof.Machine
end

