-- ==== Sys2Proof/Safety.lean ====
section
/-! DEFINITION. What a good state of the part is, in the terms that the statements use. -/

namespace Sys2Proof.Machine

/-- Memory and its poison tags are in their canonical form: keys rising, no byte listed that reads 0 anyway, no tag listed
that is clear. -/
def State.memoryGood (s : State) : Bool := SMapWf (fun _ => (0 : Byte)) s.mem && SMapWf (fun _ => false) s.tags

/-- The event counters are in canonical form: keys rising, no counter listed that stands at 0 with SAT clear. -/
def State.ctrsGood (s : State) : Bool := SMapWf (fun _ => ({} : Counter)) s.ctrs

/-- No event counter stands above 2^48 - 1 (R20). -/
def State.ctrsBounded (s : State) : Bool := s.ctrs.all (fun e => e.2.count ≤ 2 ^ 48 - 1)

/-- The registers are in canonical form: offsets rising, no register listed that stands at its reset value. -/
def State.regsGood (s : State) : Bool := SMapWf regReset s.regs

/-- What every step keeps: registers, counters, memory and tags in canonical form, and no counter above its maximum. -/
def State.good (s : State) : Bool := s.regsGood && s.ctrsGood && s.ctrsBounded && s.memoryGood

end Sys2Proof.Machine
end

