-- ==== Sys2Proof/WellFormed.lean ====
section
/-! DEFINITION. Well-formed commands: operands that name a thing the part has. -/

namespace Sys2Proof

/-- A path that exists: a host port, a slice's page with a PASID of 20 bits, a function of a port (R716, R724, R725). -/
def viaWf : Via → Bool
  | .pf0 p => p < 2
  | .page n p pasid => n < 4 && p < 2 && (match pasid with
    | some x => x < 2 ^ 20
    | none => true)
  | .spindle => true
  | .board => true
  | .msix p fn => p < 2 && fn < 3
  | .config p fn _ => p < 2 && fn < 3
  | .nvme p => p < 2

/-- An access whose byte enables and data fit its size (R11). -/
def accessWf (a : Access) : Bool := a.be < 2 ^ a.size && a.data < 2 ^ (8 * a.size)

/-- A Twist record whose header fields fit their widths (R204 to R209), with a piece that exists. -/
def twistRecWf (r : TwistRec) : Bool :=
  r.block < 2 ^ 32 && r.epoch < 2 ^ 16 && r.gauge < 2 ^ 8 && r.srcPart < 2 ^ 14 && r.piece < r.pieces

/-- Does the command name only things that the part has: a row, needle, die, slice, link, port, queue, counter? -/
def Instr.wf : Instr → Bool
  | .registerWrite via a | .scWriteBack via a | .tvRead via a => viaWf via && accessWf a
  | .snapGo blk _ => blk % 4 == 0
  | .glbSnapGo _ => true
  | .snapCopyEnd blk => blk % 4 == 0
  | .jobOpen via n _ | .jobClose via n _ => viaWf via && n < 4
  | .beatInternalBoundary _ | .beatPulse _ | .beatGlitch _ | .beatLate _ | .holdoverBoundary _ | .beatOutRise _ | .beatOutFall _ => true
  | .tallyExchange n _ _ => n < 4
  | .twsQueueEnable via n _ | .twsDqTailWrite via n _ | .twsCqHeadWrite via n _ => viaWf via && n < 4
  | .descriptorFetch n => n < 4
  | .descriptorStart _ | .descriptorArm _ => true
  | .contribReceive r | .gaugeBytesReceive r | .resultReceive r | .redoReceive r => twistRecWf r
  | .redoPendingStart _ _ => true
  | .finalReceive r | .gnoteReceive r | .tokenReceive r | .releaseReceive r => twistRecWf r
  | .twistAckReceive _ _ _ => true
  | .twistRetxTimeout _ _ => true
  | .blockAckReceive ep _ _ _ => ep < 48
  | .collectiveComplete _ | .stepEndComplete _ => true
  | .rowLoad via n _ => viaWf via && n < 5
  | .loadPassEnd n _ => n < 5
  | .repairRequest row _ => row < 128
  | .rowDigestCheck row => row < 128
  | .rowStart via n _ | .rowPause via n _ => viaWf via && n < 5
  | .pauseTimeout row => row < 128
  | .rowResume via n _ | .rowSave via n _ | .rowRestore via n _ | .rowStop via n _ | .rowRetire via n _ => viaWf via && n < 5
  | .rowHang row | .pbufUe row | .rowFaultRecovery row => row < 128
  | .paceUpdate die _ => die < 4
  | .aluAdd row needle _ | .aluSub row needle _ | .aluAnd row needle _ | .aluOr row needle _ | .aluXor row needle _
  | .aluShl row needle _ | .aluShr row needle _ | .aluSar row needle _ | .mul row needle _ | .mulhu row needle _
  | .mulhs row needle _ | .mins row needle _ | .maxs row needle _ | .minu row needle _ | .maxu row needle _ | .cmp row needle _
  | .mov row needle _ | .popc row needle _ | .clz row needle _ | .addi row needle _ | .cmpi row needle _ | .movz row needle _
  | .movk row needle _ | .andi row needle _ | .ori row needle _ | .xori row needle _ | .shli row needle _ | .shri row needle _
  | .sari row needle _ | .ldb row needle _ | .ldh row needle _ | .ldw row needle _ | .ldd row needle _ | .stb row needle _
  | .sth row needle _ | .stw row needle _ | .std row needle _ | .vld row needle _ | .vst row needle _ | .pld row needle _
  | .pst row needle _ | .bCc row needle _ | .call row needle _ | .ret row needle _ | .rep row needle _ | .repn row needle _
  | .chkb row needle _ | .sset row needle _ | .sget row needle _ | .draw row needle _ | .drawe row needle _ | .sdef row needle _
  | .srd row needle _ | .vadd row needle _ | .vsub row needle _ | .vmul row needle _ | .vmax row needle _ | .vmin row needle _
  | .vabs row needle _ | .vneg row needle _ | .vmov row needle _ | .vand row needle _ | .vor row needle _ | .vxor row needle _
  | .vshl row needle _ | .vshr row needle _ | .vsar row needle _ | .vfma row needle _ | .vcmp row needle _ | .vsel row needle _
  | .vcvt row needle _ | .vbcst row needle _ | .vext row needle _ | .vxch row needle _ | .gauge row needle _ | .pcvt row needle _
  | .padd row needle _ | .pfin row needle _ | .tally row needle _ | .pmov row needle _ | .pzero row needle _ | .mld row needle _
  | .mma row needle _ | .mclr row needle _ | .mrd row needle _ | .mst row needle _ | .nop row needle _ | .endRow row needle _
  | .safe row needle _ | .rtt row needle _ | .rttNext row needle _ | .fclr row needle _ | .br row needle _ | .mfs row needle _
  | .drst row needle _ | .waitb row needle _ => row < 128 && needle < 16
  | .waitbWake row needle => row < 128 && needle < 16
  | .waitt row needle _ => row < 128 && needle < 16
  | .waittWake row needle => row < 128 && needle < 16
  | .fence row needle _ | .trap row needle _ => row < 128 && needle < 16
  | .memoryTransfer _ _ _ _ => true
  | .arbiterDecision _ _ _ => true
  | .ceRateWindow _ => true
  | .patrolScrub die _ _ _ => die < 4
  | .hbmRefresh die stack _ => die < 4 && stack < 3
  | .memHankModeWrite via n _ => viaWf via && n < 4
  | .hankModeChangeDone die seg => die < 4 && seg < 16
  | .streamDeclare die _ _ => die < 4
  | .optEnable via n _ | .optDisable via n _ => viaWf via && n < 4
  | .optWorkDispatch n => n < 4
  | .optItemStaged row _ | .optCommit row _ => row < 128
  | .feedOpen via n _ | .feedClose via n _ | .feedRetarget via n _ => viaWf via && n < 4
  | .itemDecodeStart die => die < 4
  | .itemDecodeDone die _ _ => die < 4
  | .carderItemWrite row => row < 128
  | .feedItemPacked n feed row _ => n < 4 && feed < 16 && row < 128
  | .feedStepWrite n feed ep _ | .feedStepDelivered n feed ep _ => n < 4 && feed < 16 && ep < 48
  | .feedReleaseReceive ep _ _ => ep < 48
  | .rtpPacket _ _ _ | .frameAgeExpire _ _ _ => true
  | .ckpCheckpoint via n _ | .ckpRestore via n _ => viaWf via && n < 4
  | .checkpointRequest n _ => n < 4
  | .checkpointCapture n => n < 4
  | .backgroundPageCopy die => die < 4
  | .copyBeforeWrite _ => true
  | .pageArrive n _ => n < 4
  | .pushDigestsReceive n part _ _ _ => n < 4 && part < 16384
  | .pushConfirm n _ _ | .depotDrain n _ _ => n < 4
  | .keepaliveSend => true
  | .keepaliveReceive part _ | .suspectTimeout part _ => part < 16384
  | .suspectReport n part _ => n < 4 && part < 16384
  | .proposeReceive n coord _ => n < 4 && coord < 16384
  | .acceptReceive n part _ _ _ => n < 4 && part < 16384
  | .agreeTimeout n | .holdTimeout n => n < 4
  | .membershipCommit n _ _ | .restoreRebuildDone n _ _ => n < 4
  | .linkDownRetry n _ _ => n < 96
  | .linkTrainDone n | .linkTrainTimeout n | .identRepeat n => n < 96
  | .identReceive n _ | .helloReceive n _ | .flitReceive n _ => n < 96
  | .linkAckSend n | .replayTimeout n | .linkSilenceTimeout n => n < 96
  | .linkRetrainDone n _ _ => n < 96
  | .calSlot n => n < 96
  | .tsyncSend _ => true
  | .tsyncReceive n _ _ => n < 96
  | .linkDownCmd via n _ | .linkRetrainCmd via n _ => viaWf via && n < 96
  | .packetForward inp _ => inp < 97
  | .swtRtCommit via n _ => viaWf via && n < 16384
  | .swtEpCommit via n _ => viaWf via && n < 48
  | .swtMcCommit via n _ => viaWf via && n < 4096
  | .edgeWackReceive ep _ _ => ep < 48
  | .edgeRdataReceive ep _ _ _ _ => ep < 48
  | .epAliveReceive ep => ep < 48
  | .rmaOpen via n _ | .rmaClose via n _ | .rmaReset via n _ | .regRegion via n _ | .deregRegion via n _ => viaWf via && n < 4
  | .deregComplete n => n < 1048576
  | .setPath via n _ | .createWq via n _ | .destroyWq via n _ | .rmaFence via n _ => viaWf via && n < 4
  | .fenceComplete n _ => n < 4
  | .rmaQuery via n _ => viaWf via && n < 4
  | .rmaWqTailWrite via n _ | .rmaWqCqHeadWrite via n _ => viaWf via && n < 1024
  | .workRequestStart w | .workRequestComplete w => w < 1024
  | .rmaCtrValWrite via n _ | .rmaCtrAdd via n _ => viaWf via && n < 16384
  | .rmaRequestReceive _ _ => true
  | .rmaAckTimer cid => cid < 262144
  | .rmaAckReceive _ _ | .rmaNakReceive _ _ => true
  | .readRespReceive _ => true
  | .rmaTimeout cid _ | .rmaWaitLimit cid _ => cid < 262144
  | .ethFrameReceive port _ _ _ => port < 32
  | .ethFrameTransmit port _ | .ethPortDown port _ | .ethPortRetry port _ => port < 32
  | .ethRselWrite via n _ | .ethRuleCommit via n _ => viaWf via && n < 4
  | .ethPolicerWrite via n _ => viaWf via && n < 2048
  | .ptpMessage port _ _ => port < 32
  | .sliceReset via n _ | .sliceFreeze via n _ => viaWf via && n < 4
  | .freezeComplete n => n < 4
  | .sliceThaw via n _ | .sliceSave via n _ | .sliceRestore via n _ | .nsAttach via n _ | .nsDetach via n _ => viaWf via && n < 4
  | .bar2Access port _ _ _ _ => port < 2
  | .copyQueueEnable via n k _ | .copyTailWrite via n k _ | .copyCqHeadWrite via n k _ => viaWf via && n < 4 && k < 8
  | .copyStart n k _ | .copyComplete n k _ => n < 4 && k < 8
  | .notifyArm via n k _ => viaWf via && n < 4 && k < 256
  | .heartbeat via n _ => viaWf via && n < 2
  | .heartbeatCheck _ _ => true
  | .reclaim via n _ _ => viaWf via && n < 2
  | .portReset port _ _ => port < 2
  | .flr port fn _ => port < 2 && fn < 3
  | .dmaReadFail _ _ _ => true
  | .nvmeCcEnWrite port _ => port < 2
  | .nvmeSqDoorbell port _ _ _ => port < 2
  | .nvmeCreateIoSq port | .nvmeCreateIoCq port | .nvmeDeleteIoSq port | .nvmeDeleteIoCq port | .nvmeGetLogPage port
  | .nvmeIdentify port | .nvmeAbort port | .nvmeSetFeatures port | .nvmeGetFeatures port | .nvmeAsyncEventRequest port
  | .nvmeDeviceSelfTest port => port < 2
  | .selfTestResume port _ => port < 2
  | .nvmeRead port => port < 2
  | .nvmeWrite port _ => port < 2
  | .nvmeFlush port | .nvmeWriteZeroes port => port < 2
  | .nvmeDeallocate port _ => port < 2
  | .nvmeLoad port => port < 2
  | .nsUnitFetchDone n j _ _ _ => n < 4 && j < 8
  | .nsUnitDrain n j => n < 4 && j < 8
  | .nsUnitDrainDone n j _ _ => n < 4 && j < 8
  | .getVersion port _ | .getCapabilities port _ | .negotiateAlgorithms port _ | .getDigests port _ | .getCertificate port _
  | .challenge port _ | .getMeasurements port _ => port < 2
  | .getEvidence port _ _ => port < 2
  | .getIdcert port _ => port < 2
  | .release port _ _ => port < 2
  | .lcRequest port _ => port < 2
  | .releaseSessionExpire _ _ => true
  | .drbgReseed _ => true
  | .trustLoad via n _ | .trustErase via n _ | .saveClear via n _ => viaWf via && n < 4
  | .saveWrapped via n _ _ | .trustRestore via n _ _ | .unseal via n _ _ | .seal via n _ _ => viaWf via && n < 4
  | .revoke via n _ => viaWf via && n < 4
  | .alarm src => src < 6
  | .coldReset => true
  | .warmReset via _ | .bindOff via _ => viaWf via
  | .bindOffComplete => true
  | .bindOffTimeout _ => true
  | .castFuses => true
  | .castVerify _ _ => true
  | .castMeasure _ _ _ => true
  | .castAlign _ _ => true
  | .castTest _ | .rowWave _ => true
  | .castWipe | .castApply => true
  | .castTopology _ => true
  | .castReady => true
  | .watchdogExpire core _ => core < 8
  | .throttleReport _ => true
  | .fwStage via _ _ _ _ => viaWf via
  | .fwDiscard via _ | .fwDistribute via _ => viaWf via
  | .fwChunkReceive part _ => part < 16384
  | .fwRepairStart _ _ => true
  | .fwRepairRequest part _ _ => part < 16384
  | .fwActivate via _ => viaWf via
  | .prepareReceive part kind _ => part < 16384 && 1 ≤ kind && kind < 4
  | .readyReceive part _ => part < 16384
  | .prepareTimeout _ => true
  | .commitReceive kind _ => 1 ≤ kind && kind < 4
  | .abortReceive kind => 1 ≤ kind && kind < 4
  | .fwRestartCores => true
  | .governorDecision _ _ _ _ _ => true
  | .hotNAssert _ => true
  | .iccOver _ die => die < 4
  | .avsRead _ _ _ => true
  | .sensorSample _ die _ | .hbmTempRead _ die _ => die < 4
  | .tbHoldover _ | .telemetryCapture _ => true
  | .telemetrySend => true
  | .telemetryDrop _ => true
  | .setEndpointId _ _ => true
  | .getEndpointId => true
  | .getMctpVersionSupport _ | .getMessageTypeSupport _ => true
  | .readReg _ _ => true
  | .boardWarmReset | .getTelemetry | .alertResponse => true
  | .perstRelease port => port < 2
  | .refclkLoss clk => clk < 10
  | .railLoss => true
  | .bypass _ => true
  | .idcode => true
  | .samplePreload _ _ => true
  | .extest _ | .clamp _ | .highz _ => true
  | .ethPortTrainDone port => port < 32
  | .coreRestartDone core => core < 8
  | .selfTestComplete port _ => port < 2
  | .nvmeCqDoorbell port _ _ => port < 2
  | .doeDiscovery port _ => port < 2
  | .withdrawalAnnounce n part => n < 4 && part < 16384

end Sys2Proof
end

