-- ==== Sys2Proof/Certificates/Slice0/Obligations.lean ====
section
/-! DEFINITION. The statements for the provers, chapter by chapter of the spec. -/

open Sys2Proof Sys2Proof.Machine

set_option linter.unusedVariables false

/-! ### Registers, counters and snapshots (R7 to R32, R924, R925) -/

/-- The SC registers of the part, block by block (R15). -/
def scRegs : List Nat :=
  [Reg.GLB_CONTRACT_EVT, Reg.CAST_EVT, Reg.PWR_EVT, Reg.TRUST_EVT, Reg.TRUST_ALARM, Reg.HOST_EVT, Reg.LNK_EVT, Reg.SWT_EVT,
   Reg.RMA_EVT, Reg.ETH_EVT, Reg.TWS_EVT, Reg.NDL_EVT, Reg.MEM_EVT, Reg.OPT_EVT, Reg.CRD_EVT, Reg.CKP_EVT, Reg.SPN_EVT]

/-- SC_WRITE_BACK (R15): a write-back clears the flags written as 1 in the enabled bytes when byte 3 is enabled and equals
SEQ, and otherwise changes nothing; nothing else changes, GLB_BAD_ACC included. -/
def Obligations.ScWriteBack : Prop :=
  ∀ (s : State) (p r be : Nat) (v : Word), r ∈ scRegs → be < 16 →
    exec (.scWriteBack (.pf0 p) ⟨true, r, 4, be, v.toNat⟩) s =
      .next (if bitOf be 3 ∧ fieldOf v 31 24 = fieldOf (s.rd r) 31 24 then
        s.wr r (s.rd r &&& ~~~(v &&& BitVec.ofNat 32 (byteMask be) &&& 0x00FFFFFF)) else s)

/-- An event that sets flag `i` of an SC register (R16, R18): SEQ counts it modulo 256, flag `i` stands, the other flags and
every other register stay. -/
def Obligations.ScEventCounts : Prop :=
  ∀ (s : State) (r i : Nat), i < 24 →
    (s.event r i).rf r 31 24 = (s.rf r 31 24 + 1) % 256 ∧ (s.event r i).rf r i i = 1 ∧
    (∀ j ∈ List.range 24, j = i ∨ (s.event r i).rf r j j = s.rf r j j) ∧ (∀ a : Nat, a ≠ r → (s.event r i).rd a = s.rd a)

/-- An event counter (R20): an event adds 1 below the maximum and leaves SAT; at the maximum it goes uncounted and sets SAT. A write of
either register of the live pair is discarded. -/
def Obligations.CounterSaturates : Prop :=
  (∀ (s : State) (a : Nat), (s.ctr a).count ≤ 2 ^ 48 - 1 →
    ((s.ctr a).count < 2 ^ 48 - 1 → (s.count a).ctr a = ⟨(s.ctr a).count + 1, (s.ctr a).sat⟩) ∧
    ((s.ctr a).count = 2 ^ 48 - 1 → (s.count a).ctr a = ⟨2 ^ 48 - 1, true⟩) ∧
    (∀ b : Nat, b ≠ a → (s.count a).ctr b = s.ctr b) ∧ (s.count a).regs = s.regs ∧ (s.count a).holds = s.holds) ∧
  (∀ (s : State) (p a v : Nat), (liveCtr a).isSome = true → regRow a = none →
    exec (.registerWrite (.pf0 p) ⟨true, a, 4, 15, v⟩) s = .next s)

/-- Registers of the whole part whose values are limited: the offset and the status of a write that is not legal (R31; files 04, 05,
07 to 11, 15 and 16). -/
def limitedRegs : List (Nat × Nat) :=
  [(Reg.CAST_CTL, 0x0112), (Reg.PWR_CTL, 0x0100), (Reg.PWR_TLIM, 0x0100), (Reg.PWR_ILIM, 0x0100), (Reg.LNK_CTL, 0x01C0),
   (Reg.SWT_CTL, 0x01C0), (Reg.RMA_CTL, 0x01D2), (Reg.RMA_TIMING, 0x01D2), (Reg.TWS_CTL, 0x0156), (Reg.NDL_CTL, 0x0163),
   (Reg.MEM_CTL, 0x0182), (Reg.MEM_CE_THRESH, 0x0182), (Reg.CRD_CTL, 0x01A4), (Reg.CKP_CTL, 0x01B3)]

/-- Is field `[hi:lo]` of `v` from `x` to `y`? -/
def within (v : Word) (hi lo x y : Nat) : Bool := x ≤ fieldOf v hi lo && fieldOf v hi lo ≤ y

/-- Is `v` a legal word of limited register `r`? -/
def legalWord (r : Nat) (v : Word) : Bool :=
  if r = Reg.CAST_CTL then within v 31 24 1 255 && within v 23 16 10 255
  else if r = Reg.PWR_CTL then within v 31 28 0 0 && within v 27 24 1 15 && within v 23 20 1 15 && within v 19 16 0 0 && within v 15 0 800 2000
  else if r = Reg.PWR_TLIM then within v 15 8 80 95 && within v 7 0 85 105
  else if r = Reg.PWR_ILIM then within v 31 10 0 0 && within v 9 0 200 450
  else if r = Reg.LNK_CTL then within v 19 16 1 15 && within v 15 0 1 65535
  else if r = Reg.SWT_CTL then within v 5 0 1 63
  else if r = Reg.RMA_CTL then within v 31 16 1 65535 && within v 15 8 1 255
  else if r = Reg.RMA_TIMING then within v 31 16 100 60000 && within v 15 0 10 10000
  else if r = Reg.TWS_CTL then within v 3 0 1 15
  else if r = Reg.NDL_CTL then within v 25 16 10 1000 && within v 15 0 100 60000
  else if r = Reg.MEM_CTL then within v 23 16 4 64
  else if r = Reg.MEM_CE_THRESH then within v 15 0 1 65535
  else if r = Reg.CRD_CTL then within v 13 0 1 10000
  else within v 31 16 200 30000 && within v 15 0 100 30000

/-- `s` with a rejected write recorded in GLB_WR_REJ_STAT and GLB_WR_REJ_ADDR (R925). -/
def rejectedAt (s : State) (a st : Nat) : State :=
  (s.wr Reg.GLB_WR_REJ_STAT (BitVec.ofNat 32 (st * 2 ^ 16 + (s.rf Reg.GLB_WR_REJ_STAT 15 8 + 1) % 2 ^ 8 * 2 ^ 8 +
    s.rf Reg.GLB_WR_REJ_STAT 7 0))).wr Reg.GLB_WR_REJ_ADDR (BitVec.ofNat 32 a)

/-- REGISTER_WRITE to a limited register (R31, R925): an illegal word leaves the register and everything else unchanged and is
recorded with its status and offset; a legal word is taken in the register's writable bits (R14), and nothing else changes. -/
def Obligations.LimitedRegisters : Prop :=
  ∀ (s : State) (p r st : Nat) (v : Word) (row : RegRow), (r, st) ∈ limitedRegs → regRow r = some row →
    (legalWord r v = false → exec (.registerWrite (.pf0 p) ⟨true, r, 4, 15, v.toNat⟩) s = .next (rejectedAt s r st)) ∧
    (legalWord r v = true → ∃ t : State, exec (.registerWrite (.pf0 p) ⟨true, r, 4, 15, v.toNat⟩) s = .next t ∧
      t.rd r = (s.rd r &&& ~~~(BitVec.ofNat 32 row.mask)) ||| (v &&& BitVec.ofNat 32 row.mask) ∧
      (t.wr r (s.rd r)).regs = (s.wr r (s.rd r)).regs ∧ { t with regs := s.regs, tvOdd := s.tvOdd } = s)

/-- REGISTER_WRITE, the accesses that reach no writable register (R10, R11, R14), and TV_READ (R19). -/
def Obligations.RegisterAccess : Prop :=
  -- a write to an address with no defined register, and an access of another size or alignment, is counted
  (∀ (s : State) (p o d : Nat), 0x2400000 ≤ o → o < 0x4000000 → o % 4 = 0 →
    exec (.registerWrite (.pf0 p) ⟨true, o, 4, 15, d⟩) s = .next (s.count Ctr.GLB_BAD_ACC) ∧
    exec (.registerWrite (.pf0 p) ⟨false, o, 4, 15, d⟩) s = .next (s.emit (.readData (.pf0 p) o 4 0))) ∧
  (∀ (s : State) (p o k d : Nat), k = 0 ∨ (k ≠ 8 ∧ 4 < o % 4 + k) ∨ (k = 8 ∧ o % 8 ≠ 0) →
    exec (.registerWrite (.pf0 p) ⟨true, o, k, 255, d⟩) s = .next (s.count Ctr.GLB_BAD_ACC) ∧
    exec (.registerWrite (.pf0 p) ⟨false, o, k, 255, d⟩) s = .next ((s.count Ctr.GLB_BAD_ACC).emit (.readData (.pf0 p) o k 0))) ∧
  -- a write of a read-only register is discarded; a read of it shows its value
  (∀ (s : State) (p d r : Nat), r ∈ [Reg.GLB_VARIANT, Reg.GLB_PART_ID, Reg.GLB_STATUS, Reg.GLB_BEAT_SEQ, Reg.PWR_TB_SRC, Reg.SPN_CORE] →
    exec (.registerWrite (.pf0 p) ⟨true, r, 4, 15, d⟩) s = .next s ∧
    exec (.registerWrite (.pf0 p) ⟨false, r, 4, 15, d⟩) s = .next (s.emit (.readData (.pf0 p) r 4 (s.rd r).toNat))) ∧
  -- a TV read answers the majority, rewrites an odd copy and counts it once
  (∀ (s : State) (p d r : Nat), r ∈ [Reg.PWR_CTL, Reg.PWR_TLIM, Reg.PWR_ILIM, Reg.TRUST_CTL] →
    exec (.tvRead (.pf0 p) ⟨false, r, 4, 15, d⟩) s =
      .next ((if fetch 0 s.tvOdd r = 0 then s else { s with tvOdd := store 0 s.tvOdd r 0 }.count Ctr.GLB_TV_FIX).emit
        (.readData (.pf0 p) r 4 (s.rd r).toNat)))

/-- Snapshots (R22 to R25, R924): SNAP_GO and GLB_SNAP_GO start a copy at the copy instant or arm one, and SNAP_COPY_END ends it. -/
def Obligations.Snapshots : Prop :=
  -- a GO of block b while no copy covers it: the holding pairs take the counts at that instant, CLR zeroes the live ones, BUSY rises
  (∀ (s : State) (b : Nat) (clr : Bool), b ∈ blockBases → s.ctrsGood = true →
    (s.snap b).busy = false → (s.snap b).armed = false → (s.snap 0).busy = false → (s.snap 0).armed = false →
    ∃ t : State, exec (.snapGo b clr) s = .next t ∧ t.snap b = ⟨true, false, false⟩ ∧
      (∀ a, fetch {} t.holds a = if inBlock b a then s.ctr a else fetch {} s.holds a) ∧
      (∀ a, t.ctr a = if inBlock b a ∧ clr then {} else s.ctr a) ∧
      (∀ c, c ≠ b → t.snap c = s.snap c) ∧ { t with snaps := s.snaps, holds := s.holds, ctrs := s.ctrs } = s) ∧
  -- while a copy covers it, the GO arms one further copy, and CLR of every such GO gathers
  (∀ (s : State) (b : Nat) (clr : Bool), b ∈ blockBases →
    ((s.snap b).busy || (s.snap b).armed || (s.snap 0).busy || (s.snap 0).armed) = true →
    exec (.snapGo b clr) s = .next (s.setSnap b ⟨(s.snap b).busy, true, (s.snap b).clr || clr⟩)) ∧
  -- GLB_SNAP: one copy of every block at one instant, or armed while a copy of any block runs
  (∀ (s : State) (clr : Bool), s.ctrsGood = true → s.anyCopy = false → (s.snap 0).armed = false →
    ∃ t : State, exec (.glbSnapGo clr) s = .next t ∧ t.snap 0 = ⟨true, false, false⟩ ∧ (∀ a, fetch {} t.holds a = s.ctr a) ∧
      (∀ a, t.ctr a = if clr then {} else s.ctr a) ∧ (∀ c, c ≠ 0 → t.snap c = s.snap c) ∧
      { t with snaps := s.snaps, holds := s.holds, ctrs := s.ctrs } = s) ∧
  (∀ (s : State) (clr : Bool), (s.anyCopy || (s.snap 0).armed) = true →
    exec (.glbSnapGo clr) s = .next (s.setSnap 0 ⟨(s.snap 0).busy, true, (s.snap 0).clr || clr⟩)) ∧
  -- a block's own copy ends: SNAP_SEQ counts it and BUSY falls; a copy armed behind it starts
  (∀ (s : State) (b : Nat), b ∈ blockBases → (s.snap b).busy = true → (s.snap 0).busy = false → (s.snap 0).armed = false →
    exec (.snapCopyEnd b) s =
      (let e := (s.setSnap b { s.snap b with busy := false }).wr (b + 0xC) (s.rd (b + 0xC) + 1)
       .next (if (s.snap b).armed then e.startBlkCopy b (s.snap b).clr else e))) ∧
  -- a GLB_SNAP copy ends: GLB_SNAP_SEQ and the SNAP_SEQ of every block count it
  (∀ (s : State), (s.snap 0).busy = true → s.snaps.all (fun e => !e.2.armed) = true →
    ∃ t : State, exec (.snapCopyEnd 0) s = .next t ∧ (t.snap 0).busy = false ∧
      (∀ a, t.rd a = if a ∈ (0 :: blockBases).map (· + 0xC) then s.rd a + 1 else s.rd a) ∧
      (∀ c, c ≠ 0 → t.snap c = s.snap c) ∧ { t with snaps := s.snaps, regs := s.regs } = s)

/-! ### Jobs, the beat and mirrored halves (file 02) -/

/-- The entry of a member list: part and slice (R79). -/
def memberOf (e : Nat) : Member := ⟨bitsOf e 13 0, bitsOf e 17 16⟩

/-- JOB_OPEN, JOB_CLOSE and TALLY_EXCHANGE (R78 to R82, R126 to R128). OPEN keeps the descriptor's seed, S, members and tally set,
and sets step counter, epoch and membership state; CLOSE forgets them. -/
def Obligations.JobCommands : Prop :=
  -- OPEN that passes the checks of R80; the first step of the feeds begins, and the status is 0
  (∀ (s : State) (p n : Nat), s.hasSlice n = true → (s.wr (Reg.GLB_JOB_CMD n) 1).jobOpenStatus n false = 0 →
    let a := s.addrOf (Reg.GLB_JOB_ARG_LO n) (Reg.GLB_JOB_ARG_HI n)
    let ms := (List.range (s.le (a + 20) 2 % 2 ^ 14 + 1)).map (fun i => memberOf (s.le (s.le (a + 24) 5 + 8 * i) 8))
    let k := s.le (a + 12) 6
    ∃ t : State, exec (.jobOpen (.pf0 p) n 0x80000001) s = .next t ∧
      t.job n = { isOpen := true, seed := s.le a 8, stitches := s.le (a + 8) 2 + 1, gen := s.le (a + 10) 1, members := ms, shards := ms,
                  tallySet := (List.range (s.le (a + 22) 2 % 2 ^ 13)).map (fun i => s.le (s.le (a + 32) 5 + 4 * i) 4),
                  hist := s.jobRanges a, epoch := s.le (a + 18) 2, memb := 1 } ∧
      t.stepCtr n = k ∧ t.rf (Reg.GLB_JOB_STAT n) 30 30 = 1 ∧ t.rf (Reg.GLB_JOB_STAT n) 15 0 = 0 ∧
      (s.le (a + 11) 1 = 1 → t.mem = s.mem ∧ t.tags = s.tags) ∧ t.tws = s.tws ∧ t.pending = s.pending) ∧
  -- OPEN while a job is open: 0x0230, and nothing else
  (∀ (s : State) (p n : Nat), s.hasSlice n = true → (s.job n).isOpen = true →
    exec (.jobOpen (.pf0 p) n 0x80000001) s = .next ((s.wr (Reg.GLB_JOB_CMD n) 1).wf (Reg.GLB_JOB_STAT n) 15 0 0x0230)) ∧
  -- CLOSE: the slice's collectives are abandoned, its feeds closed, its failed gathers and past collectives dropped; then the job is
  -- gone, with checkpoint requests and rounds of its membership
  (∀ (s : State) (p n : Nat), s.hasSlice n = true → (s.job n).isOpen = true →
    let v := ((s.wr (Reg.GLB_JOB_CMD n) 2).abandonColls n).feedsClose n
    let c := v.ckpOf n
    exec (.jobClose (.pf0 p) n 0x80000002) s =
      .next ((((({ v with tws := { v.tws with failed := v.tws.failed.filter (fun f => f.1 ≠ n),
                                              past := v.tws.past.filter (fun c => c.slice ≠ n) } }).setCkp n
        { c with reqs := [], warned := false, waiting := none, prop := none, lead := none }).setJob n {}).wf
          (Reg.GLB_JOB_STAT n) 30 30 0).wf (Reg.GLB_JOB_STAT n) 15 0 0)) ∧
  -- CLOSE with no job: 0x0232, and nothing else
  (∀ (s : State) (p n : Nat), s.hasSlice n = true → (s.job n).isOpen = false →
    exec (.jobClose (.pf0 p) n 0x80000002) s = .next ((s.wr (Reg.GLB_JOB_CMD n) 2).wf (Reg.GLB_JOB_STAT n) 15 0 0x0232)) ∧
  -- TALLY_EXCHANGE on mirrored halves: any difference sets DIVERGE and counts one, and HALT lets no further step start
  (∀ (s : State) (n k : Nat) (x : TallyAcc) (other : List PeerTally), s.rf Reg.GLB_PART_ID 17 16 = 3 → x ∈ (s.job n).jobTallies →
    (∀ t ∈ (s.job n).jobTallies, t.step = k) →
    (∀ b ∈ other, b.tensor = x.tensor → b.digest ≠ x.digest ∨ b.elements ≠ x.elements ∨ b.poisoned ≠ x.poisoned) →
    exec (.tallyExchange n k other) s =
      .next (if s.pat.mirrorHalt then
        ((s.event Reg.GLB_CONTRACT_EVT 4).count Ctr.GLB_DIVERGE).setJob n { s.job n with halting := true }
      else (s.event Reg.GLB_CONTRACT_EVT 4).count Ctr.GLB_DIVERGE))

/-- What a boundary at `t` does (R99, R101, R103, R104, R495): the sequence counts it, its instant is kept, BEAT_OUT is due 100 ns
later, each slice's step starts or overruns, and the Carder closes its frame sets. -/
def boundaryAt (s : State) (t : Nat) : State :=
  let u := ((s.reach t).wr Reg.GLB_BEAT_SEQ (s.rd Reg.GLB_BEAT_SEQ + 1)).wr64 Reg.GLB_BEAT_TS_LO Reg.GLB_BEAT_TS_HI t
  let u := { u with beat := { s.beat with last := some t, riseDue := some (t + 100) } }
  ((List.range s.sliceCount).foldl State.beatStep u).feedBeat s.beat.last t
    (((List.range s.sliceCount).foldl State.beatStep u).rd Reg.GLB_BEAT_SEQ).toNat

/-- The beat under source EXTERNAL and INTERNAL (R92 to R99): every row of the table of R96, the glitch of R94, and BEAT_OUT. -/
def Obligations.BeatTransitions : Prop :=
  ∀ (s : State) (t : Nat), s.beat.on = true →
    let P := 1000 * s.rf Reg.GLB_BEAT_CFG 23 0
    let W := 125 * s.rf Reg.GLB_BEAT_CFG 23 0
    let E := s.beat.expect
    let st := s.rf Reg.GLB_BEAT_STATE 2 0
    (s.rf Reg.GLB_BEAT_CFG 30 30 = 1 →
      -- WAIT, and LOCKED inside the window: a boundary at the pulse, E one period later
      ((st = 2 ∨ (st = 3 ∧ E ≤ t + W ∧ t ≤ E + W)) →
        exec (.beatPulse t) s = .next ((boundaryAt s t).beatLock t)) ∧
      -- LOCKED before the window: ignored, EARLY
      (st = 3 → t + W < E →
        exec (.beatPulse t) s = .next ((s.event Reg.GLB_CONTRACT_EVT 0).count Ctr.GLB_BEAT_SLIP)) ∧
      -- LOCKED, no pulse by E + W: a boundary there, HOLDOVER, LATE
      (st = 3 → t = E + W →
        exec (.beatLate t) s =
          .next ((((boundaryAt s t).wr Reg.GLB_BEAT_STATE 4).event Reg.GLB_CONTRACT_EVT 1).count Ctr.GLB_BEAT_SLIP)) ∧
      (∀ b : Nat, s.beat.last = some b → st = 4 →
        -- HOLDOVER: a pulse half a period or more after the last boundary makes one, an earlier one does not; RELOCK
        (t ≤ b + P → P ≤ 2 * (t - b) →
          exec (.beatPulse t) s = .next (((boundaryAt s t).beatLock t).event Reg.GLB_CONTRACT_EVT 5)) ∧
        (t ≤ b + P → 2 * (t - b) < P →
          exec (.beatPulse t) s = .next ((s.beatLock t).event Reg.GLB_CONTRACT_EVT 5)) ∧
        -- HOLDOVER, no pulse by B + P: an internal boundary
        (t = b + P → exec (.holdoverBoundary t) s = .next (boundaryAt s t))) ∧
      -- a glitch is flagged and counted
      exec (.beatGlitch t) s = .next (((s.reach t).event Reg.GLB_CONTRACT_EVT 2).count Ctr.GLB_BEAT_GLITCH)) ∧
    -- source INTERNAL: a boundary at every multiple of P
    (s.rf Reg.GLB_BEAT_CFG 30 30 = 0 → t % P = 0 → s.beat.last ≠ some t →
      exec (.beatInternalBoundary t) s = .next (boundaryAt s t)) ∧
    -- BEAT_OUT rises when due and falls WIDTH_US later
    (s.beat.riseDue = some t →
      exec (.beatOutRise t) s =
        .next (({ s.reach t with beat := ⟨s.beat.on, s.beat.last, s.beat.expect, true, none,
          some (t + 1000 * s.rf Reg.GLB_BEAT_OUT_CFG 9 0)⟩ }).emit (.pin "BEAT_OUT" true))) ∧
    (s.beat.fallDue = some t →
      exec (.beatOutFall t) s =
        .next (({ s.reach t with beat := ⟨s.beat.on, s.beat.last, s.beat.expect, false, s.beat.riseDue, none⟩ }).emit
          (.pin "BEAT_OUT" false)))

/-- The test vectors of mix and gen (R111, R120), and the worked tally term of the FP32 value 1.0. -/
def Obligations.MixAndGenVectors : Prop :=
  mix 0 0 0 = 0xE227DEDBC8DE345A ∧ mix 1 2 0x3F800000 = 0xAB117901A66BACAA ∧
  gen 0 0 0 0 = 0xD843225D6663F90B ∧ gen 0x2A 1 3 5 = 0x770CDC60EC58C073

/-- mix is a permutation of the word for every tensor and index (R111, R115): two elements that differ in one word never give the
same term. -/
def Obligations.MixPermutes : Prop :=
  ∀ (id i v w : Nat), id < 2 ^ 24 → i < 2 ^ 40 → v < 2 ^ 64 → w < 2 ^ 64 → mix id i v = mix id i w → v = w

/-! ### Ply arithmetic (file 03) -/

/-- Addition of ply elements is commutative, and associative where no sum is a carry-out (R138, R163 to R165, R167): specials and
reserved special words included. -/
def Obligations.PlyAddition : Prop :=
  ∀ (k : Nat) (a b c : List Nat), a.length = k → b.length = k → c.length = k → (∀ w ∈ a ++ b ++ c, w < 2 ^ 64) →
    plyAdd k a b = plyAdd k b a ∧
    ((plyAdd k a b).2 = false → (plyAdd k b c).2 = false → (plyAdd k (plyAdd k a b).1 c).2 = false →
      (plyAdd k a (plyAdd k b c).1).2 = false →
      (plyAdd k (plyAdd k a b).1 c).1 = (plyAdd k a (plyAdd k b c).1).1)

/-- Conversion of a finite term that fits its gauge (R145, R158 to R160): every word lies from -2^39 to 2^39 - 1, and the words stand for
the term times 2^(40 k - G), rounded to the nearest integer with ties to even. -/
def Obligations.PlyTermWords : Prop :=
  ∀ (k g code scale bits : Nat) (neg : Bool) (m : Nat) (e : Int), 1 ≤ k → k ≤ 3 → 1 ≤ g → g ≤ 255 → code < 7 → scale < 256 →
    bits < 2 ^ fmtBits code → decodeElem code scale bits = .fin neg m e → expByte (.fin neg m e) ≤ g →
    (plyConvert k g (.fin neg m e)).length = k ∧
    (∀ w ∈ plyConvert k g (.fin neg m e), -(2 ^ 39) ≤ signed 64 w ∧ signed 64 w ≤ 2 ^ 39 - 1) ∧
    2 * (plyInt (plyConvert k g (.fin neg m e)) * 2 ^ (gaugeG g - 40 * k - e).toNat -
        (if neg then -1 else 1) * m * 2 ^ (e + 40 * k - gaugeG g).toNat).natAbs ≤ 2 ^ (gaugeG g - 40 * k - e).toNat

/-! ### Twist units and collectives (file 04) -/

/-- A rejected write of a Twist queue register at `a`: recorded as every rejected write, and in TWS_Qn_ERR (R925, R931). -/
def twsRejected (s : State) (n a st : Nat) : State := (rejectedAt s a st).wf (Reg.TWS_ERR n) 31 16 st

/-- The descriptor at the head of slice `n`'s ring, as the part fetches it (R197, R257). -/
def fetched (s : State) (n : Nat) : Coll :=
  let h := s.rf (Reg.TWS_DQ_HEAD n) 15 0
  let d := s.readDesc (s.addrOf (Reg.TWS_DQ_BASE_LO n) (Reg.TWS_DQ_BASE_HI n) + 128 * (h % 2 ^ s.rf (Reg.TWS_DQ_SIZE n) 3 0))
  { slice := n, idx := h, d := d, members := s.memberList d, owners := s.ownerList d, serial := s.tws.nextSerial }

/-- TWS_QUEUE_ENABLE, TWS_DQ_TAIL_WRITE, TWS_CQ_HEAD_WRITE, DESCRIPTOR_FETCH, DESCRIPTOR_START and DESCRIPTOR_ARM (R203, R220, R244,
R257, R258, R931). -/
def Obligations.TwistQueues : Prop :=
  -- the EN write, its checks in their order
  (∀ (s : State) (p n : Nat) (v : Word), exec (.twsQueueEnable (.pf0 p) n v) s = .next (
    let a := Reg.TWS_DQ_SIZE n
    let dq := s.addrOf (Reg.TWS_DQ_BASE_LO n) (Reg.TWS_DQ_BASE_HI n)
    let cq := s.addrOf (Reg.TWS_CQ_BASE_LO n) (Reg.TWS_CQ_BASE_HI n)
    let l := fieldOf v 3 0
    let m := s.rf (Reg.TWS_CQ_SIZE n) 3 0
    if s.hasSlice n = false then s
    else if s.rf a 31 31 = 1 then twsRejected s n a 0x0156
    else if fieldOf v 31 31 = 0 then s.wr a (v &&& 0x8000000F)
    else if (s.rd (Reg.TWS_DQ_BASE_LO n)).toNat % 128 ≠ 0 ∨ (s.rd (Reg.TWS_CQ_BASE_LO n)).toNat % 16 ≠ 0 ∨
      s.inSlice n dq (128 * 2 ^ l) = false ∨ s.inSlice n cq (16 * 2 ^ m) = false then twsRejected s n a 0x0154
    else if l < 4 ∨ 12 < l ∨ m < 4 ∨ 12 < m then twsRejected s n a 0x0156
    else s.wr a (v &&& 0x8000000F))) ∧
  -- the tail: refused when it runs more than the ring ahead of the head
  (∀ (s : State) (p n : Nat) (v : Word), exec (.twsDqTailWrite (.pf0 p) n v) s = .next (
    let t := fieldOf v 15 0
    if s.hasSlice n = false then s
    else if 2 ^ s.rf (Reg.TWS_DQ_SIZE n) 3 0 < (t + 65536 - s.rf (Reg.TWS_DQ_HEAD n) 15 0) % 65536 then
      (rejectedAt s (Reg.TWS_DQ_TAIL n) 0x0252).wr (Reg.TWS_ERR n) (BitVec.ofNat 32 (0x0252 * 65536 + t))
    else s.wr (Reg.TWS_DQ_TAIL n) (BitVec.ofNat 32 t))) ∧
  -- the completion ring's head: with no record held for the slice, the write is all
  (∀ (s : State) (p n : Nat) (v : Word), s.hasSlice n = true → s.tws.heldRecs.all (fun h => h.slice ≠ n) = true →
    exec (.twsCqHeadWrite (.pf0 p) n v) s = .next (s.wr (Reg.TWS_CQ_HEAD n) (v &&& 0xFFFF))) ∧
  -- a descriptor that passes every check of R259 is in flight, and HEAD moves on
  (∀ (s : State) (n : Nat), s.hasSlice n = true → s.rf (Reg.TWS_DQ_SIZE n) 31 31 = 1 → s.sliceState n = 0 →
    s.rf (Reg.TWS_DQ_HEAD n) 15 0 ≠ s.rf (Reg.TWS_DQ_TAIL n) 15 0 → s.twsInflight < 1024 →
    let c := fetched s n
    s.descStatus n (s.addrOf (Reg.TWS_DQ_BASE_LO n) (Reg.TWS_DQ_BASE_HI n) +
      128 * (s.rf (Reg.TWS_DQ_HEAD n) 15 0 % 2 ^ s.rf (Reg.TWS_DQ_SIZE n) 3 0)) c = 0 →
    let h := s.wf (Reg.TWS_DQ_HEAD n) 15 0 (s.rf (Reg.TWS_DQ_HEAD n) 15 0 + 1)
    let t := { h with tws := { s.tws with nextSerial := s.tws.nextSerial + 1, colls := s.tws.colls ++ [c],
                                          past := s.tws.past.filter (fun x => x.d.collId ≠ c.d.collId) } }
    t.optCollOk c = true → exec (.descriptorFetch n) s = .next t) ∧
  -- a descriptor that starts: a gather sends what it owns, a reduction with no local source clears its slots and done map
  (∀ (s : State) (id : Nat) (c : Coll), s.coll? id = some c → c.started = false → c.failed = false → c.held = false →
    (s.job c.slice).memb < 2 → c.d.reduces = true → c.d.srcCnt = 0 → (∀ u < c.d.units, (c.expected c.d.self u).2 ≠ 0) →
    let t := (s.clearRegion c.d).setColl { c with started := true, localTodo := [] }
    (c.d.armEn = false → exec (.descriptorStart id) s = .next t) ∧
    (c.d.armEn = true → s.ctrReached (s.ctrIdx c.slice c.d.armCtr) c.d.armVal = true → exec (.descriptorArm id) s = .next t) ∧
    (c.d.armEn = true → exec (.descriptorStart id) s = .next s))

/-- R220: the start of a descriptor leaves slot states, bitmaps and done map of its accumulator region 0, and every other byte of memory
as it was. -/
def Obligations.RegionCleared : Prop :=
  ∀ (s : State) (d : CollDesc) (a : Nat), s.memoryGood = true →
    (s.clearRegion d).byte a =
      if d.accAddr ≤ a ∧ a < d.accAddr + d.accLen ∧
        (d.slots * d.slotLen ≤ a - d.accAddr ∨ (a - d.accAddr) % d.slotLen < 64 ∨ 64 + d.bodyLen ≤ (a - d.accAddr) % d.slotLen)
      then 0 else s.byte a

/-- A record piece answered: the ACK or NAK of R210 to the part and endpoint that formed it. -/
def acked (s : State) (r : TwistRec) (code : Nat) : State := s.emit (.twistAck r.srcPart r.srcEp (ackKey r) code)

/-- A whole record piece of type `type` meets the collective `c`, which is in flight, started and not ended (R210, R221). -/
def meets (s : State) (r : TwistRec) (type : Nat) (c : Coll) : Bool :=
  s.coll? r.collId = some c && r.epoch = c.d.epoch && r.type = type && r.piece < r.pieces && c.started && !c.failed && !c.held

/-- A reducing record, the command that brings it, and the unit it is for (R205, R247, R249). -/
def reducingRow (c : Coll) (r : TwistRec) : Option (Instr × Nat) :=
  if r.type = 1 ∧ c.d.reduces then some (.contribReceive r, r.block)
  else if r.type = 2 ∧ c.d.prepass then some (.gaugeBytesReceive r, r.block / 256)
  else if r.type = 6 ∧ c.d.barrier then some (.tokenReceive r, 0)
  else none

/-- The command that brings a record of type `t` (R205). -/
def recordRow (t : Nat) (r : TwistRec) : Instr :=
  match t with
  | 1 => .contribReceive r | 2 => .gaugeBytesReceive r | 3 => .resultReceive r | 4 => .redoReceive r | 5 => .finalReceive r
  | 6 => .tokenReceive r | 7 => .releaseReceive r | _ => .gnoteReceive r

/-- What every record command does before it looks at its type (R205, R210, R221): reserved types, former epochs, and collectives
that have not started. -/
def Obligations.TwistArrival : Prop :=
  (∀ (s : State) (r : TwistRec) (t : Nat), r.type = 0 ∨ 9 ≤ r.type →
    exec (recordRow t r) s = .next (acked ((s.count Ctr.TWS_BAD_REC).event Reg.TWS_EVT 5) r 0)) ∧
  (∀ (s : State) (r : TwistRec) (c : Coll), 1 ≤ r.type → r.type ≤ 8 → r.piece < r.pieces → s.coll? r.collId = some c →
    (r.epoch ≠ c.d.epoch → exec (recordRow r.type r) s = .next (acked (s.count Ctr.TWS_STALE) r 0)) ∧
    (r.epoch = c.d.epoch → c.failed = false → c.held = false → c.started = false →
      exec (recordRow r.type r) s = .next ((acked s r 1).count Ctr.TWS_NAK_NR)))

/-- CONTRIB_RECEIVE, GAUGE_BYTES_RECEIVE and TOKEN_RECEIVE (R221 to R223, R247, R249, R256): done blocks, busy slots, older and later
rounds, duplicates and conflicts; any other piece is added. Each is answered, and then the local images that now fit are added. -/
def Obligations.ReducingRecords : Prop :=
  ∀ (s : State) (r : TwistRec) (c : Coll) (i : Instr) (u : Nat), meets s r r.type c = true → reducingRow c r = some (i, u) → u < c.d.units →
    let a := c.d.slotAddr u
    let bits := spanMask r.spanLo r.spanCnt c.d.total
    let refused := (acked (s.settleLocal r.collId) r 1).count Ctr.TWS_NAK_NR
    (s.unitDone c.d u = true → exec i s = .next (
      if s.doneRound c.d u < r.round then refused
      else if r.round < s.doneRound c.d u then acked ((s.count Ctr.TWS_STALE).settleLocal r.collId) r 0
      else acked ((s.count Ctr.TWS_DUP).settleLocal r.collId) r 0)) ∧
    (s.unitDone c.d u = false → s.slotBusy a = true → s.slotBlock a ≠ u → exec i s = .next refused) ∧
    -- the slot is free, or holds the unit
    (s.unitDone c.d u = false → s.slotBusy a = false ∨ s.slotBlock a = u → r.pieces = 1 → s.slotBusy a = false ∨ s.pieceMask c r a = 0 →
      let round := if s.slotBusy a then s.slotRound a else 0
      let bm := if s.slotBusy a then s.bitmap c.d a else 0
      exec i s = .next (
        if r.round < round then acked ((s.count Ctr.TWS_STALE).settleLocal r.collId) r 0
        else if round < r.round then refused
        else if bm &&& bits = bits then acked ((s.count Ctr.TWS_DUP).settleLocal r.collId) r 0
        else if bm &&& bits = 0 ∧ s.spanExpected c r u false = true then acked ((s.acceptRecord c r u).settleLocal r.collId) r 0
        else acked ((s.conflict c u).settleLocal r.collId) r 0))

/-- A stitch conflict of a reduction (R256) is counted, flagged, poisons its block and ends the descriptor with 0x0251; a reduction's
term that fits its gauge adds to its elements word by word (R138, R153, R165), and one that does not sets MISS and adds nothing. -/
def Obligations.ConflictAndMiss : Prop :=
  (∀ (s : State) (c : Coll) (u : Nat), u < c.d.units → c.d.reduces = true →
    let a := c.d.slotAddr u
    let e := (s.count Ctr.TWS_CONFLICT).event Reg.TWS_EVT 0
    s.slotHolds a u = true → s.conflict c u = (e.poisonSlot c.d u).failColl c.serial 0x0251) ∧
  (∀ (s : State) (c : Coll) (r : TwistRec), c.d.reduces = true → plyWordsOf r.format = 0 →
    let a := c.d.slotAddr r.block
    let obs := recObserved r
    let u := (s.writeLe (a + 5) 1 (max obs (s.slotObs a))).slotHeader a obs (8 * bit r.poison + 16 * bit r.special)
    u.slotRound a = 0 → r.miss = true ∨ u.slotGauge a < obs ∨ u.slotMiss a = true →
    (s.combine c r r.block).s = (u.slotFlag a 2 true).slotHeader a 0 4 ∧ (s.combine c r r.block).status = 0)

/-- RESULT_RECEIVE, REDO_RECEIVE, REDO_PENDING_START, FINAL_RECEIVE, GNOTE_RECEIVE and RELEASE_RECEIVE (R195, R233, R235, R239, R240,
R242, R248, R250). -/
def Obligations.OwnerRecords : Prop :=
  -- RESULT: written and delivered once, and then a duplicate; a gauge group's goes into the gauge table, 0x00 as 0x01
  (∀ (s : State) (r : TwistRec) (c : Coll), meets s r 3 c = true → r.piece = 0 → r.pieces = 1 → c.openRes = [] →
    c.d.delivers = true ∨ c.d.prepass = true →
    exec (.resultReceive r) s = .next (acked (if c.written.contains r.block = true then s.count Ctr.TWS_DUP
      else ((if c.d.prepass then s.writeB (c.d.gaugeAddr + r.block) (r.payload.map (fun b => if b = 0 then 1 else b))
        else s.deliverResult c r).setColl { c with written := c.written ++ [r.block] }).count Ctr.TWS_REC_IN) r 0)) ∧
  -- REDO: taken at a free slot, else kept pending up to 64; one that waits is taken when its slot is free
  (∀ (s : State) (r : TwistRec) (c : Coll), meets s r 4 c = true → c.d.reduces = true → r.block < c.d.units →
    s.redoTaken c r.block = false → c.redoPend.any (fun e => e.1 = r.block) = false → (c.expected c.d.self r.block).2 ≠ 0 →
    exec (.redoReceive r) s = .next (
      if s.slotBusy (c.d.slotAddr r.block) = true ∧ s.slotBlock (c.d.slotAddr r.block) ≠ r.block then
        (if c.redoPend.length < 64 then
          acked ((s.setColl { c with redoPend := c.redoPend ++ [(r.block, r.gauge)] }).count Ctr.TWS_REC_IN) r 0
        else (acked s r 1).count Ctr.TWS_NAK_NR)
      else acked (((s.applyRedo c r.block r.gauge).count Ctr.TWS_REC_IN).settleLocal r.collId) r 0)) ∧
  (∀ (s : State) (id b g : Nat) (c : Coll), s.coll? id = some c → c.redoPend.find? (fun e => e.1 = b) = some (b, g) →
    exec (.redoPendingStart id b) s = .next (if s.slotBusy (c.d.slotAddr b) = true ∧ s.slotBlock (c.d.slotAddr b) ≠ b then s
      else (s.applyRedo c b g).settleLocal id)) ∧
  -- FINAL: its owner is noted
  (∀ (s : State) (r : TwistRec) (c : Coll) (m : Nat), meets s r 5 c = true → m < c.members.length →
    c.members.findIdx (fun x => x.part = r.srcPart) = m →
    exec (.finalReceive r) s = .next (acked ((s.setColl
      { c with finals := if c.finals.contains m then c.finals else c.finals ++ [m] }).count Ctr.TWS_REC_IN) r 0)) ∧
  -- GNOTE: the bytes go to the pending table and are due for the history
  (∀ (s : State) (r : TwistRec) (c : Coll), meets s r 8 c = true → c.d.reduces = true → c.d.forecast = true →
    let p := c.d.gaugeAddr + c.d.gaugeLen + r.block
    let w := s.writeB p r.payload
    let due := (List.range r.payload.length).map (fun i => (c.slice, c.d.step, p + i, c.d.gaugeAddr + r.block + i))
    exec (.gnoteReceive r) s =
      .next (acked (({ w with tws := { w.tws with noted := w.tws.noted ++ due } }).count Ctr.TWS_REC_IN) r 0)) ∧
  -- RELEASE of a barrier without tallies: the member is released
  (∀ (s : State) (r : TwistRec) (c : Coll), meets s r 7 c = true → r.pieces = 1 → c.d.barrier = true → c.d.tally = false →
    c.released = false → c.openRes = [] → r.len = 0 → c.entries = [] →
    exec (.releaseReceive r) s =
      .next (acked ((s.count Ctr.TWS_REC_IN).setColl { c with openRes := [(0, 1)], released := true }) r 0))

/-- TWIST_ACK_RECEIVE, TWIST_RETX_TIMEOUT, COLLECTIVE_COMPLETE and STEP_END_COMPLETE (R211 to R213, R242, R245, R927). -/
def Obligations.TwistDelivery : Prop :=
  -- an answer from a peer restarts the count of every piece kept for it; an ACK drops its piece
  (∀ (s : State) (peer code : Nat) (key : AckKey), s.coll? key.collId = none →
    let ks := s.tws.kept.map (fun k => if k.peer = peer then { k with count := 0 } else k)
    let left := ks.filter (fun k => !(k.peer = peer && k.key = key))
    exec (.twistAckReceive peer key code) s =
      .next { s with tws := { s.tws with kept := if code = 0 then left else ks } }) ∧
  -- a timeout resends the piece with its timeout doubled up to 4 ms; at the retry limit the descriptor ends and the peer is reported
  (∀ (s : State) (k : Kept), s.tws.kept = [k] →
    (k.count + 1 < s.rf Reg.TWS_CTL 3 0 →
      exec (.twistRetxTimeout k.peer k.key) s =
        .next ((({ s with tws := { s.tws with kept := [{ k with count := k.count + 1, timeout := min (2 * k.timeout) 4000000 }] } }).emit
          (.twist k.peer k.msg)).count Ctr.TWS_RETX)) ∧
    (∀ c : Coll, s.rf Reg.TWS_CTL 3 0 ≤ k.count + 1 → s.coll? k.key.collId = some c → c.d.epoch = k.key.epoch →
      exec (.twistRetxTimeout k.peer k.key) s =
        .next ((({ s with tws := { s.tws with kept := [], reported := s.tws.reported ++ [k.peer] } }).event Reg.TWS_EVT 2).failColl
          c.serial 0x0650))) ∧
  -- a complete descriptor: COMPLETE to its endpoints, its record with its phase, TAIL and ERR; then it has left the part
  (∀ (s : State) (id : Nat) (c : Coll), s.coll? id = some c → c.complete = true → c.d.stepEnd = false → c.failed = false → c.held = false →
    s.cqFull c.slice = false → s.tws.heldRecs = [] → c.d.doneEn = false → c.status = 0 →
    let t := s.rf (Reg.TWS_CQ_TAIL c.slice) 15 0
    let l := s.rf (Reg.TWS_CQ_SIZE c.slice) 3 0
    let bytes := leBytes 2 c.d.collId ++ leBytes 2 0 ++ leBytes 4 c.d.user ++ leBytes 4 c.blocksField ++ leBytes 2 (min c.redo 0xFFFF) ++
      [0] ++ leBytes 1 (if t / 2 ^ l % 2 = 0 then 1 else 0)
    let u := ((c.d.eps.foldl (fun s e => s.emit (.notice e 3 c.d.collId c.d.epoch 0 0)) s).writeB
      (s.addrOf (Reg.TWS_CQ_BASE_LO c.slice) (Reg.TWS_CQ_BASE_HI c.slice) + 16 * (t % 2 ^ l)) bytes).wf (Reg.TWS_CQ_TAIL c.slice) 15 0 (t + 1)
    s.tws.colls = [c] →
    exec (.collectiveComplete id) s = .next { u with tws := { s.tws with colls := [], past := s.tws.past ++ [c] } }) ∧
  -- STEP_END: it waits for its step and for every earlier descriptor of the step; then it completes, and the step with it
  (∀ (s : State) (id : Nat) (c : Coll), s.coll? id = some c → c.d.stepEnd = true → c.held = false → (c.complete || c.failed) = true →
    (s.tws.colls.any (fun x => x.slice = c.slice && x.d.step = c.d.step && x.serial < c.serial) = true ∨ s.stepCtr c.slice ≠ c.d.step →
      exec (.stepEndComplete id) s = .next s) ∧
    (s.tws.colls.any (fun x => x.slice = c.slice && x.d.step = c.d.step && x.serial < c.serial) = false → s.stepCtr c.slice = c.d.step →
      let lost := s.tws.failed.any (fun f => f.1 = c.slice && f.2.1 = c.d.step && f.2.2 < c.serial)
      let st := if c.status ≠ 0 then c.status else if lost then 0x0258 else 0
      let t := s.finishColl c st false
      exec (.stepEndComplete id) s = .next (if st = 0 ∧ t.coll? id = none then t.stepDone c.slice else t)))

/-! ### Rows (file 05) -/

/-- The row command of OP `op` (R287). -/
def rowRow (op : Nat) (via : Via) (n : Nat) : Instr :=
  let v : Word := BitVec.ofNat 32 (0x80000000 + op)
  match op with
  | 1 => .rowLoad via n v | 2 => .rowStart via n v | 3 => .rowPause via n v | 4 => .rowResume via n v
  | 5 => .rowSave via n v | 6 => .rowRestore via n v | 7 => .rowStop via n v | _ => .rowRetire via n v

/-- `s` once the command word of OP `op` is written to set `n`. -/
def rowAsked (s : State) (n op : Nat) : State := s.wr (Reg.NDL_CMD n) (BitVec.ofNat 32 op)

/-- Rows outside `rows` stand in `t` as they stood in `s`: state, kind, slot, program, registers, scratch. -/
def otherRows (s t : State) (rows : List Nat) : Bool :=
  (List.range 128).all (fun l => rows.contains l || (t.rd (Reg.NDL_ROW l) == s.rd (Reg.NDL_ROW l) && t.row l == s.row l))

/-- Row `l` with the program it holds and nothing else. -/
def Sys2Proof.Machine.State.stoppedRow (s : State) (l : Nat) : Row :=
  let r := s.row l
  { prog := r.prog, len := r.len, addr := r.addr, digest := r.digest }

/-- ROW_START, ROW_PAUSE, ROW_RESUME and ROW_STOP that pass their checks (R287, R289, R296, R299, R327, R833): every row of the mask moves,
and no other; memory and counters stay. More than 16 rows of START or RESUME wait for their waves. A row command of any kind that fails a
check of R290 changes no row: only the status and the first row that raised it are recorded. -/
def Obligations.RowsMove : Prop :=
  -- PAUSE: the rows are PAUSING under the command, which stays in progress
  (∀ (s : State) (p n : Nat), n < 4 → s.hasSlice n = true → (rowAsked s n 3).rowStatus n 3 false (s.maskRows n) = (0, 0) →
    let rows := s.maskRows n
    ∃ t : State, exec (.rowPause (.pf0 p) n 0x80000003) s = .next t ∧
      (∀ l ∈ rows, t.rowState l = 5 ∧ t.row l = { s.row l with owner := some n }) ∧ otherRows s t rows = true ∧
      t.rd (Reg.NDL_STAT n) = 0x80000000 ∧ t.rowCmd n = some { op := 3, rows := rows, targets := rows } ∧
      t.mem = s.mem ∧ t.tags = s.tags ∧ t.ctrs = s.ctrs) ∧
  -- START: every needle starts at the entry point with g1, g2 and g31 and the header's segments (R327)
  (∀ (s : State) (p n : Nat), n < 4 → s.hasSlice n = true → (rowAsked s n 2).rowStatus n 2 false (s.maskRows n) = (0, 0) →
    (s.maskRows n).length ≤ 16 →
    let rows := s.maskRows n
    ∃ t : State, exec (.rowStart (.pf0 p) n 0x80000002) s = .next t ∧
      (∀ l ∈ rows, t.rowState l = 4 ∧ (t.row l).prog = (s.row l).prog ∧ (t.row l).owner = none ∧ (t.row l).tileLive = false ∧
        (∀ i ∈ List.range 16, t.needle l i = startNeedle (s.row l).prog l i)) ∧ otherRows s t rows = true ∧
      t.rd (Reg.NDL_STAT n) = 0 ∧ t.rowCmd n = none ∧ t.mem = s.mem ∧ t.tags = s.tags ∧ t.ctrs = s.ctrs) ∧
  -- RESUME: the rows run on from where they stand
  (∀ (s : State) (p n : Nat), n < 4 → s.hasSlice n = true → (rowAsked s n 4).rowStatus n 4 false (s.maskRows n) = (0, 0) →
    (s.maskRows n).length ≤ 16 →
    let rows := s.maskRows n
    ∃ t : State, exec (.rowResume (.pf0 p) n 0x80000004) s = .next t ∧
      (∀ l ∈ rows, t.rowState l = 4 ∧ t.row l = { s.row l with owner := none }) ∧ otherRows s t rows = true ∧
      t.rd (Reg.NDL_STAT n) = 0 ∧ t.rowCmd n = none ∧ t.mem = s.mem ∧ t.tags = s.tags ∧ t.ctrs = s.ctrs) ∧
  -- STOP: the rows are LOADED with their programs, their registers and scratch undefined
  (∀ (s : State) (p n : Nat), n < 4 → s.hasSlice n = true → (rowAsked s n 7).rowStatus n 7 false (s.maskRows n) = (0, 0) →
    let rows := s.maskRows n
    ∃ t : State, exec (.rowStop (.pf0 p) n 0x80000007) s = .next t ∧
      (∀ l ∈ rows, t.rowState l = 3 ∧ t.row l = { s.stoppedRow l with undef := true }) ∧ otherRows s t rows = true ∧
      t.rd (Reg.NDL_STAT n) = 0 ∧ t.rowCmd n = none ∧ t.mem = s.mem ∧ t.tags = s.tags ∧ t.ctrs = s.ctrs) ∧
  -- more than 16 rows of START or RESUME wait; a wave, no sooner than the gap after the last, takes the 16 lowest
  (∀ (s : State) (p n op : Nat), n < 4 → s.hasSlice n = true → op = 2 ∨ op = 4 →
    (rowAsked s n op).rowStatus n op false (s.maskRows n) = (0, 0) → 16 < (s.maskRows n).length →
    let rows := s.maskRows n
    ∃ t : State, exec (rowRow op (.pf0 p) n) s = .next t ∧
      (∀ l ∈ rows, t.rowState l = s.rowState l ∧ t.row l = { s.row l with owner := some n }) ∧ otherRows s t rows = true ∧
      t.rd (Reg.NDL_STAT n) = 0x80000000 ∧ t.rowCmd n = some { op := op, rows := rows, targets := rows }) ∧
  (∀ (s : State) (t n op : Nat) (rows : List Nat), n < 4 → op = 2 ∨ op = 4 →
    s.rowCmd n = some { op := op, rows := rows, targets := rows } → rows = (List.range 128).filter (fun l => (s.row l).owner.isSome) →
    (∀ l ∈ rows, (s.row l).owner = some n) → s.lastWave.all (fun w => w + 1000 * s.rf Reg.CAST_CTL 23 16 ≤ t) = true →
    rows ≠ [] →
    exec (.rowWave t) s = .next ((rows.take 16).foldl (fun u l => u.releaseRow n op l) { s.reach t with lastWave := some t })) ∧
  (∀ (s : State) (t w : Nat), s.lastWave = some w → t < w + 1000 * s.rf Reg.CAST_CTL 23 16 → exec (.rowWave t) s = .next s) ∧
  -- a row command that fails a check
  (∀ (s : State) (p n op : Nat), n < 4 → s.hasSlice n = true → 1 ≤ op → op ≤ 8 →
    let u := rowAsked s n op
    let st := u.rowStatus n op false (s.maskRows n)
    st.1 ≠ 0 →
    exec (rowRow op (.pf0 p) n) s =
      .next (u.wr (Reg.NDL_STAT n) (setField (setField (s.rd (Reg.NDL_STAT n)) 22 16 st.2) 15 0 st.1)))

/-- ROW_LOAD, LOAD_PASS_END, REPAIR_REQUEST and ROW_DIGEST_CHECK (R279 to R285). -/
def Obligations.RowLoading : Prop :=
  -- LOAD: its rows are LOADING with nothing received; the set keeps image and expected digest
  (∀ (s : State) (p n : Nat), n < 4 → s.hasSlice n = true → (rowAsked s n 1).rowStatus n 1 false (s.maskRows n) = (0, 0) →
    let rows := s.maskRows n
    ∃ t : State, exec (.rowLoad (.pf0 p) n 0x80000001) s = .next t ∧
      (∀ l ∈ rows, t.rowState l = 2 ∧ t.row l = { owner := some n, len := s.ndlLen n, addr := s.ndlAddr n }) ∧ otherRows s t rows = true ∧
      t.rd (Reg.NDL_STAT n) = 0x80000000 ∧
      t.rowCmd n = some ⟨1, rows, rows, 0, 0, imgOf (s.bytes (s.ndlAddr n) (s.ndlLen n)) 0, s.ndlLen n, s.bytes (s.ndlDig n) 32⟩ ∧ t.mem = s.mem ∧ t.ctrs = s.ctrs) ∧
  -- the pass ends for the one target row: it holds every chunk but the bad ones, and asks again when one is missing
  (∀ (s : State) (n l : Nat) (bad : List Nat) (c : RowCmd), s.rowCmd n = some c → c.op = 1 → c.rows = [l] → (s.row l).rounds = 0 →
    (s.row l).chunks = [] → (s.row l).prog = [] →
    let k := (List.range ((s.row l).len / 1024 + bit ((s.row l).len % 1024 ≠ 0))).filter (fun j => !bad.contains j)
    ∃ t : State, exec (.loadPassEnd n [(l, bad)]) s = .next t ∧ (t.row l).chunks = k ∧
      (∀ o ∈ List.range (s.row l).len, fetch 0 (t.row l).prog o = if k.contains (o / 1024) then fetch 0 c.image o else 0) ∧
      (t.row l).rounds = bit (bad.any (fun j => 1024 * j < (s.row l).len)) ∧
      t.ctr Ctr.NDL_REPAIR = (if bad.any (fun j => 1024 * j < (s.row l).len) then (s.ctr Ctr.NDL_REPAIR).bump else s.ctr Ctr.NDL_REPAIR)) ∧
  -- a repair that misses again takes another round, and after four the row is in FAULT
  (∀ (s : State) (n l : Nat) (bad : List Nat) (c : RowCmd), s.rowState l = 2 → (s.row l).owner = some n → s.rowCmd n = some c →
    1 ≤ (s.row l).rounds → (s.row l).complete = false → (∀ j ∈ List.range (s.row l).chunkCount, (s.row l).chunks.contains j ∨ bad.contains j) →
    exec (.repairRequest l bad) s = .next (if 4 ≤ (s.row l).rounds then s.rowFault l 0x82
      else ((s.setRow l { s.row l with rounds := (s.row l).rounds + 1 }).count Ctr.NDL_REPAIR).event Reg.NDL_EVT 3)) ∧
  -- the digest: a match loads the row, a mismatch clears the bitmap and asks for the whole image again
  (∀ (s : State) (n l : Nat) (c : RowCmd), s.rowState l = 2 → (s.row l).owner = some n → s.rowCmd n = some c → (s.row l).complete = true →
    let h := sha3x256 (imgBytes (s.row l).prog (s.row l).len)
    exec (.rowDigestCheck l) s = .next (if h = c.digest then
        (((s.setRow l { s.row l with digest := h, chunks := [], rounds := 0 }).setRowState l 3).count Ctr.NDL_LOAD).rowDone l 0
      else if 4 ≤ (s.row l).rounds then (s.setRow l { s.row l with chunks := [] }).rowFault l 0x82
      else ((s.setRow l { s.row l with chunks := [], rounds := (s.row l).rounds + 1 }).count Ctr.NDL_REPAIR).event Reg.NDL_EVT 3))

/-- ROW_SAVE, ROW_RESTORE and SLICE_RESET (R300 to R302, R315, R505, R752). -/
def Obligations.RowImages : Prop :=
  -- SAVE: the images of the PAUSED rows are written, and the rows are IDLE with nothing left in them
  (∀ (s : State) (p n l : Nat), n < 4 → s.hasSlice n = true → (rowAsked s n 5).rowStatus n 5 false (s.maskRows n) = (0, 0) →
    s.maskRows n = [l] →
    ∃ t : State, exec (.rowSave (.pf0 p) n 0x80000005) s = .next t ∧ t.rowState l = 1 ∧ t.row l = {} ∧ otherRows s t [l] = true ∧
      t.mem = (s.writeMarked (s.ctxSlot n l) (s.ctxImage l)).mem ∧ t.tags = (s.writeMarked (s.ctxSlot n l) (s.ctxImage l)).tags ∧
      t.rd (Reg.NDL_STAT n) = 0 ∧ t.rowCmd n = none) ∧
  -- RESTORE: program, kind and digest are checked before any register is loaded; then the row is PAUSED at the image's safe point
  (∀ (s : State) (p n l : Nat), n < 4 → s.hasSlice n = true → s.maskRows n = [l] → s.rowSlice l = n →
    let u := rowAsked s n 6
    let st := u.rowStatus n 6 false [l]
    ∃ t : State, exec (.rowRestore (.pf0 p) n 0x80000006) s = .next t ∧
      (st.1 ≠ 0 → t = u.wr (Reg.NDL_STAT n) (setField (setField (s.rd (Reg.NDL_STAT n)) 22 16 st.2) 15 0 st.1)) ∧
      (st.1 = 0 → t.rowState l = 6 ∧ (t.row l).prog = (s.row l).prog ∧ (t.row l).safe = s.le (s.ctxSlot n l + 12) 4 ∧
        (t.row l).owner = none ∧ (∀ i ∈ List.range 16, t.needle l i = s.ctxNeedle (s.ctxSlot n l) i) ∧ otherRows s t [l] = true ∧
        t.mem = s.mem ∧ t.rd (Reg.NDL_STAT n) = 0)) ∧
  -- RESET: the slice's rows are IDLE and empty, its job and collectives are gone, its memory is wiped, and it is RESETTING
  (∀ (s : State) (p n : Nat), n < 4 → s.hasSlice n = true → s.rf (Reg.HOST_S_STAT n) 3 0 ≤ 6 →
    ∃ t : State, exec (.sliceReset (.pf0 p) n 0x80000001) s = .next t ∧ t.sliceState n = 6 ∧ t.rf (Reg.HOST_S_STAT n) 31 31 = 1 ∧
      (∀ l ∈ s.sliceRows n, t.rowState l = (if s.rowState l = 0 then 0 else 1) ∧ (s.rowState l ≠ 0 → t.row l = {})) ∧
      t.job n = {} ∧ t.tws.colls = s.tws.colls.filter (fun c => c.slice ≠ n) ∧
      t.mem = s.mem.filter (fun e => s.ownerOf e.1 ≠ some n) ∧ t.tags = s.tags.filter (fun e => s.ownerOf (8 * e.1) ≠ some n))

/-- PAUSE_TIMEOUT, ROW_HANG, PBUF_UE, ROW_FAULT_RECOVERY, ROW_RETIRE and PACE_UPDATE (R264, R277, R296, R298, R305, R306, R311 to R314). -/
def Obligations.RowFaults : Prop :=
  -- a pause that times out is withdrawn: the row runs on, and the command ends with 0x0262
  (∀ (s : State) (l n : Nat), s.rowState l = 5 → (s.row l).owner = some n → n < 5 → s.partState ≠ 3 → s.sliceState (s.rowSlice l) ≠ 1 →
    exec (.pauseTimeout l) s = .next ((((s.count Ctr.NDL_SAFE_TO).event Reg.NDL_EVT 2).setRowState l 4).rowDone l 0x0262)) ∧
  (∀ (s : State) (l : Nat), s.rowState l ≠ 5 → exec (.pauseTimeout l) s = .next s) ∧
  -- a hang, and an uncorrected program buffer error: FAULT, one record with the cause, and the command on the row ends
  (∀ (s : State) (l i : Nat), s.rowState l = 4 ∨ s.rowState l = 5 → i < 16 → (s.needle l i).wait = .run →
    exec (.rowHang l) s =
      .next (((((s.setRowState l 0xA).writeTrap l 0 true 0x80 0 0).count Ctr.NDL_FAULT).event Reg.NDL_EVT 1).rowDone l 0x0561)) ∧
  (∀ (s : State) (l : Nat), exec (.pbufUe l) s = .next (
    if s.rowState l = 0 ∨ s.rowState l = 1 ∨ s.rowState l = 0xA then s
    else ((((s.setRowState l 0xA).writeTrap l 0 true 0x81 0 0).count Ctr.NDL_FAULT).event Reg.NDL_EVT 1).rowDone l 0x0561)) ∧
  -- a faulted row that serves a job is retired; with no spare slot the part withdraws, else the membership change is reported
  (∀ (s : State) (l : Nat), exec (.rowFaultRecovery l) s = .next (
    if s.rowState l = 0xA ∧ (s.job (s.rowSlice l)).isOpen = true ∧ s.rowKind l ≠ 0 then
      (if (s.retireRow l).2 then (s.retireRow l).1.rowMembership (s.rowSlice l) else (s.retireRow l).1.withdraw (s.rowSlice l))
    else s)) ∧
  -- RETIRE: the slot enters the ledger and the row moves to the lowest working slot that no row uses, IDLE and empty
  (∀ (s : State) (p n l k : Nat), n < 4 → s.hasSlice n = true → (rowAsked s n 8).rowStatus n 8 false (s.maskRows n) = (0, 0) →
    s.maskRows n = [l] → s.ledger.length < 4096 → k ≤ 8 →
    (∀ j ∈ List.range 9, j < k → s.slotDead (rowDie l) (l % 32 / 8) j = true ∨ (s.usedSlots (rowDie l) (l % 32 / 8)).contains j = true) →
    s.slotDead (rowDie l) (l % 32 / 8) k = false → (s.usedSlots (rowDie l) (l % 32 / 8)).contains k = false →
    ∃ t : State, exec (.rowRetire (.pf0 p) n 0x80000008) s = .next t ∧ t.rowState l = 1 ∧ t.rowSlot l = k ∧ t.row l = {} ∧
      t.rf (Reg.NDL_MAP (l / 8)) (4 * (l % 8) + 3) (4 * (l % 8)) = k ∧ otherRows s t [l] = true ∧
      t.ledger = s.ledger ++ [⟨1, rowDie l, l % 32 / 8, s.rowSlot l, 0, (s.rd Reg.CAST_BOOT).toNat, 2⟩] ∧
      t.ctr Ctr.NDL_RETIRE = (s.ctr Ctr.NDL_RETIRE).bump ∧ t.rd (Reg.NDL_STAT n) = 0) ∧
  (∀ (s : State) (d x : Nat), d < 4 → exec (.paceUpdate d x) s = .next (s.wf (Reg.NDL_PACE d) 15 0 x))

/-! ### Needle instructions (file 06) -/

/-- The command in which needle `i` of row `l` executes an instruction of mnemonic `mn`. -/
def needleInstr (mn : Mn) (l i : Nat) (ecc : Ecc) : Instr :=
  match mn with
  | .aluAdd => .aluAdd l i ecc | .aluSub => .aluSub l i ecc | .aluAnd => .aluAnd l i ecc | .aluOr => .aluOr l i ecc
  | .aluXor => .aluXor l i ecc | .aluShl => .aluShl l i ecc | .aluShr => .aluShr l i ecc | .aluSar => .aluSar l i ecc
  | .mul => .mul l i ecc | .mulhu => .mulhu l i ecc | .mulhs => .mulhs l i ecc | .mins => .mins l i ecc | .maxs => .maxs l i ecc
  | .minu => .minu l i ecc | .maxu => .maxu l i ecc | .cmp => .cmp l i ecc | .mov => .mov l i ecc | .popc => .popc l i ecc
  | .clz => .clz l i ecc | .addi => .addi l i ecc | .cmpi => .cmpi l i ecc | .movz => .movz l i ecc | .movk => .movk l i ecc
  | .andi => .andi l i ecc | .ori => .ori l i ecc | .xori => .xori l i ecc | .shli => .shli l i ecc | .shri => .shri l i ecc
  | .sari => .sari l i ecc | .ldb => .ldb l i ecc | .ldh => .ldh l i ecc | .ldw => .ldw l i ecc | .ldd => .ldd l i ecc
  | .stb => .stb l i ecc | .sth => .sth l i ecc | .stw => .stw l i ecc | .std => .std l i ecc | .vld => .vld l i ecc
  | .vst => .vst l i ecc | .pld => .pld l i ecc | .pst => .pst l i ecc | .vadd => .vadd l i ecc | .vsub => .vsub l i ecc
  | .vmul => .vmul l i ecc | .vmax => .vmax l i ecc | .vmin => .vmin l i ecc | .vabs => .vabs l i ecc | .vneg => .vneg l i ecc
  | .vmov => .vmov l i ecc | .vand => .vand l i ecc | .vor => .vor l i ecc | .vxor => .vxor l i ecc | .vshl => .vshl l i ecc
  | .vshr => .vshr l i ecc | .vsar => .vsar l i ecc | .bCc => .bCc l i ecc | .call => .call l i ecc | .rep => .rep l i ecc
  | .repn => .repn l i ecc | .chkb => .chkb l i ecc | .sset => .sset l i ecc | .sget => .sget l i ecc | .draw => .draw l i ecc
  | .drawe => .drawe l i ecc | .sdef => .sdef l i ecc | .srd => .srd l i ecc | .vfma => .vfma l i ecc | .vcmp => .vcmp l i ecc
  | .vsel => .vsel l i ecc | .vcvt => .vcvt l i ecc | .vbcst => .vbcst l i ecc | .vext => .vext l i ecc | .vxch => .vxch l i ecc
  | .gauge => .gauge l i ecc | .pcvt => .pcvt l i ecc | .padd => .padd l i ecc | .pfin => .pfin l i ecc | .tally => .tally l i ecc
  | .pmov => .pmov l i ecc | .pzero => .pzero l i ecc | .mld => .mld l i ecc | .mma => .mma l i ecc | .mclr => .mclr l i ecc
  | .mrd => .mrd l i ecc | .mst => .mst l i ecc | .nop => .nop l i ecc | .endRow => .endRow l i ecc | .safe => .safe l i ecc
  | .ret => .ret l i ecc | .rtt => .rtt l i ecc | .rttNext => .rttNext l i ecc | .fclr => .fclr l i ecc | .br => .br l i ecc
  | .mfs => .mfs l i ecc | .drst => .drst l i ecc | .waitb => .waitb l i ecc | .waitt => .waitt l i ecc | .fence => .fence l i ecc
  | .trap => .trap l i ecc

/-- Needle `i` of row `l` runs and stands at word `w` inside the code, of mnemonic `mn`. -/
def atWord (s : State) (l i w : Nat) (mn : Mn) : Bool :=
  let n := s.needle l i
  l < 128 && i < 16 && s.rowRuns l && n.wait = .run && inCode (s.row l).prog n.pc && imgLe (s.row l).prog n.pc 4 = w && mnOf w = some mn

/-- As `atWord`, and the word's fields are legal there (R331). -/
def standsAt (s : State) (l i w : Nat) (mn : Mn) : Bool :=
  atWord s l i w mn && legal (s.row l).prog (s.rowKind l) (s.needle l i).hm mn w

/-- `s` with the corrected errors of `ecc` counted; every execution begins so (R264). -/
def counted (s : State) (ecc : Ecc) : State := s.countN Ctr.NDL_ECC_CE ecc.ce

/-- `u` once needle `i` of row `l` is `n` and stands at offset `pc`. -/
def goesTo (u : State) (l i : Nat) (n : Needle) (pc : Nat) : State := u.setNeedle l i { n with pc := pc, resumeAt := none }

/-- `u` once needle `i` of row `l` is `n` and stands after the instruction it stood at in `u`. -/
def ran (u : State) (l i : Nat) (n : Needle) : State := goesTo u l i n ((u.needle l i).pc + 4)

/-- `u` once the instruction at which needle `i` of row `l` stands has raised the faulting trap `cause`. -/
def trapsAt (u : State) (l i cause addr : Nat) : State :=
  let n := u.needle l i
  u.needleTrap l i { n with resumeAt := none } cause addr 0 false false n.pc n.pc

/-- What the ALU functions give, and C and V where they set them (R337, R338). -/
def aluSpec (mn : Mn) (a b : Nat) : Nat × Option (Bool × Bool) :=
  let sh := b % 64
  match mn with
  | .aluAdd => ((a + b) % 2 ^ 64, some (2 ^ 64 ≤ a + b, sg64 a + sg64 b ≠ sg64 ((a + b) % 2 ^ 64)))
  | .aluSub | .cmp => ((a + 2 ^ 64 - b) % 2 ^ 64, some (b ≤ a, sg64 a - sg64 b ≠ sg64 ((a + 2 ^ 64 - b) % 2 ^ 64)))
  | .aluAnd => (a &&& b, some (false, false))
  | .aluOr => (a ||| b, some (false, false))
  | .aluXor => (a ^^^ b, some (false, false))
  | .aluShl => (if sh = 0 then a else a * 2 ^ sh % 2 ^ 64, some (sh ≠ 0 && bitOf a (64 - sh), false))
  | .aluShr => (a / 2 ^ sh, some (sh ≠ 0 && bitOf a (sh - 1), false))
  | .aluSar => (if sh = 0 then a else unsigned 64 (sg64 a / (2 ^ sh : Nat)), some (sh ≠ 0 && bitOf a (sh - 1), false))
  | .mul => (a * b % 2 ^ 64, none)
  | .mulhu => (a * b / 2 ^ 64, none)
  | .mulhs => (unsigned 64 (sg64 a * sg64 b / (2 ^ 64 : Nat)), none)
  | .mins => (if sg64 a ≤ sg64 b then a else b, none)
  | .maxs => (if sg64 a ≤ sg64 b then b else a, none)
  | .minu => (if a ≤ b then a else b, none)
  | .maxu => (if a ≤ b then b else a, none)
  | .popc => (((List.range 64).filter (bitOf a)).length, none)
  | .clz => (if a = 0 then 64 else 63 - Nat.log2 a, none)
  | _ => (a, none)

/-- Needle `n` with the flags of `r` (R338); flags that a function does not set stay. -/
def aluFlags (n : Needle) (r : Nat × Option (Bool × Bool)) : Needle :=
  { n with zf := r.1 % 2 ^ 64 = 0, nf := bitOf r.1 63, cf := (r.2.map (fun x => x.1)).getD n.cf, vf := (r.2.map (fun x => x.2)).getD n.vf }

def aluTwo : List Mn :=
  [.aluAdd, .aluSub, .aluAnd, .aluOr, .aluXor, .aluShl, .aluShr, .aluSar, .mul, .mulhu, .mulhs, .mins, .maxs, .minu, .maxu]

/-- Every ALU and immediate instruction (R330, R337, R338): the result, its poison (R321), the flags, and nothing else. -/
def Obligations.AluInstructions : Prop :=
  (∀ (s : State) (l i w : Nat) (ecc : Ecc) (mn : Mn), mn ∈ aluTwo → standsAt s l i w mn = true →
    let n := s.needle l i
    let r := aluSpec mn (n.gv (fA w)) (n.gv (fB w))
    let pz := n.gp (fA w) || n.gp (fB w)
    exec (needleInstr mn l i ecc) s = .next (ran (counted s ecc) l i (aluFlags ((n.mark pz).setG (fD w) r.1 pz) r))) ∧
  (∀ (s : State) (l i w : Nat) (ecc : Ecc) (mn : Mn), mn = .mov ∨ mn = .popc ∨ mn = .clz → standsAt s l i w mn = true →
    let n := s.needle l i
    let r := aluSpec mn (n.gv (fA w)) 0
    let pz := n.gp (fA w)
    exec (needleInstr mn l i ecc) s = .next (ran (counted s ecc) l i (aluFlags ((n.mark pz).setG (fD w) r.1 pz) r))) ∧
  (∀ (s : State) (l i w : Nat) (ecc : Ecc), standsAt s l i w .cmp = true →
    let n := s.needle l i
    exec (.cmp l i ecc) s =
      .next (ran (counted s ecc) l i (aluFlags (n.mark (n.gp (fA w) || n.gp (fB w))) (aluSpec .cmp (n.gv (fA w)) (n.gv (fB w)))))) ∧
  (∀ (s : State) (l i w : Nat) (ecc : Ecc), standsAt s l i w .cmpi = true →
    let n := s.needle l i
    exec (.cmpi l i ecc) s =
      .next (ran (counted s ecc) l i (aluFlags (n.mark (n.gp (fA w))) (aluSpec .cmp (n.gv (fA w)) (unsigned 64 (signed 16 (bitsOf w 15 0))))))) ∧
  (∀ (s : State) (l i w : Nat) (ecc : Ecc) (im fn : Mn), (im, fn) ∈ [(Mn.addi, Mn.aluAdd), (.andi, .aluAnd), (.ori, .aluOr), (.xori, .aluXor),
      (.shli, .aluShl), (.shri, .aluShr), (.sari, .aluSar)] → standsAt s l i w im = true →
    let n := s.needle l i
    let b := if im = .addi then unsigned 64 (signed 16 (bitsOf w 15 0)) else bitsOf w 15 0
    let r := aluSpec fn (n.gv (fA w)) b
    let pz := n.gp (fA w)
    exec (needleInstr im l i ecc) s = .next (ran (counted s ecc) l i (aluFlags ((n.mark pz).setG (fD w) r.1 pz) r))) ∧
  (∀ (s : State) (l i w : Nat) (ecc : Ecc), standsAt s l i w .movz = true →
    exec (.movz l i ecc) s =
      .next (ran (counted s ecc) l i ((s.needle l i).setG (fD w) (bitsOf w 15 0 * 2 ^ (16 * bitsOf w 17 16)) false))) ∧
  (∀ (s : State) (l i w : Nat) (ecc : Ecc), standsAt s l i w .movk = true →
    let n := s.needle l i
    let k := 16 * bitsOf w 17 16
    let r := putBits (n.gv (fD w)) (k + 15) k (bitsOf w 15 0)
    exec (.movk l i ecc) s = .next (ran (counted s ecc) l i ((n.mark (n.gp (fD w))).setG (fD w) r (n.gp (fD w)))))

/-- What a load or store of `z` bytes at offset `o` of space `sp` meets: the cause of its trap, if any (R334, R335, R340). -/
def accessTrap (u : State) (l i w sp o z al : Nat) (isStore : Bool) : Option (Nat × Nat) :=
  let n := u.needle l i
  if n.gp (bitsOf w 16 12) then some (0x09, 0)
  else if o % al ≠ 0 then some (0x03, o)
  else if sp = 8 then (if o + z ≤ 98304 then none else some (0x04, o))
  else
    match segAddr (n.sv sp) o z with
    | none => some (0x05, o)
    | some a => if !u.segReach (rowDie l) a z then some (0x05, o) else if isStore && !segWr (n.sv sp) then some (0x06, o) else none

/-- The offset of a memory instruction: gB + sext(IMM12) × c (R334). -/
def memOffset (n : Needle) (w c : Nat) : Nat := unsigned 64 ((n.gv (bitsOf w 16 12) : Int) + signed 12 (bitsOf w 11 0) * c)

/-- The bytes and poison marks that an access of needle `n` at offset `o` of space `sp` finds. -/
def accessBytes (u : State) (n : Needle) (sp o z : Nat) : List Byte × List Bool :=
  if sp = 8 then ((List.range z).map (fun j => fetch 0 n.scratch (o + j)),
    (List.range' (o / 8) ((o + z + 7) / 8 - o / 8)).map (fun k => fetch false n.scratchTags k))
  else
    let a := (segAddr (n.sv sp) o z).getD 0
    (u.bytes a z, (List.range' (a / 8) ((a + z + 7) / 8 - a / 8)).map (fun k => fetch false u.tags k))

/-- Needle `n` with the uncorrected errors that an access to its scratch found marked (R264). -/
def accessUe (n : Needle) (sp o z : Nat) (ecc : Ecc) : Needle := if sp = 8 then n.markUe (.scratch o) z ecc.ue else n

/-- Where an access of needle `n` at offset `o` of space `sp` stands. -/
def accessAddr (n : Needle) (sp o z : Nat) : NAddr := if sp = 8 then .scratch o else .mem ((segAddr (n.sv sp) o z).getD 0)

/-- Loads and stores of bytes, v registers and ply elements, and CHKB, SSET and SGET (R322, R333 to R336). -/
def Obligations.MemoryInstructions : Prop :=
  -- a failing check: the trap, and nothing accessed
  (∀ (s : State) (l i w : Nat) (ecc : Ecc) (mn : Mn) (z : Nat) (st : Bool), (mn, z, st) ∈ [(Mn.ldb, 1, false), (.ldh, 2, false), (.ldw, 4, false),
      (.ldd, 8, false), (.vld, 32, false), (.stb, 1, true), (.sth, 2, true), (.stw, 4, true), (.std, 8, true), (.vst, 32, true)] →
    standsAt s l i w mn = true →
    let u := counted s ecc
    let x := accessTrap u l i w (bitsOf w 20 17) (memOffset (s.needle l i) w z) z z st
    x.isSome = true → exec (needleInstr mn l i ecc) s = .next (trapsAt u l i (x.getD (0, 0)).1 (x.getD (0, 0)).2)) ∧
  (∀ (s : State) (l i w : Nat) (ecc : Ecc) (mn : Mn) (st : Bool), (mn, st) ∈ [(Mn.pld, false), (.pst, true)] → standsAt s l i w mn = true →
    let u := counted s ecc
    let k := bitsOf w 25 24
    let x := accessTrap u l i w (bitsOf w 20 17) (memOffset (s.needle l i) w 16) (64 * k) 16 st
    x.isSome = true → exec (needleInstr mn l i ecc) s = .next (trapsAt u l i (x.getD (0, 0)).1 (x.getD (0, 0)).2)) ∧
  (∀ (s : State) (l i w : Nat) (ecc : Ecc) (mn : Mn) (st : Bool), (mn, st) ∈ [(Mn.pld, false), (.pst, true)] → standsAt s l i w mn = true →
    let u := counted s ecc
    let k := bitsOf w 25 24
    accessTrap u l i w (bitsOf w 20 17) (memOffset (s.needle l i) w 16) (64 * k) 16 st = none →
    plyOperand (bitsOf w 23 21) k = false → exec (needleInstr mn l i ecc) s = .next (trapsAt u l i 0x0D 0)) ∧
  -- loads: the bytes, zero-extended, with the poison of their words
  (∀ (s : State) (l i w : Nat) (ecc : Ecc) (mn : Mn) (z : Nat), (mn, z) ∈ [(Mn.ldb, 1), (.ldh, 2), (.ldw, 4), (.ldd, 8), (.vld, 32)] →
    standsAt s l i w mn = true →
    let u := counted s ecc
    let n := u.needle l i
    let sp := bitsOf w 20 17
    let o := memOffset n w z
    accessTrap u l i w sp o z z false = none →
    let m := accessUe n sp o z ecc
    let x := accessBytes u m sp o z
    let pz := x.2.any id
    exec (needleInstr mn l i ecc) s = .next (ran u l i
      (if mn = .vld then (m.mark pz).setV (fD w) (leNat x.1) (tagMask x.2) else (m.mark pz).setG (fD w) (leNat x.1) pz))) ∧
  -- stores: exactly the accessed bytes, each word with the stored register's poison
  (∀ (s : State) (l i w : Nat) (ecc : Ecc) (mn : Mn) (z : Nat), (mn, z) ∈ [(Mn.stb, 1), (.sth, 2), (.stw, 4), (.std, 8)] → standsAt s l i w mn = true →
    let u := counted s ecc
    let n := u.needle l i
    let sp := bitsOf w 20 17
    let o := memOffset n w z
    let m := n.mark (n.gp (fD w))
    let bs := leBytes z (n.gv (fD w))
    accessTrap u l i w sp o z z true = none →
    exec (needleInstr mn l i ecc) s = .next (
      if sp = 8 then ran u l i { m with scratch := putBytes n.scratch o bs, scratchTags := putTags n.scratchTags o z (n.gp (fD w)) }
      else goesTo (u.write ((segAddr (n.sv sp) o z).getD 0) bs (n.gp (fD w))) l i m (n.pc + 4))) ∧
  (∀ (s : State) (l i w : Nat) (ecc : Ecc), standsAt s l i w .vst = true →
    let u := counted s ecc
    let n := u.needle l i
    let sp := bitsOf w 20 17
    let o := memOffset n w 32
    accessTrap u l i w sp o 32 32 true = none →
    let ws := (List.range 4).map (fun q => (bitsOf (n.vv (fD w)) (64 * q + 63) (64 * q), bitOf (n.vp (fD w)) q))
    let x := nStoreWords u (n.mark (n.vp (fD w) ≠ 0)) (accessAddr n sp o 32) ws
    exec (.vst l i ecc) s = .next (goesTo x.1 l i x.2 (n.pc + 4))) ∧
  -- PLD and PST: 8 elements of k words, element by element; a marked word makes its element POISON
  (∀ (s : State) (l i w : Nat) (ecc : Ecc), standsAt s l i w .pld = true →
    let u := counted s ecc
    let n := u.needle l i
    let sp := bitsOf w 20 17
    let k := bitsOf w 25 24
    let d := bitsOf w 23 21
    let o := memOffset n w 16
    let m := accessUe n sp o (64 * k) ecc
    let x := accessBytes u m sp o (64 * k)
    accessTrap u l i w sp o (64 * k) 16 false = none → plyOperand d k = true →
    ∃ t : State, exec (.pld l i ecc) s = .next t ∧
      (∀ e ∈ List.range 8, (t.needle l i).plyEl d k e =
        (if ((x.2.drop (k * e)).take k).any id then specialWords k spPoison else ((wordsLe (8 * k) x.1).drop (k * e)).take k)) ∧
      (∀ r ∈ List.range 8, ∀ e ∈ List.range 8, d ≤ r ∧ r < d + k ∨ (t.needle l i).pv r e = n.pv r e) ∧
      t = ran u l i { m with p := (t.needle l i).p, pf := (t.needle l i).pf } ∧
      (t.needle l i).pf = (n.pf || (List.range 8).any (fun e => elPoison ((t.needle l i).plyEl d k e)))) ∧
  (∀ (s : State) (l i w : Nat) (ecc : Ecc), standsAt s l i w .pst = true →
    let u := counted s ecc
    let n := u.needle l i
    let sp := bitsOf w 20 17
    let k := bitsOf w 25 24
    let d := bitsOf w 23 21
    let o := memOffset n w 16
    let els := (List.range 8).map (fun e => n.plyEl d k e)
    accessTrap u l i w sp o (64 * k) 16 true = none → plyOperand d k = true →
    let x := nStoreWords u (n.mark (els.any elPoison)) (accessAddr n sp o (64 * k)) (els.flatten.map (fun y => (y, false)))
    exec (.pst l i ecc) s = .next (goesTo x.1 l i x.2 (n.pc + 4))) ∧
  -- CHKB, SSET and SGET
  (∀ (s : State) (l i w : Nat) (ecc : Ecc), standsAt s l i w .chkb = true →
    let u := counted s ecc
    let n := u.needle l i
    let lim := if bitsOf w 20 17 = 8 then 98304 else segLimit (n.sv (bitsOf w 20 17))
    exec (.chkb l i ecc) s = .next (
      if n.gv (fD w) < n.gv (fB w) ∧ (n.gv (fD w) + 1) * 2 ^ bitsOf w 10 8 ≤ lim then ran u l i (n.mark (n.gp (fD w) || n.gp (fB w)))
      else trapsAt u l i 0x08 (n.gv (fD w)))) ∧
  (∀ (s : State) (l i w : Nat) (ecc : Ecc), standsAt s l i w .sset = true →
    let u := counted s ecc
    let n := u.needle l i
    let x := n.gv (fA w) + 2 ^ 64 * n.gv (fB w)
    exec (.sset l i ecc) s = .next (
      if u.segOk (rowDie l) x then
        (let m := n.mark (n.gp (fA w) || n.gp (fB w))
         ran u l i { m with seg := store 0 n.seg (fD w) x })
      else trapsAt u l i 0x07 (fD w))) ∧
  (∀ (s : State) (l i w : Nat) (ecc : Ecc), standsAt s l i w .sget = true →
    let n := s.needle l i
    exec (.sget l i ecc) s = .next (ran (counted s ecc) l i (n.setG (fD w) (n.sv (fA w) / 2 ^ (64 * bitsOf w 0 0)) false)))

/-- Branches, CALL, RET, handlers' returns, TRAP, and the functions that change one thing (R321, R339 to R344, R371, R375, R387, R393 to R396). -/
def Obligations.ControlInstructions : Prop :=
  (∀ (s : State) (l i w : Nat) (ecc : Ecc), standsAt s l i w .bCc = true →
    let u := counted s ecc
    let n := u.needle l i
    let t := unsigned 64 ((n.pc : Int) + 4 * signed 22 (bitsOf w 21 0))
    exec (.bCc l i ecc) s = .next (
      if ccHolds n (bitsOf w 25 22) then (if inCode (s.row l).prog t then goesTo u l i n t else trapsAt u l i 0x02 t) else ran u l i n)) ∧
  (∀ (s : State) (l i w : Nat) (ecc : Ecc), standsAt s l i w .br = true →
    let u := counted s ecc
    let n := u.needle l i
    let t := n.gv (fA w)
    exec (.br l i ecc) s = .next (
      if !inCode (s.row l).prog t then trapsAt u l i 0x02 t else if n.gp (fA w) then trapsAt u l i 0x09 0 else goesTo u l i n t)) ∧
  -- CALL: the link word and the named registers on the stack, g31 lowered by the frame
  (∀ (s : State) (l i w : Nat) (ecc : Ecc), standsAt s l i w .call = true →
    let u := counted s ecc
    let n := u.needle l i
    let t := fnEntry (s.row l).prog (bitsOf w 25 16)
    let regs := maskRegs (bitsOf w 15 0)
    let fr := 8 * (1 + regs.length)
    let g := n.gv 31
    let a := segBase (n.sv 7) + (g - fr)
    inCode (s.row l).prog t = true → g % 8 = 0 → segWr (n.sv 7) = true → segMode (n.sv 7) = 0 → fr ≤ g → g ≤ segLimit (n.sv 7) →
    u.segReach (rowDie l) a fr = true →
    let x := nStoreWords u (n.mark (n.gp 31 || regs.any n.gp)) (.mem a)
      (((n.pc + 4) % 65536 + 65536 * bitsOf w 15 0, false) :: regs.map (fun r => (n.gv r, n.gp r)))
    exec (.call l i ecc) s = .next (goesTo x.1 l i (x.2.setG 31 (g - fr) (n.gp 31)) t)) ∧
  (∀ (s : State) (l i w : Nat) (ecc : Ecc), standsAt s l i w .call = true →
    let u := counted s ecc
    let n := u.needle l i
    let t := fnEntry (s.row l).prog (bitsOf w 25 16)
    let g := n.gv 31
    inCode (s.row l).prog t = true → g % 8 = 0 → segWr (n.sv 7) = true →
    segMode (n.sv 7) ≠ 0 ∨ g < 8 * (1 + (maskRegs (bitsOf w 15 0)).length) ∨ segLimit (n.sv 7) < g →
    exec (.call l i ecc) s = .next (trapsAt u l i 0x0A g)) ∧
  -- RET: the link word names the registers, which come back from the frame
  (∀ (s : State) (l i w : Nat) (ecc : Ecc), standsAt s l i w .ret = true →
    let u := counted s ecc
    let n := u.needle l i
    let g := n.gv 31
    let a := segBase (n.sv 7) + g
    let link := u.le a 8
    let regs := maskRegs (bitsOf link 31 16)
    let fr := 8 * (1 + regs.length)
    g % 8 = 0 → segMode (n.sv 7) = 0 → g + fr ≤ segLimit (n.sv 7) → u.segReach (rowDie l) a fr = true → u.segReach (rowDie l) a 8 = true →
    inCode (s.row l).prog (bitsOf link 15 0) = true → a % 8 = 0 → (∀ k ∈ List.range (1 + regs.length), fetch false u.tags (a / 8 + k) = false) →
    let m := (List.range regs.length).foldl (fun m k => m.setG (regs.getD k 0) (u.le (a + 8 * (k + 1)) 8) false) (n.mark (n.gp 31))
    exec (.ret l i ecc) s = .next (goesTo u l i (m.setG 31 (g + fr) (n.gp 31)) (bitsOf link 15 0))) ∧
  (∀ (s : State) (l i w : Nat) (ecc : Ecc), standsAt s l i w .ret = true →
    let u := counted s ecc
    let n := u.needle l i
    n.gv 31 % 8 = 0 → segMode (n.sv 7) ≠ 0 ∨ segLimit (n.sv 7) < n.gv 31 + 8 → exec (.ret l i ecc) s = .next (trapsAt u l i 0x0A (n.gv 31))) ∧
  -- outside handler mode RTT and RTT.NEXT trap; in it they restore the flags and leave the handler
  (∀ (s : State) (l i w : Nat) (ecc : Ecc) (mn : Mn), mn = .rtt ∨ mn = .rttNext → standsAt s l i w mn = true → (s.needle l i).hm = false →
    exec (needleInstr mn l i ecc) s = .next (trapsAt (counted s ecc) l i 0x0C 0)) ∧
  (∀ (s : State) (l i w : Nat) (ecc : Ecc) (mn : Mn), mn = .rtt ∨ mn = .rttNext → standsAt s l i w mn = true → (s.needle l i).hm = true →
    (s.needle l i).tpair = false →
    let n := s.needle l i
    let m := n.setFlags n.tflags
    let at_ := mnOf (imgLe (s.row l).prog n.tpc 4)
    let past := if at_ = some .rep ∨ at_ = some .repn then 8 else 4
    exec (needleInstr mn l i ecc) s = .next (goesTo (counted s ecc) l i { m with hm := false }
      (if mn = .rttNext ∧ n.tcause < 128 then n.tpc + past else n.tpc))) ∧
  (∀ (s : State) (l i w : Nat) (ecc : Ecc), standsAt s l i w .rttNext = true → (s.needle l i).hm = true → (s.needle l i).tpair = true →
    let n := s.needle l i
    let m := n.setFlags n.tflags
    exec (.rttNext l i ecc) s = .next (goesTo (counted s ecc) l i { m with hm := false } (n.tpc + 8))) ∧
  -- TRAP c is a completing trap: a handler finds TCAUSE[7] set and TPC after the instruction
  (∀ (s : State) (l i w : Nat) (ecc : Ecc), standsAt s l i w .trap = true →
    let u := counted s ecc
    let n := u.needle l i
    let vec := imgLe (s.row l).prog (256 + 2 * bitsOf w 10 0) 2
    exec (.trap l i ecc) s = .next (
      if n.hm = false ∧ vec ≠ 0 then goesTo u l i { n with hm := true, tpc := (n.pc + 4) % 65536, tcause := bitsOf w 10 0 + 128, taddr := 0, titer := 0,
                                                           tflags := n.flags, tpair := false, wait := .run } vec
      else (goesTo u l i n (n.pc + 4)).rowTrapped l i (bitsOf w 10 0) n.pc 0)) ∧
  (∀ (s : State) (l i w : Nat) (ecc : Ecc) (mn : Mn), mn = .nop ∨ mn = .fence → standsAt s l i w mn = true →
    exec (needleInstr mn l i ecc) s = .next (ran (counted s ecc) l i (s.needle l i))) ∧
  (∀ (s : State) (l i w : Nat) (ecc : Ecc), standsAt s l i w .fclr = true →
    let n := s.needle l i
    exec (.fclr l i ecc) s = .next (ran (counted s ecc) l i { n with pf := false })) ∧
  (∀ (s : State) (l i w : Nat) (ecc : Ecc), standsAt s l i w .drst = true →
    let n := s.needle l i
    exec (.drst l i ecc) s = .next (ran (counted s ecc) l i { n with draws := store 0 n.draws (bitsOf w 12 11) 0 })) ∧
  -- MFS reads NID, L, die, slice, step counter, flags, handler state, draw counters and the beat sequence
  (∀ (s : State) (l i w : Nat) (ecc : Ecc), standsAt s l i w .mfs = true →
    let n := s.needle l i
    let sr := [i, l, l / 32, s.rowSlice l, s.stepCtr (s.rowSlice l), n.flags, n.tcause, n.tpc, n.taddr, n.titer, n.tflags, fetch 0 n.draws 0,
      fetch 0 n.draws 1, fetch 0 n.draws 2, fetch 0 n.draws 3, (s.rd Reg.GLB_BEAT_SEQ).toNat]
    exec (.mfs l i ecc) s = .next (ran (counted s ecc) l i (n.setG (fD w) (sr.getD (fB w) 0) false)))

/-- What a trap does (R304, R393, R396), and what no needle executes: a fetch outside the code, a reserved word, a field out of range (R331, R390). -/
def Obligations.NeedleTraps : Prop :=
  (∀ (s : State) (l i : Nat) (ecc : Ecc) (mn : Mn), l < 128 → i < 16 → s.rowRuns l = true → (s.needle l i).wait = .run →
    inCode (s.row l).prog (s.needle l i).pc = false →
    let n := s.needle l i
    exec (needleInstr mn l i ecc) s = .next (s.needleTrap l i n 0x02 n.pc 0 false false n.pc n.pc)) ∧
  (∀ (s : State) (l i w : Nat) (ecc : Ecc) (mn : Mn), l < 128 → i < 16 → s.rowRuns l = true → (s.needle l i).wait = .run →
    inCode (s.row l).prog (s.needle l i).pc = true → imgLe (s.row l).prog (s.needle l i).pc 4 = w → mnOf w = none →
    let n := s.needle l i
    exec (needleInstr mn l i ecc) s = .next (s.needleTrap l i n 0x01 0 0 false false n.pc n.pc)) ∧
  (∀ (s : State) (l i w : Nat) (ecc : Ecc) (mn : Mn), atWord s l i w mn = true →
    legal (s.row l).prog (s.rowKind l) (s.needle l i).hm mn w = false →
    let n := s.needle l i
    let m := if mn = .rep then n else { n with resumeAt := none }
    exec (needleInstr mn l i ecc) s = .next ((counted s ecc).needleTrap l i m 0x01 0 0 false false n.pc n.pc)) ∧
  -- a needle that stands at another instruction, waits, or whose row does not run, takes no step
  (∀ (s : State) (l i w : Nat) (ecc : Ecc) (mn mn' : Mn), atWord s l i w mn' = true → mn ≠ mn' → exec (needleInstr mn l i ecc) s = .next s) ∧
  (∀ (s : State) (l i : Nat) (ecc : Ecc) (mn : Mn), s.rowRuns l = false ∨ (s.needle l i).wait ≠ .run → exec (needleInstr mn l i ecc) s = .next s) ∧
  -- with a handler: its state is recorded and the needle goes there; without one, or in a handler: the row is TRAPPED
  (∀ (s : State) (l i cause addr it at_ : Nat), let n := s.needle l i
    let vec := imgLe (s.row l).prog (256 + 2 * cause) 2
    s.needleTrap l i n cause addr it false false at_ at_ = if n.hm = false ∧ vec ≠ 0 then
      s.setNeedle l i { n with hm := true, tpc := at_ % 65536, tcause := cause, taddr := addr, titer := it, tflags := n.flags,
                               tpair := false, pc := vec, wait := .run }
    else (s.setNeedle l i n).rowTrapped l i cause at_ addr) ∧
  (∀ (s : State) (l i cause pc addr : Nat), l < 128 → s.rowState l = 4 → (s.row l).owner = none →
    s.rd Reg.NDL_TRAP_TAIL = s.rd Reg.NDL_TRAP_COUNT →
    let t := s.rowTrapped l i cause pc addr
    t.rowState l = 7 ∧
    (∀ k ∈ List.range 16, (t.needle l k).wait = if (s.needle l k).wait = .ended then .ended else .halted) ∧
    t.ctr Ctr.NDL_TRAP = (s.ctr Ctr.NDL_TRAP).bump ∧
    t.rd Reg.NDL_TRAP_COUNT = s.rd Reg.NDL_TRAP_COUNT + 1)

/-- DRAW, DRAWE, SDEF and SRD (R369, R370, R372, R376, R377). -/
def Obligations.StreamInstructions : Prop :=
  (∀ (s : State) (l i w : Nat) (ecc : Ecc), standsAt s l i w .draw = true → (s.job (s.rowSlice l)).isOpen = true →
    let u := counted s ecc
    let n := u.needle l i
    let st := bitsOf w 1 0
    let k := fetch 0 n.draws st
    let x := gen (s.job (s.rowSlice l)).seed (n.gv (fA w) / 65536) (imgLe (s.row l).prog (24 + 4 * st) 3) (n.gv (fA w) % 65536 * 2 ^ 24 + k)
    let m := (n.mark (n.gp (fA w))).setG (fD w) x (n.gp (fA w))
    exec (.draw l i ecc) s = .next (
      if k = 0xFFFFFF then trapsAt u l i 0x0F st else ran u l i { m with draws := store 0 n.draws st (k + 1) })) ∧
  (∀ (s : State) (l i w : Nat) (ecc : Ecc), standsAt s l i w .drawe = true → (s.job (s.rowSlice l)).isOpen = true →
    let u := counted s ecc
    let n := u.needle l i
    let x := gen (s.job (s.rowSlice l)).seed (s.stepCtr (s.rowSlice l)) (tensorId (s.row l).prog (bitsOf w 5 0)) (n.gv (fA w) % 2 ^ 40)
    exec (.drawe l i ecc) s = .next (ran u l i ((n.mark (n.gp (fA w))).setG (fD w) x (n.gp (fA w))))) ∧
  (∀ (s : State) (l i w : Nat) (ecc : Ecc), standsAt s l i w .sdef = true →
    let u := counted s ecc
    let n := u.needle l i
    let gc := bitsOf w 10 6
    let m := n.mark (n.gp (fA w) || n.gp (fB w) || n.gp gc)
    exec (.sdef l i ecc) s = .next (
      if n.gv (fA w) % 32 ≠ 0 ∨ n.gv (fB w) % 32 ≠ 0 then trapsAt u l i 0x03 (n.gv (fA w))
      else ran u l i { m with streams := store none n.streams (bitsOf w 25 25)
                                           (some ⟨bitsOf w 24 21, n.gv (fA w), signed 64 (n.gv (fB w)), n.gv gc, 0⟩) })) ∧
  (∀ (s : State) (l i w : Nat) (ecc : Ecc), standsAt s l i w .srd = true →
    (∀ x ∈ (fetch none (s.needle l i).streams (bitsOf w 0 0)).toList, x.count ≤ x.next) →
    exec (.srd l i ecc) s = .next (trapsAt (counted s ecc) l i 0x11 (bitsOf w 0 0))) ∧
  (∀ (s : State) (l i w : Nat) (ecc : Ecc) (x : Stream), standsAt s l i w .srd = true →
    fetch none (s.needle l i).streams (bitsOf w 0 0) = some x → x.next < x.count → x.sp < 8 →
    let u := counted s ecc
    let n := u.needle l i
    let o := unsigned 64 ((x.off : Int) + x.next * x.stride)
    o % 32 = 0 →
    let a := segAddr (n.sv x.sp) o 32
    let y := accessBytes u n x.sp o 32
    let m := n.mark (y.2.any id)
    exec (.srd l i ecc) s = .next (
      if a.isSome && u.segReach (rowDie l) (a.getD 0) 32 then
        (let k := { m with streams := store none n.streams (bitsOf w 0 0) (some { x with next := x.next + 1 }) }
         ran u l i (k.setV (fD w) (leNat y.1) (tagMask y.2)))
      else trapsAt u l i 0x05 o))

/-- Iterations `i`, `i + 1`, … of a pair whose instruction is `w` of mnemonic `mn` (R345, R346): the machine and the needle after `k` of
them; none where one of them traps. Under REP g0 counts down. -/
def pairRuns (rep : Bool) (kind step w : Nat) (mn : Mn) (c : Ctx) (ecc : Ecc) : Nat → Nat → State → Needle → Option (State × Needle)
  | 0, _, u, n => some (u, n)
  | k + 1, i, u, n =>
    let f (hi lo : Nat) (b : Nat) (w : Nat) : Nat := if bitOf step b then putBits w hi lo ((bitsOf w hi lo + i) % 32) else w
    let w' := f 15 11 0 (f 20 16 1 (f 25 21 2 w))
    if legal c.m kind n.hm mn w' = false then none else
    match dataOp mn { c with k := i } ecc w' u n with
    | .ok u' n' => pairRuns rep kind step w mn c ecc k (i + 1) u' (if rep then n'.setG 0 k (n'.gp 0) else n')
    | _ => none

/-- REP and REPN (R345 to R350): when they trap at once, and what a pair leaves that runs to its end. -/
def Obligations.RepeatInstructions : Prop :=
  (∀ (s : State) (l i w : Nat) (ecc : Ecc) (mn : Mn), mn = .rep ∨ mn = .repn → standsAt s l i w mn = true → (s.needle l i).resumeAt = none →
    let u := counted s ecc
    let n := u.needle l i
    let p := (s.row l).prog
    let w2 := imgLe p (n.pc + 4) 4
    let step := bitsOf w 25 23
    let two := (mnOf w2).getD .nop
    let bad := !inCode p (n.pc + 4) || (mnOf w2).isNone || !repeatable two || (step &&& regFields two) ≠ step ||
      (mn = .rep && (gNamed two w2).contains 0) || (mn = .rep && decide (2 ^ 20 ≤ n.gv 0))
    let cause := if !inCode p (n.pc + 4) then (0x02, n.pc + 4)
      else if (mnOf w2).isNone || !repeatable two || (step &&& regFields two) ≠ step || (mn = .rep && (gNamed two w2).contains 0) then (0x01, 0)
      else (0x0B, n.gv 0)
    bad = true → exec (needleInstr mn l i ecc) s = .next (u.needleTrap l i n cause.1 cause.2 0 true false n.pc n.pc)) ∧
  (∀ (s t : State) (l i w : Nat) (ecc : Ecc) (mn two : Mn) (m : Needle), mn = .rep ∨ mn = .repn → standsAt s l i w mn = true →
    (s.needle l i).resumeAt = none →
    let u := counted s ecc
    let n := u.needle l i
    let p := (s.row l).prog
    let w2 := imgLe p (n.pc + 4) 4
    let step := bitsOf w 25 23
    inCode p (n.pc + 4) = true → mnOf w2 = some two → repeatable two = true → (step &&& regFields two) = step →
    mn = .repn ∨ ((gNamed two w2).contains 0 = false ∧ n.gv 0 < 2 ^ 20) →
    pairRuns (mn == .rep) (s.rowKind l) step w2 two ⟨l, i, p, 1⟩ ecc (if mn = .rep then n.gv 0 else bitsOf w 7 0 + 1) 0 u
      (n.mark (mn == .rep && n.gp 0)) = some (t, m) →
    exec (needleInstr mn l i ecc) s = .next (t.setNeedle l i { m with pc := n.pc + 8 })) ∧
  -- RTT after a REP trap resumes the pair at iteration TITER; after a REPN trap it is RTT_ILLEGAL
  (∀ (s : State) (l i w : Nat) (ecc : Ecc), standsAt s l i w .rtt = true → (s.needle l i).hm = true → (s.needle l i).tpair = true →
    let u := counted s ecc
    let n := u.needle l i
    let m := n.setFlags n.tflags
    exec (.rtt l i ecc) s = .next (
      if mnOf (imgLe (s.row l).prog n.tpc 4) = some .repn then trapsAt u l i 0x0C 0
      else u.setNeedle l i { m with hm := false, pc := n.tpc, resumeAt := some n.titer }))

/-- One lane of a vector operation (R351 to R353). -/
def vopSpec (mn : Mn) (f a b : Nat) : Nat :=
  let x := BitVec.ofNat 32 a
  let y := BitVec.ofNat 32 b
  let p := laneNum f a
  let q := laneNum f b
  match mn with
  | .vadd => if f = 4 then (x + y).toNat else numLane f (numAdd p q)
  | .vsub => if f = 4 then (x - y).toNat else numLane f (numAdd p (numNeg q))
  | .vmul => if f = 4 then (x * y).toNat else numLane f (numMul p q)
  | .vmax => if f = 4 then (if x.sle y then b else a) else numLane f (numMax false p q)
  | .vmin => if f = 4 then (if x.sle y then a else b) else numLane f (numMax true p q)
  | .vabs => if f = 4 then (if x.msb then (-x).toNat else a) else numLane f (numAbs p)
  | .vneg => if f = 4 then (-x).toNat else numLane f (numNeg p)
  | .vand => (x &&& y).toNat
  | .vor => (x ||| y).toNat
  | .vxor => (x ^^^ y).toNat
  | .vshl => (x <<< (b % 32)).toNat
  | .vshr => (x >>> (b % 32)).toNat
  | .vsar => (x.sshiftRight (b % 32)).toNat
  | _ => a

def vopTwo : List Mn := [.vadd, .vsub, .vmul, .vmax, .vmin, .vand, .vor, .vxor, .vshl, .vshr, .vsar]

/-- The vector instructions (R319, R321, R330, R351 to R355): every lane of the destination, poison quarter by quarter, and nothing else. -/
def Obligations.VectorInstructions : Prop :=
  (∀ (s : State) (l i w : Nat) (ecc : Ecc) (mn : Mn), mn ∈ vopTwo ∨ mn = .vabs ∨ mn = .vneg ∨ mn = .vmov → standsAt s l i w mn = true →
    let n := s.needle l i
    let f := bitsOf w 10 8
    let pz := if mn ∈ vopTwo then n.vp (fA w) ||| n.vp (fB w) else n.vp (fA w)
    ∃ t : State, exec (needleInstr mn l i ecc) s = .next t ∧
      (∀ j ∈ List.range (vLanes f), lane f ((t.needle l i).vv (fD w)) j =
        vopSpec mn f (lane f (n.vv (fA w)) j) (lane f (n.vv (fB w)) j) % 2 ^ vWidth f) ∧
      t = ran (counted s ecc) l i ((n.mark (pz ≠ 0)).setV (fD w) ((t.needle l i).vv (fD w)) pz)) ∧
  (∀ (s : State) (l i w : Nat) (ecc : Ecc), standsAt s l i w .vfma = true →
    let n := s.needle l i
    let f := bitsOf w 5 3
    let c := bitsOf w 10 6
    let pz := n.vp (fA w) ||| n.vp (fB w) ||| n.vp c
    ∃ t : State, exec (.vfma l i ecc) s = .next t ∧
      (∀ j ∈ List.range (vLanes f), lane f ((t.needle l i).vv (fD w)) j =
        (let a := lane f (n.vv (fA w)) j
         let b := lane f (n.vv (fB w)) j
         let x := lane f (n.vv c) j
         if f = 4 then (a * b + x) % 2 ^ 32 else numLane f (numAdd (numMul (laneNum f a) (laneNum f b)) (laneNum f x)) % 2 ^ vWidth f)) ∧
      t = ran (counted s ecc) l i ((n.mark (pz ≠ 0)).setV (fD w) ((t.needle l i).vv (fD w)) pz)) ∧
  (∀ (s : State) (l i w : Nat) (ecc : Ecc), standsAt s l i w .vcmp = true →
    let n := s.needle l i
    let f := bitsOf w 10 8
    let pz := n.vp (fA w) ≠ 0 || n.vp (fB w) ≠ 0
    ∃ t : State, exec (.vcmp l i ecc) s = .next t ∧
      (∀ j ∈ List.range 64, bitOf ((t.needle l i).gv (fD w)) j =
        (j < vLanes f && condHolds (bitsOf w 3 0) (laneCmp f (lane f (n.vv (fA w)) j) (lane f (n.vv (fB w)) j)))) ∧
      t = ran (counted s ecc) l i ((n.mark pz).setG (fD w) ((t.needle l i).gv (fD w)) pz)) ∧
  (∀ (s : State) (l i w : Nat) (ecc : Ecc), standsAt s l i w .vsel = true →
    let n := s.needle l i
    let f := bitsOf w 5 3
    let gm := bitsOf w 10 6
    ∃ t : State, exec (.vsel l i ecc) s = .next t ∧
      (∀ j ∈ List.range (vLanes f), lane f ((t.needle l i).vv (fD w)) j = lane f (n.vv (if bitOf (n.gv gm) j then fA w else fB w)) j) ∧
      (∀ q ∈ List.range 4, bitOf ((t.needle l i).vp (fD w)) q = (n.gp gm || (List.range (vLanes f)).any (fun j =>
        vWidth f * j / 64 = q && bitOf (n.vp (if bitOf (n.gv gm) j then fA w else fB w)) q))) ∧
      t = ran (counted s ecc) l i ((n.mark (n.gp gm || n.vp (fA w) ≠ 0 || n.vp (fB w) ≠ 0)).setV (fD w) ((t.needle l i).vv (fD w))
        ((t.needle l i).vp (fD w)))) ∧
  (∀ (s : State) (l i w : Nat) (ecc : Ecc), standsAt s l i w .vbcst = true →
    let n := s.needle l i
    let f := bitsOf w 10 8
    ∃ t : State, exec (.vbcst l i ecc) s = .next t ∧
      (∀ j ∈ List.range (vLanes f), lane f ((t.needle l i).vv (fD w)) j = n.gv (fA w) % 2 ^ vWidth f) ∧
      t = ran (counted s ecc) l i ((n.mark (n.gp (fA w))).setV (fD w) ((t.needle l i).vv (fD w)) (if n.gp (fA w) then 15 else 0))) ∧
  (∀ (s : State) (l i w : Nat) (ecc : Ecc), standsAt s l i w .vext = true →
    let n := s.needle l i
    let f := bitsOf w 10 8
    let j := bitsOf w 4 0
    let pz := bitOf (n.vp (fA w)) (vWidth f * j / 64)
    exec (.vext l i ecc) s = .next (ran (counted s ecc) l i ((n.mark pz).setG (fD w) (lane f (n.vv (fA w)) j) pz))) ∧
  -- VCVT: eight lanes converted, the destination's other lanes kept, except that poison covers whole quarters
  (∀ (s : State) (l i w : Nat) (ecc : Ecc), standsAt s l i w .vcvt = true →
    let n := s.needle l i
    let f := bitsOf w 10 8
    let g := bitsOf w 7 5
    let qs := 8 * bitsOf w 4 3
    let qd := 8 * bitsOf w 2 1
    let pz := (List.range 8).any (fun j => bitOf (n.vp (fA w)) (vWidth f * (qs + j) / 64))
    ∃ t : State, exec (.vcvt l i ecc) s = .next t ∧
      (∀ j ∈ List.range (vLanes g), lane g ((t.needle l i).vv (fD w)) j =
        if qd ≤ j ∧ j < qd + 8 then laneConv f g (lane f (n.vv (fA w)) (qs + (j - qd))) % 2 ^ vWidth g else lane g (n.vv (fD w)) j) ∧
      t = ran (counted s ecc) l i ((n.mark pz).setV (fD w) ((t.needle l i).vv (fD w)) ((t.needle l i).vp (fD w))))

/-- The ply instructions (R356 to R368): the ply arithmetic of file 03 on every element, and nothing else. -/
def Obligations.PlyInstructions : Prop :=
  -- an operand that no form takes: PLY_OPERAND
  (∀ (s : State) (l i w : Nat) (ecc : Ecc), standsAt s l i w .padd = true →
    plyOperand (fD w) (bitsOf w 10 9) = false ∨ plyOperand (fA w) (bitsOf w 10 9) = false ∨ plyOperand (fB w) (bitsOf w 10 9) = false →
    exec (.padd l i ecc) s = .next (trapsAt (counted s ecc) l i 0x0D 0)) ∧
  (∀ (s : State) (l i w : Nat) (ecc : Ecc), standsAt s l i w .padd = true →
    let n := s.needle l i
    let k := bitsOf w 10 9
    let sum := fun j => plyAdd k (n.plyEl (fA w) k j) (n.plyEl (fB w) k j)
    plyOperand (fD w) k = true → plyOperand (fA w) k = true → plyOperand (fB w) k = true → (∀ j ∈ List.range 8, (sum j).2 = false) →
    ∃ t : State, exec (.padd l i ecc) s = .next t ∧
      (∀ j ∈ List.range 8, (t.needle l i).plyEl (fD w) k j = (sum j).1.map (fun x => x % 2 ^ 64)) ∧
      (∀ r ∈ List.range 8, ∀ j ∈ List.range 8, fD w ≤ r ∧ r < fD w + k ∨ (t.needle l i).pv r j = n.pv r j) ∧
      t = ran (counted s ecc) l i { n with p := (t.needle l i).p, pf := n.pf || (List.range 8).any (fun j => elPoison (sum j).1) }) ∧
  -- a carry out of any lane: all of the sum is written, then the needle traps with the lanes in TADDR
  (∀ (s : State) (l i w : Nat) (ecc : Ecc), standsAt s l i w .padd = true →
    let n := s.needle l i
    let k := bitsOf w 10 9
    let sum := fun j => plyAdd k (n.plyEl (fA w) k j) (n.plyEl (fB w) k j)
    let mask := ((List.range 8).map (fun j => if (sum j).2 then 2 ^ j else 0)).sum
    let vec := imgLe (s.row l).prog (256 + 2 * 0x0E) 2
    plyOperand (fD w) k = true → plyOperand (fA w) k = true → plyOperand (fB w) k = true → mask ≠ 0 → n.hm = false → vec ≠ 0 →
    ∃ t : State, exec (.padd l i ecc) s = .next t ∧
      (∀ j ∈ List.range 8, (t.needle l i).plyEl (fD w) k j = (sum j).1.map (fun x => x % 2 ^ 64)) ∧
      (t.needle l i).hm = true ∧ (t.needle l i).tcause = 0x0E + 128 ∧ (t.needle l i).taddr = mask ∧
      (t.needle l i).tpc = (n.pc + 4) % 65536 ∧ (t.needle l i).pc = vec ∧ t.mem = s.mem) ∧
  (∀ (s : State) (l i w : Nat) (ecc : Ecc), standsAt s l i w .pmov = true →
    let n := s.needle l i
    let k := bitsOf w 10 9
    plyOperand (fD w) k = true → plyOperand (fA w) k = true →
    ∃ t : State, exec (.pmov l i ecc) s = .next t ∧
      (∀ j ∈ List.range 8, (t.needle l i).plyEl (fD w) k j = (n.plyEl (fA w) k j).map (fun x => x % 2 ^ 64)) ∧
      (∀ r ∈ List.range 8, ∀ j ∈ List.range 8, fD w ≤ r ∧ r < fD w + k ∨ (t.needle l i).pv r j = n.pv r j) ∧
      t = ran (counted s ecc) l i { n with p := (t.needle l i).p, pf := n.pf || (List.range 8).any (fun j => elPoison (n.plyEl (fA w) k j)) }) ∧
  (∀ (s : State) (l i w : Nat) (ecc : Ecc), standsAt s l i w .pzero = true →
    let n := s.needle l i
    let k := bitsOf w 10 9
    plyOperand (fD w) k = true →
    ∃ t : State, exec (.pzero l i ecc) s = .next t ∧
      (∀ r ∈ List.range 8, ∀ j ∈ List.range 8, (t.needle l i).pv r j = if fD w ≤ r ∧ r < fD w + k then 0 else n.pv r j) ∧
      t = ran (counted s ecc) l i { n with p := (t.needle l i).p }) ∧
  -- GAUGE: the largest of the gauge byte and the elements' exponent bytes
  (∀ (s : State) (l i w : Nat) (ecc : Ecc), standsAt s l i w .gauge = true →
    let u := counted s ecc
    let n := u.needle l i
    let code := attrIn (tensorAttr (s.row l).prog (bitsOf w 10 5))
    let g := n.gv (fD w)
    let bs := (List.range (fmtTerms code)).map (fun j => expByte (n.termNum (fA w) code j g))
    exec (.gauge l i ecc) s = .next (
      if 7 ≤ code then trapsAt u l i 0x0D 0
      else ran u l i ((n.mark (n.gp (fD w) || n.vp (fA w) ≠ 0)).setG (fD w) (putBits g 7 0 (bs.foldl max (g % 256))) (n.gp (fD w))))) ∧
  -- PCVT: eight terms converted under the gauge byte; V says whether one of them missed
  (∀ (s : State) (l i w : Nat) (ecc : Ecc), standsAt s l i w .pcvt = true →
    let n := s.needle l i
    let attr := tensorAttr (s.row l).prog (bitsOf w 15 10)
    let code := attrIn attr
    let k := attrPly attr
    let g := n.gv (bitsOf w 9 5)
    let x := fun j => n.termNum (fA w) code (8 * bitsOf w 4 3 + j) g
    let gb := max 1 (g % 256)
    code < 7 → plyOperand (fD w) k = true → n.gp (bitsOf w 9 5) = false → n.vp (fA w) = 0 →
    ∃ t : State, exec (.pcvt l i ecc) s = .next t ∧
      (∀ j ∈ List.range 8, (t.needle l i).plyEl (fD w) k j =
        (if gb < expByte (x j) then List.replicate k 0 else plyConvert k gb (x j)).map (fun y => y % 2 ^ 64)) ∧
      (∀ r ∈ List.range 8, ∀ j ∈ List.range 8, fD w ≤ r ∧ r < fD w + k ∨ (t.needle l i).pv r j = n.pv r j) ∧
      t = ran (counted s ecc) l i { n with p := (t.needle l i).p, vf := (List.range 8).any (fun j => gb < expByte (x j)) }) ∧
  (∀ (s : State) (l i w : Nat) (ecc : Ecc), standsAt s l i w .pcvt = true →
    let attr := tensorAttr (s.row l).prog (bitsOf w 15 10)
    7 ≤ attrIn attr ∨ plyOperand (fD w) (attrPly attr) = false → exec (.pcvt l i ecc) s = .next (trapsAt (counted s ecc) l i 0x0D 0)) ∧
  -- PFIN to a raw format: eight lanes finalised, to nearest even or by the element's own draw; the other lanes kept
  (∀ (s : State) (l i w : Nat) (ecc : Ecc), standsAt s l i w .pfin = true →
    let n := s.needle l i
    let j := bitsOf w 17 12
    let attr := tensorAttr (s.row l).prog j
    let code := attrOut attr
    let k := attrPly attr
    let gi := n.gv (bitsOf w 11 7) % 2 ^ 40
    let q := 8 * bitsOf w 1 0
    let draw := fun e => if attrRound attr = 1 then some (roundDraw (s.job (s.rowSlice l)).seed (s.stepCtr (s.rowSlice l)) (tensorId (s.row l).prog j)
      ((gi + q + e) % 2 ^ 40)) else none
    let y := fun e => finalRaw code (draw e) (plyNum k (n.gv (bitsOf w 6 2) % 256) (n.plyEl (bitsOf w 20 18) k e))
    code < 7 → isMx code = false → plyOperand (bitsOf w 20 18) k = true → n.gp (bitsOf w 6 2) = false → n.gp (bitsOf w 11 7) = false →
    attrRound attr ≠ 1 ∨ (s.job (s.rowSlice l)).isOpen = true →
    ∃ t : State, exec (.pfin l i ecc) s = .next t ∧
      (∀ e ∈ List.range (vLanes code), lane code ((t.needle l i).vv (fD w)) e =
        if q ≤ e ∧ e < q + 8 then (y (e - q)).1 % 2 ^ vWidth code else lane code (n.vv (fD w)) e) ∧
      t = ran (counted s ecc) l i ((n.mark ((List.range 8).any (fun e => (y e).2))).setV (fD w) ((t.needle l i).vv (fD w))
        ((t.needle l i).vp (fD w)))) ∧
  (∀ (s : State) (l i w : Nat) (ecc : Ecc), standsAt s l i w .pfin = true → 7 ≤ attrOut (tensorAttr (s.row l).prog (bitsOf w 17 12)) →
    exec (.pfin l i ecc) s = .next (trapsAt (counted s ecc) l i 0x0D 0)) ∧
  -- TALLY: a tensor outside the step's tally set traps; else n elements go into the tensor's tally, one by one
  (∀ (s : State) (l i w : Nat) (ecc : Ecc), standsAt s l i w .tally = true → bitOf w 20 = false →
    let j := bitsOf w 19 14
    let attr := tensorAttr (s.row l).prog j
    let id := tensorId (s.row l).prog j
    attrOut attr < 7 → (s.job (s.rowSlice l)).isOpen = false ∨ (s.job (s.rowSlice l)).tallySet.contains id = false →
    exec (.tally l i ecc) s = .next (trapsAt (counted s ecc) l i 0x10 id)) ∧
  (∀ (s : State) (l i w : Nat) (ecc : Ecc), standsAt s l i w .tally = true → bitOf w 20 = false →
    let u := counted s ecc
    let n := u.needle l i
    let j := bitsOf w 19 14
    let code := attrOut (tensorAttr (s.row l).prog j)
    let id := tensorId (s.row l).prog j
    let k := s.rowSlice l
    let i0 := n.gv (bitsOf w 13 9) % 2 ^ 40 + 8 * bitsOf w 8 7
    let x := fun e => n.term (fD w) code (8 * bitsOf w 8 7 + e)
    code < 7 → isMx code = false → n.gp (bitsOf w 13 9) = false → (s.job k).isOpen = true → (s.job k).tallySet.contains id = true →
    let v := (List.range (bitsOf w 6 4 + 1)).foldl (fun v e =>
      v.tallyAdd k (elementTally (s.stepCtr k) id ((i0 + e) % 2 ^ 40) code [(x e).1] (x e).2)) u
    exec (.tally l i ecc) s =
      .next (goesTo v l i (n.mark ((List.range (bitsOf w 6 4 + 1)).any (fun e => (x e).2))) (n.pc + 4)))

/-- A row whose other needles wait at the same row-collective instruction as the one that needle `i` issues now (R380). -/
def lastToIssue (s : State) (l i w : Nat) (mn : Mn) : Bool :=
  let n := s.needle l i
  standsAt s l i w mn && isCollective (s.rowKind l) mn &&
    (List.range 16).all (fun j => j = i || (s.needle l j).wait = .collective n.pc w ((collectiveRegs mn w).map n.gv))

/-- `s` once needle `i` of row `l` has issued the row-collective instruction `w` and waits. -/
def issued (s : State) (l i w : Nat) (mn : Mn) (ecc : Ecc) : State :=
  let n := s.needle l i
  (counted s ecc).setNeedle l i { n with wait := .collective n.pc w ((collectiveRegs mn w).map n.gv), resumeAt := none }

/-- Row-collective instructions, the matrix block, END, WAITB and WAITT (R288, R293, R375, R380 to R389). -/
def Obligations.RowCollectives : Prop :=
  -- a needle that is not the last to issue waits, and the row does not act
  (∀ (s : State) (l i w j : Nat) (ecc : Ecc) (mn : Mn), standsAt s l i w mn = true → isCollective (s.rowKind l) mn = true →
    j < 16 → j ≠ i → (s.waiters l).contains j = false → (∀ k ∈ List.range 16, (s.needle l k).wait ≠ .ended) →
    exec (needleInstr mn l i ecc) s = .next (issued s l i w mn ecc)) ∧
  -- a needle has ended: ROW_MISMATCH in every needle that waits
  (∀ (s : State) (l i w j : Nat) (ecc : Ecc) (mn : Mn), standsAt s l i w mn = true → isCollective (s.rowKind l) mn = true →
    j < 16 → (s.needle l j).wait = .ended →
    let u := issued s l i w mn ecc
    exec (needleInstr mn l i ecc) s = .next (u.trapNeedles l (u.waiters l) 0x12 0)) ∧
  -- all 16 wait, and not at the same instruction with the same operand values: the same trap
  (∀ (s : State) (l i w j : Nat) (ecc : Ecc) (mn : Mn), standsAt s l i w mn = true → isCollective (s.rowKind l) mn = true →
    let u := issued s l i w mn ecc
    u.waiters l = List.range 16 → j < 16 → (u.needle l j).wait ≠ (u.needle l i).wait →
    exec (needleInstr mn l i ecc) s = .next (u.trapNeedles l (List.range 16) 0x12 0)) ∧
  (∀ (s : State) (l i w : Nat) (ecc : Ecc), lastToIssue s l i w .vxch = true →
    let u := issued s l i w .vxch ecc
    let g := (s.needle l i).gv (fB w)
    exec (.vxch l i ecc) s = .next (u.mapRow' l (fun k n =>
      let x := u.needle l ((k + g) % 16)
      ((n.mark (x.vp (fA w) ≠ 0)).setV (fD w) (x.vv (fA w)) (x.vp (fA w))).goOn))) ∧
  (∀ (s : State) (l i w : Nat) (ecc : Ecc), lastToIssue s l i w .mclr = true →
    let u := issued s l i w .mclr ecc
    let r := u.row l
    exec (.mclr l i ecc) s = .next ((u.setRow l { r with tile := [], tilePoison := [], tileLive := false }).mapRow' l (fun _ n => n.goOn))) ∧
  (∀ (s : State) (l i w : Nat) (ecc : Ecc) (mn : Mn), mn = .mld ∨ mn = .mma ∨ mn = .mst → lastToIssue s l i w mn = true →
    let u := issued s l i w mn ecc
    let n := u.needle l i
    let x := if mn = .mld then u.actMld l w n else if mn = .mma then u.actMma l w n else u.actMst l i w n
    exec (needleInstr mn l i ecc) s = .next (
      if x.2.isSome then u.trapNeedles l (List.range 16) (x.2.getD (0, 0)).1 (x.2.getD (0, 0)).2
      else x.1.mapRow' l (fun _ m => m.goOn))) ∧
  -- MMA traps with MATRIX on K = 0, slices not loaded, or BF16 against FP8; else every tile element accumulates K products in order
  (∀ (s : State) (l w : Nat) (n : Needle),
    let r := s.row l
    let k0 := n.gv (fA w)
    let k := n.gv (fB w)
    k = 0 ∨ r.bufA.slices < k0 + k ∨ r.bufB.slices < k0 + k ∨ (r.bufA.fmt = 1) ≠ (r.bufB.fmt = 1) → s.actMma l w n = (s, some (0x13, k))) ∧
  (∀ (s : State) (l w : Nat) (n : Needle),
    let r := s.row l
    let k0 := n.gv (fA w)
    0 < n.gv (fB w) → k0 + n.gv (fB w) ≤ r.bufA.slices → k0 + n.gv (fB w) ≤ r.bufB.slices → (r.bufA.fmt = 1) = (r.bufB.fmt = 1) →
    let t := (s.actMma l w n).1
    (∀ e ∈ List.range 1024, fetch 0 (t.row l).tile e = (List.range' k0 (n.gv (fB w))).foldl (fun c k =>
      roundTo fmtFp32 false none (numAdd (decodeFloat fmtFp32 c) (numMul (r.bufA.num k (e / 32)) (r.bufB.num k (e % 32))))) (fetch 0 r.tile e)) ∧
    (t.row l).tileLive = true) ∧
  (∀ (s : State) (l i w : Nat) (ecc : Ecc), standsAt s l i w .mrd = true →
    let u := counted s ecc
    let n := u.needle l i
    let r := u.row l
    let at_ := fun j => 32 * (2 * i + bitsOf w 4 4) + 8 * bitsOf w 3 2 + j
    let xs := (List.range 8).map (fun j => (fetch 0 r.tile (at_ j), fetch false r.tilePoison (at_ j)))
    exec (.mrd l i ecc) s = .next (ran u l i ((n.mark (xs.any (fun x => x.2))).putLanes (fD w) 0 0 xs))) ∧
  -- SAFE: a live tile traps in every needle; a PAUSING row stops there, another goes on; streams end
  (∀ (s : State) (l i w : Nat) (ecc : Ecc), lastToIssue s l i w .safe = true →
    let u := issued s l i w .safe ecc
    let v := u.mapRow' l (fun _ n => { n.goOn with streams := [] })
    let r := v.row l
    exec (.safe l i ecc) s = .next (
      if (s.row l).tileLive then u.trapNeedles l (List.range 16) 0x14 0
      else if s.rowState l = 5 then ((v.setRow l { r with safe := (s.needle l i).pc }).setRowState l 6).rowDone l 0 else v)) ∧
  -- END: the needle ends; when all 16 have, the row is LOADED again
  (∀ (s : State) (l i w : Nat) (ecc : Ecc), standsAt s l i w .endRow = true →
    (∀ k ∈ List.range 16, k = i ∨ (s.needle l k).wait = .ended ∨ (s.needle l k).wait = .run) →
    let n := s.needle l i
    let u := (counted s ecc).setNeedle l i { n with wait := .ended, resumeAt := none }
    exec (.endRow l i ecc) s = .next (
      if (List.range 16).all (fun k => k = i || (s.needle l k).wait = .ended) then (u.setRowState l 3).rowDone l 0 else u)) ∧
  (∀ (s : State) (l i w : Nat) (ecc : Ecc), lastToIssue s l i w .waitb = true →
    let u := issued s l i w .waitb ecc
    exec (.waitb l i ecc) s = .next (u.mapRow' l (fun _ n => { n with wait := .beat (s.rd Reg.GLB_BEAT_SEQ).toNat }))) ∧
  -- WAITB outside SERVING rows and WAITT are plain waits of one needle
  (∀ (s : State) (l i w : Nat) (ecc : Ecc), standsAt s l i w .waitb = true → s.rowKind l ≠ 4 →
    let n := s.needle l i
    exec (.waitb l i ecc) s = .next ((counted s ecc).setNeedle l i { n with wait := .beat (s.rd Reg.GLB_BEAT_SEQ).toNat, resumeAt := none })) ∧
  (∀ (s : State) (l i w : Nat) (ecc : Ecc), standsAt s l i w .waitt = true →
    let n := s.needle l i
    let m := n.mark (n.gp (fA w) || n.gp (fB w))
    exec (.waitt l i ecc) s =
      .next ((counted s ecc).setNeedle l i { m with wait := .trigger (n.gv (fA w)) (n.gv (fB w) % 2 ^ 32), resumeAt := none })) ∧
  (∀ (s : State) (l i q : Nat), (s.needle l i).wait = .beat q → s.rowRuns l = true →
    let n := s.needle l i
    exec (.waitbWake l i) s = .next (
      if (s.rd Reg.GLB_BEAT_SEQ).toNat = q then s else if s.rowKind l = 4 then s.safePoint l n.pc
      else s.setNeedle l i { n with pc := n.pc + 4, wait := .run })) ∧
  (∀ (s : State) (l i c v : Nat), (s.needle l i).wait = .trigger c v → s.rowRuns l = true → c < s.shareSize 16384 →
    let n := s.needle l i
    exec (.waittWake l i) s = .next (
      if s.ctrReached (s.ctrIdx (s.rowSlice l) c) v then s.setNeedle l i { n with pc := n.pc + 4, wait := .run } else s))

/-! ### Memory and the optimizer (file 07) -/

/-- Requester `w` comes before `v` in the rotation that starts after the last granted one (R429). -/
def rotates (last : Nat) (w v : ArbWait) : Bool :=
  if last < w.req.idx then v.req.idx ≤ last || w.req.idx ≤ v.req.idx else v.req.idx ≤ last && w.req.idx ≤ v.req.idx

/-- ARBITER_DECISION, MEMORY_TRANSFER and the commands of memory errors, scrubbing, refresh and prefetchers (R411, R418 to R424, R428 to R434). -/
def Obligations.MemoryShared : Prop :=
  -- a decision grants a requester of highest priority, the first of them in the rotation; every other one gains a step, up to 7
  (∀ (s : State) (k : Nat) (withdrawn : Bool), k / 4096 < 2 → (s.arb k).running = none → (s.arb k).waiting ≠ [] →
    let a := s.arb k
    ∃ t : State, exec (.arbiterDecision k [] withdrawn) s = .next t ∧
      (∃ w ∈ a.waiting, (∀ v ∈ a.waiting, v = w ∨ v.prio < w.prio ∨ v.prio = w.prio ∧ rotates a.last w v = true) ∧ (t.arb k).last = w.req.idx ∧
        (t.arb k).waiting = (a.waiting.erase w).map (fun v => { v with prio := min (v.prio + 1) 7 }) ∧
        (t.arb k).running = (if withdrawn then none else some { w with prio := w.req.base })) ∧
      t = (s.setArb k (t.arb k)).count (if withdrawn then Ctr.MEM_EMPTY_GRANT else Ctr.MEM_GRANT)) ∧
  -- an arrival joins at its base class, once; with nothing waiting and nothing running it is granted at once
  (∀ (s : State) (k : Nat) (r : ArbReq), k / 4096 < 2 → (s.arb k).running = none → (s.arb k).waiting = [] →
    ∃ t : State, exec (.arbiterDecision k [r, r] false) s = .next t ∧ (t.arb k).running = some ⟨r, r.base, 0⟩ ∧ (t.arb k).waiting = []) ∧
  -- preemption: a transfer longer than 256 bytes, for a higher base class, at most three times; it waits at priority 7
  (∀ (s : State) (k : Nat) (r : ArbReq) (w : ArbWait), k / 4096 < 2 → (s.arb k).running = some w → (s.arb k).waiting = [] →
    256 < w.req.len → w.preempts < 3 → w.req.base < r.base →
    ∃ t : State, exec (.arbiterDecision k [r] false) s = .next t ∧ t.ctr Ctr.MEM_PREEMPT = (s.ctr Ctr.MEM_PREEMPT).bump ∧
      (t.arb k).running = some ⟨r, r.base, 0⟩ ∧ (t.arb k).waiting = [⟨w.req, 7, w.preempts + 1⟩]) ∧
  -- a transfer runs to its end, whole, with the errors it meets; a length that no agent may use moves nothing
  (∀ (s : State) (k : Nat) (ce ue : List Nat) (cached : Option Bool) (w : ArbWait), (s.arb k).running = some w →
    let a := s.arb k
    let u := (s.setArb k { a with running := none }).memErrors ce ue
    exec (.memoryTransfer k ce ue cached) s = .next (
      if w.req.len < 32 ∨ 2048 < w.req.len then s else if cached = some true then u.count Ctr.MEM_SC_HIT
      else if cached = some false then u.count Ctr.MEM_SC_MISS else u)) ∧
  -- a corrected error is counted for the owner, and at the threshold of its second raises the warning once
  (∀ (s : State) (a n : Nat), s.ownerOf a = some n → fetch 0 s.ceSec n + 1 ≠ s.rf Reg.MEM_CE_THRESH 15 0 →
    s.memErrors [a] [] = { s.count (Ctr.MEM_S_CE n) with ceSec := store 0 s.ceSec n (fetch 0 s.ceSec n + 1) }) ∧
  (∀ (s : State) (a n : Nat), s.ownerOf a = some n → fetch 0 s.ceSec n + 1 = s.rf Reg.MEM_CE_THRESH 15 0 →
    let u := { s.count (Ctr.MEM_S_CE n) with ceSec := store 0 s.ceSec n (fetch 0 s.ceSec n + 1) }
    s.memErrors [a] [] = (u.event Reg.MEM_EVT 1).failureWarning n) ∧
  -- an uncorrected error tags four words of HBM or one of the hank and no other word, and records the address
  (∀ (s : State) (a n k d x : Nat), s.ownerOf a = some n → s.place a = .hbm d x → s.rf (Reg.SPN_RING_CFG n) 31 31 = 0 →
    let t := s.memErrors [] [a]
    fetch false t.tags k = (fetch false s.tags k || (4 * (a / 32) ≤ k && k < 4 * (a / 32) + 4)) ∧ t.mem = s.mem ∧
    t.rd (Reg.MEM_UE_ADDR_LO n) = BitVec.ofNat 32 (a / 32 * 32) ∧ t.rf (Reg.MEM_UE_ADDR_HI n) 31 31 = 1) ∧
  (∀ (s : State) (a n k d x y : Nat), s.ownerOf a = some n → s.place a = .hank d x y →
    s.rf (Reg.SPN_RING_CFG n) 31 31 = 0 →
    let t := s.memErrors [] [a]
    fetch false t.tags k = (fetch false s.tags k || k == a / 8)) ∧
  (∀ (s : State) (t : Nat), exec (.ceRateWindow t) s = .next (if t % 1000000000 = 0 then { s.reach t with ceSec := [] } else s)) ∧
  (∀ (s : State) (d units : Nat) (ce ue : List Nat), d < 4 →
    exec (.patrolScrub d units ce ue) s =
      .next (if s.rf Reg.MEM_CTL 0 0 = 1 then (s.memErrors ce ue).countN Ctr.MEM_SCRUB units else s)) ∧
  (∀ (s : State) (d st : Nat) (re : Bool), d < 4 → st < s.stacksOf d →
    exec (.hbmRefresh d st re) s = .next (if re then (s.count Ctr.MEM_CAL_RETRAIN).event Reg.MEM_EVT 2 else s)) ∧
  (∀ (s : State) (d reads ended : Nat), d < 4 →
    let used := fetch 0 s.prefetch d - ended
    exec (.streamDeclare d reads ended) s = .next (
      if used < 64 then { s with prefetch := store 0 s.prefetch d (used + 1) }
      else ({ s with prefetch := store 0 s.prefetch d used }.countN Ctr.MEM_PF_OVER reads).event Reg.MEM_EVT 3))

/-- MEM_HANK_MODE_WRITE and HANK_MODE_CHANGE_DONE (R14, R408, R409, R649). -/
def Obligations.HankModes : Prop :=
  (∀ (s : State) (p d : Nat) (v : Word), d < 4 → s.hasSlice (s.sliceOfDie d) = true →
    let a := Reg.MEM_HANK_MODE d
    let named := fun g => bitOf (fieldOf v 31 16) g
    let old := fun g => bitOf (s.rf a 15 0) g
    let new := fun g => bitOf v.toNat g
    ∃ t : State, exec (.memHankModeWrite (.pf0 p) d v) s = .next t ∧
      ((∃ g ∈ List.range 16, named g = true ∧ bitOf (s.rd (Reg.MEM_HANK_BUSY d)).toNat g = true) → t = s.reject (.pf0 p) a 0x0280) ∧
      ((∀ g ∈ List.range 16, named g = false ∨ bitOf (s.rd (Reg.MEM_HANK_BUSY d)).toNat g = false) →
        (∃ g ∈ List.range 16, named g = true ∧ new g = true ∧ old g = false ∧ s.segRegistered d g = true) → t = s.reject (.pf0 p) a 0x02D3) ∧
      ((∀ g ∈ List.range 16, named g = false ∨ bitOf (s.rd (Reg.MEM_HANK_BUSY d)).toNat g = false ∧
          (new g = false ∨ old g = true ∨ s.segRegistered d g = false)) →
        (∀ g ∈ List.range 16, bitOf (t.rf a 15 0) g = (if named g then new g else old g) ∧
          bitOf (t.rd (Reg.MEM_HANK_BUSY d)).toNat g = (bitOf (s.rd (Reg.MEM_HANK_BUSY d)).toNat g || (named g && new g != old g)) ∧
          (named g = true ∧ new g ≠ old g ∨ fetch 0 t.mem (hankBase d + g * 0x4000000) = fetch 0 s.mem (hankBase d + g * 0x4000000)) ∧
          (named g = false ∨ new g = old g ∨ fetch 0 t.mem (hankBase d + g * 0x4000000 + 5) = 0)))) ∧
  -- a doorbell page reaches only the segments of its slice's own dies
  (∀ (s : State) (m port d : Nat) (pasid : Option Nat) (v : Word), d < 4 → s.hostLost port = false → s.pasidOk m pasid = true → s.hasSlice m = true →
    s.sliceOfDie d ≠ m →
    exec (.memHankModeWrite (.page m port pasid) d v) s = .next (s.reject (.page m port pasid) (Reg.MEM_HANK_MODE d) 0x0183)) ∧
  (∀ (s : State) (d g : Nat), d < 4 → g < 16 → exec (.hankModeChangeDone d g) s = .next (s.wf (Reg.MEM_HANK_BUSY d) g g 0))

/-- The optimizer's commands (R442, R446 to R448, R450, R462, R463). -/
def Obligations.OptimizerEngine : Prop :=
  -- ENABLE: the checks of R442; the first that fails is shown with its entry, else the engine is enabled and nothing else changes
  (∀ (s : State) (p n : Nat) (v : Word), s.hasSlice n = true → fieldOf v 31 31 = 1 → fieldOf v 1 0 = 1 →
    let u := s.wr (Reg.OPT_CMD n) (v &&& 3)
    let r := u.optCheck n
    exec (.optEnable (.pf0 p) n v) s = .next (
      if r.1 = 0 then ((u.wf (Reg.OPT_STAT n) 27 16 0).wf (Reg.OPT_STAT n) 15 0 0).wf (Reg.OPT_STAT n) 31 31 1
      else (u.wf (Reg.OPT_STAT n) 27 16 r.2).wf (Reg.OPT_STAT n) 15 0 r.1)) ∧
  -- an enabled engine is not enabled again, and no entry passes with an illegal recipe or a missing OPTIMIZER row
  (∀ (s : State) (n : Nat), s.optEnabled n = true → (s.optCheck n).1 ≠ 0) ∧
  (∀ (s : State) (n i : Nat), s.optCheck n = (0, 0) → i < s.optEntries n →
    let e := s.optEntry n i
    e.legal = true ∧ s.optPlaced n e = true ∧ e.param < s.optParams n ∧ (∃ d ∈ s.diesOf n, s.optDie n e = some d ∧ s.optRowsOf d ≠ [])) ∧
  (∀ (s : State) (n i j : Nat), s.optCheck n = (0, 0) → i < j → j < s.optEntries n →
    let e := s.optEntry n i
    let f := s.optEntry n j
    e.tensor ≠ f.tensor ∧ e.gradColl ≠ f.gradColl ∧ e.pubColl ≠ f.pubColl) ∧
  -- DISABLE: not on a disabled or draining engine; it waits for staged items, else drops what the engine holds at once
  (∀ (s : State) (p n : Nat) (v : Word), s.hasSlice n = true → fieldOf v 31 31 = 1 → fieldOf v 1 0 = 2 →
    let u := s.wr (Reg.OPT_CMD n) (v &&& 3)
    let o := s.opt
    exec (.optDisable (.pf0 p) n v) s = .next (
      if u.optEnabled n = false ∨ o.drain.contains n = true then u.optStat n 0x0291 0
      else if o.items.any (fun x => x.slice = n && x.staged) then
        ({ u with opt := { o with drain := o.drain ++ [n] } }.optStat n 0 0).wf (Reg.OPT_STAT n) 30 30 1
      else (({ u with opt := { o with items := o.items.filter (fun x => x.slice ≠ n), waits := o.waits.filter (fun x => x.slice ≠ n),
                                      drain := o.drain.filter (fun x => x ≠ n) } }.wf (Reg.OPT_STAT n) 31 31 0).wf (Reg.OPT_STAT n) 30 30 0).optStat n 0 0)) ∧
  (∀ (s : State) (p n a : Nat) (v : Word), s.optEnabled n = true → s.optCfgWrite (.pf0 p) n a v = s.reject (.pf0 p) a 0x0291) ∧
  -- the oldest delayed item that a ring has room for is written
  (∀ (s : State) (n : Nat), exec (.optWorkDispatch n) s = .next (match s.opt.waits.find? (fun w => w.slice = n && (s.optTry w).2) with
    | none => s
    | some w => ({ s with opt := { s.opt with waits := s.opt.waits.erase w } }.optTry w).1)) ∧
  -- a DONE write stages the item of its slot and sequence number, and any other is ignored and counted
  (∀ (s : State) (l slot : Nat) (x : OptItem),
    let o := s.opt
    let ring := s.optRing (s.rowSlice l) (rowDie l) ((s.optRowsOf (rowDie l)).findIdx (fun y => y == l))
    o.items = [x] → x.row = l → x.slot = slot → x.staged = false →
    exec (.optItemStaged l slot) s = .next (
      if x.seq = s.le (ring + 64 * slot + 60) 4 then { s with opt := { o with items := [{ x with staged := true }] } }
      else (s.count Ctr.OPT_BAD_DONE).event Reg.OPT_EVT 1)) ∧
  -- the commit of a staged block: planes, stamp, published image, and the block goes to the all-gather
  (∀ (s : State) (l slot d : Nat) (x : OptItem),
    let o := s.opt
    let e := s.optEntry x.slice x.entry
    let u := { s with opt := { o with items := [] } }
    let stg := s.optRing x.slice d ((s.optRowsOf d).findIdx (fun y => y == l)) + 64 * 2 ^ s.optLog2 x.slice + 3072 * x.slot
    o.items = [x] → x.row = l → x.slot = slot → x.staged = true → x.len ≠ 0 → s.optDie x.slice e = some d → o.drain = [] →
    let a := u.copyMarked (e.master + 1024 * x.ord) stg (4 * x.len)
    let b := if e.m1 = 0 then a else a.copyMarked (e.m1 + 1024 * x.ord) (stg + 1024) (4 * x.len)
    let c := if e.m2 = 0 then b else b.copyMarked (e.m2 + 1024 * x.ord) (stg + 2048) (4 * x.len)
    let w := ((c.writeLe (e.stamp + 8 * x.ord) 8 x.step).optCast x.slice e x.step x.block x.ord x.len).count Ctr.OPT_COMMIT
    exec (.optCommit l slot) s = .next (w.sendReady e.pubColl)) ∧
  (∀ (s : State) (l slot : Nat), s.opt.items = [] → exec (.optCommit l slot) s = .next s)

/-! ### The Carder (file 08) -/

/-- The feed command write of a path that reaches slice `n`: `v` with GO set, OP `op`, and the feed it names (R508). -/
def feedAsked (s : State) (n : Nat) (v : Word) : State := s.wr (Reg.CRD_CMD n) (v &&& 0xF07)

/-- The status register of feed commands: feed and status (R508). -/
def feedEnds (s : State) (n f st : Nat) : State := (s.wf (Reg.CRD_STAT n) 27 24 f).wf (Reg.CRD_STAT n) 15 0 st

/-- FEED_OPEN, FEED_CLOSE, FEED_RETARGET, FEED_STEP_WRITE and FEED_STEP_DELIVERED (R466, R488 to R490, R506, R508). -/
def Obligations.FeedControl : Prop :=
  -- OPEN: the first failing check is shown and nothing else changes; else the feed is OPEN at the step counter, and a TRAIN feed reads its first steps
  (∀ (s : State) (p n : Nat) (v : Word), s.hasSlice n = true → fieldOf v 31 31 = 1 → fieldOf v 2 0 = 1 →
    let f := fieldOf v 11 8
    let u := feedAsked s n v
    let a := s.addrOf (Reg.CRD_FD_LO n) (Reg.CRD_FD_HI n) + 128 * f
    let d := s.readFeed a
    let spans := s.localSpans d
    let tbl := s.streamEntries d
    let st := u.feedOpenStatus n f a d spans tbl
    let k := s.stepCtr n
    let c := s.carder
    let x : Feed := { slice := n, idx := f, d := d, spans := spans, table := tbl, first := k, next := k }
    let w := feedEnds (({ u with carder := { c with feeds := c.feeds ++ [x] } }).wf (Reg.CRD_FSTATE n) (2 * f + 1) (2 * f) 1) n f 0
    exec (.feedOpen (.pf0 p) n v) s = .next (
      if st ≠ 0 then feedEnds u n f st else if d.mode = 1 then w.readSteps n f (k + d.lookahead) (d.lookahead + 1) else w)) ∧
  -- a feed that is open or halted is not opened again, and LOOKAHEAD, sizes and rows are checked (R466)
  (∀ (s : State) (n f a : Nat) (d : FeedDesc) (spans : List LocalSpan) (tbl : List StreamEntry), s.feedOpenStatus n f a d spans tbl = 0 →
    s.feedState n f = 0 ∧ 1 ≤ d.lookahead ∧ d.lookahead ≤ 4 ∧ d.rps ≤ 4096 ∧ 1 ≤ d.localCnt ∧ d.localCnt ≤ 48 ∧ (d.c = 1 ∨ d.c = 3) ∧
      (∀ e ∈ spans, s.epOfSlice n e.ep = true ∧ e.cnt * d.stitchSize ≤ d.slotBytes) ∧
      (∀ k ∈ s.feedDies d spans, s.feedTargets d k ≠ [])) ∧
  -- CLOSE: the feed's items, frames and ring positions go
  (∀ (s : State) (p n : Nat) (v : Word), n < 4 → s.hasSlice n = true → fieldOf v 31 31 = 1 → fieldOf v 2 0 = 2 →
    let f := fieldOf v 11 8
    let u := feedAsked s n v
    ∃ t : State, exec (.feedClose (.pf0 p) n v) s = .next t ∧
      (u.feedState n f ≠ 1 ∧ u.feedState n f ≠ 2 → t = feedEnds u n f 0x02A0) ∧
      (u.feedState n f = 1 ∨ u.feedState n f = 2 →
        (∀ x ∈ t.carder.feeds, x ∈ s.carder.feeds ∧ ¬ (x.slice = n ∧ x.idx = f)) ∧
        (∀ x ∈ s.carder.feeds, x ∈ t.carder.feeds ∨ (x.slice = n ∧ x.idx = f)) ∧
        t.carder.items = s.carder.items.filter (fun i => !(i.slice = n && i.feed = f)) ∧ t.mem = s.mem ∧
        t.rf (Reg.CRD_STAT n) 15 0 = 0 ∧ t.rf (Reg.CRD_STAT n) 27 24 = f)) ∧
  -- RETARGET: only of a stopped feed; its new local table is checked, and it resumes from the step being rerun
  (∀ (s : State) (p n : Nat) (v : Word) (x : Feed), s.hasSlice n = true → fieldOf v 31 31 = 1 → fieldOf v 2 0 = 3 →
    let f := fieldOf v 11 8
    let u := feedAsked s n v
    s.feed? n f = some x →
    let spans := s.localSpans x.d
    let k := s.stepCtr n
    let w := feedEnds (u.setFeed { x with spans := spans, stopped := false, first := k, next := k, released := [], written := [], ready := [] }) n f 0
    exec (.feedRetarget (.pf0 p) n v) s = .next (
      if u.feedState n f ≠ 1 ∨ x.stopped = false then feedEnds u n f 0x02A0
      else if spans.all (fun e => e.cnt * x.d.stitchSize ≤ x.d.slotBytes) = false then feedEnds u n f 0x01A1
      else if u.spansOk n x.d spans = false then feedEnds u n f 0x01A3
      else if (u.feedDies x.d spans).any (fun j => u.feedTargets x.d j = []) then feedEnds u n f 0x02A1
      else w.readSteps n f (k + x.d.lookahead) (x.d.lookahead + 1))) ∧
  -- a step is written for an endpoint once: when all its items are packed and its slot is free
  (∀ (s : State) (n f ep k : Nat) (x : Feed) (e : LocalSpan), s.feed? n f = some x → x.spans.find? (fun y => y.ep = ep) = some e →
    let c := s.carder
    let its := c.items.filter (fun i => i.slice = n && i.feed = f && i.time = k && e.lo ≤ i.stitch && i.stitch < e.lo + e.cnt)
    let base := x.d.dstOff + k % x.d.lookahead * x.d.slotBytes
    let u := its.foldl (fun u i =>
      u.epWrite ep (base + (i.stitch - e.lo) * x.d.stitchSize + i.item * x.d.imageBytes) (u.readMarked i.pack x.d.imageBytes)) s
    let uc := u.carder
    exec (.feedStepWrite n f ep k) s = .next (
      if s.feedRuns x = true ∧ x.d.mode = 1 ∧ (ep, k) ∉ x.written ∧ (ep, k) ∉ x.ready ∧ s.slotFree x ep k = true ∧
          its.length = e.cnt * x.d.rps ∧ (∀ i ∈ its, i.stage = .packed) then
        ({ u with carder := { uc with items := uc.items.filter (fun i => !its.contains i) } }).setFeed { x with written := x.written ++ [(ep, k)] }
      else s)) ∧
  -- FEED_READY goes out once the step is written; the done counter counts when every endpoint has it
  (∀ (s : State) (n f ep k : Nat) (x : Feed), s.feed? n f = some x →
    let y := { x with written := x.written.erase (ep, k), ready := x.ready ++ [(ep, k)] }
    let u := s.setFeed y
    let w := if ep = 0 then u else u.emit (.feedReady ep x.d.id k (s.epLinks ep).length)
    exec (.feedStepDelivered n f ep k) s = .next (
      if (ep, k) ∉ x.written then s
      else if x.spans.all (fun e => y.ready.contains (e.ep, k)) && x.d.doneEn then w.ctrBumpOpt n (some x.d.doneCtr) else w))

/-- ITEM_DECODE_START, ITEM_DECODE_DONE, CARDER_ITEM_WRITE, FEED_ITEM_PACKED, RTP_PACKET and FRAME_AGE_EXPIRE (R474, R482 to R487, R492, R494). -/
def Obligations.FeedItems : Prop :=
  -- the oldest waiting item of a slice that runs takes the lowest free pipe of its die
  (∀ (s : State) (k : Nat) (i : FeedItem) (rest : List FeedItem), s.carder.items = i :: rest → i.die = k → i.stage = .waiting →
    s.sliceState i.slice = 0 → (∀ y ∈ rest, y.die ≠ k ∨ y.pipe = none) → rest.contains i = false →
    let c := s.carder
    exec (.itemDecodeStart k) s = .next { s with carder := { c with items := { i with stage := .decoding 0 } :: rest } }) ∧
  (∀ (s : State) (k : Nat), (∀ p ∈ List.range 16, s.carder.items.any (fun i => i.die = k && i.pipe = some p) = true) →
    exec (.itemDecodeStart k) s = .next s) ∧
  -- a TRAIN item: the image of its cursor's record, or under ON_ERROR zeros, the next record that decodes, or a halt
  (∀ (s : State) (k p : Nat) (fetched : List (List Byte)) (i : FeedItem) (x : Feed), s.carder.items = [i] → i.die = k → i.pipe = some p →
    s.feed? i.slice i.feed = some x → x.d.mode = 1 →
    let d := x.d
    let c := s.carder
    let pos := (i.time * d.stitches + i.stitch) * d.rps + i.item
    let one := fun j => (s.recordBytes x.slice d (s.cursorAt d (pos + j)) fetched[j]?).bind (decodeMarked d.codec d.bayer d.c d.itemBytes)
    let done := fun (u : State) (dec : Nat) (m : Image × List Bool) =>
      (({ u with carder := { c with items := [{ i with stage := .ready, decision := dec, image := m.1, marks := m.2 }] } }).count Ctr.CRD_REC : State)
    let bad := (s.count Ctr.CRD_DECODE_ERR).event Reg.CRD_EVT 1
    let log := fun dec ref => bad.feedLog (feedRecord i.time d.id dec 0 0 (i.stitch + 65536 * i.item) ref)
    let zeros := done (log 6 (s.cursorAt d pos)) 6 (zeroImage d.w d.h d.c, [])
    exec (.itemDecodeDone k p fetched) s = .next (match one 0 with
      | some m => done s 0 m
      | none =>
        if d.onError = 0 then zeros
        else if d.onError = 1 then
          (match (List.range' 1 8).find? (fun j => (one j).isSome) with
          | some j => done ((log 7 (s.cursorAt d (pos + j))).count Ctr.CRD_SUBST) 7 ((one j).getD (zeroImage d.w d.h d.c, []))
          | none => zeros)
        else bad.feedHalt i.slice i.feed 0x0801 2)) ∧
  -- a decoded item goes into its row's ring: header, pixels with their marks, the row's counter; not into a full ring or a pausing row
  (∀ (s : State) (l : Nat) (i : FeedItem) (x : Feed), s.carder.items = [i] → i.row = l → i.stage = .ready → s.feed? i.slice i.feed = some x →
    let key := (16 * i.slice + i.feed) * 128 + l
    let seq := fetch 0 s.carder.seqs key
    let slot := seq % 2 ^ x.d.workLog2
    let a := s.itemRing x.d l + slot * x.d.itemBytes
    let pack := s.freeBits 40
    let u := ({ s with free := s.free + 1 }.writeB a (itemHeader seq i pack)).writeMarked (a + 64) i.pixelBytes
    let c := u.carder
    exec (.carderItemWrite l) s = .next (
      if s.rowState l = 5 ∨ s.rowState l = 6 then s
      else { u with carder := { c with items := [{ i with stage := .ring, seq := seq, slot := slot, pack := pack }],
                                       seqs := store 0 c.seqs key ((seq + 1) % 2 ^ 32) } }.rowTrigger l)) ∧
  -- the row's DONE write, equal to SEQ, ends its work on the item
  (∀ (s : State) (n f l slot : Nat) (i : FeedItem) (x : Feed), s.carder.items = [i] → s.feed? n f = some x → i.slice = n → i.feed = f →
    i.row = l → i.slot = slot → i.stage = .ring →
    let c := s.carder
    exec (.feedItemPacked n f l slot) s = .next (
      if i.seq ≠ s.le (s.itemRing x.d l + slot * x.d.itemBytes + 60) 4 then s
      else { s with carder := { c with items := if x.d.mode = 1 then [{ i with stage := .packed }] else [] } })) ∧
  -- an RTP packet of another version, payload type or source, or malformed, is counted and placed nowhere
  (∀ (s : State) (st at_ : Nat) (p : List Byte) (x : Feed) (e : StreamEntry), s.streamFeed st = some (x, e) →
    bitsOf (byteAt p 0) 7 6 ≠ 2 ∨ bitsOf (byteAt p 1) 6 0 ≠ e.pt ∨ (e.ssrc ≠ 0 ∧ beAt p 8 4 ≠ e.ssrc) ∨ (rtpPayload p).bind (rtpPieces e) = none →
    exec (.rtpPacket st p at_) s = .next (s.count Ctr.CRD_PKT_BAD)) ∧
  -- the first packet of a frame opens it at its instant; the frame is complete with its last byte and its marker
  (∀ (s : State) (st at_ o total : Nat) (p bs : List Byte) (x : Feed) (e : StreamEntry), s.streamFeed st = some (x, e) →
    bitsOf (byteAt p 0) 7 6 = 2 → bitsOf (byteAt p 1) 6 0 = e.pt → e.ssrc = 0 ∨ beAt p 8 4 = e.ssrc →
    (rtpPayload p).bind (rtpPieces e) = some ([(o, bs)], total) → s.carder.frames = [] →
    let m := placeBytes [] o bs
    let c := s.carder
    let last := bitOf (byteAt p 1) 7
    exec (.rtpPacket st p at_) s = .next { s with carder := { c with frames :=
      [{ stream := st, ts := beAt p 4 4, first := at_, bytes := m, total := total, marker := last,
         done := if last && m.length = total then some at_ else none }] } }) ∧
  -- an incomplete frame older than FRAME_AGE_MS goes
  (∀ (s : State) (st ts now : Nat) (r : RtpFrame), s.carder.frames = [r] → r.stream = st → r.ts = ts → r.done = none →
    let u := s.reach now
    let c := s.carder
    exec (.frameAgeExpire st ts now) s = .next (
      if r.first + 1000000 * u.rf Reg.CRD_CTL 13 0 < u.now then { u with carder := { c with frames := [] } }.count Ctr.CRD_FRAME_DROP else u))

/-! ### Checkpoints and membership (file 09) -/

/-- A CHECKPOINT or RESTORE command word without GO as the register keeps it. -/
def ckpAsked (s : State) (n : Nat) (v : Word) : State := s.wr (Reg.CKP_CMD n) (v &&& 3)

/-- A checkpoint of boundary `b` is pending, and every other member's slice is asked for it (R516). -/
def ckpAskAll (s : State) (n b : Nat) : State := s.ckpRequestAll n b

/-- CKP_CHECKPOINT, CHECKPOINT_REQUEST, CHECKPOINT_CAPTURE, BACKGROUND_PAGE_COPY, COPY_BEFORE_WRITE, PAGE_ARRIVE, PUSH_DIGESTS_RECEIVE,
PUSH_CONFIRM and DEPOT_DRAIN (R515 to R538). -/
def Obligations.Checkpoints : Prop :=
  (∀ (s : State) (p n : Nat) (v : Word), s.hasSlice n = true → fieldOf v 31 31 = 1 → fieldOf v 30 2 = 0 → fieldOf v 1 0 = 1 →
    let u := ckpAsked s n v
    let b := s.stepOf (Reg.CKP_ARG_LO n) (Reg.CKP_ARG_HI n)
    let c := s.ckpOf n
    exec (.ckpCheckpoint (.pf0 p) n v) s = .next (
      if s.rf (Reg.CKP_ARG_HI n) 31 16 ≠ 0 then u.ckpStat n 0x01B0
      else if b < s.stepCtr n + 2 then u.ckpStat n 0x01B1
      else if (s.job n).memb ≠ 1 then u.ckpStat n 0x02B0
      else if b ∉ c.reqs ∧ 8 ≤ c.reqs.length then u.ckpStat n 0x03B0
      else (ckpAskAll u n b).ckpStat n 0)) ∧
  (∀ (s : State) (n b : Nat), (s.job n).isOpen = true →
    let c := s.ckpOf n
    exec (.checkpointRequest n b) s = .next (
      if b ∈ c.reqs then s.emit (.ckpRequestAck n b 0)
      else if c.reqs.length < 8 then (s.setCkp n { c with reqs := c.reqs ++ [b] }).emit (.ckpRequestAck n b 0)
      else s.emit (.ckpRequestAck n b 0x03B0))) ∧
  -- a capture that waits takes place once the running copy's pages have all been read
  (∀ (s : State) (n : Nat), exec (.checkpointCapture n) s = .next (
    if (s.ckpOf n).waiting = none then s else ((s.pendPages n).foldl (fun u e => u.capturePage e.1 e.2) s).endCopy n)) ∧
  -- the background copy reads one page at a time; the copy ends with the last
  (∀ (s : State) (d : Nat), (s.ckpOf (s.sliceOfDie d)).copying = none → exec (.backgroundPageCopy d) s = .next s) ∧
  (∀ (s : State) (d g : Nat), (s.ckpOf (s.sliceOfDie d)).copying ≠ none → (s.pendPages (s.sliceOfDie d)).find? (fun e => e.1 = d) = some (d, g) →
    let u := s.capturePage d g
    exec (.backgroundPageCopy d) s = .next (if u.pendPages (s.sliceOfDie d) = [] then u.endCopy (s.sliceOfDie d) else u)) ∧
  (∀ (s : State) (a d : Nat), s.statePage (a / 65536) = some d →
    exec (.copyBeforeWrite a) s =
      .next (if fetch false s.pend (a / 65536) then (s.capturePage d (a / 65536)).count Ctr.CKP_CBW_STALL else s)) ∧
  -- a page of the shard this slice guards: stored, and its difference landed; a wrong shard, die or page changes nothing
  (∀ (s : State) (n : Nat) (x : PushedPage), s.takesPush n x.part x.slice x.toState = false ∨ (s.diesOf n).contains x.die = false ∨
      s.regionSize x.die .state ≤ 65536 * x.page ∨ 2 ≤ (s.job n).memb → exec (.pageArrive n x) s = .next s) ∧
  (∀ (s : State) (n o : Nat) (x : PushedPage), s.hasSlice n = true → s.sliceState n = 0 → (s.job n).memb < 2 →
    s.takesPush n x.part x.slice x.toState = true → (s.diesOf n).contains x.die = true → 65536 * x.page < s.regionSize x.die .state →
    (s.imageOf n x.part x.slice).cond = .complete → (s.imageOf n x.part x.slice).landed = [] → 1 ≤ s.rf (Reg.CKP_LAND_SIZE n) 15 0 →
    s.imagePage x.toState x.die x.page + 65536 ≤ s.regionBase x.die .stage ∨
      s.regionBase x.die .stage + 0x100000 ≤ s.imagePage x.toState x.die x.page → o < 65536 →
    let a := s.imagePage x.toState x.die x.page
    let new := x.bytes.foldl (fun m e => store 0 m (e.1 % 65536) e.2) ([] : SMap Byte)
    xorPage (s.pageBytes (a / 65536)) new ≠ [] → s.landArea n x.die = (s.regionBase x.die .stage, 0x100000) → a % 65536 = 0 →
    ∃ t : State, exec (.pageArrive n x) s = .next t ∧ t.byte (a + o) = fetch 0 new o ∧
      (∃ i ∈ ((t.ckpOf n).image).toList, i.cond = .mid ∧ i.pushStep = x.step ∧ i.covered = true ∧
        (∃ l ∈ i.landed, l.page = x.page ∧ l.die = x.die ∧ l.step = x.step ∧ fetch 0 l.diff o = s.byte (a + o) ^^^ fetch 0 new o))) ∧
  -- the owner's digests: a push whose regions match is confirmed, and another is undone or spoils the image (R531, R532)
  (∀ (s : State) (n part slice step : Nat) (ds : List (Nat × List Byte)), s.hasSlice n = true → s.sliceState n = 0 → (s.job n).memb < 2 →
    s.takesPush n part slice ((s.ckpOf n).image.any (fun i => i.toState)) = true →
    let i := (s.imageOf n part slice).beginPush step (s.imageOf n part slice).toState
    let ok := (s.diesOf n).all (fun d => ds.contains (d, s.digestAt (s.imagePage i.toState d 0) (s.regionSize d .state)))
    let u := s.emit (.ckpAnswer part slice step ok)
    let rest := i.landed.filter (fun l => l.step ≠ step)
    exec (.pushDigestsReceive n part slice step ds) s = .next (
      if ok then u.setImage n (some { i with cond := .complete, prev := if i.cond = .mid && i.covered then i.step else none, step := some step })
      else if i.cond = .mid && i.covered then (u.undoStep i step).setImage n (some { i with cond := .complete, landed := rest })
      else (if i.cond = .invalid then u else u.event Reg.CKP_EVT 2).setImage n (some { i with cond := .invalid, landed := rest }))) ∧
  -- the buddy's answer: a shard record and the last step, or a failed checkpoint and a full capture next
  (∀ (s : State) (n step : Nat) (f : Confirm), (s.ckpOf n).confirming = [f] → f.step = step → (s.ckpOf n).promo = none →
    let c := s.ckpOf n
    let u := (s.setCkp n { c with confirming := [], noBuddy := false }).emit (.shardRecord n (s.shardRecord n f))
    exec (.pushConfirm n step true) s = .next (((u.wr (Reg.CKP_LAST_LO n) (BitVec.ofNat 32 step)).wr (Reg.CKP_LAST_HI n)
      (BitVec.ofNat 32 (2 ^ 31 + step / 2 ^ 32 % 65536))).count Ctr.CKP_TAKEN)) ∧
  (∀ (s : State) (n step : Nat) (f : Confirm), (s.ckpOf n).confirming = [f] → f.step = step →
    let c := s.ckpOf n
    exec (.pushConfirm n step false) s =
      .next ((((s.setCkp n { c with confirming := [], full := true }).ckpStat n 0x0702).count Ctr.CKP_FAILED).event Reg.CKP_EVT 1)) ∧
  (∀ (s : State) (n step : Nat) (ok : Bool), (s.ckpOf n).confirming = [] → exec (.pushConfirm n step ok) s = .next s) ∧
  -- DEPOT_DRAIN: nothing without an image; the record is kept; nothing is drained twice, nor of an image that is torn or invalid
  (∀ (s : State) (n : Nat) (r : List Byte) (ok : Bool), (s.ckpOf n).image = none → exec (.depotDrain n r ok) s = .next s) ∧
  (∀ (s : State) (n : Nat) (r : List Byte) (ok : Bool) (i : HeldImage), (s.ckpOf n).image = some i →
    i.cond = .invalid ∨ i.cond = .torn ∨ s.rf (Reg.CKP_CFG n) 16 16 = 0 ∨ i.step.all (fun k => k < leAt r 8 6) = true ∨
      i.chain.any (fun k => leAt r 8 6 ≤ k) = true →
    exec (.depotDrain n r ok) s = .next (s.setImage n (some { i with record := r }))) ∧
  (∀ (s : State) (n : Nat) (r : List Byte) (i : HeldImage), n < 4 → (s.ckpOf n).image = some i → i.cond = .complete → i.step = some (leAt r 8 6) →
    s.rf (Reg.CKP_CFG n) 16 16 = 1 → i.chain = none → i.broken = true →
    let step := leAt r 8 6
    let conn := s.rf (Reg.CKP_DEPOT n) 17 0
    let key := (s.rd (Reg.CKP_DEPOT_KEY n)).toNat
    ∃ t : State, exec (.depotDrain n r true) s = .next t ∧
      t.out = (s.diesOf n).foldl (fun o d => o ++ [.drainObject conn key (drainBytes step i.part i.slice d step true (s.imagePages i d))])
        (s.out ++ [.drainObject conn key r]) ∧
      t.rd (Reg.CKP_DRAIN_LO n) = BitVec.ofNat 32 step ∧ t.mem = s.mem ∧
      (t.ckpOf n).image = some { i with record := r, broken := false, drains := i.drains + 1, chain := some step,
                                        landed := i.landed.map (fun l => if l.step ≤ step then { l with drained := true } else l) }) ∧
  (∀ (s : State) (n : Nat) (r : List Byte) (i : HeldImage), (s.ckpOf n).image = some i → i.cond = .complete → i.step = some (leAt r 8 6) →
    s.rf (Reg.CKP_CFG n) 16 16 = 1 → i.chain = none →
    exec (.depotDrain n r false) s =
      .next (((s.setImage n (some { i with record := r, broken := true })).ckpStat n 0x0703).event Reg.CKP_EVT 1))

/-- CKP_RESTORE and RESTORE_REBUILD_DONE (R563 to R566). -/
def Obligations.Restores : Prop :=
  (∀ (s : State) (p n : Nat) (v : Word), s.hasSlice n = true → fieldOf v 31 31 = 1 → fieldOf v 30 2 = 0 → fieldOf v 1 0 = 2 →
    let u := ckpAsked s n v
    let a := s.addrOf (Reg.CKP_SRC_LO n) (Reg.CKP_SRC_HI n)
    let r := s.bytes (a + 64) 3648
    let st := u.planStatus n a r
    let j := s.job n
    let c := s.ckpOf n
    let w := (u.setJob n { j with memb := 6 }).setCkp n { c with
      restoring := some (s.le a 6), planRecord := r, planDepot := s.le (a + 12) 1 = 1, verified := false,
      planKinds := (List.range (s.le (a + 8) 4)).map (fun i => s.le (a + 3712 + 16 * i + 12) 1) }
    exec (.ckpRestore (.pf0 p) n v) s = .next (
      if s.ckpAddrOk n a 3712 64 = false ∨ s.inSlice n a (3712 + 16 * s.le (a + 8) 4) = false then u.ckpStat n 0x01B2
      else if j.memb ≠ 0 ∧ j.memb ≠ 5 ∧ j.memb ≠ 6 then u.ckpStat n 0x02B0
      else if st ≠ 0 then u.restoreFail n st
      else (w.ckpStat n 0).wf (Reg.CKP_STAT n) 31 31 1)) ∧
  -- a record whose signatures do not hold is refused first
  (∀ (s : State) (n a : Nat) (r : List Byte),
    let key := if leAt r 18 2 = s.partId then s.aliasKey else Config.aliasKeys (leAt r 18 2)
    let m := signContext "MZ-CKP-RECORD" ++ r.take 256
    s.planStatus n a r = 0x04B0 ∨
      (Config.verifyEd key m ((r.drop 256).take 64) = true ∧ Config.verifyMl key m ((r.drop 320).take 3309) = true)) ∧
  -- rebuilding: only once; a broken chain is refused; regions that do not match their digests are zeroed
  (∀ (s : State) (n : Nat) (os : List (List Byte)) (im : List (Nat × List (Nat × Byte))),
    let c := s.ckpOf n
    let ds := s.diesOf n
    let u := ds.foldl (fun u d => u.rebuildDie n d os im) s
    let bad := ((List.range ds.length).zip ds).filter (fun e =>
      u.digestAt (u.regionBase e.2 .state) (u.regionSize e.2 .state) ≠ (c.planRecord.drop (80 + 48 * e.1)).take 32)
    let uc := u.ckpOf n
    exec (.restoreRebuildDone n os im) s = .next (
      if c.restoring = none ∨ c.verified = true ∨ (c.planDepot = true ∧ os.length ≠ c.planKinds.length) then s
      else if c.planDepot = true ∧ ds.any (fun d => objectsOf d os = [] || !chainOk none (objectsOf d os)) then s.restoreFail n 0x0705
      else if bad = [] then (u.setCkp n { uc with verified := true }).wf (Reg.CKP_STAT n) 31 31 0
      else (bad.foldl (fun w e => w.zeroRange (w.regionBase e.2 .state) (w.regionSize e.2 .state)) u).restoreFail n 0x0704))

/-- Watching, agreement and the commit of a membership (R541 to R549, R561, R566). -/
def Obligations.MembershipAgreement : Prop :=
  -- keepalives: one to each watched part, a miss counted for each unheard one; hearing from a part ends the suspicion
  (∀ (s : State), ∃ t : State, exec .keepaliveSend s = .next t ∧ t.heard = [] ∧ t.out = s.out ++ s.pat.watch.map (fun p => Out.keepalive p) ∧
    t.regs = s.regs ∧ t.jobs = s.jobs) ∧
  (∀ (s : State) (p : Nat) (r : Bool), ∃ t : State, exec (.keepaliveReceive p r) s = .next t ∧ p ∈ t.heard ∧ fetch false t.suspects p = false ∧
    t.out = (if r then s.out else s.out ++ [.keepaliveAck p]) ∧ t.regs = s.regs ∧ t.jobs = s.jobs) ∧
  -- a silent watched part is suspected once; on a slice whose job it is no member of, nothing follows
  (∀ (s : State) (p : Nat), fetch false s.suspects p = true ∨ p ∉ s.pat.watch → exec (.suspectTimeout p none) s = .next s) ∧
  (∀ (s : State) (p : Nat), s.pat.watch.contains p = true → fetch false s.suspects p = false →
    exec (.suspectTimeout p none) s = .next ((List.range s.sliceCount).foldl (fun u n =>
      if (u.memberParts n).contains p then u.raiseSuspicion n p none else u) ((s.setSuspect p true).event Reg.CKP_EVT 3))) ∧
  -- the coordinator proposes, and any other member reports to it
  (∀ (s : State) (n p : Nat) (ep : Option Nat), s.agrees n = true → s.raiseSuspicion n p ep =
    (if s.coordinator n = s.partId then s.lead n (s.unsuspected n) none false else s.emit (.suspicion (s.coordinator n) p ep))) ∧
  -- a report names a member; the coordinator then suspects it too, and proposes
  (∀ (s : State) (n p : Nat), s.agrees n = true → (s.memberParts n).contains p = true → fetch false s.suspects p = false →
    let u := (s.setSuspect p true).event Reg.CKP_EVT 3
    exec (.suspectReport n p none) s = .next (if u.coordinator n = s.partId then u.lead n (u.unsuspected n) none false else u)) ∧
  (∀ (s : State) (n p : Nat) (ep : Option Nat), s.agrees n = false ∨ (s.memberParts n).contains p = false →
    exec (.suspectReport n p ep) s = .next s) ∧
  (∀ (s : State) (n p : Nat), exec (.withdrawalAnnounce n p) s = .next (
    if (s.memberParts n).contains p then s.suspect p none (2 ^ 17 + p) else s)) ∧
  -- no more than half of the members: no proposal, QUORUM_LOST
  (∀ (s : State) (n : Nat) (parts : List Nat) (r : Option Nat) (re : Bool), n < 4 → 2 * parts.length ≤ (s.memberParts n).length →
    let t := s.lead n parts r re
    (t.job n).memb = 3 ∧ (t.ckpOf n).lead = none ∧ (t.ckpOf n).round = (s.ckpOf n).round) ∧
  -- a round not above the highest accepted is refused and changes nothing; a higher one is accepted, and the slice enters HOLD
  (∀ (s : State) (n c : Nat) (p : Proposal), (s.job n).isOpen = true → p.round ≤ (s.ckpOf n).round ∨ (p.restore = true ∧ (s.ckpOf n).verified = false) →
    exec (.proposeReceive n c p) s = .next (s.emit (.refuse c p.round))) ∧
  (∀ (s : State) (n c : Nat) (p : Proposal), (s.job n).isOpen = true → (s.ckpOf n).round < p.round → p.restore = false ∨ (s.ckpOf n).verified = true →
    ∃ t : State, exec (.proposeReceive n c p) s = .next t ∧ (t.job n).memb = 2 ∧ (t.ckpOf n).round = p.round ∧ (t.ckpOf n).prop = some p ∧
      (t.ckpOf n).lead = none ∧ t.out = s.out ++ [.accept c p.round (s.copies n)] ∧ t.mem = s.mem ∧ t.regs = s.regs) ∧
  -- the coordinator commits when every proposed part has accepted, and to every one of them
  (∀ (s : State) (n p r : Nat) (cs : List CopyAt) (l : Lead), (s.ckpOf n).lead = some l → l.prop.round = r → l.prop.parts.contains p = true →
    l.accepts.any (fun a => a.1 = p) = false →
    let c := s.ckpOf n
    let m := { l with accepts := l.accepts ++ [(p, cs)] }
    let u := s.setCkp n { c with lead := none }
    exec (.acceptReceive n p r cs true) s = .next (
      if l.prop.parts.all (fun q => m.accepts.any (fun a => a.1 = q)) && s.majority n l.prop.parts.length then
        (l.prop.parts ++ u.leftOut n l.prop).foldl (fun w q => w.emit (.commit q (u.commitOf n m))) u
      else s.setCkp n { c with lead := some m })) ∧
  (∀ (s : State) (n p r : Nat) (cs : List CopyAt) (ok : Bool), (s.ckpOf n).lead = none → exec (.acceptReceive n p r cs ok) s = .next s) ∧
  -- missing accepts: the next round goes to the parts that answered
  (∀ (s : State) (n : Nat) (l : Lead), (s.ckpOf n).lead = some l →
    let c := s.ckpOf n
    let parts := l.prop.parts.filter (fun p => l.accepts.any (fun a => a.1 = p))
    exec (.agreeTimeout n) s = .next (
      if parts.length = l.prop.parts.length then s else (s.setCkp n { c with lead := none }).lead n parts l.prop.resume l.prop.restore)) ∧
  (∀ (s : State) (n : Nat), exec (.holdTimeout n) s = .next (
    let c := s.coordinator n
    if (s.job n).memb ≠ 2 ∨ (s.ckpOf n).lead.isSome then s
    else (if c = s.partId then s else (s.setSuspect c true).event Reg.CKP_EVT 3).raiseSuspicion n c none)) ∧
  -- the resume step is the newest at which every shard has a copy (R549)
  (∀ (ms : List Member) (cs : List CopyAt) (r : Nat), ms ≠ [] → resumeStep ms cs = some r →
    (∀ m ∈ ms, ∃ c ∈ cs, c.part = m.part ∧ c.slice = m.slice ∧ c.step = r) ∧
    (∀ x ∈ cs, x.step ≤ r ∨ (∃ m ∈ ms, ∀ c ∈ cs, c.part ≠ m.part ∨ c.slice ≠ m.slice ∨ c.step ≠ x.step))) ∧
  -- a commit: at most one for each epoch; one without this slice excludes it; one with no members is a lost quorum
  (∀ (s : State) (n : Nat) (m : Commit) (cp : List (Nat × List (Nat × Byte))), (s.ckpOf n).committed = some m.epoch →
    exec (.membershipCommit n m cp) s = .next s) ∧
  (∀ (s : State) (n : Nat) (m : Commit) (cp : List (Nat × List (Nat × Byte))), n < 4 → (s.job n).isOpen = true → (s.ckpOf n).committed ≠ some m.epoch →
    m.restore = false → m.members ≠ [] → (s.partId, n) ∉ m.members →
    ∃ t : State, exec (.membershipCommit n m cp) s = .next t ∧ (t.job n).memb = 4 ∧ (t.job n).members = (s.job n).members) ∧
  (∀ (s : State) (n : Nat) (m : Commit) (cp : List (Nat × List (Nat × Byte))), n < 4 → (s.job n).isOpen = true → (s.ckpOf n).committed ≠ some m.epoch →
    m.restore = false → (s.partId, n) ∈ m.members → m.resume ≠ none →
    ∃ t : State, exec (.membershipCommit n m cp) s = .next t ∧ (t.job n).memb = 1 ∧ (t.job n).epoch = m.epoch ∧
      (t.job n).members = m.members.map (fun x => ⟨x.1, x.2⟩) ∧ t.stepCtr n = m.resume.getD 0 % 2 ^ 48 ∧ (t.ckpOf n).committed = some m.epoch ∧
      (t.ckpOf n).lead = none) ∧
  (∀ (s : State) (n : Nat) (m : Commit) (cp : List (Nat × List (Nat × Byte))), n < 4 → (s.job n).isOpen = true → (s.ckpOf n).committed ≠ some m.epoch →
    m.restore = false → (s.partId, n) ∈ m.members → m.resume = none →
    ∃ t : State, exec (.membershipCommit n m cp) s = .next t ∧ (t.job n).memb = 5 ∧ (t.job n).epoch = m.epoch ∧ t.stepCtr n = s.stepCtr n ∧
      t.rf (Reg.CKP_STAT n) 15 0 = 0x0708)

/-! ### Woard links and the switch (file 10) -/

/-- Link `n` starts over: what it keeps of its former life (R580). -/
def linkFresh (s : State) (n : Nat) : State :=
  let l := s.link n
  s.setLink n { held := l.held, downAt := l.downAt, inbox := l.inbox }

/-- The CTRL flit that link `n` sends with `payload`, after the acknowledgement and the credits it owes. -/
def ctrlFlit (s : State) (n : Nat) (payload : List Byte) : State := s.sendFlit n 2 0 false payload false

/-- LINK_DOWN_RETRY, LINK_TRAIN_DONE, LINK_TRAIN_TIMEOUT, IDENT_REPEAT, IDENT_RECEIVE, HELLO_RECEIVE, LINK_RETRAIN_DONE,
LINK_SILENCE_TIMEOUT, LINK_DOWN_CMD and LINK_RETRAIN_CMD (R580 to R584, R588, R600 to R602). -/
def Obligations.LinkBringUp : Prop :=
  -- DETECT leads to TRAIN with a peer; DOWN leads back to DETECT after 100 ms unless the link is held
  (∀ (s : State) (n t : Nat) (present : Bool), exec (.linkDownRetry n t present) s = .next (
    if s.linkMode n = 1 ∧ n < 96 ∧ (s.linkState n = 2 ∧ present = true ∨
        s.linkState n = 1 ∧ (s.link n).held = false ∧ (s.link n).downAt.all (fun d => d + 100000000 ≤ t) = true) then
      (s.reach t).setLinkState n (if present then 3 else 2)
    else s)) ∧
  -- lock: the state is IDENT with both lanes up, and IDENT goes out
  (∀ (s : State) (n : Nat), n < 96 → s.linkState n = 3 ∨ s.linkState n = 4 →
    let x := (linkFresh s n).identOut n
    let u := ((linkFresh s n).setLinkState n 5).wf (Reg.LNK_N_STAT n) 5 4 3
    exec (.linkTrainDone n) s = .next (ctrlFlit u n x) ∧ u.linkState n = 5 ∧ u.rf (Reg.LNK_N_STAT n) 5 4 = 3 ∧
      byteAt x 0 = 1 ∧ byteAt x 27 = 0) ∧
  (∀ (s : State) (n : Nat), ¬ (s.linkState n = 3 ∨ s.linkState n = 4) →
    exec (.linkTrainDone n) s = .next s ∧ exec (.linkTrainTimeout n) s = .next s) ∧
  -- training that overruns takes the link DOWN with its cause, and counts
  (∀ (s : State) (n : Nat), n < 96 → s.linkState n = 3 ∨ s.linkState n = 4 →
    ∃ t : State, exec (.linkTrainTimeout n) s = .next t ∧ t.linkState n = 1 ∧ t.rf (Reg.LNK_N_STAT n) 31 16 = 0x05C0 ∧
      t.rf (Reg.LNK_N_STAT n) 5 4 = 0 ∧ t.ctr (Ctr.LNK_TRAIN_FAIL n) = (s.ctr (Ctr.LNK_TRAIN_FAIL n)).bump ∧
      (t.link n).replay = [] ∧ (t.link n).queue = [] ∧ (t.link n).downAt = some s.now ∧ t.mem = s.mem) ∧
  -- a link that goes DOWN drops its queued packets and the packets in its replay buffer, each counted once (R602)
  (∀ (s : State) (n : Nat), n < 96 → s.linkState n = 3 → (s.link n).rx = [] →
    let l := s.link n
    ∃ t : State, exec (.linkTrainTimeout n) s = .next t ∧
      t.ctr (Ctr.LNK_DROP n) = (s.ctr (Ctr.LNK_DROP n)).add (l.queue.length + (l.replay.filter (fun f => f.eop)).length)) ∧
  -- IDENT, then HELLO once the peer's IDENT has come with ACK
  (∀ (s : State) (n : Nat), exec (.identRepeat n) s = .next (
    if s.linkState n ≠ 5 then s
    else ctrlFlit s n (if (s.link n).ident.any (fun i => i.ack) = true then s.helloOut n else s.identOut n))) ∧
  (∀ (s : State) (n : Nat) (p : List Byte), s.linkState n ≠ 5 ∨ byteAt p 0 ≠ 1 → exec (.identReceive n p) s = .next s) ∧
  (∀ (s : State) (n v : Nat) (p : List Byte), n < 96 → v < 8 → s.linkState n = 5 → byteAt p 0 = 1 →
    ∃ t : State, exec (.identReceive n p) s = .next t ∧
      (t.link n).ident = some { role := byteAt p 1, uid := leAt p 4 8, fec := byteAt p 16, maxRd := leAt p 25 2,
                                ack := bitOf (byteAt p 27) 0 } ∧
      fetch 0 (t.link n).credits v = (byteAt p (17 + v) : Int) ∧ t.rd64 (Reg.LNK_N_UID_LO n) (Reg.LNK_N_UID_HI n) = leAt p 4 8 ∧
      (t.rd (Reg.LNK_N_CRED0 n)).toNat = leAt p 17 4 ∧ (t.rd (Reg.LNK_N_CRED1 n)).toNat = leAt p 21 4 ∧
      t.linkState n = 5 ∧ t.mem = s.mem ∧ t.out = s.out) ∧
  -- HELLO from the peer that the Pattern names brings the link UP; any other peer is quarantined
  (∀ (s : State) (n : Nat) (p : List Byte), (s.link n).ident = none ∨ s.linkState n ≠ 5 ∨ byteAt p 0 ≠ 2 →
    exec (.helloReceive n p) s = .next s) ∧
  (∀ (s : State) (n : Nat) (p : List Byte) (i : PeerIdent), (s.link n).ident = some i → s.linkState n = 5 → byteAt p 0 = 2 →
    let l := s.link n
    let w := BitVec.ofNat 32 (leAt p 2 2 % 2 ^ 14 + byteAt p 4 % 128 * 2 ^ 16 + byteAt p 5 % 64 * 2 ^ 24 + i.role % 2 * 2 ^ 30 + 2 ^ 31)
    let u := (s.setLink n { l with hello := true }).wr (Reg.LNK_N_PEER n) w
    let x := ctrlFlit u n (u.helloOut n)
    exec (.helloReceive n p) s = .next (
      if x.peerAgrees n i p = true then ((x.setLinkState n 6).topoMark n false).pump n
      else (((x.setLinkState n 8).topoMark n true).wf (Reg.LNK_N_STAT n) 31 16 0x0607).event Reg.LNK_EVT 3)) ∧
  -- the wired part, with its link, its system tag and the code of the Pattern; or the wired endpoint by its UID
  (∀ (s : State) (n : Nat) (p : List Byte) (i : PeerIdent) (w : PatLink), s.wiring n = some w →
    s.peerAgrees n i p = (bitOf i.fec w.fec &&
      (if w.toEp = true then i.role = 1 && i.uid = w.peerUid && leAt p 2 2 % 2 ^ 14 = s.partId && byteAt p 5 = w.ep
       else i.role = 0 && leAt p 2 2 % 2 ^ 14 = w.peerPart && byteAt p 4 = w.peerLink &&
         leAt p 8 8 = s.rd64 Reg.SWT_SYSTAG_LO Reg.SWT_SYSTAG_HI))) ∧
  -- RETRAIN ends UP with both lanes, DEGRADED with one where the Pattern allows it, and DOWN after the last attempt
  (∀ (s : State) (n : Nat) (a b : Bool), s.linkState n ≠ 9 → exec (.linkRetrainDone n a b) s = .next s) ∧
  (∀ (s : State) (n : Nat) (a b : Bool), n < 96 → s.linkState n = 9 →
    let l := s.link n
    let up := fun x => ((((s.setLink n { l with tries := 0 }).setLinkState n x).wf (Reg.LNK_N_STAT n) 5 4 (bit a + 2 * bit b)).resendAll n).pump n
    let failed := (s.setLink n { l with tries := l.tries + 1 }).count (Ctr.LNK_TRAIN_FAIL n)
    exec (.linkRetrainDone n a b) s = .next (
      if a = true ∧ b = true then up 6
      else if (a = true ∨ b = true) ∧ s.rf Reg.LNK_CTL 20 20 = 1 then (up 7).event Reg.LNK_EVT 2
      else if s.rf Reg.LNK_CTL 19 16 ≤ l.tries + 1 then failed.linkDown n 0x05C1
      else failed)) ∧
  -- silence takes a live link to RETRAIN: replay buffer, sequence and credits stay
  (∀ (s : State) (n : Nat), s.linkState n ≠ 6 → s.linkState n ≠ 7 → exec (.linkSilenceTimeout n) s = .next s) ∧
  (∀ (s : State) (n : Nat), n < 96 → s.linkState n = 6 ∨ s.linkState n = 7 →
    ∃ t : State, exec (.linkSilenceTimeout n) s = .next t ∧ t.linkState n = 9 ∧ (t.link n).replay = (s.link n).replay ∧
      (t.link n).txSeq = (s.link n).txSeq ∧ (t.link n).credits = (s.link n).credits ∧ (t.link n).rxSeq = (s.link n).rxSeq ∧
      t.ctr (Ctr.LNK_RETRAIN n) = (s.ctr (Ctr.LNK_RETRAIN n)).bump ∧ t.rd Reg.LNK_EVT = scEvent (s.rd Reg.LNK_EVT) 1 ∧ t.mem = s.mem) ∧
  -- LNK_n_CTL.DOWN holds the link DOWN, RETRAIN lets it start again; a doorbell page does not reach the block
  (∀ (s : State) (p n : Nat) (v : Word), n < 96 → fieldOf v 4 4 = 1 → fieldOf v 3 3 = 0 →
    let d := s.linkDown n 0
    let l := d.link n
    exec (.linkDownCmd (.pf0 p) n v) s = .next (
      if s.linkState n = 0 ∨ s.linkState n = 0xA then s else d.setLink n { l with held := true }) ∧
      (d.link n).replay = [] ∧ (d.link n).queue = []) ∧
  (∀ (s : State) (p n : Nat) (v : Word), n < 96 → fieldOf v 4 4 = 0 → fieldOf v 3 3 = 1 →
    let l := s.link n
    exec (.linkRetrainCmd (.pf0 p) n v) s = .next (
      if s.linkState n = 6 ∨ s.linkState n = 7 then s.enterRetrain n
      else if s.linkState n = 1 then (s.setLink n { l with held := false }).setLinkState n 2
      else s.reject (.pf0 p) (Reg.LNK_N_CTL n) 0x02C0)) ∧
  (∀ (s : State) (n m : Nat) (v : Word), exec (.linkDownCmd (.page m 0 none) n v) s = .next s ∧
    exec (.linkRetrainCmd (.page m 0 none) n v) s = .next s)

/-- A flit as link `n` receives it on a Loose link: its bytes, with nothing corrected. -/
def looseRx (bytes : List Byte) (idle : Bool) : FlitRx := { groups := [], loose := bytes, corr := 0, unc := 0, lost := false, idle := idle }

/-- A DATA flit's header of VC `vc`, SEQ `q`, with SOP and EOP and no acknowledgement or credits (R587). -/
def dataHeader (vc q : Nat) (sop eop : Bool) : Nat := 1 + vc * 16 + bit sop * 128 + bit eop * 256 + q * 1024

/-- FLIT_RECEIVE, LINK_ACK_SEND, REPLAY_TIMEOUT, CAL_SLOT, TSYNC_SEND and TSYNC_RECEIVE (R585 to R613). -/
def Obligations.LinkFlits : Prop :=
  -- a flit's CRC covers its header and payload; a stomped flit carries the complement (R586, R605)
  (∀ (h : Nat) (p : List Byte) (stomp : Bool), h < 2 ^ 64 → p.length = 240 →
    let f := flitBytes h p stomp
    f.length = 256 ∧ leAt f 0 8 = h ∧ (f.drop 8).take 240 = p ∧
      leAt f 248 8 = (if stomp then crc64 (f.take 248) ^^^ (2 ^ 64 - 1) else crc64 (f.take 248))) ∧
  -- an UP link on which a flit is lost retrains; a link that is down takes no flit
  (∀ (s : State) (n : Nat) (rx : FlitRx), n < 96 → s.linkState n = 6 ∨ s.linkState n = 7 → rx.lost = true →
    exec (.flitReceive n rx) s = .next (s.enterRetrain n)) ∧
  (∀ (s : State) (n : Nat) (rx : FlitRx), s.linkState n < 5 ∨ s.linkState n = 9 ∨ s.linkState n = 0xA →
    exec (.flitReceive n rx) s = .next s) ∧
  -- a whole packet in one flit, in order: accepted, acknowledged in its turn, and waiting at the switch with its credit
  (∀ (s : State) (n vc : Nat) (p : List Byte), n < 96 → vc < 8 → s.linkState n = 6 → s.linkTight n = false → p.length = 240 →
    (s.link n).queue = [] → (s.vcRx n vc).cutTo = none →
    let l := s.link n
    let q := l.expected
    let rx := looseRx (flitBytes (dataHeader vc q true true) p false) false
    ∃ t : State, exec (.flitReceive n rx) s = .next t ∧ (t.link n).rxSeq = some q ∧ (t.link n).nakSent = false ∧
      (t.link n).owed = l.owed + 1 ∧ (t.link n).inbox = l.inbox ++ [(vc, 1, p.take (pktSize p))] ∧
      (t.link n).replay = l.replay ∧ (t.link n).txSeq = l.txSeq ∧ t.out = s.out ∧
      t.ctr (Ctr.LNK_FLIT_RX n) = (s.ctr (Ctr.LNK_FLIT_RX n)).bump ∧ t.mem = s.mem ∧ t.regs = s.regs) ∧
  -- another SEQ than the next: nothing is taken, and one NAK asks for the resend
  (∀ (s : State) (n vc q : Nat) (p : List Byte), n < 96 → vc < 8 → s.linkState n = 6 → s.linkTight n = false → p.length = 240 →
    (s.link n).queue = [] → q < 4096 → q ≠ (s.link n).expected →
    let l := s.link n
    let rx := looseRx (flitBytes (dataHeader vc q true true) p false) false
    ∃ t : State, exec (.flitReceive n rx) s = .next t ∧ (t.link n).rxSeq = l.rxSeq ∧ (t.link n).inbox = l.inbox ∧
      (t.link n).nakSent = true ∧ t.out.length = s.out.length + bit (!l.nakSent) ∧ t.regs = s.regs ∧ t.mem = s.mem) ∧
  -- a flit whose CRC fails counts and is asked for again
  (∀ (s : State) (n : Nat) (bytes : List Byte), n < 96 → s.linkState n = 6 → s.linkTight n = false → bytes.length = 256 →
    bitsOf (leAt bytes 0 8) 3 0 ≠ 1 → leAt bytes 248 8 ≠ crc64 (bytes.take 248) →
    let u := (s.countN (Ctr.LNK_FEC_CORR n) 0).countN (Ctr.LNK_FEC_UNC n) 0
    exec (.flitReceive n (looseRx bytes false)) s = .next ((u.count (Ctr.LNK_CRC_ERR n)).sendNak n)) ∧
  -- an acknowledgement frees the replay buffer up to its SEQ, and returned credits add up (R592, R599)
  (∀ (s : State) (n q vc k : Nat), n < 96 → s.linkState n = 6 → s.linkTight n = false → (s.link n).queue = [] → q < 4096 → vc < 8 → k < 256 →
    let l := s.link n
    let rx := looseRx (flitBytes (q * 2 ^ 22 + 2 ^ 34 + vc * 2 ^ 36 + k * 2 ^ 39) [] false) false
    ∃ t : State, exec (.flitReceive n rx) s = .next t ∧ (t.link n).replay = l.replay.filter (fun f => laterMod 12 q f.seq) ∧
      fetch 0 (t.link n).credits vc = fetch 0 l.credits vc + (k : Int) ∧ t.out = s.out ∧ t.mem = s.mem) ∧
  -- an acknowledgement flit goes out when flits have been accepted since the last
  (∀ (s : State) (n : Nat), exec (.linkAckSend n) s = .next (
    if (s.linkState n = 6 ∨ s.linkState n = 7) ∧ (s.link n).owed ≠ 0 then s.sendFlit n 0 0 false [] false else s)) ∧
  (∀ (s : State) (n ty : Nat) (nak stomp : Bool) (p : List Byte), ((s.sendFlit n ty 0 nak p stomp).link n).owed = 0 ∧
    (s.sendFlit n ty 0 nak p stomp).out.length = s.out.length + 1 ∧ (s.sendFlit n ty 0 nak p stomp).mem = s.mem) ∧
  -- no acknowledgement in time: every flit kept is sent again, oldest first; too many replays in 1 ms retrain the link
  (∀ (s : State) (n : Nat), n < 96 →
    let l := s.link n
    let fresh := l.replayAt + 1000000 ≤ s.now
    let k := (if fresh then 1 else l.replays + 1)
    let u := (s.setLink n { l with replays := k, replayAt := (if fresh then s.now else l.replayAt) }).count (Ctr.LNK_REPLAY n)
    exec (.replayTimeout n) s = .next (
      if ¬ (s.linkState n = 6 ∨ s.linkState n = 7) ∨ l.replay = [] then s
      else if s.rf Reg.LNK_CTL 15 0 < k then u.enterRetrain n
      else l.replay.foldl (fun x f => x.sendData n f) u)) ∧
  -- a CAL flit carries the next 1920 bits of PRBS31 (R609)
  (∀ (s : State) (n : Nat), exec (.calSlot n) s = .next (
    let r := prbs31 1920 (s.link n).prbs
    let l := s.link n
    if s.linkState n = 6 ∨ s.linkState n = 7 then (s.setLink n { l with prbs := r.2 }).sendFlit n 3 0 false (leBytes 240 r.1) false else s)) ∧
  -- TSYNC goes out on every UP link with its send time and the arrival and send times of the peer's last (R612)
  (∀ (s : State) (t : Nat), (∀ n ∈ List.range 96, s.linkState n ≠ 6) → exec (.tsyncSend t) s = .next (s.reach t)) ∧
  (∀ (s : State) (t n : Nat), s.linkState n = 6 →
    let x := ((s.link n).tsync).getD (0, 0)
    s.tsyncOut t n = ctrlFlit s n (fitBytes 240 (leBytes 1 3 ++ leBytes 7 0 ++ leBytes 8 t ++ leBytes 8 x.1 ++ leBytes 8 x.2))) ∧
  (∀ (s : State) (t : Nat), ∃ u : State, exec (.tsyncSend t) s = .next u ∧
    u.out.length = s.out.length + ((List.range 96).filter (fun n => s.linkState n = 6)).length ∧ u.now = max s.now t ∧ u.mem = s.mem ∧
    u.regs = s.regs) ∧
  -- a TSYNC that arrives is kept; on the source's link, half the round trip corrects the time base
  (∀ (s : State) (n t : Nat) (p : List Byte),
    let sent := leAt p 8 8
    let arrived := leAt p 16 8
    let trip := ((t : Int) - (leAt p 24 8 : Int)) - ((sent : Int) - (arrived : Int))
    let l := s.link n
    let u := (s.reach t).setLink n { l with tsync := some (t, sent) }
    exec (.tsyncReceive n t p) s = .next (
      if ¬ (s.linkState n = 6 ∨ s.linkState n = 7) ∨ byteAt p 0 ≠ 3 then s
      else if u.tbKind = 2 ∧ u.tbIndex = n ∧ arrived ≠ 0 then u.measure t ((sent : Int) + trip / 2 - t)
      else u))

/-- The Tight code corrects any one symbol of a codeword, and reads an intact one as it is (R575). -/
def Obligations.TightCodeCorrects : Prop :=
  (∀ (d : Nat), d < 2 ^ 120 → tightDecode (tightEncode d) = some (d, false)) ∧
  (∀ (d i e : Nat), d < 2 ^ 120 → i < 64 → 1 ≤ e → e < 4 → tightDecode (tightEncode d ^^^ (e <<< (2 * i))) = some (d, true))

/-- A discard of the switch, counted, and answered with a FABRIC_NAK unless the packet is one or is multicast (R620). -/
def discarded (s : State) (p : List Byte) (st : Nat) : State :=
  let u := s.countDiscard st
  if pktOpcode p = 8 ∨ pktMcast p = true then u
  else
    let r := (u.count Ctr.SWT_NAK_TX).switchPacket 96 7 (u.nakPacket p st)
    r.1.countDiscard r.2

/-- A well-formed unicast packet on its VC, with hops left. -/
def goodPacket (p : List Byte) : Bool :=
  !pktMalformed (pktVc p) p && (opcodeVcs (pktOpcode p)).contains (pktVc p) && pktHops p ≠ 0 && !pktMcast p

/-- PACKET_FORWARD, SWT_RT_COMMIT, SWT_EP_COMMIT, SWT_MC_COMMIT, BLOCK_ACK_RECEIVE, FEED_RELEASE_RECEIVE, EDGE_RDATA_RECEIVE and
EP_ALIVE_RECEIVE (R614 to R634). -/
def Obligations.SwitchForwarding : Prop :=
  (∀ (s : State) (i : Nat) (inj : List Byte), i < 96 → (s.link i).inbox = [] → exec (.packetForward i inj) s = .next s) ∧
  -- the oldest packet of a link: its credits go back, and it takes the first row of R614 that holds
  (∀ (s : State) (i vc k : Nat) (inj p : List Byte) (rest : List (Nat × Nat × List Byte)), i < 96 → (s.link i).inbox = (vc, k, p) :: rest →
    let l := s.link i
    let u := (s.setLink i { l with inbox := rest }).giveCredit i vc k
    let e := pktDstEp p
    exec (.packetForward i inj) s = .next (
      if pktMalformed vc p = true then discarded u p 0x0606
      else if (opcodeVcs (pktOpcode p)).contains vc = false then discarded u p 0x0605
      else if pktHops p = 0 then discarded u p 0x0604
      else if pktMcast p = true then
        if (vc = 1 ∨ vc = 5 ∨ vc = 6) ∧ bitOf (u.rd (Reg.SWT_MC (pktGroup p) 7)).toNat 31 = true then u.replicate i p
        else discarded u.mcastDrop p 0x0605
      else if pktDstPart p ≠ s.partId then
        (match u.routeOut p with
        | some o => u.forwardOn o (withHops p (pktHops p - 1))
        | none => discarded u p 0x0601)
      else if 49 ≤ e ∨ (e = 0 ∧ 2 ^ 40 ≤ pktOff p) then discarded u p 0x0602
      else if e = 0 then u.deliverLocal p
      else
        (match u.endpointOut e p with
        | some o => u.forwardOn o p
        | none => discarded u p 0x0603))) ∧
  -- discards by kind: counter and event
  (∀ (s : State), s.countDiscard 0x0601 = (s.count Ctr.SWT_UNROUTABLE).event Reg.SWT_EVT 0 ∧
    s.countDiscard 0x0602 = (s.count Ctr.SWT_UNROUTABLE).event Reg.SWT_EVT 0 ∧
    s.countDiscard 0x0603 = (s.count Ctr.SWT_UNROUTABLE).event Reg.SWT_EVT 0 ∧
    s.countDiscard 0x0604 = (s.count Ctr.SWT_HOPS).event Reg.SWT_EVT 1 ∧ s.countDiscard 0x0605 = s.count Ctr.SWT_MALFORMED ∧
    s.countDiscard 0x0606 = (s.count Ctr.SWT_MALFORMED).event Reg.SWT_EVT 2) ∧
  -- the NAK: to the packet's source, with the status and the packet's first 24 bytes (R620)
  (∀ (s : State) (p : List Byte) (st : Nat), st < 65536 → s.partId < 2 ^ 14 →
    let k := s.nakPacket p st
    pktDstPart k = pktSrcPart p ∧ pktDstEp k = pktSrcEp p ∧ pktSrcPart k = s.partId ∧ pktOpcode k = 8 ∧ pktLen k = 24 ∧ pktVc k = 7 ∧
      pktHops k = s.rf Reg.SWT_CTL 5 0 ∧ leAt k 20 2 = st ∧ k.drop 32 = fitBytes 24 p) ∧
  -- a packet that the part injects leaves with HOPS of SWT_CTL (R617)
  (∀ (s : State) (i : Nat) (inj : List Byte), 96 ≤ i → pktDstPart inj ≠ s.partId → pktMcast inj = false →
    inj.length = pktSize inj →
    let q := withHops inj (s.rf Reg.SWT_CTL 5 0)
    goodPacket q = true → s.routeOut q ≠ none →
    ∃ o : Nat, s.routeOut q = some o ∧ exec (.packetForward i inj) s = .next (s.forwardOn o (withHops q (pktHops q - 1)))) ∧
  -- a route's link: by the pin hash over the live ones, or the one with the most credits when the entry sprays (R616)
  (∀ (s : State) (live : List Nat) (p : List Byte), live ≠ [] → s.chooseLink false live p = live[pinHash p % live.length]?) ∧
  (∀ (s : State) (a b : Nat) (p : List Byte), pktVc p ≠ 0 →
    s.chooseLink true [a, b] p =
      some (if fetch 0 (s.link a).credits (pktVc p) < fetch 0 (s.link b).credits (pktVc p) then b else a)) ∧
  -- a HI word commits the entry whole with its staged LO word, or keeps the former entry (R633, R634)
  (∀ (s : State) (p n : Nat) (v : Word), exec (.swtRtCommit (.pf0 p) n v) s = .next (
    let lo := Reg.SWT_RT_LO n
    let d := s.draft lo
    let u := s.setDraft lo none
    let st := s.entryStatus false d (v &&& 0x80000003)
    if 16384 ≤ n then s else if st ≠ 0 then u.reject (.pf0 p) (Reg.SWT_RT_HI n) st
    else (u.wr lo d).wr (Reg.SWT_RT_HI n) (v &&& 0x80000003))) ∧
  (∀ (s : State) (p n : Nat) (v : Word), exec (.swtEpCommit (.pf0 p) n v) s = .next (
    let lo := Reg.SWT_EP_LO n
    let d := s.draft lo
    let u := s.setDraft lo none
    let st := s.entryStatus true d (v &&& 0x80000003)
    if 48 ≤ n then s else if st ≠ 0 then u.reject (.pf0 p) (Reg.SWT_EP_HI n) st
    else (u.wr lo d).wr (Reg.SWT_EP_HI n) (v &&& 0x80000003))) ∧
  (∀ (s : State) (ep : Bool) (lo hi : Word), s.entryStatus ep lo hi = (
    let ls := entryLinks lo
    if 2 ≤ fieldOf hi 1 0 ∨ (∃ l ∈ ls, 96 ≤ l) then 0x01C0
    else if (∃ l ∈ ls, s.linkState l = 0 ∨ s.linkState l = 0xA) then 0x01C1
    else if ep = true ∧ (∃ l ∈ ls, l / 24 ≠ ls.headD 0 / 24) then 0x01C2
    else 0)) ∧
  (∀ (s : State) (p g k : Nat) (v : Word), g < 4096 → k < 7 →
    ∃ t : State, exec (.swtMcCommit (.pf0 p) g v) s = .next t ∧ (∀ j ∈ List.range 7, fetch none t.swtDraft (Reg.SWT_MC g j) = none) ∧
      (s.linksStatus (s.groupLinks g) = 0 → t.rd (Reg.SWT_MC g k) = s.draft (Reg.SWT_MC g k) ∧
        t.rd (Reg.SWT_MC g 7) = (v &&& 0x80000000)) ∧
      (s.linksStatus (s.groupLinks g) ≠ 0 → t.rd (Reg.SWT_MC g k) = s.rd (Reg.SWT_MC g k) ∧ t.rd (Reg.SWT_MC g 7) = s.rd (Reg.SWT_MC g 7)) ∧
      t.mem = s.mem) ∧
  -- what endpoints send: a block's acknowledgement, a step's release, a sign of life, the data of a read
  (∀ (s : State) (ep coll epoch block : Nat) (c : Coll), s.coll? coll = some c →
    exec (.blockAckReceive ep coll epoch block) s = .next (
      if c.d.epoch = epoch ∧ ep ∈ c.d.eps ∧ (ep, block) ∉ c.epAcks then s.setColl { c with epAcks := c.epAcks ++ [(ep, block)] } else s)) ∧
  (∀ (s : State) (ep coll epoch block : Nat), s.coll? coll = none → exec (.blockAckReceive ep coll epoch block) s = .next s) ∧
  (∀ (s : State) (ep id k : Nat) (x : Feed), s.carder.feeds = [x] → exec (.feedReleaseReceive ep id k) s = .next (
    if x.d.id = id ∧ x.d.train = true ∧ x.spans.any (fun e => e.ep = ep) = true then
      s.setFeed { x with released := x.released.filter (fun r => r.1 ≠ ep || k < r.2) ++ [(ep, k)] }
    else s)) ∧
  (∀ (s : State) (ep k : Nat), ∃ t : State, exec (.epAliveReceive ep) s = .next t ∧ fetch false t.suspects (endpointKey ep) = false ∧
    (k ≠ endpointKey ep → fetch false t.suspects k = fetch false s.suspects k) ∧ t.regs = s.regs ∧ t.mem = s.mem ∧ t.jobs = s.jobs) ∧
  (∀ (s : State) (ep tag st : Nat) (bs : List Byte) (m : List Bool), s.rma.edge.find? (fun o => o.ep = ep && o.tag = tag) = none →
    exec (.edgeRdataReceive ep tag st bs m) s = .next s) ∧
  (∀ (s : State) (ep tag st : Nat) (bs : List Byte) (m : List Bool) (o : EdgeOp),
    s.rma.edge.find? (fun x => x.ep = ep && x.tag = tag) = some o →
    let r := s.rma
    let u : State := { s with rma := { r with edge := r.edge.erase o } }
    let data := ((List.range bs.length).zip bs).map (fun x => (x.2, m.getD (x.1 / 8) false))
    exec (.edgeRdataReceive ep tag st bs m) s = .next (match o.work with
      | .source cid w i =>
        if st ≠ 0 then u.rmaError cid st true
        else
          let c := u.conn cid
          (u.setConn cid { c with msgs := c.msgs.map (fun y => if y.wq = w ∧ y.idx = i then { y with fetched := some data } else y) }).rmaPump cid
      | .serve cid ep psn off =>
        if (u.conn cid).state ≠ 1 ∨ (u.conn cid).epoch ≠ ep then u else if st ≠ 0 then u.rmaError cid st false else u.rmaRespond cid psn off data
      | _ => u))

/-! ### Remote memory access (file 11) -/

/-- An RMA command word without GO as the register keeps it (R686). -/
def rmaAsked (s : State) (n : Nat) (v : Word) : State := s.wr (Reg.RMA_CMD n) (v &&& 0xF)

/-- The status register of RMA commands. -/
def rmaEnds (s : State) (n st : Nat) : State := s.wf (Reg.RMA_STAT n) 15 0 st

/-- What a command of status `st` leaves: busy or the status, or `t` with status `ok`. -/
def rmaRuns (u : State) (n st ok : Nat) (t : State) : State :=
  if u.rf (Reg.RMA_STAT n) 31 31 = 1 then rmaEnds u n 0x02D0 else if st ≠ 0 then rmaEnds u n st else rmaEnds t n ok

/-- The status of a command with an argument block of `k` bytes, whose own status is `st`. -/
def rmaArgOr (u : State) (n k st : Nat) : Nat := if u.rmaArgStatus n (u.rmaArg n) k ≠ 0 then u.rmaArgStatus n (u.rmaArg n) k else st

/-- Is an edge access the placement of a packet that bore a key of index `i`? -/
def placingKey (o : EdgeOp) (i : Nat) : Bool :=
  match o.work with
  | .place _ _ _ k => k = i
  | _ => false

/-- RMA_OPEN, RMA_CLOSE, RMA_RESET, REG_REGION, DEREG_REGION, DEREG_COMPLETE, SET_PATH, CREATE_WQ, DESTROY_WQ, RMA_FENCE,
FENCE_COMPLETE and RMA_QUERY (R641 to R652, R680, R684, R686). -/
def Obligations.RmaCommands : Prop :=
  (∀ (s : State) (p n : Nat) (v : Word), s.hasSlice n = true → fieldOf v 31 31 = 1 → fieldOf v 30 4 = 0 → fieldOf v 3 0 = 1 →
    let u := rmaAsked s n v
    let a := u.rmaArg n
    exec (.rmaOpen (.pf0 p) n v) s = .next (rmaRuns u n (rmaArgOr u n 64 (u.openStatus n a)) 0 (u.rmaOpen n a))) ∧
  -- an OPEN that passes found the CID in the share, CLOSED, and its epoch the next one; the connection starts at PSN 0
  (∀ (s : State) (n a : Nat), s.openStatus n a = 0 →
    let cid := s.le a 3
    let b := s.conn cid
    s.inShare n 262144 cid = true ∧ b.state = 0 ∧ (b.known = true → s.le (a + 4) 2 = (b.epoch + 1) % 65536) ∧ s.le (a + 14) 1 ≠ 0 ∧
      1 ≤ s.le (a + 18) 2 ∧ s.le (a + 18) 2 ≤ s.le (a + 16) 2 ∧ s.le (a + 16) 2 ≤ 4096) ∧
  (∀ (s : State) (n a : Nat), s.openStatus n a = 0 →
    let b := s.conn (s.le a 3)
    let t := s.rmaOpen n a
    let c := t.conn (s.le a 3)
    c.state = 1 ∧ c.epoch = s.le (a + 4) 2 ∧ c.opens = b.opens + 1 ∧ c.cls = s.le (a + 3) 1 % 4 ∧ c.pd = s.le (a + 6) 2 ∧
      c.rpart = s.le (a + 8) 2 ∧ c.rcid = s.le (a + 10) 3 ∧ c.retry = s.le (a + 14) 1 ∧ c.maxWnd = s.le (a + 16) 2 ∧
      c.win = 256 * s.le (a + 18) 2 ∧ c.psn = 0 ∧ c.epsn = 0 ∧ c.msgs = [] ∧ c.flight = [] ∧ c.held = [] ∧ c.txctr = 1 ∧
      c.mtu = (if c.cls = 2 then 200 else 1024 * 2 ^ s.le (a + 13) 1) ∧ t.mem = s.mem ∧ t.regs = s.regs ∧ t.out = s.out) ∧
  -- CLOSE from OPEN or ERROR and RESET from ERROR: every request ends with 0x02D2; the 65,536th opening quarantines the CID
  (∀ (s : State) (p n : Nat) (v : Word), s.hasSlice n = true → fieldOf v 31 31 = 1 → fieldOf v 30 4 = 0 → fieldOf v 3 0 = 2 →
    let u := rmaAsked s n v
    let i := u.rmaIndex n
    exec (.rmaClose (.pf0 p) n v) s = .next (rmaRuns u n (
      if u.inShare n 262144 i = false then 0x01D1 else if (u.conn i).state = 3 then 0x03D0
      else if (u.conn i).state = 1 ∨ (u.conn i).state = 2 then 0 else 0x02D0) 0 (u.rmaClose i))) ∧
  (∀ (s : State) (p n : Nat) (v : Word), s.hasSlice n = true → fieldOf v 31 31 = 1 → fieldOf v 30 4 = 0 → fieldOf v 3 0 = 3 →
    let u := rmaAsked s n v
    let i := u.rmaIndex n
    exec (.rmaReset (.pf0 p) n v) s = .next (rmaRuns u n (
      if u.inShare n 262144 i = false then 0x01D1 else if (u.conn i).state = 3 then 0x03D0
      else if (u.conn i).state = 2 then 0 else 0x02D0) 0 (u.rmaClose i))) ∧
  (∀ (s : State) (cid : Nat),
    let b := s.conn cid
    let t := s.rmaClose cid
    (t.conn cid).state = (if 65536 ≤ b.opens then 3 else 0) ∧ (t.conn cid).msgs = [] ∧ (t.conn cid).flight = [] ∧ (t.conn cid).held = [] ∧
      (t.conn cid).epoch = b.epoch ∧ (t.conn cid).known = b.known ∧ (b.opens < 65536 → t.regs = s.regs) ∧
      (65536 ≤ b.opens → t.rd Reg.RMA_EVT = scEvent (s.rd Reg.RMA_EVT) 0) ∧ t.mem = s.mem ∧ t.out = s.out) ∧
  (∀ (s : State) (cid w : Nat) (m : RmaMsg) (q : WorkQueue) (r : WqReq), (s.conn cid).msgs = [m] → m.wq = w → s.wq w = some q →
    q.reqs = [r] → r.idx = m.idx → r.status = none →
    (s.rmaClose cid).wq w = some { q with reqs := [{ r with status := some 0x02D2, bytes := 0 }] }) ∧
  -- REG_REGION takes the lowest free index and answers with its key
  (∀ (s : State) (p n : Nat) (v : Word), s.hasSlice n = true → fieldOf v 31 31 = 1 → fieldOf v 30 4 = 0 → fieldOf v 3 0 = 4 →
    let u := rmaAsked s n v
    let a := u.rmaArg n
    exec (.regRegion (.pf0 p) n v) s = .next (rmaRuns u n (rmaArgOr u n 32 (u.regionStatus n a)) 0 (u.regRegion n a))) ∧
  (∀ (s : State) (n a : Nat), s.regionStatus n a = 0 →
    let i := s.lowestKey n
    let t := s.regRegion n a
    let fl := s.le (a + 13) 1
    t.region i = some { slice := n, base := s.le a 5, ep := s.le (a + 5) 1, pd := s.le (a + 6) 2, len := s.le (a + 8) 5, rw := bitOf fl 0,
                        rr := bitOf fl 1, ctr := (if bitOf fl 2 then some (s.le (a + 14) 2) else none) } ∧
      s.inShare n 1048576 i = true ∧ s.region i = none ∧ fetch false s.rma.keyQuar i = false ∧
      t.rd (Reg.RMA_RESULT n) = BitVec.ofNat 32 (i * 4096 + fetch 0 s.rma.gens i) ∧ t.mem = s.mem) ∧
  (∀ (s : State) (n j : Nat), n * s.shareSize 1048576 ≤ j → j < s.lowestKey n → s.region j ≠ none ∨ fetch false s.rma.keyQuar j = true) ∧
  -- DEREG_REGION: the key is invalid at once, and the command stays busy until no packet that bears it is being placed
  (∀ (s : State) (p n : Nat) (v : Word), s.hasSlice n = true → fieldOf v 31 31 = 1 → fieldOf v 30 4 = 0 → fieldOf v 3 0 = 5 →
    let u := rmaAsked s n v
    let k := u.rmaIndex n
    let i := k / 4096
    let r := u.rma
    let x : State := { u with rma := { r with regions := store none r.regions i ((u.region i).map (fun g => { g with valid := false })),
                                              deregs := store none r.deregs n (some i) } }
    exec (.deregRegion (.pf0 p) n v) s = .next (rmaRuns u n (
      if u.inShare n 1048576 i = false then 0x01D1
      else if (u.region i).any (fun g => g.valid && k % 4096 = fetch 0 u.rma.gens i) = true then 0 else 0x02D0) 0
      (x.wf (Reg.RMA_STAT n) 31 31 1))) ∧
  (∀ (s : State) (n : Nat), fetch none s.rma.deregs n = none → exec (.deregComplete n) s = .next s) ∧
  (∀ (s : State) (n i : Nat), fetch none s.rma.deregs n = some i → n < 4 →
    ∃ t : State, exec (.deregComplete n) s = .next t ∧
      (s.rma.edge.any (fun o => placingKey o i) = true → t = s) ∧
      (s.rma.edge.any (fun o => placingKey o i) = false →
        t.region i = none ∧ t.rf (Reg.RMA_STAT n) 31 31 = 0 ∧ t.rf (Reg.RMA_STAT n) 15 0 = 0 ∧
        fetch 0 t.rma.gens i = (if fetch 0 s.rma.gens i = 0xFFF then 0 else fetch 0 s.rma.gens i + 1) ∧
        (fetch 0 s.rma.gens i = 0xFFF → fetch false t.rma.keyQuar i = true ∧ t.rd Reg.RMA_EVT = scEvent (s.rd Reg.RMA_EVT) 0) ∧ t.mem = s.mem)) ∧
  -- paths and work queues
  (∀ (s : State) (p n : Nat) (v : Word), s.hasSlice n = true → fieldOf v 31 31 = 1 → fieldOf v 30 4 = 0 → fieldOf v 3 0 = 6 →
    let u := rmaAsked s n v
    let a := u.rmaArg n
    let r := u.rma
    exec (.setPath (.pf0 p) n v) s = .next (rmaRuns u n (rmaArgOr u n 64 (u.pathStatus n a)) 0
      { u with rma := { r with paths := store [] r.paths (u.rmaIndex n) (u.bytes a 64) } })) ∧
  (∀ (s : State) (p n : Nat) (v : Word), s.hasSlice n = true → fieldOf v 31 31 = 1 → fieldOf v 30 4 = 0 → fieldOf v 3 0 = 7 →
    let u := rmaAsked s n v
    let a := u.rmaArg n
    let w := u.rmaIndex n
    let q : WorkQueue := { slice := n, ring := u.le a 5, log2 := u.le (a + 5) 1, cq := u.le (a + 8) 5, cqLog2 := u.le (a + 13) 1 }
    let t := ((((u.setWq w (some q)).wr (Reg.RMA_WQ_TAIL w) 0).wr (Reg.RMA_WQ_HEAD w) 0).wr (Reg.RMA_WQ_CQ_HEAD w) 0).wr (Reg.RMA_WQ_CQ_TAIL w) 0
    exec (.createWq (.pf0 p) n v) s = .next (rmaRuns u n (rmaArgOr u n 32 (u.createWqStatus n a)) 0 t)) ∧
  (∀ (s : State) (n a : Nat), s.createWqStatus n a = 0 →
    s.wq (s.rmaIndex n) = none ∧ s.inShare n 1024 (s.rmaIndex n) = true ∧ 4 ≤ s.le (a + 5) 1 ∧ s.le (a + 5) 1 ≤ 12 ∧ 4 ≤ s.le (a + 13) 1 ∧
      s.le (a + 13) 1 ≤ 12 ∧ s.le a 5 % 64 = 0 ∧ s.le (a + 8) 5 % 16 = 0) ∧
  (∀ (s : State) (p n : Nat) (v : Word), s.hasSlice n = true → fieldOf v 31 31 = 1 → fieldOf v 30 4 = 0 → fieldOf v 3 0 = 8 →
    let u := rmaAsked s n v
    let w := u.rmaIndex n
    let t := ((((u.setWq w none).wr (Reg.RMA_WQ_TAIL w) 0).wr (Reg.RMA_WQ_HEAD w) 0).wr (Reg.RMA_WQ_CQ_HEAD w) 0).wr (Reg.RMA_WQ_CQ_TAIL w) 0
    exec (.destroyWq (.pf0 p) n v) s = .next (rmaRuns u n (
      if u.inShare n 1024 w = false then 0x01D1 else if u.wq w = none then 0x02D0 else 0) 0 t)) ∧
  -- FENCE notes the CIDs and indices quarantined when it is issued; after FENCE_MS they can be used again
  (∀ (s : State) (p n : Nat) (v : Word), s.hasSlice n = true → fieldOf v 31 31 = 1 → fieldOf v 30 4 = 0 → fieldOf v 3 0 = 9 →
    let u := rmaAsked s n v
    let r := u.rma
    let x : RmaFence := { since := u.now, cids := (r.conns.filter (fun e => e.2.state = 3 && u.connSlice e.1 = n)).map (fun e => e.1),
                          keys := (r.keyQuar.filter (fun e => u.inShare n 1048576 e.1)).map (fun e => e.1) }
    let t : State := { u with rma := { r with fences := store none r.fences n (some x) } }
    exec (.rmaFence (.pf0 p) n v) s = .next (rmaRuns u n (if fetch none r.fences n = none then 0 else 0x02D0) 0 (t.wf (Reg.RMA_STAT n) 30 30 1))) ∧
  (∀ (s : State) (n t : Nat), fetch none s.rma.fences n = none → exec (.fenceComplete n t) s = .next s) ∧
  (∀ (s : State) (n t : Nat) (x : RmaFence), n < 4 → fetch none s.rma.fences n = some x →
    ∃ u : State, exec (.fenceComplete n t) s = .next u ∧ (t < x.since + 1000000 * s.rf Reg.RMA_TIMING 15 0 → u = s) ∧
      (x.since + 1000000 * s.rf Reg.RMA_TIMING 15 0 ≤ t →
        (∀ c ∈ x.cids, (u.conn c).state = 0 ∧ (u.conn c).known = false ∧ (u.conn c).opens = 0) ∧
        (∀ k ∈ x.keys, fetch false u.rma.keyQuar k = false) ∧ u.rf (Reg.RMA_STAT n) 30 30 = 0 ∧ fetch none u.rma.fences n = none ∧
        u.mem = s.mem)) ∧
  (∀ (s : State) (p n : Nat) (v : Word), s.hasSlice n = true → fieldOf v 31 31 = 1 → fieldOf v 30 4 = 0 → fieldOf v 3 0 = 10 →
    let u := rmaAsked s n v
    let i := u.rmaIndex n
    let c := u.conn i
    exec (.rmaQuery (.pf0 p) n v) s = .next (rmaRuns u n (if u.inShare n 262144 i = false then 0x01D1 else 0) c.err
      (u.wr (Reg.RMA_RESULT n) (BitVec.ofNat 32 (c.epoch * 65536 + c.state))))) ∧
  -- reserved bits, another operation, no GO
  (∀ (s : State) (p n : Nat) (v : Word), s.hasSlice n = true →
    let u := rmaAsked s n v
    (fieldOf v 31 31 = 0 → exec (.rmaOpen (.pf0 p) n v) s = .next u) ∧
    (fieldOf v 31 31 = 1 → fieldOf v 30 4 ≠ 0 → exec (.rmaOpen (.pf0 p) n v) s = .next (rmaEnds u n 0x01D0)) ∧
    (fieldOf v 31 31 = 1 → u.rf (Reg.RMA_STAT n) 31 31 = 0 → fieldOf v 3 0 = 0 ∨ 11 ≤ fieldOf v 3 0 →
      exec (.rmaOpen (.pf0 p) n v) s = .next (rmaEnds u n 0x01D0)))

/-- A WRITE packet that its target takes: the connection `c` of the part's memory, with key and range as region `r` allows (R651, R667). -/
def rmaTakes (s : State) (p : List Byte) (c : RmaConn) (r : RmaRegion) : Bool :=
  let cid := pktCid p
  let i := pktRkey p / 4096
  pktOpcode p = 0x10 && s.rf (Reg.HOST_S_STAT (s.connSlice cid)) 3 0 ≠ 6 && c.state = 1 && !c.eth && pktSrcPart p = c.rpart &&
  pktEpoch p = c.epoch && pktPsn p = c.epsn && c.epsn < 2 ^ 24 && c.held = [] && c.sinceAck < 15 && !pktPoison p &&
  s.inShare (s.connSlice cid) 1048576 i && r.valid && pktRkey p % 4096 = fetch 0 s.rma.gens i && r.pd = c.pd && r.rw &&
  pktOff p % 2 ^ 40 + pktLen p ≤ r.len && r.ep = 0

/-- RMA_WQ_TAIL_WRITE, RMA_WQ_CQ_HEAD_WRITE, WORK_REQUEST_START, WORK_REQUEST_COMPLETE, RMA_CTR_VAL_WRITE, RMA_CTR_ADD,
RMA_REQUEST_RECEIVE, RMA_ACK_TIMER, RMA_ACK_RECEIVE, RMA_NAK_RECEIVE, READ_RESP_RECEIVE, RMA_TIMEOUT, RMA_WAIT_LIMIT and
EDGE_WACK_RECEIVE (R653 to R679). -/
def Obligations.RmaTraffic : Prop :=
  -- doorbells and counters
  (∀ (s : State) (p w : Nat) (v : Word) (q : WorkQueue), w < 1024 → s.hasSlice (s.shareOwner 1024 w) = true → s.wq w = some q →
    let tail := fieldOf v 15 0
    exec (.rmaWqTailWrite (.pf0 p) w v) s = .next (
      if 2 ^ q.log2 < aheadMod 16 (s.rf (Reg.RMA_WQ_HEAD w) 15 0) tail then s.reject (.pf0 p) (Reg.RMA_WQ_TAIL w) 0x02D4
      else s.wr (Reg.RMA_WQ_TAIL w) (BitVec.ofNat 32 tail))) ∧
  (∀ (s : State) (p w : Nat) (v : Word), w < 1024 → s.hasSlice (s.shareOwner 1024 w) = true → s.wq w = none →
    exec (.rmaWqTailWrite (.pf0 p) w v) s = .next (s.reject (.pf0 p) (Reg.RMA_WQ_TAIL w) 0x02D4) ∧
    exec (.rmaWqCqHeadWrite (.pf0 p) w v) s = .next (s.wr (Reg.RMA_WQ_CQ_HEAD w) (v &&& 0xFFFF)) ∧
    exec (.workRequestStart w) s = .next s ∧ exec (.workRequestComplete w) s = .next s) ∧
  (∀ (s : State) (p w : Nat) (v : Word) (q : WorkQueue) (r : WqReq), w < 1024 → s.hasSlice (s.shareOwner 1024 w) = true → s.wq w = some q →
    q.reqs = [r] →
    let u := s.wr (Reg.RMA_WQ_CQ_HEAD w) (v &&& 0xFFFF)
    exec (.rmaWqCqHeadWrite (.pf0 p) w v) s = .next (u.wqRecord w)) ∧
  (∀ (s : State) (p c : Nat) (v : Word), c < 16384 → s.hasSlice (s.shareOwner 16384 c) = true →
    exec (.rmaCtrValWrite (.pf0 p) c v) s = .next (s.ctrSet c v) ∧
    exec (.rmaCtrAdd (.pf0 p) c v) s = .next (s.ctrSet c (s.rd (Reg.RMA_CTR_VAL c) + v))) ∧
  (∀ (s : State) (c : Nat) (v : Word), c < 16384 → (s.ctrSet c v).rd (Reg.RMA_CTR_VAL c) = v ∧ (s.ctrSet c v).jobs = s.jobs) ∧
  -- the record of the oldest request: written when it has ended and the ring has room, with the phase of its pass
  (∀ (s : State) (w : Nat) (q : WorkQueue) (r : WqReq) (rest : List WqReq), w < 1024 → s.wq w = some q → q.reqs = r :: rest →
    let tail := s.rf (Reg.RMA_WQ_CQ_TAIL w) 15 0
    let rec16 := record [(2, r.idx), (2, (r.status).getD 0), (4, r.user), (4, r.bytes), (3, 0), (1, bit (tail / 2 ^ q.cqLog2 % 2 = 0))]
    let x := s.writeB (q.cq + 16 * (tail % 2 ^ q.cqLog2)) rec16
    let u := (x.wr (Reg.RMA_WQ_CQ_TAIL w) (BitVec.ofNat 32 ((tail + 1) % 65536))).setWq w (some { q with reqs := rest })
    exec (.workRequestComplete w) s = .next (
      if r.status = none ∨ 2 ^ q.cqLog2 ≤ aheadMod 16 (s.rf (Reg.RMA_WQ_CQ_HEAD w) 15 0) tail then s
      else (match r.doneCtr with
        | some c => u.ctrSet c (u.rd (Reg.RMA_CTR_VAL c) + 1)
        | none => u))) ∧
  -- the next request: taken from the ring in order; it ends at once with its status, or its message joins the connection
  (∀ (s : State) (w : Nat) (q : WorkQueue), s.wq w = some q →
    let h := s.rf (Reg.RMA_WQ_HEAD w) 15 0
    let a := q.ring + 64 * (h % 2 ^ q.log2)
    let st := s.wrStatus q.slice a
    let op := s.le a 1
    let fl := s.le (a + 1) 1
    let done := (if bitOf fl 3 && s.inShare q.slice 16384 (s.le (a + 34) 2) then some (s.le (a + 34) 2) else none)
    let r : WqReq := { idx := h, user := s.le (a + 40) 4, doneCtr := done,
                       status := (if st ≠ 0 then some st else if op = 3 then some 0 else none) }
    let u := (s.setWq w (some { q with reqs := q.reqs ++ [r] })).wr (Reg.RMA_WQ_HEAD w) (BitVec.ofNat 32 ((h + 1) % 65536))
    let c := u.conn (u.le (a + 4) 3)
    let len := u.le (a + 28) 4
    let m : RmaMsg := { wq := w, idx := h, read := op = 2, ep := bitsOf (u.le (a + 8) 6) 45 40, loc := bitsOf (u.le (a + 8) 6) 39 0,
                        roff := u.le (a + 16) 5, rkey := u.le (a + 24) 4, len := len, notify := bitOf fl 0,
                        total := (if op = 2 then 1 else max 1 ((len + c.mtu - 1) / c.mtu)) }
    exec (.workRequestStart w) s = .next (
      if h = s.rf (Reg.RMA_WQ_TAIL w) 15 0 ∨ s.sliceState q.slice ≠ 0 ∨ (st = 0 ∧ s.wrReady q a = false) then s
      else if st ≠ 0 ∨ op = 3 then u
      else (u.setConn (u.le (a + 4) 3) { c with msgs := c.msgs ++ [m] }).rmaPump (u.le (a + 4) 3))) ∧
  -- what lets a request start: its trigger counter, its fence, a read tracker (R652, R657, R676)
  (∀ (s : State) (q : WorkQueue) (a : Nat),
    let fl := s.le (a + 1) 1
    s.wrReady q a = decide ((bitOf fl 2 = true → s.ctrReached (s.le (a + 32) 2 % 2 ^ 14) (s.le (a + 36) 4) = true) ∧
      (bitOf fl 1 = true → q.reqs = []) ∧ (s.le a 1 = 2 → s.readTrackers q.slice < s.shareSize 4096))) ∧
  -- the target: a WRITE in order is placed and released; nothing else of memory changes
  (∀ (s : State) (p : List Byte) (c : RmaConn) (r : RmaRegion) (a : Nat), s.conn (pktCid p) = c → s.region (pktRkey p / 4096) = some r →
    rmaTakes s p c r = true → pktNotify p = false ∨ pktLast p = false ∨ r.ctr = none → p.length = 32 + pktLen p →
    let b := r.base + pktOff p % 2 ^ 40
    ∃ t : State, exec (.rmaRequestReceive none p) s = .next t ∧
      t.byte a = (if b ≤ a ∧ a < b + pktLen p then p.getD (32 + (a - b)) 0 else s.byte a) ∧
      (t.conn (pktCid p)).epsn = (c.epsn + 1) % 2 ^ 24 ∧ (t.conn (pktCid p)).held = [] ∧ (t.conn (pktCid p)).sinceAck = c.sinceAck + 1 ∧
      t.ctr Ctr.RMA_PKT_RX = (s.ctr Ctr.RMA_PKT_RX).bump) ∧
  -- and the last packet of a request with NOTIFY increments the region's counter
  (∀ (s : State) (p : List Byte) (c : RmaConn) (r : RmaRegion) (k : Nat), k < 16384 → s.conn (pktCid p) = c →
    s.region (pktRkey p / 4096) = some r → rmaTakes s p c r = true → pktNotify p = true → pktLast p = true → r.ctr = some k →
    p.length = 32 + pktLen p →
    ∃ t : State, exec (.rmaRequestReceive none p) s = .next t ∧ t.rd (Reg.RMA_CTR_VAL k) = s.rd (Reg.RMA_CTR_VAL k) + 1) ∧
  -- what is refused, in the order of the checks (R665, R667)
  (∀ (s : State) (src : Option (List Byte)) (p : List Byte),
    let c := s.conn (pktCid p)
    let path := fetch [] s.rma.paths c.path
    let ip := (if bitOf (byteAt path 0) 7 then (path.drop 36).take 16 else (path.drop 36).take 4)
    exec (.rmaRequestReceive src p) s = .next (
      if pktOpcode p ≠ 0x10 ∧ pktOpcode p ≠ 0x11 then s.count Ctr.RMA_BAD_PKT
      else if s.rf (Reg.HOST_S_STAT (s.connSlice (pktCid p))) 3 0 = 6 then s.rmaNak (pktCid p) p 3 (pktPsn p) 0
      else if c.state = 0 ∨ c.state = 3 then s.rmaNak (pktCid p) p 5 (pktPsn p) 0
      else if (c.eth = true ∧ src ≠ some ip) ∨ (c.eth = false ∧ (src ≠ none ∨ pktSrcPart p ≠ c.rpart)) then s.count Ctr.RMA_BAD_PKT
      else if laterMod 16 (pktEpoch p) c.epoch = true then (s.count Ctr.RMA_STALE).rmaNak (pktCid p) p 4 (pktPsn p) 0
      else if pktEpoch p ≠ c.epoch then s.rmaNak (pktCid p) p 2 (pktPsn p) 0
      else if c.state = 2 then (s.event Reg.RMA_EVT 2).rmaNak (pktCid p) p 6 (pktPsn p) c.err
      else s.rmaTake (pktCid p) p)) ∧
  -- a duplicate is counted and acknowledged again, not placed; a bad key takes the connection to ERROR
  (∀ (s : State) (p : List Byte), pktOpcode p = 0x10 → 2 ^ 23 ≤ aheadMod 24 (s.conn (pktCid p)).epsn (pktPsn p) →
    s.rmaTake (pktCid p) p = (s.count Ctr.RMA_DUP).rmaAck (pktCid p)) ∧
  (∀ (s : State) (p : List Byte), pktOpcode p = 0x10 → (s.conn (pktCid p)).held = [] → pktPsn p = (s.conn (pktCid p)).epsn →
    (s.conn (pktCid p)).epsn < 2 ^ 24 → s.keyOk (s.connSlice (pktCid p)) (s.conn (pktCid p)) (pktRkey p) (pktOff p % 2 ^ 40) (pktLen p) false = false →
    s.rmaTake (pktCid p) p = ((s.rmaError (pktCid p) 0x04D0 false).event Reg.RMA_EVT 2).rmaNak (pktCid p) p 6 (pktPsn p) 0x04D0) ∧
  (∀ (s : State) (cid st : Nat) (cause : Bool), ((s.rmaError cid st cause).conn cid).state = 2 ∧ ((s.rmaError cid st cause).conn cid).err = st ∧
    ((s.rmaError cid st cause).conn cid).msgs = [] ∧ ((s.rmaError cid st cause).conn cid).flight = []) ∧
  -- ACKs: 1 us after a release; a current one covers flights, another is stale
  (∀ (s : State) (cid : Nat), exec (.rmaAckTimer cid) s = .next (
    if (s.conn cid).state = 1 ∧ (s.conn cid).sinceAck ≠ 0 then s.rmaAck cid else s)) ∧
  (∀ (s : State) (t : Nat) (p : List Byte), exec (.rmaAckReceive t p) s = .next (
    let c := s.conn (pktCid p)
    if c.state = 1 ∧ pktEpoch p = c.epoch then ((s.reach t).rmaAcked (pktCid p) t (pktPsn p)).rmaPump (pktCid p) else s.count Ctr.RMA_STALE)) ∧
  (∀ (s : State) (cid t a w : Nat) (c : RmaConn) (f : RmaFlight) (m : RmaMsg) (q : WorkQueue) (r : WqReq), s.conn cid = c → c.flight = [f] →
    c.msgs = [m] → f.acked = false → f.read = false → f.last = true → f.psn = a → a < 2 ^ 24 → m.wq = w → f.wq = w → m.idx = f.idx →
    s.wq w = some q → q.reqs = [r] → r.idx = m.idx → r.status = none →
    ((s.rmaAcked cid t a).conn cid).flight = [] ∧ ((s.rmaAcked cid t a).conn cid).msgs = [] ∧
      (s.rmaAcked cid t a).wq w = some { q with reqs := [{ r with status := some 0, bytes := m.len }] } ∧
      ((s.rmaAcked cid t a).conn cid).rto = 8000 ∧ ((s.rmaAcked cid t a).conn cid).tries = 0) ∧
  -- the window rises by 65,536 / WIN per packet acknowledged in time, and falls at most once a window (R679)
  (∀ (c : RmaConn) (n rtt a : Nat), c.ackWindow n rtt a = (
    if rtt ≤ c.target then { c with win := min (c.maxWnd * 256) (c.win + n * 65536 / c.win) }
    else if (c.decPsn).any (fun p => !psnCovered a p) = true then c
    else { c with win := max 256 (c.win * (rtt + c.target) / (2 * rtt)), decPsn := some c.psn })) ∧
  -- NAKs by code
  (∀ (s : State) (t : Nat) (p : List Byte),
    let cid := pktCid p
    let c := s.conn cid
    let u := s.reach t
    let acked := u.rmaAcked cid t (pktPsn p)
    let d := acked.conn cid
    let waits := (u.setConn cid { c with rto := min 4000000 (2 * c.rto), waitSince := some ((c.waitSince).getD t) }).rmaTimer cid
    exec (.rmaNakReceive t p) s = .next (
      if c.state ≠ 1 ∨ pktEpoch p ≠ c.epoch then s.count Ctr.RMA_STALE
      else if byteAt p 28 = 1 then ((acked.setConn cid { d.goBack with win := max 256 (d.win / 2) }).rmaTimer cid).rmaPump cid
      else if byteAt p 28 = 2 ∨ byteAt p 28 = 3 then waits
      else if byteAt p 28 = 4 then u.rmaError cid 0x06D2 true
      else if byteAt p 28 = 5 then u.rmaError cid 0x06D1 true
      else if byteAt p 28 = 6 then u.rmaError cid (leAt p 30 2) true
      else u)) ∧
  -- READ responses are placed once, in any order
  (∀ (s : State) (p : List Byte) (f : RmaFlight) (m : RmaMsg),
    let c := s.conn (pktCid p)
    let off := pktOff p % 2 ^ 40
    let busy := s.rma.edge.any (fun o => o.work = .resp (pktCid p) m.wq m.idx off (pktLen p))
    (c.flight).find? (fun g => g.read && g.psn = pktPsn p) = some f → (c.msgs).find? (fun y => y.wq = f.wq && y.idx = f.idx) = some m →
    exec (.readRespReceive p) s = .next (
      if c.state ≠ 1 ∨ pktEpoch p ≠ c.epoch then s.count Ctr.RMA_STALE
      else if m.placed.any (fun x => x.1 ≤ off && off < x.1 + x.2) = true ∨ busy = true then s.count Ctr.RMA_DUP
      else if m.len < off + pktLen p then s.count Ctr.RMA_BAD_PKT
      else if m.ep = 0 then (s.writeMarked (m.loc + off) (pktData p)).respPlaced (pktCid p) m.wq m.idx off (pktLen p)
      else s.edgePlace m.ep (m.loc + off) (pktData p) (.resp (pktCid p) m.wq m.idx off (pktLen p)))) ∧
  (∀ (s : State) (p : List Byte), (s.conn (pktCid p)).state = 1 → pktEpoch p = (s.conn (pktCid p)).epoch → (s.conn (pktCid p)).flight = [] →
    exec (.readRespReceive p) s = .next (s.count Ctr.RMA_DUP)) ∧
  -- the timer: everything kept is sent again with the window at one packet, or the retries are used up
  (∀ (s : State) (cid t : Nat),
    let c := s.conn cid
    let u := (s.reach t).count Ctr.RMA_TIMEOUT
    let tries := (if c.waitSince = none then c.tries + 1 else c.tries)
    exec (.rmaTimeout cid t) s = .next (
      if c.state ≠ 1 ∨ t < c.deadline ∨ (∀ f ∈ c.flight, c.satisfied f = true) then s
      else if c.retry < tries then u.rmaError cid 0x06D0 true
      else ((u.setConn cid { c.goBack with win := 256, tries := tries, rto := min 4000000 (2 * c.rto) }).rmaTimer cid).rmaPump cid)) ∧
  (∀ (s : State) (cid t : Nat),
    let c := s.conn cid
    exec (.rmaWaitLimit cid t) s = .next (
      if (c.waitSince).any (fun d => c.state = 1 && d + 1000000 * s.rf Reg.RMA_TIMING 31 16 ≤ t) = true then (s.reach t).rmaError cid 0x06D3 true
      else s)) ∧
  -- an endpoint has written what was placed at it
  (∀ (s : State) (ep tag st : Nat), s.rma.edge.find? (fun o => o.ep = ep && o.tag = tag) = none → exec (.edgeWackReceive ep tag st) s = .next s) ∧
  (∀ (s : State) (ep tag st : Nat) (o : EdgeOp), s.rma.edge.find? (fun x => x.ep = ep && x.tag = tag) = some o →
    let r := s.rma
    let u : State := { s with rma := { r with edge := r.edge.erase o } }
    exec (.edgeWackReceive ep tag st) s = .next (match o.work with
      | .place cid e psn _ =>
        let c := u.conn cid
        if c.state ≠ 1 ∨ c.epoch ≠ e then u
        else if st ≠ 0 then u.rmaError cid st false
        else State.rmaAdvance cid c.held.length
          (u.setConn cid { c with held := c.held.map (fun h => if h.psn = psn then { h with placed := true } else h) })
      | .resp cid w i off len => if st ≠ 0 then u.rmaError cid st true else u.respPlaced cid w i off len
      | _ => u))

/-! ### The Ethernet edge (file 12) -/

/-- ETH_FRAME_RECEIVE, ETH_FRAME_TRANSMIT, ETH_PORT_DOWN, ETH_PORT_RETRY, ETH_PORT_TRAIN_DONE, ETH_RSEL_WRITE, ETH_RULE_COMMIT,
ETH_POLICER_WRITE and PTP_MESSAGE (R688 to R715). -/
def Obligations.EthernetEdge : Prop :=
  -- a received frame: FCS, length, MAC PAUSE, the first rule that matches or the default, the policer, the action
  (∀ (s : State) (p t : Nat) (f : List Byte) (ok : Bool), 32 ≤ p ∨ s.portState p ≠ 2 →
    exec (.ethFrameReceive p t f ok) s = .next s ∧ exec (.ethFrameTransmit p t) s = .next s) ∧
  (∀ (s : State) (p t : Nat) (f : List Byte) (ok : Bool), p < 32 → s.portState p = 2 →
    let len := f.length + 4
    let r := s.reach t
    let g := (r.count (Ctr.ETH_RX_FRAMES p)).countN (Ctr.ETH_RX_BYTES p) len
    let x := parseFrame f
    let m := g.classify p x
    let a := m.getD (g.defaultAction p)
    let h := (if m = none then g.count (Ctr.ETH_DEFAULT_HIT p) else g)
    let stamp := t - s.rf (Reg.ETH_P_LAT p) 15 0
    let y := (h.police (p / 8) a.policer t len).1
    exec (.ethFrameReceive p t f ok) s = .next (
      if ok = false then r.count (Ctr.ETH_RX_FCS p)
      else if len < 64 ∨ s.rf (Reg.ETH_P_CFG p) 29 16 < len then r.count (Ctr.ETH_RX_SIZE p)
      else if frameAt f 12 2 = 0x8808 then g.count (Ctr.ETH_PAUSE_RX p)
      else if (h.police (p / 8) a.policer t len).2 = false then y.count (Ctr.ETH_POLICE_DROP p)
      else if a.kind = 1 then y.ethFwd p a f x
      else if a.kind = 2 then y.ethRma t f x
      else if a.kind = 3 then y.ethCarder p a.arg stamp f x
      else if a.kind = 4 then (if y.coreAway 5 = true then y.noTarget p else y.emit (.toSpindle p f stamp))
      else y.count (Ctr.ETH_RULE_DROP p))) ∧
  -- rules are the die's own, lowest index first; a frame that the parser cannot read takes the default action
  (∀ (s : State) (p : Nat), s.classify p none = none) ∧
  (∀ (s : State) (p i : Nat) (x : Parsed) (r : List Nat), s.ethRules = [(8192 * (p / 8) + i, r)] → i < 8192 →
    s.classify p (some x) = (if ruleMatches r (p % 8) x = true then some (ruleAction r) else none)) ∧
  (∀ (s : State) (p i j : Nat) (x : Parsed) (r q : List Nat), s.ethRules = [(8192 * (p / 8) + i, r), (8192 * (p / 8) + j, q)] → i < j → j < 8192 →
    ruleMatches r (p % 8) x = true → s.classify p (some x) = some (ruleAction r)) ∧
  (∀ (s : State) (p i : Nat) (x : Parsed) (r : List Nat), s.ethRules = [(8192 * (p / 8 + 1) + i, r)] → i < 8192 →
    s.classify p (some x) = none) ∧
  -- a policer is a token bucket: it fills at RATE up to its burst, and a frame that it cannot pay for is dropped and costs nothing
  (∀ (s : State) (d k t len : Nat), k = 255 ∨ s.rf (Reg.ETH_D_POL0 d k) 31 31 = 0 → s.police d k t len = (s, true)) ∧
  (∀ (s : State) (d k t len level0 t0 : Nat), k < 255 → s.rf (Reg.ETH_D_POL0 d k) 31 31 = 1 →
    fetch none s.policers (256 * d + k) = some (level0, t0) →
    let level := min (80 * s.rf (Reg.ETH_D_POL1 d k) 23 0) (level0 + s.rf (Reg.ETH_D_POL0 d k) 11 0 * (t - t0))
    let r := s.police d k t len
    r.2 = decide (80 * len ≤ level) ∧ fetch none r.1.policers (256 * d + k) = some (if 80 * len ≤ level then level - 80 * len else level, t) ∧
      r.1.regs = s.regs) ∧
  -- FORWARD: the live ports of the group, picked by the symmetric hash; without one the frame is dropped and flagged
  (∀ (s : State) (p : Nat) (a : EthAction) (f : List Byte) (x : Option Parsed), a.arg < 16 →
    let live := (List.range 32).filter (fun q => bitOf (s.rd (Reg.ETH_GRP a.arg)).toNat q && s.portState q = 2)
    (live = [] → s.ethFwd p a f x = (s.count (Ctr.ETH_NO_TARGET p)).event Reg.ETH_EVT 1) ∧
    (∀ (q : Nat), live[s.ethHash f x % live.length]? = some q → s.ethFwd p a f x = s.ethForward q ⟨a.queue, rewriteFrame a.rewrite f, false⟩)) ∧
  -- both directions of a flow hash alike (R704)
  (∀ (s : State) (f g : List Byte) (x : Parsed) (a b : Nat), x.l3 ≠ 0 → x.l4 = some (a, b) → x.src.length ≤ 16 → x.dst.length ≤ 16 →
    a < 65536 → b < 65536 → x.src ≠ [] → x.dst ≠ [] →
    s.ethHash f (some x) = s.ethHash g (some { x with src := x.dst, dst := x.src, l4 := some (b, a) })) ∧
  -- a frame that a port's queue has no room for is dropped; a DOWN port drops it too (R692, R712)
  (∀ (s : State) (q : Nat) (e : EthTx),
    let x := s.ethPort q
    let room := decide (x.held (fun _ => true) + (e.frame.length + 4) ≤ 2 * 2 ^ 20 ∧
      x.held (fun u => u.queue = e.queue) + (e.frame.length + 4) ≤ 2 ^ 20)
    s.ethForward q e = (if room = true ∧ s.portState q = 2 then s.setEthPort q { x with frames := x.frames ++ [e] }
      else s.count (Ctr.ETH_TX_DROP q))) ∧
  -- the strict queues first: 0, then 1, then the round robin of 2 to 7 (R711)
  (∀ (s : State) (p t : Nat), p < 32 → s.portState p = 2 →
    let r := s.reach t
    let x := s.ethPort p
    exec (.ethFrameTransmit p t) s = .next (match r.ethHead p 0 t with
      | some f => r.ethSend p t f
      | none => (match r.ethHead p 1 t with
        | some f => r.ethSend p t f
        | none => (match r.ethRound p t 300 x.deficit x.turn with
          | some (f, d, q) => (r.setEthPort p { x with deficit := d, turn := q }).ethSend p t f
          | none => r)))) ∧
  -- the queue's head goes once its shaper's credit covers it; it leaves the queue and is counted
  (∀ (s : State) (p q t : Nat) (f : EthTx), (s.ethPort p).frames.find? (fun e => e.queue = q) = some f →
    s.ethHead p q t = (if fieldOf (s.rd (ethQueueReg p q)) 31 20 = 0 ∨ 80 * (f.frame.length + 4) ≤ s.ethCredit p q t then some f else none)) ∧
  (∀ (s : State) (p t : Nat) (f : EthTx), p < 32 →
    let u := s.ethSend p t f
    (u.ethPort p).frames = (s.ethPort p).frames.erase f ∧ u.ctr (Ctr.ETH_TX_FRAMES p) = (s.ctr (Ctr.ETH_TX_FRAMES p)).bump ∧
      u.ctr (Ctr.ETH_TX_BYTES p) = (s.ctr (Ctr.ETH_TX_BYTES p)).add (f.frame.length + 4) ∧
      u.out = s.out ++ [.ethFrame p f.frame (if f.mark = true then some (t + s.rf (Reg.ETH_P_LAT p) 31 16) else none)] ∧
      u.regs = s.regs ∧ u.mem = s.mem) ∧
  -- ports: DOWN empties the queues and counts, retries after 100 ms, and is UP once trained
  (∀ (s : State) (p t : Nat),
    let x := s.ethPort p
    let u := ((s.reach t).countN (Ctr.ETH_TX_DROP p) x.frames.length).setEthPort p { downAt := some t }
    exec (.ethPortDown p t) s = .next (
      if p < 32 ∧ s.linkMode (portLink p) = 2 ∧ s.portState p ≠ 0 then
        (u.wr (Reg.ETH_P_STAT p) 0x05E00000).event Reg.ETH_EVT 0
      else s)) ∧
  (∀ (s : State) (p t : Nat),
    exec (.ethPortRetry p t) s = .next (
      if p < 32 ∧ s.linkMode (portLink p) = 2 ∧ s.portState p = 0 ∧ ((s.ethPort p).downAt).all (fun d => d + 100000000 ≤ t) = true then
        (s.reach t).wf (Reg.ETH_P_STAT p) 1 0 1
      else s)) ∧
  (∀ (s : State) (p : Nat),
    exec (.ethPortTrainDone p) s = .next (
      if p < 32 ∧ s.linkMode (portLink p) = 2 ∧ s.portState p = 1 then s.wf (Reg.ETH_P_STAT p) 1 0 2 else s)) ∧
  -- the rule window: selecting copies the rule, word 15 commits the staged words whole or leaves the rule as it was
  (∀ (s : State) (p d : Nat) (v : Word), d < 4 → exec (.ethRselWrite (.pf0 p) d v) s = .next (
    if fieldOf v 31 13 ≠ 0 then s.reject (.pf0 p) (Reg.ETH_D_RSEL d) 0x01E0
    else (s.wr (Reg.ETH_D_RSEL d) (v &&& 0x1FFF)).setStage d (s.ethRule d (fieldOf v 12 0)))) ∧
  (∀ (s : State) (p d : Nat) (v : Word), d < 4 →
    let r := (s.ethStaged d).take 15 ++ [v.toNat]
    let i := s.rf (Reg.ETH_D_RSEL d) 12 0
    ∃ t : State, exec (.ethRuleCommit (.pf0 p) d v) s = .next t ∧ (s.ruleOk r = true → t.ethRule d i = r ∧ t.ethStaged d = r ∧ t.regs = s.regs) ∧
      (s.ruleOk r = false → t = s.reject (.pf0 p) (Reg.ETH_D_RW d 15) 0x01E0 ∧ t.ethRules = s.ethRules)) ∧
  (∀ (s : State) (r : List Nat), s.ruleOk r = true →
    bitsOf (ruleWord r 13) 3 0 ≤ 4 ∧ bitsOf (ruleWord r 0) 15 12 = 0 ∧ bitsOf (ruleWord r 0) 11 10 ≠ 3 ∧
      (bitsOf (ruleWord r 13) 3 0 = 1 → s.rd (Reg.ETH_GRP (bitsOf (ruleWord r 13) 15 4)) ≠ 0) ∧
      (bitsOf (ruleWord r 13) 3 0 = 3 → bitsOf (ruleWord r 13) 15 4 < 64)) ∧
  (∀ (s : State) (p n : Nat) (v : Word),
    let d := n / 512
    let k := n / 2 % 256
    exec (.ethPolicerWrite (.pf0 p) n v) s = .next (
      if 4 ≤ d ∨ k = 255 then s
      else if n % 2 = 0 then
        if fieldOf v 11 0 = 0 ∨ 4000 < fieldOf v 11 0 ∨ fieldOf v 30 12 ≠ 0 then s.reject (.pf0 p) (Reg.ETH_D_POL0 d k) 0x01E0
        else { s.wr (Reg.ETH_D_POL0 d k) (v &&& 0x80000FFF) with policers := store none s.policers (256 * d + k) none }
      else if fieldOf v 23 0 < 64 ∨ fieldOf v 31 24 ≠ 0 then s.reject (.pf0 p) (Reg.ETH_D_POL1 d k) 0x01E0
      else { s.wr (Reg.ETH_D_POL1 d k) (v &&& 0x00FFFFFF) with policers := store none s.policers (256 * d + k) none })) ∧
  (∀ (s : State) (m n d : Nat) (v : Word), exec (.ethRselWrite (.page m 0 none) d v) s = .next s ∧
    exec (.ethRuleCommit (.page m 0 none) d v) s = .next s ∧ exec (.ethPolicerWrite (.page m 0 none) n v) s = .next s) ∧
  -- PTP: Sync, Follow_Up and Delay_Resp of the source's port measure the offset; another clock's Delay_Req is answered (R715)
  (∀ (s : State) (p t q : Nat), let u := s.reach t
    let source := s.tbKind = 1 ∧ s.tbIndex = p
    exec (.ptpMessage p t (.sync q)) s = .next (if source then { u with ptpSync := some (q, t), ptpOrigin := none, ptpAsk := none } else u)) ∧
  (∀ (s : State) (p t q o r t2 : Nat), s.tbKind = 1 → s.tbIndex = p → s.ptpSync = some (q, t2) →
    let u : State := { s.reach t with ptpOrigin := some o, ptpAsk := some t }
    exec (.ptpMessage p t (.followUp q o)) s = .next (u.emit (.ptpDelayReq p q)) ∧
      (r ≠ q → exec (.ptpMessage p t (.followUp r o)) s = .next (s.reach t))) ∧
  (∀ (s : State) (p t q r t1 t2 t3 : Nat), s.tbKind = 1 → s.tbIndex = p → s.ptpSync = some (q, t2) → s.ptpOrigin = some t1 → s.ptpAsk = some t3 →
    let u : State := { s.reach t with ptpSync := none, ptpOrigin := none, ptpAsk := none }
    exec (.ptpMessage p t (.delayResp q r)) s = .next (u.measure t (((r : Int) - t3 - ((t2 : Int) - t1)) / 2))) ∧
  (∀ (s : State) (p t q : Nat), exec (.ptpMessage p t (.delayReq q)) s = .next ((s.reach t).emit (.ptpDelayResp p q t)))

/-! ### Slices, host ports and storage (file 13) -/

/-- A slice command word without GO as the register keeps it (R740). -/
def sliceAsked (s : State) (n : Nat) (v : Word) : State := s.wr (Reg.HOST_S_CMD n) (v &&& 0x70F)

/-- A slice command word with GO, operation `op`, and no reserved bit set. -/
def sliceWord (v : Word) (op : Nat) : Bool := fieldOf v 31 31 = 1 && fieldOf v 30 11 = 0 && fieldOf v 7 4 = 0 && fieldOf v 3 0 = op

/-- A slice command refused with `st`. -/
def sliceRefused (s : State) (n st : Nat) : State :=
  (s.wr (Reg.HOST_S_ERR n) (BitVec.ofNat 32 st)).wf (Reg.HOST_S_STAT n) 15 4 (st / 16)

/-- Slice `n` runs no command. -/
def sliceFree (s : State) (n : Nat) : Bool := s.rf (Reg.HOST_S_STAT n) 31 31 = 0

/-- SLICE_FREEZE, FREEZE_COMPLETE, SLICE_THAW, SLICE_SAVE, SLICE_RESTORE, NS_ATTACH and NS_DETACH (R740 to R746, R761, R769). -/
def Obligations.SliceCommands : Prop :=
  -- FREEZE: only in RUN, one command at a time; RUNNING rows pause, the others stay
  (∀ (s : State) (p n : Nat) (v : Word), s.hasSlice n = true → sliceWord v 2 = true →
    let u := sliceAsked s n v
    exec (.sliceFreeze (.pf0 p) n v) s = .next (
      if u.sliceState n = 0 ∧ sliceFree u n = true then (u.freezeStart n).wf (Reg.HOST_S_STAT n) 31 31 1 else sliceRefused u n 0x02F0)) ∧
  (∀ (s : State) (n : Nat), n < 4 → s.hasSlice n = true →
    (s.freezeStart n).sliceState n = 1 ∧ (∀ l ∈ s.sliceRows n, (s.freezeStart n).rowState l = (if s.rowState l = 4 then 5 else s.rowState l)) ∧
      (s.freezeStart n).mem = s.mem ∧ (s.freezeStart n).out = s.out) ∧
  -- it completes when every row has paused and the work that has started is done
  (∀ (s : State) (n : Nat), s.partState ≠ 3 →
    let done := (s.sliceRows n).all (fun l => s.rowState l ≠ 2 && s.rowState l ≠ 4 && s.rowState l ≠ 5 && s.rowState l ≠ 8 && s.rowState l ≠ 9) &&
      s.rma.wqs.all (fun e => e.2.all (fun q => q.slice ≠ n || q.reqs = [])) && (List.range 8).all (fun k => s.copyList n k = []) &&
      (List.range 8).all (fun j => (s.space n j).all (fun x => x.cmds = []))
    exec (.freezeComplete n) s = .next (
      if s.hasSlice n = true ∧ s.sliceState n = 1 ∧ done = true then (s.setSliceState n 2).sliceCmdEnd n 0 else s)) ∧
  -- THAW from FROZEN or SAVED: the rows that FREEZE paused run again
  (∀ (s : State) (p n : Nat) (v : Word), s.hasSlice n = true → sliceWord v 3 = true →
    let u := sliceAsked s n v
    exec (.sliceThaw (.pf0 p) n v) s = .next (
      if (u.sliceState n = 2 ∨ u.sliceState n = 4) ∧ sliceFree u n = true then (u.thaw n).sliceCmdEnd n 0 else sliceRefused u n 0x02F0)) ∧
  (∀ (s : State) (n : Nat) (c : RowCmd), n < 4 → s.hasSlice n = true → s.rowCmd (5 + n) = some c → c.targets.length ≤ 16 → (∀ l ∈ c.targets, l < 128) →
    (s.thaw n).sliceState n = 0 ∧ (s.thaw n).mem = s.mem ∧
      (∀ l ∈ s.sliceRows n, (s.thaw n).rowState l =
        (if l ∈ c.targets ∧ s.rowState l = 6 ∧ (s.row l).owner = none then 4 else s.rowState l))) ∧
  -- SAVE: the place is checked first; every PAUSED row goes to its context slot, then the state block with its digest
  (∀ (s : State) (p n : Nat) (v : Word), s.hasSlice n = true → sliceWord v 4 = true →
    let u := sliceAsked s n v
    let rows := (s.sliceRows n).filter (fun l => u.rowState l = 6)
    let body := (Config.sliceBytes (u.sliceImage n rows)).take (0x400000 - 32)
    let w := rows.foldl (fun x l => x.saveRow n l) u
    exec (.sliceSave (.pf0 p) n v) s = .next (
      if u.savePlaced n = false then sliceRefused u n 0x01F2
      else if u.sliceState n = 2 ∧ sliceFree u n = true then ((w.writeB (u.saveAddr n) (body ++ sha3x256 body)).setSliceState n 4).sliceCmdEnd n 0
      else sliceRefused u n 0x02F0)) ∧
  -- RESTORE: into a RUN slice with nothing in use; a bad block, another contract or another memory layout changes nothing
  (∀ (s : State) (p n : Nat) (v : Word), s.hasSlice n = true → sliceWord v 5 = true →
    let u := sliceAsked s n v
    exec (.sliceRestore (.pf0 p) n v) s = .next (
      if u.savePlaced n = false then sliceRefused u n 0x01F2
      else if u.sliceState n ≠ 0 ∨ sliceFree u n = false ∨ u.restoreReady n = false then sliceRefused u n 0x02F0
      else (match u.readBlock n with
        | none => u.sliceCmdEnd n 0x02F3
        | some x =>
          if x.gen ≠ u.rf Reg.GLB_CONTRACT 7 0 then u.sliceCmdEnd n 0x0231
          else if x.dies ≠ (u.diesOf n).map (fun d => (d, (u.rd (Reg.MEM_PART d)).toNat)) then u.sliceCmdEnd n 0x02F4
          else (u.sliceRestore n).2.sliceCmdEnd n (u.sliceRestore n).1))) ∧
  (∀ (s : State) (n : Nat), n < 4 → s.hasSlice n = true → s.restoreReady n = true →
    (∀ l ∈ s.sliceRows n, s.rowState l ≤ 1) ∧ s.rf (Reg.TWS_DQ_SIZE n) 31 31 = 0 ∧ s.rf (Reg.SPN_RING_CFG n) 31 31 = 0) ∧
  -- NS_ATTACH: the descriptor's checks in their order, then an empty namespace whose bit is set and of which both ports tell
  (∀ (s : State) (p n : Nat) (v : Word), s.hasSlice n = true → sliceWord v 6 = true →
    let u := sliceAsked s n v
    let j := fieldOf v 10 8
    let a := u.addrOf (Reg.HOST_S_ARG_LO n) (Reg.HOST_S_ARG_HI n)
    let x : Namespace := { stage := u.le a 5, slots := u.le (a + 5) 5, units := u.le (a + 10) 5, ro := bitOf (u.le (a + 15) 1) 0,
                           conn := u.le (a + 16) 3, key := u.le (a + 20) 4, off := u.le (a + 24) 5 }
    exec (.nsAttach (.pf0 p) n v) s = .next (
      if u.inSlice n a 32 = false then sliceRefused u n 0x01F2
      else if 2 ≤ u.le (a + 15) 1 ∨ 2 ^ 18 ≤ u.le (a + 16) 3 ∨ u.le (a + 19) 1 ≠ 0 ∨ u.le (a + 29) 3 ≠ 0 ∨ u.space n j ≠ none then
        sliceRefused u n 0x01F0
      else if x.slots = 0 ∨ x.units < x.slots then sliceRefused u n 0x01F1
      else if x.stage % 65536 ≠ 0 ∨ u.inSliceRegion n .stage x.stage (65536 * x.slots) = false then sliceRefused u n 0x01F2
      else if (u.sliceState n = 0 ∨ u.sliceState n = 2) ∧ sliceFree u n = true then
        ((((u.setSpace n j x).wf (Reg.HOST_S_NSMAP n) j j 1).nvmeEvent 0 2 0 4).nvmeEvent 1 2 0 4).sliceCmdEnd n 0
      else sliceRefused u n 0x02F0)) ∧
  -- NS_DETACH: the command runs until the namespace's commands are done and its dirty units drained
  (∀ (s : State) (p n : Nat) (v : Word), s.hasSlice n = true → sliceWord v 7 = true →
    let u := sliceAsked s n v
    let j := fieldOf v 10 8
    exec (.nsDetach (.pf0 p) n v) s = .next (match u.space n j with
      | some x =>
        if (u.sliceState n = 0 ∨ u.sliceState n = 2) ∧ sliceFree u n = true then
          ((u.setSpace n j { x with leaving := true }).wf (Reg.HOST_S_STAT n) 31 31 1).spaceGo n j
        else sliceRefused u n 0x02F0
      | none => sliceRefused u n 0x02F0)) ∧
  (∀ (s : State) (n j : Nat) (x : Namespace), n < 4 → j < 8 → s.space n j = some x → x.leaving = true → x.cmds = [] →
    x.slot.any (fun e => e.2.dirty) = false → x.lost = false →
    (s.spaceGo n j).space n j = none ∧ (s.spaceGo n j).rf (Reg.HOST_S_NSMAP n) j j = 0 ∧ (s.spaceGo n j).rf (Reg.HOST_S_STAT n) 31 31 = 0 ∧
      (s.spaceGo n j).rd (Reg.HOST_S_ERR n) = 0) ∧
  -- a doorbell page may attach and detach; the other commands are the owner's alone
  (∀ (s : State) (n : Nat) (v : Word), s.hasSlice n = true → s.hostLost 0 = false → sliceWord v 2 = true →
    let u := sliceAsked s n v
    u.sliceState n = 0 → sliceFree u n = true → exec (.sliceFreeze (.page n 0 none) n v) s = .next (sliceRefused u n 0x04F0)) ∧
  -- without GO nothing happens; a reserved bit or operation is refused
  (∀ (s : State) (p n : Nat) (v : Word), s.hasSlice n = true →
    let u := sliceAsked s n v
    (fieldOf v 31 31 = 0 → exec (.sliceFreeze (.pf0 p) n v) s = .next u) ∧
    (fieldOf v 31 31 = 1 → fieldOf v 30 11 ≠ 0 ∨ fieldOf v 7 4 ≠ 0 ∨ fieldOf v 3 0 = 0 ∨ 8 ≤ fieldOf v 3 0 →
      exec (.sliceFreeze (.pf0 p) n v) s = .next (sliceRefused u n 0x01F0)))

/-- The copy that a 32-byte descriptor at ring index `h` asks for, with the status of its checks (R733). -/
def copyOf (s : State) (h st : Nat) (d : List Byte) : CopyReq :=
  { idx := h, toHost := bitOf (byteAt d 0) 0, host := leAt d 8 8, loc := leAt d 16 5, len := leAt d 4 4, user := leAt d 24 4,
    doneCtr := (if bitOf (byteAt d 0) 1 && s.ctrInShare (leAt d 2 2 % 2 ^ 14) then some (leAt d 2 2 % 2 ^ 14) else none),
    ended := (if st = 0 then none else some (st, 0)) }

/-- BAR2_ACCESS, COPY_QUEUE_ENABLE, COPY_TAIL_WRITE, COPY_CQ_HEAD_WRITE, COPY_START, COPY_COMPLETE, NOTIFY_ARM, HEARTBEAT, HEARTBEAT_CHECK,
RECLAIM, PORT_RESET, FLR and DMA_READ_FAIL (R728 to R756). -/
def Obligations.HostPorts : Prop :=
  -- a window reaches the slice's own memory at its base; anything else is an Unsupported Request
  (∀ (s : State) (p off k : Nat) (bs : List Byte), p < 2 → k ≠ 0 → bs.length = k → off + k ≤ s.bar2Size p → s.hostLost p = false →
    let n := off / s.bar2Part p
    let a := s.addrOf (Reg.HOST_S_WIN_LO n) (Reg.HOST_S_WIN_HI n) + off % s.bar2Part p
    exec (.bar2Access p off k (some bs) false) s = .next (if s.inSlice n a k = true then s.write a bs false else s.urRefuse p)) ∧
  (∀ (s : State) (p off k : Nat), p < 2 → k ≠ 0 → off + k ≤ s.bar2Size p →
    let n := off / s.bar2Part p
    let a := s.addrOf (Reg.HOST_S_WIN_LO n) (Reg.HOST_S_WIN_HI n) + off % s.bar2Part p
    ∃ t : State, exec (.bar2Access p off k none false) s = .next t ∧ t.mem = s.mem ∧
      (s.inSlice n a k = false → t.out = s.out ++ [.unsupported p]) ∧
      (s.inSlice n a k = true → t.out = s.out ++ [.barData p ((s.readMarked a k).map (fun b => b.1)) (marksOf (s.readMarked a k))])) ∧
  (∀ (s : State) (p off k : Nat) (bs : List Byte) (ep : Bool), p < 2 → k ≠ 0 → off + k ≤ s.bar2Size p → s.hostLost p = true →
    exec (.bar2Access p off k (some bs) ep) s = .next (s.count (Ctr.HOST_P_DB_DROP p))) ∧
  -- copy queues: enabled through a doorbell page of their slice, with ring sizes of 2^4 to 2^12
  (∀ (s : State) (p n k : Nat) (v : Word), k < 8 → s.hasSlice n = true → s.hostLost p = false →
    let a := Reg.PAGE_CPY_CFG n k
    let en := fieldOf v 31 31
    exec (.copyQueueEnable (.page n p none) n k v) s = .next (
      if en = 1 ∧ (fieldOf v 3 0 < 4 ∨ 12 < fieldOf v 3 0 ∨ fieldOf v 11 8 < 4 ∨ 12 < fieldOf v 11 8) then s.reject (.page n p none) a 0x01F1
      else if s.rf a 31 31 = 1 ∧ (fieldOf v 3 0 ≠ s.rf a 3 0 ∨ fieldOf v 11 8 ≠ s.rf a 11 8) then s.reject (.page n p none) a 0x02F0
      else if s.rf a 31 31 = 1 ∧ en = 1 then s
      else s.wr a (setField (v &&& 0x80000F0F) 30 30 (if en = 1 then p else 0)))) ∧
  (∀ (s : State) (p n k : Nat) (v : Word), k < 8 → s.hasSlice n = true →
    exec (.copyTailWrite (.pf0 p) n k v) s = .next (
      if 2 ^ s.rf (Reg.PAGE_CPY_CFG n k) 3 0 < aheadMod 16 (s.rf (Reg.PAGE_CPY_HEAD n k) 15 0) (fieldOf v 15 0) then
        s.reject (.pf0 p) (Reg.PAGE_CPY_TAIL n k) 0x02F6
      else s.wr (Reg.PAGE_CPY_TAIL n k) (BitVec.ofNat 32 (fieldOf v 15 0))) ∧
    exec (.copyCqHeadWrite (.pf0 p) n k v) s = .next ((s.wr (Reg.PAGE_CPY_CQ_HEAD n k) (v &&& 0xFFFF)).copyRecords n k)) ∧
  -- the next descriptor, checked and started in ring order
  (∀ (s : State) (n k : Nat) (d : List Byte), k < 8 → s.hasSlice n = true → d.length = 32 →
    let h := s.rf (Reg.PAGE_CPY_HEAD n k) 15 0
    let st := (if 4 ≤ byteAt d 0 ∨ byteAt d 1 ≠ 0 ∨ 2 ^ 14 ≤ leAt d 2 2 ∨ 2 ^ 31 ≤ leAt d 4 4 ∨ leAt d 21 3 ≠ 0 ∨ leAt d 28 4 ≠ 0 then 0x01F0
      else if leAt d 4 4 = 0 ∨ 2 ^ 30 < leAt d 4 4 ∨ (bitOf (byteAt d 0) 1 = true ∧ s.shareSize 16384 ≤ leAt d 2 2) then 0x01F1
      else if s.inSlice n (leAt d 16 5) (leAt d 4 4) = false then 0x01F2 else 0)
    let u := s.wr (Reg.PAGE_CPY_HEAD n k) (BitVec.ofNat 32 ((h + 1) % 65536))
    exec (.copyStart n k d) s = .next (
      if s.sliceState n ≠ 0 ∨ s.rf (Reg.PAGE_CPY_CFG n k) 31 31 = 0 ∨ h = s.rf (Reg.PAGE_CPY_TAIL n k) 15 0 ∨ s.hostLost (s.copyPort n k) = true then s
      else (u.setCopyList n k (u.copyList n k ++ [copyOf s h st d])).copyRecords n k)) ∧
  -- a copy that ends: its bytes in the slice's memory, its record in host memory, bytes 0 to 14 before byte 15, then its counter
  (∀ (s : State) (n k a : Nat) (c : CopyReq) (bs : List Byte), n < 4 → k < 8 → s.copyList n k = [c] → c.ended = none → c.toHost = false →
    c.doneCtr = none → s.pend = [] → bs.length = c.len → 1 ≤ c.len → s.hostLost (s.copyPort n k) = false →
    let tail := s.rf (Reg.PAGE_CPY_CQ_TAIL n k) 15 0
    let size := 2 ^ s.rf (Reg.PAGE_CPY_CFG n k) 11 8
    let r := s.rd64 (Reg.PAGE_CPY_CQ_LO n k) (Reg.PAGE_CPY_CQ_HI n k) + 16 * (tail % size)
    ∃ t : State, exec (.copyComplete n k [{ off := 0, bytes := bs, ep := false }]) s = .next t ∧
      t.byte a = (if c.loc ≤ a ∧ a < c.loc + c.len then bs.getD (a - c.loc) 0 else s.byte a) ∧
      (s.copyFull n k = false → t.copyList n k = [] ∧
        (t.out.drop s.out.length).map (fun o => match o with | .hostWrite _ _ x y _ => (x, y) | _ => (0, [])) =
          [(r, record [(2, c.idx), (2, 0), (4, c.user), (4, c.len), (3, 0)]), (r + 15, leBytes 1 (bit (tail / size % 2 = 0)))])) ∧
  (∀ (s : State) (n k : Nat) (c : CopyReq), s.copyList n k = [c] → c.ended = none → c.toHost = true → s.hostLost (s.copyPort n k) = false →
    let bs := s.readMarked c.loc c.len
    let u := s.dmaWrite (s.copyPort n k) 1 n c.host bs
    exec (.copyComplete n k []) s = .next ((u.setCopyList n k
      [{ c with ended := some (if bs.any (fun b => b.2) = true then 0x0580 else 0, c.len) }]).copyRecords n k)) ∧
  (∀ (s : State) (n k : Nat) (data : List HostChunk), s.copyList n k = [] → exec (.copyComplete n k data) s = .next s) ∧
  -- a notify entry is written, and fires at once when its counter is already there
  (∀ (s : State) (p n k : Nat) (v : Word), k < 256 → s.hasSlice n = true →
    exec (.notifyArm (.pf0 p) n k v) s = .next (
      if fieldOf v 31 31 = 1 ∧ (2048 / s.sliceCount ≤ fieldOf v 26 16 ∨ s.shareSize 16384 ≤ fieldOf v 13 0) then
        s.reject (.pf0 p) (Reg.PAGE_NOTIFY_CTL n k) 0x01F1
      else (s.wr (Reg.PAGE_NOTIFY_CTL n k) (v &&& 0xC7FF3FFF)).notifyCheck n k)) ∧
  (∀ (s : State) (n k : Nat),
    let w := s.rd (Reg.PAGE_NOTIFY_CTL n k)
    let u := s.wf (Reg.PAGE_NOTIFY_CTL n k) 31 31 0
    let p := fieldOf w 30 30
    s.notifyCheck n k = (
      if fieldOf w 31 31 = 1 ∧ s.ctrReached (s.shareIdx n 16384 (fieldOf w 13 0)) (s.rd (Reg.PAGE_NOTIFY_VALUE n k)).toNat = true then
        (if u.hostLost p = true then u.count (Ctr.HOST_P_NOTIFY_LOST p) else u.msix p 1 (n * (2048 / s.sliceCount) + fieldOf w 26 16))
      else s)) ∧
  -- heartbeats: a write starts or restarts monitoring; three whole seconds without one lose the host
  (∀ (s : State) (p : Nat) (v : Word), p < 2 → s.hostLost p = false →
    ∃ t : State, exec (.heartbeat (.pf0 p) p v) s = .next t ∧ t.rf (Reg.HOST_P_STAT p) 1 0 = 1 ∧ t.rf (Reg.HOST_P_STAT p) 3 2 = 0 ∧
      fetch false t.host.beats p = true ∧ t.mem = s.mem) ∧
  (∀ (s : State) (p : Nat) (v : Word), p < 2 → s.hostLost p = true →
    exec (.heartbeat (.pf0 p) p v) s = .next (s.count (Ctr.HOST_P_DB_DROP p))) ∧
  (∀ (s : State) (t : Nat) (arr : List CopyArrival), t % 1000000000 ≠ 0 ∨ t ≤ s.host.second ∨ t < s.now →
    exec (.heartbeatCheck t arr) s = .next s) ∧
  (∀ (s : State) (t : Nat) (arr : List CopyArrival), t % 1000000000 = 0 → s.host.second < t → s.now ≤ t → s.rf (Reg.HOST_P_STAT 1) 1 0 ≠ 1 →
    let h := s.host
    let u : State := { s with now := max s.now t, host := { h with second := t } }
    let k := s.rf (Reg.HOST_P_STAT 0) 3 2 + 1
    let m := u.wf (Reg.HOST_P_STAT 0) 3 2 k
    exec (.heartbeatCheck t arr) s = .next (
      if s.rf (Reg.HOST_P_STAT 0) 1 0 ≠ 1 then u
      else if fetch false h.beats 0 = true then { u with host := { h with second := t, beats := store false h.beats 0 false } }
      else if k < 3 then m
      else ((((m.copiesDrop 0 arr).ctlLost 0).wf (Reg.HOST_P_STAT 0) 1 0 2).count (Ctr.HOST_P_LOST 0)).event Reg.HOST_EVT 0)) ∧
  -- RECLAIM is for the port's own PF0; it resets PF1 and PF2 and turns monitoring off
  (∀ (s : State) (p q : Nat) (v : Word) (arr : List CopyArrival), p < 2 → fieldOf v 0 0 = 1 → q ≠ p →
    exec (.reclaim (.pf0 q) p v arr) s = .next (s.reject (.pf0 q) (Reg.HOST_P_CTL p) 0x04F0) ∧
    exec (.reclaim .spindle p v arr) s = .next (s.reject .spindle (Reg.HOST_P_CTL p) 0x04F0)) ∧
  (∀ (s : State) (p : Nat) (v : Word) (arr : List CopyArrival), p < 2 → fieldOf v 0 0 = 1 →
    ∃ t : State, exec (.reclaim (.pf0 p) p v arr) s = .next t ∧ t.rf (Reg.HOST_P_STAT p) 1 0 = 0 ∧ t.rf (Reg.HOST_P_STAT p) 3 2 = 0 ∧
      (t.ctl p).rdy = false ∧ (t.ctl p).sqs = [] ∧ (∀ i ∈ List.range 32, s.copyPort (i / 8) (i % 8) = p → t.copyList (i / 8) (i % 8) = []) ∧
      (∀ i ∈ List.range 32, s.copyPort (i / 8) (i % 8) = p → t.rf (Reg.PAGE_CPY_CFG (i / 8) (i % 8)) 31 31 = 0)) ∧
  (∀ (s : State) (p : Nat) (v : Word) (arr : List CopyArrival), 2 ≤ p ∨ fieldOf v 0 0 = 0 → exec (.reclaim (.pf0 p) p v arr) s = .next s) ∧
  -- function level reset: PF0 ends its session, PF1 its copy queues, PF2 its controller
  (∀ (s : State) (p fn : Nat) (arr : List CopyArrival), 2 ≤ p ∨ 3 ≤ fn → exec (.flr p fn arr) s = .next s) ∧
  (∀ (s : State) (p : Nat) (arr : List CopyArrival), p < 2 →
    ∃ t : State, exec (.flr p 0 arr) s = .next t ∧ fetch ({} : Spdm) t.trust.spdm p = {} ∧ t.regs = s.regs ∧ t.mem = s.mem ∧ t.nvme = s.nvme) ∧
  (∀ (s : State) (p : Nat), p < 2 →
    ∃ t : State, exec (.flr p 1 []) s = .next t ∧ t.bar2Size p = 2 ^ 36 ∧ t.mem = s.mem ∧ t.nvme = s.nvme ∧
      (∀ i ∈ List.range 32, s.copyPort (i / 8) (i % 8) = p →
        t.copyList (i / 8) (i % 8) = [] ∧ t.rf (Reg.PAGE_CPY_CFG (i / 8) (i % 8)) 31 31 = 0) ∧
      (∀ i ∈ List.range 32, s.copyPort (i / 8) (i % 8) ≠ p → t.copyList (i / 8) (i % 8) = s.copyList (i / 8) (i % 8))) ∧
  (∀ (s : State) (p : Nat) (arr : List CopyArrival), p < 2 →
    let c := s.ctl p
    ∃ t : State, exec (.flr p 2 arr) s = .next t ∧ t.regs = s.regs ∧ t.mem = s.mem ∧ (t.ctl p).rdy = false ∧ (t.ctl p).sqs = [] ∧ (t.ctl p).cqs = [] ∧
      (t.ctl p).aqa = c.aqa ∧ (t.ctl p).asq = c.asq ∧ (t.ctl p).acq = c.acq ∧ (t.ctl p).features = [] ∧ (t.ctl p).cc = 0) ∧
  -- a port reset resets all three, and the port's registers and counters; the slices' memory stays
  (∀ (s : State) (p : Nat) (perst : Bool) (arr : List CopyArrival), 2 ≤ p → exec (.portReset p perst arr) s = .next s) ∧
  (∀ (s : State) (p : Nat), p < 2 →
    ∃ t : State, exec (.portReset p true []) s = .next t ∧ t.mem = s.mem ∧ (t.ctl p).rdy = false ∧ (t.ctl p).aqa = 0 ∧
      t.rd (Reg.HOST_P_STAT p) = regReset (Reg.HOST_P_STAT p) ∧ t.ctr (Ctr.HOST_P_LOST p) = {} ∧ fetch false t.host.beats p = false ∧
      t.portUpLink p = {}) ∧
  -- a failed read: what came is written, the copy ends with 0x05F0; a Write whose data do not come fails
  (∀ (s : State) (n k : Nat) (bs : List Byte) (c : CopyReq), n < 4 → k < 8 → s.hostLost (s.copyPort n k) = false → s.copyList n k = [c] →
    c.ended = none → c.toHost = false → bs.length ≤ c.len →
    let u := s.write c.loc bs false
    exec (.dmaReadFail (.copy n k) [{ off := 0, bytes := bs, ep := false }] false) s =
      .next (((u.setCopyList n k [{ c with ended := some (0x05F0, bs.length) }]).event Reg.HOST_EVT 3).copyRecords n k)) ∧
  (∀ (s : State) (n k : Nat) (data : List HostChunk) (late : Bool), s.hostLost (s.copyPort n k) = true →
    exec (.dmaReadFail (.copy n k) data late) s = .next s) ∧
  (∀ (s : State) (p : Nat), s.nvmeUp p = false → exec (.dmaReadFail (.nvme p) [] false) s = .next s)

/-- The controller of port `p` takes entry `e` of queue `q`, and is then in state `t` (R770). -/
def nvmeTakes (s : State) (p q : Nat) (e : NvmeEntry) (t : State) : Bool := s.nvmePop p = some (t, q, e)

/-- After a command the controller passes over entries that it does not know. -/
def nvmeNextUp (p : Nat) (t : State) : State := State.nvmeSkip p (t.nvmeWaiting p) t

/-- The NVMe commands: NVME_CC_EN_WRITE, the doorbells, the admin commands, self-tests, namespace commands and stage units (R757 to R773). -/
def Obligations.StorageFunction : Prop :=
  -- CC.EN: 1 makes the controller ready with its admin queues; 0 resets it
  (∀ (s : State) (p : Nat) (v : Word), 2 ≤ p → exec (.nvmeCcEnWrite p v) s = .next s) ∧
  (∀ (s : State) (p : Nat) (v : Word), p < 2 → s.hostLost p = true → exec (.nvmeCcEnWrite p v) s = .next (s.count (Ctr.HOST_P_DB_DROP p))) ∧
  (∀ (s : State) (p : Nat) (v : Word), p < 2 → s.hostLost p = false → fieldOf v 0 0 = 1 → bitOf (s.ctl p).cc 0 = false → fieldOf v 6 4 = 0 →
    fieldOf v 10 7 = 0 → fieldOf v 13 11 ≤ 1 →
    let c := s.ctl p
    let sq : NvmeSq := { id := 0, size := bitsOf c.aqa 11 0 + 1 }
    let cq : NvmeCq := { id := 0, size := bitsOf c.aqa 27 16 + 1, base := c.acq, ien := true, vec := 0 }
    exec (.nvmeCcEnWrite p v) s = .next (s.setCtl p { c with cc := v.toNat, rdy := true, sqs := [sq], cqs := [cq] })) ∧
  (∀ (s : State) (p : Nat) (v : Word), p < 2 → s.hostLost p = false → fieldOf v 0 0 = 0 →
    ∃ t : State, exec (.nvmeCcEnWrite p v) s = .next t ∧ (t.ctl p).rdy = false ∧ (t.ctl p).sqs = [] ∧ (t.ctl p).cqs = [] ∧
      (t.ctl p).cc = v.toNat ∧ (t.ctl p).aqa = (s.ctl p).aqa ∧ t.mem = s.mem ∧ t.regs = s.regs) ∧
  -- doorbells: entries join their queue, freed entries let held completions go
  (∀ (s : State) (p q tail : Nat) (es : List NvmeEntry) (x : NvmeSq), s.nvmeUp p = true → (s.ctl p).sqs.find? (fun y => y.id = q) = some x →
    let c := s.ctl p
    let y : NvmeSq := { x with tail := tail, entries := x.entries ++ es }
    let test := (if q ≠ 0 ∧ es ≠ [] then c.test.map (fun t => { t with suspended := true }) else c.test)
    let u := s.setCtl p { c with test := test, sqs := c.sqs.map (fun z => if z.id = q then y else z) }
    exec (.nvmeSqDoorbell p q tail es) s = .next (
      if x.size ≤ tail then s.nvmeEvent p 0 1 1 else if (tail + x.size - x.tail) % x.size ≠ es.length then s else nvmeNextUp p u)) ∧
  (∀ (s : State) (p q k : Nat), s.nvmeUp p = true → (s.ctl p).sqs.find? (fun y => y.id = q) = none → (s.ctl p).cqs.find? (fun y => y.id = q) = none →
    exec (.nvmeSqDoorbell p q k []) s = .next (s.nvmeEvent p 0 0 1) ∧ exec (.nvmeCqDoorbell p q k) s = .next (s.nvmeEvent p 0 0 1)) ∧
  (∀ (s : State) (p q head : Nat) (x : NvmeCq), s.nvmeUp p = true → (s.ctl p).cqs.find? (fun y => y.id = q) = some x →
    let c := s.ctl p
    let freed := (head + x.size - x.head % x.size) % x.size
    let y : NvmeCq := { x with head := x.head + freed }
    exec (.nvmeCqDoorbell p q head) s = .next (
      if x.size ≤ head ∨ x.tail - x.head < freed then s.nvmeEvent p 0 1 1
      else (s.setCtl p { c with cqs := c.cqs.map (fun z => if z.id = q then y else z) }).cqeRetry p)) ∧
  -- a row stands for the command that arbitration takes next; with another one next, it does nothing
  (∀ (s : State) (p : Nat) (data : List HostChunk) (rs : List (Nat × Nat)), s.nvmePop p = none →
    exec (.nvmeCreateIoSq p) s = .next s ∧ exec (.nvmeCreateIoCq p) s = .next s ∧ exec (.nvmeDeleteIoSq p) s = .next s ∧
    exec (.nvmeDeleteIoCq p) s = .next s ∧ exec (.nvmeGetLogPage p) s = .next s ∧ exec (.nvmeIdentify p) s = .next s ∧
    exec (.nvmeAbort p) s = .next s ∧ exec (.nvmeSetFeatures p) s = .next s ∧ exec (.nvmeGetFeatures p) s = .next s ∧
    exec (.nvmeAsyncEventRequest p) s = .next s ∧ exec (.nvmeDeviceSelfTest p) s = .next s ∧ exec (.nvmeRead p) s = .next s ∧
    exec (.nvmeWrite p data) s = .next s ∧ exec (.nvmeFlush p) s = .next s ∧ exec (.nvmeWriteZeroes p) s = .next s ∧
    exec (.nvmeDeallocate p rs) s = .next s ∧ exec (.nvmeLoad p) s = .next s) ∧
  -- a completion carries the queue, the command and the phase of its pass; it waits while its queue is full
  (∀ (s : State) (p q cid st dw0 nsid : Nat) (x : NvmeSq), (s.ctl p).sqs.find? (fun y => y.id = q) = some x → (s.ctl p).held = [] →
    (s.ctl p).cqs.any (fun y => y.id = x.cq && y.room) = false →
    let u := s.nvmePost p q cid st dw0 nsid
    (u.ctl p).held = [⟨q, x.cq, cid, st, dw0⟩] ∧ u.out = s.out ∧ u.ctr Ctr.HOST_NVME_CMD = (s.ctr Ctr.HOST_NVME_CMD).bump) ∧
  (∀ (s : State) (p q cid st dw0 nsid : Nat) (x : NvmeSq) (y : NvmeCq), (s.ctl p).sqs.find? (fun z => z.id = q) = some x → (s.ctl p).held = [] →
    (s.ctl p).cqs = [y] → y.id = x.cq → y.id = 0 → y.ien = false → y.tail - y.head + 1 < y.size →
    let u := s.nvmePost p q cid st dw0 nsid
    (u.ctl p).held = [] ∧ (u.ctl p).cqs = [{ y with tail := y.tail + 1 }] ∧
      u.out = s.out ++ [.hostWrite p none (y.base + 16 * (y.tail % y.size))
        (record [(4, dw0), (4, 0), (2, x.head), (2, q), (2, cid), (2, bit (y.tail / y.size % 2 = 0) + 2 * st)]) [false, false]]) ∧
  -- queue creation and deletion
  (∀ (s t : State) (p : Nat) (e : NvmeEntry), nvmeTakes s p 0 e t = true → e.opc = 1 →
    let q := e.cdw10 % 65536
    let size := bitsOf e.cdw10 31 16 + 1
    let cq := bitsOf e.cdw11 31 16
    let c := t.ctl p
    let x : NvmeSq := { id := q, size := size, cq := cq, prio := bitsOf e.cdw11 2 1 }
    let ends := fun (u : State) (st : Nat) => nvmeNextUp p (u.nvmePost p 0 e.cid st 0 0)
    exec (.nvmeCreateIoSq p) s = .next (
      if q = 0 ∨ 64 * s.sliceCount < q ∨ (t.ctl 0).sqs.any (fun y => y.id = q) = true ∨ (t.ctl 1).sqs.any (fun y => y.id = q) = true then ends t 0x101
      else if size < 2 ∨ 4096 < size then ends t 0x102
      else if cq = 0 then ends t 0x101
      else if c.cqs.any (fun y => y.id = cq) = false ∨ (cq - 1) / 64 ≠ (q - 1) / 64 then ends t 0x100
      else if bitOf e.cdw11 0 = false then ends t 0x0002
      else if e.prp1 % 4096 ≠ 0 then ends t 0x0013
      else ends (t.setCtl p { c with sqs := c.sqs.filter (fun y => y.id < q) ++ [x] ++ c.sqs.filter (fun y => q < y.id) }) 0)) ∧
  (∀ (s t : State) (p : Nat) (e : NvmeEntry), nvmeTakes s p 0 e t = true → e.opc = 5 →
    let q := e.cdw10 % 65536
    let size := bitsOf e.cdw10 31 16 + 1
    let c := t.ctl p
    let x : NvmeCq := { id := q, size := size, base := e.prp1, ien := bitOf e.cdw11 1, vec := bitsOf e.cdw11 31 16 }
    let ends := fun (u : State) (st : Nat) => nvmeNextUp p (u.nvmePost p 0 e.cid st 0 0)
    exec (.nvmeCreateIoCq p) s = .next (
      if q = 0 ∨ 64 * s.sliceCount < q ∨ (t.ctl 0).cqs.any (fun y => y.id = q) = true ∨ (t.ctl 1).cqs.any (fun y => y.id = q) = true then ends t 0x101
      else if size < 2 ∨ 4096 < size then ends t 0x102
      else if bitOf e.cdw11 0 = false then ends t 0x0002
      else if 257 ≤ bitsOf e.cdw11 31 16 then ends t 0x108
      else if e.prp1 % 4096 ≠ 0 then ends t 0x0013
      else ends (t.setCtl p { c with cqs := c.cqs ++ [x] }) 0)) ∧
  (∀ (s t : State) (p : Nat) (e : NvmeEntry), nvmeTakes s p 0 e t = true → e.opc = 0 →
    exec (.nvmeDeleteIoSq p) s = .next (nvmeNextUp p (t.deleteSq p e)) ∧
    (∀ (q : Nat), q = e.cdw10 % 65536 → q ≠ 0 → ((t.deleteSq p e).ctl p).sqs.any (fun y => y.id = q) = false)) ∧
  (∀ (s t : State) (p : Nat) (e : NvmeEntry), nvmeTakes s p 0 e t = true → e.opc = 4 →
    let q := e.cdw10 % 65536
    let c := t.ctl p
    let ends := fun (u : State) (st : Nat) => nvmeNextUp p (u.nvmePost p 0 e.cid st 0 0)
    exec (.nvmeDeleteIoCq p) s = .next (
      if q = 0 ∨ c.cqs.any (fun y => y.id = q) = false then ends t 0x101
      else if c.sqs.any (fun y => y.cq = q) = true then ends t 0x10C
      else ends (t.setCtl p { c with cqs := c.cqs.filter (fun y => y.id ≠ q), held := c.held.filter (fun h => h.cq ≠ q) }) 0)) ∧
  -- data for the host: logs, identification, features
  (∀ (s t : State) (p : Nat) (e : NvmeEntry), nvmeTakes s p 0 e t = true → e.opc = 2 →
    let data := fun (bs : List Byte) => nvmeNextUp p (t.adminData p e ((bs.drop (e.cdw12 + 2 ^ 32 * e.cdw13)).take
      (4 * (bitsOf e.cdw10 31 16 + 65536 * (e.cdw11 % 65536) + 1))))
    exec (.nvmeGetLogPage p) s = .next (
      if e.cdw10 % 256 = 1 then data (fitBytes 4096 (t.ctl p).errorLog) else if e.cdw10 % 256 = 2 then data (dataPage 4 p 512 [])
      else if e.cdw10 % 256 = 6 then data (t.testLog p) else nvmeNextUp p (t.nvmePost p 0 e.cid 0x109 0 0))) ∧
  (∀ (s t : State) (p : Nat) (e : NvmeEntry), nvmeTakes s p 0 e t = true → e.opc = 6 →
    let fail := fun (st : Nat) => nvmeNextUp p (t.nvmePost p 0 e.cid st 0 e.nsid)
    exec (.nvmeIdentify p) s = .next (
      if e.cdw10 % 256 = 0 then
        (if 1 ≤ e.nsid ∧ e.nsid ≤ 8 * t.sliceCount then nvmeNextUp p (t.adminData p e (t.identifyNs e.nsid)) else fail 0x000B)
      else if e.cdw10 % 256 = 1 then nvmeNextUp p (t.adminData p e (t.identifyCtl p))
      else if e.cdw10 % 256 = 2 then (if 0xFFFFFFFE ≤ e.nsid then fail 0x000B else nvmeNextUp p (t.adminData p e (t.nsList e.nsid)))
      else if e.cdw10 % 256 = 3 then
        (if e.nsid ∈ t.activeNs then nvmeNextUp p (t.adminData p e (dataPage 3 e.nsid 4096 [])) else fail 0x000B)
      else fail 0x0002)) ∧
  (∀ (s : State) (nsid : Nat), nsid ∈ s.activeNs ↔ (1 ≤ nsid ∧ nsid ≤ 8 * s.sliceCount ∧ s.space ((nsid - 1) / 8) ((nsid - 1) % 8) ≠ none)) ∧
  (∀ (s t : State) (p : Nat) (e : NvmeEntry), nvmeTakes s p 0 e t = true → e.opc = 8 →
    let q := e.cdw10 % 65536
    let cid := bitsOf e.cdw10 31 16
    t.spaces.any (fun z => z.2.any (fun x => x.cmds.any (fun c => c.port = p && c.sq = q && c.cid = cid && !c.quiet))) = false →
    exec (.nvmeAbort p) s = .next (nvmeNextUp p (t.nvmePost p 0 e.cid 0 1 0))) ∧
  (∀ (s t : State) (p : Nat) (e : NvmeEntry) (x : Namespace) (c : NvmeCmd), nvmeTakes s p 0 e t = true → e.opc = 8 → t.spaces = [(0, some x)] →
    x.cmds = [c] → c.port = p → c.sq = e.cdw10 % 65536 → c.cid = bitsOf e.cdw10 31 16 → c.quiet = false → x.leaving = false →
    let u : State := { t with spaces := [(0, some { x with cmds := [] })] }
    exec (.nvmeAbort p) s = .next (nvmeNextUp p ((u.nvmePost p c.sq c.cid 0x0007 0 0).nvmePost p 0 e.cid 0 0 0))) ∧
  (∀ (s t : State) (p : Nat) (e : NvmeEntry), nvmeTakes s p 0 e t = true → e.opc = 9 →
    let f := e.cdw10 % 256
    let c := t.ctl p
    let ends := fun (u : State) (st dw : Nat) => nvmeNextUp p (u.nvmePost p 0 e.cid st dw 0)
    let stored := (t.setCtl p { c with features := store 0 c.features f e.cdw11 }).nvmePost p 0 e.cid 0 0 0
    exec (.nvmeSetFeatures p) s = .next (
      if bitOf e.cdw10 31 = true then ends t 0x10D 0
      else if f = 6 then ends t (if bitOf e.cdw11 0 then 0 else 0x0002) 0
      else if f = 7 then
        (if c.sqs.any (fun y => y.id ≠ 0) = true ∨ c.cqs.any (fun y => y.id ≠ 0) = true then ends t 0x000C 0
         else if e.cdw11 % 65536 = 65535 ∨ bitsOf e.cdw11 31 16 = 65535 then ends t 0x0002 0
         else ends t 0 ((64 * t.sliceCount - 1) * 65537))
      else if f = 1 ∨ f = 8 ∨ f = 0x0B then nvmeNextUp p (stored.eventReport p)
      else ends t 0x0002 0)) ∧
  (∀ (s t : State) (p : Nat) (e : NvmeEntry), nvmeTakes s p 0 e t = true → e.opc = 0x0A →
    let f := e.cdw10 % 256
    let ends := fun (st dw : Nat) => nvmeNextUp p (t.nvmePost p 0 e.cid st dw 0)
    exec (.nvmeGetFeatures p) s = .next (
      if f = 6 then ends 0 1 else if f = 7 then ends 0 ((64 * t.sliceCount - 1) * 65537)
      else if f = 1 ∨ f = 8 ∨ f = 0x0B then ends 0 (if bitsOf e.cdw10 10 8 = 0 then fetch 0 (t.ctl p).features f else 0)
      else ends 0x0002 0)) ∧
  (∀ (s t : State) (p : Nat) (e : NvmeEntry), nvmeTakes s p 0 e t = true → e.opc = 0x0C →
    let c := t.ctl p
    exec (.nvmeAsyncEventRequest p) s = .next (nvmeNextUp p ((t.setCtl p { c with aers := c.aers ++ [e.cid] }).eventReport p))) ∧
  (∀ (s : State) (p : Nat),
    let c := s.ctl p
    (c.aers = [] ∨ c.events = [] → s.eventReport p = s) ∧
    (∀ (cid ev : Nat), c.aers = [cid] → c.events = [ev] → s.eventReport p = (s.setCtl p { c with aers := [], events := [] }).nvmePost p 0 cid 0 ev 0)) ∧
  -- self-tests
  (∀ (s t : State) (p : Nat) (e : NvmeEntry), nvmeTakes s p 0 e t = true → e.opc = 0x14 →
    let code := e.cdw10 % 16
    let c := t.ctl p
    let ends := fun (u : State) (st : Nat) => nvmeNextUp p (u.nvmePost p 0 e.cid st 0 e.nsid)
    exec (.nvmeDeviceSelfTest p) s = .next (
      if code ≠ 1 ∧ code ≠ 2 ∧ code ≠ 0xF then ends t 0x0002
      else if code = 0xF then ends (t.testEnd p 1 0) 0
      else if e.nsid ≠ 0xFFFFFFFF ∧ e.nsid ∉ t.activeNs then ends t 0x000B
      else if c.test ≠ none then ends t 0x11D
      else ends (t.setCtl p { c with test := some { code := code, nsid := e.nsid, suspended := t.ioBusy p } }) 0)) ∧
  (∀ (s : State) (p t : Nat), (s.ctl p).test = none → exec (.selfTestResume p t) s = .next s ∧ exec (.selfTestComplete p none) s = .next s) ∧
  (∀ (s : State) (p t : Nat) (x : SelfTest), (s.ctl p).test = some x →
    let c := s.ctl p
    exec (.selfTestResume p t) s = .next (
      if x.suspended = true ∧ s.ioBusy p = false ∧ c.sqs.all (fun q => q.id = 0 || q.entries = []) = true ∧ c.idleAt + 1000000 ≤ t then
        (s.reach t).setCtl p { c with test := some { x with suspended := false } }
      else s)) ∧
  (∀ (s : State) (p g : Nat) (x : SelfTest), (s.ctl p).test = some x → x.suspended = false → s.ioBusy p = false → g < 3 →
    let c := s.ctl p
    let u := (s.setCtl p { c with test := none, tests := ((x.code, 7, g, x.nsid) :: c.tests).take 20 }).event Reg.HOST_EVT 5
    exec (.selfTestComplete p (some g)) s = .next (if x.nsid = 0xFFFFFFFF then u else u.reportStatus ((x.nsid - 1) / 8) 0x0904 x.nsid)) ∧
  -- namespace commands: their range and rights are checked, then their pieces, one for each unit
  (∀ (s t : State) (p q : Nat) (e : NvmeEntry), nvmeTakes s p q e t = true → q ≠ 0 →
    (e.opc = 2 → exec (.nvmeRead p) s = .next (nvmeNextUp p (t.rangeCmd p q e false []))) ∧
    (e.opc = 0x81 → exec (.nvmeLoad p) s = .next (nvmeNextUp p (t.rangeCmd p q e false []))) ∧
    (e.opc = 8 → exec (.nvmeWriteZeroes p) s = .next (nvmeNextUp p (t.rangeCmd p q e true []))) ∧
    (∀ (data : List HostChunk), e.opc = 1 → chunksCover 0 (4096 * (e.cdw12 % 65536 + 1)) data = true → data.any (fun c => c.ep) = false →
      exec (.nvmeWrite p data) s = .next (nvmeNextUp p (t.rangeCmd p q e true (data.flatMap (fun c => c.bytes.map (fun b => (b, c.ep))))))) ∧
    (e.opc = 0 → exec (.nvmeFlush p) s = .next (nvmeNextUp p (t.flushCmd p q e))) ∧
    (∀ (rs : List (Nat × Nat)), e.opc = 9 → exec (.nvmeDeallocate p rs) s = .next (nvmeNextUp p (
      if rs.length = e.cdw10 % 256 + 1 then t.deallocate p q e rs else t.nvmePost p q e.cid 0x0004 0 e.nsid)))) ∧
  (∀ (s : State) (p q n j : Nat) (e : NvmeEntry) (write : Bool) (data : List (Byte × Bool)) (x : Namespace), n = (q - 1) / 64 → e.nsid = 8 * n + j + 1 →
    j < 8 → s.sliceState n ≠ 6 → s.space n j = some x → x.leaving = false →
    let slba := e.cdw10 + 2 ^ 32 * e.cdw11
    let nb := e.cdw12 % 65536 + 1
    let fail := fun (st : Nat) => s.nvmePost p q e.cid st 0 e.nsid
    let c : NvmeCmd := { port := p, sq := q, cid := e.cid, op := e.opc, parts := unitParts (4096 * slba) (4096 * nb), data := data }
    s.rangeCmd p q e write data = (
      if (e.opc = 1 ∨ e.opc = 2) ∧ 256 < nb then fail 0x0002
      else if 16 * x.units < slba + nb then fail 0x0080
      else if write = true ∧ x.ro = true then fail 0x0282
      else (s.setSpace n j { x with cmds := x.cmds ++ [c] }).spaceGo n j)) ∧
  -- a Read of a resident unit gives its bytes; a unit that is not resident is asked of the depot first
  (∀ (s : State) (n j u o k : Nat) (x : Namespace) (c : NvmeCmd), s.space n j = some x → c.op = 2 → c.parts = [(u, o, k)] →
    (x.resident u = true → s.pieceDo n j c = (s, { c with parts := [], data := c.data ++ s.readMarked (x.stage + 65536 * (u % x.slots) + o) k }, true)) ∧
    (x.resident u = false → u ∉ x.fetching → (x.slotOf u).dirty = false →
      s.pieceDo n j c = ((s.setSpace n j { x with fetching := x.fetching ++ [u] }).emit (.depotRead x.conn x.key (x.off + 65536 * u) 65536), c, false))) ∧
  -- a Write goes into stage and makes its unit dirty
  (∀ (s : State) (n j u o k : Nat) (x : Namespace) (c : NvmeCmd), s.space n j = some x → c.op = 1 → c.parts = [(u, o, k)] → x.resident u = true →
    let r := s.pieceDo n j c
    r.2.1.parts = [] ∧ r.2.2 = true ∧ r.1 = (s.setSpace n j (x.wrote u)).writeMarked (x.stage + 65536 * (u % x.slots) + o) (c.data.take k) ∧
      ((x.wrote u).slotOf u).dirty = true ∧ (x.wrote u).resident u = true) ∧
  -- units come from the depot and drain to it
  (∀ (s : State) (n j u : Nat) (data : List HostChunk) (ok : Bool), s.space n j = none →
    exec (.nsUnitFetchDone n j u data ok) s = .next s ∧ exec (.nsUnitDrain n j) s = .next s ∧ exec (.nsUnitDrainDone n j u ok) s = .next s) ∧
  (∀ (s : State) (n j u : Nat) (bs : List Byte) (x : Namespace), s.space n j = some x → u ∈ x.fetching → bs.length = 65536 → x.resident u = false →
    (x.slotOf u).dirty = false →
    let v := s.count Ctr.HOST_DEPOT_FETCH
    let y : Namespace := { x with fetching := x.fetching.filter (fun w => w ≠ u), slot := store {} x.slot (u % x.slots) { unit := some u } }
    exec (.nsUnitFetchDone n j u [{ off := 0, bytes := bs, ep := false }] true) s =
      .next (((v.setSpace n j y).writeMarked (x.stage + 65536 * (u % x.slots)) (bs.map (fun b => (b, false)))).spaceGo n j)) ∧
  (∀ (s : State) (n j u : Nat) (x : Namespace), s.space n j = some x → u ∈ x.fetching →
    let hit := fun (c : NvmeCmd) => (c.parts.head?).any (fun q => q.1 = u)
    let cs := x.cmds.map (fun c => if hit c then { c with parts := [], status := 0x281 } else c)
    let y : Namespace := { x with fetching := x.fetching.filter (fun w => w ≠ u), cmds := cs }
    exec (.nsUnitFetchDone n j u [] false) s = .next (((s.setSpace n j y).storageStatus n j 0x0902).spaceGo n j)) ∧
  (∀ (s : State) (n j k u : Nat) (x : Namespace) (z : NsSlot), s.space n j = some x → x.slot.find? (fun e => e.2.dirty && !e.2.draining) = some (k, z) →
    z.unit = some u →
    let bs := s.readMarked (x.stage + 65536 * k) 65536
    exec (.nsUnitDrain n j) s = .next ((s.setSpace n j { x with slot := store {} x.slot k { z with draining := true, again := false } }).emit
      (.depotWrite x.conn x.key (x.off + 65536 * u) (bs.map (fun b => b.1)) (marksOf bs)))) ∧
  (∀ (s : State) (n j k : Nat) (x : Namespace), s.space n j = some x → (fetch ({} : NsSlot) x.slot k).draining = true → x.cmds = [] →
    let z := fetch ({} : NsSlot) x.slot k
    exec (.nsUnitDrainDone n j k true) s = .next (((s.setSpace n j
      { x with slot := store {} x.slot k { z with dirty := z.again, draining := false, again := false } }).count Ctr.HOST_DEPOT_DRAIN).spaceGo n j)) ∧
  (∀ (s : State) (n j k : Nat) (ok : Bool) (x : Namespace), s.space n j = some x → (fetch ({} : NsSlot) x.slot k).draining = false →
    exec (.nsUnitDrainDone n j k ok) s = .next s)

/-! ### Distaff (file 14) -/

/-- A request of SPDM 1.3 with code `code` on a port that has a mailbox. -/
def spdmReq (p code : Nat) (req : List Byte) : Bool :=
  p < 2 && byteAt req 1 = code && req.length ≤ 16384 && (code = 0x84 || byteAt req 0 = 0x13)

/-- The part has an identity to answer for: PROVISIONED or DEPLOYED (R782). -/
def hasIdentity (s : State) : Bool := s.lc = 1 || s.lc = 2

/-- DOE_DISCOVERY, GET_VERSION, GET_CAPABILITIES, NEGOTIATE_ALGORITHMS, GET_DIGESTS, GET_CERTIFICATE, CHALLENGE, GET_MEASUREMENTS,
GET_EVIDENCE, GET_IDCERT, RELEASE, LC_REQUEST and RELEASE_SESSION_EXPIRE (R779 to R798). -/
def Obligations.TrustMailboxes : Prop :=
  -- discovery lists itself and SPDM
  (∀ (s : State) (p i : Nat), exec (.doeDiscovery p i) s = .next (
    let head := record [(2, 1), (1, 0), (1, 0), (4, 3)]
    let body := (if i = 0 then record [(2, 1), (1, 0), (1, 1)] else if i = 1 then record [(2, 1), (1, 1), (1, 0)]
      else record [(2, 0xFFFF), (1, 0xFF), (1, 0)])
    if p < 2 then s.emit (.doe p (head ++ body)) else s)) ∧
  -- version, capabilities, algorithms, in that order; anything earlier is an unexpected request
  (∀ (s : State) (p : Nat) (req : List Byte), spdmReq p 0x84 req = true →
    let m := record [(1, 0x10), (1, 0x04), (2, 0), (1, 0), (1, 1), (2, 0x1300)]
    exec (.getVersion p req) s = .next ((s.setSpdm p { stage := 1, a := req ++ m }).spdmSay p m)) ∧
  (∀ (s : State) (p : Nat) (req : List Byte), spdmReq p 0xE1 req = true → 1 ≤ (s.spdm p).stage →
    let x := s.spdm p
    let u : State := { s with free := s.free + 1 }
    let m := record [(1, 0x13), (1, 0x61), (2, 0), (1, 0), (1, Config.freeValue s.free % 2 ^ 8), (2, 0), (4, 0x16), (4, 16384), (4, 16384)]
    exec (.getCapabilities p req) s = .next ((u.setSpdm p { x with stage := 2, a := x.a ++ req ++ m }).spdmSay p m)) ∧
  (∀ (s : State) (p : Nat) (req : List Byte), spdmReq p 0xE3 req = true → 2 ≤ (s.spdm p).stage →
    let x := s.spdm p
    let meas := byteAt req 6 % 2
    let m := record [(1, 0x13), (1, 0x63), (2, 0), (2, 52), (1, meas), (1, 0), (4, if meas = 1 then 0x10 else 0), (4, leAt req 8 4 &&& 0x400),
      (4, leAt req 12 4 &&& 0x8), (11, 0), (1, 0), (1, 0), (1, 0), (2, 0), (12, 0)]
    exec (.negotiateAlgorithms p req) s = .next ((s.setSpdm p { x with stage := 3, a := x.a ++ req ++ m }).spdmSay p m)) ∧
  (∀ (s : State) (p : Nat) (req : List Byte), spdmReq p 0xE3 req = true → (s.spdm p).stage < 2 →
    exec (.negotiateAlgorithms p req) s = .next (s.spdmError p 4)) ∧
  (∀ (s : State) (p : Nat) (req : List Byte), spdmReq p 0x81 req = true → (s.spdm p).stage < 3 → exec (.getDigests p req) s = .next (s.spdmError p 4)) ∧
  (∀ (s : State) (p : Nat) (req : List Byte), spdmReq p 0x83 req = true → 3 ≤ (s.spdm p).stage → hasIdentity s = false →
    exec (.challenge p req) s = .next (s.spdmError p 5)) ∧
  -- slot 0's chain: its digest, and a portion of it
  (∀ (s : State) (p : Nat) (req : List Byte), spdmReq p 0x81 req = true → 3 ≤ (s.spdm p).stage → hasIdentity s = true →
    let x := s.spdm p
    let m := record [(1, 0x13), (1, 0x01), (1, 1), (1, 1)] ++ sha3x256 s.spdmChain
    exec (.getDigests p req) s = .next ((s.setSpdm p { x with b := x.b ++ req ++ m }).spdmSay p m)) ∧
  (∀ (s : State) (p : Nat) (req : List Byte), spdmReq p 0x82 req = true → 3 ≤ (s.spdm p).stage → hasIdentity s = true →
    let x := s.spdm p
    let c := s.spdmChain
    let off := leAt req 4 2
    let part := (c.drop off).take (min (leAt req 6 2) 16376)
    let m := record [(1, 0x13), (1, 0x02), (1, 0), (1, 0), (2, part.length), (2, c.length - off - part.length)] ++ part
    exec (.getCertificate p req) s = .next (if byteAt req 2 % 16 ≠ 0 ∨ c.length ≤ off then s.spdmError p 1
      else (s.setSpdm p { x with b := x.b ++ req ++ m }).spdmSay p m)) ∧
  -- CHALLENGE and GET_MEASUREMENTS are signed by the alias key over the connection's transcript, with a fresh nonce
  (∀ (s : State) (p : Nat) (req : List Byte), spdmReq p 0x83 req = true → 3 ≤ (s.spdm p).stage → hasIdentity s = true →
    let x := s.spdm p
    let u := s.drew
    let meas := (if byteAt req 3 = 0 then [] else sha3x256 (s.trust.running.flatMap (fun e => e.digest)))
    let m := record [(1, 0x13), (1, 0x03), (1, 0), (1, 1)] ++ sha3x256 s.spdmChain ++ s.draw 32 ++ meas ++ record [(2, 0)] ++ (req.drop 36).take 8
    let sig := s.spdmSign "responder-challenge_auth signing" (x.a ++ x.b ++ req ++ m)
    exec (.challenge p req) s = .next (if byteAt req 2 ≠ 0 then s.spdmError p 1
      else (u.setSpdm p { x with b := [], l := [] }).spdmSay p (m ++ sig))) ∧
  (∀ (s : State) (p : Nat) (req : List Byte), spdmReq p 0xE0 req = true → 3 ≤ (s.spdm p).stage → hasIdentity s = true →
    let x := s.spdm p
    let u := s.drew
    let ms := s.trust.running ++ s.trust.staged
    let op := byteAt req 3
    let sel := (if op = 0 then [] else if op = 0xFF then ms else ms.filter (fun e => e.index = op))
    let body := sel.flatMap (fun e => record [(1, e.index), (1, 1), (2, 35), (1, e.type), (2, 32)] ++ fitBytes 32 e.digest)
    let signed := byteAt req 2 % 2 = 1
    let m := record [(1, 0x13), (1, 0x60), (1, if op = 0 then ms.length else 0), (1, 0), (1, sel.length), (3, body.length)] ++ body ++ s.draw 32 ++
      record [(2, 0)] ++ fitBytes 8 (if signed then (req.drop 37).take 8 else (req.drop 4).take 8)
    let l := x.l ++ req ++ m
    exec (.getMeasurements p req) s = .next (
      if op ≠ 0 ∧ sel = [] then s.spdmError p 1
      else if signed then (u.setSpdm p { x with l := [] }).spdmSay p (m ++ s.spdmSign "responder-measurements signing" (x.a ++ l))
      else (u.setSpdm p { x with l := l }).spdmSay p m)) ∧
  -- evidence: the block of the scope asked for, with a session's keys when a slice's release is to follow
  (∀ (s : State) (p code : Nat) (q : List Byte), 2 ≤ p ∨ (2 ≤ code ∧ code ≤ 4) → exec (.getEvidence p code q) s = .next s) ∧
  (∀ (s : State) (p code : Nat) (q : List Byte), p < 2 → code < 2 ∨ 4 < code → code ≠ 1 ∨ q.length ≠ 34 →
    exec (.getEvidence p code q) s = .next (s.emit (.vendor p code (leBytes 2 0x0122)))) ∧
  (∀ (s : State) (p : Nat) (q : List Byte), p < 2 → q.length = 34 → byteAt q 33 ≠ 1 ∨ hasIdentity s = false ∨ byteAt q 32 = 0xFF →
    let sc := (if byteAt q 32 = 0xFF then none else some (byteAt q 32))
    exec (.getEvidence p 1 q) s = .next (
      if hasIdentity s = false then s.emit (.vendor p 1 (leBytes 2 0x0408))
      else if (byteAt q 32 ≠ 0xFF ∧ s.hasSlice (byteAt q 32) = false) ∨ 1 < byteAt q 33 ∨ byteAt q 33 = 1 then
        s.emit (.vendor p 1 (leBytes 2 0x0120))
      else (s.count Ctr.TRUST_EVIDENCE).emit (.vendor p 1 (s.evidenceBlock sc (q.take 32) [])))) ∧
  (∀ (s : State) (p n : Nat) (q : List Byte), p < 2 → q.length = 34 → byteAt q 33 = 1 → byteAt q 32 = n → s.hasSlice n = true → hasIdentity s = true →
    let u := s.drew
    let xs := s.draw 32
    let ks := u.draw 64
    let keys := fitBytes 32 (Config.xPublic xs) ++ fitBytes 1184 (Config.kemPublic ks)
    let e := u.drew.evidenceBlock (some n) (q.take 32) (sha3x256 keys)
    let x : Session := { since := s.now, evidence := e.take 768, xs := xs, ks := ks }
    let t := u.drew.trust
    let w := u.drew.setTrust { t with sessions := store none t.sessions n (some x) }
    exec (.getEvidence p 1 q) s = .next ((w.evidenceSync.count Ctr.TRUST_EVIDENCE).emit (.vendor p 1 (e ++ keys)))) ∧
  -- the state that a block shows: of the scope's slice or of the part (R787)
  (∀ (s : State) (sc : Option Nat), s.evidence sc = (
    if s.partState = 3 then (2, 5)
    else if (sc = none ∧ s.resetMask ≠ 0) ∨ sc.any (fun n => s.sliceState n = 6) = true then (2, 3)
    else if sc = none ∧ s.coreRestarting = true then (2, 4)
    else if s.trust.staged.any (fun m => m.index ≠ 20) = true then (1, 1)
    else if s.trust.staged.any (fun m => m.index = 20) = true then (1, 2) else (0, 0))) ∧
  (∀ (s : State) (p : Nat) (q : List Byte), exec (.getIdcert p q) s = .next (
    let k := byteAt q 0
    if 2 ≤ p then s
    else if q.length ≠ 1 then s.emit (.vendor p 2 (leBytes 2 0x0122))
    else if s.lc = 0 ∨ s.lc = 3 then s.emit (.vendor p 2 (leBytes 2 0x0408))
    else if k = 0 ∨ 4 ≤ k then s.emit (.vendor p 2 (leBytes 2 0x0120))
    else s.emit (.vendor p 2 (if k = 3 then s.aliasCert else fitBytes 5456 (Config.flashCert k))))) ∧
  -- RELEASE: refusals in their order; every refusal past the session's existence ends the live sessions
  (∀ (s : State) (p : Nat) (q : List Byte) (bad : Bool), 2 ≤ p → exec (.release p q bad) s = .next s) ∧
  (∀ (s : State) (p : Nat) (q : List Byte) (bad : Bool), p < 2 →
    let t := s.trust
    let e := s.setTrust { t with sessions := [] }
    let no := fun (u : State) (st : Nat) => ((u.count Ctr.TRUST_REFUSE).event Reg.TRUST_EVT 2).emit (.vendor p 3 (leBytes 2 st))
    let opens := s.liveSessions.findSome? (fun x => (x.2.grant q).map (fun g => (x.1, g)))
    exec (.release p q bad) s = .next (
      if q.length ≠ 1144 + leAt q 1120 2 then s.emit (.vendor p 3 (leBytes 2 0x0122))
      else if s.rf Reg.TRUST_ALARM 5 0 ≠ 0 then no s 0x0404
      else if s.lc ≠ 2 then no (if s.lc = 3 then s else e) 0x0408
      else if s.liveSessions = [] then no s 0x0402
      else if leAt q 1122 6 ≠ 0 then no e 0x0120
      else if bad = true then no ((e.count Ctr.TRUST_MISMATCH).alarm 4) 0x0520
      else (match opens with
        | none => no e 0x0403
        | some (n, g) =>
          let w := s.setTrust { t with sessions := store none t.sessions n none }
          if grantOk g n = false then no w 0x0120
          else if w.grantStatus n g ≠ 0 then no w (w.grantStatus n g)
          else (w.grantLoad n g).evidenceSync.emit (.vendor p 3 (leBytes 2 0))))) ∧
  -- a weight key of a grant joins its slice's keys
  (∀ (s : State) (n : Nat) (g : List Byte), byteAt g 3 = 1 → byteAt g 1 = 0 → grantWeight g 0 = true →
    (s.grantLoad n g).trust.weights = s.trust.weights ++ [⟨n, s.trust.grants + 1, leAt g 8 8, (g.drop 24).take 32, false⟩] ∧
      (s.grantLoad n g).trust.grants = s.trust.grants + 1 ∧
      (s.grantLoad n g).ctr Ctr.TRUST_RELEASE = (s.ctr Ctr.TRUST_RELEASE).bump ∧ (s.grantLoad n g).mem = s.mem) ∧
  -- a session lives 60 s
  (∀ (s : State) (n t : Nat), exec (.releaseSessionExpire n t) s = .next (
    let x := fetch none s.trust.sessions n
    let y := s.trust
    if x.any (fun e => e.since + 60000000000 ≤ t) = true then (s.reach t).setTrust { y with sessions := store none y.sessions n none } else s)) ∧
  -- life-cycle tokens: each check has its status; a good one writes the fuses and resets the part warm
  (∀ (s : State) (p : Nat) (q : List Byte), 2 ≤ p → exec (.lcRequest p q) s = .next s) ∧
  (∀ (s : State) (p : Nat) (q : List Byte), p < 2 → q.length ≠ 3440 → exec (.lcRequest p q) s = .next (s.emit (.vendor p 4 (leBytes 2 0x0122)))) ∧
  (∀ (s : State) (p : Nat) (q : List Byte), p < 2 → q.length = 3440 →
    let key := (if s.lc = 2 then Config.ownerKeys s.trust.ownerHash else Config.productKeys)
    let good := dualOk key "MZ-LC-TOKEN" (q.take 64) ((q.drop 64).take 64) ((q.drop 128).take 3309)
    exec (.lcRequest p q) s = .next (
      if s.lc = 3 then s.emit (.vendor p 4 (leBytes 2 0x0408))
      else if s.lcFields q = false then s.emit (.vendor p 4 (leBytes 2 0x0120))
      else if s.partState ≠ 4 ∨ byteAt q 5 ≠ s.lc ∨ lcMove (byteAt q 5) (byteAt q 6) = false ∨ (s.lc = 2 ∧ byteAt q 6 = 1 ∧ 7 ≤ s.fuses.releases) then
        s.emit (.vendor p 4 (leBytes 2 0x0220))
      else if good = false then ((s.count Ctr.TRUST_SIG_FAIL).event Reg.TRUST_EVT 1).emit (.vendor p 4 (leBytes 2 0x0401))
      else ((s.lcFuses q).fusesRead.emit (.vendor p 4 (leBytes 2 0))).warmState)) ∧
  (∀ (a b : Nat), lcMove a b = decide ((a = 0 ∧ b = 1) ∨ (a = 1 ∧ b = 2) ∨ (a = 2 ∧ b = 1) ∨ (a < 3 ∧ b = 3))) ∧
  (∀ (s : State) (q : List Byte), s.lc = 2 → byteAt q 6 = 1 →
    (s.lcFuses q).fuses.lc = 1 ∧ (s.lcFuses q).fuses.ownerHash = [] ∧ (s.lcFuses q).fuses.releases = s.fuses.releases + 1 ∧
      (s.lcFuses q).fuses.secret = s.fuses.secret) ∧
  (∀ (s : State) (q : List Byte), s.lc = 1 → byteAt q 6 = 2 →
    (s.lcFuses q).fuses.lc = 2 ∧ (s.lcFuses q).fuses.ownerHash = (q.drop 16).take 32 ∧ (s.lcFuses q).fuses.releases = s.fuses.releases)

/-- A cipher command word without GO as the register keeps it (R805). -/
def cipherAsked (s : State) (n : Nat) (v : Word) : State := s.wr (Reg.TRUST_CMD n) (v &&& 0x001F03FF)

/-- A cipher command word with GO, operation `op`, and no reserved bit set. -/
def cipherWord (v : Word) (op : Nat) : Bool := fieldOf v 31 31 = 1 && fieldOf v 30 21 = 0 && fieldOf v 15 10 = 0 && fieldOf v 19 16 = op

/-- TRUST_LOAD, TRUST_ERASE, SAVE_CLEAR, SAVE_WRAPPED, TRUST_RESTORE, UNSEAL, SEAL, REVOKE, ALARM and DRBG_RESEED (R777, R800 to R816). -/
def Obligations.CipherEngine : Prop :=
  -- the end of a command: its status, and a staging area of zeros
  (∀ (s : State) (n st k : Nat), n < 4 → k < 8 → st < 65536 →
    let t := s.trustEnd n st
    t.rf (Reg.TRUST_STAT n) 15 0 = st ∧ t.rd (Reg.TRUST_KEY n k) = 0 ∧ t.rd (Reg.TRUST_SALT n) = 0 ∧ t.ciphers = s.ciphers ∧ t.trust = s.trust ∧
      t.mem = s.mem) ∧
  -- LOAD of a direction of a channel of the slice's share, refused while an alarm stands or the part is DECOMMISSIONED
  (∀ (s : State) (p n : Nat) (v : Word), s.hasSlice n = true → cipherWord v 1 = true →
    let u := cipherAsked s n v
    let i := u.shareIdx n 1024 (fieldOf v 9 0)
    let c := u.cipher i
    let k := u.stagedKey n
    exec (.trustLoad (.pf0 p) n v) s = .next (
      if u.lc = 3 then u.trustEnd n 0x0408
      else if u.shareSize 1024 ≤ fieldOf v 9 0 then u.trustEnd n 0x0121
      else if u.rf Reg.TRUST_ALARM 5 0 ≠ 0 then u.trustEnd n 0x0404
      else (u.setCipher i (if fieldOf v 20 20 = 1 then { c with rx := some k } else { c with tx := some k, used := false })).trustEnd n 0)) ∧
  (∀ (s : State) (p n : Nat) (v : Word), s.hasSlice n = true → cipherWord v 2 = true →
    let u := cipherAsked s n v
    let i := u.shareIdx n 1024 (fieldOf v 9 0)
    let c := u.cipher i
    exec (.trustErase (.pf0 p) n v) s = .next (
      if u.lc = 3 then u.trustEnd n 0x0408
      else if u.shareSize 1024 ≤ fieldOf v 9 0 then u.trustEnd n 0x0121
      else (u.setCipher i (if fieldOf v 20 20 = 1 then { c with rx := none } else { c with tx := none, used := false })).trustEnd n 0)) ∧
  -- the two saves: a 128-byte record of both directions, after which the channel is empty and its generation has risen
  (∀ (s : State) (p n : Nat) (v : Word), s.hasSlice n = true → cipherWord v 3 = true →
    let u := cipherAsked s n v
    let i := u.shareIdx n 1024 (fieldOf v 9 0)
    let a := u.trustArg n
    let c := u.cipher i
    let g := (c.gen + 1) % 2 ^ 32
    let head := contextHead 0 (bit c.used) i n [] g
    exec (.saveClear (.pf0 p) n v) s = .next (
      if u.lc = 3 then u.trustEnd n 0x0408
      else if u.shareSize 1024 ≤ fieldOf v 9 0 then u.trustEnd n 0x0121
      else if u.inSlice n a 128 = false then u.trustEnd n 0x0181
      else if u.rf Reg.TRUST_CTL 0 0 = 0 then u.trustEnd n 0x0407
      else if c.tx = none ∧ c.rx = none then u.trustEnd n 0x0221
      else ((u.writeB a (head ++ c.body ++ List.replicate 16 0 ++ List.replicate 8 0)).setCipher i { gen := g }).trustEnd n 0)) ∧
  (∀ (s : State) (p n : Nat) (v : Word) (bad : Bool), s.hasSlice n = true → cipherWord v 4 = true →
    let u := cipherAsked s n v
    let i := u.shareIdx n 1024 (fieldOf v 9 0)
    let a := u.trustArg n
    let c := u.cipher i
    let g := (c.gen + 1) % 2 ^ 32
    let head := contextHead 1 (bit c.used) i n (u.draw 12) g
    let e := gcmSeal u.trust.bootKey (u.draw 12) head c.body
    exec (.saveWrapped (.pf0 p) n v bad) s = .next (
      if u.lc = 3 then u.trustEnd n 0x0408
      else if u.shareSize 1024 ≤ fieldOf v 9 0 then u.trustEnd n 0x0121
      else if u.inSlice n a 128 = false then u.trustEnd n 0x0181
      else if c.tx = none ∧ c.rx = none then u.trustEnd n 0x0221
      else if bad = true then ((u.count Ctr.TRUST_MISMATCH).alarm 4).trustEnd n 0x0520
      else ((u.drew.writeB a (head ++ e.1 ++ e.2 ++ List.replicate 8 0)).setCipher i { gen := g }).trustEnd n 0)) ∧
  -- RESTORE into an empty channel: the record must be of this channel, and a wrapped one of its last generation
  (∀ (s : State) (p n : Nat) (v : Word) (bad : Bool), s.hasSlice n = true → cipherWord v 5 = true →
    let u := cipherAsked s n v
    let i := u.shareIdx n 1024 (fieldOf v 9 0)
    let a := u.trustArg n
    let c := u.cipher i
    let r := u.bytes a 128
    exec (.trustRestore (.pf0 p) n v bad) s = .next (
      if u.lc = 3 then u.trustEnd n 0x0408
      else if u.shareSize 1024 ≤ fieldOf v 9 0 then u.trustEnd n 0x0121
      else if u.inSlice n a 128 = false then u.trustEnd n 0x0181
      else if contextOk r n i = false then u.trustEnd n 0x0120
      else if c.tx ≠ none ∨ c.rx ≠ none then u.trustEnd n 0x0221
      else if u.rf Reg.TRUST_ALARM 5 0 ≠ 0 then u.trustEnd n 0x0404
      else if bad = true ∧ byteAt r 2 = 1 then ((u.count Ctr.TRUST_MISMATCH).alarm 4).trustEnd n 0x0520
      else (match u.contextOpen r i with
        | .inl st => u.trustEnd n st
        | .inr d => (u.setCipher i d).trustEnd n 0))) ∧
  -- a clear record gives back the keys that it holds; a wrapped one of another generation does not open
  (∀ (s : State) (r : List Byte) (i : Nat), byteAt r 2 = 0 → r.length = 128 →
    let tx := ((r.drop 32).take 32, (r.drop 96).take 4)
    let rx := ((r.drop 64).take 32, (r.drop 100).take 4)
    s.contextOpen r i = .inr { tx := some tx, rx := some rx, used := bitOf (byteAt r 3) 0, gen := (s.cipher i).gen }) ∧
  (∀ (s : State) (r : List Byte) (i : Nat), byteAt r 2 = 1 → leAt r 20 4 ≠ (s.cipher i).gen → s.contextOpen r i = .inl 0x0406) ∧
  -- sealed objects: form, placement, key; a good object is written in the clear, one that fails leaves zeros
  (∀ (s : State) (p n : Nat) (v : Word) (bad : Bool), s.hasSlice n = true → cipherWord v 6 = true →
    let u := cipherAsked s n v
    exec (.unseal (.pf0 p) n v bad) s = .next (if u.lc = 3 then u.trustEnd n 0x0408 else (u.sealCommand n bad).2.trustEnd n (u.sealCommand n bad).1) ∧
    exec (.seal (.pf0 p) n v bad) s = .next (if u.lc = 3 then u.trustEnd n 0x0408 else (u.sealCommand n bad).2.trustEnd n (u.sealCommand n bad).1)) ∧
  (∀ (s : State) (n : Nat) (bad : Bool),
    let a := s.trustArg n
    (s.inSlice n a 64 = false → s.sealCommand n bad = (0x0181, s)) ∧
    (s.inSlice n a 64 = true → s.sealBlockOk a = false → s.sealCommand n bad = (0x0120, s)) ∧
    (s.inSlice n a 64 = true → s.sealBlockOk a = true → s.le (a + 1) 1 = 1 → s.shareSize 16384 ≤ s.le (a + 2) 2 →
      s.sealCommand n bad = (0x0120, s))) ∧
  (∀ (s : State) (n : Nat) (w : WeightKey),
    let a := s.trustArg n
    let src := s.le (a + 16) 5
    let dst := s.le (a + 24) 5
    let head := s.bytes src 128
    let len := leAt head 16 8
    let key := kmac256 w.key ((head.drop 24).take 32) 32 (asciiBytes "MZ-SEAL")
    let r := State.unsealN src dst len key head ((len + 65535) / 65536) 0 s
    s.inSlice n a 64 = true → s.sealBlockOk a = true → s.le a 1 = 1 → s.le (a + 1) 1 = 0 → s.inSlice n src 128 = true →
    leAt head 0 4 = 0x4C414553 → leAt head 4 2 = 1 → leAt head 6 2 = 0 → leAt head 56 72 = 0 → len ≠ 0 → len < 2 ^ 40 →
    s.inSlice n src (sealedLen len) = true → s.inSlice n dst len = true → s.weightKey n (leAt head 8 8) = some w →
    s.sealCommand n false = (if r.2 = true then (0, r.1.countN Ctr.TRUST_UNSEAL_BYTES len) else (0x0405, r.1)) ∧
    (s.sealCommand n true).1 = 0x0520) ∧
  (∀ (s : State) (src dst len i : Nat) (key head : List Byte), i * 65536 < len →
    let m := min 65536 (len - 65536 * i)
    let c := s.bytes (src + 128 + 65552 * i) m
    let tag := s.bytes (src + 128 + 65552 * i + m) 16
    let nonce := leBytes 8 i ++ [0, 0, 0, 0]
    State.unsealN src dst len key head 1 i s = (match gcmOpen key nonce (head ++ leBytes 8 i) c tag with
      | none => (s.writeB dst (List.replicate (65536 * i) 0), false)
      | some x => (s.writeB (dst + 65536 * i) x, true))) ∧
  (∀ (s : State) (n : Nat) (w : WeightKey),
    let a := s.trustArg n
    let src := s.le (a + 16) 5
    let dst := s.le (a + 24) 5
    let len := s.le (a + 32) 8
    let salt := s.draw 32
    let head := record [(4, 0x4C414553), (2, 1), (2, 0), (8, w.id), (8, len)] ++ fitBytes 32 salt ++ List.replicate 72 0
    let key := kmac256 w.key salt 32 (asciiBytes "MZ-SEAL")
    s.inSlice n a 64 = true → s.sealBlockOk a = true → s.le a 1 = 2 → s.le (a + 1) 1 = 0 → s.inSlice n src len = true →
    s.inSlice n dst (sealedLen len) = true → s.weightKey n (s.le (a + 8) 8) = some w →
    s.sealCommand n false =
      (0, (State.sealN src dst len key head ((len + 65535) / 65536) 0 (s.drew.writeB dst head)).countN Ctr.TRUST_UNSEAL_BYTES len)) ∧
  -- REVOKE takes the whole grant, unless it is PINNED
  (∀ (s : State) (p n : Nat) (v : Word), s.hasSlice n = true → cipherWord v 7 = true →
    let u := cipherAsked s n v
    let t := u.trust
    exec (.revoke (.pf0 p) n v) s = .next (
      if u.lc = 3 then u.trustEnd n 0x0408
      else (match u.weightKey n (u.le (u.trustArg n) 8) with
        | none => u.trustEnd n 0x0121
        | some w => if w.pinned = true then u.trustEnd n 0x0221
          else (u.setTrust { t with weights := t.weights.filter (fun x => x.grant ≠ w.grant) }).trustEnd n 0))) ∧
  -- reserved operations and bits; a doorbell page does not reach the set
  (∀ (s : State) (p n : Nat) (v : Word), s.hasSlice n = true →
    let u := cipherAsked s n v
    (fieldOf v 31 31 = 0 → exec (.trustLoad (.pf0 p) n v) s = .next u) ∧
    (fieldOf v 31 31 = 1 → fieldOf v 30 21 ≠ 0 ∨ fieldOf v 15 10 ≠ 0 ∨ fieldOf v 19 16 = 0 ∨ 8 ≤ fieldOf v 19 16 →
      exec (.trustLoad (.pf0 p) n v) s = .next (u.trustEnd n 0x0120)) ∧
    (∀ (m : Nat), exec (.trustLoad (.page m 0 none) n v) s = .next s)) ∧
  -- an alarm erases every channel key, narrow key and release session; connections that lose their key end in ERROR
  (∀ (s : State) (i : Nat), 6 ≤ i → exec (.alarm i) s = .next s) ∧
  (∀ (s : State) (i : Nat), i < 6 → s.rma.conns = [] →
    ∃ t : State, exec (.alarm i) s = .next t ∧ (∀ c ∈ t.ciphers, c.2.tx = none ∧ c.2.rx = none) ∧ t.trust.sessions = [] ∧ t.trust.narrow = [] ∧
      t.trust.weights = s.trust.weights ∧ t.rd Reg.TRUST_ALARM = scEvent (s.rd Reg.TRUST_ALARM) i ∧ t.rf Reg.TRUST_STATE 16 16 = 1 ∧
      t.ctr Ctr.TRUST_ALARMS = (s.ctr Ctr.TRUST_ALARMS).bump ∧ t.mem = s.mem) ∧
  (∀ (s : State) (i cid : Nat) (c : RmaConn), i < 6 → s.rma.conns = [(cid, c)] → c.enc = true → c.state = 1 →
    ∃ t : State, exec (.alarm i) s = .next t ∧ (t.conn cid).state = 2 ∧ (t.conn cid).err = 0x0404) ∧
  -- the generator reseeds after 2^20 draws; a failed health test is the ENTROPY alarm
  (∀ (s : State) (ok : Bool), exec (.drbgReseed ok) s = .next (
    let t := s.trust
    if t.draws < 2 ^ 20 then s else if ok = true then s.setTrust { t with draws := 0 } else s.alarm 5))

/-! ### Resets, cast-on, bind-off and firmware (file 15) -/

/-- Phase `k` of cast-on is in progress, with power. -/
def inCast (s : State) (k : Nat) : Bool := s.partState = 1 && s.rf Reg.CAST_PHASE 3 0 = k && !s.cast.off

/-- The part command register after a write of `v` (R825). -/
def castAsked (s : State) (v : Word) : State := s.wr Reg.CAST_CMD (v &&& 0x00FFFF1F)

/-- Cast-on ends REFUSED with its cause (R831). -/
def castRefused (s : State) (st : Nat) : State := (s.wf Reg.CAST_STATUS 31 16 st).wf Reg.GLB_STATUS 3 0 5

/-- COLD_RESET, WARM_RESET, BIND_OFF, BIND_OFF_COMPLETE, BIND_OFF_TIMEOUT and the nine phases of cast-on (R823 to R852). -/
def Obligations.CastOn : Prop :=
  -- a cold reset: cast-on begins in phase 1; fuses, flash and ledger stay, memory, counters, rows and jobs do not
  (∀ (s : State), ∃ t : State, exec .coldReset s = .next t ∧ t.partState = 1 ∧ t.rf Reg.CAST_PHASE 3 0 = 1 ∧ t.warm = false ∧ t.mem = [] ∧
      t.tags = [] ∧ t.ctrs = [] ∧ t.rows = [] ∧ t.jobs = [] ∧ t.fuses = s.fuses ∧ t.flash = s.flash ∧ t.ledger = s.ledger ∧
      t.rd Reg.TRUST_UID_LO = BitVec.ofNat 32 s.fuses.uid ∧ t.lc = s.fuses.lc % 4 ∧ t.rd Reg.CAST_BOOT = BitVec.ofNat 32 s.flash.boots ∧
      t.out = (if s.pwr.tripLow then s.out ++ [.pin "TRIP_N" true] else s.out)) ∧
  -- a warm reset needs its key, and QUIESCED or FORCE; then domain COLD and memory stay, and cast-on begins again
  (∀ (s : State) (p : Nat) (v : Word), fieldOf v 31 31 = 1 → fieldOf v 30 24 = 0 → fieldOf v 7 5 = 0 → fieldOf v 3 0 = 2 →
    ∃ t : State, exec (.warmReset (.pf0 p) v) s = .next t ∧
      (fieldOf v 23 8 ≠ 0x5752 → t = (castAsked s v).wf Reg.CAST_CMD_STAT 15 0 0x0113) ∧
      (fieldOf v 23 8 = 0x5752 → s.partState ≠ 4 → fieldOf v 4 4 = 0 → t = (castAsked s v).wf Reg.CAST_CMD_STAT 15 0 0x0211) ∧
      (fieldOf v 23 8 = 0x5752 → s.partState = 4 ∨ fieldOf v 4 4 = 1 →
        t.partState = 1 ∧ t.rf Reg.CAST_PHASE 3 0 = 1 ∧ t.warm = true ∧ t.mem = s.mem ∧ t.tags = s.tags ∧ t.rows = [] ∧ t.jobs = [] ∧
        t.fuses = s.fuses ∧ t.flash = s.flash ∧ t.ledger = s.ledger ∧ t.ctr Ctr.CAST_WARM = (s.ctr Ctr.CAST_WARM).bump)) ∧
  (∀ (s : State) (p a : Nat), coldReg a = true → a ≠ Reg.SPN_FW_DIR → a ≠ Reg.CAST_BOOT → s.partState = 4 →
    ∃ t : State, exec (.warmReset (.pf0 p) 0x80575202) s = .next t ∧ t.rd a = s.rd a ∧ (coldCtr a = true → a ≠ Ctr.CAST_WARM → t.ctr a = s.ctr a)) ∧
  -- a part command with a reserved bit or operation: 0x0110; without GO nothing happens
  (∀ (s : State) (p : Nat) (v : Word),
    (fieldOf v 31 31 = 1 → fieldOf v 30 24 ≠ 0 ∨ fieldOf v 7 5 ≠ 0 ∨ fieldOf v 3 0 = 0 ∨ 3 ≤ fieldOf v 3 0 →
      exec (.warmReset (.pf0 p) v) s = .next ((castAsked s v).wf Reg.CAST_CMD_STAT 15 0 0x0110) ∧
      exec (.bindOff (.pf0 p) v) s = .next ((castAsked s v).wf Reg.CAST_CMD_STAT 15 0 0x0110)) ∧
    (fieldOf v 31 31 = 0 → exec (.warmReset (.pf0 p) v) s = .next (castAsked s v) ∧ exec (.bindOff (.pf0 p) v) s = .next (castAsked s v))) ∧
  -- bind-off of a READY part: every RUN slice freezes; it ends when work and dirty units are done, or at its limit
  (∀ (s : State) (p : Nat) (v : Word), fieldOf v 31 31 = 1 → fieldOf v 30 24 = 0 → fieldOf v 7 5 = 0 → fieldOf v 3 0 = 1 →
    ∃ t : State, exec (.bindOff (.pf0 p) v) s = .next t ∧
      (s.partState ≠ 2 → t = (castAsked s v).wf Reg.CAST_CMD_STAT 15 0 0x0210) ∧
      (s.partState = 2 → t.partState = 3 ∧ t.rd Reg.CAST_CMD_STAT = 0x80000000 ∧ t.cast.bindAt = s.now ∧ t.mem = s.mem ∧
        (∀ n ∈ s.slices, s.sliceState n = 0 → t.sliceState n = 1) ∧
        (∀ l ∈ List.range 128, s.rowState l = 4 → s.sliceState (s.rowSlice l) = 0 → t.rowState l = 5))) ∧
  (∀ (s : State), s.partState ≠ 3 ∨ (∃ n ∈ s.slices, s.freezeDone n = false) → exec .bindOffComplete s = .next s) ∧
  (∀ (s : State), s.partState = 3 → s.slices.all (fun n => s.freezeDone n) = true → s.spaces = [] →
    ∃ t : State, exec .bindOffComplete s = .next t ∧ t.partState = 4 ∧ t.rd Reg.CAST_CMD_STAT = 0 ∧ t.mem = s.mem ∧
      (∀ n ∈ s.slices, t.sliceState n = (if s.sliceState n = 1 then 2 else s.sliceState n))) ∧
  (∀ (s : State) (t : Nat), s.partState ≠ 3 ∨ t < s.cast.bindAt + 1000000000 * s.rf Reg.CAST_CTL 31 24 →
    exec (.bindOffTimeout t) s = .next s) ∧
  (∀ (s : State) (t : Nat), s.partState = 3 → s.cast.bindAt + 1000000000 * s.rf Reg.CAST_CTL 31 24 ≤ t →
    ∃ u : State, exec (.bindOffTimeout t) s = .next u ∧ u.partState = 4 ∧ u.rd Reg.CAST_CMD_STAT = 0x0213 ∧ u.rf Reg.CAST_EVT 3 3 = 1 ∧
      (∀ l ∈ List.range 128, s.sliceCount ≤ s.rowSlice l ∨ u.rowState l ≠ 4 ∧ u.rowState l ≠ 5)) ∧
  -- outside its phase a cast-on command does nothing
  (∀ (s : State) (bad : List Nat) (a b : List (Option SlotImage)) (o : Option SlotImage) (q : Pattern) (r : TestResults) (t : Nat),
    (inCast s 1 = false → exec .castFuses s = .next s) ∧ (inCast s 2 = false → exec (.castVerify bad a) s = .next s) ∧
    (inCast s 3 = false → exec (.castMeasure a b q) s = .next s) ∧ (inCast s 4 = false → exec (.castAlign o q) s = .next s) ∧
    (inCast s 5 = false → exec (.castTest r) s = .next s) ∧ (inCast s 6 = false → exec .castWipe s = .next s) ∧
    (inCast s 7 = false → exec .castApply s = .next s) ∧ (inCast s 8 = false → exec (.castTopology t) s = .next s) ∧
    (inCast s 9 = false → exec .castReady s = .next s)) ∧
  -- phase 1: the boot is counted, a cold cast-on reads the fuses; RETIRED refuses with 0x0408
  (∀ (s : State), inCast s 1 = true →
    ∃ t : State, exec .castFuses s = .next t ∧ t.flash.boots = (s.flash.boots + 1) % 2 ^ 32 ∧ t.rd Reg.CAST_BOOT = BitVec.ofNat 32 (s.flash.boots + 1) ∧
      (s.warm = false → t.lc = s.fuses.lc % 4 ∧ t.trust.secret = s.fuses.secret) ∧
      (t.lc = 3 → t.partState = 5 ∧ t.rf Reg.CAST_STATUS 31 16 = 0x0408) ∧
      (t.lc ≠ 3 → t.partState = 1 ∧ t.rf Reg.CAST_PHASE 3 0 = 2 ∧ t.trust.draws = 1 ∧ t.free = s.free + 1)) ∧
  -- phase 2: the newer good directory copy is in force; the active slot boots, else the other one, and with neither cast-on refuses
  (∀ (s : State) (bad : List Nat) (slots : List (Option SlotImage)), inCast s 2 = true → 0 ∈ bad → 1 ∈ bad →
    exec (.castVerify bad slots) s = .next (castRefused s 0x0515)) ∧
  (∀ (s : State) (bad : List Nat) (slots : List (Option SlotImage)) (x y : SlotImage), inCast s 2 = true → 0 ∉ bad ∨ 1 ∉ bad →
    let f := s.flash
    let u := [1, 2, 3].foldl State.dirSettle
      ((s.setFlash { f with cur := if 0 ∈ bad then 1 else if 1 ∈ bad then 0 else if f.dirA.1 < f.dirB.1 then 1 else 0 }).flashRead)
    slots[u.dirActive 1]? = some (some x) → slots[1 - u.dirActive 1]? = some (some y) →
    exec (.castVerify bad slots) s = .next (
      if u.imageStatus 1 x = 0 then (u.runImage 1 x).wr Reg.CAST_PHASE 3
      else if u.imageStatus 1 y = 0 then ((u.fellBack 1).runImage 1 y).wr Reg.CAST_PHASE 3
      else castRefused u (u.imageStatus 1 x))) ∧
  -- a slot that could not be read fails with 0x0515
  (∀ (s : State) (slots : List (Option SlotImage)), slots.all (fun x => x = none) = true → inCast s 2 = true →
    ∃ t : State, exec (.castVerify [] slots) s = .next t ∧ t.partState = 5 ∧ t.rf Reg.CAST_STATUS 31 16 = 0x0515) ∧
  -- phase 3: Spindle image, then Pattern; core 0 is released, and measurements 1 to 5 are recorded
  (∀ (s : State) (sp pa : List (Option SlotImage)) (q : Pattern), inCast s 3 = true →
    let b := s.bootKind 2 sp
    let c := b.1.bootKind 3 pa
    ∃ t : State, exec (.castMeasure sp pa q) s = .next t ∧
      (b.2 ≠ 0 → t = castRefused b.1 b.2) ∧ (b.2 = 0 → c.2 ≠ 0 → t = castRefused c.1 c.2) ∧
      (b.2 = 0 → c.2 = 0 → t.rf Reg.CAST_PHASE 3 0 = 4 ∧ t.rf Reg.SPN_CORE 3 0 = 1 ∧ t.trust.running.length = 5 ∧ t.mem = s.mem)) ∧
  -- phase 4: the Pattern that passes its checks sets VCORE on the four rails; one that fails with no other slot refuses
  (∀ (s : State) (o : Option SlotImage) (q : Pattern), inCast s 4 = true → s.patternStatus s.pat.variants s.pat = 0 →
    let v := bitsOf s.pat.vcfg 9 0
    ∃ t : State, exec (.castAlign o q) s = .next t ∧ t.rf Reg.CAST_PHASE 3 0 = 5 ∧ t.rd Reg.PWR_VCORE = BitVec.ofNat 32 v ∧
      t.out = s.out ++ [.avsWrite 0 v, .avsWrite 1 v, .avsWrite 2 v, .avsWrite 3 v] ∧ t.mem = s.mem) ∧
  (∀ (s : State) (q : Pattern), inCast s 4 = true → s.patternStatus s.pat.variants s.pat ≠ 0 →
    exec (.castAlign none q) s = .next (castRefused s (s.patternStatus s.pat.variants s.pat))) ∧
  -- phase 5: what failed enters the ledger once; a dead die refuses first of all
  (∀ (s : State) (r : TestResults), inCast s 5 = true → s.ledgerHeld = [] → s.ledger.length + (s.testEntries r).length ≤ 4096 →
    ∃ t : State, exec (.castTest r) s = .next t ∧ (∀ x ∈ s.ledger, x ∈ t.ledger) ∧
      (∀ x ∈ s.testEntries r, t.ledger.any (fun y => y.same x) = true) ∧
      (∀ k ∈ List.range 4, t.rf Reg.GLB_STATUS (24 + k) (24 + k) = bit (!r.dies.contains k)) ∧
      (r.dies ≠ [] → t.partState = 5 ∧ t.rf Reg.CAST_STATUS 31 16 = 0x0514) ∧
      (r.rows = [] → r.lanes = [] → r.hank = [] → r.hbm = [] → r.training = [] → r.dies = [] → r.cores = [] → s.ledger = [] →
        t.partState = 1 ∧ t.rf Reg.CAST_PHASE 3 0 = 6)) ∧
  -- phase 6: memory, tags, scratch and program buffers are wiped, and every panel's rows take its lowest working slots
  (∀ (s : State), inCast s 6 = true →
    ∃ t : State, exec .castWipe s = .next t ∧ t.mem = [] ∧ t.tags = [] ∧ t.rf Reg.CAST_PHASE 3 0 = 7 ∧ t.ctrs = s.ctrs ∧
      (∀ l ∈ List.range 128, t.row l = {} ∧ t.rowState l = (if l % 8 < s.panelRows then 1 else 0))) ∧
  -- phase 7: identity, slices, partitions, row kinds and links as the Pattern says; memory stays
  (∀ (s : State), inCast s 7 = true → [1, 2, 4].contains s.pat.slices = true → s.pat.regs = [] →
    ∃ t : State, exec .castApply s = .next t ∧ t.rf Reg.CAST_PHASE 3 0 = 8 ∧ t.partId = s.pat.partId % 2 ^ 14 ∧ t.sliceCount = s.pat.slices ∧
      (∀ n ∈ List.range 4, t.sliceState n = (if n < s.pat.slices then 0 else 7)) ∧
      (∀ l ∈ List.range 128, t.rowKind l = s.pat.rowKinds.getD l 0 % 8) ∧
      (∀ d ∈ List.range 4, t.rd (Reg.MEM_PART d) = BitVec.ofNat 32 (s.pat.parts.getD d 0)) ∧
      (∀ n ∈ List.range 96, t.linkState n = (if s.patMode s.pat n = 0 then 0 else if s.patMode s.pat n = 2 then 0xA else 2)) ∧
      t.cast.topoAt = s.now ∧ t.mem = s.mem ∧ t.tags = s.tags) ∧
  -- phase 8: it waits for its Woard links, no longer than TOPO_WAIT_MS; a REQUIRED link that is not up then refuses with 0x0610
  (∀ (s : State) (t : Nat), inCast s 8 = true →
    (t < s.cast.topoAt + 1000000 * s.pat.topoWait → s.woardLinks.any (fun n => !s.linkLive n && s.linkState n ≠ 8) = true →
      exec (.castTopology t) s = .next s) ∧
    (s.woardLinks.all (fun n => s.linkLive n) = true → exec (.castTopology t) s = .next ((s.reach t).wr Reg.CAST_PHASE 9)) ∧
    (∀ (n : Nat), s.cast.topoAt + 1000000 * s.pat.topoWait ≤ t → n ∈ s.woardLinks → s.linkLive n = false →
      (s.wiring n).any (fun l => l.required) = true →
      ∃ u : State, exec (.castTopology t) s = .next u ∧ u.partState = 5 ∧ u.rf Reg.CAST_STATUS 31 16 = 0x0610)) ∧
  -- phase 9: every core runs and the part is READY; an image raises its fused count, and no count falls
  (∀ (s : State), inCast s 9 = true →
    ∃ t : State, exec .castReady s = .next t ∧ t.partState = 2 ∧ t.rd Reg.SPN_CORE = 0x11111111 ∧ t.tbFixed = true ∧ t.mem = s.mem ∧
      (s.fuses.svns.length = 3 → ∀ k ∈ List.range 3,
        t.fuses.svns.getD k 0 = max (s.fuses.svns.getD k 0) (fetch (0, []) s.cast.run (k + 1)).1))

/-- The update command register after a write of `v`, and the end of a command with `st` (R863). -/
def fwAsked (s : State) (v : Word) : State := s.wr Reg.SPN_FW_CMD (v &&& 0x307)

def fwEnds (s : State) (st : Nat) : State :=
  let u := ((s.wf Reg.SPN_FW_STAT 15 0 st).wf Reg.SPN_FW_STAT 31 31 0).wf Reg.SPN_FW_STAT 23 16 0
  if st = 0 then u else (u.wf Reg.SPN_FW_STAT 27 24 0).event Reg.SPN_EVT 5

/-- FW_STAGE, FW_DISCARD, FW_DISTRIBUTE, FW_ACTIVATE, FW_CHUNK_RECEIVE, FW_REPAIR_START, FW_REPAIR_REQUEST, PREPARE_RECEIVE, READY_RECEIVE,
PREPARE_TIMEOUT, COMMIT_RECEIVE, ABORT_RECEIVE, FW_RESTART_CORES, WATCHDOG_EXPIRE, CORE_RESTART_DONE and THROTTLE_REPORT (R855 to R874). -/
def Obligations.FirmwareUpdate : Prop :=
  -- reserved operations and bits, and no GO; a doorbell page does not reach the register
  (∀ (s : State) (p : Nat) (v : Word) (i : SlotImage) (q : Pattern) (ok : Bool), fieldOf v 31 31 = 0 →
    exec (.fwStage (.pf0 p) v i q ok) s = .next (fwAsked s v) ∧ exec (.fwDiscard (.pf0 p) v) s = .next (fwAsked s v) ∧
    exec (.fwDistribute (.pf0 p) v) s = .next (fwAsked s v) ∧ exec (.fwActivate (.pf0 p) v) s = .next (fwAsked s v)) ∧
  (∀ (s : State) (p : Nat) (v : Word) (i : SlotImage) (q : Pattern) (ok : Bool), fieldOf v 31 31 = 1 →
    fieldOf v 30 10 ≠ 0 ∨ fieldOf v 7 3 ≠ 0 ∨ fieldOf v 9 8 = 0 ∨ fieldOf v 2 0 = 0 ∨ 4 < fieldOf v 2 0 →
    let e := fwEnds (fwAsked s v) 0x0110
    exec (.fwStage (.pf0 p) v i q ok) s = .next e ∧ exec (.fwDiscard (.pf0 p) v) s = .next e ∧
    exec (.fwDistribute (.pf0 p) v) s = .next e ∧ exec (.fwActivate (.pf0 p) v) s = .next e) ∧
  (∀ (s : State) (n : Nat) (v : Word) (i : SlotImage) (q : Pattern) (ok : Bool),
    exec (.fwStage (.page n 0 none) v i q ok) s = .next s ∧ exec (.fwDiscard (.page n 0 none) v) s = .next s ∧
    exec (.fwDistribute (.page n 0 none) v) s = .next s ∧ exec (.fwActivate (.page n 0 none) v) s = .next s) ∧
  -- STAGE: its checks in their order; an image that passes is STAGED and enters the measurement list
  (∀ (s : State) (p kind : Nat) (v : Word) (i : SlotImage) (q : Pattern) (ok : Bool), v = BitVec.ofNat 32 (0x80000001 + 256 * kind) → 1 ≤ kind →
    kind ≤ 3 →
    let u := fwAsked s v
    let len := s.rf Reg.SPN_FW_LEN 25 0
    let st := u.imageStatus kind i
    let pst := u.patternStatus (byteAt i.header 48) (patOf q i)
    exec (.fwStage (.pf0 p) v i q ok) s = .next (
      if u.fwBusy = true ∨ u.cast.recv.isSome = true ∨ u.cast.commit.isSome = true ∨ u.dirOther kind = 2 then fwEnds u 0x0210
      else if s.trust.pinned ≠ [] then fwEnds u 0x0222
      else if slotBytes kind < len then fwEnds u 0x0311
      else if imageLength i ≠ len then fwEnds u 0x0112
      else if st ≠ 0 then fwEnds u st
      else if kind = 3 ∧ pst ≠ 0 then fwEnds u pst
      else if ok = false then fwEnds u 0x0515
      else fwEnds (((u.dirWrite kind (u.dirActive kind) 1).setStaged kind (some i)).event Reg.SPN_EVT 2).measureStaged 0)) ∧
  -- the others need a STAGED image; DISCARD empties the slot
  (∀ (s : State) (p kind op : Nat) (v : Word), v = BitVec.ofNat 32 (0x80000000 + op + 256 * kind) → 1 ≤ kind → kind ≤ 3 →
    (fwAsked s v).fwStaged kind = none →
    (op = 2 → exec (.fwDiscard (.pf0 p) v) s = .next (fwEnds (fwAsked s v) 0x0210)) ∧
    (op = 3 → exec (.fwDistribute (.pf0 p) v) s = .next (fwEnds (fwAsked s v) 0x0210)) ∧
    (op = 4 → exec (.fwActivate (.pf0 p) v) s = .next (fwEnds (fwAsked s v) 0x0210))) ∧
  (∀ (s : State) (p kind op : Nat) (v : Word) (i : SlotImage), v = BitVec.ofNat 32 (0x80000000 + op + 256 * kind) →
    1 ≤ kind → kind ≤ 3 →
    let u := fwAsked s v
    let g := s.rf Reg.SPN_FW_ARG 11 0
    u.fwStaged kind = some i →
    (op = 2 → exec (.fwDiscard (.pf0 p) v) s = .next (
      if u.fwBusy = true then fwEnds u 0x0210
      else fwEnds ((u.dirWrite kind (u.dirActive kind) 0).setStaged kind none).measureStaged 0)) ∧
    -- DISTRIBUTE sends header, table, chunks and END to its group
    (op = 3 → exec (.fwDistribute (.pf0 p) v) s = .next (
      if u.fwBusy = true ∨ s.partState = 5 then fwEnds u 0x0210
      else if u.groupValid g = false then fwEnds u 0x0253
      else fwEnds ((fwMessages kind i).foldl (fun t m => t.emit (.fwGroup g m)) (u.wr Reg.SPN_FW_CONF 0)) 0)) ∧
    -- ACTIVATE: this part leads, and PREPARE goes out with the image's name
    (op = 4 → u.fwBusy = false → s.partState ≠ 5 → u.groupValid g = true →
      ∃ t : State, exec (.fwActivate (.pf0 p) v) s = .next t ∧
        t.cast.lead = some { kind := kind, group := g, targets := s.rf Reg.SPN_FW_ARG 29 16 + 1, since := s.now } ∧
        t.rf Reg.SPN_FW_STAT 31 31 = 1 ∧ t.rf Reg.SPN_FW_STAT 27 24 = 4 ∧ t.rd Reg.SPN_FW_CONF = 0 ∧
        t.out = s.out ++ [.fwPrepare g kind (imageTableDigest i)] ∧ t.mem = s.mem)) ∧
  -- receiving: a good header starts; the table and every chunk must match their digests, and a chunk counts once
  (∀ (s : State) (p kind : Nat) (c h : List Byte), exec (.fwChunkReceive p (.header kind c h)) s = .next (
    if s.headerStatus kind c h ≠ 0 ∨ s.fwBusy = true ∨ s.cast.recv.isSome = true ∨ s.cast.commit.isSome = true ∨ s.dirOther kind = 2 then s
    else s.setRecv (some { part := p, kind := kind, cert := c, header := h, heard := s.now }))) ∧
  (∀ (s : State) (p k : Nat) (bs : List Byte), s.cast.recv = none →
    exec (.fwChunkReceive p (.table bs)) s = .next s ∧ exec (.fwChunkReceive p (.chunk k bs)) s = .next s ∧
    exec (.fwChunkReceive p .finish) s = .next s) ∧
  (∀ (s : State) (p k : Nat) (bs : List Byte) (r : FwRecv), s.cast.recv = some r →
    let x := { r with heard := s.now }
    (exec (.fwChunkReceive p (.table bs)) s =
      .next (s.setRecv (some (if r.table = none ∧ sha3x256 bs = (r.header.drop 16).take 32 then { x with table := some bs } else x)))) ∧
    exec (.fwChunkReceive p .finish) s = .next (s.setRecv (some { x with ended := true })) ∧
    (∀ (tb : List Byte), r.table = some tb →
      exec (.fwChunkReceive p (.chunk k bs)) s = .next (
        if sha3x256 bs = (tb.drop (32 * k)).take 32 ∧ fetch none r.chunks k = none then
          (let u := s.setRecv (some { x with chunks := store none r.chunks k (some bs) })
           if r.rounds = 0 then u else u.count Ctr.SPN_FW_REPAIR)
        else s.setRecv (some x)))) ∧
  -- after END or 50 ms of silence: STAGED when whole, else a request for what is missing, and after eight rounds FAILED
  (∀ (s : State) (t : Nat) (ok : Bool), s.cast.recv = none → exec (.fwRepairStart t ok) s = .next s) ∧
  (∀ (s : State) (t : Nat) (ok : Bool) (r : FwRecv), s.cast.recv = some r →
    let whole := r.table.isSome && r.missing = []
    let asks := s.pat.watch ++ [r.part]
    let u := s.reach t
    exec (.fwRepairStart t ok) s = .next (
      if r.ended = false ∧ whole = false ∧ t < r.heard + 50000000 then s
      else if whole = true ∧ ok = true then (((u.setRecv none).markStaged r.kind r.image).wf Reg.SPN_FW_STAT 27 24 0).emit (.fwAnswer r.part .staged)
      else if whole = true then (fwEnds (u.setRecv none) 0x0515).emit (.fwAnswer r.part (.failed 0x0515))
      else if 8 * asks.length ≤ r.rounds then (fwEnds (u.setRecv none) 0x0611).emit (.fwAnswer r.part (.failed 0x0611))
      else ((u.setRecv (some { r with rounds := r.rounds + 1, heard := t, ended := false })).wf Reg.SPN_FW_STAT 27 24 3).emit
        (.fwRepair (asks.getD (r.rounds % asks.length) r.part) ((r.header.drop 16).take 32) (if r.table.isSome then r.missing else [])))) ∧
  (∀ (s : State) (p : Nat) (d : List Byte) (ks : List Nat),
    ∃ t : State, exec (.fwRepairRequest p d ks) s = .next t ∧ { t with out := s.out } = s ∧
      t.out = s.out ++ (if ks = [] then ((s.heldTable d).toList.map (fun b => .fwPart p (.table b))) else []) ++
        ks.filterMap (fun k => (s.heldChunk d k).map (fun b => .fwPart p (.chunk k b)))) ∧
  -- PREPARE is answered READY by a part that holds that image STAGED
  (∀ (s : State) (p kind : Nat) (d : List Byte), exec (.prepareReceive p kind d) s = .next (s.emit (.fwAnswer p
    (match s.fwStaged kind with
      | some i => if imageTableDigest i = d then .ready else .refuse 0x0210
      | none => .refuse 0x0210)))) ∧
  -- the coordinator commits at the last READY, and aborts at a REFUSE or after 10 s
  (∀ (s : State) (p : Nat) (l : FwLead), s.cast.lead = some l → p ∉ l.ready →
    let n := l.ready.length + 1
    let u := (s.setCast { s.cast with lead := some { l with ready := l.ready ++ [p] } }).wf Reg.SPN_FW_CONF 13 0 n
    exec (.readyReceive p .ready) s = .next (
      if n < l.targets then u
      else (fwEnds ((u.setCast { s.cast with lead := none }).emit (.fwCommit l.group l.kind u.commitBoundary)) 0).wf Reg.SPN_FW_STAT 27 24 5)) ∧
  (∀ (s : State) (p : Nat) (l : FwLead), s.cast.lead = some l → p ∈ l.ready → exec (.readyReceive p .ready) s = .next s) ∧
  (∀ (s : State) (p st : Nat) (l : FwLead), s.cast.lead = some l →
    exec (.readyReceive p (.refuse st)) s = .next (fwEnds (((s.wf Reg.SPN_FW_CONF 29 16 (s.rf Reg.SPN_FW_CONF 29 16 + 1)).setCast
      { s.cast with lead := none }).emit (.fwAbort l.group l.kind)) 0x0212)) ∧
  (∀ (s : State) (p st : Nat), s.cast.lead = none →
    exec (.readyReceive p .staged) s = .next (s.wf Reg.SPN_FW_CONF 13 0 (s.rf Reg.SPN_FW_CONF 13 0 + 1)) ∧
    exec (.readyReceive p (.failed st)) s = .next (s.wf Reg.SPN_FW_CONF 29 16 (s.rf Reg.SPN_FW_CONF 29 16 + 1))) ∧
  (∀ (s : State) (t : Nat) (l : FwLead), s.cast.lead = some l →
    let u := s.reach t
    exec (.prepareTimeout t) s = .next (
      if t < l.since + 10000000000 then s
      else fwEnds ((u.setCast { s.cast with lead := none }).emit (.fwAbort l.group l.kind)) 0x0212)) ∧
  (∀ (s : State) (t : Nat), s.cast.lead = none → exec (.prepareTimeout t) s = .next s) ∧
  -- COMMIT: the staged slot waits for the next reset; a Spindle image takes effect at its boundary, at once with no open job, or is DEFERRED
  (∀ (s : State) (k b : Nat), s.fwStaged k = none → exec (.commitReceive k b) s = .next s) ∧
  (∀ (s : State) (k b : Nat) (i : SlotImage), s.fwStaged k = some i → 1 ≤ k → k ≤ 3 →
    ∃ t : State, exec (.commitReceive k b) s = .next t ∧ t.dirOther k = 2 ∧ t.dirActive k = s.dirActive k ∧
      t.rf Reg.SPN_EVT 3 3 = 1 ∧ t.cast.commit = (if k = 2 then some b else s.cast.commit) ∧
      (k = 2 → (∀ n ∈ List.range 4, (s.job n).isOpen = false) → s.cast.go = false →
        (s.fwBlocked = false → t.cast.go = true ∧ t.rf Reg.SPN_FW_STAT 27 24 = 6) ∧
        (s.fwBlocked = true → t.cast.go = false ∧ t.rf Reg.SPN_FW_STAT 27 24 = 7))) ∧
  (∀ (s : State) (k : Nat), exec (.abortReceive k) s = .next s) ∧
  -- the restarts: eight cores, one by one; the image runs from the slot that was the other one, and its count is burnt
  (∀ (s : State), s.cast.go = false → s.cast.commit = none → exec .fwRestartCores s = .next s) ∧
  (∀ (s : State) (i : SlotImage), s.cast.go = true → s.stagedImage 2 = some i → (s.ctr Ctr.SPN_RESTART).count + 8 < 2 ^ 48 →
    ∃ t : State, exec .fwRestartCores s = .next t ∧ t.cast.go = false ∧ t.cast.commit = none ∧ t.dirActive 2 = 1 - s.dirActive 2 ∧ t.dirOther 2 = 0 ∧
      t.stagedImage 2 = none ∧ t.trust.narrow = [] ∧ fetch (0, []) t.cast.run 2 = (imageSvn i, imageDigest i) ∧
      (t.ctr Ctr.SPN_RESTART).count = (s.ctr Ctr.SPN_RESTART).count + 8 ∧ t.rf Reg.SPN_FW_STAT 27 24 = 0 ∧ t.mem = s.mem) ∧
  -- a watchdog restarts its core, losing its narrow keys; the fifth expiry within 60 s halts it, and every slice is told
  (∀ (s : State) (c t : Nat), 8 ≤ c ∨ s.rf Reg.SPN_CORE (4 * c + 3) (4 * c) ≠ 1 → exec (.watchdogExpire c t) s = .next s) ∧
  (∀ (s : State) (c t : Nat), c < 8 → s.rf Reg.SPN_CORE (4 * c + 3) (4 * c) = 1 → s.cast.recv = none →
    let rs := (fetch [] s.cast.restarts c).filter (fun r => t < r + 60000000000)
    ∃ u : State, exec (.watchdogExpire c t) s = .next u ∧ fetch [] u.trust.narrow c = [] ∧
      (rs.length < 4 → u.rf Reg.SPN_CORE (4 * c + 3) (4 * c) = 2 ∧ fetch [] u.cast.restarts c = rs ++ [t] ∧ u.rf Reg.SPN_EVT 0 0 = 1 ∧
        u.ctr Ctr.SPN_RESTART = (s.ctr Ctr.SPN_RESTART).bump ∧ u.mem = s.mem) ∧
      (4 ≤ rs.length → u.rf Reg.SPN_CORE (4 * c + 3) (4 * c) = 3 ∧ u.rf Reg.SPN_EVT 1 1 = 1 ∧ u.ctr Ctr.SPN_RESTART = s.ctr Ctr.SPN_RESTART)) ∧
  (∀ (s : State) (c : Nat), (c < 8 → s.rf Reg.SPN_CORE (4 * c + 3) (4 * c) ≠ 2) → exec (.coreRestartDone c) s = .next s) ∧
  (∀ (s : State) (c : Nat), c < 8 → s.rf Reg.SPN_CORE (4 * c + 3) (4 * c) = 2 →
    ∃ t : State, exec (.coreRestartDone c) s = .next t ∧ t.rf Reg.SPN_CORE (4 * c + 3) (4 * c) = 1 ∧ t.mem = s.mem ∧ t.ctrs = s.ctrs) ∧
  -- the throttles that have ended are reported every 10 ms, as one, to each slice
  (∀ (s : State) (t : Nat), s.pwr.reports = [] ∨ t % 10000000 ≠ 0 ∨ 2 ≤ s.rf Reg.SPN_CORE 15 12 → exec (.throttleReport t) s = .next s) ∧
  (∀ (s : State) (t b e : Nat), s.pwr.reports = [(b, e)] → t % 10000000 = 0 → s.rf Reg.SPN_CORE 15 12 < 2 → s.sliceCount = 1 →
    exec (.throttleReport t) s =
      .next (((s.reach t).setPwr { s.pwr with reports := [] }).report 0 3 0 (b / 1000000 * 1000000) (leBytes 4 ((e - b + 999999) / 1000000))))

/-! ### Power, telemetry, the board and the pins (files 16 and 17) -/

/-- GOVERNOR_DECISION, HOT_N_ASSERT, ICC_OVER, AVS_READ, SENSOR_SAMPLE, HBM_TEMP_READ and TB_HOLDOVER, and what the levels show (R878 to R887,
R894). -/
def Obligations.PowerControl : Prop :=
  -- the causes, bit by bit: power, TJ, TH, HOT_N, current, a silent interface
  (∀ (s : State), bitOf s.causes 0 = decide (s.rf Reg.PWR_CTL 15 0 < s.rf Reg.PWR_POWER 15 0) ∧
    bitOf s.causes 2 = decide (s.rf Reg.PWR_TLIM 15 8 < s.th) ∧ bitOf s.causes 3 = s.pwr.hot ∧ bitOf s.causes 4 = s.pwr.icc ∧
    bitOf s.causes 5 = decide (s.pwr.silent ≠ [])) ∧
  -- a decision comes at whole multiples of 100 µs, in a part with power
  (∀ (s : State) (t again : Nat) (hot icc : Bool) (silent : List Nat), t % 100000 ≠ 0 ∨ s.cast.off = true →
    exec (.governorDecision t hot icc silent again) s = .next s) ∧
  -- over a limit: VCORE falls by 10 mV to VMIN, and at VMIN gating rises; clear ten times: gating falls, then VCORE rises by 5 mV to VNOM
  (∀ (s : State) (t : Nat) (hot icc : Bool), t % 100000 = 0 → s.cast.off = false →
    let w := (s.reach t).setPwr { s.pwr with hot := hot, icc := icc }
    let v := s.rf Reg.PWR_VCORE 9 0
    let lo := s.rf Reg.PWR_VCFG 25 16
    let hi := s.rf Reg.PWR_VCFG 9 0
    let g := s.rf Reg.PWR_STAT 15 12
    let tenth := w.govOver = false ∧ w.govClear = true ∧ 10 ≤ s.pwr.clears + 1
    let vt := if w.govOver then max lo (v - 10) else if tenth ∧ g = 0 then min hi (v + 5) else v
    let settled := (List.range 4).all (fun d => s.rf (Reg.PWR_DIE_VI d) 9 0 ≤ vt + 10 && vt ≤ s.rf (Reg.PWR_DIE_VI d) 9 0 + 10)
    ∃ u : State, exec (.governorDecision t hot icc [] 0) s = .next u ∧ u.rf Reg.PWR_VCORE 9 0 = vt ∧
      u.rf Reg.PWR_STAT 15 12 = (if w.govOver then (if v = lo then min 15 (g + 1) else g) else if tenth then g - 1 else g) ∧
      u.pwr.clears = (if w.govOver = false ∧ w.govClear = true then s.pwr.clears + 1 else 0) ∧
      u.pwr.gFast = (if 0 < s.pwr.gFast ∧ s.pwr.fastAt + 1000000 ≤ t ∧ hot = false ∧ icc = false ∧ s.pwr.silent = [] ∧ settled then
        s.pwr.gFast - 1 else s.pwr.gFast) ∧ u.pwr.hot = hot ∧ u.pwr.icc = icc ∧
      u.out = s.out ++ (if s.partState = 1 ∧ s.rf Reg.CAST_PHASE 3 0 < 5 then [] else
        [.avsWrite 0 vt, .avsWrite 1 vt, .avsWrite 2 vt, .avsWrite 3 vt]) ∧ u.mem = s.mem) ∧
  -- an interface that stays silent holds gating at FAST_GATE, and is flagged once
  (∀ (s : State) (t i again : Nat), t % 100000 = 0 → s.cast.off = false → s.partState = 2 → i < 4 → s.pwr.silent = [] → s.pwr.thr = none →
    ∃ u : State, exec (.governorDecision t false false [i] again) s = .next u ∧ u.pwr.silent = [i] ∧
      s.rf Reg.PWR_CTL 23 20 ≤ u.pwr.gFast ∧ u.rd Reg.PWR_EVT = scEvent (s.rd Reg.PWR_EVT) 3 ∧
      u.ctr Ctr.PWR_AVS_ERR = (s.ctr Ctr.PWR_AVS_ERR).add again) ∧
  -- HOT_N and a current over its limit gate at once, and every pacer sees the level
  (∀ (s : State) (t : Nat), s.pwr.thr = none →
    let g := max s.pwr.gFast (s.rf Reg.PWR_CTL 27 24)
    ∃ u : State, exec (.hotNAssert t) s = .next u ∧ u.pwr.hot = true ∧ u.pwr.gFast = g ∧ u.rd Reg.PWR_EVT = scEvent (s.rd Reg.PWR_EVT) 1 ∧
      u.ctr Ctr.PWR_HOT_N = (s.ctr Ctr.PWR_HOT_N).bump ∧
      u.ctr Ctr.PWR_FAST = (if s.pwr.gFast < g then (s.ctr Ctr.PWR_FAST).bump else s.ctr Ctr.PWR_FAST) ∧
      (g < 16 → ∀ d ∈ List.range 4, u.rf (Reg.NDL_PACE d) 27 24 = max g (s.rf Reg.PWR_STAT 15 12)) ∧
      (g < 16 → u.rf Reg.PWR_STAT 11 8 = max g (s.rf Reg.PWR_STAT 15 12)) ∧ u.mem = s.mem) ∧
  (∀ (s : State) (t d : Nat), 4 ≤ d → exec (.iccOver t d) s = .next s) ∧
  (∀ (s : State) (t d : Nat), d < 4 → s.pwr.thr = none →
    let g := max s.pwr.gFast (s.rf Reg.PWR_CTL 23 20)
    ∃ u : State, exec (.iccOver t d) s = .next u ∧ u.pwr.icc = true ∧ u.pwr.gFast = g ∧ u.rd Reg.PWR_EVT = s.rd Reg.PWR_EVT ∧
      u.ctr Ctr.PWR_FAST = (if s.pwr.gFast < g then (s.ctr Ctr.PWR_FAST).bump else s.ctr Ctr.PWR_FAST) ∧ u.mem = s.mem) ∧
  -- a throttle begins with a lowered VCORE or a gate, and ends with neither: its start, length, causes and sequence are kept
  (∀ (s : State) (t : Nat), s.pwr.thr = none → s.vt < s.vnom ∨ 0 < s.gate → (s.powerShow t).pwr.thr = some (t, s.causes) ∧
    (s.powerShow t).rd Reg.PWR_THR_SEQ = s.rd Reg.PWR_THR_SEQ ∧ (s.powerShow t).ctrs = s.ctrs) ∧
  (∀ (s : State) (t b c : Nat), s.pwr.thr = some (b, c) → s.vnom ≤ s.vt → s.gate = 0 →
    let us := (t - b + 999) / 1000
    let u := s.powerShow t
    u.pwr.thr = none ∧ u.pwr.reports = s.pwr.reports ++ [(b, t)] ∧ u.rd64 Reg.PWR_THR_START_LO Reg.PWR_THR_START_HI = b % 2 ^ 64 ∧
      u.rf Reg.PWR_THR_INFO 23 0 = min us (2 ^ 24 - 1) ∧ u.rd Reg.PWR_THR_SEQ = s.rd Reg.PWR_THR_SEQ + 1 ∧
      u.rd Reg.PWR_EVT = scEvent (s.rd Reg.PWR_EVT) 2 ∧ u.ctr Ctr.PWR_THROTTLE = (s.ctr Ctr.PWR_THROTTLE).bump ∧
      u.ctr Ctr.PWR_THR_US = (s.ctr Ctr.PWR_THR_US).add us) ∧
  -- readings: each rail's voltage and current, package power over the last millisecond, and energy in mJ
  (∀ (s : State) (t est : Nat) (rs : List AvsRead), t % 100000 ≠ 0 → exec (.avsRead t rs est) s = .next s) ∧
  (∀ (s : State) (t est : Nat) (v a : List Nat), t % 100000 = 0 → v.length = 6 → a.length = 6 → (∀ x ∈ v ++ a, x < 1024) → s.pwr.thr = none →
    let mw := ((v.zip a).map (fun e => e.1 * e.2)).sum + 1000 * est
    let ps := (mw :: s.pwr.samples).take 10
    ∃ u : State, exec (.avsRead t ((v.zip a).map (fun e => ⟨some e, 0⟩)) est) s = .next u ∧
      (∀ d ∈ List.range 4, u.rf (Reg.PWR_DIE_VI d) 9 0 = v.getD d 0 ∧ u.rf (Reg.PWR_DIE_VI d) 25 16 = a.getD d 0) ∧ u.pwr.samples = ps ∧
      u.rf Reg.PWR_POWER 15 0 = ps.sum / ps.length / 1000 % 65536 ∧ u.rf Reg.PWR_POWER 31 16 = est % 65536 ∧
      u.pwr.energy = (s.pwr.energy + mw) % 10000 ∧
      u.ctr Ctr.PWR_ENERGY_MJ = (s.ctr Ctr.PWR_ENERGY_MJ).add ((s.pwr.energy + mw) / 10000) ∧ u.mem = s.mem) ∧
  -- junction readings: the hottest sensor is shown; a sensor at TJ_TRIP in two samples running trips
  (∀ (s : State) (t d : Nat) (xs : List (Option Int)), 4 ≤ d → exec (.sensorSample t d xs) s = .next s) ∧
  (∀ (s : State) (t d m i : Nat) (vs : List Int), d < 4 → vs.length = 16 → s.now ≤ t → (∀ x ∈ vs, -40 ≤ x ∧ x ≤ (m : Int)) → m ≤ 150 →
    vs[i]? = some (m : Int) → (∀ j ∈ List.range i, vs.getD j 0 < (m : Int)) → s.pwr.tripLow = false →
    let lim := s.rf Reg.PWR_TLIM 23 16
    let again := (List.range 16).any (fun j => decide ((lim : Int) ≤ vs.getD j 0) && fetch false s.pwr.atTrip (16 * d + j))
    ∃ u : State, exec (.sensorSample t d (vs.map some)) s = .next u ∧ u.rf (Reg.PWR_DIE_T d) 7 0 = m ∧ u.rf (Reg.PWR_DIE_T d) 21 16 = i ∧
      (∀ j ∈ List.range 16, fetch false u.pwr.atTrip (16 * d + j) = decide ((lim : Int) ≤ vs.getD j 0)) ∧ u.pwr.tripLow = again ∧
      (again = true → u.rf Reg.PWR_STAT 15 12 = 15 ∧ u.rf Reg.PWR_VCORE 9 0 = s.rf Reg.PWR_VCFG 25 16 ∧ u.rf Reg.PWR_STAT 3 0 = 2 ∧
        u.rf Reg.TRUST_ALARM 1 1 = 1 ∧ u.rf Reg.PWR_EVT 0 0 = 1 ∧ (.pin "TRIP_N" false) ∈ u.out)) ∧
  -- stack readings: a stack at HBM_TRIP trips at once
  (∀ (s : State) (t d : Nat) (xs : List Nat), 4 ≤ d → exec (.hbmTempRead t d xs) s = .next s) ∧
  (∀ (s : State) (t d a b c : Nat), d < 4 → a < 256 → b < 256 → c < 256 → s.stacksOf d = 3 → s.pwr.tripLow = false →
    let m := max a (max b c)
    ∃ u : State, exec (.hbmTempRead t d [a, b, c]) s = .next u ∧ u.rf (Reg.PWR_DIE_T d) 15 8 = m ∧
      u.pwr.tripLow = decide (s.rf Reg.PWR_TLIM 31 24 ≤ m)) ∧
  -- a time source that falls silent for 3 s
  (∀ (s : State) (t : Nat), exec (.tbHoldover t) s = .next (
    if s.rf Reg.PWR_TB_SRC 1 0 ≠ 0 ∧ (s.rf Reg.PWR_TB_STAT 2 0 = 1 ∨ s.rf Reg.PWR_TB_STAT 2 0 = 2) ∧ s.tbHeard + 3000000000 ≤ t then
      (let u := ((s.reach t).wf Reg.PWR_TB_STAT 2 0 3).event Reg.PWR_EVT 5
       { u with tbOffsets := [] })
    else s))

/-- TELEMETRY_CAPTURE, TELEMETRY_SEND, TELEMETRY_DROP, the MCTP control commands, READ_REG, BOARD_WARM_RESET, GET_TELEMETRY, ALERT_RESPONSE,
PERST_RELEASE, REFCLK_LOSS, RAIL_LOSS, and the instructions of the TAP (R889 to R898, R912, R914, R922, R923). The forms of the MCTP responses
and IDCODE's version are the model's choices (NOTES.md, Assumptions). -/
def Obligations.BoardAndPins : Prop :=
  -- a capture at each multiple of its period: time, sequence and one section for each block of the mask
  (∀ (s : State) (t : Nat), s.rf Reg.PWR_TEL_CFG 31 31 = 0 ∨ s.rf Reg.PWR_TEL_CFG 15 0 = 0 ∨ t % (1000000 * s.rf Reg.PWR_TEL_CFG 15 0) ≠ 0 →
    exec (.telemetryCapture t) s = .next s) ∧
  (∀ (s : State) (t : Nat), s.rf Reg.PWR_TEL_CFG 31 31 = 1 → 0 < s.rf Reg.PWR_TEL_CFG 15 0 → t % (1000000 * s.rf Reg.PWR_TEL_CFG 15 0) = 0 →
    s.rd Reg.PWR_TEL_MASK = 2 →
    ∃ u : State, exec (.telemetryCapture t) s = .next u ∧ u.rd Reg.PWR_TEL_SEQ = s.rd Reg.PWR_TEL_SEQ + 1 ∧
      u.pwr.captures.map (fun c => c.time) = s.pwr.captures.map (fun c => c.time) ++ [t] ∧
      u.pwr.lastHead.map (fun h => (h.length, leAt h 0 4, leAt h 8 4, leAt h 16 8)) =
        some (64, 0x4C45545A, (s.rd Reg.PWR_TEL_SEQ + 1).toNat, t % 2 ^ 64) ∧
      u.pwr.captures.getLast?.map (fun c => c.sections.map (fun x => (leAt x 0 2, leAt x 2 2, leAt x 12 8))) =
        some [(1, 2, (s.ctr Ctr.CAST_WARM).count % 2 ^ 63 + 2 ^ 63 * bit (s.ctr Ctr.CAST_WARM).sat)] ∧
      u.mem = s.mem ∧ u.ctrs = s.ctrs) ∧
  -- the oldest capture is sent through the collector's port, in order, while core 6 runs and the port is up; one a period old is dropped
  (∀ (s : State), s.pwr.captures = [] ∨ 2 ≤ s.rf Reg.SPN_CORE 27 24 ∨ s.rf (Reg.ETH_P_STAT s.pat.collector.2.2) 1 0 ≠ 2 →
    exec .telemetrySend s = .next s) ∧
  (∀ (s : State) (c : Capture) (rest : List Capture), s.pwr.captures = c :: rest → c.datagrams.length = 1 → s.rf Reg.SPN_CORE 27 24 < 2 →
    s.rf (Reg.ETH_P_STAT s.pat.collector.2.2) 1 0 = 2 →
    let q := s.pat.collector
    let p := s.ethPort q.2.2
    exec .telemetrySend s = .next (((s.setPwr { s.pwr with captures := rest }).setEthPort q.2.2
      { p with frames := p.frames ++ c.datagrams.map (fun d => ⟨2, Config.udpFrame q.1 q.2.1 d, false⟩) }).count Ctr.PWR_TEL_SENT)) ∧
  (∀ (s : State) (t : Nat), s.pwr.captures = [] → exec (.telemetryDrop t) s = .next s) ∧
  (∀ (s : State) (t : Nat) (c : Capture) (rest : List Capture), s.pwr.captures = c :: rest →
    exec (.telemetryDrop t) s = .next (if t < c.time + 1000000 * s.rf Reg.PWR_TEL_CFG 15 0 then s
      else (((s.reach t).setPwr { s.pwr with captures := rest }).count Ctr.PWR_TEL_DROP).event Reg.PWR_EVT 7)) ∧
  -- MCTP: an EID is assigned and read back; versions and message types
  (∀ (s : State) (op eid : Nat),
    (op < 2 → 0 < eid → eid < 255 →
      exec (.setEndpointId op eid) s = .next ((s.setPwr { s.pwr with eid := eid }).emit (.mctp [0, 0, 1, 0, 0, BitVec.ofNat 8 eid, 0]))) ∧
    (2 ≤ op ∨ eid = 0 ∨ 255 ≤ eid → exec (.setEndpointId op eid) s = .next (s.emit (.mctp [0, 0, 1, 2])))) ∧
  (∀ (s : State), exec .getEndpointId s = .next (s.emit (.mctp [0, 0, 2, 0, BitVec.ofNat 8 s.pwr.eid, 0, 0]))) ∧
  (∀ (s : State) (k : Nat), exec (.getMctpVersionSupport k) s = .next (s.emit (.mctp (
    if k = 0xFF ∨ k = 0 ∨ k = 0x7E then [0, 0, 4, 0, 1, 0xF1, 0xF3, 0xF1, 0] else [0, 0, 4, 0x80])))) ∧
  (∀ (s : State) (k : Nat), k ≠ 1 → k ≠ 2 → k ≠ 4 → k < 256 → exec (.getMessageTypeSupport k) s = .next (s.emit (.mctp (
    if k = 5 then [0, 0, 5, 0, 1, 0x7E] else [0, 0, BitVec.ofNat 8 k, 5])))) ∧
  -- READ_REG reads a register of GLB, CAST or PWR, and no other; reserved codes answer 0x0100
  (∀ (s : State) (a : Nat), a ∈ [Reg.GLB_STATUS, Reg.GLB_PART_ID, Reg.GLB_BEAT_SEQ, Reg.CAST_PHASE, Reg.CAST_STATUS, Reg.PWR_VCORE, Reg.PWR_POWER] →
    exec (.readReg 1 a) s = .next (s.emit (.board 1 ([0, 0] ++ leBytes 4 (s.rd a).toNat)))) ∧
  (∀ (s : State) (a : Nat), 0x300000 ≤ a ∨ a % 4 ≠ 0 →
    ∃ t : State, exec (.readReg 1 a) s = .next t ∧ { t with out := s.out, free := s.free } = s ∧ t.free = s.free + 1 ∧ t.out.length = s.out.length + 1) ∧
  (∀ (s : State) (k a : Nat), k = 0 ∨ 4 ≤ k → exec (.readReg k a) s = .next (s.emit (.board k [0, 1]))) ∧
  -- the board's warm reset always proceeds
  (∀ (s : State), ∃ t : State, exec .boardWarmReset s = .next t ∧ t.out = s.out ++ [.board 2 [0, 0]] ∧ t.partState = 1 ∧
    t.rf Reg.CAST_PHASE 3 0 = 1 ∧ t.warm = true ∧ t.mem = s.mem ∧ t.tags = s.tags ∧ t.fuses = s.fuses ∧ t.ledger = s.ledger) ∧
  (∀ (s : State) (h : List Byte), s.pwr.lastHead = some h → exec .getTelemetry s = .next (s.emit (.board 3 h))) ∧
  (∀ (s : State), s.pwr.lastHead = none →
    ∃ t : State, exec .getTelemetry s = .next t ∧ { t with out := s.out, free := s.free } = s ∧ t.out.length = s.out.length + 1) ∧
  -- ALERT_N is low while an unmasked flag of PWR_EVT stands or a core is HALTED
  (∀ (s : State), (∀ c ∈ List.range 8, s.rf Reg.SPN_CORE (4 * c + 3) (4 * c) ≠ 3) →
    exec .alertResponse s = .next (
      if s.rf Reg.PWR_EVT 7 0 &&& s.rf Reg.PWR_ALERT_MASK 7 0 ≠ 0 then s.emit (.alertAddress 0x5A) else s)) ∧
  (∀ (s : State) (c : Nat), c < 8 → s.rf Reg.SPN_CORE (4 * c + 3) (4 * c) = 3 → exec .alertResponse s = .next (s.emit (.alertAddress 0x5A))) ∧
  -- PERST_N: a port trains once phase ALIGN has ended
  (∀ (s : State) (p : Nat), 2 ≤ p → exec (.perstRelease p) s = .next s) ∧
  (∀ (s : State) (p : Nat), p < 2 → s.partState = 1 → s.rf Reg.CAST_PHASE 3 0 < 5 →
    exec (.perstRelease p) s = .next { s with portLinks := store {} s.portLinks p { perst := true, trained := false } }) ∧
  (∀ (s : State) (p : Nat), p < 2 → s.partState ≠ 1 →
    ∃ t : State, exec (.perstRelease p) s = .next t ∧ fetch ({} : PortLink) t.portLinks p = { perst := true, trained := true } ∧
      t.rf (Reg.HOST_P_STAT p) 10 10 = 1 ∧ t.mem = s.mem ∧ t.ctrs = s.ctrs) ∧
  -- a lost reference clock: CLOCK alarm, or the links of one lane chiplet go DOWN
  (∀ (s : State) (c : Nat), 10 ≤ c → exec (.refclkLoss c) s = .next s) ∧
  (∀ (s : State) (c : Nat), c < 2 → exec (.refclkLoss c) s = exec (.alarm 2) s) ∧
  (∀ (s : State) (c n : Nat), 2 ≤ c → c < 10 → n < 96 → s.link n = {} →
    ∃ t : State, exec (.refclkLoss c) s = .next t ∧
      (n / 12 = c - 2 → s.linkState n ≠ 0 → s.linkState n ≠ 0xA → t.linkState n = 1 ∧ t.rf (Reg.LNK_N_STAT n) 31 16 = 0x05C0) ∧
      (n / 12 = c - 2 → s.linkState n = 0 ∨ s.linkState n = 0xA → t.linkState n = s.linkState n) ∧ t.mem = s.mem) ∧
  -- a lost rail: every volatile state goes, and nothing runs until the next power-on
  (∀ (s : State), ∃ t : State, exec .railLoss s = .next t ∧ t.mem = [] ∧ t.rows = [] ∧ t.jobs = [] ∧ t.ctrs = [] ∧ t.cast = { off := true } ∧
    t.fuses = s.fuses ∧ t.flash = s.flash ∧ t.ledger = s.ledger) ∧
  -- the TAP: every bit leaves BYPASS one clock later; IDCODE; the boundary cells
  (∀ (s : State) (b : Bool) (bits : List Bool),
    ∃ t : State, exec (.bypass (b :: bits)) s = .next t ∧ t.tap.ir = .bypass ∧ t.tap.cells = s.tap.cells ∧
      t.out = s.out ++ [.tdo (false :: (b :: bits).take bits.length)] ∧ { t with out := s.out, tap := s.tap } = s) ∧
  (∀ (s : State), s.variant = 0 →
    ∃ t : State, exec .idcode s = .next t ∧ t.tap.ir = .idcode ∧ t.out = s.out ++ [.tdo ((List.range 32).map (fun i => (0x1961256B : BitVec 32).getLsbD i))] ∧
      { t with out := s.out, tap := s.tap } = s) ∧
  (∀ (s : State) (lands cells : List Bool),
    exec (.samplePreload lands cells) s = .next ({ s with tap := ⟨.sample, cells⟩ }.emit (.tdo lands))) ∧
  -- EXTEST, CLAMP and HIGHZ act while RESET_N is low in BLANK and PROVISIONED, and else select BYPASS
  (∀ (s : State), s.rf Reg.TRUST_LC 1 0 < 2 →
    exec (.extest true) s = .next ({ s with tap := ⟨.extest, s.tap.cells⟩ }.emit (.lands (some s.tap.cells))) ∧
    exec (.clamp true) s = .next ({ s with tap := ⟨.clamp, s.tap.cells⟩ }.emit (.lands (some s.tap.cells))) ∧
    exec (.highz true) s = .next ({ s with tap := ⟨.highz, s.tap.cells⟩ }.emit (.lands none))) ∧
  (∀ (s : State) (low : Bool), low = false ∨ 2 ≤ s.rf Reg.TRUST_LC 1 0 →
    let b : State := { s with tap := ⟨.bypass, s.tap.cells⟩ }
    exec (.extest low) s = .next b ∧ exec (.clamp low) s = .next b ∧ exec (.highz low) s = .next b)

/-! ### The whole part: the queue of commands, reset, and what every step keeps -/

/-- One step takes the command at the front of the queue and runs it on the state with the rest of the queue; a command put in front
of any queue is what the next step runs. With no command waiting, one cycle of the time base passes (R48, log entry 3). -/
def Obligations.StepTakesFront : Prop :=
  (∀ (s : State) (c : Instr) (rest : List Instr), s.pending = c :: rest → step s = exec c { s with pending := rest }) ∧
  (∀ (s : State) (c : Instr), step { s with pending := c :: s.pending } = exec c s) ∧
  (∀ (s : State), s.pending = [] → step s = .next s.idle)

/-- Every command has its meaning on every state, and the queue of the commands behind it is no part of its effect: it answers a next
state with the queue as it was, so the part takes its commands one at a time and in their order. -/
def Obligations.ExecLeavesQueue : Prop :=
  ∀ (c : Instr) (s : State), ∃ t : State, exec c s = .next t ∧ t.pending = s.pending

/-- The registers that the spec gives a reset value other than 0, and the value, for one of each array (chapters 00, 01, 02, 04, 05, 07 to
12, 14 to 16). -/
def resetWords : List (Nat × Word) :=
  [(Reg.GLB_STATUS, 0x2001), (Reg.GLB_CONTRACT, 0x1), (Reg.CAST_CTL, 0x1E140000), (Reg.CAST_PHASE, 0x1),
   (Reg.PWR_CTL, 0x88007D0), (Reg.PWR_TLIM, 0x69735A64), (Reg.PWR_ILIM, 0x190), (Reg.PWR_VCFG, 0x28A02EE),
   (Reg.PWR_VCORE, 0x2EE), (Reg.PWR_ALERT_MASK, 0x1B), (Reg.LNK_CTL, 0x130040), (Reg.LNK_N_STAT 0, 0x1), (Reg.SWT_CTL, 0x120),
   (Reg.RMA_CTL, 0x4C410C00), (Reg.RMA_TIMING, 0x27100064), (Reg.ETH_P_DEFAULT 0, 0xFF00), (Reg.ETH_P_Q01 0 0, 0x10000),
   (Reg.ETH_P_Q27 0 0, 0x10001), (Reg.TWS_CTL, 0x7), (Reg.NDL_CTL, 0x641388), (Reg.MEM_CTL, 0x100001),
   (Reg.MEM_CE_THRESH, 0x3E8), (Reg.CRD_CTL, 0x64), (Reg.CKP_CTL, 0x7D003E8)]

/-- Registers that the spec resets to 0, some of each block. -/
def resetZeros : List Nat :=
  [Reg.GLB_BEAT_CFG, Reg.GLB_BEAT_STATE, Reg.GLB_BEAT_SEQ, Reg.GLB_JOB_STAT 0, Reg.GLB_CONTRACT_EVT, Reg.CAST_EVT, Reg.PWR_EVT, Reg.TRUST_EVT,
   Reg.TRUST_ALARM, Reg.HOST_EVT, Reg.LNK_EVT, Reg.SWT_EVT, Reg.RMA_EVT, Reg.ETH_EVT, Reg.TWS_EVT, Reg.TWS_DQ_SIZE 0, Reg.TWS_DQ_HEAD 3,
   Reg.NDL_EVT, Reg.MEM_EVT, Reg.OPT_EVT, Reg.CRD_EVT, Reg.CKP_EVT, Reg.SPN_EVT]

/-- After reset: the queue is empty, the registers stand at the reset values the spec gives, every counter at 0 with SAT clear (R20), no
job is open (R79), no row runs, no byte of memory is listed (log entry 2), and the invariant holds. -/
def Obligations.ResetState : Prop :=
  State.reset.pending = [] ∧ (∀ e ∈ resetWords, State.reset.rd e.1 = e.2) ∧ (∀ a ∈ resetZeros, State.reset.rd a = 0) ∧
  (∀ a : Nat, State.reset.ctr a = ⟨0, false⟩ ∧ State.reset.byte a = 0) ∧ (∀ n : Nat, (State.reset.job n).isOpen = false) ∧
  (∀ l < 128, State.reset.rowState l = 0) ∧ State.reset.good = true

/-- Every step keeps the canonical forms and the bound of the counters (R20), from every state that has them: whatever commands wait,
and from a reset or not. -/
def Obligations.StepKeepsGood : Prop :=
  ∀ (s t : State), s.good = true → step s = .next t → t.good = true
end

