-- ==== Sys2Proof/Laws/Store.lean ====
section
/-! SUPPORT. Laws of the sparse maps: a read after a write, and the canonical form that every write keeps. -/

namespace Sys2Proof.Machine

variable {α : Type}

@[simp] theorem lookup_insertAt_same (m : SMap α) (a : Nat) (v : α) : lookup (insertAt m a v) a = some v := by
  induction m with
  | nil => simp [insertAt, lookup]
  | cons e m ih =>
    obtain ⟨k, w⟩ := e
    simp only [insertAt]
    split
    · simp [lookup]
    · split
      · simp [lookup]
      · rename_i h; simp [lookup, h, ih]

theorem lookup_insertAt_other (m : SMap α) {a b : Nat} (v : α) (h : b ≠ a) : lookup (insertAt m a v) b = lookup m b := by
  induction m with
  | nil => simp [insertAt, lookup, Ne.symm h]
  | cons e m ih =>
    obtain ⟨k, w⟩ := e
    simp only [insertAt]
    split
    · simp [lookup, Ne.symm h]
    · split
      · rename_i hk; subst hk; simp [lookup, Ne.symm h]
      · simp [lookup, ih]

@[simp] theorem lookup_eraseAt_same (m : SMap α) (a : Nat) : lookup (eraseAt m a) a = none := by
  induction m with
  | nil => rfl
  | cons e m ih =>
    obtain ⟨k, w⟩ := e
    simp only [eraseAt]
    split
    · exact ih
    · rename_i h; simp [lookup, h, ih]

theorem lookup_eraseAt_other (m : SMap α) {a b : Nat} (h : b ≠ a) : lookup (eraseAt m a) b = lookup m b := by
  induction m with
  | nil => rfl
  | cons e m ih =>
    obtain ⟨k, w⟩ := e
    simp only [eraseAt]
    split
    · rename_i hk; subst hk; simp [lookup, Ne.symm h, ih]
    · simp [lookup, ih]

section
variable [DecidableEq α]

/-- A read after a write to the same key gives the value written. -/
@[simp] theorem fetch_store_same (d : α) (m : SMap α) (a : Nat) (v : α) : fetch d (store d m a v) a = v := by
  unfold store fetch
  split
  · rename_i h; simp [h]
  · simp

/-- A write leaves every other key alone. -/
theorem fetch_store_other (d e : α) (m : SMap α) {a b : Nat} (v : α) (h : b ≠ a) :
    fetch e (store d m a v) b = fetch e m b := by
  unfold store fetch
  split
  · rw [lookup_eraseAt_other m h]
  · rw [lookup_insertAt_other m v h]

theorem fetch_store (d : α) (m : SMap α) (a b : Nat) (v : α) :
    fetch d (store d m a v) b = if b = a then v else fetch d m b := by
  split
  · rename_i h; subst h; simp
  · rename_i h; exact fetch_store_other d d m v h

@[simp] theorem fetch_modifyAt_same (d : α) (m : SMap α) (a : Nat) (f : α → α) :
    fetch d (modifyAt d m a f) a = f (fetch d m a) := by simp [modifyAt]

theorem fetch_modifyAt_other (d : α) (m : SMap α) {a b : Nat} (f : α → α) (h : b ≠ a) :
    fetch d (modifyAt d m a f) b = fetch d m b := by simp [modifyAt, fetch_store_other d d m _ h]

end

/-! ### The canonical form -/

theorem keysAbove_trans {a b : Nat} (h : a ≤ b) (m : SMap α) (hm : keysAbove b m = true) : keysAbove a m = true := by
  induction m with
  | nil => rfl
  | cons e m ih =>
    obtain ⟨k, w⟩ := e
    simp only [keysAbove, Bool.and_eq_true, decide_eq_true_eq] at hm ⊢
    exact ⟨by omega, ih hm.2⟩

theorem keysAbove_insertAt {a b : Nat} (v : α) (m : SMap α) (hm : keysAbove b m = true) (h : b < a) :
    keysAbove b (insertAt m a v) = true := by
  induction m with
  | nil => simp [insertAt, keysAbove, h]
  | cons e m ih =>
    obtain ⟨k, w⟩ := e
    simp only [keysAbove, Bool.and_eq_true, decide_eq_true_eq] at hm
    simp only [insertAt]
    split
    · simp [keysAbove, h, hm.1, hm.2]
    · split
      · simp [keysAbove, h, hm.2]
      · simp [keysAbove, hm.1, ih hm.2]

theorem keysAbove_eraseAt {a b : Nat} (m : SMap α) (hm : keysAbove b m = true) : keysAbove b (eraseAt m a) = true := by
  induction m with
  | nil => rfl
  | cons e m ih =>
    obtain ⟨k, w⟩ := e
    simp only [keysAbove, Bool.and_eq_true, decide_eq_true_eq] at hm
    simp only [eraseAt]
    split
    · exact ih hm.2
    · simp [keysAbove, hm.1, ih hm.2]

theorem keysAbove_filter (p : Nat × α → Bool) {b : Nat} (m : SMap α) (hm : keysAbove b m = true) :
    keysAbove b (m.filter p) = true := by
  induction m with
  | nil => rfl
  | cons e m ih =>
    obtain ⟨k, w⟩ := e
    simp only [keysAbove, Bool.and_eq_true, decide_eq_true_eq] at hm
    simp only [List.filter]
    split
    · simp [keysAbove, hm.1, ih hm.2]
    · exact ih hm.2

section
variable [DecidableEq α]

theorem SMapWf_eraseAt (d : Nat → α) (m : SMap α) (a : Nat) (hm : SMapWf d m = true) : SMapWf d (eraseAt m a) = true := by
  induction m with
  | nil => rfl
  | cons e m ih =>
    obtain ⟨k, w⟩ := e
    simp only [SMapWf, Bool.and_eq_true, decide_eq_true_eq] at hm
    simp only [eraseAt]
    split
    · exact ih hm.2
    · simp only [SMapWf, Bool.and_eq_true, decide_eq_true_eq]
      exact ⟨⟨hm.1.1, keysAbove_eraseAt m hm.1.2⟩, ih hm.2⟩

theorem SMapWf_insertAt (d : Nat → α) (m : SMap α) (a : Nat) (v : α) (hv : v ≠ d a) (hm : SMapWf d m = true) :
    SMapWf d (insertAt m a v) = true := by
  induction m with
  | nil => simp [insertAt, SMapWf, keysAbove, hv]
  | cons e m ih =>
    obtain ⟨k, w⟩ := e
    simp only [SMapWf, Bool.and_eq_true, decide_eq_true_eq] at hm
    simp only [insertAt]
    split
    · rename_i h
      simp only [SMapWf, keysAbove, Bool.and_eq_true, decide_eq_true_eq]
      exact ⟨⟨hv, h, keysAbove_trans (Nat.le_of_lt h) m hm.1.2⟩, hm⟩
    · split
      · rename_i h; subst h
        simp only [SMapWf, Bool.and_eq_true, decide_eq_true_eq]
        exact ⟨⟨hv, hm.1.2⟩, hm.2⟩
      · simp only [SMapWf, Bool.and_eq_true, decide_eq_true_eq]
        exact ⟨⟨hm.1.1, keysAbove_insertAt v m hm.1.2 (by omega)⟩, ih hm.2⟩

/-- A write keeps the canonical form. -/
theorem SMapWf_store (d : Nat → α) (m : SMap α) (a : Nat) (v : α) (hm : SMapWf d m = true) :
    SMapWf d (store (d a) m a v) = true := by
  unfold store
  split
  · exact SMapWf_eraseAt d m a hm
  · rename_i h; exact SMapWf_insertAt d m a v h hm

/-- Unlisting entries keeps the canonical form. -/
theorem SMapWf_filter (d : Nat → α) (p : Nat × α → Bool) (m : SMap α) (hm : SMapWf d m = true) :
    SMapWf d (m.filter p) = true := by
  induction m with
  | nil => rfl
  | cons e m ih =>
    obtain ⟨k, w⟩ := e
    simp only [SMapWf, Bool.and_eq_true, decide_eq_true_eq] at hm
    simp only [List.filter]
    split
    · simp only [SMapWf, Bool.and_eq_true, decide_eq_true_eq]
      exact ⟨⟨hm.1.1, keysAbove_filter p m hm.1.2⟩, ih hm.2⟩
    · exact ih hm.2

/-! ### Reading a canonical map -/

omit [DecidableEq α] in
theorem lookup_keysAbove (m : SMap α) {a b : Nat} (hm : keysAbove b m = true) (h : a ≤ b) : lookup m a = none := by
  induction m with
  | nil => rfl
  | cons e m ih =>
    obtain ⟨k, w⟩ := e
    simp only [keysAbove, Bool.and_eq_true, decide_eq_true_eq] at hm
    simp only [lookup]
    rw [if_neg (by omega)]
    exact ih hm.2

theorem lookup_filter (d : Nat → α) (p : Nat × α → Bool) (m : SMap α) (a : Nat) (hm : SMapWf d m = true) :
    lookup (m.filter p) a = (lookup m a).filter (fun v => p (a, v)) := by
  induction m with
  | nil => rfl
  | cons e m ih =>
    obtain ⟨k, w⟩ := e
    simp only [SMapWf, Bool.and_eq_true, decide_eq_true_eq] at hm
    simp only [List.filter, lookup]
    split
    · rename_i hp
      simp only [lookup]
      split
      · rename_i hk; subst hk; simp [Option.filter, hp]
      · exact ih hm.2
    · rename_i hp
      rw [ih hm.2]
      split
      · rename_i hk; subst hk
        rw [lookup_keysAbove m hm.1.2 (Nat.le_refl _)]; simp [Option.filter, hp]
      · rfl

end

end Sys2Proof.Machine
end

