-- ==== Sys2Proof/Laws/State.lean ====
section
/-! SUPPORT. What each basic update of State leaves in each field: one lemma per field per update, true by rfl; and the registers
and counters after a write. -/

namespace Sys2Proof.Machine

variable (s : State)

/-! ### wr -/

@[simp] theorem State.wr_pending (a : Nat) (v : Word) : (s.wr a v).pending = s.pending := rfl
@[simp] theorem State.wr_now (a : Nat) (v : Word) : (s.wr a v).now = s.now := rfl
@[simp] theorem State.wr_nowFrac (a : Nat) (v : Word) : (s.wr a v).nowFrac = s.nowFrac := rfl
@[simp] theorem State.wr_free (a : Nat) (v : Word) : (s.wr a v).free = s.free := rfl
@[simp] theorem State.wr_regs (a : Nat) (v : Word) : (s.wr a v).regs = store (regReset a) s.regs a v := rfl
@[simp] theorem State.wr_ctrs (a : Nat) (v : Word) : (s.wr a v).ctrs = s.ctrs := rfl
@[simp] theorem State.wr_holds (a : Nat) (v : Word) : (s.wr a v).holds = s.holds := rfl
@[simp] theorem State.wr_snaps (a : Nat) (v : Word) : (s.wr a v).snaps = s.snaps := rfl
@[simp] theorem State.wr_tvOdd (a : Nat) (v : Word) : (s.wr a v).tvOdd = s.tvOdd := rfl
@[simp] theorem State.wr_mem (a : Nat) (v : Word) : (s.wr a v).mem = s.mem := rfl
@[simp] theorem State.wr_tags (a : Nat) (v : Word) : (s.wr a v).tags = s.tags := rfl
@[simp] theorem State.wr_jobs (a : Nat) (v : Word) : (s.wr a v).jobs = s.jobs := rfl
@[simp] theorem State.wr_beat (a : Nat) (v : Word) : (s.wr a v).beat = s.beat := rfl
@[simp] theorem State.wr_tws (a : Nat) (v : Word) : (s.wr a v).tws = s.tws := rfl
@[simp] theorem State.wr_dirty (a : Nat) (v : Word) : (s.wr a v).dirty = s.dirty := rfl
@[simp] theorem State.wr_pend (a : Nat) (v : Word) : (s.wr a v).pend = s.pend := rfl
@[simp] theorem State.wr_push (a : Nat) (v : Word) : (s.wr a v).push = s.push := rfl
@[simp] theorem State.wr_rows (a : Nat) (v : Word) : (s.wr a v).rows = s.rows := rfl
@[simp] theorem State.wr_rowCmds (a : Nat) (v : Word) : (s.wr a v).rowCmds = s.rowCmds := rfl
@[simp] theorem State.wr_ledger (a : Nat) (v : Word) : (s.wr a v).ledger = s.ledger := rfl
@[simp] theorem State.wr_ledgerHeld (a : Nat) (v : Word) : (s.wr a v).ledgerHeld = s.ledgerHeld := rfl
@[simp] theorem State.wr_msixOn (a : Nat) (v : Word) : (s.wr a v).msixOn = s.msixOn := rfl
@[simp] theorem State.wr_msixTable (a : Nat) (v : Word) : (s.wr a v).msixTable = s.msixTable := rfl
@[simp] theorem State.wr_msixOpen (a : Nat) (v : Word) : (s.wr a v).msixOpen = s.msixOpen := rfl
@[simp] theorem State.wr_msixPending (a : Nat) (v : Word) : (s.wr a v).msixPending = s.msixPending := rfl
@[simp] theorem State.wr_opt (a : Nat) (v : Word) : (s.wr a v).opt = s.opt := rfl
@[simp] theorem State.wr_suspects (a : Nat) (v : Word) : (s.wr a v).suspects = s.suspects := rfl
@[simp] theorem State.wr_carder (a : Nat) (v : Word) : (s.wr a v).carder = s.carder := rfl
@[simp] theorem State.wr_ckp (a : Nat) (v : Word) : (s.wr a v).ckp = s.ckp := rfl
@[simp] theorem State.wr_heard (a : Nat) (v : Word) : (s.wr a v).heard = s.heard := rfl
@[simp] theorem State.wr_pat (a : Nat) (v : Word) : (s.wr a v).pat = s.pat := rfl
@[simp] theorem State.wr_arbs (a : Nat) (v : Word) : (s.wr a v).arbs = s.arbs := rfl
@[simp] theorem State.wr_ceSec (a : Nat) (v : Word) : (s.wr a v).ceSec = s.ceSec := rfl
@[simp] theorem State.wr_prefetch (a : Nat) (v : Word) : (s.wr a v).prefetch = s.prefetch := rfl
@[simp] theorem State.wr_lastWave (a : Nat) (v : Word) : (s.wr a v).lastWave = s.lastWave := rfl
@[simp] theorem State.wr_links (a : Nat) (v : Word) : (s.wr a v).links = s.links := rfl
@[simp] theorem State.wr_swtDraft (a : Nat) (v : Word) : (s.wr a v).swtDraft = s.swtDraft := rfl
@[simp] theorem State.wr_tbFixed (a : Nat) (v : Word) : (s.wr a v).tbFixed = s.tbFixed := rfl
@[simp] theorem State.wr_tbOffsets (a : Nat) (v : Word) : (s.wr a v).tbOffsets = s.tbOffsets := rfl
@[simp] theorem State.wr_tbHeard (a : Nat) (v : Word) : (s.wr a v).tbHeard = s.tbHeard := rfl
@[simp] theorem State.wr_rma (a : Nat) (v : Word) : (s.wr a v).rma = s.rma := rfl
@[simp] theorem State.wr_ciphers (a : Nat) (v : Word) : (s.wr a v).ciphers = s.ciphers := rfl
@[simp] theorem State.wr_ethPorts (a : Nat) (v : Word) : (s.wr a v).ethPorts = s.ethPorts := rfl
@[simp] theorem State.wr_ethRules (a : Nat) (v : Word) : (s.wr a v).ethRules = s.ethRules := rfl
@[simp] theorem State.wr_ethStage (a : Nat) (v : Word) : (s.wr a v).ethStage = s.ethStage := rfl
@[simp] theorem State.wr_policers (a : Nat) (v : Word) : (s.wr a v).policers = s.policers := rfl
@[simp] theorem State.wr_ptpSync (a : Nat) (v : Word) : (s.wr a v).ptpSync = s.ptpSync := rfl
@[simp] theorem State.wr_ptpOrigin (a : Nat) (v : Word) : (s.wr a v).ptpOrigin = s.ptpOrigin := rfl
@[simp] theorem State.wr_ptpAsk (a : Nat) (v : Word) : (s.wr a v).ptpAsk = s.ptpAsk := rfl
@[simp] theorem State.wr_host (a : Nat) (v : Word) : (s.wr a v).host = s.host := rfl
@[simp] theorem State.wr_nvme (a : Nat) (v : Word) : (s.wr a v).nvme = s.nvme := rfl
@[simp] theorem State.wr_spaces (a : Nat) (v : Word) : (s.wr a v).spaces = s.spaces := rfl
@[simp] theorem State.wr_trust (a : Nat) (v : Word) : (s.wr a v).trust = s.trust := rfl
@[simp] theorem State.wr_fuses (a : Nat) (v : Word) : (s.wr a v).fuses = s.fuses := rfl
@[simp] theorem State.wr_flash (a : Nat) (v : Word) : (s.wr a v).flash = s.flash := rfl
@[simp] theorem State.wr_cast (a : Nat) (v : Word) : (s.wr a v).cast = s.cast := rfl
@[simp] theorem State.wr_pwr (a : Nat) (v : Word) : (s.wr a v).pwr = s.pwr := rfl
@[simp] theorem State.wr_tap (a : Nat) (v : Word) : (s.wr a v).tap = s.tap := rfl
@[simp] theorem State.wr_portLinks (a : Nat) (v : Word) : (s.wr a v).portLinks = s.portLinks := rfl
@[simp] theorem State.wr_out (a : Nat) (v : Word) : (s.wr a v).out = s.out := rfl

/-! ### reach -/

@[simp] theorem State.reach_pending (t : Nat) : (s.reach t).pending = s.pending := rfl
@[simp] theorem State.reach_now (t : Nat) : (s.reach t).now = max s.now t := rfl
@[simp] theorem State.reach_nowFrac (t : Nat) : (s.reach t).nowFrac = s.nowFrac := rfl
@[simp] theorem State.reach_free (t : Nat) : (s.reach t).free = s.free := rfl
@[simp] theorem State.reach_regs (t : Nat) : (s.reach t).regs = s.regs := rfl
@[simp] theorem State.reach_ctrs (t : Nat) : (s.reach t).ctrs = s.ctrs := rfl
@[simp] theorem State.reach_holds (t : Nat) : (s.reach t).holds = s.holds := rfl
@[simp] theorem State.reach_snaps (t : Nat) : (s.reach t).snaps = s.snaps := rfl
@[simp] theorem State.reach_tvOdd (t : Nat) : (s.reach t).tvOdd = s.tvOdd := rfl
@[simp] theorem State.reach_mem (t : Nat) : (s.reach t).mem = s.mem := rfl
@[simp] theorem State.reach_tags (t : Nat) : (s.reach t).tags = s.tags := rfl
@[simp] theorem State.reach_jobs (t : Nat) : (s.reach t).jobs = s.jobs := rfl
@[simp] theorem State.reach_beat (t : Nat) : (s.reach t).beat = s.beat := rfl
@[simp] theorem State.reach_tws (t : Nat) : (s.reach t).tws = s.tws := rfl
@[simp] theorem State.reach_dirty (t : Nat) : (s.reach t).dirty = s.dirty := rfl
@[simp] theorem State.reach_pend (t : Nat) : (s.reach t).pend = s.pend := rfl
@[simp] theorem State.reach_push (t : Nat) : (s.reach t).push = s.push := rfl
@[simp] theorem State.reach_rows (t : Nat) : (s.reach t).rows = s.rows := rfl
@[simp] theorem State.reach_rowCmds (t : Nat) : (s.reach t).rowCmds = s.rowCmds := rfl
@[simp] theorem State.reach_ledger (t : Nat) : (s.reach t).ledger = s.ledger := rfl
@[simp] theorem State.reach_ledgerHeld (t : Nat) : (s.reach t).ledgerHeld = s.ledgerHeld := rfl
@[simp] theorem State.reach_msixOn (t : Nat) : (s.reach t).msixOn = s.msixOn := rfl
@[simp] theorem State.reach_msixTable (t : Nat) : (s.reach t).msixTable = s.msixTable := rfl
@[simp] theorem State.reach_msixOpen (t : Nat) : (s.reach t).msixOpen = s.msixOpen := rfl
@[simp] theorem State.reach_msixPending (t : Nat) : (s.reach t).msixPending = s.msixPending := rfl
@[simp] theorem State.reach_opt (t : Nat) : (s.reach t).opt = s.opt := rfl
@[simp] theorem State.reach_suspects (t : Nat) : (s.reach t).suspects = s.suspects := rfl
@[simp] theorem State.reach_carder (t : Nat) : (s.reach t).carder = s.carder := rfl
@[simp] theorem State.reach_ckp (t : Nat) : (s.reach t).ckp = s.ckp := rfl
@[simp] theorem State.reach_heard (t : Nat) : (s.reach t).heard = s.heard := rfl
@[simp] theorem State.reach_pat (t : Nat) : (s.reach t).pat = s.pat := rfl
@[simp] theorem State.reach_arbs (t : Nat) : (s.reach t).arbs = s.arbs := rfl
@[simp] theorem State.reach_ceSec (t : Nat) : (s.reach t).ceSec = s.ceSec := rfl
@[simp] theorem State.reach_prefetch (t : Nat) : (s.reach t).prefetch = s.prefetch := rfl
@[simp] theorem State.reach_lastWave (t : Nat) : (s.reach t).lastWave = s.lastWave := rfl
@[simp] theorem State.reach_links (t : Nat) : (s.reach t).links = s.links := rfl
@[simp] theorem State.reach_swtDraft (t : Nat) : (s.reach t).swtDraft = s.swtDraft := rfl
@[simp] theorem State.reach_tbFixed (t : Nat) : (s.reach t).tbFixed = s.tbFixed := rfl
@[simp] theorem State.reach_tbOffsets (t : Nat) : (s.reach t).tbOffsets = s.tbOffsets := rfl
@[simp] theorem State.reach_tbHeard (t : Nat) : (s.reach t).tbHeard = s.tbHeard := rfl
@[simp] theorem State.reach_rma (t : Nat) : (s.reach t).rma = s.rma := rfl
@[simp] theorem State.reach_ciphers (t : Nat) : (s.reach t).ciphers = s.ciphers := rfl
@[simp] theorem State.reach_ethPorts (t : Nat) : (s.reach t).ethPorts = s.ethPorts := rfl
@[simp] theorem State.reach_ethRules (t : Nat) : (s.reach t).ethRules = s.ethRules := rfl
@[simp] theorem State.reach_ethStage (t : Nat) : (s.reach t).ethStage = s.ethStage := rfl
@[simp] theorem State.reach_policers (t : Nat) : (s.reach t).policers = s.policers := rfl
@[simp] theorem State.reach_ptpSync (t : Nat) : (s.reach t).ptpSync = s.ptpSync := rfl
@[simp] theorem State.reach_ptpOrigin (t : Nat) : (s.reach t).ptpOrigin = s.ptpOrigin := rfl
@[simp] theorem State.reach_ptpAsk (t : Nat) : (s.reach t).ptpAsk = s.ptpAsk := rfl
@[simp] theorem State.reach_host (t : Nat) : (s.reach t).host = s.host := rfl
@[simp] theorem State.reach_nvme (t : Nat) : (s.reach t).nvme = s.nvme := rfl
@[simp] theorem State.reach_spaces (t : Nat) : (s.reach t).spaces = s.spaces := rfl
@[simp] theorem State.reach_trust (t : Nat) : (s.reach t).trust = s.trust := rfl
@[simp] theorem State.reach_fuses (t : Nat) : (s.reach t).fuses = s.fuses := rfl
@[simp] theorem State.reach_flash (t : Nat) : (s.reach t).flash = s.flash := rfl
@[simp] theorem State.reach_cast (t : Nat) : (s.reach t).cast = s.cast := rfl
@[simp] theorem State.reach_pwr (t : Nat) : (s.reach t).pwr = s.pwr := rfl
@[simp] theorem State.reach_tap (t : Nat) : (s.reach t).tap = s.tap := rfl
@[simp] theorem State.reach_portLinks (t : Nat) : (s.reach t).portLinks = s.portLinks := rfl
@[simp] theorem State.reach_out (t : Nat) : (s.reach t).out = s.out := rfl

/-! ### useFree -/

@[simp] theorem State.useFree_pending : s.useFree.pending = s.pending := rfl
@[simp] theorem State.useFree_now : s.useFree.now = s.now := rfl
@[simp] theorem State.useFree_nowFrac : s.useFree.nowFrac = s.nowFrac := rfl
@[simp] theorem State.useFree_free : s.useFree.free = s.free + 1 := rfl
@[simp] theorem State.useFree_regs : s.useFree.regs = s.regs := rfl
@[simp] theorem State.useFree_ctrs : s.useFree.ctrs = s.ctrs := rfl
@[simp] theorem State.useFree_holds : s.useFree.holds = s.holds := rfl
@[simp] theorem State.useFree_snaps : s.useFree.snaps = s.snaps := rfl
@[simp] theorem State.useFree_tvOdd : s.useFree.tvOdd = s.tvOdd := rfl
@[simp] theorem State.useFree_mem : s.useFree.mem = s.mem := rfl
@[simp] theorem State.useFree_tags : s.useFree.tags = s.tags := rfl
@[simp] theorem State.useFree_jobs : s.useFree.jobs = s.jobs := rfl
@[simp] theorem State.useFree_beat : s.useFree.beat = s.beat := rfl
@[simp] theorem State.useFree_tws : s.useFree.tws = s.tws := rfl
@[simp] theorem State.useFree_dirty : s.useFree.dirty = s.dirty := rfl
@[simp] theorem State.useFree_pend : s.useFree.pend = s.pend := rfl
@[simp] theorem State.useFree_push : s.useFree.push = s.push := rfl
@[simp] theorem State.useFree_rows : s.useFree.rows = s.rows := rfl
@[simp] theorem State.useFree_rowCmds : s.useFree.rowCmds = s.rowCmds := rfl
@[simp] theorem State.useFree_ledger : s.useFree.ledger = s.ledger := rfl
@[simp] theorem State.useFree_ledgerHeld : s.useFree.ledgerHeld = s.ledgerHeld := rfl
@[simp] theorem State.useFree_msixOn : s.useFree.msixOn = s.msixOn := rfl
@[simp] theorem State.useFree_msixTable : s.useFree.msixTable = s.msixTable := rfl
@[simp] theorem State.useFree_msixOpen : s.useFree.msixOpen = s.msixOpen := rfl
@[simp] theorem State.useFree_msixPending : s.useFree.msixPending = s.msixPending := rfl
@[simp] theorem State.useFree_opt : s.useFree.opt = s.opt := rfl
@[simp] theorem State.useFree_suspects : s.useFree.suspects = s.suspects := rfl
@[simp] theorem State.useFree_carder : s.useFree.carder = s.carder := rfl
@[simp] theorem State.useFree_ckp : s.useFree.ckp = s.ckp := rfl
@[simp] theorem State.useFree_heard : s.useFree.heard = s.heard := rfl
@[simp] theorem State.useFree_pat : s.useFree.pat = s.pat := rfl
@[simp] theorem State.useFree_arbs : s.useFree.arbs = s.arbs := rfl
@[simp] theorem State.useFree_ceSec : s.useFree.ceSec = s.ceSec := rfl
@[simp] theorem State.useFree_prefetch : s.useFree.prefetch = s.prefetch := rfl
@[simp] theorem State.useFree_lastWave : s.useFree.lastWave = s.lastWave := rfl
@[simp] theorem State.useFree_links : s.useFree.links = s.links := rfl
@[simp] theorem State.useFree_swtDraft : s.useFree.swtDraft = s.swtDraft := rfl
@[simp] theorem State.useFree_tbFixed : s.useFree.tbFixed = s.tbFixed := rfl
@[simp] theorem State.useFree_tbOffsets : s.useFree.tbOffsets = s.tbOffsets := rfl
@[simp] theorem State.useFree_tbHeard : s.useFree.tbHeard = s.tbHeard := rfl
@[simp] theorem State.useFree_rma : s.useFree.rma = s.rma := rfl
@[simp] theorem State.useFree_ciphers : s.useFree.ciphers = s.ciphers := rfl
@[simp] theorem State.useFree_ethPorts : s.useFree.ethPorts = s.ethPorts := rfl
@[simp] theorem State.useFree_ethRules : s.useFree.ethRules = s.ethRules := rfl
@[simp] theorem State.useFree_ethStage : s.useFree.ethStage = s.ethStage := rfl
@[simp] theorem State.useFree_policers : s.useFree.policers = s.policers := rfl
@[simp] theorem State.useFree_ptpSync : s.useFree.ptpSync = s.ptpSync := rfl
@[simp] theorem State.useFree_ptpOrigin : s.useFree.ptpOrigin = s.ptpOrigin := rfl
@[simp] theorem State.useFree_ptpAsk : s.useFree.ptpAsk = s.ptpAsk := rfl
@[simp] theorem State.useFree_host : s.useFree.host = s.host := rfl
@[simp] theorem State.useFree_nvme : s.useFree.nvme = s.nvme := rfl
@[simp] theorem State.useFree_spaces : s.useFree.spaces = s.spaces := rfl
@[simp] theorem State.useFree_trust : s.useFree.trust = s.trust := rfl
@[simp] theorem State.useFree_fuses : s.useFree.fuses = s.fuses := rfl
@[simp] theorem State.useFree_flash : s.useFree.flash = s.flash := rfl
@[simp] theorem State.useFree_cast : s.useFree.cast = s.cast := rfl
@[simp] theorem State.useFree_pwr : s.useFree.pwr = s.pwr := rfl
@[simp] theorem State.useFree_tap : s.useFree.tap = s.tap := rfl
@[simp] theorem State.useFree_portLinks : s.useFree.portLinks = s.portLinks := rfl
@[simp] theorem State.useFree_out : s.useFree.out = s.out := rfl

/-! ### emit -/

@[simp] theorem State.emit_pending (o : Out) : (s.emit o).pending = s.pending := rfl
@[simp] theorem State.emit_now (o : Out) : (s.emit o).now = s.now := rfl
@[simp] theorem State.emit_nowFrac (o : Out) : (s.emit o).nowFrac = s.nowFrac := rfl
@[simp] theorem State.emit_free (o : Out) : (s.emit o).free = s.free := rfl
@[simp] theorem State.emit_regs (o : Out) : (s.emit o).regs = s.regs := rfl
@[simp] theorem State.emit_ctrs (o : Out) : (s.emit o).ctrs = s.ctrs := rfl
@[simp] theorem State.emit_holds (o : Out) : (s.emit o).holds = s.holds := rfl
@[simp] theorem State.emit_snaps (o : Out) : (s.emit o).snaps = s.snaps := rfl
@[simp] theorem State.emit_tvOdd (o : Out) : (s.emit o).tvOdd = s.tvOdd := rfl
@[simp] theorem State.emit_mem (o : Out) : (s.emit o).mem = s.mem := rfl
@[simp] theorem State.emit_tags (o : Out) : (s.emit o).tags = s.tags := rfl
@[simp] theorem State.emit_jobs (o : Out) : (s.emit o).jobs = s.jobs := rfl
@[simp] theorem State.emit_beat (o : Out) : (s.emit o).beat = s.beat := rfl
@[simp] theorem State.emit_tws (o : Out) : (s.emit o).tws = s.tws := rfl
@[simp] theorem State.emit_dirty (o : Out) : (s.emit o).dirty = s.dirty := rfl
@[simp] theorem State.emit_pend (o : Out) : (s.emit o).pend = s.pend := rfl
@[simp] theorem State.emit_push (o : Out) : (s.emit o).push = s.push := rfl
@[simp] theorem State.emit_rows (o : Out) : (s.emit o).rows = s.rows := rfl
@[simp] theorem State.emit_rowCmds (o : Out) : (s.emit o).rowCmds = s.rowCmds := rfl
@[simp] theorem State.emit_ledger (o : Out) : (s.emit o).ledger = s.ledger := rfl
@[simp] theorem State.emit_ledgerHeld (o : Out) : (s.emit o).ledgerHeld = s.ledgerHeld := rfl
@[simp] theorem State.emit_msixOn (o : Out) : (s.emit o).msixOn = s.msixOn := rfl
@[simp] theorem State.emit_msixTable (o : Out) : (s.emit o).msixTable = s.msixTable := rfl
@[simp] theorem State.emit_msixOpen (o : Out) : (s.emit o).msixOpen = s.msixOpen := rfl
@[simp] theorem State.emit_msixPending (o : Out) : (s.emit o).msixPending = s.msixPending := rfl
@[simp] theorem State.emit_opt (o : Out) : (s.emit o).opt = s.opt := rfl
@[simp] theorem State.emit_suspects (o : Out) : (s.emit o).suspects = s.suspects := rfl
@[simp] theorem State.emit_carder (o : Out) : (s.emit o).carder = s.carder := rfl
@[simp] theorem State.emit_ckp (o : Out) : (s.emit o).ckp = s.ckp := rfl
@[simp] theorem State.emit_heard (o : Out) : (s.emit o).heard = s.heard := rfl
@[simp] theorem State.emit_pat (o : Out) : (s.emit o).pat = s.pat := rfl
@[simp] theorem State.emit_arbs (o : Out) : (s.emit o).arbs = s.arbs := rfl
@[simp] theorem State.emit_ceSec (o : Out) : (s.emit o).ceSec = s.ceSec := rfl
@[simp] theorem State.emit_prefetch (o : Out) : (s.emit o).prefetch = s.prefetch := rfl
@[simp] theorem State.emit_lastWave (o : Out) : (s.emit o).lastWave = s.lastWave := rfl
@[simp] theorem State.emit_links (o : Out) : (s.emit o).links = s.links := rfl
@[simp] theorem State.emit_swtDraft (o : Out) : (s.emit o).swtDraft = s.swtDraft := rfl
@[simp] theorem State.emit_tbFixed (o : Out) : (s.emit o).tbFixed = s.tbFixed := rfl
@[simp] theorem State.emit_tbOffsets (o : Out) : (s.emit o).tbOffsets = s.tbOffsets := rfl
@[simp] theorem State.emit_tbHeard (o : Out) : (s.emit o).tbHeard = s.tbHeard := rfl
@[simp] theorem State.emit_rma (o : Out) : (s.emit o).rma = s.rma := rfl
@[simp] theorem State.emit_ciphers (o : Out) : (s.emit o).ciphers = s.ciphers := rfl
@[simp] theorem State.emit_ethPorts (o : Out) : (s.emit o).ethPorts = s.ethPorts := rfl
@[simp] theorem State.emit_ethRules (o : Out) : (s.emit o).ethRules = s.ethRules := rfl
@[simp] theorem State.emit_ethStage (o : Out) : (s.emit o).ethStage = s.ethStage := rfl
@[simp] theorem State.emit_policers (o : Out) : (s.emit o).policers = s.policers := rfl
@[simp] theorem State.emit_ptpSync (o : Out) : (s.emit o).ptpSync = s.ptpSync := rfl
@[simp] theorem State.emit_ptpOrigin (o : Out) : (s.emit o).ptpOrigin = s.ptpOrigin := rfl
@[simp] theorem State.emit_ptpAsk (o : Out) : (s.emit o).ptpAsk = s.ptpAsk := rfl
@[simp] theorem State.emit_host (o : Out) : (s.emit o).host = s.host := rfl
@[simp] theorem State.emit_nvme (o : Out) : (s.emit o).nvme = s.nvme := rfl
@[simp] theorem State.emit_spaces (o : Out) : (s.emit o).spaces = s.spaces := rfl
@[simp] theorem State.emit_trust (o : Out) : (s.emit o).trust = s.trust := rfl
@[simp] theorem State.emit_fuses (o : Out) : (s.emit o).fuses = s.fuses := rfl
@[simp] theorem State.emit_flash (o : Out) : (s.emit o).flash = s.flash := rfl
@[simp] theorem State.emit_cast (o : Out) : (s.emit o).cast = s.cast := rfl
@[simp] theorem State.emit_pwr (o : Out) : (s.emit o).pwr = s.pwr := rfl
@[simp] theorem State.emit_tap (o : Out) : (s.emit o).tap = s.tap := rfl
@[simp] theorem State.emit_portLinks (o : Out) : (s.emit o).portLinks = s.portLinks := rfl
@[simp] theorem State.emit_out (o : Out) : (s.emit o).out = s.out ++ [o] := rfl

/-! ### count -/

@[simp] theorem State.count_pending (a : Nat) : (s.count a).pending = s.pending := rfl
@[simp] theorem State.count_now (a : Nat) : (s.count a).now = s.now := rfl
@[simp] theorem State.count_nowFrac (a : Nat) : (s.count a).nowFrac = s.nowFrac := rfl
@[simp] theorem State.count_free (a : Nat) : (s.count a).free = s.free := rfl
@[simp] theorem State.count_regs (a : Nat) : (s.count a).regs = s.regs := rfl
@[simp] theorem State.count_ctrs (a : Nat) : (s.count a).ctrs = modifyAt {} s.ctrs a Counter.bump := rfl
@[simp] theorem State.count_holds (a : Nat) : (s.count a).holds = s.holds := rfl
@[simp] theorem State.count_snaps (a : Nat) : (s.count a).snaps = s.snaps := rfl
@[simp] theorem State.count_tvOdd (a : Nat) : (s.count a).tvOdd = s.tvOdd := rfl
@[simp] theorem State.count_mem (a : Nat) : (s.count a).mem = s.mem := rfl
@[simp] theorem State.count_tags (a : Nat) : (s.count a).tags = s.tags := rfl
@[simp] theorem State.count_jobs (a : Nat) : (s.count a).jobs = s.jobs := rfl
@[simp] theorem State.count_beat (a : Nat) : (s.count a).beat = s.beat := rfl
@[simp] theorem State.count_tws (a : Nat) : (s.count a).tws = s.tws := rfl
@[simp] theorem State.count_dirty (a : Nat) : (s.count a).dirty = s.dirty := rfl
@[simp] theorem State.count_pend (a : Nat) : (s.count a).pend = s.pend := rfl
@[simp] theorem State.count_push (a : Nat) : (s.count a).push = s.push := rfl
@[simp] theorem State.count_rows (a : Nat) : (s.count a).rows = s.rows := rfl
@[simp] theorem State.count_rowCmds (a : Nat) : (s.count a).rowCmds = s.rowCmds := rfl
@[simp] theorem State.count_ledger (a : Nat) : (s.count a).ledger = s.ledger := rfl
@[simp] theorem State.count_ledgerHeld (a : Nat) : (s.count a).ledgerHeld = s.ledgerHeld := rfl
@[simp] theorem State.count_msixOn (a : Nat) : (s.count a).msixOn = s.msixOn := rfl
@[simp] theorem State.count_msixTable (a : Nat) : (s.count a).msixTable = s.msixTable := rfl
@[simp] theorem State.count_msixOpen (a : Nat) : (s.count a).msixOpen = s.msixOpen := rfl
@[simp] theorem State.count_msixPending (a : Nat) : (s.count a).msixPending = s.msixPending := rfl
@[simp] theorem State.count_opt (a : Nat) : (s.count a).opt = s.opt := rfl
@[simp] theorem State.count_suspects (a : Nat) : (s.count a).suspects = s.suspects := rfl
@[simp] theorem State.count_carder (a : Nat) : (s.count a).carder = s.carder := rfl
@[simp] theorem State.count_ckp (a : Nat) : (s.count a).ckp = s.ckp := rfl
@[simp] theorem State.count_heard (a : Nat) : (s.count a).heard = s.heard := rfl
@[simp] theorem State.count_pat (a : Nat) : (s.count a).pat = s.pat := rfl
@[simp] theorem State.count_arbs (a : Nat) : (s.count a).arbs = s.arbs := rfl
@[simp] theorem State.count_ceSec (a : Nat) : (s.count a).ceSec = s.ceSec := rfl
@[simp] theorem State.count_prefetch (a : Nat) : (s.count a).prefetch = s.prefetch := rfl
@[simp] theorem State.count_lastWave (a : Nat) : (s.count a).lastWave = s.lastWave := rfl
@[simp] theorem State.count_links (a : Nat) : (s.count a).links = s.links := rfl
@[simp] theorem State.count_swtDraft (a : Nat) : (s.count a).swtDraft = s.swtDraft := rfl
@[simp] theorem State.count_tbFixed (a : Nat) : (s.count a).tbFixed = s.tbFixed := rfl
@[simp] theorem State.count_tbOffsets (a : Nat) : (s.count a).tbOffsets = s.tbOffsets := rfl
@[simp] theorem State.count_tbHeard (a : Nat) : (s.count a).tbHeard = s.tbHeard := rfl
@[simp] theorem State.count_rma (a : Nat) : (s.count a).rma = s.rma := rfl
@[simp] theorem State.count_ciphers (a : Nat) : (s.count a).ciphers = s.ciphers := rfl
@[simp] theorem State.count_ethPorts (a : Nat) : (s.count a).ethPorts = s.ethPorts := rfl
@[simp] theorem State.count_ethRules (a : Nat) : (s.count a).ethRules = s.ethRules := rfl
@[simp] theorem State.count_ethStage (a : Nat) : (s.count a).ethStage = s.ethStage := rfl
@[simp] theorem State.count_policers (a : Nat) : (s.count a).policers = s.policers := rfl
@[simp] theorem State.count_ptpSync (a : Nat) : (s.count a).ptpSync = s.ptpSync := rfl
@[simp] theorem State.count_ptpOrigin (a : Nat) : (s.count a).ptpOrigin = s.ptpOrigin := rfl
@[simp] theorem State.count_ptpAsk (a : Nat) : (s.count a).ptpAsk = s.ptpAsk := rfl
@[simp] theorem State.count_host (a : Nat) : (s.count a).host = s.host := rfl
@[simp] theorem State.count_nvme (a : Nat) : (s.count a).nvme = s.nvme := rfl
@[simp] theorem State.count_spaces (a : Nat) : (s.count a).spaces = s.spaces := rfl
@[simp] theorem State.count_trust (a : Nat) : (s.count a).trust = s.trust := rfl
@[simp] theorem State.count_fuses (a : Nat) : (s.count a).fuses = s.fuses := rfl
@[simp] theorem State.count_flash (a : Nat) : (s.count a).flash = s.flash := rfl
@[simp] theorem State.count_cast (a : Nat) : (s.count a).cast = s.cast := rfl
@[simp] theorem State.count_pwr (a : Nat) : (s.count a).pwr = s.pwr := rfl
@[simp] theorem State.count_tap (a : Nat) : (s.count a).tap = s.tap := rfl
@[simp] theorem State.count_portLinks (a : Nat) : (s.count a).portLinks = s.portLinks := rfl
@[simp] theorem State.count_out (a : Nat) : (s.count a).out = s.out := rfl

/-! ### countN -/

@[simp] theorem State.countN_pending (a k : Nat) : (s.countN a k).pending = s.pending := rfl
@[simp] theorem State.countN_now (a k : Nat) : (s.countN a k).now = s.now := rfl
@[simp] theorem State.countN_nowFrac (a k : Nat) : (s.countN a k).nowFrac = s.nowFrac := rfl
@[simp] theorem State.countN_free (a k : Nat) : (s.countN a k).free = s.free := rfl
@[simp] theorem State.countN_regs (a k : Nat) : (s.countN a k).regs = s.regs := rfl
@[simp] theorem State.countN_ctrs (a k : Nat) : (s.countN a k).ctrs = modifyAt {} s.ctrs a (fun c => c.add k) := rfl
@[simp] theorem State.countN_holds (a k : Nat) : (s.countN a k).holds = s.holds := rfl
@[simp] theorem State.countN_snaps (a k : Nat) : (s.countN a k).snaps = s.snaps := rfl
@[simp] theorem State.countN_tvOdd (a k : Nat) : (s.countN a k).tvOdd = s.tvOdd := rfl
@[simp] theorem State.countN_mem (a k : Nat) : (s.countN a k).mem = s.mem := rfl
@[simp] theorem State.countN_tags (a k : Nat) : (s.countN a k).tags = s.tags := rfl
@[simp] theorem State.countN_jobs (a k : Nat) : (s.countN a k).jobs = s.jobs := rfl
@[simp] theorem State.countN_beat (a k : Nat) : (s.countN a k).beat = s.beat := rfl
@[simp] theorem State.countN_tws (a k : Nat) : (s.countN a k).tws = s.tws := rfl
@[simp] theorem State.countN_dirty (a k : Nat) : (s.countN a k).dirty = s.dirty := rfl
@[simp] theorem State.countN_pend (a k : Nat) : (s.countN a k).pend = s.pend := rfl
@[simp] theorem State.countN_push (a k : Nat) : (s.countN a k).push = s.push := rfl
@[simp] theorem State.countN_rows (a k : Nat) : (s.countN a k).rows = s.rows := rfl
@[simp] theorem State.countN_rowCmds (a k : Nat) : (s.countN a k).rowCmds = s.rowCmds := rfl
@[simp] theorem State.countN_ledger (a k : Nat) : (s.countN a k).ledger = s.ledger := rfl
@[simp] theorem State.countN_ledgerHeld (a k : Nat) : (s.countN a k).ledgerHeld = s.ledgerHeld := rfl
@[simp] theorem State.countN_msixOn (a k : Nat) : (s.countN a k).msixOn = s.msixOn := rfl
@[simp] theorem State.countN_msixTable (a k : Nat) : (s.countN a k).msixTable = s.msixTable := rfl
@[simp] theorem State.countN_msixOpen (a k : Nat) : (s.countN a k).msixOpen = s.msixOpen := rfl
@[simp] theorem State.countN_msixPending (a k : Nat) : (s.countN a k).msixPending = s.msixPending := rfl
@[simp] theorem State.countN_opt (a k : Nat) : (s.countN a k).opt = s.opt := rfl
@[simp] theorem State.countN_suspects (a k : Nat) : (s.countN a k).suspects = s.suspects := rfl
@[simp] theorem State.countN_carder (a k : Nat) : (s.countN a k).carder = s.carder := rfl
@[simp] theorem State.countN_ckp (a k : Nat) : (s.countN a k).ckp = s.ckp := rfl
@[simp] theorem State.countN_heard (a k : Nat) : (s.countN a k).heard = s.heard := rfl
@[simp] theorem State.countN_pat (a k : Nat) : (s.countN a k).pat = s.pat := rfl
@[simp] theorem State.countN_arbs (a k : Nat) : (s.countN a k).arbs = s.arbs := rfl
@[simp] theorem State.countN_ceSec (a k : Nat) : (s.countN a k).ceSec = s.ceSec := rfl
@[simp] theorem State.countN_prefetch (a k : Nat) : (s.countN a k).prefetch = s.prefetch := rfl
@[simp] theorem State.countN_lastWave (a k : Nat) : (s.countN a k).lastWave = s.lastWave := rfl
@[simp] theorem State.countN_links (a k : Nat) : (s.countN a k).links = s.links := rfl
@[simp] theorem State.countN_swtDraft (a k : Nat) : (s.countN a k).swtDraft = s.swtDraft := rfl
@[simp] theorem State.countN_tbFixed (a k : Nat) : (s.countN a k).tbFixed = s.tbFixed := rfl
@[simp] theorem State.countN_tbOffsets (a k : Nat) : (s.countN a k).tbOffsets = s.tbOffsets := rfl
@[simp] theorem State.countN_tbHeard (a k : Nat) : (s.countN a k).tbHeard = s.tbHeard := rfl
@[simp] theorem State.countN_rma (a k : Nat) : (s.countN a k).rma = s.rma := rfl
@[simp] theorem State.countN_ciphers (a k : Nat) : (s.countN a k).ciphers = s.ciphers := rfl
@[simp] theorem State.countN_ethPorts (a k : Nat) : (s.countN a k).ethPorts = s.ethPorts := rfl
@[simp] theorem State.countN_ethRules (a k : Nat) : (s.countN a k).ethRules = s.ethRules := rfl
@[simp] theorem State.countN_ethStage (a k : Nat) : (s.countN a k).ethStage = s.ethStage := rfl
@[simp] theorem State.countN_policers (a k : Nat) : (s.countN a k).policers = s.policers := rfl
@[simp] theorem State.countN_ptpSync (a k : Nat) : (s.countN a k).ptpSync = s.ptpSync := rfl
@[simp] theorem State.countN_ptpOrigin (a k : Nat) : (s.countN a k).ptpOrigin = s.ptpOrigin := rfl
@[simp] theorem State.countN_ptpAsk (a k : Nat) : (s.countN a k).ptpAsk = s.ptpAsk := rfl
@[simp] theorem State.countN_host (a k : Nat) : (s.countN a k).host = s.host := rfl
@[simp] theorem State.countN_nvme (a k : Nat) : (s.countN a k).nvme = s.nvme := rfl
@[simp] theorem State.countN_spaces (a k : Nat) : (s.countN a k).spaces = s.spaces := rfl
@[simp] theorem State.countN_trust (a k : Nat) : (s.countN a k).trust = s.trust := rfl
@[simp] theorem State.countN_fuses (a k : Nat) : (s.countN a k).fuses = s.fuses := rfl
@[simp] theorem State.countN_flash (a k : Nat) : (s.countN a k).flash = s.flash := rfl
@[simp] theorem State.countN_cast (a k : Nat) : (s.countN a k).cast = s.cast := rfl
@[simp] theorem State.countN_pwr (a k : Nat) : (s.countN a k).pwr = s.pwr := rfl
@[simp] theorem State.countN_tap (a k : Nat) : (s.countN a k).tap = s.tap := rfl
@[simp] theorem State.countN_portLinks (a k : Nat) : (s.countN a k).portLinks = s.portLinks := rfl
@[simp] theorem State.countN_out (a k : Nat) : (s.countN a k).out = s.out := rfl

/-! ### setCkp -/

@[simp] theorem State.setCkp_pending (n : Nat) (c : Ckp) : (s.setCkp n c).pending = s.pending := rfl
@[simp] theorem State.setCkp_now (n : Nat) (c : Ckp) : (s.setCkp n c).now = s.now := rfl
@[simp] theorem State.setCkp_nowFrac (n : Nat) (c : Ckp) : (s.setCkp n c).nowFrac = s.nowFrac := rfl
@[simp] theorem State.setCkp_free (n : Nat) (c : Ckp) : (s.setCkp n c).free = s.free := rfl
@[simp] theorem State.setCkp_regs (n : Nat) (c : Ckp) : (s.setCkp n c).regs = s.regs := rfl
@[simp] theorem State.setCkp_ctrs (n : Nat) (c : Ckp) : (s.setCkp n c).ctrs = s.ctrs := rfl
@[simp] theorem State.setCkp_holds (n : Nat) (c : Ckp) : (s.setCkp n c).holds = s.holds := rfl
@[simp] theorem State.setCkp_snaps (n : Nat) (c : Ckp) : (s.setCkp n c).snaps = s.snaps := rfl
@[simp] theorem State.setCkp_tvOdd (n : Nat) (c : Ckp) : (s.setCkp n c).tvOdd = s.tvOdd := rfl
@[simp] theorem State.setCkp_mem (n : Nat) (c : Ckp) : (s.setCkp n c).mem = s.mem := rfl
@[simp] theorem State.setCkp_tags (n : Nat) (c : Ckp) : (s.setCkp n c).tags = s.tags := rfl
@[simp] theorem State.setCkp_jobs (n : Nat) (c : Ckp) : (s.setCkp n c).jobs = s.jobs := rfl
@[simp] theorem State.setCkp_beat (n : Nat) (c : Ckp) : (s.setCkp n c).beat = s.beat := rfl
@[simp] theorem State.setCkp_tws (n : Nat) (c : Ckp) : (s.setCkp n c).tws = s.tws := rfl
@[simp] theorem State.setCkp_dirty (n : Nat) (c : Ckp) : (s.setCkp n c).dirty = s.dirty := rfl
@[simp] theorem State.setCkp_pend (n : Nat) (c : Ckp) : (s.setCkp n c).pend = s.pend := rfl
@[simp] theorem State.setCkp_push (n : Nat) (c : Ckp) : (s.setCkp n c).push = s.push := rfl
@[simp] theorem State.setCkp_rows (n : Nat) (c : Ckp) : (s.setCkp n c).rows = s.rows := rfl
@[simp] theorem State.setCkp_rowCmds (n : Nat) (c : Ckp) : (s.setCkp n c).rowCmds = s.rowCmds := rfl
@[simp] theorem State.setCkp_ledger (n : Nat) (c : Ckp) : (s.setCkp n c).ledger = s.ledger := rfl
@[simp] theorem State.setCkp_ledgerHeld (n : Nat) (c : Ckp) : (s.setCkp n c).ledgerHeld = s.ledgerHeld := rfl
@[simp] theorem State.setCkp_msixOn (n : Nat) (c : Ckp) : (s.setCkp n c).msixOn = s.msixOn := rfl
@[simp] theorem State.setCkp_msixTable (n : Nat) (c : Ckp) : (s.setCkp n c).msixTable = s.msixTable := rfl
@[simp] theorem State.setCkp_msixOpen (n : Nat) (c : Ckp) : (s.setCkp n c).msixOpen = s.msixOpen := rfl
@[simp] theorem State.setCkp_msixPending (n : Nat) (c : Ckp) : (s.setCkp n c).msixPending = s.msixPending := rfl
@[simp] theorem State.setCkp_opt (n : Nat) (c : Ckp) : (s.setCkp n c).opt = s.opt := rfl
@[simp] theorem State.setCkp_suspects (n : Nat) (c : Ckp) : (s.setCkp n c).suspects = s.suspects := rfl
@[simp] theorem State.setCkp_carder (n : Nat) (c : Ckp) : (s.setCkp n c).carder = s.carder := rfl
@[simp] theorem State.setCkp_ckp (n : Nat) (c : Ckp) : (s.setCkp n c).ckp = store {} s.ckp n c := rfl
@[simp] theorem State.setCkp_heard (n : Nat) (c : Ckp) : (s.setCkp n c).heard = s.heard := rfl
@[simp] theorem State.setCkp_pat (n : Nat) (c : Ckp) : (s.setCkp n c).pat = s.pat := rfl
@[simp] theorem State.setCkp_arbs (n : Nat) (c : Ckp) : (s.setCkp n c).arbs = s.arbs := rfl
@[simp] theorem State.setCkp_ceSec (n : Nat) (c : Ckp) : (s.setCkp n c).ceSec = s.ceSec := rfl
@[simp] theorem State.setCkp_prefetch (n : Nat) (c : Ckp) : (s.setCkp n c).prefetch = s.prefetch := rfl
@[simp] theorem State.setCkp_lastWave (n : Nat) (c : Ckp) : (s.setCkp n c).lastWave = s.lastWave := rfl
@[simp] theorem State.setCkp_links (n : Nat) (c : Ckp) : (s.setCkp n c).links = s.links := rfl
@[simp] theorem State.setCkp_swtDraft (n : Nat) (c : Ckp) : (s.setCkp n c).swtDraft = s.swtDraft := rfl
@[simp] theorem State.setCkp_tbFixed (n : Nat) (c : Ckp) : (s.setCkp n c).tbFixed = s.tbFixed := rfl
@[simp] theorem State.setCkp_tbOffsets (n : Nat) (c : Ckp) : (s.setCkp n c).tbOffsets = s.tbOffsets := rfl
@[simp] theorem State.setCkp_tbHeard (n : Nat) (c : Ckp) : (s.setCkp n c).tbHeard = s.tbHeard := rfl
@[simp] theorem State.setCkp_rma (n : Nat) (c : Ckp) : (s.setCkp n c).rma = s.rma := rfl
@[simp] theorem State.setCkp_ciphers (n : Nat) (c : Ckp) : (s.setCkp n c).ciphers = s.ciphers := rfl
@[simp] theorem State.setCkp_ethPorts (n : Nat) (c : Ckp) : (s.setCkp n c).ethPorts = s.ethPorts := rfl
@[simp] theorem State.setCkp_ethRules (n : Nat) (c : Ckp) : (s.setCkp n c).ethRules = s.ethRules := rfl
@[simp] theorem State.setCkp_ethStage (n : Nat) (c : Ckp) : (s.setCkp n c).ethStage = s.ethStage := rfl
@[simp] theorem State.setCkp_policers (n : Nat) (c : Ckp) : (s.setCkp n c).policers = s.policers := rfl
@[simp] theorem State.setCkp_ptpSync (n : Nat) (c : Ckp) : (s.setCkp n c).ptpSync = s.ptpSync := rfl
@[simp] theorem State.setCkp_ptpOrigin (n : Nat) (c : Ckp) : (s.setCkp n c).ptpOrigin = s.ptpOrigin := rfl
@[simp] theorem State.setCkp_ptpAsk (n : Nat) (c : Ckp) : (s.setCkp n c).ptpAsk = s.ptpAsk := rfl
@[simp] theorem State.setCkp_host (n : Nat) (c : Ckp) : (s.setCkp n c).host = s.host := rfl
@[simp] theorem State.setCkp_nvme (n : Nat) (c : Ckp) : (s.setCkp n c).nvme = s.nvme := rfl
@[simp] theorem State.setCkp_spaces (n : Nat) (c : Ckp) : (s.setCkp n c).spaces = s.spaces := rfl
@[simp] theorem State.setCkp_trust (n : Nat) (c : Ckp) : (s.setCkp n c).trust = s.trust := rfl
@[simp] theorem State.setCkp_fuses (n : Nat) (c : Ckp) : (s.setCkp n c).fuses = s.fuses := rfl
@[simp] theorem State.setCkp_flash (n : Nat) (c : Ckp) : (s.setCkp n c).flash = s.flash := rfl
@[simp] theorem State.setCkp_cast (n : Nat) (c : Ckp) : (s.setCkp n c).cast = s.cast := rfl
@[simp] theorem State.setCkp_pwr (n : Nat) (c : Ckp) : (s.setCkp n c).pwr = s.pwr := rfl
@[simp] theorem State.setCkp_tap (n : Nat) (c : Ckp) : (s.setCkp n c).tap = s.tap := rfl
@[simp] theorem State.setCkp_portLinks (n : Nat) (c : Ckp) : (s.setCkp n c).portLinks = s.portLinks := rfl
@[simp] theorem State.setCkp_out (n : Nat) (c : Ckp) : (s.setCkp n c).out = s.out := rfl

/-! ### setSnap -/

@[simp] theorem State.setSnap_pending (b : Nat) (x : SnapBlk) : (s.setSnap b x).pending = s.pending := rfl
@[simp] theorem State.setSnap_now (b : Nat) (x : SnapBlk) : (s.setSnap b x).now = s.now := rfl
@[simp] theorem State.setSnap_nowFrac (b : Nat) (x : SnapBlk) : (s.setSnap b x).nowFrac = s.nowFrac := rfl
@[simp] theorem State.setSnap_free (b : Nat) (x : SnapBlk) : (s.setSnap b x).free = s.free := rfl
@[simp] theorem State.setSnap_regs (b : Nat) (x : SnapBlk) : (s.setSnap b x).regs = s.regs := rfl
@[simp] theorem State.setSnap_ctrs (b : Nat) (x : SnapBlk) : (s.setSnap b x).ctrs = s.ctrs := rfl
@[simp] theorem State.setSnap_holds (b : Nat) (x : SnapBlk) : (s.setSnap b x).holds = s.holds := rfl
@[simp] theorem State.setSnap_snaps (b : Nat) (x : SnapBlk) : (s.setSnap b x).snaps = store {} s.snaps b x := rfl
@[simp] theorem State.setSnap_tvOdd (b : Nat) (x : SnapBlk) : (s.setSnap b x).tvOdd = s.tvOdd := rfl
@[simp] theorem State.setSnap_mem (b : Nat) (x : SnapBlk) : (s.setSnap b x).mem = s.mem := rfl
@[simp] theorem State.setSnap_tags (b : Nat) (x : SnapBlk) : (s.setSnap b x).tags = s.tags := rfl
@[simp] theorem State.setSnap_jobs (b : Nat) (x : SnapBlk) : (s.setSnap b x).jobs = s.jobs := rfl
@[simp] theorem State.setSnap_beat (b : Nat) (x : SnapBlk) : (s.setSnap b x).beat = s.beat := rfl
@[simp] theorem State.setSnap_tws (b : Nat) (x : SnapBlk) : (s.setSnap b x).tws = s.tws := rfl
@[simp] theorem State.setSnap_dirty (b : Nat) (x : SnapBlk) : (s.setSnap b x).dirty = s.dirty := rfl
@[simp] theorem State.setSnap_pend (b : Nat) (x : SnapBlk) : (s.setSnap b x).pend = s.pend := rfl
@[simp] theorem State.setSnap_push (b : Nat) (x : SnapBlk) : (s.setSnap b x).push = s.push := rfl
@[simp] theorem State.setSnap_rows (b : Nat) (x : SnapBlk) : (s.setSnap b x).rows = s.rows := rfl
@[simp] theorem State.setSnap_rowCmds (b : Nat) (x : SnapBlk) : (s.setSnap b x).rowCmds = s.rowCmds := rfl
@[simp] theorem State.setSnap_ledger (b : Nat) (x : SnapBlk) : (s.setSnap b x).ledger = s.ledger := rfl
@[simp] theorem State.setSnap_ledgerHeld (b : Nat) (x : SnapBlk) : (s.setSnap b x).ledgerHeld = s.ledgerHeld := rfl
@[simp] theorem State.setSnap_msixOn (b : Nat) (x : SnapBlk) : (s.setSnap b x).msixOn = s.msixOn := rfl
@[simp] theorem State.setSnap_msixTable (b : Nat) (x : SnapBlk) : (s.setSnap b x).msixTable = s.msixTable := rfl
@[simp] theorem State.setSnap_msixOpen (b : Nat) (x : SnapBlk) : (s.setSnap b x).msixOpen = s.msixOpen := rfl
@[simp] theorem State.setSnap_msixPending (b : Nat) (x : SnapBlk) : (s.setSnap b x).msixPending = s.msixPending := rfl
@[simp] theorem State.setSnap_opt (b : Nat) (x : SnapBlk) : (s.setSnap b x).opt = s.opt := rfl
@[simp] theorem State.setSnap_suspects (b : Nat) (x : SnapBlk) : (s.setSnap b x).suspects = s.suspects := rfl
@[simp] theorem State.setSnap_carder (b : Nat) (x : SnapBlk) : (s.setSnap b x).carder = s.carder := rfl
@[simp] theorem State.setSnap_ckp (b : Nat) (x : SnapBlk) : (s.setSnap b x).ckp = s.ckp := rfl
@[simp] theorem State.setSnap_heard (b : Nat) (x : SnapBlk) : (s.setSnap b x).heard = s.heard := rfl
@[simp] theorem State.setSnap_pat (b : Nat) (x : SnapBlk) : (s.setSnap b x).pat = s.pat := rfl
@[simp] theorem State.setSnap_arbs (b : Nat) (x : SnapBlk) : (s.setSnap b x).arbs = s.arbs := rfl
@[simp] theorem State.setSnap_ceSec (b : Nat) (x : SnapBlk) : (s.setSnap b x).ceSec = s.ceSec := rfl
@[simp] theorem State.setSnap_prefetch (b : Nat) (x : SnapBlk) : (s.setSnap b x).prefetch = s.prefetch := rfl
@[simp] theorem State.setSnap_lastWave (b : Nat) (x : SnapBlk) : (s.setSnap b x).lastWave = s.lastWave := rfl
@[simp] theorem State.setSnap_links (b : Nat) (x : SnapBlk) : (s.setSnap b x).links = s.links := rfl
@[simp] theorem State.setSnap_swtDraft (b : Nat) (x : SnapBlk) : (s.setSnap b x).swtDraft = s.swtDraft := rfl
@[simp] theorem State.setSnap_tbFixed (b : Nat) (x : SnapBlk) : (s.setSnap b x).tbFixed = s.tbFixed := rfl
@[simp] theorem State.setSnap_tbOffsets (b : Nat) (x : SnapBlk) : (s.setSnap b x).tbOffsets = s.tbOffsets := rfl
@[simp] theorem State.setSnap_tbHeard (b : Nat) (x : SnapBlk) : (s.setSnap b x).tbHeard = s.tbHeard := rfl
@[simp] theorem State.setSnap_rma (b : Nat) (x : SnapBlk) : (s.setSnap b x).rma = s.rma := rfl
@[simp] theorem State.setSnap_ciphers (b : Nat) (x : SnapBlk) : (s.setSnap b x).ciphers = s.ciphers := rfl
@[simp] theorem State.setSnap_ethPorts (b : Nat) (x : SnapBlk) : (s.setSnap b x).ethPorts = s.ethPorts := rfl
@[simp] theorem State.setSnap_ethRules (b : Nat) (x : SnapBlk) : (s.setSnap b x).ethRules = s.ethRules := rfl
@[simp] theorem State.setSnap_ethStage (b : Nat) (x : SnapBlk) : (s.setSnap b x).ethStage = s.ethStage := rfl
@[simp] theorem State.setSnap_policers (b : Nat) (x : SnapBlk) : (s.setSnap b x).policers = s.policers := rfl
@[simp] theorem State.setSnap_ptpSync (b : Nat) (x : SnapBlk) : (s.setSnap b x).ptpSync = s.ptpSync := rfl
@[simp] theorem State.setSnap_ptpOrigin (b : Nat) (x : SnapBlk) : (s.setSnap b x).ptpOrigin = s.ptpOrigin := rfl
@[simp] theorem State.setSnap_ptpAsk (b : Nat) (x : SnapBlk) : (s.setSnap b x).ptpAsk = s.ptpAsk := rfl
@[simp] theorem State.setSnap_host (b : Nat) (x : SnapBlk) : (s.setSnap b x).host = s.host := rfl
@[simp] theorem State.setSnap_nvme (b : Nat) (x : SnapBlk) : (s.setSnap b x).nvme = s.nvme := rfl
@[simp] theorem State.setSnap_spaces (b : Nat) (x : SnapBlk) : (s.setSnap b x).spaces = s.spaces := rfl
@[simp] theorem State.setSnap_trust (b : Nat) (x : SnapBlk) : (s.setSnap b x).trust = s.trust := rfl
@[simp] theorem State.setSnap_fuses (b : Nat) (x : SnapBlk) : (s.setSnap b x).fuses = s.fuses := rfl
@[simp] theorem State.setSnap_flash (b : Nat) (x : SnapBlk) : (s.setSnap b x).flash = s.flash := rfl
@[simp] theorem State.setSnap_cast (b : Nat) (x : SnapBlk) : (s.setSnap b x).cast = s.cast := rfl
@[simp] theorem State.setSnap_pwr (b : Nat) (x : SnapBlk) : (s.setSnap b x).pwr = s.pwr := rfl
@[simp] theorem State.setSnap_tap (b : Nat) (x : SnapBlk) : (s.setSnap b x).tap = s.tap := rfl
@[simp] theorem State.setSnap_portLinks (b : Nat) (x : SnapBlk) : (s.setSnap b x).portLinks = s.portLinks := rfl
@[simp] theorem State.setSnap_out (b : Nat) (x : SnapBlk) : (s.setSnap b x).out = s.out := rfl

/-! ### setJob -/

@[simp] theorem State.setJob_pending (n : Nat) (j : Job) : (s.setJob n j).pending = s.pending := rfl
@[simp] theorem State.setJob_now (n : Nat) (j : Job) : (s.setJob n j).now = s.now := rfl
@[simp] theorem State.setJob_nowFrac (n : Nat) (j : Job) : (s.setJob n j).nowFrac = s.nowFrac := rfl
@[simp] theorem State.setJob_free (n : Nat) (j : Job) : (s.setJob n j).free = s.free := rfl
@[simp] theorem State.setJob_regs (n : Nat) (j : Job) : (s.setJob n j).regs = s.regs := rfl
@[simp] theorem State.setJob_ctrs (n : Nat) (j : Job) : (s.setJob n j).ctrs = s.ctrs := rfl
@[simp] theorem State.setJob_holds (n : Nat) (j : Job) : (s.setJob n j).holds = s.holds := rfl
@[simp] theorem State.setJob_snaps (n : Nat) (j : Job) : (s.setJob n j).snaps = s.snaps := rfl
@[simp] theorem State.setJob_tvOdd (n : Nat) (j : Job) : (s.setJob n j).tvOdd = s.tvOdd := rfl
@[simp] theorem State.setJob_mem (n : Nat) (j : Job) : (s.setJob n j).mem = s.mem := rfl
@[simp] theorem State.setJob_tags (n : Nat) (j : Job) : (s.setJob n j).tags = s.tags := rfl
@[simp] theorem State.setJob_jobs (n : Nat) (j : Job) : (s.setJob n j).jobs = store {} s.jobs n j := rfl
@[simp] theorem State.setJob_beat (n : Nat) (j : Job) : (s.setJob n j).beat = s.beat := rfl
@[simp] theorem State.setJob_tws (n : Nat) (j : Job) : (s.setJob n j).tws = s.tws := rfl
@[simp] theorem State.setJob_dirty (n : Nat) (j : Job) : (s.setJob n j).dirty = s.dirty := rfl
@[simp] theorem State.setJob_pend (n : Nat) (j : Job) : (s.setJob n j).pend = s.pend := rfl
@[simp] theorem State.setJob_push (n : Nat) (j : Job) : (s.setJob n j).push = s.push := rfl
@[simp] theorem State.setJob_rows (n : Nat) (j : Job) : (s.setJob n j).rows = s.rows := rfl
@[simp] theorem State.setJob_rowCmds (n : Nat) (j : Job) : (s.setJob n j).rowCmds = s.rowCmds := rfl
@[simp] theorem State.setJob_ledger (n : Nat) (j : Job) : (s.setJob n j).ledger = s.ledger := rfl
@[simp] theorem State.setJob_ledgerHeld (n : Nat) (j : Job) : (s.setJob n j).ledgerHeld = s.ledgerHeld := rfl
@[simp] theorem State.setJob_msixOn (n : Nat) (j : Job) : (s.setJob n j).msixOn = s.msixOn := rfl
@[simp] theorem State.setJob_msixTable (n : Nat) (j : Job) : (s.setJob n j).msixTable = s.msixTable := rfl
@[simp] theorem State.setJob_msixOpen (n : Nat) (j : Job) : (s.setJob n j).msixOpen = s.msixOpen := rfl
@[simp] theorem State.setJob_msixPending (n : Nat) (j : Job) : (s.setJob n j).msixPending = s.msixPending := rfl
@[simp] theorem State.setJob_opt (n : Nat) (j : Job) : (s.setJob n j).opt = s.opt := rfl
@[simp] theorem State.setJob_suspects (n : Nat) (j : Job) : (s.setJob n j).suspects = s.suspects := rfl
@[simp] theorem State.setJob_carder (n : Nat) (j : Job) : (s.setJob n j).carder = s.carder := rfl
@[simp] theorem State.setJob_ckp (n : Nat) (j : Job) : (s.setJob n j).ckp = s.ckp := rfl
@[simp] theorem State.setJob_heard (n : Nat) (j : Job) : (s.setJob n j).heard = s.heard := rfl
@[simp] theorem State.setJob_pat (n : Nat) (j : Job) : (s.setJob n j).pat = s.pat := rfl
@[simp] theorem State.setJob_arbs (n : Nat) (j : Job) : (s.setJob n j).arbs = s.arbs := rfl
@[simp] theorem State.setJob_ceSec (n : Nat) (j : Job) : (s.setJob n j).ceSec = s.ceSec := rfl
@[simp] theorem State.setJob_prefetch (n : Nat) (j : Job) : (s.setJob n j).prefetch = s.prefetch := rfl
@[simp] theorem State.setJob_lastWave (n : Nat) (j : Job) : (s.setJob n j).lastWave = s.lastWave := rfl
@[simp] theorem State.setJob_links (n : Nat) (j : Job) : (s.setJob n j).links = s.links := rfl
@[simp] theorem State.setJob_swtDraft (n : Nat) (j : Job) : (s.setJob n j).swtDraft = s.swtDraft := rfl
@[simp] theorem State.setJob_tbFixed (n : Nat) (j : Job) : (s.setJob n j).tbFixed = s.tbFixed := rfl
@[simp] theorem State.setJob_tbOffsets (n : Nat) (j : Job) : (s.setJob n j).tbOffsets = s.tbOffsets := rfl
@[simp] theorem State.setJob_tbHeard (n : Nat) (j : Job) : (s.setJob n j).tbHeard = s.tbHeard := rfl
@[simp] theorem State.setJob_rma (n : Nat) (j : Job) : (s.setJob n j).rma = s.rma := rfl
@[simp] theorem State.setJob_ciphers (n : Nat) (j : Job) : (s.setJob n j).ciphers = s.ciphers := rfl
@[simp] theorem State.setJob_ethPorts (n : Nat) (j : Job) : (s.setJob n j).ethPorts = s.ethPorts := rfl
@[simp] theorem State.setJob_ethRules (n : Nat) (j : Job) : (s.setJob n j).ethRules = s.ethRules := rfl
@[simp] theorem State.setJob_ethStage (n : Nat) (j : Job) : (s.setJob n j).ethStage = s.ethStage := rfl
@[simp] theorem State.setJob_policers (n : Nat) (j : Job) : (s.setJob n j).policers = s.policers := rfl
@[simp] theorem State.setJob_ptpSync (n : Nat) (j : Job) : (s.setJob n j).ptpSync = s.ptpSync := rfl
@[simp] theorem State.setJob_ptpOrigin (n : Nat) (j : Job) : (s.setJob n j).ptpOrigin = s.ptpOrigin := rfl
@[simp] theorem State.setJob_ptpAsk (n : Nat) (j : Job) : (s.setJob n j).ptpAsk = s.ptpAsk := rfl
@[simp] theorem State.setJob_host (n : Nat) (j : Job) : (s.setJob n j).host = s.host := rfl
@[simp] theorem State.setJob_nvme (n : Nat) (j : Job) : (s.setJob n j).nvme = s.nvme := rfl
@[simp] theorem State.setJob_spaces (n : Nat) (j : Job) : (s.setJob n j).spaces = s.spaces := rfl
@[simp] theorem State.setJob_trust (n : Nat) (j : Job) : (s.setJob n j).trust = s.trust := rfl
@[simp] theorem State.setJob_fuses (n : Nat) (j : Job) : (s.setJob n j).fuses = s.fuses := rfl
@[simp] theorem State.setJob_flash (n : Nat) (j : Job) : (s.setJob n j).flash = s.flash := rfl
@[simp] theorem State.setJob_cast (n : Nat) (j : Job) : (s.setJob n j).cast = s.cast := rfl
@[simp] theorem State.setJob_pwr (n : Nat) (j : Job) : (s.setJob n j).pwr = s.pwr := rfl
@[simp] theorem State.setJob_tap (n : Nat) (j : Job) : (s.setJob n j).tap = s.tap := rfl
@[simp] theorem State.setJob_portLinks (n : Nat) (j : Job) : (s.setJob n j).portLinks = s.portLinks := rfl
@[simp] theorem State.setJob_out (n : Nat) (j : Job) : (s.setJob n j).out = s.out := rfl

/-! ### setRow -/

@[simp] theorem State.setRow_pending (l : Nat) (r : Row) : (s.setRow l r).pending = s.pending := rfl
@[simp] theorem State.setRow_now (l : Nat) (r : Row) : (s.setRow l r).now = s.now := rfl
@[simp] theorem State.setRow_nowFrac (l : Nat) (r : Row) : (s.setRow l r).nowFrac = s.nowFrac := rfl
@[simp] theorem State.setRow_free (l : Nat) (r : Row) : (s.setRow l r).free = s.free := rfl
@[simp] theorem State.setRow_regs (l : Nat) (r : Row) : (s.setRow l r).regs = s.regs := rfl
@[simp] theorem State.setRow_ctrs (l : Nat) (r : Row) : (s.setRow l r).ctrs = s.ctrs := rfl
@[simp] theorem State.setRow_holds (l : Nat) (r : Row) : (s.setRow l r).holds = s.holds := rfl
@[simp] theorem State.setRow_snaps (l : Nat) (r : Row) : (s.setRow l r).snaps = s.snaps := rfl
@[simp] theorem State.setRow_tvOdd (l : Nat) (r : Row) : (s.setRow l r).tvOdd = s.tvOdd := rfl
@[simp] theorem State.setRow_mem (l : Nat) (r : Row) : (s.setRow l r).mem = s.mem := rfl
@[simp] theorem State.setRow_tags (l : Nat) (r : Row) : (s.setRow l r).tags = s.tags := rfl
@[simp] theorem State.setRow_jobs (l : Nat) (r : Row) : (s.setRow l r).jobs = s.jobs := rfl
@[simp] theorem State.setRow_beat (l : Nat) (r : Row) : (s.setRow l r).beat = s.beat := rfl
@[simp] theorem State.setRow_tws (l : Nat) (r : Row) : (s.setRow l r).tws = s.tws := rfl
@[simp] theorem State.setRow_dirty (l : Nat) (r : Row) : (s.setRow l r).dirty = s.dirty := rfl
@[simp] theorem State.setRow_pend (l : Nat) (r : Row) : (s.setRow l r).pend = s.pend := rfl
@[simp] theorem State.setRow_push (l : Nat) (r : Row) : (s.setRow l r).push = s.push := rfl
@[simp] theorem State.setRow_rows (l : Nat) (r : Row) : (s.setRow l r).rows = store {} s.rows l r := rfl
@[simp] theorem State.setRow_rowCmds (l : Nat) (r : Row) : (s.setRow l r).rowCmds = s.rowCmds := rfl
@[simp] theorem State.setRow_ledger (l : Nat) (r : Row) : (s.setRow l r).ledger = s.ledger := rfl
@[simp] theorem State.setRow_ledgerHeld (l : Nat) (r : Row) : (s.setRow l r).ledgerHeld = s.ledgerHeld := rfl
@[simp] theorem State.setRow_msixOn (l : Nat) (r : Row) : (s.setRow l r).msixOn = s.msixOn := rfl
@[simp] theorem State.setRow_msixTable (l : Nat) (r : Row) : (s.setRow l r).msixTable = s.msixTable := rfl
@[simp] theorem State.setRow_msixOpen (l : Nat) (r : Row) : (s.setRow l r).msixOpen = s.msixOpen := rfl
@[simp] theorem State.setRow_msixPending (l : Nat) (r : Row) : (s.setRow l r).msixPending = s.msixPending := rfl
@[simp] theorem State.setRow_opt (l : Nat) (r : Row) : (s.setRow l r).opt = s.opt := rfl
@[simp] theorem State.setRow_suspects (l : Nat) (r : Row) : (s.setRow l r).suspects = s.suspects := rfl
@[simp] theorem State.setRow_carder (l : Nat) (r : Row) : (s.setRow l r).carder = s.carder := rfl
@[simp] theorem State.setRow_ckp (l : Nat) (r : Row) : (s.setRow l r).ckp = s.ckp := rfl
@[simp] theorem State.setRow_heard (l : Nat) (r : Row) : (s.setRow l r).heard = s.heard := rfl
@[simp] theorem State.setRow_pat (l : Nat) (r : Row) : (s.setRow l r).pat = s.pat := rfl
@[simp] theorem State.setRow_arbs (l : Nat) (r : Row) : (s.setRow l r).arbs = s.arbs := rfl
@[simp] theorem State.setRow_ceSec (l : Nat) (r : Row) : (s.setRow l r).ceSec = s.ceSec := rfl
@[simp] theorem State.setRow_prefetch (l : Nat) (r : Row) : (s.setRow l r).prefetch = s.prefetch := rfl
@[simp] theorem State.setRow_lastWave (l : Nat) (r : Row) : (s.setRow l r).lastWave = s.lastWave := rfl
@[simp] theorem State.setRow_links (l : Nat) (r : Row) : (s.setRow l r).links = s.links := rfl
@[simp] theorem State.setRow_swtDraft (l : Nat) (r : Row) : (s.setRow l r).swtDraft = s.swtDraft := rfl
@[simp] theorem State.setRow_tbFixed (l : Nat) (r : Row) : (s.setRow l r).tbFixed = s.tbFixed := rfl
@[simp] theorem State.setRow_tbOffsets (l : Nat) (r : Row) : (s.setRow l r).tbOffsets = s.tbOffsets := rfl
@[simp] theorem State.setRow_tbHeard (l : Nat) (r : Row) : (s.setRow l r).tbHeard = s.tbHeard := rfl
@[simp] theorem State.setRow_rma (l : Nat) (r : Row) : (s.setRow l r).rma = s.rma := rfl
@[simp] theorem State.setRow_ciphers (l : Nat) (r : Row) : (s.setRow l r).ciphers = s.ciphers := rfl
@[simp] theorem State.setRow_ethPorts (l : Nat) (r : Row) : (s.setRow l r).ethPorts = s.ethPorts := rfl
@[simp] theorem State.setRow_ethRules (l : Nat) (r : Row) : (s.setRow l r).ethRules = s.ethRules := rfl
@[simp] theorem State.setRow_ethStage (l : Nat) (r : Row) : (s.setRow l r).ethStage = s.ethStage := rfl
@[simp] theorem State.setRow_policers (l : Nat) (r : Row) : (s.setRow l r).policers = s.policers := rfl
@[simp] theorem State.setRow_ptpSync (l : Nat) (r : Row) : (s.setRow l r).ptpSync = s.ptpSync := rfl
@[simp] theorem State.setRow_ptpOrigin (l : Nat) (r : Row) : (s.setRow l r).ptpOrigin = s.ptpOrigin := rfl
@[simp] theorem State.setRow_ptpAsk (l : Nat) (r : Row) : (s.setRow l r).ptpAsk = s.ptpAsk := rfl
@[simp] theorem State.setRow_host (l : Nat) (r : Row) : (s.setRow l r).host = s.host := rfl
@[simp] theorem State.setRow_nvme (l : Nat) (r : Row) : (s.setRow l r).nvme = s.nvme := rfl
@[simp] theorem State.setRow_spaces (l : Nat) (r : Row) : (s.setRow l r).spaces = s.spaces := rfl
@[simp] theorem State.setRow_trust (l : Nat) (r : Row) : (s.setRow l r).trust = s.trust := rfl
@[simp] theorem State.setRow_fuses (l : Nat) (r : Row) : (s.setRow l r).fuses = s.fuses := rfl
@[simp] theorem State.setRow_flash (l : Nat) (r : Row) : (s.setRow l r).flash = s.flash := rfl
@[simp] theorem State.setRow_cast (l : Nat) (r : Row) : (s.setRow l r).cast = s.cast := rfl
@[simp] theorem State.setRow_pwr (l : Nat) (r : Row) : (s.setRow l r).pwr = s.pwr := rfl
@[simp] theorem State.setRow_tap (l : Nat) (r : Row) : (s.setRow l r).tap = s.tap := rfl
@[simp] theorem State.setRow_portLinks (l : Nat) (r : Row) : (s.setRow l r).portLinks = s.portLinks := rfl
@[simp] theorem State.setRow_out (l : Nat) (r : Row) : (s.setRow l r).out = s.out := rfl

/-! ### wf -/

@[simp] theorem State.wf_pending (a hi lo x : Nat) : (s.wf a hi lo x).pending = s.pending := rfl
@[simp] theorem State.wf_now (a hi lo x : Nat) : (s.wf a hi lo x).now = s.now := rfl
@[simp] theorem State.wf_nowFrac (a hi lo x : Nat) : (s.wf a hi lo x).nowFrac = s.nowFrac := rfl
@[simp] theorem State.wf_free (a hi lo x : Nat) : (s.wf a hi lo x).free = s.free := rfl
@[simp] theorem State.wf_ctrs (a hi lo x : Nat) : (s.wf a hi lo x).ctrs = s.ctrs := rfl
@[simp] theorem State.wf_holds (a hi lo x : Nat) : (s.wf a hi lo x).holds = s.holds := rfl
@[simp] theorem State.wf_snaps (a hi lo x : Nat) : (s.wf a hi lo x).snaps = s.snaps := rfl
@[simp] theorem State.wf_tvOdd (a hi lo x : Nat) : (s.wf a hi lo x).tvOdd = s.tvOdd := rfl
@[simp] theorem State.wf_mem (a hi lo x : Nat) : (s.wf a hi lo x).mem = s.mem := rfl
@[simp] theorem State.wf_tags (a hi lo x : Nat) : (s.wf a hi lo x).tags = s.tags := rfl
@[simp] theorem State.wf_jobs (a hi lo x : Nat) : (s.wf a hi lo x).jobs = s.jobs := rfl
@[simp] theorem State.wf_beat (a hi lo x : Nat) : (s.wf a hi lo x).beat = s.beat := rfl
@[simp] theorem State.wf_tws (a hi lo x : Nat) : (s.wf a hi lo x).tws = s.tws := rfl
@[simp] theorem State.wf_dirty (a hi lo x : Nat) : (s.wf a hi lo x).dirty = s.dirty := rfl
@[simp] theorem State.wf_pend (a hi lo x : Nat) : (s.wf a hi lo x).pend = s.pend := rfl
@[simp] theorem State.wf_push (a hi lo x : Nat) : (s.wf a hi lo x).push = s.push := rfl
@[simp] theorem State.wf_rows (a hi lo x : Nat) : (s.wf a hi lo x).rows = s.rows := rfl
@[simp] theorem State.wf_rowCmds (a hi lo x : Nat) : (s.wf a hi lo x).rowCmds = s.rowCmds := rfl
@[simp] theorem State.wf_ledger (a hi lo x : Nat) : (s.wf a hi lo x).ledger = s.ledger := rfl
@[simp] theorem State.wf_ledgerHeld (a hi lo x : Nat) : (s.wf a hi lo x).ledgerHeld = s.ledgerHeld := rfl
@[simp] theorem State.wf_msixOn (a hi lo x : Nat) : (s.wf a hi lo x).msixOn = s.msixOn := rfl
@[simp] theorem State.wf_msixTable (a hi lo x : Nat) : (s.wf a hi lo x).msixTable = s.msixTable := rfl
@[simp] theorem State.wf_msixOpen (a hi lo x : Nat) : (s.wf a hi lo x).msixOpen = s.msixOpen := rfl
@[simp] theorem State.wf_msixPending (a hi lo x : Nat) : (s.wf a hi lo x).msixPending = s.msixPending := rfl
@[simp] theorem State.wf_opt (a hi lo x : Nat) : (s.wf a hi lo x).opt = s.opt := rfl
@[simp] theorem State.wf_suspects (a hi lo x : Nat) : (s.wf a hi lo x).suspects = s.suspects := rfl
@[simp] theorem State.wf_carder (a hi lo x : Nat) : (s.wf a hi lo x).carder = s.carder := rfl
@[simp] theorem State.wf_ckp (a hi lo x : Nat) : (s.wf a hi lo x).ckp = s.ckp := rfl
@[simp] theorem State.wf_heard (a hi lo x : Nat) : (s.wf a hi lo x).heard = s.heard := rfl
@[simp] theorem State.wf_pat (a hi lo x : Nat) : (s.wf a hi lo x).pat = s.pat := rfl
@[simp] theorem State.wf_arbs (a hi lo x : Nat) : (s.wf a hi lo x).arbs = s.arbs := rfl
@[simp] theorem State.wf_ceSec (a hi lo x : Nat) : (s.wf a hi lo x).ceSec = s.ceSec := rfl
@[simp] theorem State.wf_prefetch (a hi lo x : Nat) : (s.wf a hi lo x).prefetch = s.prefetch := rfl
@[simp] theorem State.wf_lastWave (a hi lo x : Nat) : (s.wf a hi lo x).lastWave = s.lastWave := rfl
@[simp] theorem State.wf_links (a hi lo x : Nat) : (s.wf a hi lo x).links = s.links := rfl
@[simp] theorem State.wf_swtDraft (a hi lo x : Nat) : (s.wf a hi lo x).swtDraft = s.swtDraft := rfl
@[simp] theorem State.wf_tbFixed (a hi lo x : Nat) : (s.wf a hi lo x).tbFixed = s.tbFixed := rfl
@[simp] theorem State.wf_tbOffsets (a hi lo x : Nat) : (s.wf a hi lo x).tbOffsets = s.tbOffsets := rfl
@[simp] theorem State.wf_tbHeard (a hi lo x : Nat) : (s.wf a hi lo x).tbHeard = s.tbHeard := rfl
@[simp] theorem State.wf_rma (a hi lo x : Nat) : (s.wf a hi lo x).rma = s.rma := rfl
@[simp] theorem State.wf_ciphers (a hi lo x : Nat) : (s.wf a hi lo x).ciphers = s.ciphers := rfl
@[simp] theorem State.wf_ethPorts (a hi lo x : Nat) : (s.wf a hi lo x).ethPorts = s.ethPorts := rfl
@[simp] theorem State.wf_ethRules (a hi lo x : Nat) : (s.wf a hi lo x).ethRules = s.ethRules := rfl
@[simp] theorem State.wf_ethStage (a hi lo x : Nat) : (s.wf a hi lo x).ethStage = s.ethStage := rfl
@[simp] theorem State.wf_policers (a hi lo x : Nat) : (s.wf a hi lo x).policers = s.policers := rfl
@[simp] theorem State.wf_ptpSync (a hi lo x : Nat) : (s.wf a hi lo x).ptpSync = s.ptpSync := rfl
@[simp] theorem State.wf_ptpOrigin (a hi lo x : Nat) : (s.wf a hi lo x).ptpOrigin = s.ptpOrigin := rfl
@[simp] theorem State.wf_ptpAsk (a hi lo x : Nat) : (s.wf a hi lo x).ptpAsk = s.ptpAsk := rfl
@[simp] theorem State.wf_host (a hi lo x : Nat) : (s.wf a hi lo x).host = s.host := rfl
@[simp] theorem State.wf_nvme (a hi lo x : Nat) : (s.wf a hi lo x).nvme = s.nvme := rfl
@[simp] theorem State.wf_spaces (a hi lo x : Nat) : (s.wf a hi lo x).spaces = s.spaces := rfl
@[simp] theorem State.wf_trust (a hi lo x : Nat) : (s.wf a hi lo x).trust = s.trust := rfl
@[simp] theorem State.wf_fuses (a hi lo x : Nat) : (s.wf a hi lo x).fuses = s.fuses := rfl
@[simp] theorem State.wf_flash (a hi lo x : Nat) : (s.wf a hi lo x).flash = s.flash := rfl
@[simp] theorem State.wf_cast (a hi lo x : Nat) : (s.wf a hi lo x).cast = s.cast := rfl
@[simp] theorem State.wf_pwr (a hi lo x : Nat) : (s.wf a hi lo x).pwr = s.pwr := rfl
@[simp] theorem State.wf_tap (a hi lo x : Nat) : (s.wf a hi lo x).tap = s.tap := rfl
@[simp] theorem State.wf_portLinks (a hi lo x : Nat) : (s.wf a hi lo x).portLinks = s.portLinks := rfl
@[simp] theorem State.wf_out (a hi lo x : Nat) : (s.wf a hi lo x).out = s.out := rfl

/-! ### event -/

@[simp] theorem State.event_pending (a i : Nat) : (s.event a i).pending = s.pending := rfl
@[simp] theorem State.event_now (a i : Nat) : (s.event a i).now = s.now := rfl
@[simp] theorem State.event_nowFrac (a i : Nat) : (s.event a i).nowFrac = s.nowFrac := rfl
@[simp] theorem State.event_free (a i : Nat) : (s.event a i).free = s.free := rfl
@[simp] theorem State.event_ctrs (a i : Nat) : (s.event a i).ctrs = s.ctrs := rfl
@[simp] theorem State.event_holds (a i : Nat) : (s.event a i).holds = s.holds := rfl
@[simp] theorem State.event_snaps (a i : Nat) : (s.event a i).snaps = s.snaps := rfl
@[simp] theorem State.event_tvOdd (a i : Nat) : (s.event a i).tvOdd = s.tvOdd := rfl
@[simp] theorem State.event_mem (a i : Nat) : (s.event a i).mem = s.mem := rfl
@[simp] theorem State.event_tags (a i : Nat) : (s.event a i).tags = s.tags := rfl
@[simp] theorem State.event_jobs (a i : Nat) : (s.event a i).jobs = s.jobs := rfl
@[simp] theorem State.event_beat (a i : Nat) : (s.event a i).beat = s.beat := rfl
@[simp] theorem State.event_tws (a i : Nat) : (s.event a i).tws = s.tws := rfl
@[simp] theorem State.event_dirty (a i : Nat) : (s.event a i).dirty = s.dirty := rfl
@[simp] theorem State.event_pend (a i : Nat) : (s.event a i).pend = s.pend := rfl
@[simp] theorem State.event_push (a i : Nat) : (s.event a i).push = s.push := rfl
@[simp] theorem State.event_rows (a i : Nat) : (s.event a i).rows = s.rows := rfl
@[simp] theorem State.event_rowCmds (a i : Nat) : (s.event a i).rowCmds = s.rowCmds := rfl
@[simp] theorem State.event_ledger (a i : Nat) : (s.event a i).ledger = s.ledger := rfl
@[simp] theorem State.event_ledgerHeld (a i : Nat) : (s.event a i).ledgerHeld = s.ledgerHeld := rfl
@[simp] theorem State.event_msixOn (a i : Nat) : (s.event a i).msixOn = s.msixOn := rfl
@[simp] theorem State.event_msixTable (a i : Nat) : (s.event a i).msixTable = s.msixTable := rfl
@[simp] theorem State.event_msixOpen (a i : Nat) : (s.event a i).msixOpen = s.msixOpen := rfl
@[simp] theorem State.event_msixPending (a i : Nat) : (s.event a i).msixPending = s.msixPending := rfl
@[simp] theorem State.event_opt (a i : Nat) : (s.event a i).opt = s.opt := rfl
@[simp] theorem State.event_suspects (a i : Nat) : (s.event a i).suspects = s.suspects := rfl
@[simp] theorem State.event_carder (a i : Nat) : (s.event a i).carder = s.carder := rfl
@[simp] theorem State.event_ckp (a i : Nat) : (s.event a i).ckp = s.ckp := rfl
@[simp] theorem State.event_heard (a i : Nat) : (s.event a i).heard = s.heard := rfl
@[simp] theorem State.event_pat (a i : Nat) : (s.event a i).pat = s.pat := rfl
@[simp] theorem State.event_arbs (a i : Nat) : (s.event a i).arbs = s.arbs := rfl
@[simp] theorem State.event_ceSec (a i : Nat) : (s.event a i).ceSec = s.ceSec := rfl
@[simp] theorem State.event_prefetch (a i : Nat) : (s.event a i).prefetch = s.prefetch := rfl
@[simp] theorem State.event_lastWave (a i : Nat) : (s.event a i).lastWave = s.lastWave := rfl
@[simp] theorem State.event_links (a i : Nat) : (s.event a i).links = s.links := rfl
@[simp] theorem State.event_swtDraft (a i : Nat) : (s.event a i).swtDraft = s.swtDraft := rfl
@[simp] theorem State.event_tbFixed (a i : Nat) : (s.event a i).tbFixed = s.tbFixed := rfl
@[simp] theorem State.event_tbOffsets (a i : Nat) : (s.event a i).tbOffsets = s.tbOffsets := rfl
@[simp] theorem State.event_tbHeard (a i : Nat) : (s.event a i).tbHeard = s.tbHeard := rfl
@[simp] theorem State.event_rma (a i : Nat) : (s.event a i).rma = s.rma := rfl
@[simp] theorem State.event_ciphers (a i : Nat) : (s.event a i).ciphers = s.ciphers := rfl
@[simp] theorem State.event_ethPorts (a i : Nat) : (s.event a i).ethPorts = s.ethPorts := rfl
@[simp] theorem State.event_ethRules (a i : Nat) : (s.event a i).ethRules = s.ethRules := rfl
@[simp] theorem State.event_ethStage (a i : Nat) : (s.event a i).ethStage = s.ethStage := rfl
@[simp] theorem State.event_policers (a i : Nat) : (s.event a i).policers = s.policers := rfl
@[simp] theorem State.event_ptpSync (a i : Nat) : (s.event a i).ptpSync = s.ptpSync := rfl
@[simp] theorem State.event_ptpOrigin (a i : Nat) : (s.event a i).ptpOrigin = s.ptpOrigin := rfl
@[simp] theorem State.event_ptpAsk (a i : Nat) : (s.event a i).ptpAsk = s.ptpAsk := rfl
@[simp] theorem State.event_host (a i : Nat) : (s.event a i).host = s.host := rfl
@[simp] theorem State.event_nvme (a i : Nat) : (s.event a i).nvme = s.nvme := rfl
@[simp] theorem State.event_spaces (a i : Nat) : (s.event a i).spaces = s.spaces := rfl
@[simp] theorem State.event_trust (a i : Nat) : (s.event a i).trust = s.trust := rfl
@[simp] theorem State.event_fuses (a i : Nat) : (s.event a i).fuses = s.fuses := rfl
@[simp] theorem State.event_flash (a i : Nat) : (s.event a i).flash = s.flash := rfl
@[simp] theorem State.event_cast (a i : Nat) : (s.event a i).cast = s.cast := rfl
@[simp] theorem State.event_pwr (a i : Nat) : (s.event a i).pwr = s.pwr := rfl
@[simp] theorem State.event_tap (a i : Nat) : (s.event a i).tap = s.tap := rfl
@[simp] theorem State.event_portLinks (a i : Nat) : (s.event a i).portLinks = s.portLinks := rfl
@[simp] theorem State.event_out (a i : Nat) : (s.event a i).out = s.out := rfl

/-! ### Registers -/

@[simp] theorem State.rd_wr_same (a : Nat) (v : Word) : (s.wr a v).rd a = v := by simp [State.rd]

theorem State.rd_wr_other {a b : Nat} (v : Word) (h : b ≠ a) : (s.wr a v).rd b = s.rd b := by
  simp [State.rd, fetch_store_other _ _ _ _ h]

theorem State.rd_wr (a b : Nat) (v : Word) : (s.wr a v).rd b = if b = a then v else s.rd b := by
  split
  · rename_i h; subst h; simp
  · rename_i h; exact s.rd_wr_other v h

@[simp] theorem State.rd_wf_same (a hi lo x : Nat) : (s.wf a hi lo x).rd a = setField (s.rd a) hi lo x := by simp [State.wf]

theorem State.rd_wf_other {a b : Nat} (hi lo x : Nat) (h : b ≠ a) : (s.wf a hi lo x).rd b = s.rd b := s.rd_wr_other _ h

@[simp] theorem State.rd_event_same (a i : Nat) : (s.event a i).rd a = scEvent (s.rd a) i := by simp [State.event]

theorem State.rd_event_other {a b : Nat} (i : Nat) (h : b ≠ a) : (s.event a i).rd b = s.rd b := s.rd_wr_other _ h

/-- An update that leaves the registers leaves every reading of them. -/
theorem State.rd_of_regs {s t : State} (h : t.regs = s.regs) (a : Nat) : t.rd a = s.rd a := by simp [State.rd, h]

theorem State.rf_of_regs {s t : State} (h : t.regs = s.regs) (a hi lo : Nat) : t.rf a hi lo = s.rf a hi lo := by
  simp [State.rf, State.rd, h]

/-! ### Counters -/

@[simp] theorem State.ctr_count_same (a : Nat) : (s.count a).ctr a = (s.ctr a).bump := by simp [State.ctr]

theorem State.ctr_count_other {a b : Nat} (h : b ≠ a) : (s.count a).ctr b = s.ctr b := by
  simp [State.ctr, fetch_modifyAt_other _ _ _ h]

@[simp] theorem State.ctr_countN_same (a k : Nat) : (s.countN a k).ctr a = (s.ctr a).add k := by simp [State.ctr]

theorem State.ctr_countN_other {a b : Nat} (k : Nat) (h : b ≠ a) : (s.countN a k).ctr b = s.ctr b := by
  simp [State.ctr, fetch_modifyAt_other _ _ _ h]

/-! ### State held by index -/

@[simp] theorem State.job_setJob_same (n : Nat) (x : Job) : (s.setJob n x).job n = x := by simp [State.job, State.setJob]

theorem State.job_setJob_other {n m : Nat} (x : Job) (h : m ≠ n) : (s.setJob n x).job m = s.job m := by
  simp [State.job, State.setJob, fetch_store_other _ _ _ _ h]

@[simp] theorem State.ckpOf_setCkp_same (n : Nat) (x : Ckp) : (s.setCkp n x).ckpOf n = x := by simp [State.ckpOf, State.setCkp]

theorem State.ckpOf_setCkp_other {n m : Nat} (x : Ckp) (h : m ≠ n) : (s.setCkp n x).ckpOf m = s.ckpOf m := by
  simp [State.ckpOf, State.setCkp, fetch_store_other _ _ _ _ h]

@[simp] theorem State.snap_setSnap_same (n : Nat) (x : SnapBlk) : (s.setSnap n x).snap n = x := by simp [State.snap, State.setSnap]

theorem State.snap_setSnap_other {n m : Nat} (x : SnapBlk) (h : m ≠ n) : (s.setSnap n x).snap m = s.snap m := by
  simp [State.snap, State.setSnap, fetch_store_other _ _ _ _ h]

@[simp] theorem State.row_setRow_same (n : Nat) (x : Row) : (s.setRow n x).row n = x := by simp [State.row, State.setRow]

theorem State.row_setRow_other {n m : Nat} (x : Row) (h : m ≠ n) : (s.setRow n x).row m = s.row m := by
  simp [State.row, State.setRow, fetch_store_other _ _ _ _ h]

@[simp] theorem State.link_setLink_same (n : Nat) (x : Link) : (s.setLink n x).link n = x := by simp [State.link, State.setLink]

theorem State.link_setLink_other {n m : Nat} (x : Link) (h : m ≠ n) : (s.setLink n x).link m = s.link m := by
  simp [State.link, State.setLink, fetch_store_other _ _ _ _ h]

@[simp] theorem State.conn_setConn_same (n : Nat) (x : RmaConn) : (s.setConn n x).conn n = x := by simp [State.conn, State.setConn]

theorem State.conn_setConn_other {n m : Nat} (x : RmaConn) (h : m ≠ n) : (s.setConn n x).conn m = s.conn m := by
  simp [State.conn, State.setConn, fetch_store_other _ _ _ _ h]

@[simp] theorem State.ethPort_setEthPort_same (n : Nat) (x : EthPort) : (s.setEthPort n x).ethPort n = x := by simp [State.ethPort, State.setEthPort]

theorem State.ethPort_setEthPort_other {n m : Nat} (x : EthPort) (h : m ≠ n) : (s.setEthPort n x).ethPort m = s.ethPort m := by
  simp [State.ethPort, State.setEthPort, fetch_store_other _ _ _ _ h]

@[simp] theorem State.ctl_setCtl_same (n : Nat) (x : NvmeCtl) : (s.setCtl n x).ctl n = x := by simp [State.ctl, State.setCtl]

theorem State.ctl_setCtl_other {n m : Nat} (x : NvmeCtl) (h : m ≠ n) : (s.setCtl n x).ctl m = s.ctl m := by
  simp [State.ctl, State.setCtl, fetch_store_other _ _ _ _ h]

@[simp] theorem State.cipher_setCipher_same (n : Nat) (x : Cipher) : (s.setCipher n x).cipher n = x := by simp [State.cipher, State.setCipher]

theorem State.cipher_setCipher_other {n m : Nat} (x : Cipher) (h : m ≠ n) : (s.setCipher n x).cipher m = s.cipher m := by
  simp [State.cipher, State.setCipher, fetch_store_other _ _ _ _ h]

end Sys2Proof.Machine
end

