-- ==== Sys2Proof/Tests/Slice0.lean ====
section
/-! SUPPORT. The model's own tests: for every statement a state and operands that meet its hypotheses, words of the needle's
encoding, and an ill-formed term for every check. -/

namespace Sys2Proof.Tests

open Sys2Proof Sys2Proof.Machine

set_option maxRecDepth 100000
set_option Elab.async false
set_option linter.unusedVariables false

/-- A part that is READY, with one slice, part 5, and its memory partitioned; the base of the witnesses. -/
def up : State :=
  ((((State.reset.wr Reg.GLB_STATUS 2).wr Reg.GLB_PART_ID 5).wr (Reg.MEM_PART 0) 0x08202020).wr (Reg.MEM_PART 1) 0x08202020).wr
    Reg.GLB_CONTRACT 1

/-- The SWT block. -/
def wBlk : Nat := 0x800000
def wSnap : State := { up with snaps := [(wBlk, ⟨true, true, false⟩)], ctrs := [(Ctr.GLB_BAD_ACC, ⟨3, false⟩)] }
def wSnapAll : State := { up with snaps := [(0, ⟨true, false, false⟩)], ctrs := [(Ctr.GLB_BAD_ACC, ⟨3, false⟩)] }
def wCount (k : Nat) : State := { up with ctrs := [(Ctr.GLB_BAD_ACC, ⟨k, false⟩)] }
def wRow (r : Nat) : RegRow := (regRow r).getD ⟨0, [], .rw, 0, 0, .cold⟩
def wEvt (v : Word) : State := (up.wr Reg.TWS_EVT v)
def wSwt : State := { up with ctrs := [(Ctr.SWT_FWD, ⟨3, false⟩), (Ctr.TWS_DUP, ⟨4, true⟩)] }

theorem witness_ScWriteBack :
    (∃ (s : State) (p r be : Nat) (v : Word), (r ∈ scRegs) ∧ (be < 16)) :=
  ⟨(wEvt 0x0700000F), 0, Reg.TWS_EVT, 15, 0x07000005, by decide +kernel⟩

theorem witness_ScEventCounts :
    (∃ (s : State) (r i : Nat), (i < 24)) ∧
    (∃ (s : State) (r i : Nat), (i < 24)) ∧
    (∃ (s : State) (r i : Nat), (i < 24)) ∧
    (∃ (s : State) (r i : Nat) (a : Nat), (i < 24) ∧ (a ≠ r)) :=
  ⟨⟨(wEvt 0xFF000001), Reg.TWS_EVT, 3, by decide +kernel⟩,
   ⟨(wEvt 0xFF000009), Reg.TWS_EVT, 3, by decide +kernel⟩,
   ⟨(wEvt 0xFF000009), Reg.TWS_EVT, 5, by decide +kernel⟩,
   ⟨up, Reg.TWS_EVT, 3, Reg.CAST_EVT, by decide +kernel⟩⟩

theorem witness_CounterSaturates :
    (∃ (s : State) (a : Nat), ((s.ctr a).count ≤ 2 ^ 48 - 1) ∧ ((s.ctr a).count < 2 ^ 48 - 1)) ∧
    (∃ (s : State) (a : Nat), ((s.ctr a).count ≤ 2 ^ 48 - 1) ∧ ((s.ctr a).count = 2 ^ 48 - 1)) ∧
    (∃ (s : State) (a : Nat) (b : Nat), ((s.ctr a).count ≤ 2 ^ 48 - 1) ∧ (b ≠ a)) ∧
    (∃ (s : State) (a : Nat), ((s.ctr a).count ≤ 2 ^ 48 - 1)) ∧
    (∃ (s : State) (a : Nat), ((s.ctr a).count ≤ 2 ^ 48 - 1)) ∧
    (∃ (s : State) (p a v : Nat), ((liveCtr a).isSome = true) ∧ (regRow a = none)) :=
  ⟨⟨(wCount 4), Ctr.GLB_BAD_ACC, by decide +kernel⟩,
   ⟨(wCount (2^48-1)), Ctr.GLB_BAD_ACC, by decide +kernel⟩,
   ⟨(wCount (2^48-1)), Ctr.GLB_BAD_ACC, 0, by decide +kernel⟩,
   ⟨(wCount (2^48-1)), Ctr.GLB_BAD_ACC, by decide +kernel⟩,
   ⟨(wCount 3), Ctr.GLB_BAD_ACC, by decide +kernel⟩,
   ⟨(wCount 3), 0, Ctr.GLB_BAD_ACC, 7, by decide +kernel⟩⟩

theorem witness_LimitedRegisters :
    (∃ (s : State) (p r st : Nat) (v : Word) (row : RegRow), ((r, st) ∈ limitedRegs) ∧ (regRow r = some row) ∧ (legalWord r v = false)) ∧
    (∃ (s : State) (p r st : Nat) (v : Word) (row : RegRow), ((r, st) ∈ limitedRegs) ∧ (regRow r = some row) ∧ (legalWord r v = true)) :=
  ⟨⟨up, 0, Reg.PWR_TLIM, 0x0100, 0, (wRow Reg.PWR_TLIM), by decide +kernel⟩,
   ⟨up, 0, Reg.PWR_TLIM, 0x0100, 0x5A5F, (wRow Reg.PWR_TLIM), by decide +kernel⟩⟩

theorem witness_RegisterAccess :
    (∃ (s : State) (p o d : Nat), (0x2400000 ≤ o) ∧ (o < 0x4000000) ∧ (o % 4 = 0)) ∧
    (∃ (s : State) (p o k d : Nat), (k = 0 ∨ (k ≠ 8 ∧ 4 < o % 4 + k) ∨ (k = 8 ∧ o % 8 ≠ 0))) ∧
    (∃ (s : State) (p d r : Nat), (r ∈ [Reg.GLB_VARIANT, Reg.GLB_PART_ID, Reg.GLB_STATUS, Reg.GLB_BEAT_SEQ, Reg.PWR_TB_SRC, Reg.SPN_CORE])) ∧
    (∃ (s : State) (p d r : Nat), (r ∈ [Reg.PWR_CTL, Reg.PWR_TLIM, Reg.PWR_ILIM, Reg.TRUST_CTL])) :=
  ⟨⟨up, 0, 0x2400000, 7, by decide +kernel⟩,
   ⟨up, 0, 0x103, 3, 7, by decide +kernel⟩,
   ⟨up, 0, 7, Reg.GLB_PART_ID, by decide +kernel⟩,
   ⟨{ up with tvOdd := [(Reg.PWR_CTL, 4)] }, 0, 7, Reg.PWR_CTL, by decide +kernel⟩⟩

theorem witness_Snapshots :
    (∃ (s : State) (b : Nat) (clr : Bool), (b ∈ blockBases) ∧ (s.ctrsGood = true) ∧ ((s.snap b).busy = false) ∧ ((s.snap b).armed = false) ∧ ((s.snap 0).busy = false) ∧ ((s.snap 0).armed = false)) ∧
    (∃ (s : State) (b : Nat) (clr : Bool), (b ∈ blockBases) ∧ (((s.snap b).busy || (s.snap b).armed || (s.snap 0).busy || (s.snap 0).armed) = true)) ∧
    (∃ (s : State) (clr : Bool), (s.ctrsGood = true) ∧ (s.anyCopy = false) ∧ ((s.snap 0).armed = false)) ∧
    (∃ (s : State) (clr : Bool), ((s.anyCopy || (s.snap 0).armed) = true)) ∧
    (∃ (s : State) (b : Nat), (b ∈ blockBases) ∧ ((s.snap b).busy = true) ∧ ((s.snap 0).busy = false) ∧ ((s.snap 0).armed = false)) ∧
    (∃ (s : State), ((s.snap 0).busy = true) ∧ (s.snaps.all (fun e => !e.2.armed) = true)) :=
  ⟨⟨(wCount 4), wBlk, true, by decide +kernel⟩,
   ⟨wSnap, wBlk, true, by decide +kernel⟩,
   ⟨(wCount 4), true, by decide +kernel⟩,
   ⟨wSnap, true, by decide +kernel⟩,
   ⟨wSnap, wBlk, by decide +kernel⟩,
   ⟨wSnapAll, by decide +kernel⟩⟩

def wOpen : State :=
  let s := (up.wr (Reg.GLB_JOB_ARG_LO 0) 0x1000).wr (Reg.MEM_PART 0) 0x08202020
  let s := s.writeB 0x1000 (record [(8, 77), (2, 3), (1, 1), (1, 0), (6, 4), (2, 9), (2, 0), (2, 1), (8, 0x1040), (8, 0x1080), (8, 0x10C0), (2, 1), (14, 0)])
  ((s.writeB 0x1040 (leBytes 8 5)).writeB 0x1080 (leBytes 4 7)).writeB 0x10C0 (leBytes 8 0x4000 ++ leBytes 4 16 ++ leBytes 4 0)
def wIn : State := { up with jobs := [(0, { isOpen := true, memb := 1, stitches := 4, members := [⟨5, 0⟩] })] }
def wAcc : TallyAcc := ⟨3, 7, 5, 1, 0, true, 0⟩
def wTwin : State := { up.wr Reg.GLB_PART_ID 0x30005 with jobs := [(0, { isOpen := true, memb := 1, jobTallies := [wAcc] })], pat := { up.pat with mirrorHalt := true } }
/-- A beat of 8 ms in state `st`, expected at 20 ms, last boundary at 12 ms. -/
def wBeat (cfg : Word) (st : Word) : State :=
  { (up.wr Reg.GLB_BEAT_CFG cfg).wr Reg.GLB_BEAT_STATE st with
    beat := { on := true, last := some 12000000, expect := 20000000, riseDue := some 12000100, fallDue := some 12100100 } }

theorem witness_JobCommands :
    (∃ (s : State) (p n : Nat), (s.hasSlice n = true) ∧ ((s.wr (Reg.GLB_JOB_CMD n) 1).jobOpenStatus n false = 0)) ∧
    (∃ (s : State) (p n : Nat), (s.hasSlice n = true) ∧ ((s.job n).isOpen = true)) ∧
    (∃ (s : State) (p n : Nat), (s.hasSlice n = true) ∧ ((s.job n).isOpen = true)) ∧
    (∃ (s : State) (p n : Nat), (s.hasSlice n = true) ∧ ((s.job n).isOpen = false)) ∧
    (∃ (s : State) (n k : Nat) (x : TallyAcc) (other : List PeerTally), (s.rf Reg.GLB_PART_ID 17 16 = 3) ∧ (x ∈ (s.job n).jobTallies) ∧ ((∀ t ∈ (s.job n).jobTallies, t.step = k)) ∧ ((∀ b ∈ other, b.tensor = x.tensor → b.digest ≠ x.digest ∨ b.elements ≠ x.elements ∨ b.poisoned ≠ x.poisoned))) :=
  ⟨⟨wOpen, 0, 0, by decide +kernel⟩,
   ⟨wIn, 0, 0, by decide +kernel⟩,
   ⟨wIn, 0, 0, by decide +kernel⟩,
   ⟨up, 0, 0, by decide +kernel⟩,
   ⟨wTwin, 0, 3, wAcc, [⟨7, 6, 1, 0, 6⟩], by decide +kernel⟩⟩

theorem witness_BeatTransitions :
    (∃ (s : State) (t : Nat), (s.beat.on = true) ∧ (let P := 1000 * s.rf Reg.GLB_BEAT_CFG 23 0; let W := 125 * s.rf Reg.GLB_BEAT_CFG 23 0; let E := s.beat.expect; let st := s.rf Reg.GLB_BEAT_STATE 2 0; (s.rf Reg.GLB_BEAT_CFG 30 30 = 1) ∧ ((st = 2 ∨ (st = 3 ∧ E ≤ t + W ∧ t ≤ E + W))))) ∧
    (∃ (s : State) (t : Nat), (s.beat.on = true) ∧ (let P := 1000 * s.rf Reg.GLB_BEAT_CFG 23 0; let W := 125 * s.rf Reg.GLB_BEAT_CFG 23 0; let E := s.beat.expect; let st := s.rf Reg.GLB_BEAT_STATE 2 0; (s.rf Reg.GLB_BEAT_CFG 30 30 = 1) ∧ (st = 3) ∧ (t + W < E))) ∧
    (∃ (s : State) (t : Nat), (s.beat.on = true) ∧ (let P := 1000 * s.rf Reg.GLB_BEAT_CFG 23 0; let W := 125 * s.rf Reg.GLB_BEAT_CFG 23 0; let E := s.beat.expect; let st := s.rf Reg.GLB_BEAT_STATE 2 0; (s.rf Reg.GLB_BEAT_CFG 30 30 = 1) ∧ (st = 3) ∧ (t = E + W))) ∧
    (∃ (s : State) (t : Nat) (b : Nat), (s.beat.on = true) ∧ (let P := 1000 * s.rf Reg.GLB_BEAT_CFG 23 0; let W := 125 * s.rf Reg.GLB_BEAT_CFG 23 0; let E := s.beat.expect; let st := s.rf Reg.GLB_BEAT_STATE 2 0; (s.rf Reg.GLB_BEAT_CFG 30 30 = 1) ∧ (s.beat.last = some b) ∧ (st = 4) ∧ (t ≤ b + P) ∧ (P ≤ 2 * (t - b)))) ∧
    (∃ (s : State) (t : Nat) (b : Nat), (s.beat.on = true) ∧ (let P := 1000 * s.rf Reg.GLB_BEAT_CFG 23 0; let W := 125 * s.rf Reg.GLB_BEAT_CFG 23 0; let E := s.beat.expect; let st := s.rf Reg.GLB_BEAT_STATE 2 0; (s.rf Reg.GLB_BEAT_CFG 30 30 = 1) ∧ (s.beat.last = some b) ∧ (st = 4) ∧ (t ≤ b + P) ∧ (2 * (t - b) < P))) ∧
    (∃ (s : State) (t : Nat) (b : Nat), (s.beat.on = true) ∧ (let P := 1000 * s.rf Reg.GLB_BEAT_CFG 23 0; let W := 125 * s.rf Reg.GLB_BEAT_CFG 23 0; let E := s.beat.expect; let st := s.rf Reg.GLB_BEAT_STATE 2 0; (s.rf Reg.GLB_BEAT_CFG 30 30 = 1) ∧ (s.beat.last = some b) ∧ (st = 4) ∧ (t = b + P))) ∧
    (∃ (s : State) (t : Nat), (s.beat.on = true) ∧ (let P := 1000 * s.rf Reg.GLB_BEAT_CFG 23 0; let W := 125 * s.rf Reg.GLB_BEAT_CFG 23 0; let E := s.beat.expect; let st := s.rf Reg.GLB_BEAT_STATE 2 0; (s.rf Reg.GLB_BEAT_CFG 30 30 = 1))) ∧
    (∃ (s : State) (t : Nat), (s.beat.on = true) ∧ (let P := 1000 * s.rf Reg.GLB_BEAT_CFG 23 0; let W := 125 * s.rf Reg.GLB_BEAT_CFG 23 0; let E := s.beat.expect; let st := s.rf Reg.GLB_BEAT_STATE 2 0; (s.rf Reg.GLB_BEAT_CFG 30 30 = 0) ∧ (t % P = 0) ∧ (s.beat.last ≠ some t))) ∧
    (∃ (s : State) (t : Nat), (s.beat.on = true) ∧ (let P := 1000 * s.rf Reg.GLB_BEAT_CFG 23 0; let W := 125 * s.rf Reg.GLB_BEAT_CFG 23 0; let E := s.beat.expect; let st := s.rf Reg.GLB_BEAT_STATE 2 0; (s.beat.riseDue = some t))) ∧
    (∃ (s : State) (t : Nat), (s.beat.on = true) ∧ (let P := 1000 * s.rf Reg.GLB_BEAT_CFG 23 0; let W := 125 * s.rf Reg.GLB_BEAT_CFG 23 0; let E := s.beat.expect; let st := s.rf Reg.GLB_BEAT_STATE 2 0; (s.beat.fallDue = some t))) :=
  ⟨⟨(wBeat 0xC0001F40 2), 15000000, by decide +kernel⟩,
   ⟨(wBeat 0xC0001F40 3), 18999999, by decide +kernel⟩,
   ⟨(wBeat 0xC0001F40 3), 21000000, by decide +kernel⟩,
   ⟨(wBeat 0xC0001F40 4), 16000000, 12000000, by decide +kernel⟩,
   ⟨(wBeat 0xC0001F40 4), 15999999, 12000000, by decide +kernel⟩,
   ⟨(wBeat 0xC0001F40 4), 20000000, 12000000, by decide +kernel⟩,
   ⟨(wBeat 0xC0001F40 4), 14000000, by decide +kernel⟩,
   ⟨(wBeat 0x80001F40 1), 16000000, by decide +kernel⟩,
   ⟨(wBeat 0x80001F40 1), 12000100, by decide +kernel⟩,
   ⟨(wBeat 0x80001F40 1), 12100100, by decide +kernel⟩⟩

theorem witness_MixPermutes :
    (∃ (id i v w : Nat), (id < 2 ^ 24) ∧ (i < 2 ^ 40) ∧ (v < 2 ^ 64) ∧ (w < 2 ^ 64) ∧ (mix id i v = mix id i w)) :=
  ⟨1, 2, 3, 3, by decide +kernel⟩



theorem witness_PlyAddition :
    (∃ (k : Nat) (a b c : List Nat), (a.length = k) ∧ (b.length = k) ∧ (c.length = k) ∧ ((∀ w ∈ a ++ b ++ c, w < 2 ^ 64))) ∧
    (∃ (k : Nat) (a b c : List Nat), (a.length = k) ∧ (b.length = k) ∧ (c.length = k) ∧ ((∀ w ∈ a ++ b ++ c, w < 2 ^ 64)) ∧ ((plyAdd k a b).2 = false) ∧ ((plyAdd k b c).2 = false) ∧ ((plyAdd k (plyAdd k a b).1 c).2 = false) ∧ ((plyAdd k a (plyAdd k b c).1).2 = false)) :=
  ⟨⟨1, [3], [4], [5], by decide +kernel⟩,
   ⟨2, [3, 4], [4, 2^63+1], [5, 2^63+2], by decide +kernel⟩⟩

theorem witness_PlyTermWords :
    (∃ (k g code scale bits : Nat) (neg : Bool) (m : Nat) (e : Int), (1 ≤ k) ∧ (k ≤ 3) ∧ (1 ≤ g) ∧ (g ≤ 255) ∧ (code < 7) ∧ (scale < 256) ∧ (bits < 2 ^ fmtBits code) ∧ (decodeElem code scale bits = .fin neg m e) ∧ (expByte (.fin neg m e) ≤ g)) :=
  ⟨2, 114, 0, 127, 0x40500000, false, 13631488, (-22), by decide +kernel⟩

/-- A reduction of two members over two blocks, at member 0, owner of block 0. -/
def wDesc : CollDesc :=
  { collId := 9, epoch := 1, kind := 1, alg := 0, tally := false, armEn := false, doneEn := false, stepEnd := false, group := 0,
    attr := 0x00010101, tensor := 7, stitches := 4, members := 2, self := 0, ownerCnt := 2, elements := 300, memberTbl := 0x1000,
    ownerTbl := 0x1040, srcAddr := 0, srcLo := 0, srcCnt := 0, accAddr := 0x2000, accLog2 := 4, gaugeAddr := 0x80000, outAddr := 0x90000,
    dstOff := 0, localEp := 1, armVal := 0, armCtr := 0, doneCtr := 0, user := 3, step := 5 }
def wColl : Coll :=
  { slice := 0, idx := 0, d := wDesc, members := [⟨5, 0, 2⟩, ⟨6, 2, 2⟩], owners := [(0, 0), (1, 1)], serial := 1, started := true }
def wJob : Job := { isOpen := true, stitches := 4, members := [⟨5, 0⟩, ⟨6, 0⟩], epoch := 1, memb := 1 }
def wTws (c : Coll) : State := { up with tws := { colls := [c] }, jobs := [(0, wJob)] }
def wRec (c : Coll) (t : Nat) : TwistRec := { up.mkRec c t 0 with srcPart := 6, spanLo := 2, spanCnt := 2 }
def wRaw : TwistRec := { wRec wColl 1 with format := 1, len := 1, payload := [0x80, 0x3F] }
def wNew : Coll := { wColl with started := false }
def wRing : State :=
  { (((((up.wr (Reg.TWS_DQ_BASE_LO 0) 0x10000).wr (Reg.TWS_CQ_BASE_LO 0) 0x20000).wr (Reg.TWS_CQ_SIZE 0) 4).wr (Reg.TWS_DQ_SIZE 0) 0x80000004).wr
      (Reg.TWS_DQ_TAIL 0) 1) with jobs := [(0, wJob)] }
/-- The ring of `wRing` with the descriptor `d` in its first entry, and its member and owner tables. -/
def wPosted (flags : Nat) : State :=
  let s := wRing.wr (Reg.SWT_MC 0 7) 0x80000000
  let s := s.writeB 0x10000 (record [(2, 9), (2, 1), (1, 1), (1, flags), (2, 0), (4, 0x00010101), (4, 7), (2, 3), (2, 1), (2, 0), (2, 1), (8, 300),
    (8, 0x1000), (8, 0x1040), (8, 0), (4, 0), (4, 0), (8, 0x2000 + 4 * 2 ^ 40), (8, 0x80000), (8, 0x90000), (8, 0), (6, 1), (2, 0),
    (4, 0), (2, 0), (2, 0), (4, 3), (6, 0), (6, 0)])
  (s.writeB 0x1000 (leBytes 8 (5 + 2 * 2 ^ 32) ++ leBytes 8 (6 + 2 * 2 ^ 16 + 2 * 2 ^ 32))).writeB 0x1040 (leBytes 8 0 ++ leBytes 8 (1 + 2 ^ 32))
def wSlot (a : Nat) (bs : List Byte) (c : Coll) : State := (wTws c).poke a bs false
/-- Block 0's slot of `wColl` taken in round 0 with gauge 0x80 and the stitches of `bits` set. -/
def wHeld (bits flags : Nat) : State :=
  ((wTws wColl).poke 0x2000 (record [(4, 0), (1, 1 + flags), (1, 0), (1, 0x80)]) false).poke (0x2000 + 64 + 2064) [BitVec.ofNat 8 bits] false
def wArm : Coll := { wNew with d := { wDesc with armEn := true } }
def wTok : Coll := { wColl with d := { wDesc with kind := 6, ownerCnt := 1, elements := 0 }, owners := [(0, 0)] }
def wPre : Coll := { wColl with d := { wDesc with kind := 5 } }
def wAll : Coll := { wColl with d := { wDesc with kind := 3 } }
def wFore : Coll := { wColl with d := { wDesc with attr := 0x00050101 } }
def wKept : Kept := { slice := 0, peer := 6, key := ackKey wRaw, msg := wRaw, timeout := 8000, count := 2 }
def wDone : Coll := { wColl with blocks := 1, finals := [0, 1] }
def wEnd : Coll := { wDone with d := { wDesc with stepEnd := true } }
def wLoose (s : State) : State := (s.wr (Reg.TWS_CQ_SIZE 0) 4).wr (Reg.TWS_CTL) 7

theorem witness_TwistQueues :
    (∃ (s : State) (p n : Nat) (v : Word), (s.hasSlice n = true) ∧ (s.tws.heldRecs.all (fun h => h.slice ≠ n) = true)) ∧
    (∃ (s : State) (n : Nat), (s.hasSlice n = true) ∧ ((s.rf (Reg.TWS_DQ_SIZE n) 31 31 = 1) ∧ ((s.sliceState n = 0) ∧ ((s.rf (Reg.TWS_DQ_HEAD n) 15 0 ≠ s.rf (Reg.TWS_DQ_TAIL n) 15 0) ∧ ((s.twsInflight < 1024) ∧ (let c := fetched s n; (s.descStatus n (s.addrOf (Reg.TWS_DQ_BASE_LO n) (Reg.TWS_DQ_BASE_HI n) + 128 * (s.rf (Reg.TWS_DQ_HEAD n) 15 0 % 2 ^ s.rf (Reg.TWS_DQ_SIZE n) 3 0)) c = 0) ∧ (let h := s.wf (Reg.TWS_DQ_HEAD n) 15 0 (s.rf (Reg.TWS_DQ_HEAD n) 15 0 + 1); let t := { h with tws := { s.tws with nextSerial := s.tws.nextSerial + 1, colls := s.tws.colls ++ [c], past := s.tws.past.filter (fun x => x.d.collId ≠ c.d.collId) } }; (t.optCollOk c = true)))))))) ∧
    (∃ (s : State) (id : Nat) (c : Coll), (s.coll? id = some c) ∧ ((c.started = false) ∧ ((c.failed = false) ∧ ((c.held = false) ∧ (((s.job c.slice).memb < 2) ∧ ((c.d.reduces = true) ∧ ((c.d.srcCnt = 0) ∧ (((∀ u < c.d.units, (c.expected c.d.self u).2 ≠ 0)) ∧ (let t := (s.clearRegion c.d).setColl { c with started := true, localTodo := [] }; (c.d.armEn = false)))))))))) ∧
    (∃ (s : State) (id : Nat) (c : Coll), (s.coll? id = some c) ∧ ((c.started = false) ∧ ((c.failed = false) ∧ ((c.held = false) ∧ (((s.job c.slice).memb < 2) ∧ ((c.d.reduces = true) ∧ ((c.d.srcCnt = 0) ∧ (((∀ u < c.d.units, (c.expected c.d.self u).2 ≠ 0)) ∧ (let t := (s.clearRegion c.d).setColl { c with started := true, localTodo := [] }; (c.d.armEn = true) ∧ (s.ctrReached (s.ctrIdx c.slice c.d.armCtr) c.d.armVal = true)))))))))) ∧
    (∃ (s : State) (id : Nat) (c : Coll), (s.coll? id = some c) ∧ ((c.started = false) ∧ ((c.failed = false) ∧ ((c.held = false) ∧ (((s.job c.slice).memb < 2) ∧ ((c.d.reduces = true) ∧ ((c.d.srcCnt = 0) ∧ (((∀ u < c.d.units, (c.expected c.d.self u).2 ≠ 0)) ∧ (let t := (s.clearRegion c.d).setColl { c with started := true, localTodo := [] }; (c.d.armEn = true)))))))))) :=
  ⟨⟨wRing, 0, 0, 0x10003, by decide +kernel⟩,
   ⟨(wPosted 0), 0, by decide +kernel⟩,
   ⟨(wTws wNew), 9, wNew, by decide +kernel⟩,
   ⟨(wTws wArm), 9, wArm, by decide +kernel⟩,
   ⟨(wTws wArm), 9, wArm, by decide +kernel⟩⟩

theorem witness_RegionCleared :
    (∃ (s : State) (d : CollDesc) (a : Nat), (s.memoryGood = true)) :=
  ⟨(wHeld 0xC 0), wDesc, 0x2000, by decide +kernel⟩

theorem witness_TwistArrival :
    (∃ (s : State) (r : TwistRec) (t : Nat), (r.type = 0 ∨ 9 ≤ r.type)) ∧
    (∃ (s : State) (r : TwistRec) (c : Coll), (1 ≤ r.type) ∧ (r.type ≤ 8) ∧ (r.piece < r.pieces) ∧ (s.coll? r.collId = some c) ∧ (r.epoch ≠ c.d.epoch)) ∧
    (∃ (s : State) (r : TwistRec) (c : Coll), (1 ≤ r.type) ∧ (r.type ≤ 8) ∧ (r.piece < r.pieces) ∧ (s.coll? r.collId = some c) ∧ (r.epoch = c.d.epoch) ∧ (c.failed = false) ∧ (c.held = false) ∧ (c.started = false)) :=
  ⟨⟨(wTws wColl), (wRec wColl 9), 3, by decide +kernel⟩,
   ⟨(wTws wColl), { wRaw with epoch := 0 }, wColl, by decide +kernel⟩,
   ⟨(wTws wNew), wRaw, wNew, by decide +kernel⟩⟩

theorem witness_ReducingRecords :
    (∃ (s : State) (r : TwistRec) (c : Coll) (i : Instr) (u : Nat), (meets s r r.type c = true) ∧ ((reducingRow c r = some (i, u)) ∧ ((u < c.d.units) ∧ (let a := c.d.slotAddr u; let bits := spanMask r.spanLo r.spanCnt c.d.total; let refused := (acked (s.settleLocal r.collId) r 1).count Ctr.TWS_NAK_NR; (s.unitDone c.d u = true))))) ∧
    (∃ (s : State) (r : TwistRec) (c : Coll) (i : Instr) (u : Nat), (meets s r r.type c = true) ∧ ((reducingRow c r = some (i, u)) ∧ ((u < c.d.units) ∧ (let a := c.d.slotAddr u; let bits := spanMask r.spanLo r.spanCnt c.d.total; let refused := (acked (s.settleLocal r.collId) r 1).count Ctr.TWS_NAK_NR; (s.unitDone c.d u = false) ∧ (s.slotBusy a = true) ∧ (s.slotBlock a ≠ u))))) ∧
    (∃ (s : State) (r : TwistRec) (c : Coll) (i : Instr) (u : Nat), (meets s r r.type c = true) ∧ ((reducingRow c r = some (i, u)) ∧ ((u < c.d.units) ∧ (let a := c.d.slotAddr u; let bits := spanMask r.spanLo r.spanCnt c.d.total; let refused := (acked (s.settleLocal r.collId) r 1).count Ctr.TWS_NAK_NR; (s.unitDone c.d u = false) ∧ (s.slotBusy a = false ∨ s.slotBlock a = u) ∧ (r.pieces = 1) ∧ (s.slotBusy a = false ∨ s.pieceMask c r a = 0))))) :=
  ⟨⟨((wTws wColl).setDone wDesc 0 true 0), wRaw, wColl, (.contribReceive wRaw), 0, by decide +kernel⟩,
   ⟨((wTws wColl).poke 0x2000 (record [(4, 16), (1, 1)]) false), wRaw, wColl, (.contribReceive wRaw), 0, by decide +kernel⟩,
   ⟨(wHeld 3 0), wRaw, wColl, (.contribReceive wRaw), 0, by decide +kernel⟩⟩

theorem witness_ConflictAndMiss :
    (∃ (s : State) (c : Coll) (u : Nat), (u < c.d.units) ∧ ((c.d.reduces = true) ∧ (let a := c.d.slotAddr u; let e := (s.count Ctr.TWS_CONFLICT).event Reg.TWS_EVT 0; (s.slotHolds a u = true)))) ∧
    (∃ (s : State) (c : Coll) (r : TwistRec), (c.d.reduces = true) ∧ ((plyWordsOf r.format = 0) ∧ (let a := c.d.slotAddr r.block; let obs := recObserved r; let u := (s.writeLe (a + 5) 1 (max obs (s.slotObs a))).slotHeader a obs (8 * bit r.poison + 16 * bit r.special); (u.slotRound a = 0) ∧ (r.miss = true ∨ u.slotGauge a < obs ∨ u.slotMiss a = true)))) :=
  ⟨⟨(wHeld 4 0), wColl, 0, by decide +kernel⟩,
   ⟨(wHeld 4 0), wColl, { wRaw with obs := 0x90 }, by decide +kernel⟩⟩

theorem witness_OwnerRecords :
    (∃ (s : State) (r : TwistRec) (c : Coll), (meets s r 3 c = true) ∧ (r.piece = 0) ∧ (r.pieces = 1) ∧ (c.openRes = []) ∧ (c.d.delivers = true ∨ c.d.prepass = true)) ∧
    (∃ (s : State) (r : TwistRec) (c : Coll), (meets s r 4 c = true) ∧ (c.d.reduces = true) ∧ (r.block < c.d.units) ∧ (s.redoTaken c r.block = false) ∧ (c.redoPend.any (fun e => e.1 = r.block) = false) ∧ ((c.expected c.d.self r.block).2 ≠ 0)) ∧
    (∃ (s : State) (id b g : Nat) (c : Coll), (s.coll? id = some c) ∧ (c.redoPend.find? (fun e => e.1 = b) = some (b, g))) ∧
    (∃ (s : State) (r : TwistRec) (c : Coll) (m : Nat), (meets s r 5 c = true) ∧ (m < c.members.length) ∧ (c.members.findIdx (fun x => x.part = r.srcPart) = m)) ∧
    (∃ (s : State) (r : TwistRec) (c : Coll), (meets s r 8 c = true) ∧ (c.d.reduces = true) ∧ (c.d.forecast = true)) ∧
    (∃ (s : State) (r : TwistRec) (c : Coll), (meets s r 7 c = true) ∧ (r.pieces = 1) ∧ (c.d.barrier = true) ∧ (c.d.tally = false) ∧ (c.released = false) ∧ (c.openRes = []) ∧ (r.len = 0) ∧ (c.entries = [])) :=
  ⟨⟨(wTws wAll), (wRec wAll 3), wAll, by decide +kernel⟩,
   ⟨(wTws wColl), { wRec wColl 4 with gauge := 0x70 }, wColl, by decide +kernel⟩,
   ⟨(wTws { wColl with redoPend := [(0, 0x70)] }), 9, 0, 0x70, { wColl with redoPend := [(0, 0x70)] }, by decide +kernel⟩,
   ⟨(wTws wColl), (wRec wColl 5), wColl, 1, by decide +kernel⟩,
   ⟨(wTws wFore), { wRec wFore 8 with len := 1, payload := [9] }, wFore, by decide +kernel⟩,
   ⟨(wTws wTok), (wRec wTok 7), wTok, by decide +kernel⟩⟩

theorem witness_TwistDelivery :
    (∃ (s : State) (peer code : Nat) (key : AckKey), (s.coll? key.collId = none)) ∧
    (∃ (s : State) (k : Kept), (s.tws.kept = [k]) ∧ (k.count + 1 < s.rf Reg.TWS_CTL 3 0)) ∧
    (∃ (s : State) (k : Kept) (c : Coll), (s.tws.kept = [k]) ∧ (s.rf Reg.TWS_CTL 3 0 ≤ k.count + 1) ∧ (s.coll? k.key.collId = some c) ∧ (c.d.epoch = k.key.epoch)) ∧
    (∃ (s : State) (id : Nat) (c : Coll), (s.coll? id = some c) ∧ ((c.complete = true) ∧ ((c.d.stepEnd = false) ∧ ((c.failed = false) ∧ ((c.held = false) ∧ ((s.cqFull c.slice = false) ∧ ((s.tws.heldRecs = []) ∧ ((c.d.doneEn = false) ∧ ((c.status = 0) ∧ (let t := s.rf (Reg.TWS_CQ_TAIL c.slice) 15 0; let l := s.rf (Reg.TWS_CQ_SIZE c.slice) 3 0; let bytes := leBytes 2 c.d.collId ++ leBytes 2 0 ++ leBytes 4 c.d.user ++ leBytes 4 c.blocksField ++ leBytes 2 (min c.redo 0xFFFF) ++ [0] ++ leBytes 1 (if t / 2 ^ l % 2 = 0 then 1 else 0); let u := ((c.d.eps.foldl (fun s e => s.emit (.notice e 3 c.d.collId c.d.epoch 0 0)) s).writeB (s.addrOf (Reg.TWS_CQ_BASE_LO c.slice) (Reg.TWS_CQ_BASE_HI c.slice) + 16 * (t % 2 ^ l)) bytes).wf (Reg.TWS_CQ_TAIL c.slice) 15 0 (t + 1); (s.tws.colls = [c]))))))))))) ∧
    (∃ (s : State) (id : Nat) (c : Coll), (s.coll? id = some c) ∧ (c.d.stepEnd = true) ∧ (c.held = false) ∧ ((c.complete || c.failed) = true) ∧ (s.tws.colls.any (fun x => x.slice = c.slice && x.d.step = c.d.step && x.serial < c.serial) = true ∨ s.stepCtr c.slice ≠ c.d.step)) ∧
    (∃ (s : State) (id : Nat) (c : Coll), (s.coll? id = some c) ∧ (c.d.stepEnd = true) ∧ (c.held = false) ∧ ((c.complete || c.failed) = true) ∧ (s.tws.colls.any (fun x => x.slice = c.slice && x.d.step = c.d.step && x.serial < c.serial) = false) ∧ (s.stepCtr c.slice = c.d.step)) :=
  ⟨⟨{ up with tws := { kept := [wKept] } }, 6, 0, (ackKey wRaw), by decide +kernel⟩,
   ⟨{ up with tws := { kept := [wKept] } }, wKept, by decide +kernel⟩,
   ⟨{ wTws wColl with tws := { colls := [wColl], kept := [{ wKept with count := 6 }] } }, { wKept with count := 6 }, wColl, by decide +kernel⟩,
   ⟨(wLoose (wTws wDone)), 9, wDone, by decide +kernel⟩,
   ⟨(wLoose (wTws wEnd)), 9, wEnd, by decide +kernel⟩,
   ⟨((wLoose (wTws wEnd)).setStep 0 5), 9, wEnd, by decide +kernel⟩⟩

/-- A minimal program: header, and code at 512 of two words, END twice. -/
def wImg : List Byte :=
  fitBytes 512 (record [(4, 0x4E444C50), (2, 1), (1, 1), (1, 0), (2, 512), (2, 512), (2, 8)]) ++ leBytes 8 0 ++ List.replicate 56 0
/-- Row `l` in state `st`, kind GENERAL, in slot `l % 8`, with the program `wImg`. -/
def wRows (st : Nat) (ls : List Nat) : State :=
  ls.foldl (fun s l => (s.wr (Reg.NDL_ROW l) (BitVec.ofNat 32 (st + 16 + 256 * (l % 8)))).setRow l { prog := imgOf wImg 0, len := 576 })
    (up.wr (Reg.NDL_ROWS 0 0) (BitVec.ofNat 32 ((ls.map (fun l => 2 ^ l)).sum)))
/-- The panel map for rows 0 to 7. -/
def wPanel (st : Nat) : State :=
  (List.range' 1 7).foldl (fun s l => s.wr (Reg.NDL_ROW l) (BitVec.ofNat 32 (1 + 16 + 256 * l))) ((wRows st [0]).wr (Reg.NDL_MAP 0) 0x76543210)
/-- A LOAD of `wImg` asked for row 0. -/
def wLoad : State :=
  let s := (((wRows 1 [0]).poke 0x10000 wImg false).poke 0x20000 [1] false)
  (((s.wr (Reg.NDL_ADDR_LO 0) 0x10000).wr (Reg.NDL_LEN 0) 576).wr (Reg.NDL_DIG_LO 0) 0x20000)
def wLoading (rounds : Nat) (chunks : List Nat) (digest : List Byte) : State :=
  ((wRows 2 [0]).setRow 0 { owner := some 0, len := 2048, chunks := chunks, rounds := rounds }).setRowCmd 0
    (some { op := 1, rows := [0], targets := [0], image := [(0, 7), (1024, 8)], len := 2048, digest := digest })
def wPausing : State := ((wRows 5 [0]).setRow 0 { owner := some 0 }).setRowCmd 0 (some { op := 3, rows := [0], targets := [0] })
def wMany : List Nat := List.range 17
def wHeldRows : State :=
  wMany.foldl (fun s l => s.setRow l { s.row l with owner := some 0 }) ((wRows 3 wMany).setRowCmd 0 (some { op := 2, rows := wMany, targets := wMany }))

theorem witness_RowsMove :
    (∃ (s : State) (p n : Nat), (n < 4) ∧ (s.hasSlice n = true) ∧ ((rowAsked s n 3).rowStatus n 3 false (s.maskRows n) = (0, 0))) ∧
    (∃ (s : State) (p n : Nat), (n < 4) ∧ (s.hasSlice n = true) ∧ ((rowAsked s n 2).rowStatus n 2 false (s.maskRows n) = (0, 0)) ∧ ((s.maskRows n).length ≤ 16)) ∧
    (∃ (s : State) (p n : Nat), (n < 4) ∧ (s.hasSlice n = true) ∧ ((rowAsked s n 4).rowStatus n 4 false (s.maskRows n) = (0, 0)) ∧ ((s.maskRows n).length ≤ 16)) ∧
    (∃ (s : State) (p n : Nat), (n < 4) ∧ (s.hasSlice n = true) ∧ ((rowAsked s n 7).rowStatus n 7 false (s.maskRows n) = (0, 0))) ∧
    (∃ (s : State) (p n op : Nat), (n < 4) ∧ (s.hasSlice n = true) ∧ (op = 2 ∨ op = 4) ∧ ((rowAsked s n op).rowStatus n op false (s.maskRows n) = (0, 0)) ∧ (16 < (s.maskRows n).length)) ∧
    (∃ (s : State) (t n op : Nat) (rows : List Nat), (n < 4) ∧ (op = 2 ∨ op = 4) ∧ (s.rowCmd n = some { op := op, rows := rows, targets := rows }) ∧ (rows = (List.range 128).filter (fun l => (s.row l).owner.isSome)) ∧ ((∀ l ∈ rows, (s.row l).owner = some n)) ∧ (s.lastWave.all (fun w => w + 1000 * s.rf Reg.CAST_CTL 23 16 ≤ t) = true) ∧ (rows ≠ [])) ∧
    (∃ (s : State) (t w : Nat), (s.lastWave = some w) ∧ (t < w + 1000 * s.rf Reg.CAST_CTL 23 16)) ∧
    (∃ (s : State) (p n op : Nat), (n < 4) ∧ ((s.hasSlice n = true) ∧ ((1 ≤ op) ∧ ((op ≤ 8) ∧ (let u := rowAsked s n op; let st := u.rowStatus n op false (s.maskRows n); (st.1 ≠ 0)))))) :=
  ⟨⟨(wRows 4 [0, 2]), 0, 0, by decide +kernel⟩,
   ⟨(wRows 3 [0, 2]), 0, 0, by decide +kernel⟩,
   ⟨(wRows 6 [0, 2]), 0, 0, by decide +kernel⟩,
   ⟨(wRows 5 [0, 2]), 0, 0, by decide +kernel⟩,
   ⟨(wRows 3 wMany), 0, 0, 2, by decide +kernel⟩,
   ⟨wHeldRows, 100000, 0, 2, wMany, by decide +kernel⟩,
   ⟨{ wHeldRows with lastWave := some 99999 }, 100000, 99999, by decide +kernel⟩,
   ⟨(wRows 4 [0, 2]), 0, 0, 2, by decide +kernel⟩⟩

theorem witness_RowLoading :
    (∃ (s : State) (p n : Nat), (n < 4) ∧ (s.hasSlice n = true) ∧ ((rowAsked s n 1).rowStatus n 1 false (s.maskRows n) = (0, 0))) ∧
    (∃ (s : State) (n l : Nat) (bad : List Nat) (c : RowCmd), (s.rowCmd n = some c) ∧ (c.op = 1) ∧ (c.rows = [l]) ∧ ((s.row l).rounds = 0) ∧ ((s.row l).chunks = []) ∧ ((s.row l).prog = [])) ∧
    (∃ (s : State) (n l : Nat) (bad : List Nat) (c : RowCmd), (s.rowState l = 2) ∧ ((s.row l).owner = some n) ∧ (s.rowCmd n = some c) ∧ (1 ≤ (s.row l).rounds) ∧ ((s.row l).complete = false) ∧ ((∀ j ∈ List.range (s.row l).chunkCount, (s.row l).chunks.contains j ∨ bad.contains j))) ∧
    (∃ (s : State) (n l : Nat) (c : RowCmd), (s.rowState l = 2) ∧ ((s.row l).owner = some n) ∧ (s.rowCmd n = some c) ∧ ((s.row l).complete = true)) :=
  ⟨⟨wLoad, 0, 0, by decide +kernel⟩,
   ⟨(wLoading 0 [] []), 0, 0, [1], { op := 1, rows := [0], targets := [0], image := [(0, 7), (1024, 8)], len := 2048, digest := [] }, by decide +kernel⟩,
   ⟨(wLoading 1 [0] []), 0, 0, [1], { op := 1, rows := [0], targets := [0], image := [(0, 7), (1024, 8)], len := 2048, digest := [] }, by decide +kernel⟩,
   ⟨(wLoading 1 [0, 1] []), 0, 0, { op := 1, rows := [0], targets := [0], image := [(0, 7), (1024, 8)], len := 2048, digest := [] }, by decide +kernel⟩⟩

theorem witness_RowImages :
    (∃ (s : State) (p n l : Nat), (n < 4) ∧ (s.hasSlice n = true) ∧ ((rowAsked s n 5).rowStatus n 5 false (s.maskRows n) = (0, 0)) ∧ (s.maskRows n = [l])) ∧
    (∃ (s : State) (p n l : Nat), (n < 4) ∧ (s.hasSlice n = true) ∧ (s.maskRows n = [l]) ∧ (s.rowSlice l = n)) ∧
    (∃ (s : State) (p n : Nat), (n < 4) ∧ (s.hasSlice n = true) ∧ (s.rf (Reg.HOST_S_STAT n) 3 0 ≤ 6)) :=
  ⟨⟨(wRows 6 [0]), 0, 0, 0, by decide +kernel⟩,
   ⟨(wRows 3 [0]), 0, 0, 0, by decide +kernel⟩,
   ⟨(wRows 4 [0, 2]), 0, 0, by decide +kernel⟩⟩

theorem witness_RowFaults :
    (∃ (s : State) (l n : Nat), (s.rowState l = 5) ∧ ((s.row l).owner = some n) ∧ (n < 5) ∧ (s.partState ≠ 3) ∧ (s.sliceState (s.rowSlice l) ≠ 1)) ∧
    (∃ (s : State) (l : Nat), (s.rowState l ≠ 5)) ∧
    (∃ (s : State) (l i : Nat), (s.rowState l = 4 ∨ s.rowState l = 5) ∧ (i < 16) ∧ ((s.needle l i).wait = .run)) ∧
    (∃ (s : State) (p n l k : Nat), (n < 4) ∧ (s.hasSlice n = true) ∧ ((rowAsked s n 8).rowStatus n 8 false (s.maskRows n) = (0, 0)) ∧ (s.maskRows n = [l]) ∧ (s.ledger.length < 4096) ∧ (k ≤ 8) ∧ ((∀ j ∈ List.range 9, j < k → s.slotDead (rowDie l) (l % 32 / 8) j = true ∨ (s.usedSlots (rowDie l) (l % 32 / 8)).contains j = true)) ∧ (s.slotDead (rowDie l) (l % 32 / 8) k = false) ∧ ((s.usedSlots (rowDie l) (l % 32 / 8)).contains k = false)) ∧
    (∃ (s : State) (d x : Nat), (d < 4)) :=
  ⟨⟨wPausing, 0, 0, by decide +kernel⟩,
   ⟨(wRows 4 [0]), 0, by decide +kernel⟩,
   ⟨(wRows 4 [0]), 0, 3, by decide +kernel⟩,
   ⟨(wPanel 1), 0, 0, 0, 8, by decide +kernel⟩,
   ⟨up, 2, 900, by decide +kernel⟩⟩

/-- A program of the words `ws` at 576, with `vec` as every trap vector, three tensors (BF16 1-ply; BF16 2-ply drawn; MXFP8 out), one function. -/
def nCode (ws : List Nat) (vec : Nat) : SMap Byte :=
  imgOf (fitBytes 256 (record [(4, 0x4E444C50), (2, 1), (1, 1), (1, 0), (2, 576), (2, 576), (2, 4 * ws.length), (2, 560), (2, 1), (2, 512), (1, 3), (1, 2),
      (2, 0), (4, 0x11), (4, 0x12)]) ++ (List.replicate 128 (leBytes 2 vec)).flatten ++
    fitBytes 16 (record [(4, 0x402), (4, 0x00010101)]) ++ fitBytes 16 (record [(4, 0x403), (4, 0x00120101)]) ++ fitBytes 16 (record [(4, 0x404), (4, 0x00010501)]) ++
    fitBytes 16 (leBytes 2 584) ++ (ws.map (fun w => leBytes 4 w)).flatten) 0
def nSeg : Nat := hbmBase 0 + 2 ^ 64 * (4096 + 2 ^ 40)
/-- A needle with small values in its registers, segments 0 and 7 over memory, and g31 at the end of its stack. -/
def nBase : Needle :=
  { g := [(0, 3), (1, 7), (2, 2 ^ 64 - 5), (3, 32), (4, 0x00E00000000000A1), (5, 128), (6, 580), (7, 2 ^ 63), (8, 5), (31, 4096)],
    v := [(1, 0x3F803F804000C0003F803F803F803F803F803F803F80BF803F803F803F803F80), (2, 0x7FFFFFFF80000000000000030000000200000001000000090000000800000007)],
    vPoison := [(3, 5)], p := [(0, 2 ^ 40), (1, 77), (8, 2 ^ 41), (9, 3)], seg := [(0, nSeg), (7, nSeg)], pc := 576, scratch := [(0, 5), (1, 6), (64, 9)] }
def nAt (st : Nat) (ws : List Nat) (vec : Nat) (n : Needle) : State :=
  (up.wr (Reg.NDL_ROW 0) (BitVec.ofNat 32 (st + 16))).setRow 0 { prog := nCode ws vec, len := 640, needles := [(0, n)] }
def wrd (op d a b x : Nat) : Nat := op * 2 ^ 26 + d * 2 ^ 21 + a * 2 ^ 16 + b * 2 ^ 11 + x
def imw (op d a i : Nat) : Nat := op * 2 ^ 26 + d * 2 ^ 21 + a * 2 ^ 16 + i
def mew (op d sp b i : Nat) : Nat := op * 2 ^ 26 + d * 2 ^ 21 + sp * 2 ^ 17 + b * 2 ^ 12 + i
/-- Needle 0 of row 0 at the word `w`. -/
def n1 (w : Nat) : State := nAt 4 [w, 0x88000000] 580 nBase
def n1h (w : Nat) (n : Needle) : State := nAt 4 [w, 0x88000000] 580 n
def nJob (s : State) : State := { s with jobs := [(0, { isOpen := true, seed := 0x1234, tallySet := [0x402] })] }
def ec : Ecc := ⟨1, [0]⟩
def e0 : Ecc := ⟨0, []⟩
def rowOf (st : Nat) (w kind : Nat) (f : Nat → Needle) : State :=
  (up.wr (Reg.NDL_ROW 0) (BitVec.ofNat 32 (st + 16 * kind))).setRow 0
    { prog := nCode [w, 0x88000000] 580, len := 640, needles := (List.range 16).map (fun i => (i, f i)) }
/-- Every needle but 0 of row 0 waits at `w`. -/
def rowWaits (st w kind : Nat) (mn : Mn) : State :=
  rowOf st w kind (fun i => if i = 0 then nBase else { nBase with wait := .collective 576 w ((collectiveRegs mn w).map nBase.gv) })
def withRow (s : State) (f : Row → Row) : State := s.setRow 0 (f (s.row 0))
def bufs : MatBuf := { fmt := 2, slices := 8, elems := [(5, 0x38), (33, 0x40), (70, 0xB8)] }
def aluCases : List (Nat × Nat) := [(1, 2), (2, 1), (7, 7), (1, 3), (3, 8), (7, 8), (9, 1), (2, 2), (2, 8), (7, 1)]
def co_rep (s : State) (w w2 : Nat) (mn : Mn) : Option (State × Needle) :=
  let u := counted s e0
  let n := u.needle 0 0
  pairRuns (mn == .rep) (s.rowKind 0) (bitsOf w 25 23) w2 ((mnOf w2).getD .nop) ⟨0, 0, (s.row 0).prog, 1⟩ e0 (if mn = .rep then n.gv 0 else bitsOf w 7 0 + 1) 0 u (n.mark (mn == .rep && n.gp 0))
def wRep : State := nAt 4 [0x24 * 2 ^ 26 + 6 * 2 ^ 23 + 1, imw 2 5 1 7] 0 nBase
def wRepN : Needle := ((aluFlags (nBase.setG 5 14 false) (14, some (false, false))).setG 6 2 false).flagArith (addFlags (2 ^ 64 - 5) 7)

theorem witness_AluInstructions :
    (∃ (s : State) (l i w : Nat) (ecc : Ecc) (mn : Mn), (mn ∈ aluTwo) ∧ (standsAt s l i w mn = true)) ∧
    (∃ (s : State) (l i w : Nat) (ecc : Ecc) (mn : Mn), (mn = .mov ∨ mn = .popc ∨ mn = .clz) ∧ (standsAt s l i w mn = true)) ∧
    (∃ (s : State) (l i w : Nat) (ecc : Ecc), (standsAt s l i w .cmp = true)) ∧
    (∃ (s : State) (l i w : Nat) (ecc : Ecc), (standsAt s l i w .cmpi = true)) ∧
    (∃ (s : State) (l i w : Nat) (ecc : Ecc) (im fn : Mn), ((im, fn) ∈ [(Mn.addi, Mn.aluAdd), (.andi, .aluAnd), (.ori, .aluOr), (.xori, .aluXor), (.shli, .aluShl), (.shri, .aluShr), (.sari, .aluSar)]) ∧ (standsAt s l i w im = true)) ∧
    (∃ (s : State) (l i w : Nat) (ecc : Ecc), (standsAt s l i w .movz = true)) ∧
    (∃ (s : State) (l i w : Nat) (ecc : Ecc), (standsAt s l i w .movk = true)) :=
  ⟨⟨(n1 (wrd 1 5 1 2 0)), 0, 0, (wrd 1 5 1 2 0), ec, .aluAdd, by decide +kernel⟩,
   ⟨(n1 (wrd 1 5 2 0 0x11)), 0, 0, (wrd 1 5 2 0 0x11), e0, .popc, by decide +kernel⟩,
   ⟨(n1 (wrd 1 0 2 1 0x0F)), 0, 0, (wrd 1 0 2 1 0x0F), e0, by decide +kernel⟩,
   ⟨(n1 (imw 3 0 2 0xFFF0)), 0, 0, (imw 3 0 2 0xFFF0), e0, by decide +kernel⟩,
   ⟨(n1 (imw 2 5 2 0xFFF0)), 0, 0, (imw 2 5 2 0xFFF0), e0, .addi, .aluAdd, by decide +kernel⟩,
   ⟨(n1 (imw 4 5 3 0x1234)), 0, 0, (imw 4 5 3 0x1234), e0, by decide +kernel⟩,
   ⟨(n1 (imw 5 2 1 0x1234)), 0, 0, (imw 5 2 1 0x1234), e0, by decide +kernel⟩⟩

theorem witness_MemoryInstructions :
    (∃ (s : State) (l i w : Nat) (ecc : Ecc) (mn : Mn) (z : Nat) (st : Bool), ((mn, z, st) ∈ [(Mn.ldb, 1, false), (.ldh, 2, false), (.ldw, 4, false), (.ldd, 8, false), (.vld, 32, false), (.stb, 1, true), (.sth, 2, true), (.stw, 4, true), (.std, 8, true), (.vst, 32, true)]) ∧ ((standsAt s l i w mn = true) ∧ (let u := counted s ecc; let x := accessTrap u l i w (bitsOf w 20 17) (memOffset (s.needle l i) w z) z z st; (x.isSome = true)))) ∧
    (∃ (s : State) (l i w : Nat) (ecc : Ecc) (mn : Mn) (st : Bool), ((mn, st) ∈ [(Mn.pld, false), (.pst, true)]) ∧ ((standsAt s l i w mn = true) ∧ (let u := counted s ecc; let k := bitsOf w 25 24; let x := accessTrap u l i w (bitsOf w 20 17) (memOffset (s.needle l i) w 16) (64 * k) 16 st; (x.isSome = true)))) ∧
    (∃ (s : State) (l i w : Nat) (ecc : Ecc) (mn : Mn) (st : Bool), ((mn, st) ∈ [(Mn.pld, false), (.pst, true)]) ∧ ((standsAt s l i w mn = true) ∧ (let u := counted s ecc; let k := bitsOf w 25 24; (accessTrap u l i w (bitsOf w 20 17) (memOffset (s.needle l i) w 16) (64 * k) 16 st = none) ∧ (plyOperand (bitsOf w 23 21) k = false)))) ∧
    (∃ (s : State) (l i w : Nat) (ecc : Ecc) (mn : Mn) (z : Nat), ((mn, z) ∈ [(Mn.ldb, 1), (.ldh, 2), (.ldw, 4), (.ldd, 8), (.vld, 32)]) ∧ ((standsAt s l i w mn = true) ∧ (let u := counted s ecc; let n := u.needle l i; let sp := bitsOf w 20 17; let o := memOffset n w z; (accessTrap u l i w sp o z z false = none)))) ∧
    (∃ (s : State) (l i w : Nat) (ecc : Ecc) (mn : Mn) (z : Nat), ((mn, z) ∈ [(Mn.stb, 1), (.sth, 2), (.stw, 4), (.std, 8)]) ∧ ((standsAt s l i w mn = true) ∧ (let u := counted s ecc; let n := u.needle l i; let sp := bitsOf w 20 17; let o := memOffset n w z; let m := n.mark (n.gp (fD w)); let bs := leBytes z (n.gv (fD w)); (accessTrap u l i w sp o z z true = none)))) ∧
    (∃ (s : State) (l i w : Nat) (ecc : Ecc), (standsAt s l i w .vst = true) ∧ (let u := counted s ecc; let n := u.needle l i; let sp := bitsOf w 20 17; let o := memOffset n w 32; (accessTrap u l i w sp o 32 32 true = none))) ∧
    (∃ (s : State) (l i w : Nat) (ecc : Ecc), (standsAt s l i w .pld = true) ∧ (let u := counted s ecc; let n := u.needle l i; let sp := bitsOf w 20 17; let k := bitsOf w 25 24; let d := bitsOf w 23 21; let o := memOffset n w 16; let m := accessUe n sp o (64 * k) ecc; let x := accessBytes u m sp o (64 * k); (accessTrap u l i w sp o (64 * k) 16 false = none) ∧ (plyOperand d k = true))) ∧
    (∃ (s : State) (l i w : Nat) (ecc : Ecc), (standsAt s l i w .pst = true) ∧ (let u := counted s ecc; let n := u.needle l i; let sp := bitsOf w 20 17; let k := bitsOf w 25 24; let d := bitsOf w 23 21; let o := memOffset n w 16; let els := (List.range 8).map (fun e => n.plyEl d k e); (accessTrap u l i w sp o (64 * k) 16 true = none) ∧ (plyOperand d k = true))) ∧
    (∃ (s : State) (l i w : Nat) (ecc : Ecc), (standsAt s l i w .chkb = true)) ∧
    (∃ (s : State) (l i w : Nat) (ecc : Ecc), (standsAt s l i w .sset = true)) ∧
    (∃ (s : State) (l i w : Nat) (ecc : Ecc), (standsAt s l i w .sget = true)) :=
  ⟨⟨(n1 (mew 0x10 5 0 5 0xF00)), 0, 0, (mew 0x10 5 0 5 0xF00), e0, .ldb, 1, false, by decide +kernel⟩,
   ⟨(n1 (mew 0x1A 9 0 8 0)), 0, 0, (mew 0x1A 9 0 8 0), e0, .pld, false, by decide +kernel⟩,
   ⟨(n1 (mew 0x1B 0x15 0 3 0)), 0, 0, (mew 0x1B 0x15 0 3 0), e0, .pst, true, by decide +kernel⟩,
   ⟨((n1 (mew 0x12 5 0 5 1)).poke (hbmBase 0 + 132) [1, 2, 3, 4] true), 0, 0, (mew 0x12 5 0 5 1), e0, .ldw, 4, by decide +kernel⟩,
   ⟨(n1 (mew 0x17 2 0 5 1)), 0, 0, (mew 0x17 2 0 5 1), e0, .std, 8, by decide +kernel⟩,
   ⟨(n1 (mew 0x19 3 0 5 1)), 0, 0, (mew 0x19 3 0 5 1), e0, by decide +kernel⟩,
   ⟨((n1 (mew 0x1A 0x12 0 5 1)).poke (hbmBase 0 + 160) [1, 2, 3, 4] true), 0, 0, (mew 0x1A 0x12 0 5 1), e0, by decide +kernel⟩,
   ⟨(n1 (mew 0x1B 8 0 5 1)), 0, 0, (mew 0x1B 8 0 5 1), e0, by decide +kernel⟩,
   ⟨(n1 (wrd 0x25 0 0 1 0x500)), 0, 0, (wrd 0x25 0 0 1 0x500), e0, by decide +kernel⟩,
   ⟨(n1h (wrd 0x28 1 10 11 0) { nBase with g := [(10, hbmBase 0), (11, 4096)] }), 0, 0, (wrd 0x28 1 10 11 0), e0, by decide +kernel⟩,
   ⟨(n1 (wrd 0x29 5 7 0 1)), 0, 0, (wrd 0x29 5 7 0 1), e0, by decide +kernel⟩⟩

theorem witness_ControlInstructions :
    (∃ (s : State) (l i w : Nat) (ecc : Ecc), (standsAt s l i w .bCc = true)) ∧
    (∃ (s : State) (l i w : Nat) (ecc : Ecc), (standsAt s l i w .br = true)) ∧
    (∃ (s : State) (l i w : Nat) (ecc : Ecc), (standsAt s l i w .call = true) ∧ (let u := counted s ecc; let n := u.needle l i; let t := fnEntry (s.row l).prog (bitsOf w 25 16); let regs := maskRegs (bitsOf w 15 0); let fr := 8 * (1 + regs.length); let g := n.gv 31; let a := segBase (n.sv 7) + (g - fr); (inCode (s.row l).prog t = true) ∧ (g % 8 = 0) ∧ (segWr (n.sv 7) = true) ∧ (segMode (n.sv 7) = 0) ∧ (fr ≤ g) ∧ (g ≤ segLimit (n.sv 7)) ∧ (u.segReach (rowDie l) a fr = true))) ∧
    (∃ (s : State) (l i w : Nat) (ecc : Ecc), (standsAt s l i w .call = true) ∧ (let u := counted s ecc; let n := u.needle l i; let t := fnEntry (s.row l).prog (bitsOf w 25 16); let g := n.gv 31; (inCode (s.row l).prog t = true) ∧ (g % 8 = 0) ∧ (segWr (n.sv 7) = true) ∧ (segMode (n.sv 7) ≠ 0 ∨ g < 8 * (1 + (maskRegs (bitsOf w 15 0)).length) ∨ segLimit (n.sv 7) < g))) ∧
    (∃ (s : State) (l i w : Nat) (ecc : Ecc), (standsAt s l i w .ret = true) ∧ (let u := counted s ecc; let n := u.needle l i; let g := n.gv 31; let a := segBase (n.sv 7) + g; let link := u.le a 8; let regs := maskRegs (bitsOf link 31 16); let fr := 8 * (1 + regs.length); (g % 8 = 0) ∧ (segMode (n.sv 7) = 0) ∧ (g + fr ≤ segLimit (n.sv 7)) ∧ (u.segReach (rowDie l) a fr = true) ∧ (u.segReach (rowDie l) a 8 = true) ∧ (inCode (s.row l).prog (bitsOf link 15 0) = true) ∧ (a % 8 = 0) ∧ ((∀ k ∈ List.range (1 + regs.length), fetch false u.tags (a / 8 + k) = false)))) ∧
    (∃ (s : State) (l i w : Nat) (ecc : Ecc), (standsAt s l i w .ret = true) ∧ (let u := counted s ecc; let n := u.needle l i; (n.gv 31 % 8 = 0) ∧ (segMode (n.sv 7) ≠ 0 ∨ segLimit (n.sv 7) < n.gv 31 + 8))) ∧
    (∃ (s : State) (l i w : Nat) (ecc : Ecc) (mn : Mn), (mn = .rtt ∨ mn = .rttNext) ∧ (standsAt s l i w mn = true) ∧ ((s.needle l i).hm = false)) ∧
    (∃ (s : State) (l i w : Nat) (ecc : Ecc) (mn : Mn), (mn = .rtt ∨ mn = .rttNext) ∧ (standsAt s l i w mn = true) ∧ ((s.needle l i).hm = true) ∧ ((s.needle l i).tpair = false)) ∧
    (∃ (s : State) (l i w : Nat) (ecc : Ecc), (standsAt s l i w .rttNext = true) ∧ ((s.needle l i).hm = true) ∧ ((s.needle l i).tpair = true)) ∧
    (∃ (s : State) (l i w : Nat) (ecc : Ecc), (standsAt s l i w .trap = true)) ∧
    (∃ (s : State) (l i w : Nat) (ecc : Ecc) (mn : Mn), (mn = .nop ∨ mn = .fence) ∧ (standsAt s l i w mn = true)) ∧
    (∃ (s : State) (l i w : Nat) (ecc : Ecc), (standsAt s l i w .fclr = true)) ∧
    (∃ (s : State) (l i w : Nat) (ecc : Ecc), (standsAt s l i w .drst = true)) ∧
    (∃ (s : State) (l i w : Nat) (ecc : Ecc), (standsAt s l i w .mfs = true)) :=
  ⟨⟨(n1h (0x20 * 2 ^ 26 + 0 * 2 ^ 22 + 0) { nBase with zf := true }), 0, 0, (0x20 * 2 ^ 26), e0, by decide +kernel⟩,
   ⟨(n1 (wrd 0x22 0 6 0 7)), 0, 0, (wrd 0x22 0 6 0 7), e0, by decide +kernel⟩,
   ⟨(nAt 4 [0x21 * 2 ^ 26 + 0x4003, 0, 0] 0 nBase), 0, 0, (0x21 * 2 ^ 26 + 0x4003), e0, by decide +kernel⟩,
   ⟨(nAt 4 [0x21 * 2 ^ 26 + 0x4003, 0, 0] 0 { nBase with g := [(31, 16)] }), 0, 0, (0x21 * 2 ^ 26 + 0x4003), e0, by decide +kernel⟩,
   ⟨((n1h (wrd 0x22 0 0 0 3) { nBase with g := [(31, 64)] }).poke (hbmBase 0 + 64) (record [(2, 580), (2, 5), (4, 0), (8, 11), (8, 12)]) false), 0, 0, (wrd 0x22 0 0 0 3), e0, by decide +kernel⟩,
   ⟨(n1 (wrd 0x22 0 0 0 3)), 0, 0, (wrd 0x22 0 0 0 3), e0, by decide +kernel⟩,
   ⟨(n1 (wrd 0x22 0 0 0 4)), 0, 0, (wrd 0x22 0 0 0 4), e0, .rtt, by decide +kernel⟩,
   ⟨(n1h (wrd 0x22 0 0 0 5) { nBase with hm := true, tpc := 580, tflags := 0x15 }), 0, 0, (wrd 0x22 0 0 0 5), e0, .rttNext, by decide +kernel⟩,
   ⟨(n1h (wrd 0x22 0 0 0 5) { nBase with hm := true, tpc := 580, tflags := 0x15, tpair := true }), 0, 0, (wrd 0x22 0 0 0 5), e0, by decide +kernel⟩,
   ⟨(n1 (wrd 0x22 0 0 0 0x41)), 0, 0, (wrd 0x22 0 0 0 0x41), e0, by decide +kernel⟩,
   ⟨(n1 (wrd 0x22 0 0 0 0)), 0, 0, (wrd 0x22 0 0 0 0), ec, .nop, by decide +kernel⟩,
   ⟨(n1 (wrd 0x22 0 0 0 6)), 0, 0, (wrd 0x22 0 0 0 6), ec, by decide +kernel⟩,
   ⟨(n1h (wrd 0x22 0 0 2 9) { nBase with draws := [(2, 9)] }), 0, 0, (wrd 0x22 0 0 2 9), ec, by decide +kernel⟩,
   ⟨(n1 (wrd 0x22 3 0 5 8)), 0, 0, (wrd 0x22 3 0 5 8), ec, by decide +kernel⟩⟩

theorem witness_NeedleTraps :
    (∃ (s : State) (l i : Nat) (ecc : Ecc) (mn : Mn), (l < 128) ∧ (i < 16) ∧ (s.rowRuns l = true) ∧ ((s.needle l i).wait = .run) ∧ (inCode (s.row l).prog (s.needle l i).pc = false)) ∧
    (∃ (s : State) (l i w : Nat) (ecc : Ecc) (mn : Mn), (l < 128) ∧ (i < 16) ∧ (s.rowRuns l = true) ∧ ((s.needle l i).wait = .run) ∧ (inCode (s.row l).prog (s.needle l i).pc = true) ∧ (imgLe (s.row l).prog (s.needle l i).pc 4 = w) ∧ (mnOf w = none)) ∧
    (∃ (s : State) (l i w : Nat) (ecc : Ecc) (mn : Mn), (atWord s l i w mn = true) ∧ (legal (s.row l).prog (s.rowKind l) (s.needle l i).hm mn w = false)) ∧
    (∃ (s : State) (l i w : Nat) (ecc : Ecc) (mn mn' : Mn), (atWord s l i w mn' = true) ∧ (mn ≠ mn')) ∧
    (∃ (s : State) (l i : Nat) (ecc : Ecc) (mn : Mn), (s.rowRuns l = false ∨ (s.needle l i).wait ≠ .run)) ∧
    (∃ (s : State) (l i cause pc addr : Nat), (l < 128) ∧ (s.rowState l = 4) ∧ ((s.row l).owner = none) ∧ (s.rd Reg.NDL_TRAP_TAIL = s.rd Reg.NDL_TRAP_COUNT)) :=
  ⟨⟨(n1h 0 { nBase with pc := 584 }), 0, 0, e0, .nop, by decide +kernel⟩,
   ⟨(n1 0), 0, 0, 0, e0, .nop, by decide +kernel⟩,
   ⟨(n1 (wrd 1 5 1 2 0x40)), 0, 0, (wrd 1 5 1 2 0x40), e0, .aluAdd, by decide +kernel⟩,
   ⟨(n1 (wrd 1 5 1 2 0)), 0, 0, (wrd 1 5 1 2 0), e0, .aluSub, .aluAdd, by decide +kernel⟩,
   ⟨(nAt 6 [wrd 1 5 1 2 0] 0 nBase), 0, 0, e0, .aluAdd, by decide +kernel⟩,
   ⟨(rowOf 4 0 1 (fun i => if i = 3 then { nBase with wait := .ended } else nBase)), 0, 0, 5, 6, 7, by decide +kernel⟩⟩

theorem witness_StreamInstructions :
    (∃ (s : State) (l i w : Nat) (ecc : Ecc), (standsAt s l i w .draw = true) ∧ ((s.job (s.rowSlice l)).isOpen = true)) ∧
    (∃ (s : State) (l i w : Nat) (ecc : Ecc), (standsAt s l i w .drawe = true) ∧ ((s.job (s.rowSlice l)).isOpen = true)) ∧
    (∃ (s : State) (l i w : Nat) (ecc : Ecc), (standsAt s l i w .sdef = true)) ∧
    (∃ (s : State) (l i w : Nat) (ecc : Ecc), (standsAt s l i w .srd = true) ∧ ((∀ x ∈ (fetch none (s.needle l i).streams (bitsOf w 0 0)).toList, x.count ≤ x.next))) ∧
    (∃ (s : State) (l i w : Nat) (ecc : Ecc) (x : Stream), (standsAt s l i w .srd = true) ∧ ((fetch none (s.needle l i).streams (bitsOf w 0 0) = some x) ∧ ((x.next < x.count) ∧ ((x.sp < 8) ∧ (let u := counted s ecc; let n := u.needle l i; let o := unsigned 64 ((x.off : Int) + x.next * x.stride); (o % 32 = 0)))))) :=
  ⟨⟨(nJob (n1 (wrd 0x2A 5 2 0 1))), 0, 0, (wrd 0x2A 5 2 0 1), e0, by decide +kernel⟩,
   ⟨(nJob (n1 (wrd 0x2B 5 2 0 2))), 0, 0, (wrd 0x2B 5 2 0 2), e0, by decide +kernel⟩,
   ⟨(n1 (wrd 0x2D 0x10 3 5 0)), 0, 0, (wrd 0x2D 0x10 3 5 0), e0, by decide +kernel⟩,
   ⟨(n1 (wrd 0x2E 4 0 0 1)), 0, 0, (wrd 0x2E 4 0 0 1), e0, by decide +kernel⟩,
   ⟨((n1h (wrd 0x2E 4 0 0 1) { nBase with streams := [(1, some ⟨0, 64, -32, 2, 1⟩)] }).poke (hbmBase 0 + 32) [1, 2] true), 0, 0, (wrd 0x2E 4 0 0 1), e0, ⟨0, 64, -32, 2, 1⟩, by decide +kernel⟩⟩

theorem witness_RepeatInstructions :
    (∃ (s : State) (l i w : Nat) (ecc : Ecc) (mn : Mn), (mn = .rep ∨ mn = .repn) ∧ ((standsAt s l i w mn = true) ∧ (((s.needle l i).resumeAt = none) ∧ (let u := counted s ecc; let n := u.needle l i; let p := (s.row l).prog; let w2 := imgLe p (n.pc + 4) 4; let step := bitsOf w 25 23; let two := (mnOf w2).getD .nop; let bad := !inCode p (n.pc + 4) || (mnOf w2).isNone || !repeatable two || (step &&& regFields two) ≠ step || (mn = .rep && (gNamed two w2).contains 0) || (mn = .rep && decide (2 ^ 20 ≤ n.gv 0)); let cause := if !inCode p (n.pc + 4) then (0x02, n.pc + 4) else if (mnOf w2).isNone || !repeatable two || (step &&& regFields two) ≠ step || (mn = .rep && (gNamed two w2).contains 0) then (0x01, 0) else (0x0B, n.gv 0); (bad = true))))) ∧
    (∃ (s t : State) (l i w : Nat) (ecc : Ecc) (mn two : Mn) (m : Needle), (mn = .rep ∨ mn = .repn) ∧ ((standsAt s l i w mn = true) ∧ (((s.needle l i).resumeAt = none) ∧ (let u := counted s ecc; let n := u.needle l i; let p := (s.row l).prog; let w2 := imgLe p (n.pc + 4) 4; let step := bitsOf w 25 23; (inCode p (n.pc + 4) = true) ∧ (mnOf w2 = some two) ∧ (repeatable two = true) ∧ ((step &&& regFields two) = step) ∧ (mn = .repn ∨ ((gNamed two w2).contains 0 = false ∧ n.gv 0 < 2 ^ 20)) ∧ (pairRuns (mn == .rep) (s.rowKind l) step w2 two ⟨l, i, p, 1⟩ ecc (if mn = .rep then n.gv 0 else bitsOf w 7 0 + 1) 0 u (n.mark (mn == .rep && n.gp 0)) = some (t, m)))))) ∧
    (∃ (s : State) (l i w : Nat) (ecc : Ecc), (standsAt s l i w .rtt = true) ∧ ((s.needle l i).hm = true) ∧ ((s.needle l i).tpair = true)) :=
  ⟨⟨(nAt 4 [0x24 * 2 ^ 26 + 2 ^ 23, imw 4 5 0 1] 0 nBase), 0, 0, (0x24 * 2 ^ 26 + 2 ^ 23), e0, .repn, by decide +kernel⟩,
   ⟨wRep, wRep, 0, 0, (0x24 * 2 ^ 26 + 6 * 2 ^ 23 + 1), e0, .repn, .addi, wRepN, by decide +kernel⟩,
   ⟨(n1h (wrd 0x22 0 0 0 4) { nBase with hm := true, tpc := 580, tflags := 0x15, tpair := true, titer := 9 }), 0, 0, (wrd 0x22 0 0 0 4), e0, by decide +kernel⟩⟩

theorem witness_VectorInstructions :
    (∃ (s : State) (l i w : Nat) (ecc : Ecc) (mn : Mn), (mn ∈ vopTwo ∨ mn = .vabs ∨ mn = .vneg ∨ mn = .vmov) ∧ (standsAt s l i w mn = true)) ∧
    (∃ (s : State) (l i w : Nat) (ecc : Ecc), (standsAt s l i w .vfma = true)) ∧
    (∃ (s : State) (l i w : Nat) (ecc : Ecc), (standsAt s l i w .vcmp = true)) ∧
    (∃ (s : State) (l i w : Nat) (ecc : Ecc), (standsAt s l i w .vsel = true)) ∧
    (∃ (s : State) (l i w : Nat) (ecc : Ecc), (standsAt s l i w .vbcst = true)) ∧
    (∃ (s : State) (l i w : Nat) (ecc : Ecc), (standsAt s l i w .vext = true)) ∧
    (∃ (s : State) (l i w : Nat) (ecc : Ecc), (standsAt s l i w .vcvt = true)) :=
  ⟨⟨(n1 (wrd 0x30 4 1 2 0x100)), 0, 0, (wrd 0x30 4 1 2 0x100), e0, .vadd, by decide +kernel⟩,
   ⟨(n1 (wrd 0x31 4 1 2 (3 * 64 + 8))), 0, 0, (wrd 0x31 4 1 2 (3 * 64 + 8)), e0, by decide +kernel⟩,
   ⟨(n1 (wrd 0x32 4 1 2 0x102)), 0, 0, (wrd 0x32 4 1 2 0x102), e0, by decide +kernel⟩,
   ⟨(n1 (wrd 0x33 4 1 3 (64 * 5 + 8))), 0, 0, (wrd 0x33 4 1 3 (64 * 5 + 8)), e0, by decide +kernel⟩,
   ⟨(n1 (wrd 0x35 4 2 0 0x200)), 0, 0, (wrd 0x35 4 2 0 0x200), e0, by decide +kernel⟩,
   ⟨(n1 (wrd 0x36 4 1 0 0x103)), 0, 0, (wrd 0x36 4 1 0 0x103), e0, by decide +kernel⟩,
   ⟨(n1 (wrd 0x34 1 2 0 (4 * 256 + 1 * 32 + 2))), 0, 0, (wrd 0x34 1 2 0 (4 * 256 + 1 * 32 + 2)), e0, by decide +kernel⟩⟩

theorem witness_PlyInstructions :
    (∃ (s : State) (l i w : Nat) (ecc : Ecc), (standsAt s l i w .padd = true) ∧ (plyOperand (fD w) (bitsOf w 10 9) = false ∨ plyOperand (fA w) (bitsOf w 10 9) = false ∨ plyOperand (fB w) (bitsOf w 10 9) = false)) ∧
    (∃ (s : State) (l i w : Nat) (ecc : Ecc), (standsAt s l i w .padd = true) ∧ (let n := s.needle l i; let k := bitsOf w 10 9; let sum := fun j => plyAdd k (n.plyEl (fA w) k j) (n.plyEl (fB w) k j); (plyOperand (fD w) k = true) ∧ (plyOperand (fA w) k = true) ∧ (plyOperand (fB w) k = true) ∧ ((∀ j ∈ List.range 8, (sum j).2 = false)))) ∧
    (∃ (s : State) (l i w : Nat) (ecc : Ecc), (standsAt s l i w .padd = true) ∧ (let n := s.needle l i; let k := bitsOf w 10 9; let sum := fun j => plyAdd k (n.plyEl (fA w) k j) (n.plyEl (fB w) k j); let mask := ((List.range 8).map (fun j => if (sum j).2 then 2 ^ j else 0)).sum; let vec := imgLe (s.row l).prog (256 + 2 * 0x0E) 2; (plyOperand (fD w) k = true) ∧ (plyOperand (fA w) k = true) ∧ (plyOperand (fB w) k = true) ∧ (mask ≠ 0) ∧ (n.hm = false) ∧ (vec ≠ 0))) ∧
    (∃ (s : State) (l i w : Nat) (ecc : Ecc), (standsAt s l i w .pmov = true) ∧ (let n := s.needle l i; let k := bitsOf w 10 9; (plyOperand (fD w) k = true) ∧ (plyOperand (fA w) k = true))) ∧
    (∃ (s : State) (l i w : Nat) (ecc : Ecc), (standsAt s l i w .pzero = true) ∧ (let n := s.needle l i; let k := bitsOf w 10 9; (plyOperand (fD w) k = true))) ∧
    (∃ (s : State) (l i w : Nat) (ecc : Ecc), (standsAt s l i w .gauge = true)) ∧
    (∃ (s : State) (l i w : Nat) (ecc : Ecc), (standsAt s l i w .pcvt = true) ∧ (let n := s.needle l i; let attr := tensorAttr (s.row l).prog (bitsOf w 15 10); let code := attrIn attr; let k := attrPly attr; let g := n.gv (bitsOf w 9 5); let x := fun j => n.termNum (fA w) code (8 * bitsOf w 4 3 + j) g; let gb := max 1 (g % 256); (code < 7) ∧ (plyOperand (fD w) k = true) ∧ (n.gp (bitsOf w 9 5) = false) ∧ (n.vp (fA w) = 0))) ∧
    (∃ (s : State) (l i w : Nat) (ecc : Ecc), (standsAt s l i w .pcvt = true) ∧ (let attr := tensorAttr (s.row l).prog (bitsOf w 15 10); (7 ≤ attrIn attr ∨ plyOperand (fD w) (attrPly attr) = false))) ∧
    (∃ (s : State) (l i w : Nat) (ecc : Ecc), (standsAt s l i w .pfin = true) ∧ (let n := s.needle l i; let j := bitsOf w 17 12; let attr := tensorAttr (s.row l).prog j; let code := attrOut attr; let k := attrPly attr; let gi := n.gv (bitsOf w 11 7) % 2 ^ 40; let q := 8 * bitsOf w 1 0; let draw := fun e => if attrRound attr = 1 then some (roundDraw (s.job (s.rowSlice l)).seed (s.stepCtr (s.rowSlice l)) (tensorId (s.row l).prog j) ((gi + q + e) % 2 ^ 40)) else none; let y := fun e => finalRaw code (draw e) (plyNum k (n.gv (bitsOf w 6 2) % 256) (n.plyEl (bitsOf w 20 18) k e)); (code < 7) ∧ (isMx code = false) ∧ (plyOperand (bitsOf w 20 18) k = true) ∧ (n.gp (bitsOf w 6 2) = false) ∧ (n.gp (bitsOf w 11 7) = false) ∧ (attrRound attr ≠ 1 ∨ (s.job (s.rowSlice l)).isOpen = true))) ∧
    (∃ (s : State) (l i w : Nat) (ecc : Ecc), (standsAt s l i w .pfin = true) ∧ (7 ≤ attrOut (tensorAttr (s.row l).prog (bitsOf w 17 12)))) ∧
    (∃ (s : State) (l i w : Nat) (ecc : Ecc), (standsAt s l i w .tally = true) ∧ ((bitOf w 20 = false) ∧ (let j := bitsOf w 19 14; let attr := tensorAttr (s.row l).prog j; let id := tensorId (s.row l).prog j; (attrOut attr < 7) ∧ ((s.job (s.rowSlice l)).isOpen = false ∨ (s.job (s.rowSlice l)).tallySet.contains id = false)))) ∧
    (∃ (s : State) (l i w : Nat) (ecc : Ecc), (standsAt s l i w .tally = true) ∧ ((bitOf w 20 = false) ∧ (let u := counted s ecc; let n := u.needle l i; let j := bitsOf w 19 14; let code := attrOut (tensorAttr (s.row l).prog j); let id := tensorId (s.row l).prog j; let k := s.rowSlice l; let i0 := n.gv (bitsOf w 13 9) % 2 ^ 40 + 8 * bitsOf w 8 7; let x := fun e => n.term (fD w) code (8 * bitsOf w 8 7 + e); (code < 7) ∧ (isMx code = false) ∧ (n.gp (bitsOf w 13 9) = false) ∧ ((s.job k).isOpen = true) ∧ ((s.job k).tallySet.contains id = true)))) :=
  ⟨⟨(n1 (wrd 0x3A 1 0 2 0x400)), 0, 0, (wrd 0x3A 1 0 2 0x400), e0, by decide +kernel⟩,
   ⟨(n1 (wrd 0x3A 2 0 1 0x200)), 0, 0, (wrd 0x3A 2 0 1 0x200), e0, by decide +kernel⟩,
   ⟨(n1h (wrd 0x3A 2 0 1 0x200) { nBase with p := [(2, 2 ^ 62), (10, 2 ^ 62)] }), 0, 0, (wrd 0x3A 2 0 1 0x200), e0, by decide +kernel⟩,
   ⟨(n1 (wrd 0x3D 2 0 0 0x400)), 0, 0, (wrd 0x3D 2 0 0 0x400), e0, by decide +kernel⟩,
   ⟨(n1 (wrd 0x3D 0 0 0 0x401)), 0, 0, (wrd 0x3D 0 0 0 0x401), e0, by decide +kernel⟩,
   ⟨(n1 (wrd 0x38 1 1 0 0)), 0, 0, (wrd 0x38 1 1 0 0), e0, by decide +kernel⟩,
   ⟨(n1 (0x39 * 2 ^ 26 + 2 * 2 ^ 21 + 1 * 2 ^ 16 + 1 * 1024 + 5 * 32 + 8)), 0, 0, (0x39 * 2 ^ 26 + 2 * 2 ^ 21 + 1 * 2 ^ 16 + 1 * 1024 + 5 * 32 + 8), e0, by decide +kernel⟩,
   ⟨(n1 (0x39 * 2 ^ 26 + 3 * 2 ^ 21 + 1 * 2 ^ 16 + 1 * 1024 + 5 * 32 + 8)), 0, 0, (0x39 * 2 ^ 26 + 3 * 2 ^ 21 + 1 * 2 ^ 16 + 1 * 1024 + 5 * 32 + 8), e0, by decide +kernel⟩,
   ⟨(n1 (0x3B * 2 ^ 26 + 4 * 2 ^ 21 + 0 * 4096 + 9 * 128 + 5 * 4 + 1)), 0, 0, (0x3B * 2 ^ 26 + 4 * 2 ^ 21 + 0 * 4096 + 9 * 128 + 5 * 4 + 1), e0, by decide +kernel⟩,
   ⟨(let s := n1 (0x3B * 2 ^ 26 + 4 * 2 ^ 21 + 9 * 128 + 5 * 4); withRow s (fun r => { r with prog := store 0 r.prog 517 8 })), 0, 0, (0x3B * 2 ^ 26 + 4 * 2 ^ 21 + 9 * 128 + 5 * 4), e0, by decide +kernel⟩,
   ⟨(nJob (n1 (0x3C * 2 ^ 26 + 1 * 2 ^ 21 + 1 * 2 ^ 14 + 8 * 512 + 128 + 7 * 16))), 0, 0, (0x3C * 2 ^ 26 + 1 * 2 ^ 21 + 1 * 2 ^ 14 + 8 * 512 + 128 + 7 * 16), e0, by decide +kernel⟩,
   ⟨(nJob (n1 (0x3C * 2 ^ 26 + 1 * 2 ^ 21 + 8 * 512 + 128 + 7 * 16))), 0, 0, (0x3C * 2 ^ 26 + 1 * 2 ^ 21 + 8 * 512 + 128 + 7 * 16), e0, by decide +kernel⟩⟩

theorem witness_RowCollectives :
    (∃ (s : State) (l i w j : Nat) (ecc : Ecc) (mn : Mn), (standsAt s l i w mn = true) ∧ (isCollective (s.rowKind l) mn = true) ∧ (j < 16) ∧ (j ≠ i) ∧ ((s.waiters l).contains j = false) ∧ ((∀ k ∈ List.range 16, (s.needle l k).wait ≠ .ended))) ∧
    (∃ (s : State) (l i w j : Nat) (ecc : Ecc) (mn : Mn), (standsAt s l i w mn = true) ∧ (isCollective (s.rowKind l) mn = true) ∧ (j < 16) ∧ ((s.needle l j).wait = .ended)) ∧
    (∃ (s : State) (l i w j : Nat) (ecc : Ecc) (mn : Mn), (standsAt s l i w mn = true) ∧ ((isCollective (s.rowKind l) mn = true) ∧ (let u := issued s l i w mn ecc; (u.waiters l = List.range 16) ∧ (j < 16) ∧ ((u.needle l j).wait ≠ (u.needle l i).wait)))) ∧
    (∃ (s : State) (l i w : Nat) (ecc : Ecc), (lastToIssue s l i w .vxch = true)) ∧
    (∃ (s : State) (l i w : Nat) (ecc : Ecc), (lastToIssue s l i w .mclr = true)) ∧
    (∃ (s : State) (l i w : Nat) (ecc : Ecc) (mn : Mn), (mn = .mld ∨ mn = .mma ∨ mn = .mst) ∧ (lastToIssue s l i w mn = true)) ∧
    (∃ (s : State) (l w : Nat) (n : Needle), let r := s.row l; let k0 := n.gv (fA w); let k := n.gv (fB w); (k = 0 ∨ r.bufA.slices < k0 + k ∨ r.bufB.slices < k0 + k ∨ (r.bufA.fmt = 1) ≠ (r.bufB.fmt = 1))) ∧
    (∃ (s : State) (l w : Nat) (n : Needle), let r := s.row l; let k0 := n.gv (fA w); (0 < n.gv (fB w)) ∧ (k0 + n.gv (fB w) ≤ r.bufA.slices) ∧ (k0 + n.gv (fB w) ≤ r.bufB.slices) ∧ ((r.bufA.fmt = 1) = (r.bufB.fmt = 1))) ∧
    (∃ (s : State) (l i w : Nat) (ecc : Ecc), (standsAt s l i w .mrd = true)) ∧
    (∃ (s : State) (l i w : Nat) (ecc : Ecc), (lastToIssue s l i w .safe = true)) ∧
    (∃ (s : State) (l i w : Nat) (ecc : Ecc), (standsAt s l i w .endRow = true) ∧ ((∀ k ∈ List.range 16, k = i ∨ (s.needle l k).wait = .ended ∨ (s.needle l k).wait = .run))) ∧
    (∃ (s : State) (l i w : Nat) (ecc : Ecc), (lastToIssue s l i w .waitb = true)) ∧
    (∃ (s : State) (l i w : Nat) (ecc : Ecc), (standsAt s l i w .waitb = true) ∧ (s.rowKind l ≠ 4)) ∧
    (∃ (s : State) (l i w : Nat) (ecc : Ecc), (standsAt s l i w .waitt = true)) ∧
    (∃ (s : State) (l i q : Nat), ((s.needle l i).wait = .beat q) ∧ (s.rowRuns l = true)) ∧
    (∃ (s : State) (l i c v : Nat), ((s.needle l i).wait = .trigger c v) ∧ (s.rowRuns l = true) ∧ (c < s.shareSize 16384)) :=
  ⟨⟨(rowOf 4 (wrd 0x22 0 0 0 2) 1 (fun _ => nBase)), 0, 0, (wrd 0x22 0 0 0 2), 3, e0, .safe, by decide +kernel⟩,
   ⟨(rowOf 4 (wrd 0x22 0 0 0 2) 1 (fun i => if i = 3 then { nBase with wait := .ended } else nBase)), 0, 0, (wrd 0x22 0 0 0 2), 3, e0, .safe, by decide +kernel⟩,
   ⟨(rowOf 4 (wrd 0x22 0 0 0 2) 1 (fun i => if i = 0 then nBase else { nBase with wait := .collective 580 5 [] })), 0, 0, (wrd 0x22 0 0 0 2), 3, e0, .safe, by decide +kernel⟩,
   ⟨(rowWaits 4 (wrd 0x37 4 3 8 0) 1 .vxch), 0, 0, (wrd 0x37 4 3 8 0), e0, by decide +kernel⟩,
   ⟨(rowWaits 4 (wrd 0x3E 0 0 0 0x200) 1 .mclr), 0, 0, (wrd 0x3E 0 0 0 0x200), e0, by decide +kernel⟩,
   ⟨(rowWaits 4 (wrd 0x3E 1 3 8 0x40) 1 .mld), 0, 0, (wrd 0x3E 1 3 8 0x40), e0, .mld, by decide +kernel⟩,
   ⟨(n1 0), 0, (wrd 0x3E 0 1 1 0x100), nBase, by decide +kernel⟩,
   ⟨(withRow (n1 0) (fun r => { r with bufA := bufs, bufB := bufs, tile := [(5, 0x3F800000)] })), 0, (wrd 0x3E 0 9 1 0x100), nBase, by decide +kernel⟩,
   ⟨(withRow (n1 (wrd 0x3E 4 0 0 0x31C)) (fun r => { r with tile := [(63, 0x3F800000)], tilePoison := [(62, true)] })), 0, 0, (wrd 0x3E 4 0 0 0x31C), e0, by decide +kernel⟩,
   ⟨(rowWaits 4 (wrd 0x22 0 0 0 2) 1 .safe), 0, 0, (wrd 0x22 0 0 0 2), e0, by decide +kernel⟩,
   ⟨(rowOf 4 (wrd 0x22 0 0 0 1) 1 (fun i => if i = 0 then nBase else { nBase with wait := .ended })), 0, 0, (wrd 0x22 0 0 0 1), e0, by decide +kernel⟩,
   ⟨(rowWaits 4 (wrd 0x22 0 0 0 10) 4 .waitb), 0, 0, (wrd 0x22 0 0 0 10), e0, by decide +kernel⟩,
   ⟨(n1 (wrd 0x22 0 0 0 10)), 0, 0, (wrd 0x22 0 0 0 10), e0, by decide +kernel⟩,
   ⟨(n1 (wrd 0x22 0 1 2 11)), 0, 0, (wrd 0x22 0 1 2 11), e0, by decide +kernel⟩,
   ⟨(n1h 0 { nBase with wait := .beat 3 }), 0, 0, 3, by decide +kernel⟩,
   ⟨(n1h 0 { nBase with wait := .trigger 5 0 }), 0, 0, 5, 0, by decide +kernel⟩⟩

def wArb (ws : List ArbWait) (r : Option ArbWait) (last : Nat) : State := up.setArb 4099 { waiting := ws, running := r, last := last }
def wReq (i b l : Nat) : ArbReq := ⟨i, b, l, 0⟩
def wOptEntry (tensor coll base : Nat) : List Byte :=
  fitBytes 64 (record [(3, tensor), (1, 1), (2, coll), (2, coll + 1), (3, tensor), (1, 0), (4, 0x00010100), (5, base), (5, base + 0x10000), (5, 0), (1, 0),
    (5, base + 0x20000), (5, base + 0x30000), (5, base + 0x40000), (1, 0), (5, 0), (1, 0), (2, 0), (4, 2)])
/-- An optimizer with two entries, one parameter block and one OPTIMIZER row, its table and work area placed. -/
def wOpt : State :=
  let s := (up.writeB 0x100000 (wOptEntry 5 10 0x1000000 ++ wOptEntry 6 20 0x2000000)).wr (Reg.OPT_TBL_LO 0) 0x100000
  let s := (s.wr (Reg.OPT_PARAM_LO 0) 0x110000).wr (Reg.OPT_CNT 0) 0x10002
  let s := ((s.wr (Reg.OPT_WORK_LO 0) 0).wr (Reg.OPT_WORK_HI 0) 0x80).wr (Reg.OPT_WORK_CFG 0) 4
  s.wr (Reg.NDL_ROW 0) 0x31
def wOptItem (st : Bool) : OptItem := { slice := 0, row := 0, slot := 1, seq := 1, entry := 0, block := 0, ord := 0, len := 4, step := 9, staged := st }
def wOptOn (st : Bool) : State :=
  { (wOpt.wf (Reg.OPT_STAT 0) 31 31 1).writeLe (0x8000000000 + 1024 + 3072) 4 0x3F800000 with opt := { items := [wOptItem st] } }

theorem witness_MemoryShared :
    (∃ (s : State) (k : Nat) (withdrawn : Bool), (k / 4096 < 2) ∧ ((s.arb k).running = none) ∧ ((s.arb k).waiting ≠ [])) ∧
    (∃ (s : State) (k : Nat) (r : ArbReq), (k / 4096 < 2) ∧ ((s.arb k).running = none) ∧ ((s.arb k).waiting = [])) ∧
    (∃ (s : State) (k : Nat) (r : ArbReq) (w : ArbWait), (k / 4096 < 2) ∧ ((s.arb k).running = some w) ∧ ((s.arb k).waiting = []) ∧ (256 < w.req.len) ∧ (w.preempts < 3) ∧ (w.req.base < r.base)) ∧
    (∃ (s : State) (k : Nat) (ce ue : List Nat) (cached : Option Bool) (w : ArbWait), ((s.arb k).running = some w)) ∧
    (∃ (s : State) (a n : Nat), (s.ownerOf a = some n) ∧ (fetch 0 s.ceSec n + 1 ≠ s.rf Reg.MEM_CE_THRESH 15 0)) ∧
    (∃ (s : State) (a n : Nat), (s.ownerOf a = some n) ∧ (fetch 0 s.ceSec n + 1 = s.rf Reg.MEM_CE_THRESH 15 0)) ∧
    (∃ (s : State) (a n k d x : Nat), (s.ownerOf a = some n) ∧ (s.place a = .hbm d x) ∧ (s.rf (Reg.SPN_RING_CFG n) 31 31 = 0)) ∧
    (∃ (s : State) (a n k d x y : Nat), (s.ownerOf a = some n) ∧ (s.place a = .hank d x y) ∧ (s.rf (Reg.SPN_RING_CFG n) 31 31 = 0)) ∧
    (∃ (s : State) (d units : Nat) (ce ue : List Nat), (d < 4)) ∧
    (∃ (s : State) (d st : Nat) (re : Bool), (d < 4) ∧ (st < s.stacksOf d)) ∧
    (∃ (s : State) (d reads ended : Nat), (d < 4)) :=
  ⟨⟨(wArb [⟨wReq 3 2 64, 5, 0⟩, ⟨wReq 9 1 64, 5, 0⟩, ⟨wReq 7 7 64, 4, 0⟩] none 5), 4099, false, by decide +kernel⟩,
   ⟨up, 4099, (wReq 3 2 64), by decide +kernel⟩,
   ⟨(wArb [] (some ⟨wReq 3 2 512, 2, 1⟩) 3), 4099, (wReq 4 3 64), ⟨wReq 3 2 512, 2, 1⟩, by decide +kernel⟩,
   ⟨(wArb [] (some ⟨wReq 3 2 512, 2, 1⟩) 3), 4099, [0x1000], [0x2000], (some true), ⟨wReq 3 2 512, 2, 1⟩, by decide +kernel⟩,
   ⟨up, 0x1000, 0, by decide +kernel⟩,
   ⟨(up.wr Reg.MEM_CE_THRESH 1), 0x1000, 0, by decide +kernel⟩,
   ⟨up, 0x1234, 0, (0x1220 / 8), 0, 0x1234, by decide +kernel⟩,
   ⟨up, (0x8000000000 + 0x1234), 0, ((0x8000000000 + 0x1230) / 8), 0, 0, 0x1234, by decide +kernel⟩,
   ⟨(up.wr Reg.MEM_CTL 1), 2, 50, [5], [9], by decide +kernel⟩,
   ⟨up, 2, 1, true, by decide +kernel⟩,
   ⟨{ up with prefetch := [(2, 64)] }, 2, 5, 1, by decide +kernel⟩⟩

theorem witness_HankModes :
    (∃ (s : State) (p d : Nat) (v : Word), (d < 4) ∧ (s.hasSlice (s.sliceOfDie d) = true)) ∧
    (∃ (s : State) (m port d : Nat) (pasid : Option Nat) (v : Word), (d < 4) ∧ (s.hostLost port = false) ∧ (s.pasidOk m pasid = true) ∧ (s.hasSlice m = true) ∧ (s.sliceOfDie d ≠ m)) ∧
    (∃ (s : State) (d g : Nat), (d < 4) ∧ (g < 16)) :=
  ⟨⟨(up.poke 0x8000000000 [5] false), 0, 0, 0x00030001, by decide +kernel⟩,
   ⟨(up.wf Reg.GLB_STATUS 19 18 1), 0, 0, 3, (some 0), 0x00030001, by decide +kernel⟩,
   ⟨(up.wr (Reg.MEM_HANK_BUSY 0) 2), 0, 1, by decide +kernel⟩⟩

theorem witness_OptimizerEngine :
    (∃ (s : State) (p n : Nat) (v : Word), (s.hasSlice n = true) ∧ (fieldOf v 31 31 = 1) ∧ (fieldOf v 1 0 = 1)) ∧
    (∃ (s : State) (n : Nat), (s.optEnabled n = true)) ∧
    (∃ (s : State) (n i : Nat), (s.optCheck n = (0, 0)) ∧ (i < s.optEntries n)) ∧
    (∃ (s : State) (n i j : Nat), (s.optCheck n = (0, 0)) ∧ (i < j) ∧ (j < s.optEntries n)) ∧
    (∃ (s : State) (p n : Nat) (v : Word), (s.hasSlice n = true) ∧ (fieldOf v 31 31 = 1) ∧ (fieldOf v 1 0 = 2)) ∧
    (∃ (s : State) (p n a : Nat) (v : Word), (s.optEnabled n = true)) ∧
    (∃ (s : State) (l slot : Nat) (x : OptItem), let o := s.opt; let ring := s.optRing (s.rowSlice l) (rowDie l) ((s.optRowsOf (rowDie l)).findIdx (fun y => y == l)); (o.items = [x]) ∧ (x.row = l) ∧ (x.slot = slot) ∧ (x.staged = false)) ∧
    (∃ (s : State) (l slot d : Nat) (x : OptItem), let o := s.opt; let e := s.optEntry x.slice x.entry; let u := { s with opt := { o with items := [] } }; let stg := s.optRing x.slice d ((s.optRowsOf d).findIdx (fun y => y == l)) + 64 * 2 ^ s.optLog2 x.slice + 3072 * x.slot; (o.items = [x]) ∧ (x.row = l) ∧ (x.slot = slot) ∧ (x.staged = true) ∧ (x.len ≠ 0) ∧ (s.optDie x.slice e = some d) ∧ (o.drain = [])) ∧
    (∃ (s : State) (l slot : Nat), (s.opt.items = [])) :=
  ⟨⟨wOpt, 0, 0, 0x80000001, by decide +kernel⟩,
   ⟨(wOptOn true), 0, by decide +kernel⟩,
   ⟨wOpt, 0, 1, by decide +kernel⟩,
   ⟨wOpt, 0, 0, 1, by decide +kernel⟩,
   ⟨(wOptOn true), 0, 0, 0x80000002, by decide +kernel⟩,
   ⟨(wOptOn true), 0, 0, (Reg.OPT_TBL_LO 0), 5, by decide +kernel⟩,
   ⟨(wOptOn false), 0, 1, (wOptItem false), by decide +kernel⟩,
   ⟨(wOptOn true), 0, 1, 0, (wOptItem true), by decide +kernel⟩,
   ⟨wOpt, 0, 1, by decide +kernel⟩⟩

def cFeedBytes (mode onErr localTbl : Nat) : List Byte :=
  fitBytes 128 (record [(2, 7), (1, mode + 16 * onErr), (1, 2), (1, 1), (1, 1), (2, 2), (2, 2), (1, 3), (1, 0), (2, 0), (2, 0), (3, 9), (1, 1),
    (5, 0x1000001000), (5, 0x10000), (2, 0), (5, 4), (3, 0), (5, 0x11000), (5, localTbl), (5, 0x8000000000), (1, 2), (8, 0x20000), (4, 256), (4, 256),
    (3, 0), (1, 0), (4, 0), (2, 3), (1, 1)])
/-- A TRAIN feed's descriptor, tables and one record of 2 x 2 samples, with one FEED row. -/
def cBase (mode onErr : Nat) : State :=
  let s := (up.writeB 0x30000 (cFeedBytes mode onErr 0x12000)).writeB 0x12000 (leBytes 8 (2 ^ 32))
  let s := (s.writeB 0x1000001000 (record [(5, 0x1000000100), (3, 0), (3, 20)])).writeB 0x1000000100 (record [(2, 2), (2, 2), (4, 0)] ++ List.replicate 12 7)
  (s.wr (Reg.CRD_FD_LO 0) 0x30000).wr (Reg.NDL_ROW 0) 0x24
def cDesc (onErr : Nat) : FeedDesc := (cBase 1 onErr).readFeed 0x30000
def cFeed (onErr : Nat) : Feed := { slice := 0, idx := 0, d := cDesc onErr, spans := [⟨0, 0, 1⟩], table := [], first := 0, next := 2 }
def cItem (st : ItemStage) : FeedItem := { slice := 0, feed := 0, die := 0, row := 0, time := 0, stitch := 0, item := 0, stage := st, image := ⟨2, 2, 3, 8, List.replicate 12 7⟩ }
def cOpen (onErr : Nat) (its : List FeedItem) : State := { (cBase 1 onErr).wr (Reg.CRD_FSTATE 0) 1 with carder := { feeds := [cFeed onErr], items := its } }
def cRtp : List Byte := [0x80, 0xE0, 0, 1, 0, 0, 0, 9, 0, 0, 0, 5, 0, 0, 0, 0, 0, 0, 0, 3, 1, 2, 3]
def cEntry : StreamEntry := ⟨3, 1, 0, 0x60, 0, 2, 2⟩
def cServe : Feed := { slice := 0, idx := 0, d := { cDesc 0 with mode := 2 }, spans := [⟨0, 0, 1⟩], table := [cEntry] }
def cServing (fr : List RtpFrame) : State := { up.wr (Reg.CRD_FSTATE 0) 1 with carder := { feeds := [cServe], frames := fr } }

theorem witness_FeedControl :
    (∃ (s : State) (p n : Nat) (v : Word), (s.hasSlice n = true) ∧ (fieldOf v 31 31 = 1) ∧ (fieldOf v 2 0 = 1)) ∧
    (∃ (s : State) (n f a : Nat) (d : FeedDesc) (spans : List LocalSpan) (tbl : List StreamEntry), (s.feedOpenStatus n f a d spans tbl = 0)) ∧
    (∃ (s : State) (p n : Nat) (v : Word), (n < 4) ∧ (s.hasSlice n = true) ∧ (fieldOf v 31 31 = 1) ∧ (fieldOf v 2 0 = 2)) ∧
    (∃ (s : State) (p n : Nat) (v : Word) (x : Feed), (s.hasSlice n = true) ∧ ((fieldOf v 31 31 = 1) ∧ ((fieldOf v 2 0 = 3) ∧ (let f := fieldOf v 11 8; let u := feedAsked s n v; (s.feed? n f = some x))))) ∧
    (∃ (s : State) (n f ep k : Nat) (x : Feed) (e : LocalSpan), (s.feed? n f = some x) ∧ (x.spans.find? (fun y => y.ep = ep) = some e)) ∧
    (∃ (s : State) (n f ep k : Nat) (x : Feed), (s.feed? n f = some x)) :=
  ⟨⟨(cBase 1 0), 0, 0, 0x80000001, by decide +kernel⟩,
   ⟨(cBase 1 0), 0, 0, 0x30000, (cDesc 0), [⟨0, 0, 1⟩], [], by decide +kernel⟩,
   ⟨(cOpen 0 [cItem .ready]), 0, 0, 0x80000002, by decide +kernel⟩,
   ⟨{ cOpen 0 [] with carder := { feeds := [{ cFeed 0 with stopped := true }] } }, 0, 0, 0x80000003, { cFeed 0 with stopped := true }, by decide +kernel⟩,
   ⟨(cOpen 0 [cItem .packed]), 0, 0, 0, 0, (cFeed 0), ⟨0, 0, 1⟩, by decide +kernel⟩,
   ⟨{ cOpen 0 [] with carder := { feeds := [{ cFeed 0 with written := [(0, 4)] }] } }, 0, 0, 0, 4, { cFeed 0 with written := [(0, 4)] }, by decide +kernel⟩⟩

theorem witness_FeedItems :
    (∃ (s : State) (k : Nat) (i : FeedItem) (rest : List FeedItem), (s.carder.items = i :: rest) ∧ (i.die = k) ∧ (i.stage = .waiting) ∧ (s.sliceState i.slice = 0) ∧ ((∀ y ∈ rest, y.die ≠ k ∨ y.pipe = none)) ∧ (rest.contains i = false)) ∧
    (∃ (s : State) (k : Nat), ((∀ p ∈ List.range 16, s.carder.items.any (fun i => i.die = k && i.pipe = some p) = true))) ∧
    (∃ (s : State) (k p : Nat) (fetched : List (List Byte)) (i : FeedItem) (x : Feed), (s.carder.items = [i]) ∧ (i.die = k) ∧ (i.pipe = some p) ∧ (s.feed? i.slice i.feed = some x) ∧ (x.d.mode = 1)) ∧
    (∃ (s : State) (l : Nat) (i : FeedItem) (x : Feed), (s.carder.items = [i]) ∧ (i.row = l) ∧ (i.stage = .ready) ∧ (s.feed? i.slice i.feed = some x)) ∧
    (∃ (s : State) (n f l slot : Nat) (i : FeedItem) (x : Feed), (s.carder.items = [i]) ∧ (s.feed? n f = some x) ∧ (i.slice = n) ∧ (i.feed = f) ∧ (i.row = l) ∧ (i.slot = slot) ∧ (i.stage = .ring)) ∧
    (∃ (s : State) (st at_ : Nat) (p : List Byte) (x : Feed) (e : StreamEntry), (s.streamFeed st = some (x, e)) ∧ (bitsOf (byteAt p 0) 7 6 ≠ 2 ∨ bitsOf (byteAt p 1) 6 0 ≠ e.pt ∨ (e.ssrc ≠ 0 ∧ beAt p 8 4 ≠ e.ssrc) ∨ (rtpPayload p).bind (rtpPieces e) = none)) ∧
    (∃ (s : State) (st at_ o total : Nat) (p bs : List Byte) (x : Feed) (e : StreamEntry), (s.streamFeed st = some (x, e)) ∧ (bitsOf (byteAt p 0) 7 6 = 2) ∧ (bitsOf (byteAt p 1) 6 0 = e.pt) ∧ (e.ssrc = 0 ∨ beAt p 8 4 = e.ssrc) ∧ ((rtpPayload p).bind (rtpPieces e) = some ([(o, bs)], total)) ∧ (s.carder.frames = [])) ∧
    (∃ (s : State) (st ts now : Nat) (r : RtpFrame), (s.carder.frames = [r]) ∧ (r.stream = st) ∧ (r.ts = ts) ∧ (r.done = none)) :=
  ⟨⟨(cOpen 0 [cItem .waiting, cItem .ready]), 0, (cItem .waiting), [cItem .ready], by decide +kernel⟩,
   ⟨(cOpen 0 ((List.range 16).map (fun p => cItem (.decoding p)))), 0, by decide +kernel⟩,
   ⟨(cOpen 0 [cItem (.decoding 3)]), 0, 3, [], (cItem (.decoding 3)), (cFeed 0), by decide +kernel⟩,
   ⟨(cOpen 0 [cItem .ready]), 0, (cItem .ready), (cFeed 0), by decide +kernel⟩,
   ⟨(cOpen 0 [cItem .ring]), 0, 0, 0, 0, (cItem .ring), (cFeed 0), by decide +kernel⟩,
   ⟨(cServing []), 3, 50, [0x80, 0xE1], cServe, cEntry, by decide +kernel⟩,
   ⟨(cServing []), 3, 50, 0, 3, cRtp, [1, 2, 3], cServe, cEntry, by decide +kernel⟩,
   ⟨(cServing [{ stream := 3, ts := 9, first := 5 }]), 3, 9, 2000000000, { stream := 3, ts := 9, first := 5 }, by decide +kernel⟩⟩

def kJob (memb : Nat) : Job := { isOpen := true, members := [⟨5, 0⟩, ⟨6, 0⟩, ⟨7, 0⟩], shards := [⟨5, 0⟩, ⟨6, 0⟩, ⟨7, 0⟩], epoch := 1, memb := memb }
def kS (memb : Nat) (c : Ckp) : State :=
  { (up.wr (Reg.CKP_LAND_SIZE 0) 1).wr (Reg.CKP_CFG 0) 0x10000 with jobs := [(0, kJob memb)], ckp := store {} [] 0 c, pat := { up.pat with watch := [6, 7], buddies := [⟨6, 0, 5, 0⟩, ⟨5, 0, 7, 0⟩] } }
def kArg (b : Nat) (s : State) : State := s.wr (Reg.CKP_ARG_LO 0) (BitVec.ofNat 32 b)
def kPage : PushedPage := ⟨6, 0, 9, 0, 2, [(1, 5), (300, 7)], false⟩
def kImg (c : ImageCond) (step : Option Nat) (ls : List Landed) : HeldImage := { part := 6, slice := 0, cond := c, step := step, landed := ls }
def kEmpty : List Byte := sha3x256 []
def kRec : List Byte := List.replicate 8 0 ++ leBytes 6 9
def kConf : Confirm := ⟨9, 1, 0, true, []⟩
def kProp : Proposal := ⟨3, 2, [5, 6], [], none, false⟩
def kCopies : List CopyAt := [⟨5, 0, 8⟩, ⟨6, 0, 8⟩, ⟨5, 0, 7⟩, ⟨6, 0, 7⟩, ⟨7, 0, 7⟩]
def kLead : Lead := ⟨kProp, [(5, [⟨5, 0, 8⟩])]⟩
def kCommit (ms : List (Nat × Nat)) (r : Option Nat) : Commit := ⟨2, r, 5, [], [], ms, false, false⟩

theorem witness_Checkpoints :
    (∃ (s : State) (p n : Nat) (v : Word), (s.hasSlice n = true) ∧ (fieldOf v 31 31 = 1) ∧ (fieldOf v 30 2 = 0) ∧ (fieldOf v 1 0 = 1)) ∧
    (∃ (s : State) (n b : Nat), ((s.job n).isOpen = true)) ∧
    (∃ (s : State) (d : Nat), ((s.ckpOf (s.sliceOfDie d)).copying = none)) ∧
    (∃ (s : State) (d g : Nat), ((s.ckpOf (s.sliceOfDie d)).copying ≠ none) ∧ ((s.pendPages (s.sliceOfDie d)).find? (fun e => e.1 = d) = some (d, g))) ∧
    (∃ (s : State) (a d : Nat), (s.statePage (a / 65536) = some d)) ∧
    (∃ (s : State) (n : Nat) (x : PushedPage), (s.takesPush n x.part x.slice x.toState = false ∨ (s.diesOf n).contains x.die = false ∨ s.regionSize x.die .state ≤ 65536 * x.page ∨ 2 ≤ (s.job n).memb)) ∧
    (∃ (s : State) (n o : Nat) (x : PushedPage), (s.hasSlice n = true) ∧ ((s.sliceState n = 0) ∧ (((s.job n).memb < 2) ∧ ((s.takesPush n x.part x.slice x.toState = true) ∧ (((s.diesOf n).contains x.die = true) ∧ ((65536 * x.page < s.regionSize x.die .state) ∧ (((s.imageOf n x.part x.slice).cond = .complete) ∧ (((s.imageOf n x.part x.slice).landed = []) ∧ ((1 ≤ s.rf (Reg.CKP_LAND_SIZE n) 15 0) ∧ ((s.imagePage x.toState x.die x.page + 65536 ≤ s.regionBase x.die .stage ∨ s.regionBase x.die .stage + 0x100000 ≤ s.imagePage x.toState x.die x.page) ∧ ((o < 65536) ∧ (let a := s.imagePage x.toState x.die x.page; let new := x.bytes.foldl (fun m e => store 0 m (e.1 % 65536) e.2) ([] : SMap Byte); (xorPage (s.pageBytes (a / 65536)) new ≠ []) ∧ (s.landArea n x.die = (s.regionBase x.die .stage, 0x100000)) ∧ (a % 65536 = 0))))))))))))) ∧
    (∃ (s : State) (n part slice step : Nat) (ds : List (Nat × List Byte)), (s.hasSlice n = true) ∧ (s.sliceState n = 0) ∧ ((s.job n).memb < 2) ∧ (s.takesPush n part slice ((s.ckpOf n).image.any (fun i => i.toState)) = true)) ∧
    (∃ (s : State) (n step : Nat) (f : Confirm), ((s.ckpOf n).confirming = [f]) ∧ (f.step = step) ∧ ((s.ckpOf n).promo = none)) ∧
    (∃ (s : State) (n step : Nat) (f : Confirm), ((s.ckpOf n).confirming = [f]) ∧ (f.step = step)) ∧
    (∃ (s : State) (n step : Nat) (ok : Bool), ((s.ckpOf n).confirming = [])) ∧
    (∃ (s : State) (n : Nat) (r : List Byte) (ok : Bool), ((s.ckpOf n).image = none)) ∧
    (∃ (s : State) (n : Nat) (r : List Byte) (ok : Bool) (i : HeldImage), ((s.ckpOf n).image = some i) ∧ (i.cond = .invalid ∨ i.cond = .torn ∨ s.rf (Reg.CKP_CFG n) 16 16 = 0 ∨ i.step.all (fun k => k < leAt r 8 6) = true ∨ i.chain.any (fun k => leAt r 8 6 ≤ k) = true)) ∧
    (∃ (s : State) (n : Nat) (r : List Byte) (i : HeldImage), (n < 4) ∧ ((s.ckpOf n).image = some i) ∧ (i.cond = .complete) ∧ (i.step = some (leAt r 8 6)) ∧ (s.rf (Reg.CKP_CFG n) 16 16 = 1) ∧ (i.chain = none) ∧ (i.broken = true)) ∧
    (∃ (s : State) (n : Nat) (r : List Byte) (i : HeldImage), ((s.ckpOf n).image = some i) ∧ (i.cond = .complete) ∧ (i.step = some (leAt r 8 6)) ∧ (s.rf (Reg.CKP_CFG n) 16 16 = 1) ∧ (i.chain = none)) :=
  ⟨⟨(kArg 5 (kS 1 {})), 0, 0, 0x80000001, by decide +kernel⟩,
   ⟨(kS 1 {}), 0, 5, by decide +kernel⟩,
   ⟨(kS 1 {}), 0, by decide +kernel⟩,
   ⟨{ kS 1 { copying := some 5 } with pend := [(3, true)] }, 0, 3, by decide +kernel⟩,
   ⟨{ kS 1 { copying := some 5 } with pend := [(3, true)] }, 0x30005, 0, by decide +kernel⟩,
   ⟨(kS 1 {}), 0, { kPage with part := 7 }, by decide +kernel⟩,
   ⟨((kS 1 { image := some (kImg .complete (some 8) []) }).writeB (0x800000000 + 65536 * 2 + 300) [4]), 0, 300, kPage, by decide +kernel⟩,
   ⟨((kS 1 { image := some (kImg .mid (some 8) [⟨0, 2, 9, 0, 5, [(1, 5)], false⟩]) }).wr (Reg.MEM_PART 0) 0x08200000), 0, 6, 0, 9, [(0, kEmpty)], by decide +kernel⟩,
   ⟨(kS 1 { confirming := [kConf] }), 0, 9, kConf, by decide +kernel⟩,
   ⟨(kS 1 { confirming := [kConf] }), 0, 9, kConf, by decide +kernel⟩,
   ⟨(kS 1 {}), 0, 9, true, by decide +kernel⟩,
   ⟨(kS 1 {}), 0, kRec, true, by decide +kernel⟩,
   ⟨(kS 1 { image := some (kImg .torn (some 9) []) }), 0, kRec, true, (kImg .torn (some 9) []), by decide +kernel⟩,
   ⟨((kS 1 { image := some (kImg .complete (some 9) [⟨0, 2, 9, 0, 5, [(1, 5)], false⟩]) }).writeB 0x800000005 [3]), 0, kRec, (kImg .complete (some 9) [⟨0, 2, 9, 0, 5, [(1, 5)], false⟩]), by decide +kernel⟩,
   ⟨(kS 1 { image := some (kImg .complete (some 9) []) }), 0, kRec, (kImg .complete (some 9) []), by decide +kernel⟩⟩

theorem witness_Restores :
    (∃ (s : State) (p n : Nat) (v : Word), (s.hasSlice n = true) ∧ (fieldOf v 31 31 = 1) ∧ (fieldOf v 30 2 = 0) ∧ (fieldOf v 1 0 = 2)) :=
  ⟨(up.wr (Reg.CKP_SRC_LO 0) 1), 0, 0, 0x80000002, by decide +kernel⟩

theorem witness_MembershipAgreement :
    (∃ (s : State) (p : Nat), (fetch false s.suspects p = true ∨ p ∉ s.pat.watch)) ∧
    (∃ (s : State) (p : Nat), (s.pat.watch.contains p = true) ∧ (fetch false s.suspects p = false)) ∧
    (∃ (s : State) (n p : Nat) (ep : Option Nat), (s.agrees n = true)) ∧
    (∃ (s : State) (n p : Nat), (s.agrees n = true) ∧ ((s.memberParts n).contains p = true) ∧ (fetch false s.suspects p = false)) ∧
    (∃ (s : State) (n p : Nat) (ep : Option Nat), (s.agrees n = false ∨ (s.memberParts n).contains p = false)) ∧
    (∃ (s : State) (n : Nat) (parts : List Nat) (r : Option Nat) (re : Bool), (n < 4) ∧ (2 * parts.length ≤ (s.memberParts n).length)) ∧
    (∃ (s : State) (n c : Nat) (p : Proposal), ((s.job n).isOpen = true) ∧ (p.round ≤ (s.ckpOf n).round ∨ (p.restore = true ∧ (s.ckpOf n).verified = false))) ∧
    (∃ (s : State) (n c : Nat) (p : Proposal), ((s.job n).isOpen = true) ∧ ((s.ckpOf n).round < p.round) ∧ (p.restore = false ∨ (s.ckpOf n).verified = true)) ∧
    (∃ (s : State) (n p r : Nat) (cs : List CopyAt) (l : Lead), ((s.ckpOf n).lead = some l) ∧ (l.prop.round = r) ∧ (l.prop.parts.contains p = true) ∧ (l.accepts.any (fun a => a.1 = p) = false)) ∧
    (∃ (s : State) (n p r : Nat) (cs : List CopyAt) (ok : Bool), ((s.ckpOf n).lead = none)) ∧
    (∃ (s : State) (n : Nat) (l : Lead), ((s.ckpOf n).lead = some l)) ∧
    (∃ (ms : List Member) (cs : List CopyAt) (r : Nat), (ms ≠ []) ∧ (resumeStep ms cs = some r)) ∧
    (∃ (s : State) (n : Nat) (m : Commit) (cp : List (Nat × List (Nat × Byte))), ((s.ckpOf n).committed = some m.epoch)) ∧
    (∃ (s : State) (n : Nat) (m : Commit) (cp : List (Nat × List (Nat × Byte))), (n < 4) ∧ ((s.job n).isOpen = true) ∧ ((s.ckpOf n).committed ≠ some m.epoch) ∧ (m.restore = false) ∧ (m.members ≠ []) ∧ ((s.partId, n) ∉ m.members)) ∧
    (∃ (s : State) (n : Nat) (m : Commit) (cp : List (Nat × List (Nat × Byte))), (n < 4) ∧ ((s.job n).isOpen = true) ∧ ((s.ckpOf n).committed ≠ some m.epoch) ∧ (m.restore = false) ∧ ((s.partId, n) ∈ m.members) ∧ (m.resume ≠ none)) ∧
    (∃ (s : State) (n : Nat) (m : Commit) (cp : List (Nat × List (Nat × Byte))), (n < 4) ∧ ((s.job n).isOpen = true) ∧ ((s.ckpOf n).committed ≠ some m.epoch) ∧ (m.restore = false) ∧ ((s.partId, n) ∈ m.members) ∧ (m.resume = none)) :=
  ⟨⟨(kS 1 {}), 9, by decide +kernel⟩,
   ⟨(kS 1 {}), 6, by decide +kernel⟩,
   ⟨(kS 1 {}), 0, 6, none, by decide +kernel⟩,
   ⟨(kS 1 {}), 0, 6, by decide +kernel⟩,
   ⟨(kS 1 {}), 0, 9, none, by decide +kernel⟩,
   ⟨(kS 1 {}), 0, [5], none, false, by decide +kernel⟩,
   ⟨(kS 1 { round := 3 }), 0, 6, kProp, by decide +kernel⟩,
   ⟨(kS 1 {}), 0, 6, kProp, by decide +kernel⟩,
   ⟨(kS 2 { lead := some kLead }), 0, 6, 3, kCopies, kLead, by decide +kernel⟩,
   ⟨(kS 2 {}), 0, 6, 3, kCopies, true, by decide +kernel⟩,
   ⟨(kS 2 { lead := some kLead }), 0, kLead, by decide +kernel⟩,
   ⟨[⟨5, 0⟩, ⟨6, 0⟩, ⟨7, 0⟩], kCopies, 7, by decide +kernel⟩,
   ⟨(kS 1 { committed := some 2 }), 0, (kCommit [] none), [], by decide +kernel⟩,
   ⟨(kS 1 {}), 0, (kCommit [(6, 0)] none), [], by decide +kernel⟩,
   ⟨(kS 1 {}), 0, (kCommit [(5, 0), (6, 0)] (some 0)), [], by decide +kernel⟩,
   ⟨(kS 1 {}), 0, (kCommit [(5, 0), (6, 0)] none), [], by decide +kernel⟩⟩

/-- Link 3 in state `x`, on the Loose code, wired to part 6. -/
def lWire : PatLink := { link := 3, mode := 1, fec := 1, toEp := false, ep := 0, peerUid := 0, peerPart := 6, peerLink := 4, required := true }
def lS (x : Nat) (l : Link) : State :=
  ({ (((up.wr (Reg.LNK_N_CTL 3) 5).wr (Reg.LNK_N_STAT 3) (BitVec.ofNat 32 (0x30 + x))).wr (Reg.LNK_LIVE 0) (if x = 6 ∨ x = 7 then 8 else 0)).wr Reg.LNK_CTL 0x00130010 with
    links := store {} [] 3 l, now := 5000, pat := { up.pat with links := [lWire] } }).wr (Reg.SWT_CTL) 0x20
def lFlit (q : Nat) : DataFlit := { seq := q, vc := 2, sop := true, eop := true, replace := false, stomp := false, payload := List.replicate 240 1 }
def lIdent : PeerIdent := { role := 0, uid := 77, fec := 3, maxRd := 512, ack := true }
def lHello (part : Nat) : List Byte := record [(1, 2), (1, 0), (2, part), (1, 4), (1, 0), (2, 0), (8, 0)]
def lIdentP : List Byte := record [(1, 1), (1, 0), (2, 1), (8, 77), (2, 1), (2, 2), (1, 3), (4, 0x40302010), (4, 0x80706050), (2, 512), (1, 1)]
/-- A packet of 8 bytes from part 6, endpoint 2, to part `d`, endpoint `e`. -/
def lPkt (d e op vc hops flags : Nat) : List Byte :=
  record [(8, d * 2 ^ 50 + e * 2 ^ 44 + 64), (2, 6), (1, 2), (1, op), (2, 8), (1, vc + flags), (1, hops), (2, 5), (2, 9), (4, 0), (8, 0), (8, 0x1122334455667788)]
def lBody : List Byte := fitBytes 240 (lPkt 6 0 2 2 3 0)
def lIn (vc : Nat) (p : List Byte) (x : Nat) : State :=
  let s := (lS x { inbox := [(vc, 1, p)], credits := [(2, 9)] })
  let s := (s.wr (Reg.SWT_RT_LO 6) 0x83).wr (Reg.SWT_RT_HI 6) 0x80000000
  (s.wr (Reg.SWT_EP_LO 3) 0x83).wr (Reg.SWT_EP_HI 3) 0x80000000
def lColl : Coll := { wColl with d := { wDesc with localEp := 4 } }
def lFeed : Feed := { cFeed 0 with spans := [⟨2, 0, 1⟩], released := [(2, 1), (2, 9)] }

theorem witness_LinkBringUp :
    (∃ (s : State) (n : Nat), (n < 96) ∧ (s.linkState n = 3 ∨ s.linkState n = 4)) ∧
    (∃ (s : State) (n : Nat), (¬ (s.linkState n = 3 ∨ s.linkState n = 4))) ∧
    (∃ (s : State) (n : Nat), (n < 96) ∧ (s.linkState n = 3 ∨ s.linkState n = 4)) ∧
    (∃ (s : State) (n : Nat), (n < 96) ∧ (s.linkState n = 3) ∧ ((s.link n).rx = [])) ∧
    (∃ (s : State) (n : Nat) (p : List Byte), (s.linkState n ≠ 5 ∨ byteAt p 0 ≠ 1)) ∧
    (∃ (s : State) (n v : Nat) (p : List Byte), (n < 96) ∧ (v < 8) ∧ (s.linkState n = 5) ∧ (byteAt p 0 = 1)) ∧
    (∃ (s : State) (n : Nat) (p : List Byte), ((s.link n).ident = none ∨ s.linkState n ≠ 5 ∨ byteAt p 0 ≠ 2)) ∧
    (∃ (s : State) (n : Nat) (p : List Byte) (i : PeerIdent), ((s.link n).ident = some i) ∧ (s.linkState n = 5) ∧ (byteAt p 0 = 2)) ∧
    (∃ (s : State) (n : Nat) (p : List Byte) (i : PeerIdent) (w : PatLink), (s.wiring n = some w)) ∧
    (∃ (s : State) (n : Nat) (a b : Bool), (s.linkState n ≠ 9)) ∧
    (∃ (s : State) (n : Nat) (a b : Bool), (n < 96) ∧ (s.linkState n = 9)) ∧
    (∃ (s : State) (n : Nat), (s.linkState n ≠ 6) ∧ (s.linkState n ≠ 7)) ∧
    (∃ (s : State) (n : Nat), (n < 96) ∧ (s.linkState n = 6 ∨ s.linkState n = 7)) ∧
    (∃ (s : State) (p n : Nat) (v : Word), (n < 96) ∧ (fieldOf v 4 4 = 1) ∧ (fieldOf v 3 3 = 0)) ∧
    (∃ (s : State) (p n : Nat) (v : Word), (n < 96) ∧ (fieldOf v 4 4 = 0) ∧ (fieldOf v 3 3 = 1)) :=
  ⟨⟨(lS 3 { ident := some lIdent, txSeq := 4 }), 3, by decide +kernel⟩,
   ⟨(lS 6 {}), 3, by decide +kernel⟩,
   ⟨(lS 4 { replay := [lFlit 0] }), 3, by decide +kernel⟩,
   ⟨(lS 3 { replay := [lFlit 0, { lFlit 1 with eop := false }], queue := [(2, [])] }), 3, by decide +kernel⟩,
   ⟨(lS 6 {}), 3, lIdentP, by decide +kernel⟩,
   ⟨(lS 5 {}), 3, 7, lIdentP, by decide +kernel⟩,
   ⟨(lS 5 {}), 3, (lHello 6), by decide +kernel⟩,
   ⟨(lS 5 { ident := some lIdent }), 3, (lHello 6), lIdent, by decide +kernel⟩,
   ⟨(lS 5 {}), 3, (lHello 6), lIdent, lWire, by decide +kernel⟩,
   ⟨(lS 6 {}), 3, true, true, by decide +kernel⟩,
   ⟨(lS 9 { replay := [lFlit 0], tries := 1 }), 3, true, true, by decide +kernel⟩,
   ⟨(lS 5 {}), 3, by decide +kernel⟩,
   ⟨(lS 7 { replay := [lFlit 0], txSeq := 1, rxSeq := some 4, credits := [(2, 3)] }), 3, by decide +kernel⟩,
   ⟨(lS 6 { replay := [lFlit 0] }), 0, 3, 0x10, by decide +kernel⟩,
   ⟨(lS 1 { held := true }), 0, 3, 8, by decide +kernel⟩⟩

theorem witness_LinkFlits :
    (∃ (h : Nat) (p : List Byte) (stomp : Bool), (h < 2 ^ 64) ∧ (p.length = 240)) ∧
    (∃ (s : State) (n : Nat) (rx : FlitRx), (n < 96) ∧ (s.linkState n = 6 ∨ s.linkState n = 7) ∧ (rx.lost = true)) ∧
    (∃ (s : State) (n : Nat) (rx : FlitRx), (s.linkState n < 5 ∨ s.linkState n = 9 ∨ s.linkState n = 0xA)) ∧
    (∃ (s : State) (n vc : Nat) (p : List Byte), (n < 96) ∧ (vc < 8) ∧ (s.linkState n = 6) ∧ (s.linkTight n = false) ∧ (p.length = 240) ∧ ((s.link n).queue = []) ∧ ((s.vcRx n vc).cutTo = none)) ∧
    (∃ (s : State) (n vc q : Nat) (p : List Byte), (n < 96) ∧ (vc < 8) ∧ (s.linkState n = 6) ∧ (s.linkTight n = false) ∧ (p.length = 240) ∧ ((s.link n).queue = []) ∧ (q < 4096) ∧ (q ≠ (s.link n).expected)) ∧
    (∃ (s : State) (n : Nat) (bytes : List Byte), (n < 96) ∧ (s.linkState n = 6) ∧ (s.linkTight n = false) ∧ (bytes.length = 256) ∧ (bitsOf (leAt bytes 0 8) 3 0 ≠ 1) ∧ (leAt bytes 248 8 ≠ crc64 (bytes.take 248))) ∧
    (∃ (s : State) (n q vc k : Nat), (n < 96) ∧ (s.linkState n = 6) ∧ (s.linkTight n = false) ∧ ((s.link n).queue = []) ∧ (q < 4096) ∧ (vc < 8) ∧ (k < 256)) ∧
    (∃ (s : State) (n : Nat), (n < 96)) ∧
    (∃ (s : State) (t : Nat), ((∀ n ∈ List.range 96, s.linkState n ≠ 6))) ∧
    (∃ (s : State) (t n : Nat), (s.linkState n = 6)) :=
  ⟨⟨0x401, (List.replicate 240 3), true, by decide +kernel⟩,
   ⟨(lS 6 {}), 3, { groups := [], loose := [], corr := 0, unc := 0, lost := true, idle := false }, by decide +kernel⟩,
   ⟨(lS 1 {}), 3, (looseRx [] false), by decide +kernel⟩,
   ⟨(lS 6 { rxSeq := some 4095, replay := [lFlit 3], txSeq := 4 }), 3, 2, lBody, by decide +kernel⟩,
   ⟨(lS 6 { rxSeq := some 5 }), 3, 2, 8, lBody, by decide +kernel⟩,
   ⟨(lS 6 {}), 3, (List.replicate 256 0xF2), by decide +kernel⟩,
   ⟨(lS 6 { replay := [lFlit 4094, lFlit 4095, lFlit 0, lFlit 1], txSeq := 2, credits := [(2, 1)] }), 3, 0, 2, 255, by decide +kernel⟩,
   ⟨(lS 6 { replay := [lFlit 0, lFlit 1] }), 3, by decide +kernel⟩,
   ⟨(lS 5 {}), 9999, by decide +kernel⟩,
   ⟨(lS 6 { tsync := some (3, 4) }), 9999, 3, by decide +kernel⟩⟩

theorem witness_TightCodeCorrects :
    (∃ (d : Nat), (d < 2 ^ 120)) ∧
    (∃ (d i e : Nat), (d < 2 ^ 120) ∧ (i < 64) ∧ (1 ≤ e) ∧ (e < 4)) :=
  ⟨⟨0x123456789ABCDEF, by decide +kernel⟩,
   ⟨0x123456789ABCDEF, 63, 3, by decide +kernel⟩⟩

theorem witness_SwitchForwarding :
    (∃ (s : State) (i : Nat) (inj : List Byte), (i < 96) ∧ ((s.link i).inbox = [])) ∧
    (∃ (s : State) (i vc k : Nat) (inj p : List Byte) (rest : List (Nat × Nat × List Byte)), (i < 96) ∧ ((s.link i).inbox = (vc, k, p) :: rest)) ∧
    (∃ (s : State) (p : List Byte) (st : Nat), (st < 65536) ∧ (s.partId < 2 ^ 14)) ∧
    (∃ (s : State) (i : Nat) (inj : List Byte), (96 ≤ i) ∧ ((pktDstPart inj ≠ s.partId) ∧ ((pktMcast inj = false) ∧ ((inj.length = pktSize inj) ∧ (let q := withHops inj (s.rf Reg.SWT_CTL 5 0); (goodPacket q = true) ∧ (s.routeOut q ≠ none)))))) ∧
    (∃ (s : State) (live : List Nat) (p : List Byte), (live ≠ [])) ∧
    (∃ (s : State) (a b : Nat) (p : List Byte), (pktVc p ≠ 0)) ∧
    (∃ (s : State) (p g k : Nat) (v : Word), (g < 4096) ∧ (k < 7)) ∧
    (∃ (s : State) (ep coll epoch block : Nat) (c : Coll), (s.coll? coll = some c)) ∧
    (∃ (s : State) (ep coll epoch block : Nat), (s.coll? coll = none)) ∧
    (∃ (s : State) (ep id k : Nat) (x : Feed), (s.carder.feeds = [x])) ∧
    (∃ (s : State) (ep tag st : Nat) (bs : List Byte) (m : List Bool), (s.rma.edge.find? (fun o => o.ep = ep && o.tag = tag) = none)) ∧
    (∃ (s : State) (ep tag st : Nat) (bs : List Byte) (m : List Bool) (o : EdgeOp), (s.rma.edge.find? (fun x => x.ep = ep && x.tag = tag) = some o)) :=
  ⟨⟨(lS 6 {}), 3, [], by decide +kernel⟩,
   ⟨(lIn 2 (lPkt 6 0 2 2 3 0) 6), 3, 2, 1, [], (lPkt 6 0 2 2 3 0), [], by decide +kernel⟩,
   ⟨(lS 6 {}), (lPkt 5 60 2 2 3 0), 0x0602, by decide +kernel⟩,
   ⟨(lIn 2 [] 6), 96, (lPkt 6 0 2 2 0 0), by decide +kernel⟩,
   ⟨(lS 6 {}), [3, 5, 7], lBody, by decide +kernel⟩,
   ⟨(lS 6 { credits := [(2, 9)] }), 4, 3, lBody, by decide +kernel⟩,
   ⟨(let s := lS 6 {}; s.setDraft (Reg.SWT_MC 7 0) (some 8)), 0, 7, 0, 0x80000000, by decide +kernel⟩,
   ⟨{ up with tws := { colls := [lColl] } }, 3, 9, 1, 5, lColl, by decide +kernel⟩,
   ⟨up, 3, 9, 1, 5, by decide +kernel⟩,
   ⟨{ up with carder := { feeds := [lFeed] } }, 2, 7, 5, lFeed, by decide +kernel⟩,
   ⟨up, 3, 1, 0, [], [], by decide +kernel⟩,
   ⟨{ up with rma := { edge := [⟨3, 1, .serve 2 0 0 0⟩] } }, 3, 1, 0, [], [], ⟨3, 1, .serve 2 0 0 0⟩, by decide +kernel⟩⟩

/-- Connection 5 to part 6, OPEN in epoch 3. -/
def mConn : RmaConn := { state := 1, epoch := 3, known := true, opens := 1, rpart := 6, rcid := 9, mtu := 1024, maxWnd := 8, win := 2048, target := 5000 }
def mReg : RmaRegion := { slice := 0, base := 0x30000, ep := 0, pd := 0, len := 0x100, rw := true, rr := true, ctr := none }
def mRq : WqReq := { idx := 0, user := 77 }
def mWq (rs : List WqReq) : WorkQueue := { slice := 0, ring := 0x20000, log2 := 4, cq := 0x28000, cqLog2 := 4, reqs := rs }
def mS (c : RmaConn) : State := { up with now := 100000, rma := { conns := [(5, c)], regions := [(2, some mReg)], gens := [(2, 7)], wqs := [(1, some (mWq []))] } }
def mWith (c : RmaConn) (r : RmaRegion) (rs : List WqReq) : State := { mS c with rma := { conns := [(5, c)], regions := [(2, some r)], gens := [(2, 7)], wqs := [(1, some (mWq rs))] } }
/-- A request packet for connection 5: opcode, PSN, epoch, flags, key, and payload. -/
def mPkt (op psn ep fl key : Nat) (data : List Byte) : List Byte :=
  record [(8, 5 * 2 ^ 50 + 0x10), (2, 6), (1, 0), (1, op), (2, data.length), (1, 2), (1, 3), (2, 0), (2, 0), (3, 5 + fl * 2 ^ 18), (3, psn), (2, ep), (4, key)] ++ data
def mKey : Nat := 2 * 4096 + 7
def mOpenD (ep wnd : Nat) : List Byte := fitBytes 64 (record [(3, 4), (1, 0), (2, ep), (2, 3), (2, 6), (3, 9), (1, 1), (1, 7), (1, 0), (2, 16), (2, wnd), (2, 0)])
def mRegD (ep len : Nat) : List Byte := fitBytes 32 (record [(5, 0x30000), (1, ep), (2, 3), (5, len), (1, 3)])
def mCmd (i : Nat) (bs : List Byte) : State := ((((mS mConn).writeB 0x40000 bs).wr (Reg.RMA_ARG_LO 0) 0x40000).wr (Reg.RMA_INDEX 0) (BitVec.ofNat 32 i))
def mWqD (log2 : Nat) : List Byte := fitBytes 32 (record [(5, 0x20000), (1, log2), (2, 0), (5, 0x28000), (1, 4)])
def mMsg : RmaMsg := { wq := 1, idx := 0, read := false, ep := 0, loc := 0x30000, roff := 0, rkey := 9, len := 8, notify := false, total := 1, sent := 1 }
def mFl : RmaFlight := { psn := 4, wq := 1, idx := 0, read := false, last := true, packet := mPkt 0x10 4 3 3 9 [], sentAt := 99000 }
def mRd : RmaMsg := { mMsg with read := true, len := 16 }
def mRFl : RmaFlight := { mFl with read := true }
def mBusy (st : Nat) : RmaConn := { mConn with state := st, msgs := [mMsg], flight := [mFl], psn := 5, deadline := 100500 }
def mRead : RmaConn := { mConn with msgs := [mRd], flight := [mRFl], psn := 5 }
def mWr (op fl cid len : Nat) : List Byte := fitBytes 64 (record [(1, op), (1, fl), (2, 0), (3, cid), (1, 0), (6, 0x30000), (2, 0), (5, 0x40), (3, 0), (4, 9), (4, len), (2, 3), (2, 3), (4, 1), (4, 55)])
def mStart (bs : List Byte) : State := ((mS mConn).writeB 0x20000 bs).wr (Reg.RMA_WQ_TAIL 1) 1
def mEdge (w : EdgeWork) : State := { mS mConn with rma := { conns := [(5, { mConn with held := [{ psn := 0, last := true, notify := false, key := mKey, read := none, placed := false }] })], regions := [(2, some mReg)], edge := [⟨3, 1, w⟩] } }

theorem witness_RmaCommands :
    (∃ (s : State) (p n : Nat) (v : Word), (s.hasSlice n = true) ∧ (fieldOf v 31 31 = 1) ∧ (fieldOf v 30 4 = 0) ∧ (fieldOf v 3 0 = 1)) ∧
    (∃ (s : State) (n a : Nat), (s.openStatus n a = 0)) ∧
    (∃ (s : State) (n a : Nat), (s.openStatus n a = 0)) ∧
    (∃ (s : State) (n a : Nat), (s.openStatus n a = 0) ∧ (let cid := s.le a 3; let b := s.conn cid; (b.known = true))) ∧
    (∃ (s : State) (n a : Nat), (s.openStatus n a = 0)) ∧
    (∃ (s : State) (n a : Nat), (s.openStatus n a = 0)) ∧
    (∃ (s : State) (n a : Nat), (s.openStatus n a = 0)) ∧
    (∃ (s : State) (n a : Nat), (s.openStatus n a = 0)) ∧
    (∃ (s : State) (n a : Nat), (s.openStatus n a = 0)) ∧
    (∃ (s : State) (p n : Nat) (v : Word), (s.hasSlice n = true) ∧ (fieldOf v 31 31 = 1) ∧ (fieldOf v 30 4 = 0) ∧ (fieldOf v 3 0 = 2)) ∧
    (∃ (s : State) (p n : Nat) (v : Word), (s.hasSlice n = true) ∧ (fieldOf v 31 31 = 1) ∧ (fieldOf v 30 4 = 0) ∧ (fieldOf v 3 0 = 3)) ∧
    (∃ (s : State) (cid : Nat), let b := s.conn cid; let t := s.rmaClose cid; (b.opens < 65536)) ∧
    (∃ (s : State) (cid : Nat), let b := s.conn cid; let t := s.rmaClose cid; (65536 ≤ b.opens)) ∧
    (∃ (s : State) (cid w : Nat) (m : RmaMsg) (q : WorkQueue) (r : WqReq), ((s.conn cid).msgs = [m]) ∧ (m.wq = w) ∧ (s.wq w = some q) ∧ (q.reqs = [r]) ∧ (r.idx = m.idx) ∧ (r.status = none)) ∧
    (∃ (s : State) (p n : Nat) (v : Word), (s.hasSlice n = true) ∧ (fieldOf v 31 31 = 1) ∧ (fieldOf v 30 4 = 0) ∧ (fieldOf v 3 0 = 4)) ∧
    (∃ (s : State) (n a : Nat), (s.regionStatus n a = 0)) ∧
    (∃ (s : State) (n j : Nat), (n * s.shareSize 1048576 ≤ j) ∧ (j < s.lowestKey n)) ∧
    (∃ (s : State) (p n : Nat) (v : Word), (s.hasSlice n = true) ∧ (fieldOf v 31 31 = 1) ∧ (fieldOf v 30 4 = 0) ∧ (fieldOf v 3 0 = 5)) ∧
    (∃ (s : State) (n : Nat), (fetch none s.rma.deregs n = none)) ∧
    (∃ (s : State) (n i : Nat), (fetch none s.rma.deregs n = some i) ∧ (n < 4)) ∧
    (∃ (s : State) (p n : Nat) (v : Word), (s.hasSlice n = true) ∧ (fieldOf v 31 31 = 1) ∧ (fieldOf v 30 4 = 0) ∧ (fieldOf v 3 0 = 6)) ∧
    (∃ (s : State) (p n : Nat) (v : Word), (s.hasSlice n = true) ∧ (fieldOf v 31 31 = 1) ∧ (fieldOf v 30 4 = 0) ∧ (fieldOf v 3 0 = 7)) ∧
    (∃ (s : State) (n a : Nat), (s.createWqStatus n a = 0)) ∧
    (∃ (s : State) (p n : Nat) (v : Word), (s.hasSlice n = true) ∧ (fieldOf v 31 31 = 1) ∧ (fieldOf v 30 4 = 0) ∧ (fieldOf v 3 0 = 8)) ∧
    (∃ (s : State) (p n : Nat) (v : Word), (s.hasSlice n = true) ∧ (fieldOf v 31 31 = 1) ∧ (fieldOf v 30 4 = 0) ∧ (fieldOf v 3 0 = 9)) ∧
    (∃ (s : State) (n t : Nat), (fetch none s.rma.fences n = none)) ∧
    (∃ (s : State) (n t : Nat) (x : RmaFence), (n < 4) ∧ (fetch none s.rma.fences n = some x)) ∧
    (∃ (s : State) (p n : Nat) (v : Word), (s.hasSlice n = true) ∧ (fieldOf v 31 31 = 1) ∧ (fieldOf v 30 4 = 0) ∧ (fieldOf v 3 0 = 10)) ∧
    (∃ (s : State) (p n : Nat) (v : Word), (s.hasSlice n = true) ∧ (let u := rmaAsked s n v; (fieldOf v 31 31 = 0))) ∧
    (∃ (s : State) (p n : Nat) (v : Word), (s.hasSlice n = true) ∧ (let u := rmaAsked s n v; (fieldOf v 31 31 = 1) ∧ (fieldOf v 30 4 ≠ 0))) ∧
    (∃ (s : State) (p n : Nat) (v : Word), (s.hasSlice n = true) ∧ (let u := rmaAsked s n v; (fieldOf v 31 31 = 1) ∧ (u.rf (Reg.RMA_STAT n) 31 31 = 0) ∧ (fieldOf v 3 0 = 0 ∨ 11 ≤ fieldOf v 3 0))) :=
  ⟨⟨(mCmd 0 (mOpenD 1 4)), 0, 0, 0x80000001, by decide +kernel⟩,
   ⟨(mCmd 0 (mOpenD 1 4)), 0, 0x40000, by decide +kernel⟩,
   ⟨(mCmd 0 (mOpenD 1 4)), 0, 0x40000, by decide +kernel⟩,
   ⟨{ mCmd 0 (mOpenD 1 4) with rma := { conns := [(4, { known := true, epoch := 0 })] } }, 0, 0x40000, by decide +kernel⟩,
   ⟨(mCmd 0 (mOpenD 1 4)), 0, 0x40000, by decide +kernel⟩,
   ⟨(mCmd 0 (mOpenD 1 4)), 0, 0x40000, by decide +kernel⟩,
   ⟨(mCmd 0 (mOpenD 1 4)), 0, 0x40000, by decide +kernel⟩,
   ⟨(mCmd 0 (mOpenD 1 4)), 0, 0x40000, by decide +kernel⟩,
   ⟨(mCmd 0 (mOpenD 1 4)), 0, 0x40000, by decide +kernel⟩,
   ⟨(mCmd 5 []), 0, 0, 0x80000002, by decide +kernel⟩,
   ⟨({ mCmd 5 [] with rma := (mS (mBusy 2)).rma }), 0, 0, 0x80000003, by decide +kernel⟩,
   ⟨(mS mConn), 5, by decide +kernel⟩,
   ⟨(mS { mConn with opens := 65536 }), 5, by decide +kernel⟩,
   ⟨(mWith (mBusy 1) mReg [mRq]), 5, 1, mMsg, (mWq [mRq]), mRq, by decide +kernel⟩,
   ⟨(mCmd 0 (mRegD 0 64)), 0, 0, 0x80000004, by decide +kernel⟩,
   ⟨(mCmd 0 (mRegD 0 64)), 0, 0x40000, by decide +kernel⟩,
   ⟨({ mS mConn with rma := { regions := [(0, some mReg), (1, some mReg)], keyQuar := [(2, true)] } }), 0, 2, by decide +kernel⟩,
   ⟨(mCmd mKey []), 0, 0, 0x80000005, by decide +kernel⟩,
   ⟨(mS mConn), 0, by decide +kernel⟩,
   ⟨({ mS mConn with rma := { regions := [(2, some mReg)], gens := [(2, 0xFFF)], deregs := [(0, some 2)] } }), 0, 2, by decide +kernel⟩,
   ⟨(mCmd 4 (record [(1, 0), (1, 0), (1, 64), (1, 0)])), 0, 0, 0x80000006, by decide +kernel⟩,
   ⟨(mCmd 2 (mWqD 4)), 0, 0, 0x80000007, by decide +kernel⟩,
   ⟨(mCmd 2 (mWqD 4)), 0, 0x40000, by decide +kernel⟩,
   ⟨(mCmd 1 []), 0, 0, 0x80000008, by decide +kernel⟩,
   ⟨({ mCmd 1 [] with rma := { conns := [(4, { state := 3 }), (5, mConn)], keyQuar := [(9, true)] } }), 0, 0, 0x80000009, by decide +kernel⟩,
   ⟨(mS mConn), 0, 5, by decide +kernel⟩,
   ⟨({ mS mConn with rma := { conns := [(4, { state := 3 }), (5, mConn)], keyQuar := [(9, true)], fences := [(0, some ⟨5, [4], [9]⟩)] } }), 0, 1000000000, ⟨5, [4], [9]⟩, by decide +kernel⟩,
   ⟨(mCmd 5 []), 0, 0, 0x8000000A, by decide +kernel⟩,
   ⟨(mCmd 5 []), 0, 0, 0xA, by decide +kernel⟩,
   ⟨(mCmd 5 []), 0, 0, 0x8000001A, by decide +kernel⟩,
   ⟨(mCmd 5 []), 0, 0, 0x8000000B, by decide +kernel⟩⟩

theorem witness_RmaTraffic :
    (∃ (s : State) (p w : Nat) (v : Word) (q : WorkQueue), (w < 1024) ∧ (s.hasSlice (s.shareOwner 1024 w) = true) ∧ (s.wq w = some q)) ∧
    (∃ (s : State) (p w : Nat) (v : Word), (w < 1024) ∧ (s.hasSlice (s.shareOwner 1024 w) = true) ∧ (s.wq w = none)) ∧
    (∃ (s : State) (p w : Nat) (v : Word) (q : WorkQueue) (r : WqReq), (w < 1024) ∧ (s.hasSlice (s.shareOwner 1024 w) = true) ∧ (s.wq w = some q) ∧ (q.reqs = [r])) ∧
    (∃ (s : State) (p c : Nat) (v : Word), (c < 16384) ∧ (s.hasSlice (s.shareOwner 16384 c) = true)) ∧
    (∃ (s : State) (c : Nat) (v : Word), (c < 16384)) ∧
    (∃ (s : State) (w : Nat) (q : WorkQueue) (r : WqReq) (rest : List WqReq), (w < 1024) ∧ (s.wq w = some q) ∧ (q.reqs = r :: rest)) ∧
    (∃ (s : State) (w : Nat) (q : WorkQueue), (s.wq w = some q)) ∧
    (∃ (s : State) (p : List Byte) (c : RmaConn) (r : RmaRegion) (a : Nat), (s.conn (pktCid p) = c) ∧ (s.region (pktRkey p / 4096) = some r) ∧ (rmaTakes s p c r = true) ∧ (pktNotify p = false ∨ pktLast p = false ∨ r.ctr = none) ∧ (p.length = 32 + pktLen p)) ∧
    (∃ (s : State) (p : List Byte) (c : RmaConn) (r : RmaRegion) (k : Nat), (k < 16384) ∧ (s.conn (pktCid p) = c) ∧ (s.region (pktRkey p / 4096) = some r) ∧ (rmaTakes s p c r = true) ∧ (pktNotify p = true) ∧ (pktLast p = true) ∧ (r.ctr = some k) ∧ (p.length = 32 + pktLen p)) ∧
    (∃ (s : State) (p : List Byte), (pktOpcode p = 0x10) ∧ (2 ^ 23 ≤ aheadMod 24 (s.conn (pktCid p)).epsn (pktPsn p))) ∧
    (∃ (s : State) (p : List Byte), (pktOpcode p = 0x10) ∧ ((s.conn (pktCid p)).held = []) ∧ (pktPsn p = (s.conn (pktCid p)).epsn) ∧ ((s.conn (pktCid p)).epsn < 2 ^ 24) ∧ (s.keyOk (s.connSlice (pktCid p)) (s.conn (pktCid p)) (pktRkey p) (pktOff p % 2 ^ 40) (pktLen p) false = false)) ∧
    (∃ (s : State) (cid t a w : Nat) (c : RmaConn) (f : RmaFlight) (m : RmaMsg) (q : WorkQueue) (r : WqReq), (s.conn cid = c) ∧ (c.flight = [f]) ∧ (c.msgs = [m]) ∧ (f.acked = false) ∧ (f.read = false) ∧ (f.last = true) ∧ (f.psn = a) ∧ (a < 2 ^ 24) ∧ (m.wq = w) ∧ (f.wq = w) ∧ (m.idx = f.idx) ∧ (s.wq w = some q) ∧ (q.reqs = [r]) ∧ (r.idx = m.idx) ∧ (r.status = none)) ∧
    (∃ (s : State) (p : List Byte) (f : RmaFlight) (m : RmaMsg), let c := s.conn (pktCid p); let off := pktOff p % 2 ^ 40; let busy := s.rma.edge.any (fun o => o.work = .resp (pktCid p) m.wq m.idx off (pktLen p)); ((c.flight).find? (fun g => g.read && g.psn = pktPsn p) = some f) ∧ ((c.msgs).find? (fun y => y.wq = f.wq && y.idx = f.idx) = some m)) ∧
    (∃ (s : State) (p : List Byte), ((s.conn (pktCid p)).state = 1) ∧ (pktEpoch p = (s.conn (pktCid p)).epoch) ∧ ((s.conn (pktCid p)).flight = [])) ∧
    (∃ (s : State) (ep tag st : Nat), (s.rma.edge.find? (fun o => o.ep = ep && o.tag = tag) = none)) ∧
    (∃ (s : State) (ep tag st : Nat) (o : EdgeOp), (s.rma.edge.find? (fun x => x.ep = ep && x.tag = tag) = some o)) :=
  ⟨⟨(mS mConn), 0, 1, 16, (mWq []), by decide +kernel⟩,
   ⟨(mS mConn), 0, 2, 1, by decide +kernel⟩,
   ⟨(mWith mConn mReg [{ mRq with status := some 0 }]), 0, 1, 0, (mWq [{ mRq with status := some 0 }]), { mRq with status := some 0 }, by decide +kernel⟩,
   ⟨(mS mConn), 0, 7, 5, by decide +kernel⟩,
   ⟨(mS mConn), 7, 5, by decide +kernel⟩,
   ⟨(mWith mConn mReg [{ mRq with status := some 0, bytes := 8, doneCtr := some 3 }]), 1, (mWq [{ mRq with status := some 0, bytes := 8, doneCtr := some 3 }]), { mRq with status := some 0, bytes := 8, doneCtr := some 3 }, [], by decide +kernel⟩,
   ⟨(mStart (mWr 1 8 5 16)), 1, (mWq []), by decide +kernel⟩,
   ⟨(mS mConn), (mPkt 0x10 0 3 3 mKey [1, 2, 3]), mConn, mReg, 0x30011, by decide +kernel⟩,
   ⟨(mWith mConn { mReg with ctr := some 3 } []), (mPkt 0x10 0 3 7 mKey [1, 2, 3]), mConn, { mReg with ctr := some 3 }, 3, by decide +kernel⟩,
   ⟨(mS mConn), (mPkt 0x10 0xFFFFFF 3 3 mKey [1, 2, 3]), by decide +kernel⟩,
   ⟨(mS mConn), (mPkt 0x10 0 3 3 (mKey + 1) [1, 2, 3]), by decide +kernel⟩,
   ⟨(mWith (mBusy 1) mReg [mRq]), 5, 101000, 4, 1, (mBusy 1), mFl, mMsg, (mWq [mRq]), mRq, by decide +kernel⟩,
   ⟨(mS mRead), (mPkt 0x12 4 3 0 0 []), mRFl, mRd, by decide +kernel⟩,
   ⟨(mS mConn), (mPkt 0x12 4 3 0 0 []), by decide +kernel⟩,
   ⟨(mS mConn), 3, 1, 0, by decide +kernel⟩,
   ⟨(mEdge (.place 5 3 0 2)), 3, 1, 0, ⟨3, 1, .place 5 3 0 2⟩, by decide +kernel⟩⟩

/-- Port 0 UP on link 0 in ETHERNET mode, its largest frame 1518 bytes, port 1 UP with it. -/
def eS : State :=
  ((((((up.wr (Reg.LNK_N_CTL 0) 2).wr (Reg.LNK_N_CTL 1) 2).wr (Reg.ETH_P_STAT 0) 2).wr (Reg.ETH_P_STAT 1) 2).wr (Reg.ETH_P_CFG 0) 0x05EE0000).wr
    (Reg.ETH_GRP 3) 2).wr (Reg.ETH_P_LAT 0) 0x00070005
def ePar : Parsed := { tagged := false, vid := 0, etype := 0x0800, l3 := 1, l3Off := 14, l4Off := 34, dscp := 0, proto := 17, src := [10, 0, 0, 1], dst := [10, 0, 0, 2], l4 := some (5, 6) }
def eFrame (etype : Nat) : List Byte := be 6 0x0102030405 ++ be 6 0x060708090A ++ be 2 etype ++ List.replicate 60 7
/-- A rule for port 0 that matches every frame, with action `k` and argument `a`. -/
def eRule (k a : Nat) : List Nat := [1, 0, 0, 0, 0, 0, 0, 0, 0, 0, 0, 0, 0, k + 16 * a + 255 * 65536, 0, 0x80000000]
def eWith (k a : Nat) : State := { eS with ethRules := [(4, eRule k a)] }
def eTx (q : Nat) : EthTx := ⟨q, List.replicate 60 1, false⟩
def eQ (fs : List EthTx) : State := eS.setEthPort 0 { frames := fs }

theorem witness_EthernetEdge :
    (∃ (s : State) (p t : Nat) (f : List Byte) (ok : Bool), (32 ≤ p ∨ s.portState p ≠ 2)) ∧
    (∃ (s : State) (p t : Nat) (f : List Byte) (ok : Bool), (p < 32) ∧ (s.portState p = 2)) ∧
    (∃ (s : State) (p i : Nat) (x : Parsed) (r : List Nat), (s.ethRules = [(8192 * (p / 8) + i, r)]) ∧ (i < 8192)) ∧
    (∃ (s : State) (p i j : Nat) (x : Parsed) (r q : List Nat), (s.ethRules = [(8192 * (p / 8) + i, r), (8192 * (p / 8) + j, q)]) ∧ (i < j) ∧ (j < 8192) ∧ (ruleMatches r (p % 8) x = true)) ∧
    (∃ (s : State) (p i : Nat) (x : Parsed) (r : List Nat), (s.ethRules = [(8192 * (p / 8 + 1) + i, r)]) ∧ (i < 8192)) ∧
    (∃ (s : State) (d k t len : Nat), (k = 255 ∨ s.rf (Reg.ETH_D_POL0 d k) 31 31 = 0)) ∧
    (∃ (s : State) (d k t len level0 t0 : Nat), (k < 255) ∧ (s.rf (Reg.ETH_D_POL0 d k) 31 31 = 1) ∧ (fetch none s.policers (256 * d + k) = some (level0, t0))) ∧
    (∃ (s : State) (p : Nat) (a : EthAction) (f : List Byte) (x : Option Parsed), (a.arg < 16) ∧ (let live := (List.range 32).filter (fun q => bitOf (s.rd (Reg.ETH_GRP a.arg)).toNat q && s.portState q = 2); (live = []))) ∧
    (∃ (s : State) (p : Nat) (a : EthAction) (f : List Byte) (x : Option Parsed) (q : Nat), (a.arg < 16) ∧ (let live := (List.range 32).filter (fun q => bitOf (s.rd (Reg.ETH_GRP a.arg)).toNat q && s.portState q = 2); (live[s.ethHash f x % live.length]? = some q))) ∧
    (∃ (s : State) (f g : List Byte) (x : Parsed) (a b : Nat), (x.l3 ≠ 0) ∧ (x.l4 = some (a, b)) ∧ (x.src.length ≤ 16) ∧ (x.dst.length ≤ 16) ∧ (a < 65536) ∧ (b < 65536) ∧ (x.src ≠ []) ∧ (x.dst ≠ [])) ∧
    (∃ (s : State) (p t : Nat), (p < 32) ∧ (s.portState p = 2)) ∧
    (∃ (s : State) (p q t : Nat) (f : EthTx), ((s.ethPort p).frames.find? (fun e => e.queue = q) = some f)) ∧
    (∃ (s : State) (p t : Nat) (f : EthTx), (p < 32)) ∧
    (∃ (s : State) (p d : Nat) (v : Word), (d < 4)) ∧
    (∃ (s : State) (p d : Nat) (v : Word), (d < 4)) ∧
    (∃ (s : State) (r : List Nat), (s.ruleOk r = true)) ∧
    (∃ (s : State) (r : List Nat), (s.ruleOk r = true)) ∧
    (∃ (s : State) (r : List Nat), (s.ruleOk r = true)) ∧
    (∃ (s : State) (r : List Nat), (s.ruleOk r = true) ∧ (bitsOf (ruleWord r 13) 3 0 = 1)) ∧
    (∃ (s : State) (r : List Nat), (s.ruleOk r = true) ∧ (bitsOf (ruleWord r 13) 3 0 = 3)) ∧
    (∃ (s : State) (p t q o r t2 : Nat), (s.tbKind = 1) ∧ (s.tbIndex = p) ∧ (s.ptpSync = some (q, t2))) ∧
    (∃ (s : State) (p t q o r t2 : Nat), (s.tbKind = 1) ∧ ((s.tbIndex = p) ∧ ((s.ptpSync = some (q, t2)) ∧ (let u : State := { s.reach t with ptpOrigin := some o, ptpAsk := some t }; (r ≠ q))))) ∧
    (∃ (s : State) (p t q r t1 t2 t3 : Nat), (s.tbKind = 1) ∧ (s.tbIndex = p) ∧ (s.ptpSync = some (q, t2)) ∧ (s.ptpOrigin = some t1) ∧ (s.ptpAsk = some t3)) :=
  ⟨⟨eS, 2, 100, [], true, by decide +kernel⟩,
   ⟨(eWith 1 3), 0, 100, (eFrame 0x1234), true, by decide +kernel⟩,
   ⟨(eWith 1 3), 0, 4, ePar, (eRule 1 3), by decide +kernel⟩,
   ⟨{ eS with ethRules := [(4, eRule 1 3), (7, eRule 2 0)] }, 0, 4, 7, ePar, (eRule 1 3), (eRule 2 0), by decide +kernel⟩,
   ⟨{ eS with ethRules := [(8196, eRule 1 3)] }, 0, 4, ePar, (eRule 1 3), by decide +kernel⟩,
   ⟨eS, 0, 255, 100, 64, by decide +kernel⟩,
   ⟨{ (eS.wr (Reg.ETH_D_POL0 0 3) 0x80000002).wr (Reg.ETH_D_POL1 0 3) 0x100 with policers := [(3, some (5000, 60))] }, 0, 3, 100, 64, 5000, 60, by decide +kernel⟩,
   ⟨eS, 0, ⟨1, 4, 255, 2, 0⟩, (eFrame 0x1234), none, by decide +kernel⟩,
   ⟨eS, 0, ⟨1, 3, 255, 2, 0⟩, (eFrame 0x1234), none, 1, by decide +kernel⟩,
   ⟨eS, [], [], ePar, 5, 6, by decide +kernel⟩,
   ⟨(eQ [eTx 5, eTx 1]), 0, 100, by decide +kernel⟩,
   ⟨(eQ [eTx 5]), 0, 5, 100, (eTx 5), by decide +kernel⟩,
   ⟨(eQ [eTx 5]), 0, 100, (eTx 5), by decide +kernel⟩,
   ⟨(eWith 1 3), 0, 0, 4, by decide +kernel⟩,
   ⟨((eWith 1 3).setStage 0 (eRule 1 3)), 0, 0, 0x80000000, by decide +kernel⟩,
   ⟨eS, (eRule 1 3), by decide +kernel⟩,
   ⟨eS, (eRule 1 3), by decide +kernel⟩,
   ⟨eS, (eRule 1 3), by decide +kernel⟩,
   ⟨eS, (eRule 1 3), by decide +kernel⟩,
   ⟨eS, (eRule 3 63), by decide +kernel⟩,
   ⟨{ eS.wr Reg.PWR_TB_SRC 1 with ptpSync := some (7, 50) }, 0, 100, 7, 40, 8, 50, by decide +kernel⟩,
   ⟨{ eS.wr Reg.PWR_TB_SRC 1 with ptpSync := some (7, 50) }, 0, 100, 7, 40, 8, 50, by decide +kernel⟩,
   ⟨{ eS.wr Reg.PWR_TB_SRC 1 with ptpSync := some (7, 50), ptpOrigin := some 40, ptpAsk := some 70 }, 0, 100, 7, 90, 40, 50, 70, by decide +kernel⟩⟩

/-- Slice 0 in state `x`, with row 3 RUNNING and row 5 PAUSED. -/
def hS (x : Nat) : State :=
  (((up.wr (Reg.HOST_S_STAT 0) (BitVec.ofNat 32 x)).wr (Reg.NDL_ROW 3) 0x14).wr (Reg.NDL_ROW 5) 0x16).wr (Reg.HOST_S_WIN_LO 0) 0x40000
def hPaused : State := (hS 2).setRowCmd 5 (some { op := 3, rows := [], targets := [5] })
def hPlaced (s : State) : State := (s.wr (Reg.HOST_S_SAVE_LO 0) (BitVec.ofNat 32 ((s.regionBase 0 .system + 0x8000000) % 2 ^ 32))).wr (Reg.HOST_S_SAVE_HI 0) (BitVec.ofNat 32 (s.regionBase 0 .system / 2 ^ 32))
def hNs : Namespace := { stage := 0, slots := 4, units := 16, ro := false, conn := 3, key := 9, off := 0x100000 }
def hStage : Nat := up.regionBase 0 .stage
def hNsD (slots units : Nat) : List Byte := fitBytes 32 (record [(5, hStage), (5, slots), (5, units), (1, 0), (3, 3), (1, 0), (4, 9), (5, 0x100000)])
def hAttach (slots units : Nat) : State := (up.writeB 0x40000 (hNsD slots units)).wr (Reg.HOST_S_ARG_LO 0) 0x40000
def hSpace (x : Namespace) : State := { up with spaces := [(0, some { x with stage := hStage })] }
def hCopy (back : Bool) : CopyReq := { idx := 0, toHost := back, host := 0x7000, loc := 0x50000, len := 4, user := 9, doneCtr := none }
def hQ (cs : List CopyReq) : State :=
  { ((up.wr (Reg.PAGE_CPY_CFG 0 2) 0x80000404).wr (Reg.PAGE_CPY_CQ_LO 0 2) 0x9000).wr (Reg.PAGE_CPY_TAIL 0 2) 1 with host := { copies := [(2, cs)] } }
def hDesc (fl len loc : Nat) : List Byte := record [(1, fl), (1, 0), (2, 3), (4, len), (8, 0x7000), (5, loc), (3, 0), (4, 9), (4, 0)]
def hLost (s : State) : State := s.wr (Reg.HOST_P_STAT 0) 2
def hMon (k : Nat) : State := up.wr (Reg.HOST_P_STAT 0) (BitVec.ofNat 32 (1 + 4 * k))
def hEnt (opc c10 c11 : Nat) : NvmeEntry := { opc := opc, psdt := 0, prp1 := 0x1000, cid := 7, nsid := 1, cdw10 := c10, cdw11 := c11, cdw12 := 0, cdw13 := 0 }
def hAdm : NvmeSq := { id := 0, size := 8, head := 0, tail := 1 }
def hCq0 : NvmeCq := { id := 0, size := 8, base := 0xA000, ien := false, vec := 0 }
/-- Controller 0 ready, with the entries `es` in queue `q` (0 or 1). -/
def hNv (q : Nat) (es : List NvmeEntry) (xs : List (Nat × Option Namespace)) : State :=
  let sqs : List NvmeSq := [{ hAdm with entries := if q = 0 then es else [] }, { id := 1, size := 8, cq := 0, entries := if q = 0 then [] else es }]
  let cqs : List NvmeCq := [hCq0, { id := 1, size := 8, base := 0xB000, ien := false, vec := 0 }]
  { up with spaces := xs, nvme := [(0, { cc := 1, rdy := true, aqa := 0x00070007, acq := 0xA000, sqs := sqs, cqs := cqs })] }
def hT (s : State) : State := match s.nvmePop 0 with
  | some r => r.1
  | none => s
def hA (e : NvmeEntry) : State := hNv 0 [e] [(0, some { hNs with stage := hStage })]
def hI (e : NvmeEntry) : State := hNv 1 [e] [(0, some { hNs with stage := hStage, slot := [(0, { unit := some 0, dirty := true })] })]
def hCmd (op : Nat) : NvmeCmd := { port := 0, sq := 1, cid := 7, op := op, parts := [(1, 8, 16)], data := List.replicate 16 (5, false) }
def hTest (x : SelfTest) : State := { up with nvme := [(0, { rdy := true, test := some x })] }

theorem witness_SliceCommands :
    (∃ (s : State) (p n : Nat) (v : Word), (s.hasSlice n = true) ∧ (sliceWord v 2 = true)) ∧
    (∃ (s : State) (n : Nat), (n < 4) ∧ (s.hasSlice n = true)) ∧
    (∃ (s : State) (n : Nat), (s.partState ≠ 3)) ∧
    (∃ (s : State) (p n : Nat) (v : Word), (s.hasSlice n = true) ∧ (sliceWord v 3 = true)) ∧
    (∃ (s : State) (n : Nat) (c : RowCmd), (n < 4) ∧ (s.hasSlice n = true) ∧ (s.rowCmd (5 + n) = some c) ∧ (c.targets.length ≤ 16) ∧ ((∀ l ∈ c.targets, l < 128))) ∧
    (∃ (s : State) (p n : Nat) (v : Word), (s.hasSlice n = true) ∧ (sliceWord v 4 = true)) ∧
    (∃ (s : State) (p n : Nat) (v : Word), (s.hasSlice n = true) ∧ (sliceWord v 5 = true)) ∧
    (∃ (s : State) (n : Nat), (n < 4) ∧ (s.hasSlice n = true) ∧ (s.restoreReady n = true)) ∧
    (∃ (s : State) (p n : Nat) (v : Word), (s.hasSlice n = true) ∧ (sliceWord v 6 = true)) ∧
    (∃ (s : State) (p n : Nat) (v : Word), (s.hasSlice n = true) ∧ (sliceWord v 7 = true)) ∧
    (∃ (s : State) (n j : Nat) (x : Namespace), (n < 4) ∧ (j < 8) ∧ (s.space n j = some x) ∧ (x.leaving = true) ∧ (x.cmds = []) ∧ (x.slot.any (fun e => e.2.dirty) = false) ∧ (x.lost = false)) ∧
    (∃ (s : State) (n : Nat) (v : Word), (s.hasSlice n = true) ∧ ((s.hostLost 0 = false) ∧ ((sliceWord v 2 = true) ∧ (let u := sliceAsked s n v; (u.sliceState n = 0) ∧ (sliceFree u n = true))))) ∧
    (∃ (s : State) (p n : Nat) (v : Word), (s.hasSlice n = true) ∧ (let u := sliceAsked s n v; (fieldOf v 31 31 = 0))) ∧
    (∃ (s : State) (p n : Nat) (v : Word), (s.hasSlice n = true) ∧ (let u := sliceAsked s n v; (fieldOf v 31 31 = 1) ∧ (fieldOf v 30 11 ≠ 0 ∨ fieldOf v 7 4 ≠ 0 ∨ fieldOf v 3 0 = 0 ∨ 8 ≤ fieldOf v 3 0))) :=
  ⟨⟨(hS 0), 0, 0, 0x80000002, by decide +kernel⟩,
   ⟨(hS 0), 0, by decide +kernel⟩,
   ⟨((hS 1).wr (Reg.NDL_ROW 3) 0x16), 0, by decide +kernel⟩,
   ⟨hPaused, 0, 0, 0x80000003, by decide +kernel⟩,
   ⟨hPaused, 0, { op := 3, rows := [], targets := [5] }, by decide +kernel⟩,
   ⟨(hPlaced (hS 2)), 0, 0, 0x80000004, by decide +kernel⟩,
   ⟨(hPlaced up), 0, 0, 0x80000005, by decide +kernel⟩,
   ⟨up, 0, by decide +kernel⟩,
   ⟨(hAttach 4 16), 0, 0, 0x80000106, by decide +kernel⟩,
   ⟨(hSpace hNs), 0, 0, 0x80000007, by decide +kernel⟩,
   ⟨(hSpace { hNs with leaving := true }), 0, 0, { hNs with leaving := true, stage := hStage }, by decide +kernel⟩,
   ⟨(hS 0), 0, 0x80000002, by decide +kernel⟩,
   ⟨(hS 0), 0, 0, 2, by decide +kernel⟩,
   ⟨(hS 0), 0, 0, 0x80000012, by decide +kernel⟩⟩

theorem witness_HostPorts :
    (∃ (s : State) (p off k : Nat) (bs : List Byte), (p < 2) ∧ (k ≠ 0) ∧ (bs.length = k) ∧ (off + k ≤ s.bar2Size p) ∧ (s.hostLost p = false)) ∧
    (∃ (s : State) (p off k : Nat), (p < 2) ∧ (k ≠ 0) ∧ (off + k ≤ s.bar2Size p)) ∧
    (∃ (s : State) (p off k : Nat) (bs : List Byte) (ep : Bool), (p < 2) ∧ (k ≠ 0) ∧ (off + k ≤ s.bar2Size p) ∧ (s.hostLost p = true)) ∧
    (∃ (s : State) (p n k : Nat) (v : Word), (k < 8) ∧ (s.hasSlice n = true) ∧ (s.hostLost p = false)) ∧
    (∃ (s : State) (p n k : Nat) (v : Word), (k < 8) ∧ (s.hasSlice n = true)) ∧
    (∃ (s : State) (n k : Nat) (d : List Byte), (k < 8) ∧ (s.hasSlice n = true) ∧ (d.length = 32)) ∧
    (∃ (s : State) (n k a : Nat) (c : CopyReq) (bs : List Byte), (n < 4) ∧ (k < 8) ∧ (s.copyList n k = [c]) ∧ (c.ended = none) ∧ (c.toHost = false) ∧ (c.doneCtr = none) ∧ (s.pend = []) ∧ (bs.length = c.len) ∧ (1 ≤ c.len) ∧ (s.hostLost (s.copyPort n k) = false)) ∧
    (∃ (s : State) (n k : Nat) (c : CopyReq), (s.copyList n k = [c]) ∧ (c.ended = none) ∧ (c.toHost = true) ∧ (s.hostLost (s.copyPort n k) = false)) ∧
    (∃ (s : State) (n k : Nat) (data : List HostChunk), (s.copyList n k = [])) ∧
    (∃ (s : State) (p n k : Nat) (v : Word), (k < 256) ∧ (s.hasSlice n = true)) ∧
    (∃ (s : State) (p : Nat) (v : Word), (p < 2) ∧ (s.hostLost p = false)) ∧
    (∃ (s : State) (p : Nat) (v : Word), (p < 2) ∧ (s.hostLost p = true)) ∧
    (∃ (s : State) (t : Nat) (arr : List CopyArrival), (t % 1000000000 ≠ 0 ∨ t ≤ s.host.second ∨ t < s.now)) ∧
    (∃ (s : State) (t : Nat) (arr : List CopyArrival), (t % 1000000000 = 0) ∧ (s.host.second < t) ∧ (s.now ≤ t) ∧ (s.rf (Reg.HOST_P_STAT 1) 1 0 ≠ 1)) ∧
    (∃ (s : State) (p q : Nat) (v : Word) (arr : List CopyArrival), (p < 2) ∧ (fieldOf v 0 0 = 1) ∧ (q ≠ p)) ∧
    (∃ (s : State) (p : Nat) (v : Word) (arr : List CopyArrival), (p < 2) ∧ (fieldOf v 0 0 = 1)) ∧
    (∃ (s : State) (p : Nat) (v : Word) (arr : List CopyArrival), (2 ≤ p ∨ fieldOf v 0 0 = 0)) ∧
    (∃ (s : State) (p fn : Nat) (arr : List CopyArrival), (2 ≤ p ∨ 3 ≤ fn)) ∧
    (∃ (s : State) (p : Nat) (arr : List CopyArrival), (p < 2)) ∧
    (∃ (s : State) (p : Nat), (p < 2)) ∧
    (∃ (s : State) (p : Nat) (arr : List CopyArrival), (p < 2)) ∧
    (∃ (s : State) (p : Nat) (perst : Bool) (arr : List CopyArrival), (2 ≤ p)) ∧
    (∃ (s : State) (p : Nat), (p < 2)) ∧
    (∃ (s : State) (n k : Nat) (bs : List Byte) (c : CopyReq), (n < 4) ∧ (k < 8) ∧ (s.hostLost (s.copyPort n k) = false) ∧ (s.copyList n k = [c]) ∧ (c.ended = none) ∧ (c.toHost = false) ∧ (bs.length ≤ c.len)) ∧
    (∃ (s : State) (n k : Nat) (data : List HostChunk) (late : Bool), (s.hostLost (s.copyPort n k) = true)) ∧
    (∃ (s : State) (p : Nat), (s.nvmeUp p = false)) :=
  ⟨⟨(hS 0), 0, 16, 3, [1, 2, 3], by decide +kernel⟩,
   ⟨(hS 0), 0, 16, 3, by decide +kernel⟩,
   ⟨(hLost (hS 0)), 0, 16, 3, [1, 2, 3], true, by decide +kernel⟩,
   ⟨up, 1, 0, 2, 0x80000404, by decide +kernel⟩,
   ⟨(hQ []), 0, 0, 2, 16, by decide +kernel⟩,
   ⟨(hQ []), 0, 2, (hDesc 2 4 0x50000), by decide +kernel⟩,
   ⟨(hQ [hCopy false]), 0, 2, 0x50001, (hCopy false), [1, 2, 3, 4], by decide +kernel⟩,
   ⟨(hQ [hCopy true]), 0, 2, (hCopy true), by decide +kernel⟩,
   ⟨(hQ []), 0, 2, [], by decide +kernel⟩,
   ⟨up, 0, 0, 9, 0x80000003, by decide +kernel⟩,
   ⟨(hMon 2), 0, 0, by decide +kernel⟩,
   ⟨(hLost up), 0, 0, by decide +kernel⟩,
   ⟨(hMon 2), 5, [], by decide +kernel⟩,
   ⟨(hMon 2), 1000000000, [], by decide +kernel⟩,
   ⟨(hMon 2), 0, 1, 1, [], by decide +kernel⟩,
   ⟨(hQ [hCopy false]), 0, 1, [], by decide +kernel⟩,
   ⟨(hMon 2), 0, 0, [], by decide +kernel⟩,
   ⟨(hMon 2), 0, 3, [], by decide +kernel⟩,
   ⟨(hMon 2), 0, [], by decide +kernel⟩,
   ⟨(hQ [hCopy false, { hCopy true with ended := some (0, 4), doneCtr := some 3 }]), 0, by decide +kernel⟩,
   ⟨(hNv 0 [hEnt 6 0 0] []), 0, [], by decide +kernel⟩,
   ⟨(hMon 2), 2, true, [], by decide +kernel⟩,
   ⟨(hLost (hNv 0 [hEnt 6 0 0] [])), 0, by decide +kernel⟩,
   ⟨(hQ [hCopy false]), 0, 2, [1, 2], (hCopy false), by decide +kernel⟩,
   ⟨(hLost (hQ [hCopy false])), 0, 2, [], true, by decide +kernel⟩,
   ⟨up, 0, by decide +kernel⟩⟩

theorem witness_StorageFunction :
    (∃ (s : State) (p : Nat) (v : Word), (2 ≤ p)) ∧
    (∃ (s : State) (p : Nat) (v : Word), (p < 2) ∧ (s.hostLost p = true)) ∧
    (∃ (s : State) (p : Nat) (v : Word), (p < 2) ∧ (s.hostLost p = false) ∧ (fieldOf v 0 0 = 1) ∧ (bitOf (s.ctl p).cc 0 = false) ∧ (fieldOf v 6 4 = 0) ∧ (fieldOf v 10 7 = 0) ∧ (fieldOf v 13 11 ≤ 1)) ∧
    (∃ (s : State) (p : Nat) (v : Word), (p < 2) ∧ (s.hostLost p = false) ∧ (fieldOf v 0 0 = 0)) ∧
    (∃ (s : State) (p q tail : Nat) (es : List NvmeEntry) (x : NvmeSq), (s.nvmeUp p = true) ∧ ((s.ctl p).sqs.find? (fun y => y.id = q) = some x)) ∧
    (∃ (s : State) (p q k : Nat), (s.nvmeUp p = true) ∧ ((s.ctl p).sqs.find? (fun y => y.id = q) = none) ∧ ((s.ctl p).cqs.find? (fun y => y.id = q) = none)) ∧
    (∃ (s : State) (p q head : Nat) (x : NvmeCq), (s.nvmeUp p = true) ∧ ((s.ctl p).cqs.find? (fun y => y.id = q) = some x)) ∧
    (∃ (s : State) (p : Nat) (data : List HostChunk) (rs : List (Nat × Nat)), (s.nvmePop p = none)) ∧
    (∃ (s : State) (p q cid st dw0 nsid : Nat) (x : NvmeSq), ((s.ctl p).sqs.find? (fun y => y.id = q) = some x) ∧ ((s.ctl p).held = []) ∧ ((s.ctl p).cqs.any (fun y => y.id = x.cq && y.room) = false)) ∧
    (∃ (s : State) (p q cid st dw0 nsid : Nat) (x : NvmeSq) (y : NvmeCq), ((s.ctl p).sqs.find? (fun z => z.id = q) = some x) ∧ ((s.ctl p).held = []) ∧ ((s.ctl p).cqs = [y]) ∧ (y.id = x.cq) ∧ (y.id = 0) ∧ (y.ien = false) ∧ (y.tail - y.head + 1 < y.size)) ∧
    (∃ (s t : State) (p : Nat) (e : NvmeEntry), (nvmeTakes s p 0 e t = true) ∧ (e.opc = 1)) ∧
    (∃ (s t : State) (p : Nat) (e : NvmeEntry), (nvmeTakes s p 0 e t = true) ∧ (e.opc = 5)) ∧
    (∃ (s t : State) (p : Nat) (e : NvmeEntry), (nvmeTakes s p 0 e t = true) ∧ (e.opc = 0)) ∧
    (∃ (s t : State) (p : Nat) (e : NvmeEntry) (q : Nat), (nvmeTakes s p 0 e t = true) ∧ (e.opc = 0) ∧ (q = e.cdw10 % 65536) ∧ (q ≠ 0)) ∧
    (∃ (s t : State) (p : Nat) (e : NvmeEntry), (nvmeTakes s p 0 e t = true) ∧ (e.opc = 4)) ∧
    (∃ (s t : State) (p : Nat) (e : NvmeEntry), (nvmeTakes s p 0 e t = true) ∧ (e.opc = 2)) ∧
    (∃ (s t : State) (p : Nat) (e : NvmeEntry), (nvmeTakes s p 0 e t = true) ∧ (e.opc = 6)) ∧
    (∃ (s t : State) (p : Nat) (e : NvmeEntry), (nvmeTakes s p 0 e t = true) ∧ ((e.opc = 8) ∧ (let q := e.cdw10 % 65536; let cid := bitsOf e.cdw10 31 16; (t.spaces.any (fun z => z.2.any (fun x => x.cmds.any (fun c => c.port = p && c.sq = q && c.cid = cid && !c.quiet))) = false)))) ∧
    (∃ (s t : State) (p : Nat) (e : NvmeEntry) (x : Namespace) (c : NvmeCmd), (nvmeTakes s p 0 e t = true) ∧ (e.opc = 8) ∧ (t.spaces = [(0, some x)]) ∧ (x.cmds = [c]) ∧ (c.port = p) ∧ (c.sq = e.cdw10 % 65536) ∧ (c.cid = bitsOf e.cdw10 31 16) ∧ (c.quiet = false) ∧ (x.leaving = false)) ∧
    (∃ (s t : State) (p : Nat) (e : NvmeEntry), (nvmeTakes s p 0 e t = true) ∧ (e.opc = 9)) ∧
    (∃ (s t : State) (p : Nat) (e : NvmeEntry), (nvmeTakes s p 0 e t = true) ∧ (e.opc = 0x0A)) ∧
    (∃ (s t : State) (p : Nat) (e : NvmeEntry), (nvmeTakes s p 0 e t = true) ∧ (e.opc = 0x0C)) ∧
    (∃ (s : State) (p : Nat), let c := s.ctl p; (c.aers = [] ∨ c.events = [])) ∧
    (∃ (s : State) (p : Nat) (cid ev : Nat), let c := s.ctl p; (c.aers = [cid]) ∧ (c.events = [ev])) ∧
    (∃ (s t : State) (p : Nat) (e : NvmeEntry), (nvmeTakes s p 0 e t = true) ∧ (e.opc = 0x14)) ∧
    (∃ (s : State) (p t : Nat), ((s.ctl p).test = none)) ∧
    (∃ (s : State) (p t : Nat) (x : SelfTest), ((s.ctl p).test = some x)) ∧
    (∃ (s : State) (p g : Nat) (x : SelfTest), ((s.ctl p).test = some x) ∧ (x.suspended = false) ∧ (s.ioBusy p = false) ∧ (g < 3)) ∧
    (∃ (s t : State) (p q : Nat) (e : NvmeEntry), (nvmeTakes s p q e t = true) ∧ (q ≠ 0) ∧ (e.opc = 2)) ∧
    (∃ (s t : State) (p q : Nat) (e : NvmeEntry), (nvmeTakes s p q e t = true) ∧ (q ≠ 0) ∧ (e.opc = 0x81)) ∧
    (∃ (s t : State) (p q : Nat) (e : NvmeEntry), (nvmeTakes s p q e t = true) ∧ (q ≠ 0) ∧ (e.opc = 8)) ∧
    (∃ (s t : State) (p q : Nat) (e : NvmeEntry) (data : List HostChunk), (nvmeTakes s p q e t = true) ∧ (q ≠ 0) ∧ (e.opc = 1) ∧ (chunksCover 0 (4096 * (e.cdw12 % 65536 + 1)) data = true) ∧ (data.any (fun c => c.ep) = false)) ∧
    (∃ (s t : State) (p q : Nat) (e : NvmeEntry), (nvmeTakes s p q e t = true) ∧ (q ≠ 0) ∧ (e.opc = 0)) ∧
    (∃ (s t : State) (p q : Nat) (e : NvmeEntry) (rs : List (Nat × Nat)), (nvmeTakes s p q e t = true) ∧ (q ≠ 0) ∧ (e.opc = 9)) ∧
    (∃ (s : State) (p q n j : Nat) (e : NvmeEntry) (write : Bool) (data : List (Byte × Bool)) (x : Namespace), (n = (q - 1) / 64) ∧ (e.nsid = 8 * n + j + 1) ∧ (j < 8) ∧ (s.sliceState n ≠ 6) ∧ (s.space n j = some x) ∧ (x.leaving = false)) ∧
    (∃ (s : State) (n j u o k : Nat) (x : Namespace) (c : NvmeCmd), (s.space n j = some x) ∧ (c.op = 2) ∧ (c.parts = [(u, o, k)]) ∧ (x.resident u = true)) ∧
    (∃ (s : State) (n j u o k : Nat) (x : Namespace) (c : NvmeCmd), (s.space n j = some x) ∧ (c.op = 2) ∧ (c.parts = [(u, o, k)]) ∧ (x.resident u = false) ∧ (u ∉ x.fetching) ∧ ((x.slotOf u).dirty = false)) ∧
    (∃ (s : State) (n j u o k : Nat) (x : Namespace) (c : NvmeCmd), (s.space n j = some x) ∧ (c.op = 1) ∧ (c.parts = [(u, o, k)]) ∧ (x.resident u = true)) ∧
    (∃ (s : State) (n j u : Nat) (data : List HostChunk) (ok : Bool), (s.space n j = none)) ∧
    (∃ (s : State) (n j u : Nat) (bs : List Byte) (x : Namespace), (s.space n j = some x) ∧ (u ∈ x.fetching) ∧ (bs.length = 65536) ∧ (x.resident u = false) ∧ ((x.slotOf u).dirty = false)) ∧
    (∃ (s : State) (n j u : Nat) (x : Namespace), (s.space n j = some x) ∧ (u ∈ x.fetching)) ∧
    (∃ (s : State) (n j k u : Nat) (x : Namespace) (z : NsSlot), (s.space n j = some x) ∧ (x.slot.find? (fun e => e.2.dirty && !e.2.draining) = some (k, z)) ∧ (z.unit = some u)) ∧
    (∃ (s : State) (n j k : Nat) (x : Namespace), (s.space n j = some x) ∧ ((fetch ({} : NsSlot) x.slot k).draining = true) ∧ (x.cmds = [])) ∧
    (∃ (s : State) (n j k : Nat) (ok : Bool) (x : Namespace), (s.space n j = some x) ∧ ((fetch ({} : NsSlot) x.slot k).draining = false)) :=
  ⟨⟨up, 2, 1, by decide +kernel⟩,
   ⟨(hLost up), 0, 1, by decide +kernel⟩,
   ⟨up, 0, 0x00460001, by decide +kernel⟩,
   ⟨(hNv 0 [] []), 0, 0x00460000, by decide +kernel⟩,
   ⟨(hNv 0 [] []), 0, 0, 2, [hEnt 6 1 0], { hAdm with entries := [] }, by decide +kernel⟩,
   ⟨(hNv 0 [] []), 0, 9, 0, by decide +kernel⟩,
   ⟨(let s := hNv 0 [] []; s.setCtl 0 { s.ctl 0 with cqs := [{ hCq0 with tail := 3 }] }), 0, 0, 2, { hCq0 with tail := 3 }, by decide +kernel⟩,
   ⟨up, 0, [], [], by decide +kernel⟩,
   ⟨(let s := hNv 0 [] []; s.setCtl 0 { s.ctl 0 with cqs := [{ hCq0 with tail := 7 }] }), 0, 0, 7, 0, 0, 0, { hAdm with entries := [] }, by decide +kernel⟩,
   ⟨(let s := hNv 0 [] []; s.setCtl 0 { s.ctl 0 with cqs := [{ hCq0 with tail := 9, head := 9 }] }), 0, 0, 7, 0x101, 0, 0, { hAdm with entries := [] }, { hCq0 with tail := 9, head := 9 }, by decide +kernel⟩,
   ⟨(hA (hEnt 1 0x00070002 1)), (hT (hA (hEnt 1 0x00070002 1))), 0, (hEnt 1 0x00070002 1), by decide +kernel⟩,
   ⟨(hA (hEnt 5 0x00070002 1)), (hT (hA (hEnt 5 0x00070002 1))), 0, (hEnt 5 0x00070002 1), by decide +kernel⟩,
   ⟨(hA (hEnt 0 1 0)), (hT (hA (hEnt 0 1 0))), 0, (hEnt 0 1 0), by decide +kernel⟩,
   ⟨(hA (hEnt 0 1 0)), (hT (hA (hEnt 0 1 0))), 0, (hEnt 0 1 0), 1, by decide +kernel⟩,
   ⟨(hA (hEnt 4 1 0)), (hT (hA (hEnt 4 1 0))), 0, (hEnt 4 1 0), by decide +kernel⟩,
   ⟨(hA (hEnt 2 6 0)), (hT (hA (hEnt 2 6 0))), 0, (hEnt 2 6 0), by decide +kernel⟩,
   ⟨(hA (hEnt 6 9 0)), (hT (hA (hEnt 6 9 0))), 0, (hEnt 6 9 0), by decide +kernel⟩,
   ⟨(hA (hEnt 8 0x70001 0)), (hT (hA (hEnt 8 0x70001 0))), 0, (hEnt 8 0x70001 0), by decide +kernel⟩,
   ⟨(hNv 0 [hEnt 8 0x70001 0] [(0, some { hNs with cmds := [hCmd 2] })]), (hT (hNv 0 [hEnt 8 0x70001 0] [(0, some { hNs with cmds := [hCmd 2] })])), 0, (hEnt 8 0x70001 0), { hNs with cmds := [hCmd 2] }, (hCmd 2), by decide +kernel⟩,
   ⟨(hA (hEnt 9 1 3)), (hT (hA (hEnt 9 1 3))), 0, (hEnt 9 1 3), by decide +kernel⟩,
   ⟨(hA (hEnt 0xA 7 3)), (hT (hA (hEnt 0xA 7 3))), 0, (hEnt 0xA 7 3), by decide +kernel⟩,
   ⟨(hA (hEnt 0xC 0 0)), (hT (hA (hEnt 0xC 0 0))), 0, (hEnt 0xC 0 0), by decide +kernel⟩,
   ⟨(hA (hEnt 0xC 0 0)), 0, by decide +kernel⟩,
   ⟨(let s := hNv 0 [] []; s.setCtl 0 { s.ctl 0 with aers := [4], events := [0x10000] }), 0, 4, 0x10000, by decide +kernel⟩,
   ⟨(hA (hEnt 0x14 1 0)), (hT (hA (hEnt 0x14 1 0))), 0, (hEnt 0x14 1 0), by decide +kernel⟩,
   ⟨up, 0, 5, by decide +kernel⟩,
   ⟨(hTest ⟨1, 1, true⟩), 0, 1000000, ⟨1, 1, true⟩, by decide +kernel⟩,
   ⟨(hTest ⟨1, 1, false⟩), 0, 2, ⟨1, 1, false⟩, by decide +kernel⟩,
   ⟨(hI (hEnt 2 0 0)), (hT (hI (hEnt 2 0 0))), 0, 1, (hEnt 2 0 0), by decide +kernel⟩,
   ⟨(hI (hEnt 0x81 16 0)), (hT (hI (hEnt 0x81 16 0))), 0, 1, (hEnt 0x81 16 0), by decide +kernel⟩,
   ⟨(hI (hEnt 8 0 0)), (hT (hI (hEnt 8 0 0))), 0, 1, (hEnt 8 0 0), by decide +kernel⟩,
   ⟨(hI (hEnt 1 0 0)), (hT (hI (hEnt 1 0 0))), 0, 1, (hEnt 1 0 0), [{ off := 0, bytes := List.replicate 4096 9, ep := false }], by decide +kernel⟩,
   ⟨(hI (hEnt 0 0 0)), (hT (hI (hEnt 0 0 0))), 0, 1, (hEnt 0 0 0), by decide +kernel⟩,
   ⟨(hI (hEnt 9 0 4)), (hT (hI (hEnt 9 0 4))), 0, 1, (hEnt 9 0 4), [(0, 16)], by decide +kernel⟩,
   ⟨(hT (hI (hEnt 2 0 0))), 0, 1, 0, 0, (hEnt 2 0 0), false, [], { hNs with stage := hStage, slot := [(0, { unit := some 0, dirty := true })] }, by decide +kernel⟩,
   ⟨(hSpace { hNs with slot := [(1, { unit := some 1 })] }), 0, 0, 1, 8, 16, { hNs with stage := hStage, slot := [(1, { unit := some 1 })] }, (hCmd 2), by decide +kernel⟩,
   ⟨(hSpace hNs), 0, 0, 1, 8, 16, { hNs with stage := hStage }, (hCmd 2), by decide +kernel⟩,
   ⟨(hSpace { hNs with slot := [(1, { unit := some 1 })] }), 0, 0, 1, 8, 16, { hNs with stage := hStage, slot := [(1, { unit := some 1 })] }, (hCmd 1), by decide +kernel⟩,
   ⟨up, 0, 0, 1, [], true, by decide +kernel⟩,
   ⟨(hSpace { hNs with fetching := [1], cmds := [hCmd 2] }), 0, 0, 1, (List.replicate 65536 7), { hNs with stage := hStage, fetching := [1], cmds := [hCmd 2] }, rfl, by decide +kernel, List.length_replicate, by decide +kernel, by decide +kernel⟩,
   ⟨(hSpace { hNs with fetching := [1], cmds := [hCmd 2] }), 0, 0, 1, { hNs with stage := hStage, fetching := [1], cmds := [hCmd 2] }, by decide +kernel⟩,
   ⟨(hSpace { hNs with slot := [(1, { unit := some 1, dirty := true })] }), 0, 0, 1, 1, { hNs with stage := hStage, slot := [(1, { unit := some 1, dirty := true })] }, { unit := some 1, dirty := true }, by decide +kernel⟩,
   ⟨(hSpace { hNs with slot := [(1, { unit := some 1, dirty := true, draining := true })] }), 0, 0, 1, { hNs with stage := hStage, slot := [(1, { unit := some 1, dirty := true, draining := true })] }, by decide +kernel⟩,
   ⟨(hSpace hNs), 0, 0, 1, true, { hNs with stage := hStage }, by decide +kernel⟩⟩

/-- A part in life-cycle state `k`, with SPDM connection 0 at stage `g`. -/
def tS (k g : Nat) : State :=
  { up.wr Reg.TRUST_LC (BitVec.ofNat 32 k) with trust := { spdm := [(0, { stage := g })], secret := [1], running := [⟨1, 1, 0, [2]⟩], bootKey := List.replicate 32 9 } }
def tReq (code p1 p2 : Nat) : List Byte := record [(1, 0x13), (1, code), (1, p1), (1, p2)]
def tAlg : List Byte := tReq 0xE3 0 0 ++ record [(2, 52), (1, 1), (1, 0), (4, 0x480), (4, 0x18)]
def tEv (scope kem : Nat) : List Byte := List.replicate 32 7 ++ record [(1, scope), (1, kem)]
def tSes : Session := { since := 5, evidence := [], xs := [1], ks := [2] }
def tLive (k : Nat) : State := let s := tS k 3; { s with trust := { s.trust with sessions := [(0, some tSes)] } }
/-- A RELEASE payload whose grant (of `g`) is sealed under the keys of `tSes`. -/
def tRel (g : List Byte) : List Byte :=
  let xb : List Byte := List.replicate 32 3
  let ct : List Byte := List.replicate 1088 4
  let head := xb ++ ct ++ record [(2, g.length), (6, 0)]
  let kek := kmac256 (Config.xShared [1] xb ++ Config.kemDecaps [2] ct) (sha3x256 (([] : List Byte) ++ xb ++ ct)) 32 (asciiBytes "MZ-RELEASE")
  let e := gcmSeal kek (List.replicate 12 0) head g
  head ++ e.1 ++ e.2
def tGrant (dest : Nat) : List Byte := record [(1, 1), (1, 0), (1, 0), (1, 1), (4, 0), (8, 77), (2, dest), (4, 0), (2, 0)] ++ List.replicate 32 6
def tToken (lc dest rel : Nat) : List Byte := fitBytes 3440 (record [(4, 0x4E4B544C), (1, 1), (1, lc), (1, dest), (1, rel), (8, 0)])
def tQuiet (k : Nat) : State := (tS k 3).wr Reg.GLB_STATUS 4
def tKeys : Cipher := { tx := some (List.replicate 32 1, [1, 2, 3, 4]), rx := some (List.replicate 32 2, [5, 6, 7, 8]), used := true, gen := 4 }
def tC (c : Cipher) : State := { ((tS 2 3).wr (Reg.TRUST_ARG_LO 0) 0x40000).wr Reg.TRUST_CTL 1 with ciphers := store {} [] 3 c }
def tAl (s : State) : State := s.wr Reg.TRUST_ALARM 1
def tW : WeightKey := ⟨0, 1, 77, List.replicate 32 8, false⟩
def tSeal (op id len : Nat) (s : State) : State :=
  ({ s with trust := { s.trust with weights := [tW] } }.writeB 0x40000 (fitBytes 64 (record [(1, op), (1, 0), (2, 0), (4, 0), (8, id), (5, 0x50000), (3, 0), (5, 0x60000), (3, 0), (8, len)]))).wr (Reg.TRUST_ARG_LO 0) 0x40000
def tSalt : List Byte := List.replicate 32 5
def tObj : List Byte :=
  let head := sealHead 77 16 tSalt
  let e := gcmSeal (sealKey tW.key tSalt) (sealNonce 0) (sealAad head 0) (List.replicate 16 3)
  head ++ e.1 ++ e.2
def tUn : State := (tSeal 1 0 0 (tS 2 3)).writeB 0x50000 tObj
/-- As `tUn`, its 16 bytes and their tag being 0. -/
def tPl : State := (tSeal 1 0 0 (tS 2 3)).writeB 0x50000 (sealHead 77 16 tSalt ++ List.replicate 32 0)
def tBad : State := tUn.writeB 0x50085 [0xEE]

theorem witness_TrustMailboxes :
    (∃ (s : State) (p : Nat) (req : List Byte), (spdmReq p 0x84 req = true)) ∧
    (∃ (s : State) (p : Nat) (req : List Byte), (spdmReq p 0xE1 req = true) ∧ (1 ≤ (s.spdm p).stage)) ∧
    (∃ (s : State) (p : Nat) (req : List Byte), (spdmReq p 0xE3 req = true) ∧ (2 ≤ (s.spdm p).stage)) ∧
    (∃ (s : State) (p : Nat) (req : List Byte), (spdmReq p 0xE3 req = true) ∧ ((s.spdm p).stage < 2)) ∧
    (∃ (s : State) (p : Nat) (req : List Byte), (spdmReq p 0x81 req = true) ∧ ((s.spdm p).stage < 3)) ∧
    (∃ (s : State) (p : Nat) (req : List Byte), (spdmReq p 0x83 req = true) ∧ (3 ≤ (s.spdm p).stage) ∧ (hasIdentity s = false)) ∧
    (∃ (s : State) (p : Nat) (req : List Byte), (spdmReq p 0x81 req = true) ∧ (3 ≤ (s.spdm p).stage) ∧ (hasIdentity s = true)) ∧
    (∃ (s : State) (p : Nat) (req : List Byte), (spdmReq p 0x82 req = true) ∧ (3 ≤ (s.spdm p).stage) ∧ (hasIdentity s = true)) ∧
    (∃ (s : State) (p : Nat) (req : List Byte), (spdmReq p 0x83 req = true) ∧ (3 ≤ (s.spdm p).stage) ∧ (hasIdentity s = true)) ∧
    (∃ (s : State) (p : Nat) (req : List Byte), (spdmReq p 0xE0 req = true) ∧ (3 ≤ (s.spdm p).stage) ∧ (hasIdentity s = true)) ∧
    (∃ (s : State) (p code : Nat) (q : List Byte), (2 ≤ p ∨ (2 ≤ code ∧ code ≤ 4))) ∧
    (∃ (s : State) (p code : Nat) (q : List Byte), (p < 2) ∧ (code < 2 ∨ 4 < code) ∧ (code ≠ 1 ∨ q.length ≠ 34)) ∧
    (∃ (s : State) (p : Nat) (q : List Byte), (p < 2) ∧ (q.length = 34) ∧ (byteAt q 33 ≠ 1 ∨ hasIdentity s = false ∨ byteAt q 32 = 0xFF)) ∧
    (∃ (s : State) (p n : Nat) (q : List Byte), (p < 2) ∧ (q.length = 34) ∧ (byteAt q 33 = 1) ∧ (byteAt q 32 = n) ∧ (s.hasSlice n = true) ∧ (hasIdentity s = true)) ∧
    (∃ (s : State) (p : Nat) (q : List Byte) (bad : Bool), (2 ≤ p)) ∧
    (∃ (s : State) (p : Nat) (q : List Byte) (bad : Bool), (p < 2)) ∧
    (∃ (s : State) (n : Nat) (g : List Byte), (byteAt g 3 = 1) ∧ (byteAt g 1 = 0) ∧ (grantWeight g 0 = true)) ∧
    (∃ (s : State) (p : Nat) (q : List Byte), (2 ≤ p)) ∧
    (∃ (s : State) (p : Nat) (q : List Byte), (p < 2) ∧ (q.length ≠ 3440)) ∧
    (∃ (s : State) (p : Nat) (q : List Byte), (p < 2) ∧ (q.length = 3440)) ∧
    (∃ (s : State) (q : List Byte), (s.lc = 2) ∧ (byteAt q 6 = 1)) ∧
    (∃ (s : State) (q : List Byte), (s.lc = 1) ∧ (byteAt q 6 = 2)) :=
  ⟨⟨(tS 2 0), 0, (record [(1, 0x10), (1, 0x84)]), by decide +kernel⟩,
   ⟨(tS 2 1), 0, (tReq 0xE1 0 0), by decide +kernel⟩,
   ⟨(tS 2 2), 0, tAlg, by decide +kernel⟩,
   ⟨(tS 2 1), 0, tAlg, by decide +kernel⟩,
   ⟨(tS 2 2), 0, (tReq 0x81 0 0), by decide +kernel⟩,
   ⟨(tS 3 3), 0, (tReq 0x83 0 0), by decide +kernel⟩,
   ⟨(tS 2 3), 0, (tReq 0x81 0 0), by decide +kernel⟩,
   ⟨(tS 2 3), 0, (tReq 0x82 0 0 ++ record [(2, 4), (2, 8)]), by decide +kernel⟩,
   ⟨(tS 2 3), 0, (tReq 0x83 0 1 ++ List.replicate 40 4), by decide +kernel⟩,
   ⟨(tS 2 3), 0, (tReq 0xE0 1 0xFF ++ List.replicate 41 4), by decide +kernel⟩,
   ⟨up, 0, 2, [], by decide +kernel⟩,
   ⟨up, 0, 5, [], by decide +kernel⟩,
   ⟨(tS 2 3), 0, (tEv 0xFF 0), by decide +kernel⟩,
   ⟨(tS 2 3), 0, 0, (tEv 0 1), by decide +kernel⟩,
   ⟨up, 2, [], false, by decide +kernel⟩,
   ⟨(tLive 2), 0, (tRel (tGrant 0)), false, by decide +kernel⟩,
   ⟨(tLive 2), 0, (tGrant 0), by decide +kernel⟩,
   ⟨up, 2, [], by decide +kernel⟩,
   ⟨up, 0, [], by decide +kernel⟩,
   ⟨(tQuiet 2), 0, (tToken 2 1 0), by decide +kernel⟩,
   ⟨{ tQuiet 2 with fuses := { ownerHash := [1], releases := 3 } }, (tToken 2 1 3), by decide +kernel⟩,
   ⟨(tQuiet 1), (tToken 1 2 0), by decide +kernel⟩⟩

theorem witness_CipherEngine :
    (∃ (s : State) (n st k : Nat), (n < 4) ∧ (k < 8) ∧ (st < 65536)) ∧
    (∃ (s : State) (p n : Nat) (v : Word), (s.hasSlice n = true) ∧ (cipherWord v 1 = true)) ∧
    (∃ (s : State) (p n : Nat) (v : Word), (s.hasSlice n = true) ∧ (cipherWord v 2 = true)) ∧
    (∃ (s : State) (p n : Nat) (v : Word), (s.hasSlice n = true) ∧ (cipherWord v 3 = true)) ∧
    (∃ (s : State) (p n : Nat) (v : Word) (bad : Bool), (s.hasSlice n = true) ∧ (cipherWord v 4 = true)) ∧
    (∃ (s : State) (p n : Nat) (v : Word) (bad : Bool), (s.hasSlice n = true) ∧ (cipherWord v 5 = true)) ∧
    (∃ (s : State) (r : List Byte) (i : Nat), (byteAt r 2 = 0) ∧ (r.length = 128)) ∧
    (∃ (s : State) (r : List Byte) (i : Nat), (byteAt r 2 = 1) ∧ (leAt r 20 4 ≠ (s.cipher i).gen)) ∧
    (∃ (s : State) (p n : Nat) (v : Word) (bad : Bool), (s.hasSlice n = true) ∧ (cipherWord v 6 = true)) ∧
    (∃ (s : State) (n : Nat) (bad : Bool), let a := s.trustArg n; (s.inSlice n a 64 = false)) ∧
    (∃ (s : State) (n : Nat) (bad : Bool), let a := s.trustArg n; (s.inSlice n a 64 = true) ∧ (s.sealBlockOk a = false)) ∧
    (∃ (s : State) (n : Nat) (bad : Bool), let a := s.trustArg n; (s.inSlice n a 64 = true) ∧ (s.sealBlockOk a = true) ∧ (s.le (a + 1) 1 = 1) ∧ (s.shareSize 16384 ≤ s.le (a + 2) 2)) ∧
    (∃ (s : State) (n : Nat) (w : WeightKey), let a := s.trustArg n; let src := s.le (a + 16) 5; let dst := s.le (a + 24) 5; let head := s.bytes src 128; let len := leAt head 16 8; let key := kmac256 w.key ((head.drop 24).take 32) 32 (asciiBytes "MZ-SEAL"); let r := State.unsealN src dst len key head ((len + 65535) / 65536) 0 s; (s.inSlice n a 64 = true) ∧ (s.sealBlockOk a = true) ∧ (s.le a 1 = 1) ∧ (s.le (a + 1) 1 = 0) ∧ (s.inSlice n src 128 = true) ∧ (leAt head 0 4 = 0x4C414553) ∧ (leAt head 4 2 = 1) ∧ (leAt head 6 2 = 0) ∧ (leAt head 56 72 = 0) ∧ (len ≠ 0) ∧ (len < 2 ^ 40) ∧ (s.inSlice n src (sealedLen len) = true) ∧ (s.inSlice n dst len = true) ∧ (s.weightKey n (leAt head 8 8) = some w)) ∧
    (∃ (s : State) (src dst len i : Nat) (key head : List Byte), (i * 65536 < len)) ∧
    (∃ (s : State) (n : Nat) (w : WeightKey), let a := s.trustArg n; let src := s.le (a + 16) 5; let dst := s.le (a + 24) 5; let len := s.le (a + 32) 8; let salt := s.draw 32; let head := record [(4, 0x4C414553), (2, 1), (2, 0), (8, w.id), (8, len)] ++ fitBytes 32 salt ++ List.replicate 72 0; let key := kmac256 w.key salt 32 (asciiBytes "MZ-SEAL"); (s.inSlice n a 64 = true) ∧ (s.sealBlockOk a = true) ∧ (s.le a 1 = 2) ∧ (s.le (a + 1) 1 = 0) ∧ (s.inSlice n src len = true) ∧ (s.inSlice n dst (sealedLen len) = true) ∧ (s.weightKey n (s.le (a + 8) 8) = some w)) ∧
    (∃ (s : State) (p n : Nat) (v : Word), (s.hasSlice n = true) ∧ (cipherWord v 7 = true)) ∧
    (∃ (s : State) (p n : Nat) (v : Word), (s.hasSlice n = true) ∧ (let u := cipherAsked s n v; (fieldOf v 31 31 = 0))) ∧
    (∃ (s : State) (p n : Nat) (v : Word), (s.hasSlice n = true) ∧ (let u := cipherAsked s n v; (fieldOf v 31 31 = 1) ∧ (fieldOf v 30 21 ≠ 0 ∨ fieldOf v 15 10 ≠ 0 ∨ fieldOf v 19 16 = 0 ∨ 8 ≤ fieldOf v 19 16))) ∧
    (∃ (s : State) (p n : Nat) (v : Word) (m : Nat), (s.hasSlice n = true)) ∧
    (∃ (s : State) (i : Nat), (6 ≤ i)) ∧
    (∃ (s : State) (i : Nat), (i < 6) ∧ (s.rma.conns = [])) ∧
    (∃ (s : State) (i cid : Nat) (c : RmaConn), (i < 6) ∧ (s.rma.conns = [(cid, c)]) ∧ (c.enc = true) ∧ (c.state = 1)) :=
  ⟨⟨((tC tKeys).wr (Reg.TRUST_KEY 0 3) 7), 0, 0x0404, 3, by decide +kernel⟩,
   ⟨((tC {}).wr (Reg.TRUST_KEY 0 3) 7), 0, 0, 0x80010003, by decide +kernel⟩,
   ⟨(tC tKeys), 0, 0, 0x80020003, by decide +kernel⟩,
   ⟨(tC tKeys), 0, 0, 0x80030003, by decide +kernel⟩,
   ⟨(tC tKeys), 0, 0, 0x80040003, false, by decide +kernel⟩,
   ⟨((tC tKeys).trustCmdWrite 0 0x80040003 false), 0, 0, 0x80050003, false, by decide +kernel⟩,
   ⟨(tC tKeys), (contextHead 0 1 3 0 [] 5 ++ tKeys.body ++ List.replicate 24 0), 3, by decide +kernel⟩,
   ⟨(tC tKeys), (contextHead 1 1 3 0 [] 5 ++ tKeys.body ++ List.replicate 24 0), 3, by decide +kernel⟩,
   ⟨tUn, 0, 0, 0x80060000, false, by decide +kernel⟩,
   ⟨((tS 2 3).wr (Reg.TRUST_ARG_HI 0) 0xFF), 0, false, by decide +kernel⟩,
   ⟨(tC {}), 0, false, by decide +kernel⟩,
   ⟨((tPl.writeB 0x40001 [1, 0xFF, 0x3F]).wr Reg.GLB_STATUS 0x40002), 0, false, by decide +kernel⟩,
   ⟨tPl, 0, tW, by decide +kernel⟩,
   ⟨tUn, 0x50000, 0x60000, 16, 0, (sealKey tW.key tSalt), (tUn.bytes 0x50000 128), by decide +kernel⟩,
   ⟨(tSeal 2 77 16 (tS 2 3)), 0, tW, by decide +kernel⟩,
   ⟨(tUn.writeB 0x40000 (leBytes 8 77)), 0, 0, 0x80070000, by decide +kernel⟩,
   ⟨(tC {}), 0, 0, 0x10003, by decide +kernel⟩,
   ⟨(tC {}), 0, 0, 0x80080003, by decide +kernel⟩,
   ⟨(tC {}), 0, 0, 0x80080003, 0, by decide +kernel⟩,
   ⟨(tC tKeys), 6, by decide +kernel⟩,
   ⟨{ tC tKeys with trust := (tLive 2).trust }, 4, by decide +kernel⟩,
   ⟨{ tC tKeys with rma := { conns := [(5, { state := 1, enc := true, cipher := 3 })] } }, 4, 5, { state := 1, enc := true, cipher := 3 }, by decide +kernel⟩⟩

/-- A part in phase `k` of cast-on. -/
def cPh (k : Nat) : State := (up.wf Reg.GLB_STATUS 3 0 1).wr Reg.CAST_PHASE (BitVec.ofNat 32 k)
def cTrip : State := { up with pwr := { up.pwr with tripLow := true } }
def cFlash (s : State) : State := { s with flash := { boots := 7, dirA := (3, 0x01000000), dirB := (2, 0) }, fuses := { uid := 0x1234, lc := 1, secret := [5] }, mem := [(5, 6)] }
def cOff (s : State) : State := { s.wf Reg.GLB_STATUS 3 0 3 with cast := { bindAt := 100 } }
def cRun : State := (up.wf (Reg.NDL_ROW 3) 6 4 1).wf (Reg.NDL_ROW 3) 3 0 4
def cImg : SlotImage := ⟨[], [], [], []⟩
def cPat : Pattern := { variants := 1, partId := 77, slices := 2, rowKinds := [1, 2, 3], parts := [0x18241818, 0x18241818, 0x18241818, 0x18241818], links := [⟨3, 1, 0, true, 9, 9, 9, 9, true⟩, ⟨14, 2, 0, true, 9, 9, 9, 9, false⟩] }
def cGood : State := { cPh 4 with pat := { cPat with vcfg := 0x02A002D0 } }
def cNone : TestResults := ⟨[], [], [], [], [], [], []⟩
def cBad : TestResults := ⟨[(0, 1, 2), (0, 1, 2)], [(1, 3)], [⟨0, 1, 0, 5, true⟩], [⟨1, 0, 2, 5, true⟩, ⟨1, 7, 2, 5, true⟩], [], [2], []⟩
def cTopo (k : Nat) : State := { (cPh 8).wf (Reg.LNK_N_STAT 3) 3 0 k with pat := { cPat with links := [⟨3, 1, 0, true, 9, 9, 9, 9, true⟩] }, cast := { topoAt := 50 } }
def cTopoL (k : Nat) : State := (cTopo k).wr (Reg.LNK_N_CTL 3) 1
def cRdy : State := { cPh 9 with cast := { run := [(1, (3, [])), (3, (2, []))] }, fuses := { svns := [1, 4, 9] } }
def cColds : List Nat := (List.range 16).flatMap (fun b => (regBlocks.getD b (0,0,0)).1 :: (regRowsOf ((regBlocks.getD b (0,0,0)).2.2)).map (fun r => r.base)) |>.filter coldReg
/-- An image of kind 2 whose verification is not looked at, STAGED. -/
def fImg : SlotImage := ⟨[1], [0, 0, 0, 0, 0, 0, 2, 0, 5] ++ List.replicate 4087 0, List.replicate 32 3, [1, 2, 3]⟩
def fSt (k : Nat) : State := (up.wf Reg.SPN_FW_DIR (8 * k + 3) (8 * k + 2) 1).setStaged k (some fImg)
def fGo : State := { (fSt 2) with cast := { go := true, commit := some 5 }, trust := { narrow := [(3, [])] }, fuses := { svns := [0, 1, 0] } }
def fGrp (s : State) : State := (s.wr (Reg.SWT_MC 5 7) 0x80000000).wr Reg.SPN_FW_ARG 0x00030005
def fTab : List Byte := sha3x256 [9, 9]
def fHdr : List Byte := leBytes 4 0x474D495A ++ List.replicate 8 0 ++ leBytes 4 2 ++ sha3x256 fTab ++ List.replicate 4048 0
def fRx (r : FwRecv) : State := { up with cast := { recv := some r } , now := 1000, pat := { watch := [8, 9] } }
def fR0 : FwRecv := { part := 4, kind := 2, cert := [1], header := fHdr, heard := 100 }
def fR1 : FwRecv := { fR0 with table := some fTab }
def fR2 : FwRecv := { fR1 with chunks := [(0, some [9, 9])] }
def fL : FwLead := { kind := 1, group := 5, targets := 2, since := 100, ready := [3] }
def fLd (l : FwLead) : State := { up with cast := { lead := some l } }
def fCore (c x : Nat) : State := up.wf Reg.SPN_CORE (4 * c + 3) (4 * c) x
def fCoreR (c : Nat) : State := { fCore c 1 with cast := { restarts := [(c, [1, 2, 3, 4])] }, trust := { narrow := [(c, [1])] } }

theorem witness_CastOn :
    (∃ (s : State) (p : Nat) (v : Word), (fieldOf v 31 31 = 1) ∧ (fieldOf v 30 24 = 0) ∧ (fieldOf v 7 5 = 0) ∧ (fieldOf v 3 0 = 2)) ∧
    (∃ (s : State) (p a : Nat), (coldReg a = true) ∧ (a ≠ Reg.SPN_FW_DIR) ∧ (a ≠ Reg.CAST_BOOT) ∧ (s.partState = 4)) ∧
    (∃ (s : State) (p : Nat) (v : Word), (fieldOf v 31 31 = 1) ∧ (fieldOf v 30 24 ≠ 0 ∨ fieldOf v 7 5 ≠ 0 ∨ fieldOf v 3 0 = 0 ∨ 3 ≤ fieldOf v 3 0)) ∧
    (∃ (s : State) (p : Nat) (v : Word), (fieldOf v 31 31 = 0)) ∧
    (∃ (s : State) (p : Nat) (v : Word), (fieldOf v 31 31 = 1) ∧ (fieldOf v 30 24 = 0) ∧ (fieldOf v 7 5 = 0) ∧ (fieldOf v 3 0 = 1)) ∧
    (∃ (s : State), (s.partState ≠ 3 ∨ (∃ n ∈ s.slices, s.freezeDone n = false))) ∧
    (∃ (s : State), (s.partState = 3) ∧ (s.slices.all (fun n => s.freezeDone n) = true) ∧ (s.spaces = [])) ∧
    (∃ (s : State) (t : Nat), (s.partState ≠ 3 ∨ t < s.cast.bindAt + 1000000000 * s.rf Reg.CAST_CTL 31 24)) ∧
    (∃ (s : State) (t : Nat), (s.partState = 3) ∧ (s.cast.bindAt + 1000000000 * s.rf Reg.CAST_CTL 31 24 ≤ t)) ∧
    (∃ (s : State) (bad : List Nat) (a b : List (Option SlotImage)) (o : Option SlotImage) (q : Pattern) (r : TestResults) (t : Nat), (inCast s 1 = false)) ∧
    (∃ (s : State) (bad : List Nat) (a b : List (Option SlotImage)) (o : Option SlotImage) (q : Pattern) (r : TestResults) (t : Nat), (inCast s 2 = false)) ∧
    (∃ (s : State) (bad : List Nat) (a b : List (Option SlotImage)) (o : Option SlotImage) (q : Pattern) (r : TestResults) (t : Nat), (inCast s 3 = false)) ∧
    (∃ (s : State) (bad : List Nat) (a b : List (Option SlotImage)) (o : Option SlotImage) (q : Pattern) (r : TestResults) (t : Nat), (inCast s 4 = false)) ∧
    (∃ (s : State) (bad : List Nat) (a b : List (Option SlotImage)) (o : Option SlotImage) (q : Pattern) (r : TestResults) (t : Nat), (inCast s 5 = false)) ∧
    (∃ (s : State) (bad : List Nat) (a b : List (Option SlotImage)) (o : Option SlotImage) (q : Pattern) (r : TestResults) (t : Nat), (inCast s 6 = false)) ∧
    (∃ (s : State) (bad : List Nat) (a b : List (Option SlotImage)) (o : Option SlotImage) (q : Pattern) (r : TestResults) (t : Nat), (inCast s 7 = false)) ∧
    (∃ (s : State) (bad : List Nat) (a b : List (Option SlotImage)) (o : Option SlotImage) (q : Pattern) (r : TestResults) (t : Nat), (inCast s 8 = false)) ∧
    (∃ (s : State) (bad : List Nat) (a b : List (Option SlotImage)) (o : Option SlotImage) (q : Pattern) (r : TestResults) (t : Nat), (inCast s 9 = false)) ∧
    (∃ (s : State), (inCast s 1 = true)) ∧
    (∃ (s : State) (bad : List Nat) (slots : List (Option SlotImage)), (inCast s 2 = true) ∧ (0 ∈ bad) ∧ (1 ∈ bad)) ∧
    (∃ (s : State) (bad : List Nat) (slots : List (Option SlotImage)) (x y : SlotImage), (inCast s 2 = true) ∧ ((0 ∉ bad ∨ 1 ∉ bad) ∧ (let f := s.flash; let u := [1, 2, 3].foldl State.dirSettle ((s.setFlash { f with cur := if 0 ∈ bad then 1 else if 1 ∈ bad then 0 else if f.dirA.1 < f.dirB.1 then 1 else 0 }).flashRead); (slots[u.dirActive 1]? = some (some x)) ∧ (slots[1 - u.dirActive 1]? = some (some y))))) ∧
    (∃ (s : State) (slots : List (Option SlotImage)), (slots.all (fun x => x = none) = true) ∧ (inCast s 2 = true)) ∧
    (∃ (s : State) (sp pa : List (Option SlotImage)) (q : Pattern), (inCast s 3 = true)) ∧
    (∃ (s : State) (o : Option SlotImage) (q : Pattern), (inCast s 4 = true) ∧ (s.patternStatus s.pat.variants s.pat = 0)) ∧
    (∃ (s : State) (q : Pattern), (inCast s 4 = true) ∧ (s.patternStatus s.pat.variants s.pat ≠ 0)) ∧
    (∃ (s : State) (r : TestResults), (inCast s 5 = true) ∧ (s.ledgerHeld = []) ∧ (s.ledger.length + (s.testEntries r).length ≤ 4096)) ∧
    (∃ (s : State), (inCast s 6 = true)) ∧
    (∃ (s : State), (inCast s 7 = true) ∧ ([1, 2, 4].contains s.pat.slices = true) ∧ (s.pat.regs = [])) ∧
    (∃ (s : State) (t : Nat), (inCast s 8 = true) ∧ (t < s.cast.topoAt + 1000000 * s.pat.topoWait) ∧ (s.woardLinks.any (fun n => !s.linkLive n && s.linkState n ≠ 8) = true)) ∧
    (∃ (s : State) (t : Nat), (inCast s 8 = true) ∧ (s.woardLinks.all (fun n => s.linkLive n) = true)) ∧
    (∃ (s : State) (t : Nat) (n : Nat), (inCast s 8 = true) ∧ (s.cast.topoAt + 1000000 * s.pat.topoWait ≤ t) ∧ (n ∈ s.woardLinks) ∧ (s.linkLive n = false) ∧ ((s.wiring n).any (fun l => l.required) = true)) ∧
    (∃ (s : State), (inCast s 9 = true)) :=
  ⟨⟨(cFlash up), 0, 0x80575212, by decide +kernel⟩,
   ⟨(cFlash (up.wf Reg.GLB_STATUS 3 0 4)), 0, Reg.TRUST_LC, by decide +kernel⟩,
   ⟨up, 0, 0x80000003, by decide +kernel⟩,
   ⟨up, 0, 0x00000002, by decide +kernel⟩,
   ⟨cRun, 0, 0x80000001, by decide +kernel⟩,
   ⟨up, by decide +kernel⟩,
   ⟨(cOff (up.setSliceState 0 1)), by decide +kernel⟩,
   ⟨(cOff up), 100, by decide +kernel⟩,
   ⟨(cOff cRun), 40000000100, by decide +kernel⟩,
   ⟨up, [], [], [], none, {}, cNone, 0, by decide +kernel⟩,
   ⟨up, [], [], [], none, {}, cNone, 0, by decide +kernel⟩,
   ⟨up, [], [], [], none, {}, cNone, 0, by decide +kernel⟩,
   ⟨up, [], [], [], none, {}, cNone, 0, by decide +kernel⟩,
   ⟨up, [], [], [], none, {}, cNone, 0, by decide +kernel⟩,
   ⟨up, [], [], [], none, {}, cNone, 0, by decide +kernel⟩,
   ⟨up, [], [], [], none, {}, cNone, 0, by decide +kernel⟩,
   ⟨up, [], [], [], none, {}, cNone, 0, by decide +kernel⟩,
   ⟨up, [], [], [], none, {}, cNone, 0, by decide +kernel⟩,
   ⟨(cFlash (cPh 1)), by decide +kernel⟩,
   ⟨(cPh 2), [1, 0], [], by decide +kernel⟩,
   ⟨(cFlash (cPh 2)), [], [some fImg, some fImg], fImg, fImg, by decide +kernel⟩,
   ⟨(cPh 2), [none, none], by decide +kernel⟩,
   ⟨(cPh 3), [some fImg, none], [none, none], {}, by decide +kernel⟩,
   ⟨cGood, none, {}, by decide +kernel⟩,
   ⟨(cPh 4), {}, by decide +kernel⟩,
   ⟨(cPh 5), cNone, by decide +kernel⟩,
   ⟨{ cPh 6 with mem := [(5, 6)], rows := [(3, { len := 5 })], ledger := [⟨1, 0, 1, 3, 0, 0, 1⟩] }, by decide +kernel⟩,
   ⟨{ cPh 7 with pat := cPat, mem := [(5, 6)] }, by decide +kernel⟩,
   ⟨(cTopoL 2), 60, by decide +kernel⟩,
   ⟨(cTopoL 6), 60, by decide +kernel⟩,
   ⟨(cTopoL 2), 1000000050, 3, by decide +kernel⟩,
   ⟨cRdy, by decide +kernel⟩⟩

theorem witness_FirmwareUpdate :
    (∃ (s : State) (p : Nat) (v : Word) (i : SlotImage) (q : Pattern) (ok : Bool), (fieldOf v 31 31 = 0)) ∧
    (∃ (s : State) (p : Nat) (v : Word) (i : SlotImage) (q : Pattern) (ok : Bool), (fieldOf v 31 31 = 1) ∧ (fieldOf v 30 10 ≠ 0 ∨ fieldOf v 7 3 ≠ 0 ∨ fieldOf v 9 8 = 0 ∨ fieldOf v 2 0 = 0 ∨ 4 < fieldOf v 2 0)) ∧
    (∃ (s : State) (p kind : Nat) (v : Word) (i : SlotImage) (q : Pattern) (ok : Bool), (v = BitVec.ofNat 32 (0x80000001 + 256 * kind)) ∧ (1 ≤ kind) ∧ (kind ≤ 3)) ∧
    (∃ (s : State) (p kind op : Nat) (v : Word), (v = BitVec.ofNat 32 (0x80000000 + op + 256 * kind)) ∧ (1 ≤ kind) ∧ (kind ≤ 3) ∧ ((fwAsked s v).fwStaged kind = none) ∧ (op = 2)) ∧
    (∃ (s : State) (p kind op : Nat) (v : Word), (v = BitVec.ofNat 32 (0x80000000 + op + 256 * kind)) ∧ (1 ≤ kind) ∧ (kind ≤ 3) ∧ ((fwAsked s v).fwStaged kind = none) ∧ (op = 3)) ∧
    (∃ (s : State) (p kind op : Nat) (v : Word), (v = BitVec.ofNat 32 (0x80000000 + op + 256 * kind)) ∧ (1 ≤ kind) ∧ (kind ≤ 3) ∧ ((fwAsked s v).fwStaged kind = none) ∧ (op = 4)) ∧
    (∃ (s : State) (p kind op : Nat) (v : Word) (i : SlotImage), (v = BitVec.ofNat 32 (0x80000000 + op + 256 * kind)) ∧ ((1 ≤ kind) ∧ ((kind ≤ 3) ∧ (let u := fwAsked s v; let g := s.rf Reg.SPN_FW_ARG 11 0; (u.fwStaged kind = some i) ∧ (op = 2))))) ∧
    (∃ (s : State) (p kind op : Nat) (v : Word) (i : SlotImage), (v = BitVec.ofNat 32 (0x80000000 + op + 256 * kind)) ∧ ((1 ≤ kind) ∧ ((kind ≤ 3) ∧ (let u := fwAsked s v; let g := s.rf Reg.SPN_FW_ARG 11 0; (u.fwStaged kind = some i) ∧ (op = 3))))) ∧
    (∃ (s : State) (p kind op : Nat) (v : Word) (i : SlotImage), (v = BitVec.ofNat 32 (0x80000000 + op + 256 * kind)) ∧ ((1 ≤ kind) ∧ ((kind ≤ 3) ∧ (let u := fwAsked s v; let g := s.rf Reg.SPN_FW_ARG 11 0; (u.fwStaged kind = some i) ∧ (op = 4) ∧ (u.fwBusy = false) ∧ (s.partState ≠ 5) ∧ (u.groupValid g = true))))) ∧
    (∃ (s : State) (p k : Nat) (bs : List Byte), (s.cast.recv = none)) ∧
    (∃ (s : State) (p k : Nat) (bs : List Byte) (r : FwRecv), (s.cast.recv = some r)) ∧
    (∃ (s : State) (p k : Nat) (bs : List Byte) (r : FwRecv), (s.cast.recv = some r)) ∧
    (∃ (s : State) (p k : Nat) (bs : List Byte) (r : FwRecv) (tb : List Byte), (s.cast.recv = some r) ∧ (let x := { r with heard := s.now }; (r.table = some tb))) ∧
    (∃ (s : State) (t : Nat) (ok : Bool), (s.cast.recv = none)) ∧
    (∃ (s : State) (t : Nat) (ok : Bool) (r : FwRecv), (s.cast.recv = some r)) ∧
    (∃ (s : State) (p : Nat) (l : FwLead), (s.cast.lead = some l) ∧ (p ∉ l.ready)) ∧
    (∃ (s : State) (p : Nat) (l : FwLead), (s.cast.lead = some l) ∧ (p ∈ l.ready)) ∧
    (∃ (s : State) (p st : Nat) (l : FwLead), (s.cast.lead = some l)) ∧
    (∃ (s : State) (p st : Nat), (s.cast.lead = none)) ∧
    (∃ (s : State) (t : Nat) (l : FwLead), (s.cast.lead = some l)) ∧
    (∃ (s : State) (t : Nat), (s.cast.lead = none)) ∧
    (∃ (s : State) (k b : Nat), (s.fwStaged k = none)) ∧
    (∃ (s : State) (k b : Nat) (i : SlotImage), (s.fwStaged k = some i) ∧ (1 ≤ k) ∧ (k ≤ 3)) ∧
    (∃ (s : State), (s.cast.go = false) ∧ (s.cast.commit = none)) ∧
    (∃ (s : State) (i : SlotImage), (s.cast.go = true) ∧ (s.stagedImage 2 = some i) ∧ ((s.ctr Ctr.SPN_RESTART).count + 8 < 2 ^ 48)) ∧
    (∃ (s : State) (c t : Nat), (8 ≤ c ∨ s.rf Reg.SPN_CORE (4 * c + 3) (4 * c) ≠ 1)) ∧
    (∃ (s : State) (c t : Nat), (c < 8) ∧ (s.rf Reg.SPN_CORE (4 * c + 3) (4 * c) = 1) ∧ (s.cast.recv = none)) ∧
    (∃ (s : State) (c : Nat), ((c < 8 → s.rf Reg.SPN_CORE (4 * c + 3) (4 * c) ≠ 2))) ∧
    (∃ (s : State) (c : Nat), (c < 8) ∧ (s.rf Reg.SPN_CORE (4 * c + 3) (4 * c) = 2)) ∧
    (∃ (s : State) (t : Nat), (s.pwr.reports = [] ∨ t % 10000000 ≠ 0 ∨ 2 ≤ s.rf Reg.SPN_CORE 15 12)) ∧
    (∃ (s : State) (t b e : Nat), (s.pwr.reports = [(b, e)]) ∧ (t % 10000000 = 0) ∧ (s.rf Reg.SPN_CORE 15 12 < 2) ∧ (s.sliceCount = 1)) :=
  ⟨⟨up, 0, 0x105, cImg, {}, true, by decide +kernel⟩,
   ⟨up, 0, 0x80000105, cImg, {}, true, by decide +kernel⟩,
   ⟨up, 0, 2, 0x80000201, cImg, {}, true, by decide +kernel⟩,
   ⟨up, 0, 1, 2, 0x80000102, by decide +kernel⟩,
   ⟨up, 0, 1, 3, 0x80000103, by decide +kernel⟩,
   ⟨up, 0, 1, 4, 0x80000104, by decide +kernel⟩,
   ⟨(fSt 2), 0, 2, 2, 0x80000202, fImg, by decide +kernel⟩,
   ⟨(fGrp (fSt 2)), 0, 2, 3, 0x80000203, fImg, by decide +kernel⟩,
   ⟨(fGrp (fSt 2)), 0, 2, 4, 0x80000204, fImg, by decide +kernel⟩,
   ⟨up, 4, 0, [1], by decide +kernel⟩,
   ⟨(fRx fR0), 4, 0, fTab, fR0, rfl⟩,
   ⟨(fRx fR0), 4, 0, fTab, fR0, rfl⟩,
   ⟨(fRx fR1), 4, 0, [9, 9], fR1, fTab, ⟨rfl, rfl⟩⟩,
   ⟨up, 5, true, by decide +kernel⟩,
   ⟨(fRx fR2), 200, true, fR2, rfl⟩,
   ⟨(fLd fL), 4, fL, by decide +kernel⟩,
   ⟨(fLd fL), 3, fL, by decide +kernel⟩,
   ⟨(fLd fL), 3, 0x0210, fL, by decide +kernel⟩,
   ⟨up, 3, 0x0611, by decide +kernel⟩,
   ⟨(fLd fL), 10000000100, fL, by decide +kernel⟩,
   ⟨up, 10000000099, by decide +kernel⟩,
   ⟨up, 2, 5, by decide +kernel⟩,
   ⟨(fSt 2), 2, 5, fImg, by decide +kernel⟩,
   ⟨up, by decide +kernel⟩,
   ⟨fGo, fImg, by decide +kernel⟩,
   ⟨up, 8, 5, by decide +kernel⟩,
   ⟨(fCoreR 7), 7, 5, by decide +kernel⟩,
   ⟨up, 9, by decide +kernel⟩,
   ⟨(fCore 3 2), 3, by decide +kernel⟩,
   ⟨up, 5, by decide +kernel⟩,
   ⟨{ up with pwr := { reports := [(1500000, 2600001)] } }, 10000000, 1500000, 2600001, by decide +kernel⟩⟩

def pRd : State := ((up.wr Reg.PWR_VCORE 740).wr Reg.PWR_POWER 3000)
def pCool (k g : Nat) : State :=
  let u := ((up.wr Reg.PWR_VCORE 740).wr Reg.PWR_POWER 1000).wf Reg.PWR_STAT 15 12 g
  { u with pwr := { clears := k, gFast := 3, fastAt := 0 } }
def pVI (s : State) (v : Nat) : State := (List.range 4).foldl (fun s d => s.wr (Reg.PWR_DIE_VI d) (BitVec.ofNat 32 v)) s
def pThr (s : State) : State := { s with pwr := { s.pwr with thr := some (1000, 5) } }
def pTrip (s : State) : State := { s with pwr := { s.pwr with atTrip := [(18, true)] } }
def pHotV : List Int := [10, 20, 120, 30, 120, -40, 0, 0, 0, 0, 0, 0, 0, 0, 0, 0]
def pHigh : State := up.wr Reg.PWR_TLIM 0x69735A64
def tbS (k : Nat) : State := { (up.wr Reg.PWR_TB_SRC 1).wf Reg.PWR_TB_STAT 2 0 k with tbHeard := 5 }
def tlS : State := { (up.wr Reg.PWR_TEL_CFG 0x80000002).wr Reg.PWR_TEL_MASK 2 with ctrs := [(Ctr.CAST_WARM, ⟨7, true⟩)] }
def tlC (k : Nat) : Capture := { time := k, head := List.replicate 64 1, sections := [[1, 2], [3]] }
def tlQ : State := { (up.wr (Reg.ETH_P_STAT 3) 2).wr Reg.PWR_TEL_CFG 0x80000002 with pwr := { captures := [tlC 5, tlC 6] }, pat := { collector := (9, 10, 3) } }
def bLc (k : Nat) : State := { up.wr Reg.TRUST_LC (BitVec.ofNat 32 k) with tap := { cells := [true, false] } }
def bLnk (k : Nat) : State := up.wf (Reg.LNK_N_STAT 15) 3 0 k

theorem witness_PowerControl :
    (∃ (s : State) (t again : Nat) (hot icc : Bool) (silent : List Nat), (t % 100000 ≠ 0 ∨ s.cast.off = true)) ∧
    (∃ (s : State) (t : Nat) (hot icc : Bool), (t % 100000 = 0) ∧ (s.cast.off = false)) ∧
    (∃ (s : State) (t i again : Nat), (t % 100000 = 0) ∧ (s.cast.off = false) ∧ (s.partState = 2) ∧ (i < 4) ∧ (s.pwr.silent = []) ∧ (s.pwr.thr = none)) ∧
    (∃ (s : State) (t : Nat), (s.pwr.thr = none)) ∧
    (∃ (s : State) (t d : Nat), (4 ≤ d)) ∧
    (∃ (s : State) (t d : Nat), (d < 4) ∧ (s.pwr.thr = none)) ∧
    (∃ (s : State) (t : Nat), (s.pwr.thr = none) ∧ (s.vt < s.vnom ∨ 0 < s.gate)) ∧
    (∃ (s : State) (t b c : Nat), (s.pwr.thr = some (b, c)) ∧ (s.vnom ≤ s.vt) ∧ (s.gate = 0)) ∧
    (∃ (s : State) (t est : Nat) (rs : List AvsRead), (t % 100000 ≠ 0)) ∧
    (∃ (s : State) (t est : Nat) (v a : List Nat), (t % 100000 = 0) ∧ (v.length = 6) ∧ (a.length = 6) ∧ ((∀ x ∈ v ++ a, x < 1024)) ∧ (s.pwr.thr = none)) ∧
    (∃ (s : State) (t d : Nat) (xs : List (Option Int)), (4 ≤ d)) ∧
    (∃ (s : State) (t d m i : Nat) (vs : List Int), (d < 4) ∧ (vs.length = 16) ∧ (s.now ≤ t) ∧ ((∀ x ∈ vs, -40 ≤ x ∧ x ≤ (m : Int))) ∧ (m ≤ 150) ∧ (vs[i]? = some (m : Int)) ∧ ((∀ j ∈ List.range i, vs.getD j 0 < (m : Int))) ∧ (s.pwr.tripLow = false)) ∧
    (∃ (s : State) (t d : Nat) (xs : List Nat), (4 ≤ d)) ∧
    (∃ (s : State) (t d a b c : Nat), (d < 4) ∧ (a < 256) ∧ (b < 256) ∧ (c < 256) ∧ (s.stacksOf d = 3) ∧ (s.pwr.tripLow = false)) :=
  ⟨⟨up, 5, 0, false, false, [], by decide +kernel⟩,
   ⟨pRd, 200000, false, false, by decide +kernel⟩,
   ⟨up, 200000, 2, 5, by decide +kernel⟩,
   ⟨(pCool 0 0), 77, by decide +kernel⟩,
   ⟨up, 77, 4, by decide +kernel⟩,
   ⟨up, 77, 3, by decide +kernel⟩,
   ⟨pRd, 77, by decide +kernel⟩,
   ⟨(pThr (up.wr Reg.PWR_VCORE 750)), 5001, 1000, 5, by decide +kernel⟩,
   ⟨up, 77, 0, [], by decide +kernel⟩,
   ⟨up, 300000, 50, [750, 751, 752, 753, 900, 1000], [100, 101, 102, 103, 5, 6], by decide +kernel⟩,
   ⟨up, 5, 4, [], by decide +kernel⟩,
   ⟨pHigh, 5, 1, 120, 2, pHotV, by decide +kernel⟩,
   ⟨up, 5, 4, [], by decide +kernel⟩,
   ⟨pHigh, 5, 1, 100, 104, 20, by decide +kernel⟩⟩

theorem witness_BoardAndPins :
    (∃ (s : State) (t : Nat), (s.rf Reg.PWR_TEL_CFG 31 31 = 0 ∨ s.rf Reg.PWR_TEL_CFG 15 0 = 0 ∨ t % (1000000 * s.rf Reg.PWR_TEL_CFG 15 0) ≠ 0)) ∧
    (∃ (s : State) (t : Nat), (s.rf Reg.PWR_TEL_CFG 31 31 = 1) ∧ (0 < s.rf Reg.PWR_TEL_CFG 15 0) ∧ (t % (1000000 * s.rf Reg.PWR_TEL_CFG 15 0) = 0) ∧ (s.rd Reg.PWR_TEL_MASK = 2)) ∧
    (∃ (s : State), (s.pwr.captures = [] ∨ 2 ≤ s.rf Reg.SPN_CORE 27 24 ∨ s.rf (Reg.ETH_P_STAT s.pat.collector.2.2) 1 0 ≠ 2)) ∧
    (∃ (s : State) (c : Capture) (rest : List Capture), (s.pwr.captures = c :: rest) ∧ (c.datagrams.length = 1) ∧ (s.rf Reg.SPN_CORE 27 24 < 2) ∧ (s.rf (Reg.ETH_P_STAT s.pat.collector.2.2) 1 0 = 2)) ∧
    (∃ (s : State) (t : Nat), (s.pwr.captures = [])) ∧
    (∃ (s : State) (t : Nat) (c : Capture) (rest : List Capture), (s.pwr.captures = c :: rest)) ∧
    (∃ (s : State) (op eid : Nat), (op < 2) ∧ (0 < eid) ∧ (eid < 255)) ∧
    (∃ (s : State) (op eid : Nat), (2 ≤ op ∨ eid = 0 ∨ 255 ≤ eid)) ∧
    (∃ (s : State) (k : Nat), (k ≠ 1) ∧ (k ≠ 2) ∧ (k ≠ 4) ∧ (k < 256)) ∧
    (∃ (s : State) (a : Nat), (a ∈ [Reg.GLB_STATUS, Reg.GLB_PART_ID, Reg.GLB_BEAT_SEQ, Reg.CAST_PHASE, Reg.CAST_STATUS, Reg.PWR_VCORE, Reg.PWR_POWER])) ∧
    (∃ (s : State) (a : Nat), (0x300000 ≤ a ∨ a % 4 ≠ 0)) ∧
    (∃ (s : State) (k a : Nat), (k = 0 ∨ 4 ≤ k)) ∧
    (∃ (s : State) (h : List Byte), (s.pwr.lastHead = some h)) ∧
    (∃ (s : State), (s.pwr.lastHead = none)) ∧
    (∃ (s : State), ((∀ c ∈ List.range 8, s.rf Reg.SPN_CORE (4 * c + 3) (4 * c) ≠ 3))) ∧
    (∃ (s : State) (c : Nat), (c < 8) ∧ (s.rf Reg.SPN_CORE (4 * c + 3) (4 * c) = 3)) ∧
    (∃ (s : State) (p : Nat), (2 ≤ p)) ∧
    (∃ (s : State) (p : Nat), (p < 2) ∧ (s.partState = 1) ∧ (s.rf Reg.CAST_PHASE 3 0 < 5)) ∧
    (∃ (s : State) (p : Nat), (p < 2) ∧ (s.partState ≠ 1)) ∧
    (∃ (s : State) (c : Nat), (10 ≤ c)) ∧
    (∃ (s : State) (c : Nat), (c < 2)) ∧
    (∃ (s : State) (c n : Nat), (2 ≤ c) ∧ (c < 10) ∧ (n < 96) ∧ (s.link n = {})) ∧
    (∃ (s : State), (s.variant = 0)) ∧
    (∃ (s : State), (s.rf Reg.TRUST_LC 1 0 < 2)) ∧
    (∃ (s : State) (low : Bool), (low = false ∨ 2 ≤ s.rf Reg.TRUST_LC 1 0)) :=
  ⟨⟨up, 5, by decide +kernel⟩,
   ⟨tlS, 4000000, by decide +kernel⟩,
   ⟨up, by decide +kernel⟩,
   ⟨tlQ, (tlC 5), [tlC 6], by decide +kernel⟩,
   ⟨up, 5, by decide +kernel⟩,
   ⟨tlQ, 2000004, (tlC 5), [tlC 6], by decide +kernel⟩,
   ⟨up, 1, 9, by decide +kernel⟩,
   ⟨up, 1, 255, by decide +kernel⟩,
   ⟨up, 5, by decide +kernel⟩,
   ⟨up, Reg.CAST_PHASE, by decide +kernel⟩,
   ⟨up, 0x300000, by decide +kernel⟩,
   ⟨up, 4, 0, by decide +kernel⟩,
   ⟨{ up with pwr := { lastHead := some [5] } }, [5], by decide +kernel⟩,
   ⟨up, by decide +kernel⟩,
   ⟨up, by decide +kernel⟩,
   ⟨(fCore 3 3), 3, by decide +kernel⟩,
   ⟨up, 2, by decide +kernel⟩,
   ⟨(cPh 4), 1, by decide +kernel⟩,
   ⟨up, 1, by decide +kernel⟩,
   ⟨up, 10, by decide +kernel⟩,
   ⟨up, 1, by decide +kernel⟩,
   ⟨(bLnk 6), 3, 15, by decide +kernel⟩,
   ⟨up, by decide +kernel⟩,
   ⟨(bLc 1), by decide +kernel⟩,
   ⟨(bLc 2), true, by decide +kernel⟩⟩

/-! ### Well-formed commands: an ill-formed term for every check -/

/-- Paths that do not exist: port 2; a page of slice 4, of port 2, with a PASID of 21 bits; function 3; ports of the other paths. -/
theorem test_wf_refuses_paths :
    viaWf (.pf0 2) = false ∧ viaWf (.page 4 0 none) = false ∧ viaWf (.page 0 2 none) = false ∧ viaWf (.page 0 0 (some (2 ^ 20))) = false ∧
    viaWf (.msix 2 0) = false ∧ viaWf (.msix 0 3) = false ∧ viaWf (.config 2 0 0) = false ∧ viaWf (.config 0 3 0) = false ∧
    viaWf (.nvme 2) = false ∧ viaWf (.page 3 1 (some 5)) = true := by decide

/-- Byte enables or data that do not fit the access's size, and a path that does not exist. -/
theorem test_wf_refuses_accesses :
    (Instr.registerWrite (.pf0 0) ⟨true, 0, 4, 16, 0⟩).wf = false ∧ (Instr.registerWrite (.pf0 0) ⟨true, 0, 4, 15, 2 ^ 32⟩).wf = false ∧
    (Instr.scWriteBack (.pf0 2) ⟨true, 0, 4, 15, 0⟩).wf = false ∧ (Instr.tvRead (.pf0 0) ⟨false, 0, 4, 16, 0⟩).wf = false ∧
    (Instr.snapGo 2 false).wf = false ∧ (Instr.snapCopyEnd 1).wf = false ∧ (Instr.registerWrite (.pf0 1) ⟨true, 0, 4, 15, 7⟩).wf = true := by
  decide

/-- A record piece of block `block`, epoch, gauge byte and part, `piece` of `pieces`. -/
def wPiece (block epoch gauge part piece pieces : Nat) : TwistRec :=
  ⟨1, epoch, block, 0, 1, 1, 0, false, false, false, 0, gauge, 0, piece, pieces, 0, 0, part, 0, []⟩

/-- Record fields that do not fit their widths, and a piece past the last. -/
theorem test_wf_refuses_records :
    (Instr.contribReceive (wPiece (2 ^ 32) 0 0 0 0 1)).wf = false ∧ (Instr.gaugeBytesReceive (wPiece 0 (2 ^ 16) 0 0 0 1)).wf = false ∧
    (Instr.resultReceive (wPiece 0 0 256 0 0 1)).wf = false ∧ (Instr.redoReceive (wPiece 0 0 0 16384 0 1)).wf = false ∧
    (Instr.finalReceive (wPiece 0 0 0 0 1 1)).wf = false ∧ (Instr.tokenReceive (wPiece 0 0 0 0 0 0)).wf = false ∧
    (Instr.contribReceive (wPiece 5 6 7 8 0 1)).wf = true := by decide

/-- A slice, row set, row, needle, die, stack, segment, feed or endpoint that the part does not have. -/
theorem test_wf_refuses_places :
    (Instr.jobOpen (.pf0 0) 4 0).wf = false ∧ (Instr.descriptorFetch 4).wf = false ∧ (Instr.rowLoad (.pf0 0) 5 0).wf = false ∧
    (Instr.loadPassEnd 5 []).wf = false ∧ (Instr.rowHang 128).wf = false ∧ (Instr.waitbWake 128 0).wf = false ∧
    (Instr.waitbWake 0 16).wf = false ∧ (Instr.waittWake 0 16).wf = false ∧ (Instr.paceUpdate 4 0).wf = false ∧
    (Instr.hbmRefresh 0 3 false).wf = false ∧ (Instr.hbmRefresh 4 0 false).wf = false ∧ (Instr.hankModeChangeDone 4 0).wf = false ∧
    (Instr.hankModeChangeDone 0 16).wf = false ∧ (Instr.feedItemPacked 0 16 0 0).wf = false ∧ (Instr.feedItemPacked 0 0 128 0).wf = false ∧
    (Instr.feedStepWrite 4 0 0 0).wf = false ∧ (Instr.feedStepWrite 0 0 48 0).wf = false ∧ (Instr.epAliveReceive 48).wf = false ∧
    (Instr.blockAckReceive 48 0 0 0).wf = false := by decide

/-- A part, link, switch input, table entry, connection, region, queue, counter or Ethernet port that the part does not have. -/
theorem test_wf_refuses_fabric :
    (Instr.keepaliveReceive 16384 false).wf = false ∧ (Instr.suspectTimeout 16384 none).wf = false ∧ (Instr.calSlot 96).wf = false ∧
    (Instr.linkAckSend 96).wf = false ∧ (Instr.packetForward 97 []).wf = false ∧ (Instr.swtRtCommit (.pf0 0) 16384 0).wf = false ∧
    (Instr.swtEpCommit (.pf0 0) 48 0).wf = false ∧ (Instr.swtMcCommit (.pf0 0) 4096 0).wf = false ∧
    (Instr.deregComplete 1048576).wf = false ∧ (Instr.rmaWqTailWrite (.pf0 0) 1024 0).wf = false ∧
    (Instr.workRequestStart 1024).wf = false ∧ (Instr.rmaCtrAdd (.pf0 0) 16384 0).wf = false ∧ (Instr.rmaTimeout 262144 0).wf = false ∧
    (Instr.ethPortDown 32 0).wf = false ∧ (Instr.ethPolicerWrite (.pf0 0) 2048 0).wf = false ∧ (Instr.ethRselWrite (.pf0 0) 4 0).wf = false := by
  decide

/-- A host port, function, copy queue, notify register, namespace, alarm source, core, kind, or clock that the part does not have. -/
theorem test_wf_refuses_host :
    (Instr.portReset 2 false []).wf = false ∧ (Instr.flr 0 3 []).wf = false ∧ (Instr.copyStart 0 8 []).wf = false ∧
    (Instr.notifyArm (.pf0 0) 0 256 0).wf = false ∧ (Instr.heartbeat (.pf0 0) 2 0).wf = false ∧ (Instr.nsUnitDrain 0 8).wf = false ∧
    (Instr.nvmeIdentify 2).wf = false ∧ (Instr.lcRequest 2 []).wf = false ∧ (Instr.trustErase (.pf0 0) 4 0).wf = false ∧
    (Instr.alarm 6).wf = false ∧ (Instr.watchdogExpire 8 0).wf = false ∧ (Instr.coreRestartDone 8).wf = false ∧
    (Instr.prepareReceive 0 0 []).wf = false ∧ (Instr.prepareReceive 0 4 []).wf = false ∧ (Instr.commitReceive 0 0).wf = false ∧
    (Instr.abortReceive 4).wf = false ∧ (Instr.warmReset (.pf0 2) 0).wf = false ∧ (Instr.iccOver 0 4).wf = false ∧
    (Instr.sensorSample 0 4 []).wf = false ∧ (Instr.perstRelease 2).wf = false ∧ (Instr.refclkLoss 10).wf = false := by decide

/-! ### The standards that the spec names, against their published values -/

/-- SHA3-256 of the empty message (FIPS 202). -/
theorem test_sha3_empty :
    (sha3x256 []).map BitVec.toNat = [0xa7, 0xff, 0xc6, 0xf8, 0xbf, 0x1e, 0xd7, 0x66, 0x51, 0xc1, 0x47, 0x56, 0xa0, 0x61, 0xd6, 0x62,
      0xf5, 0x80, 0xff, 0x4d, 0xe4, 0x3b, 0x49, 0xfa, 0x82, 0xd8, 0x0a, 0x4b, 0x80, 0xf8, 0x43, 0x4a] := by decide +kernel

/-- AES-256-GCM of no data under the zero key and nonce (NIST's test case 13): its tag. -/
theorem test_gcm_empty :
    (gcmSeal (List.replicate 32 0) (List.replicate 12 0) [] []).2.map BitVec.toNat =
      [0x53, 0x0f, 0x8a, 0xfb, 0xc7, 0x45, 0x36, 0xb9, 0xa9, 0x63, 0xb4, 0xf1, 0xc4, 0xcb, 0x73, 0x8b] := by decide +kernel

/-! ### The queue -/

/-- No word of the table spells a command, so a word placed in front changes nothing. -/
theorem test_no_word (s : State) (n w : Nat) : s.withFetchWord n w = s := rfl

/-- One step from reset with no command waiting: one cycle of the time base. -/
theorem test_idle_now : (match step State.reset with | .next t => t.now | _ => 0) = 1 := by decide +kernel

end Sys2Proof.Tests
end

section
/-! PROOFS. What every command of the part keeps, from which the queue's order (O58) and the invariant of every step (O60) follow. -/

namespace Sys2Proof.Machine

/-! ### The parts of a good state -/

/-- The counters are in canonical form and none is above its maximum (R20). -/
def CtrsOk (m : SMap Counter) : Prop :=
  SMapWf (fun _ => ({} : Counter)) m = true ∧ ∀ e ∈ m, e.2.count ≤ 2 ^ 48 - 1

theorem State.good_iff (s : State) : s.good = true ↔ SMapWf regReset s.regs = true ∧ CtrsOk s.ctrs ∧
    SMapWf (fun _ => (0 : Byte)) s.mem = true ∧ SMapWf (fun _ => false) s.tags = true := by
  simp [State.good, State.regsGood, State.ctrsGood, State.ctrsBounded, State.memoryGood, CtrsOk, and_assoc]

theorem forall_mem_eraseAt {α : Type} {P : Nat × α → Prop} (m : SMap α) (a : Nat) (h : ∀ e ∈ m, P e) :
    ∀ e ∈ eraseAt m a, P e := by
  induction m with
  | nil => exact h
  | cons e m ih =>
    obtain ⟨he, hm⟩ := List.forall_mem_cons.mp h
    rw [eraseAt]
    split
    · exact ih hm
    · exact List.forall_mem_cons.mpr ⟨he, ih hm⟩

theorem forall_mem_insertAt {α : Type} {P : Nat × α → Prop} (m : SMap α) (a : Nat) (v : α) (hv : P (a, v))
    (h : ∀ e ∈ m, P e) : ∀ e ∈ insertAt m a v, P e := by
  induction m with
  | nil => simpa [insertAt] using hv
  | cons e m ih =>
    obtain ⟨he, hm⟩ := List.forall_mem_cons.mp h
    rw [insertAt]
    split
    · exact List.forall_mem_cons.mpr ⟨hv, h⟩
    · split
      · exact List.forall_mem_cons.mpr ⟨hv, hm⟩
      · exact List.forall_mem_cons.mpr ⟨he, ih hm⟩

theorem forall_mem_store {α : Type} [DecidableEq α] {P : Nat × α → Prop} (d : α) (m : SMap α) (a : Nat) (v : α)
    (hv : P (a, v)) (h : ∀ e ∈ m, P e) : ∀ e ∈ store d m a v, P e := by
  unfold store
  split
  · exact forall_mem_eraseAt m a h
  · exact forall_mem_insertAt m a v hv h

/-- What every listed value and the value of an unlisted key satisfy, the value read at any key satisfies. -/
theorem fetch_of_forall_mem {α : Type} {P : α → Prop} (d : α) (m : SMap α) (a : Nat) (hd : P d)
    (h : ∀ e ∈ m, P e.2) : P (fetch d m a) := by
  induction m with
  | nil => exact hd
  | cons e m ih =>
    obtain ⟨he, hm⟩ := List.forall_mem_cons.mp h
    rw [fetch, lookup]
    split
    · exact he
    · exact ih hm

theorem Counter.bump_le (c : Counter) (h : c.count ≤ 2 ^ 48 - 1) : c.bump.count ≤ 2 ^ 48 - 1 := by
  unfold Counter.bump
  split
  · assumption
  · exact h

theorem Counter.add_le (c : Counter) (k : Nat) : (c.add k).count ≤ 2 ^ 48 - 1 := by
  unfold Counter.add
  split
  · assumption
  · exact Nat.le_refl _

theorem CtrsOk.modifyAt {m : SMap Counter} (h : CtrsOk m) (a : Nat) (f : Counter → Counter)
    (hf : ∀ c : Counter, c.count ≤ 2 ^ 48 - 1 → (f c).count ≤ 2 ^ 48 - 1) : CtrsOk (modifyAt {} m a f) := by
  unfold Machine.modifyAt
  exact ⟨SMapWf_store (fun _ => {}) m a _ h.1,
    forall_mem_store {} m a _ (hf _ (fetch_of_forall_mem (P := fun c => c.count ≤ 2 ^ 48 - 1) {} m a (by decide) h.2)) h.2⟩

theorem CtrsOk.filter {m : SMap Counter} (h : CtrsOk m) (p : Nat × Counter → Bool) : CtrsOk (m.filter p) :=
  ⟨SMapWf_filter _ p m h.1, fun e he => h.2 e (List.mem_of_mem_filter he)⟩

/-- A row of writes keeps the canonical form. -/
theorem SMapWf_foldl_store {α β : Type} [DecidableEq α] (d : Nat → α) (key : β → Nat) (val : SMap α → β → α) (l : List β)
    (m : SMap α) (h : SMapWf d m = true) :
    SMapWf d (l.foldl (fun m e => store (d (key e)) m (key e) (val m e)) m) = true := by
  induction l generalizing m with
  | nil => exact h
  | cons e l ih => exact ih _ (SMapWf_store d m _ _ h)

theorem SMapWf_putBytes (m : SMap Byte) (a : Nat) (bs : List Byte) (h : SMapWf (fun _ => (0 : Byte)) m = true) :
    SMapWf (fun _ => (0 : Byte)) (putBytes m a bs) = true := by
  induction bs generalizing m a with
  | nil => exact h
  | cons b bs ih => exact ih _ _ (SMapWf_store (fun _ => 0) m a b h)

theorem SMapWf_putTags (ts : SMap Bool) (a k : Nat) (p : Bool) (h : SMapWf (fun _ => false) ts = true) :
    SMapWf (fun _ => false) (putTags ts a k p) = true := by
  unfold putTags
  split
  · exact h
  · exact SMapWf_foldl_store (fun _ => false) id _ _ ts h

/-! ### What every operation of the model keeps

`Keeps s₀ s` says that the part may come from `s₀` to `s` while commands wait: the queue is the same, and a good state
stays good. Each operation of the model leads from a state that `s₀` may come to, to another: one lemma for each, named
after the operation and listed under its file, with the proof in the shape of its definition. Only the operations that write registers, counters,
memory or tags themselves have something of their own to show. -/

structure Keeps (s₀ s : State) : Prop where
  queue : s.pending = s₀.pending
  good : s₀.good = true → s.good = true

section
variable {s₀ s u : State}

theorem Keeps.refl (s : State) : Keeps s s := ⟨rfl, id⟩

/-- An update of registers, counters, memory and tags that keeps the good form of each. -/
theorem Keeps.update (hs : Keeps s₀ s) (hq : u.pending = s.pending)
    (hr : SMapWf regReset s.regs = true → SMapWf regReset u.regs = true) (hc : CtrsOk s.ctrs → CtrsOk u.ctrs)
    (hm : SMapWf (fun _ => (0 : Byte)) s.mem = true → SMapWf (fun _ => (0 : Byte)) u.mem = true)
    (ht : SMapWf (fun _ => false) s.tags = true → SMapWf (fun _ => false) u.tags = true) : Keeps s₀ u where
  queue := hq.trans hs.queue
  good h := by
    obtain ⟨h1, h2, h3, h4⟩ := s.good_iff.mp (hs.good h)
    exact u.good_iff.mpr ⟨hr h1, hc h2, hm h3, ht h4⟩

/-- An update of other fields than the queue, registers, counters, memory and tags. -/
theorem Keeps.frame {now nowFrac free holds snaps tvOdd jobs beat tws dirty pend push rows rowCmds ledger
    ledgerHeld msixOn msixTable msixOpen msixPending opt suspects carder ckp heard pat arbs ceSec prefetch
    lastWave links swtDraft tbFixed tbOffsets tbHeard rma ciphers ethPorts ethRules ethStage policers ptpSync
    ptpOrigin ptpAsk host nvme spaces trust fuses flash cast pwr tap portLinks out}
    (hs : Keeps s₀ s) : Keeps s₀ (.mk s.pending now nowFrac free s.regs s.ctrs holds snaps tvOdd s.mem s.tags
      jobs beat tws dirty pend push rows rowCmds ledger ledgerHeld msixOn msixTable msixOpen msixPending opt
      suspects carder ckp heard pat arbs ceSec prefetch lastWave links swtDraft tbFixed tbOffsets tbHeard rma
      ciphers ethPorts ethRules ethStage policers ptpSync ptpOrigin ptpAsk host nvme spaces trust fuses flash
      cast pwr tap portLinks out) :=
  hs.update rfl id id id id

theorem Keeps.ite {c : Prop} {_ : Decidable c} {a b : State} (ha : Keeps s₀ a) (hb : Keeps s₀ b) :
    Keeps s₀ (if c then a else b) := by split <;> assumption

theorem Keeps.ite_fst {α : Type} {c : Prop} {_ : Decidable c} {a b : State × α} (ha : Keeps s₀ a.1) (hb : Keeps s₀ b.1) :
    Keeps s₀ (if c then a else b).1 := by split <;> assumption

theorem Keeps.ite_snd {α : Type} {c : Prop} {_ : Decidable c} {a b : α × State} (ha : Keeps s₀ a.2) (hb : Keeps s₀ b.2) :
    Keeps s₀ (if c then a else b).2 := by split <;> assumption

theorem Keeps.ite_add {c : Prop} {_ : Decidable c} {a b : AddRes} (ha : Keeps s₀ a.s) (hb : Keeps s₀ b.s) :
    Keeps s₀ (if c then a else b).s := by split <;> assumption

theorem Keeps.foldl {α : Type} {f : State → α → State} {l : List α} (hf : ∀ u x, Keeps s₀ u → Keeps s₀ (f u x))
    (hs : Keeps s₀ s) : Keeps s₀ (l.foldl f s) := by
  induction l generalizing s with
  | nil => exact hs
  | cons x l ih => exact ih (hf s x hs)

theorem Keeps.foldl_fst {α β : Type} {f : State × β → α → State × β} {l : List α} {p : State × β}
    (hf : ∀ q x, Keeps s₀ q.1 → Keeps s₀ (f q x).1) (hp : Keeps s₀ p.1) : Keeps s₀ (l.foldl f p).1 := by
  induction l generalizing p with
  | nil => exact hp
  | cons x l ih => exact ih (hf p x hp)

/-- A state on the way that several branches go on from is followed once. -/
theorem Keeps.share {P : Prop} (k : Keeps s₀ u → P) (hu : Keeps s₀ u) : P := k hu

/-- What an instruction of a needle answers keeps what `Keeps` says (R390). -/
inductive KeepsN (s₀ : State) : NRes → Prop
  | ok {s : State} {n : Needle} (hs : Keeps s₀ s) : KeepsN s₀ (.ok s n)
  | okTrap {s : State} {n : Needle} {cause addr : Nat} (hs : Keeps s₀ s) : KeepsN s₀ (.okTrap s n cause addr)
  | trap {cause addr : Nat} : KeepsN s₀ (.trap cause addr)

theorem KeepsN.ite {c : Prop} {_ : Decidable c} {a b : NRes} (ha : KeepsN s₀ a) (hb : KeepsN s₀ b) :
    KeepsN s₀ (if c then a else b) := by split <;> assumption

theorem KeepsN.trapIf {c : Bool} {cause addr : Nat} {r : NRes} (hr : KeepsN s₀ r) : KeepsN s₀ (trapIf c cause addr r) :=
  .ite .trap hr

/-- A command completes: it answers a next state, and keeps what `Keeps` says. -/
inductive Answers (s₀ : State) : Host.Outcome State Fault Refusal → Prop
  | next {s : State} (hs : Keeps s₀ s) : Answers s₀ (.next s)

theorem Answers.exists_next {o : Host.Outcome State Fault Refusal} (h : Answers s₀ o) : ∃ t, o = .next t ∧ Keeps s₀ t := by
  obtain ⟨hs⟩ := h
  exact ⟨_, rfl, hs⟩

/-! #### Sys2Proof/Machine/Ops.lean -/

theorem Keeps.wr (hs : Keeps s₀ s) {a : Nat} {v : Word} : Keeps s₀ (s.wr a v) :=
  hs.update rfl (SMapWf_store regReset s.regs a v) id id id

theorem Keeps.wf (hs : Keeps s₀ s) {a hi lo x : Nat} : Keeps s₀ (s.wf a hi lo x) := .wr hs

theorem Keeps.wr64 (hs : Keeps s₀ s) {lo hi x : Nat} : Keeps s₀ (s.wr64 lo hi x) := .wr (.wr hs)

theorem Keeps.reach (hs : Keeps s₀ s) {t : Nat} : Keeps s₀ (s.reach t) := .frame hs

theorem Keeps.useFree (hs : Keeps s₀ s) : Keeps s₀ s.useFree := .frame hs

theorem Keeps.emit (hs : Keeps s₀ s) {o : Out} : Keeps s₀ (s.emit o) := .frame hs

theorem Keeps.count (hs : Keeps s₀ s) {a : Nat} : Keeps s₀ (s.count a) :=
  hs.update rfl id (fun h => h.modifyAt a Counter.bump Counter.bump_le) id id

theorem Keeps.countN (hs : Keeps s₀ s) {a k : Nat} : Keeps s₀ (s.countN a k) :=
  hs.update rfl id (fun h => h.modifyAt a (fun c => c.add k) (fun c _ => c.add_le k)) id id

theorem Keeps.event (hs : Keeps s₀ s) {a i : Nat} : Keeps s₀ (s.event a i) := .wr hs

theorem Keeps.eventN (hs : Keeps s₀ s) {a i k : Nat} : Keeps s₀ (s.eventN a i k) := by
  induction k generalizing s with
  | zero => exact hs
  | succ k ih => exact ih (.event hs)

theorem Keeps.poke (hs : Keeps s₀ s) {a : Nat} {bs : List Byte} {p : Bool} : Keeps s₀ (s.poke a bs p) :=
  hs.update rfl id id (SMapWf_putBytes s.mem a bs) (SMapWf_putTags s.tags a bs.length p)

theorem Keeps.setCkp (hs : Keeps s₀ s) {n : Nat} {c : Ckp} : Keeps s₀ (s.setCkp n c) := .frame hs

theorem Keeps.sendPage (hs : Keeps s₀ s) {d : Nat} : Keeps s₀ (s.sendPage d) := by
  unfold State.sendPage
  split
  · exact .count (.emit (.frame hs))
  · exact hs

theorem Keeps.capturePage (hs : Keeps s₀ s) {d g : Nat} : Keeps s₀ (s.capturePage d g) :=
  .frame (.setCkp (.ite hs (.sendPage hs)))

theorem Keeps.ckpStat (hs : Keeps s₀ s) {n st : Nat} : Keeps s₀ (s.ckpStat n st) := .wf hs

theorem Keeps.failPush (hs : Keeps s₀ s) {n st : Nat} : Keeps s₀ (s.failPush n st) :=
  .eventN (.countN (.ckpStat (.setCkp (.frame hs))))

theorem Keeps.captureNow (hs : Keeps s₀ s) {n b : Nat} : Keeps s₀ (s.captureNow n b) :=
  .ite (.setCkp (.frame hs)) (.failPush (.setCkp (.setCkp (.frame hs))))

theorem Keeps.endCopy (hs : Keeps s₀ s) {n : Nat} : Keeps s₀ (s.endCopy n) := by
  unfold State.endCopy
  dsimp only
  split
  · exact .foldl (fun _ _ hu => .foldl (fun _ _ hu' => .sendPage hu') hu) hs
  · split
    · exact .captureNow (.emit (.setCkp (.foldl (fun _ _ hu => .foldl (fun _ _ hu' => .sendPage hu') hu) hs)))
    · exact .emit (.setCkp (.foldl (fun _ _ hu => .foldl (fun _ _ hu' => .sendPage hu') hu) hs))

theorem Keeps.drainCopy (hs : Keeps s₀ s) {n : Nat} : Keeps s₀ (s.drainCopy n) :=
  .endCopy (.foldl (fun _ _ hu => .capturePage hu) hs)

theorem Keeps.touchPage (hs : Keeps s₀ s) {g : Nat} : Keeps s₀ (s.touchPage g) := by
  unfold State.touchPage
  split
  · exact hs
  · exact .frame (.ite (.count (.capturePage (.ite (.drainCopy hs) hs))) (.ite (.drainCopy hs) hs))

theorem Keeps.write (hs : Keeps s₀ s) {a : Nat} {bs : List Byte} {p : Bool} : Keeps s₀ (s.write a bs p) :=
  .poke (.foldl (fun _ _ hu => .touchPage hu) hs)

theorem Keeps.writeB (hs : Keeps s₀ s) {a : Nat} {bs : List Byte} : Keeps s₀ (s.writeB a bs) := .write hs

theorem Keeps.writeLe (hs : Keeps s₀ s) {a k n : Nat} : Keeps s₀ (s.writeLe a k n) := .writeB hs

theorem Keeps.zeroRange (hs : Keeps s₀ s) {a k : Nat} : Keeps s₀ (s.zeroRange a k) :=
  Keeps.update (.foldl (fun _ _ hu => .touchPage hu) hs) rfl id id (SMapWf_filter _ _ _) (SMapWf_filter _ _ _)

theorem Keeps.reject (hs : Keeps s₀ s) {via : Via} {a st : Nat} : Keeps s₀ (s.reject via a st) := by
  unfold State.reject
  dsimp only
  split
  · exact .wr (.wr (.wr hs))
  · exact .wr (.wr hs)

theorem Keeps.report (hs : Keeps s₀ s) {n kind st time : Nat} {args : List Byte} :
    Keeps s₀ (s.report n kind st time args) := .ite (.count (.writeB (.wr hs))) (.count (.wr hs))

theorem Keeps.reportStatus (hs : Keeps s₀ s) {n st unit : Nat} : Keeps s₀ (s.reportStatus n st unit) := .report hs

/-! #### Sys2Proof/Machine/EthOut.lean -/

theorem Keeps.setEthPort (hs : Keeps s₀ s) {p : Nat} {x : EthPort} : Keeps s₀ (s.setEthPort p x) := .frame hs

theorem Keeps.ethQueue (hs : Keeps s₀ s) {p : Nat} {t : EthTx} : Keeps s₀ (s.ethQueue p t) :=
  .ite (.setEthPort hs) (.count hs)

theorem Keeps.ethForward (hs : Keeps s₀ s) {p : Nat} {t : EthTx} : Keeps s₀ (s.ethForward p t) :=
  .ite (.ethQueue hs) (.count hs)

/-! #### Sys2Proof/Machine/Link.lean -/

theorem Keeps.setLink (hs : Keeps s₀ s) {n : Nat} {l : Link} : Keeps s₀ (s.setLink n l) := .frame hs

theorem Keeps.setLinkState (hs : Keeps s₀ s) {n x : Nat} : Keeps s₀ (s.setLinkState n x) := .wf (.wf hs)

theorem Keeps.sendFlit (hs : Keeps s₀ s) {n ty h : Nat} {nak : Bool} {payload : List Byte} {stomp : Bool} :
    Keeps s₀ (s.sendFlit n ty h nak payload stomp) := .emit (.setLink hs)

theorem Keeps.sendData (hs : Keeps s₀ s) {n : Nat} {f : DataFlit} : Keeps s₀ (s.sendData n f) :=
  .count (.sendFlit hs)

theorem Keeps.newData (hs : Keeps s₀ s) {n vc : Nat} {sop eop replace stomp : Bool} {payload : List Byte} :
    Keeps s₀ (s.newData n vc sop eop replace stomp payload) := .sendData (.setLink hs)

theorem Keeps.sendPacket (hs : Keeps s₀ s) {n vc : Nat} {bs : List Byte} : Keeps s₀ (s.sendPacket n vc bs) :=
  .foldl (fun _ _ hu => .newData hu) hs

theorem Keeps.linkPump (hs : Keeps s₀ s) {f n : Nat} : Keeps s₀ (State.linkPump f n s) := by
  induction f generalizing s with
  | zero => exact hs
  | succ f ih =>
    unfold State.linkPump
    split
    · exact ih (.sendPacket (.setLink hs))
    · exact hs

theorem Keeps.pump (hs : Keeps s₀ s) {n : Nat} : Keeps s₀ (s.pump n) := .linkPump hs

theorem Keeps.queuePacket (hs : Keeps s₀ s) {n vc : Nat} {bs : List Byte} : Keeps s₀ (s.queuePacket n vc bs) :=
  .pump (.setLink hs)

theorem Keeps.giveCredit (hs : Keeps s₀ s) {n vc k : Nat} : Keeps s₀ (s.giveCredit n vc k) := .setLink hs

theorem Keeps.linkDown (hs : Keeps s₀ s) {n cause : Nat} : Keeps s₀ (s.linkDown n cause) :=
  .share
    (fun h₁ => .ite (.event h₁) h₁)
    (.wf (.wf (.setLinkState (.setLink (.foldl
      (fun _ _ hu => by split; exacts [.ite (.count (.newData hu)) hu, hu])
      (.countN hs))))))

theorem Keeps.enterRetrain (hs : Keeps s₀ s) {n : Nat} : Keeps s₀ (s.enterRetrain n) :=
  .ite (.event (.count (.setLinkState (.setLink hs)))) hs

theorem Keeps.resendAll (hs : Keeps s₀ s) {n : Nat} : Keeps s₀ (s.resendAll n) :=
  .foldl (fun _ _ hu => .sendData hu) hs

theorem Keeps.replayLink (hs : Keeps s₀ s) {n : Nat} : Keeps s₀ (s.replayLink n) :=
  .ite hs (.ite (.enterRetrain (.count (.setLink hs))) (.resendAll (.count (.setLink hs))))

theorem Keeps.ackIn (hs : Keeps s₀ s) {n header : Nat} : Keeps s₀ (s.ackIn n header) :=
  .pump (.ite (.replayLink (.setLink hs)) (.setLink hs))

theorem Keeps.sendCtrl (hs : Keeps s₀ s) {n : Nat} {payload : List Byte} : Keeps s₀ (s.sendCtrl n payload) :=
  .sendFlit hs

theorem Keeps.linkRetry (hs : Keeps s₀ s) {n t : Nat} {present : Bool} : Keeps s₀ (s.linkRetry n t present) :=
  .ite hs (.ite (.ite (.setLinkState (.reach hs)) hs) (.ite (.setLinkState (.reach hs)) hs))

theorem Keeps.trainDone (hs : Keeps s₀ s) {n : Nat} : Keeps s₀ (s.trainDone n) :=
  .ite (.sendCtrl (.wf (.setLinkState (.setLink hs)))) hs

theorem Keeps.trainTimeout (hs : Keeps s₀ s) {n : Nat} : Keeps s₀ (s.trainTimeout n) :=
  .ite (.count (.linkDown hs)) hs

theorem Keeps.identRepeat (hs : Keeps s₀ s) {n : Nat} : Keeps s₀ (s.identRepeat n) := .ite (.sendCtrl hs) hs

theorem Keeps.identIn (hs : Keeps s₀ s) {n : Nat} {p : List Byte} : Keeps s₀ (s.identIn n p) :=
  .ite hs (.wr (.wr (.wr64 (.setLink hs))))

theorem Keeps.topoMark (hs : Keeps s₀ s) {n : Nat} {failed : Bool} : Keeps s₀ (s.topoMark n failed) :=
  .ite (.event (.wf hs)) (.wf hs)

theorem Keeps.helloIn (hs : Keeps s₀ s) {n : Nat} {p : List Byte} : Keeps s₀ (s.helloIn n p) := by
  unfold State.helloIn
  split
  · exact hs
  · exact .ite
        hs
        (.ite
          (.pump (.topoMark (.setLinkState (.sendCtrl (.wr (.setLink hs))))))
          (.event (.wf (.topoMark (.setLinkState (.sendCtrl (.wr (.setLink hs))))))))

theorem Keeps.retrainDone (hs : Keeps s₀ s) {n : Nat} {lane0 lane1 : Bool} :
    Keeps s₀ (s.retrainDone n lane0 lane1) :=
  .ite
    hs
    (.ite
      (.pump (.resendAll (.wf (.setLinkState (.setLink hs)))))
      (.ite
        (.event (.pump (.resendAll (.wf (.setLinkState (.setLink hs))))))
        (.ite (.linkDown (.count (.setLink hs))) (.count (.setLink hs)))))

/-! #### Sys2Proof/Machine/Switch.lean -/

theorem Keeps.forwardOn (hs : Keeps s₀ s) {l : Nat} {p : List Byte} : Keeps s₀ (s.forwardOn l p) :=
  .count (.queuePacket hs)

theorem Keeps.deliverLocal (hs : Keeps s₀ s) {p : List Byte} : Keeps s₀ (s.deliverLocal p) :=
  .ite (.event (.count hs)) (.emit hs)

theorem Keeps.mcastDrop (hs : Keeps s₀ s) : Keeps s₀ s.mcastDrop := .event (.count hs)

theorem Keeps.mcastCopy (hs : Keeps s₀ s) {l : Nat} {p : List Byte} : Keeps s₀ (s.mcastCopy l p) :=
  .ite (.forwardOn (.count hs)) (.mcastDrop (.count hs))

theorem Keeps.replicate (hs : Keeps s₀ s) {inp : Nat} {p : List Byte} : Keeps s₀ (s.replicate inp p) :=
  .share
    (fun h₁ => .ite (.deliverLocal (.count h₁)) h₁)
    (.foldl
      (fun _ _ hu => by split; exacts [.mcastCopy hu, .mcastDrop (.count hu)])
      (.foldl (fun _ _ hu => .mcastCopy hu) hs))

theorem Keeps.switchPacket (hs : Keeps s₀ s) {inp vc : Nat} {p : List Byte} :
    Keeps s₀ (s.switchPacket inp vc p).1 :=
  .ite_fst
    hs
    (.ite_fst
      hs
      (.ite_fst
        hs
        (.ite_fst
          (.ite_fst (.replicate hs) (.mcastDrop hs))
          (.ite_fst
            (by split; exacts [.forwardOn hs, hs])
            (.ite_fst hs (.ite_fst (.deliverLocal hs) (by split; exacts [.forwardOn hs, hs])))))))

theorem Keeps.countDiscard (hs : Keeps s₀ s) {st : Nat} : Keeps s₀ (s.countDiscard st) :=
  .ite (.event (.count hs)) (.ite (.event (.count hs)) (.ite (.count hs) (.ite (.event (.count hs)) hs)))

theorem Keeps.handlePacket (hs : Keeps s₀ s) {inp vc : Nat} {p : List Byte} : Keeps s₀ (s.handlePacket inp vc p) :=
  .ite
    (.switchPacket hs)
    (.ite
      (.countDiscard (.switchPacket hs))
      (.countDiscard (.switchPacket (.count (.countDiscard (.switchPacket hs))))))

theorem Keeps.packetForward (hs : Keeps s₀ s) {inp : Nat} {injected : List Byte} :
    Keeps s₀ (s.packetForward inp injected) :=
  .ite (.handlePacket hs) (by split; exacts [hs, .handlePacket (.giveCredit (.setLink hs))])

theorem Keeps.setDraft (hs : Keeps s₀ s) {a : Nat} {v : Option Word} : Keeps s₀ (s.setDraft a v) := .frame hs

theorem Keeps.commitEntry (hs : Keeps s₀ s) {via : Via} {endpoint : Bool} {lo hi : Nat} {v : Word} :
    Keeps s₀ (s.commitEntry via endpoint lo hi v) := .ite (.reject (.setDraft hs)) (.wr (.wr (.setDraft hs)))

theorem Keeps.commitGroup (hs : Keeps s₀ s) {via : Via} {g : Nat} {v : Word} : Keeps s₀ (s.commitGroup via g v) :=
  .share
    (fun h₁ => .ite (.reject h₁) (.wr (.foldl (fun _ _ hu => .wr hu) h₁)))
    (.foldl (fun _ _ hu => .setDraft hu) hs)

/-! #### Sys2Proof/Machine/Tally.lean -/

theorem Keeps.setJob (hs : Keeps s₀ s) {n : Nat} {j : Job} : Keeps s₀ (s.setJob n j) := .frame hs

theorem Keeps.setStep (hs : Keeps s₀ s) {n k : Nat} : Keeps s₀ (s.setStep n k) := .wr64 hs

theorem Keeps.tallyAdd (hs : Keeps s₀ s) {n : Nat} {t : TallyAcc} : Keeps s₀ (s.tallyAdd n t) :=
  .ite (.setJob hs) hs

theorem Keeps.writeTally (hs : Keeps s₀ s) {t : TallyAcc} {jobScope : Bool} : Keeps s₀ (s.writeTally t jobScope) :=
  .wr (.writeB hs)

theorem Keeps.writePartTallies (hs : Keeps s₀ s) {n step : Nat} : Keeps s₀ (s.writePartTallies n step) :=
  .foldl (fun _ _ hu => .writeTally hu) hs

/-! #### Sys2Proof/Machine/Fabric.lean -/

theorem Keeps.setRowState (hs : Keeps s₀ s) {l x : Nat} : Keeps s₀ (s.setRowState l x) := .wf hs

theorem Keeps.setRow (hs : Keeps s₀ s) {l : Nat} {r : Row} : Keeps s₀ (s.setRow l r) := .frame hs

theorem Keeps.setNeedle (hs : Keeps s₀ s) {l i : Nat} {n : Needle} : Keeps s₀ (s.setNeedle l i n) := .setRow hs

theorem Keeps.writeTrap (hs : Keeps s₀ s) {l i : Nat} {rowFault : Bool} {cause pc addr : Nat} :
    Keeps s₀ (s.writeTrap l i rowFault cause pc addr) := .ite (.event (.count hs)) (.report (.wr (.writeB hs)))

theorem Keeps.setRowCmd (hs : Keeps s₀ s) {n : Nat} {c : Option RowCmd} : Keeps s₀ (s.setRowCmd n c) := .frame hs

theorem Keeps.rowCmdEnd (hs : Keeps s₀ s) {n st row : Nat} : Keeps s₀ (s.rowCmdEnd n st row) := .wr hs

theorem Keeps.setSliceState (hs : Keeps s₀ s) {n st : Nat} : Keeps s₀ (s.setSliceState n st) := .wf hs

theorem Keeps.sliceCmdEnd (hs : Keeps s₀ s) {n st : Nat} : Keeps s₀ (s.sliceCmdEnd n st) := .wf (.wf (.wr hs))

theorem Keeps.rowDone (hs : Keeps s₀ s) {l st : Nat} : Keeps s₀ (s.rowDone l st) := by
  unfold State.rowDone
  dsimp only
  split
  · exact hs
  · split
    · exact .setRow hs
    · exact .ite (.rowCmdEnd (.setRowCmd (.setRow hs))) (.setRowCmd (.setRow hs))

theorem Keeps.rowTrapped (hs : Keeps s₀ s) {l i cause pc addr : Nat} : Keeps s₀ (s.rowTrapped l i cause pc addr) :=
  .rowDone (.event (.count (.writeTrap (.setRowState (.setRow hs)))))

theorem Keeps.rowFault (hs : Keeps s₀ s) {l cause : Nat} : Keeps s₀ (s.rowFault l cause) :=
  .rowDone (.event (.count (.writeTrap (.setRowState hs))))

theorem Keeps.rowCleared (hs : Keeps s₀ s) {l : Nat} : Keeps s₀ (s.rowCleared l) := .setRowState (.setRow hs)

theorem Keeps.ledgerAdd (hs : Keeps s₀ s) {e : LedgerEntry} : Keeps s₀ (s.ledgerAdd e) :=
  .ite (.event (.count (.frame hs))) (.event (.frame hs))

theorem Keeps.mapRow (hs : Keeps s₀ s) {l k : Nat} : Keeps s₀ (s.mapRow l k) := .wf (.wf hs)

theorem Keeps.retireRow (hs : Keeps s₀ s) {l : Nat} : Keeps s₀ (s.retireRow l).1 := by
  unfold State.retireRow
  dsimp only
  split
  · exact .report (.mapRow (.rowCleared (.event (.count (.ledgerAdd hs)))))
  · exact .mapRow (.setRowState (.rowCleared (.event (.count (.ledgerAdd hs)))))

/-! #### Sys2Proof/Machine/Trust.lean -/

theorem Keeps.setTrust (hs : Keeps s₀ s) {t : Trust} : Keeps s₀ (s.setTrust t) := .frame hs

theorem Keeps.drew (hs : Keeps s₀ s) : Keeps s₀ s.drew := .setTrust (.useFree hs)

theorem Keeps.sigFail (hs : Keeps s₀ s) : Keeps s₀ s.sigFail := .event (.count hs)

theorem Keeps.evidenceSync (hs : Keeps s₀ s) : Keeps s₀ s.evidenceSync :=
  .ite (.wr (.setTrust hs)) (.event (.wr (.setTrust hs)))

theorem Keeps.setCipher (hs : Keeps s₀ s) {i : Nat} {c : Cipher} : Keeps s₀ (s.setCipher i c) := .frame hs

theorem Keeps.trustShow (hs : Keeps s₀ s) {n : Nat} : Keeps s₀ (s.trustShow n) := .wf (.wf hs)

theorem Keeps.trustSliceErase (hs : Keeps s₀ s) {n : Nat} : Keeps s₀ (s.trustSliceErase n) := .frame (.setTrust hs)

theorem Keeps.alarmErase (hs : Keeps s₀ s) : Keeps s₀ s.alarmErase := .frame (.setTrust hs)

/-! #### Sys2Proof/Machine/Update.lean -/

theorem Keeps.setCast (hs : Keeps s₀ s) {c : Cast} : Keeps s₀ (s.setCast c) := .frame hs

theorem Keeps.setPwr (hs : Keeps s₀ s) {p : Pwr} : Keeps s₀ (s.setPwr p) := .frame hs

theorem Keeps.fwPhase (hs : Keeps s₀ s) {x : Nat} : Keeps s₀ (s.fwPhase x) := .wf hs

theorem Keeps.fwDefer (hs : Keeps s₀ s) : Keeps s₀ s.fwDefer :=
  .ite hs (.foldl (fun _ _ hu => .report hu) (.event (.fwPhase hs)))

theorem Keeps.fwTry (hs : Keeps s₀ s) : Keeps s₀ s.fwTry := .ite (.fwDefer hs) (.fwPhase (.setCast hs))

theorem Keeps.fwBoundary (hs : Keeps s₀ s) {k : Nat} : Keeps s₀ (s.fwBoundary k) := .ite (.fwTry hs) hs

/-! #### Sys2Proof/Machine/Image.lean -/

theorem Keeps.setFlash (hs : Keeps s₀ s) {f : Flash} : Keeps s₀ (s.setFlash f) := .frame hs

theorem Keeps.dirWrite (hs : Keeps s₀ s) {kind active other : Nat} : Keeps s₀ (s.dirWrite kind active other) :=
  .setFlash (.wf (.wf hs))

theorem Keeps.setStaged (hs : Keeps s₀ s) {kind : Nat} {i : Option SlotImage} : Keeps s₀ (s.setStaged kind i) :=
  .setFlash hs

theorem Keeps.measureAll (hs : Keeps s₀ s) : Keeps s₀ s.measureAll := .setTrust hs

theorem Keeps.measureStaged (hs : Keeps s₀ s) : Keeps s₀ s.measureStaged := .evidenceSync (.setTrust hs)

theorem Keeps.runImage (hs : Keeps s₀ s) {kind : Nat} {i : SlotImage} : Keeps s₀ (s.runImage kind i) := .setCast hs

theorem Keeps.svnBurn (hs : Keeps s₀ s) {kind : Nat} : Keeps s₀ (s.svnBurn kind) := .ite hs (.wf (.frame hs))

/-! #### Sys2Proof/Machine/Trigger.lean -/

theorem Keeps.msix (hs : Keeps s₀ s) {port fn vec : Nat} : Keeps s₀ (s.msix port fn vec) :=
  .ite (.emit hs) (.frame hs)

theorem Keeps.aerError (hs : Keeps s₀ s) {port fn i : Nat} {corr : Bool} : Keeps s₀ (s.aerError port fn i corr) :=
  .frame hs

theorem Keeps.urRefuse (hs : Keeps s₀ s) {port : Nat} : Keeps s₀ (s.urRefuse port) := .aerError (.event (.count hs))

theorem Keeps.notifyCheck (hs : Keeps s₀ s) {n i : Nat} : Keeps s₀ (s.notifyCheck n i) :=
  .ite (.ite (.count (.wf hs)) (.msix (.wf hs))) hs

theorem Keeps.ctrSet (hs : Keeps s₀ s) {c : Nat} {v : Word} : Keeps s₀ (s.ctrSet c v) :=
  .foldl (fun _ _ hu => .ite (.notifyCheck hu) hu) (.wr hs)

theorem Keeps.ctrBump (hs : Keeps s₀ s) {c : Nat} : Keeps s₀ (s.ctrBump c) := .ctrSet hs

theorem Keeps.ctrBumpOpt (hs : Keeps s₀ s) {n : Nat} {c : Option Nat} : Keeps s₀ (s.ctrBumpOpt n c) := by
  unfold State.ctrBumpOpt
  split
  · exact .ctrBump hs
  · exact hs

/-! #### Sys2Proof/Machine/Access.lean -/

theorem Keeps.gated {via : Via} {n : Nat} {k : State → State} (hk : ∀ u, Keeps s₀ u → Keeps s₀ (k u))
    (hs : Keeps s₀ s) : Keeps s₀ (s.gated via n k) := by
  unfold State.gated
  split
  · exact .ite (hk s hs) hs
  · exact .ite (hk s hs) hs
  · exact .ite (.count hs) (.ite (.urRefuse hs) (.ite (hk s hs) hs))
  iterate 4 exact hs

/-! #### Sys2Proof/Machine/Block.lean -/

theorem Keeps.writeMarkedN (hs : Keeps s₀ s) {f a : Nat} {bs : List (Byte × Bool)} :
    Keeps s₀ (s.writeMarkedN f a bs) := by
  induction f generalizing s a bs with
  | zero => cases bs <;> exact hs
  | succ f ih =>
    cases bs with
    | nil => exact hs
    | cons b bs => exact ih (.write hs)

theorem Keeps.writeMarked (hs : Keeps s₀ s) {a : Nat} {bs : List (Byte × Bool)} : Keeps s₀ (s.writeMarked a bs) :=
  .ite (.writeMarkedN hs) (.writeB hs)

/-! #### Sys2Proof/Machine/Carder.lean -/

theorem Keeps.setFeedState (hs : Keeps s₀ s) {n f x : Nat} : Keeps s₀ (s.setFeedState n f x) := .wf hs

theorem Keeps.setFeed (hs : Keeps s₀ s) {x : Feed} : Keeps s₀ (s.setFeed x) := .frame hs

theorem Keeps.dropItems (hs : Keeps s₀ s) {n f : Nat} : Keeps s₀ (s.dropItems n f) := .frame hs

theorem Keeps.mapItem (hs : Keeps s₀ s) {i : FeedItem} {g : FeedItem → FeedItem} : Keeps s₀ (s.mapItem i g) :=
  .frame hs

theorem Keeps.feedLog (hs : Keeps s₀ s) {bs : List Byte} : Keeps s₀ (s.feedLog bs) := .wr (.writeB hs)

theorem Keeps.feedHalt (hs : Keeps s₀ s) {n f st ev : Nat} : Keeps s₀ (s.feedHalt n f st ev) :=
  .share (fun h₁ => .ite (.reportStatus h₁) h₁) (.wf (.wf (.event (.dropItems (.setFeedState hs)))))

theorem Keeps.feedDepotLost (hs : Keeps s₀ s) {conn : Nat} : Keeps s₀ (s.feedDepotLost conn) :=
  .foldl (fun _ _ hu => .ite (.feedHalt hu) hu) hs

theorem Keeps.queueStitch (hs : Keeps s₀ s) {x : Feed} {die k t : Nat} : Keeps s₀ (s.queueStitch x die k t) :=
  .frame hs

theorem Keeps.readStep (hs : Keeps s₀ s) {x : Feed} {k : Nat} : Keeps s₀ (s.readStep x k) :=
  .setFeed (.foldl (fun _ _ hu => .foldl (fun _ _ hu' => .queueStitch hu') hu) hs)

theorem Keeps.readSteps (hs : Keeps s₀ s) {n f k j : Nat} : Keeps s₀ (s.readSteps n f k j) := by
  induction j generalizing s with
  | zero => exact hs
  | succ j ih =>
    unfold State.readSteps
    split
    · exact hs
    · exact .ite (ih (.readStep hs)) hs

theorem Keeps.feedStep (hs : Keeps s₀ s) {n c : Nat} : Keeps s₀ (s.feedStep n c) :=
  .foldl (fun _ _ hu => .ite hu (.readSteps (.ite (.count (.event hu)) hu))) hs

theorem Keeps.feedStat (hs : Keeps s₀ s) {n f st : Nat} : Keeps s₀ (s.feedStat n f st) := .wf (.wf hs)

theorem Keeps.feedOpen (hs : Keeps s₀ s) {n f : Nat} : Keeps s₀ (s.feedOpen n f) :=
  .ite
    (.feedStat hs)
    (.ite (.readSteps (.feedStat (.setFeedState (.frame hs)))) (.feedStat (.setFeedState (.frame hs))))

theorem Keeps.feedShut (hs : Keeps s₀ s) {n f : Nat} : Keeps s₀ (s.feedShut n f) :=
  .setFeedState (.frame (.dropItems hs))

theorem Keeps.feedClose (hs : Keeps s₀ s) {n f : Nat} : Keeps s₀ (s.feedClose n f) :=
  .ite (.feedStat (.feedShut hs)) (.feedStat hs)

theorem Keeps.feedsClose (hs : Keeps s₀ s) {n : Nat} : Keeps s₀ (s.feedsClose n) :=
  .foldl (fun _ _ hu => .ite hu (.feedShut hu)) hs

theorem Keeps.feedRetarget (hs : Keeps s₀ s) {n f : Nat} : Keeps s₀ (s.feedRetarget n f) := by
  unfold State.feedRetarget
  split
  · exact .feedStat hs
  · exact .ite
        (.feedStat hs)
        (.ite (.feedStat hs) (.ite (.feedStat hs) (.ite (.feedStat hs) (.readSteps (.feedStat (.setFeed hs))))))

theorem Keeps.feedsStop (hs : Keeps s₀ s) {n : Nat} : Keeps s₀ (s.feedsStop n) :=
  .foldl (fun _ _ hu => .dropItems (.setFeed hu)) hs

theorem Keeps.feedCmdWrite (hs : Keeps s₀ s) {n : Nat} {v : Word} : Keeps s₀ (s.feedCmdWrite n v) :=
  .ite
    (.wr hs)
    (by split; exacts [.feedOpen (.wr hs), .feedClose (.wr hs), .feedRetarget (.wr hs), .feedStat (.wr hs)])

theorem Keeps.decodeTrain (hs : Keeps s₀ s) {x : Feed} {i : FeedItem} {fetched : List (List Byte)} :
    Keeps s₀ (s.decodeTrain x i fetched) := by
  unfold State.decodeTrain
  dsimp only
  split
  · exact .count (.mapItem hs)
  · split
    · exact .count (.mapItem (.feedLog (.event (.count hs))))
    · split
      · exact .count (.mapItem (.count (.feedLog (.event (.count hs)))))
      · exact .count (.mapItem (.feedLog (.event (.count hs))))
    · exact .feedHalt (.event (.count hs))

theorem Keeps.decodeServe (hs : Keeps s₀ s) {x : Feed} {i : FeedItem} : Keeps s₀ (s.decodeServe x i) := by
  unfold State.decodeServe
  split
  · exact hs
  · exact .ite
        (.feedHalt hs)
        (by
          dsimp only
          split
          · exact .count (.mapItem hs)
          · exact .count (.mapItem (.setFeed (.ite (.feedLog (.event (.count hs))) (.event (.count hs))))))

theorem Keeps.startDecode (hs : Keeps s₀ s) {k : Nat} : Keeps s₀ (s.startDecode k) := by
  unfold State.startDecode
  dsimp only
  split
  · exact .mapItem hs
  · exact hs

theorem Keeps.endDecode (hs : Keeps s₀ s) {k p : Nat} {fetched : List (List Byte)} :
    Keeps s₀ (s.endDecode k p fetched) := by
  unfold State.endDecode
  split
  · exact hs
  · split
    · exact hs
    · exact .ite (.decodeTrain hs) (.decodeServe hs)

theorem Keeps.rowTrigger (hs : Keeps s₀ s) {l : Nat} : Keeps s₀ (s.rowTrigger l) := .ctrBump hs

theorem Keeps.writeItem (hs : Keeps s₀ s) {l : Nat} : Keeps s₀ (s.writeItem l) := by
  unfold State.writeItem
  split
  · exact hs
  · split
    · exact hs
    · exact .ite hs (.rowTrigger (.frame (.mapItem (.writeMarked (.writeB (.useFree hs))))))

theorem Keeps.packItem (hs : Keeps s₀ s) {n f l slot : Nat} : Keeps s₀ (s.packItem n f l slot) := by
  unfold State.packItem
  split
  · exact hs
  · dsimp only
    split
    · exact hs
    · exact .ite (.mapItem hs) (.frame hs)

theorem Keeps.epWrite (hs : Keeps s₀ s) {ep off : Nat} {bs : List (Byte × Bool)} :
    Keeps s₀ (s.epWrite ep off bs) := .ite (.writeMarked hs) (.emit hs)

theorem Keeps.writeStep (hs : Keeps s₀ s) {n f ep k : Nat} : Keeps s₀ (s.writeStep n f ep k) := by
  unfold State.writeStep
  split
  · exact hs
  · split
    · exact hs
    · exact .ite hs (.setFeed (.frame (.foldl (fun _ _ hu => .epWrite hu) hs)))

theorem Keeps.deliverStep (hs : Keeps s₀ s) {n f ep k : Nat} : Keeps s₀ (s.deliverStep n f ep k) := by
  unfold State.deliverStep
  split
  · exact hs
  · exact .share (fun h₁ => .ite hs (.ite (.ctrBumpOpt h₁) h₁)) (.ite (.setFeed hs) (.emit (.setFeed hs)))

theorem Keeps.releaseStep (hs : Keeps s₀ s) {ep id k : Nat} : Keeps s₀ (s.releaseStep ep id k) :=
  .foldl (fun _ _ hu => .ite (.setFeed hu) hu) hs

theorem Keeps.rtpPacket (hs : Keeps s₀ s) {stream : Nat} {p : List Byte} {stamp : Nat} :
    Keeps s₀ (s.rtpPacket stream p stamp) := by
  unfold State.rtpPacket
  split
  · exact hs
  · dsimp only
    split
    · exact .count hs
    · exact .ite hs (.frame hs)

theorem Keeps.ageFrame (hs : Keeps s₀ s) {stream ts : Nat} : Keeps s₀ (s.ageFrame stream ts) := by
  unfold State.ageFrame
  split
  · exact hs
  · exact .ite (.count (.frame hs)) hs

theorem Keeps.serveItem (hs : Keeps s₀ s) {n f row seq : Nat} {e : StreamEntry} {c : Choice} :
    Keeps s₀ (s.serveItem n f row seq e c) := by
  unfold State.serveItem
  split
  · exact hs
  · exact .share (fun h₁ => .ite h₁ (.frame (.count h₁))) (.countN (.ite (.setFeed hs) (.feedLog (.setFeed hs))))

theorem Keeps.closeServe (hs : Keeps s₀ s) {x : Feed} {prev : Option Nat} {bn seq : Nat} :
    Keeps s₀ (s.closeServe x prev bn seq) := .frame (.foldl (fun _ _ hu => .serveItem hu) hs)

theorem Keeps.replayOne (hs : Keeps s₀ s) {n f seq pos : Nat} : Keeps s₀ (s.replayOne n f seq pos) := by
  unfold State.replayOne
  split
  · exact hs
  · dsimp only
    split
    · exact .setFeed hs
    · exact .ite (.serveItem (.setFeed hs)) (.ite (.feedLog (.setFeed hs)) (.serveItem (.setFeed hs)))

theorem Keeps.feedBeat (hs : Keeps s₀ s) {prev : Option Nat} {bn seq : Nat} : Keeps s₀ (s.feedBeat prev bn seq) :=
  .foldl (fun _ _ hu => .ite hu (.ite (.closeServe hu) (.foldl (fun _ _ hu' => .replayOne hu') hu))) hs

/-! #### Sys2Proof/Machine/Needle.lean -/

theorem Keeps.nStore (hs : Keeps s₀ s) {n : Needle} {a : NAddr} {bs : List Byte} {pz : Bool} :
    Keeps s₀ (nStore s n a bs pz).1 := by
  unfold Machine.nStore
  split
  · exact hs
  · exact .write hs
  · exact hs

theorem Keeps.nStoreWords (hs : Keeps s₀ s) {n : Needle} {a : NAddr} {ws : List (Nat × Bool)} :
    Keeps s₀ (nStoreWords s n a ws).1 := by
  induction ws generalizing s n a with
  | nil => exact hs
  | cons w ws ih => exact ih (.nStore hs)

theorem Keeps.seedUsed (hs : Keeps s₀ s) {k : Nat} : Keeps s₀ (s.seedUsed k) := .ite hs (.useFree hs)

theorem Keeps.needleTrap (hs : Keeps s₀ s) {l i : Nat} {n : Needle} {cause addr iter : Nat} {pair completing : Bool} {resume at_ : Nat} :
    Keeps s₀ (s.needleTrap l i n cause addr iter pair completing resume at_) :=
  .ite (.setNeedle hs) (.rowTrapped (.setNeedle hs))

/-! #### Sys2Proof/Machine/Opt.lean -/

theorem Keeps.optStat (hs : Keeps s₀ s) {n st entry : Nat} : Keeps s₀ (s.optStat n st entry) := .wf (.wf hs)

theorem Keeps.optWrite (hs : Keeps s₀ s) {w : OptWait} {d i l : Nat} : Keeps s₀ (s.optWrite w d i l) :=
  .ctrBump (.count (.frame (.writeB hs)))

theorem Keeps.optTry (hs : Keeps s₀ s) {w : OptWait} : Keeps s₀ (s.optTry w).1 := by
  unfold State.optTry
  split
  · exact hs
  · dsimp only
    split
    · dsimp only
      exact .optWrite hs
    · exact hs

theorem Keeps.optHand (hs : Keeps s₀ s) {w : OptWait} : Keeps s₀ (s.optHand w) :=
  .ite (.ite_fst hs (.optTry hs)) (.count (.frame hs))

theorem Keeps.optFinalised (hs : Keeps s₀ s) {n coll step b j len : Nat} {pe : Option Nat} {all : Bool} :
    Keeps s₀ (s.optFinalised n coll step b j len pe all) := by
  unfold State.optFinalised
  split
  · exact hs
  · exact .ite (.ite hs (.ite (.countN hs) (.optHand hs))) (.ite (.count hs) (.optHand hs))

theorem Keeps.copyMarked (hs : Keeps s₀ s) {dst src k : Nat} : Keeps s₀ (s.copyMarked dst src k) := .writeMarked hs

theorem Keeps.optCast (hs : Keeps s₀ s) {n : Nat} {e : OptEntry} {step b j len : Nat} :
    Keeps s₀ (s.optCast n e step b j len) := .count (.ite (.seedUsed (.writeMarked hs)) (.writeMarked hs))

theorem Keeps.optSeal (hs : Keeps s₀ s) {n : Nat} {e : OptEntry} {step b j len : Nat} :
    Keeps s₀ (s.optSeal n e step b j len) := .count (.optCast (.writeLe hs))

theorem Keeps.optCommit (hs : Keeps s₀ s) {x : OptItem} : Keeps s₀ (s.optCommit x) :=
  .share
    (fun h₁ =>
      .ite
        (.foldl (fun _ _ hu => .optSeal hu) (.ite h₁ (.copyMarked h₁)))
        (by
          split
          · exact .frame hs
          · exact .share
                (fun h₂ => .optSeal (.ite h₂ (.copyMarked h₂)))
                (.ite (.copyMarked (.frame hs)) (.copyMarked (.copyMarked (.frame hs))))))
    (.ite (.copyMarked (.frame hs)) (.copyMarked (.copyMarked (.frame hs))))

theorem Keeps.optOff (hs : Keeps s₀ s) {n : Nat} : Keeps s₀ (s.optOff n) := .wf (.wf (.frame hs))

theorem Keeps.optBoundary (hs : Keeps s₀ s) {n : Nat} : Keeps s₀ (s.optBoundary n) :=
  .ite (.foldl (fun _ _ hu => .writeLe (.writeLe hu)) hs) hs

/-! #### Sys2Proof/Machine/TwistSlot.lean -/

theorem Keeps.setColl (hs : Keeps s₀ s) {c : Coll} : Keeps s₀ (s.setColl c) := .frame hs

theorem Keeps.twsEvent (hs : Keeps s₀ s) {i : Nat} : Keeps s₀ (s.twsEvent i) := .event hs

theorem Keeps.slotFlag (hs : Keeps s₀ s) {a i : Nat} {b : Bool} : Keeps s₀ (s.slotFlag a i b) := .writeLe hs

theorem Keeps.setOpen (hs : Keeps s₀ s) {a i lo cnt mask : Nat} : Keeps s₀ (s.setOpen a i lo cnt mask) := .writeB hs

theorem Keeps.setBitmap (hs : Keeps s₀ s) {d : CollDesc} {a x : Nat} : Keeps s₀ (s.setBitmap d a x) := .writeLe hs

theorem Keeps.setDone (hs : Keeps s₀ s) {d : CollDesc} {u : Nat} {on : Bool} {round : Nat} :
    Keeps s₀ (s.setDone d u on round) := .writeLe hs

theorem Keeps.takeSlot (hs : Keeps s₀ s) {d : CollDesc} {u round gauge : Nat} {miss : Bool} :
    Keeps s₀ (s.takeSlot d u round gauge miss) := .writeB hs

theorem Keeps.ensureSlot (hs : Keeps s₀ s) {d : CollDesc} {u : Nat} : Keeps s₀ (s.ensureSlot d u) :=
  .ite hs (.takeSlot hs)

theorem Keeps.freeSlot (hs : Keeps s₀ s) {d : CollDesc} {u : Nat} : Keeps s₀ (s.freeSlot d u) := .slotFlag hs

theorem Keeps.setSlotElems (hs : Keeps s₀ s) {d : CollDesc} {a i : Nat} {els : List (List Nat)} :
    Keeps s₀ (s.setSlotElems d a i els) := .writeB hs

theorem Keeps.slotHeader (hs : Keeps s₀ s) {a obs flags : Nat} : Keeps s₀ (s.slotHeader a obs flags) :=
  .writeLe (.writeLe hs)

theorem Keeps.poisonSlot (hs : Keeps s₀ s) {d : CollDesc} {u : Nat} : Keeps s₀ (s.poisonSlot d u) :=
  .ite (.slotHeader (.setSlotElems hs)) hs

theorem Keeps.addElems (hs : Keeps s₀ s) {d : CollDesc} {a i : Nat} {els : List (List Nat)} :
    Keeps s₀ (s.addElems d a i els).s :=
  .ite_add (.countN (.slotHeader (.setSlotElems hs))) (.eventN (.countN (.countN (.slotHeader (.setSlotElems hs)))))

theorem Keeps.addTerms (hs : Keeps s₀ s) {d : CollDesc} {r : TwistRec} : Keeps s₀ (s.addTerms d r).s :=
  .ite_add
    (.twsEvent (.poisonSlot (.slotHeader (.writeLe hs))))
    (.ite_add
      (.slotHeader (.slotFlag (.slotHeader (.writeLe hs))))
      (.ite_add (.poisonSlot (.slotHeader (.writeLe hs))) (.addElems (.slotHeader (.writeLe hs)))))

theorem Keeps.addGauges (hs : Keeps s₀ s) {d : CollDesc} {u : Nat} {bs : List Byte} :
    Keeps s₀ (s.addGauges d u bs) := .writeB hs

/-! #### Sys2Proof/Machine/Twist.lean -/

theorem Keeps.keep (hs : Keeps s₀ s) {slice part : Nat} {r : TwistRec} : Keeps s₀ (s.keep slice part r) := .frame hs

theorem Keeps.sendTo (hs : Keeps s₀ s) {c : Coll} {m : Nat} {rs : List TwistRec} : Keeps s₀ (s.sendTo c m rs) :=
  .foldl (fun _ _ hu => .keep (.emit hu)) hs

theorem Keeps.sendGroup (hs : Keeps s₀ s) {c : Coll} {rs : List TwistRec} : Keeps s₀ (s.sendGroup c rs) :=
  .foldl (fun _ _ hu => .foldl (fun _ _ hu' => .keep hu') (.emit hu)) hs

theorem Keeps.noticeEps (hs : Keeps s₀ s) {c : Coll} {kind x y : Nat} : Keeps s₀ (s.noticeEps c kind x y) :=
  .foldl (fun _ _ hu => .emit hu) hs

theorem Keeps.twsErr (hs : Keeps s₀ s) {n st idx : Nat} : Keeps s₀ (s.twsErr n st idx) := .ite hs (.wr hs)

theorem Keeps.cqWrite (hs : Keeps s₀ s) {h : HeldRec} : Keeps s₀ (s.cqWrite h) := .twsErr (.wf (.writeB hs))

theorem Keeps.retireColl (hs : Keeps s₀ s) {k st : Nat} : Keeps s₀ (s.retireColl k st) := by
  unfold State.retireColl
  split
  · exact hs
  · exact .ctrBumpOpt (.frame hs)

theorem Keeps.complete (hs : Keeps s₀ s) {h : HeldRec} : Keeps s₀ (s.complete h) := by
  unfold State.complete
  dsimp only
  split
  · exact .retireColl (.cqWrite hs)
  · exact .cqWrite hs

theorem Keeps.completeOrHold (hs : Keeps s₀ s) {h : HeldRec} : Keeps s₀ (s.completeOrHold h) :=
  .ite (.frame hs) (.complete hs)

theorem Keeps.finishColl (hs : Keeps s₀ s) {c : Coll} {st : Nat} {abandon : Bool} :
    Keeps s₀ (s.finishColl c st abandon) :=
  .completeOrHold (.ite (.noticeEps (.setColl hs)) (.noticeEps (.setColl hs)))

theorem Keeps.failColl (hs : Keeps s₀ s) {serial st : Nat} : Keeps s₀ (s.failColl serial st) := by
  unfold State.failColl
  split
  · exact hs
  · exact .ite hs (.ite (.setColl hs) (.finishColl hs))

theorem Keeps.deliverResult (hs : Keeps s₀ s) {c : Coll} {r : TwistRec} : Keeps s₀ (s.deliverResult c r) :=
  .foldl (fun _ _ hu => .emit hu) (.ite hs (.writeMarked hs))

theorem Keeps.deliverGauges (hs : Keeps s₀ s) {c : Coll} {r : TwistRec} : Keeps s₀ (s.deliverGauges c r) :=
  .writeB hs

theorem Keeps.takeResult (hs : Keeps s₀ s) {c : Coll} {r : TwistRec} : Keeps s₀ (s.takeResult c r).1 :=
  .ite_fst hs (.setColl (.ite (.deliverGauges hs) (.deliverResult hs)))

theorem Keeps.sendResult (hs : Keeps s₀ s) {c : Coll} {rs : List TwistRec} : Keeps s₀ (s.sendResult c rs) :=
  .foldl (fun _ _ hu => by split; exacts [.takeResult hu, hu]) (.sendGroup hs)

theorem Keeps.takeNote (hs : Keeps s₀ s) {slice step : Nat} {d : CollDesc} {first : Nat} {bs : List Byte} :
    Keeps s₀ (s.takeNote slice step d first bs) := .frame (.writeB hs)

theorem Keeps.sendNote (hs : Keeps s₀ s) {c : Coll} {b : Nat} : Keeps s₀ (s.sendNote c b) :=
  .ite (.takeNote (.sendGroup hs)) hs

theorem Keeps.tallyBlock (hs : Keeps s₀ s) {c : Coll} {b code : Nat} {xs : List BElem} :
    Keeps s₀ (s.tallyBlock c b code xs) := .ite (.foldl (fun _ _ hu => .tallyAdd hu) hs) hs

theorem Keeps.finalise (hs : Keeps s₀ s) {c : Coll} {u : Nat} : Keeps s₀ (s.finalise c u) :=
  .share
    (fun h₁ =>
      .ite
        (by
          dsimp only
          split
          · exact .share
                (fun h₂ => .setColl (.sendGroup (.sendNote (.ite (.sendResult h₂) h₂))))
                (.share
                  (fun h₃ =>
                    .optFinalised (.count (.setColl (.freeSlot (.slotHeader (.setDone (.ite (.writeMarked h₃) h₃)))))))
                  (.tallyBlock (.ite (.seedUsed hs) hs)))
          · exact .share
                (fun h₂ => .sendGroup (.sendNote (.ite (.sendResult h₂) h₂)))
                (.share
                  (fun h₃ =>
                    .optFinalised (.count (.setColl (.freeSlot (.slotHeader (.setDone (.ite (.writeMarked h₃) h₃)))))))
                  (.tallyBlock (.ite (.seedUsed hs) hs))))
        (.sendNote (.ite (.sendResult h₁) h₁)))
    (.share
      (fun h₂ => .optFinalised (.count (.setColl (.freeSlot (.slotHeader (.setDone (.ite (.writeMarked h₂) h₂)))))))
      (.tallyBlock (.ite (.seedUsed hs) hs)))

theorem Keeps.forward (hs : Keeps s₀ s) {c : Coll} {u : Nat} : Keeps s₀ (s.forward c u) := .sendTo (.setDone hs)

theorem Keeps.applyRedo (hs : Keeps s₀ s) {c : Coll} {b g : Nat} : Keeps s₀ (s.applyRedo c b g) :=
  .setColl (.noticeEps (.ite (.setDone hs) (.takeSlot (.setDone hs))))

theorem Keeps.orderRedo (hs : Keeps s₀ s) {c : Coll} {b : Nat} : Keeps s₀ (s.orderRedo c b) :=
  .applyRedo (.sendGroup (.count (.setColl hs)))

theorem Keeps.takeRelease (hs : Keeps s₀ s) {c : Coll} {es : List TallyEntry} : Keeps s₀ (s.takeRelease c es) :=
  .share (fun h₁ => .setColl (.ite (.setJob h₁) h₁)) (.foldl (fun _ _ hu => .writeTally hu) hs)

theorem Keeps.sendRelease (hs : Keeps s₀ s) {c : Coll} : Keeps s₀ (s.sendRelease c) :=
  .takeRelease (.sendGroup (.freeSlot (.setDone hs)))

theorem Keeps.sendGauges (hs : Keeps s₀ s) {c : Coll} {u : Nat} : Keeps s₀ (s.sendGauges c u) :=
  .sendResult (.setColl (.freeSlot (.setDone hs)))

theorem Keeps.unitFull (hs : Keeps s₀ s) {c : Coll} {u : Nat} : Keeps s₀ (s.unitFull c u) :=
  .ite (.forward hs) (.ite (.sendRelease hs) (.ite (.sendGauges hs) (.ite (.orderRedo hs) (.finalise hs))))

theorem Keeps.conflict (hs : Keeps s₀ s) {c : Coll} {u : Nat} : Keeps s₀ (s.conflict c u) :=
  .failColl (.ite (.poisonSlot (.ensureSlot (.twsEvent (.count hs)))) (.twsEvent (.count hs)))

theorem Keeps.setPieces (hs : Keeps s₀ s) {c : Coll} {r : TwistRec} {a mask : Nat} :
    Keeps s₀ (s.setPieces c r a mask) := .ite (.setColl hs) (by split; exacts [.setOpen hs, hs])

theorem Keeps.combine (hs : Keeps s₀ s) {c : Coll} {r : TwistRec} {u : Nat} : Keeps s₀ (s.combine c r u).s :=
  .ite_add (.setColl hs) (.ite_add (.addGauges hs) (.addTerms hs))

theorem Keeps.spanIn (hs : Keeps s₀ s) {c : Coll} {r : TwistRec} {u : Nat} : Keeps s₀ (s.spanIn c r u) :=
  .ite (.unitFull (.writeLe (.setBitmap hs))) (.writeLe (.setBitmap hs))

theorem Keeps.acceptRecord (hs : Keeps s₀ s) {c : Coll} {r : TwistRec} {u : Nat} :
    Keeps s₀ (s.acceptRecord c r u) :=
  .share
    (fun h₁ =>
      .ite
        (.failColl (.combine (.count (.ensureSlot hs))))
        (.ite (.spanIn (.ite h₁ (.setPieces h₁))) (.setPieces h₁)))
    (.setColl (.combine (.count (.ensureSlot hs))))

theorem Keeps.takeRecord (hs : Keeps s₀ s) {c : Coll} {r : TwistRec} {u : Nat} {loc : Bool} :
    Keeps s₀ (s.takeRecord c r u loc).1 :=
  .ite_fst
    (.conflict hs)
    (.ite_fst
      (.ite_fst hs (.count hs))
      (.ite_fst
        hs
        (.ite_fst
          (.count hs)
          (.ite_fst hs (.ite_fst (.count hs) (.ite_fst (.conflict hs) (.ite_fst hs (.acceptRecord hs))))))))

theorem Keeps.addLocal (hs : Keeps s₀ s) {id : Nat} {e : Nat × Nat} : Keeps s₀ (s.addLocal id e).1 := by
  unfold State.addLocal
  split
  · exact hs
  · exact .ite_fst hs (.ite_fst hs (.takeRecord (.setColl hs)))

theorem Keeps.settle (hs : Keeps s₀ s) {id f : Nat} : Keeps s₀ (State.settle id f s) := by
  induction f generalizing s with
  | zero => exact hs
  | succ f ih =>
    unfold State.settle
    split
    · exact hs
    · exact .share (fun h₁ => .ite (ih h₁) h₁) (.foldl_fst (fun _ _ hu => .addLocal hu) hs)

theorem Keeps.settleLocal (hs : Keeps s₀ s) {id : Nat} : Keeps s₀ (s.settleLocal id) := .settle hs

theorem Keeps.sendOwned (hs : Keeps s₀ s) {c : Coll} {b : Nat} : Keeps s₀ (s.sendOwned c b) :=
  .sendResult (.tallyBlock hs)

theorem Keeps.sendReady (hs : Keeps s₀ s) {id : Nat} : Keeps s₀ (s.sendReady id) := by
  unfold State.sendReady
  split
  · exact hs
  · exact .foldl (fun _ _ hu => by split; exacts [.sendOwned hu, hu]) (.setColl hs)

theorem Keeps.clearRegion (hs : Keeps s₀ s) {d : CollDesc} : Keeps s₀ (s.clearRegion d) :=
  Keeps.update (.foldl (fun _ _ hu => .touchPage hu) hs) rfl id id (SMapWf_filter _ _ _) (SMapWf_filter _ _ _)

theorem Keeps.startColl (hs : Keeps s₀ s) {c : Coll} : Keeps s₀ (s.startColl c) :=
  .share
    (fun h₁ =>
      .ite
        (.sendReady (.setColl hs))
        (.ite
          (.spanIn (.setColl (.ensureSlot (.setColl (.ite (.writePartTallies h₁) h₁)))))
          (.settleLocal (.setColl h₁))))
    (.foldl (fun _ _ hu => .ite (.setDone hu) hu) (.clearRegion hs))

theorem Keeps.abandonColls (hs : Keeps s₀ s) {n : Nat} : Keeps s₀ (s.abandonColls n) :=
  .foldl (fun _ _ hu => .finishColl (.twsEvent (.count hu))) (.frame hs)

/-! #### Sys2Proof/Machine/OptCmd.lean -/

theorem Keeps.optCfgWrite (hs : Keeps s₀ s) {via : Via} {n a : Nat} {v : Word} :
    Keeps s₀ (s.optCfgWrite via n a v) := .ite (.reject hs) (.wr hs)

theorem Keeps.optEnable (hs : Keeps s₀ s) {n : Nat} : Keeps s₀ (s.optEnable n) :=
  .ite (.wf (.optStat hs)) (.optStat hs)

theorem Keeps.optDisable (hs : Keeps s₀ s) {n : Nat} : Keeps s₀ (s.optDisable n) :=
  .ite (.optStat hs) (.ite (.wf (.optStat (.frame hs))) (.optStat (.optOff hs)))

theorem Keeps.optCmdWrite (hs : Keeps s₀ s) {n : Nat} {v : Word} : Keeps s₀ (s.optCmdWrite n v) :=
  .ite (.wr hs) (by split; exacts [.optEnable (.wr hs), .optDisable (.wr hs), .optStat (.wr hs)])

theorem Keeps.optDispatch (hs : Keeps s₀ s) {n : Nat} : Keeps s₀ (s.optDispatch n) := by
  unfold State.optDispatch
  split
  · exact hs
  · exact .optTry (.frame hs)

theorem Keeps.optDone (hs : Keeps s₀ s) {l slot : Nat} : Keeps s₀ (s.optDone l slot) := by
  unfold State.optDone
  dsimp only
  split
  · exact .frame hs
  · exact .event (.count hs)

theorem Keeps.optCommitSlot (hs : Keeps s₀ s) {l slot : Nat} : Keeps s₀ (s.optCommitSlot l slot) := by
  unfold State.optCommitSlot
  split
  · exact hs
  · exact .ite (.optOff (.sendReady (.optCommit hs))) (.sendReady (.optCommit hs))

/-! #### Sys2Proof/Machine/TwistCmd.lean -/

theorem Keeps.twsReject (hs : Keeps s₀ s) {via : Via} {n a st : Nat} : Keeps s₀ (s.twsReject via n a st) :=
  .wf (.reject hs)

theorem Keeps.twsRingWrite (hs : Keeps s₀ s) {via : Via} {n a : Nat} {v : Word} :
    Keeps s₀ (s.twsRingWrite via n a v) := .ite (.twsReject hs) (.wr hs)

theorem Keeps.twsSizeWrite (hs : Keeps s₀ s) {via : Via} {n : Nat} {v : Word} :
    Keeps s₀ (s.twsSizeWrite via n v) := .ite (.twsReject hs) (.ite (.wr hs) (.ite (.wr hs) (.twsReject hs)))

theorem Keeps.twsTailWrite (hs : Keeps s₀ s) {via : Via} {n : Nat} {v : Word} :
    Keeps s₀ (s.twsTailWrite via n v) := .ite (.wr (.reject hs)) (.wr hs)

theorem Keeps.fetchDesc (hs : Keeps s₀ s) {n : Nat} : Keeps s₀ (s.fetchDesc n) :=
  .ite
    hs
    (.ite
      (.completeOrHold (.twsErr (.frame (.frame (.wf hs)))))
      (.ite (.frame (.frame (.wf hs))) (.failColl (.event (.frame (.frame (.wf hs)))))))

theorem Keeps.startWhen (hs : Keeps s₀ s) {coll : Nat} {ok : Coll → Bool} : Keeps s₀ (s.startWhen coll ok) := by
  unfold State.startWhen
  split
  · exact hs
  · exact .ite hs (.startColl hs)

theorem Keeps.answer (hs : Keeps s₀ s) {r : TwistRec} {code : Nat} : Keeps s₀ (s.answer r code) :=
  .ite (.count (.emit hs)) (.emit hs)

theorem Keeps.latePiece (hs : Keeps s₀ s) {r : TwistRec} {c : Coll} : Keeps s₀ (s.latePiece r c) :=
  .ite (.count (.takeNote hs)) (.count hs)

theorem Keeps.receive {r : TwistRec} {body : Coll → State × Bool} (hb : ∀ c, Keeps s₀ (body c).1)
    (hs : Keeps s₀ s) : Keeps s₀ (s.receive r body) := by
  refine .ite (.answer (.twsEvent (.count hs))) ?_
  split
  · refine .ite (.answer hs) (.ite (.answer (.count hs)) ?_)
    split
    · exact .answer (.latePiece hs)
    · exact .answer hs
  · exact .ite (.answer (.count hs)) (.ite (.answer hs) (.ite (.answer hs) (.answer (hb _))))

theorem Keeps.reducing (hs : Keeps s₀ s) {r : TwistRec} {c : Coll} : Keeps s₀ (s.reducing r c).1 :=
  .ite_fst hs (.settleLocal (.takeRecord hs))

theorem Keeps.recvResult (hs : Keeps s₀ s) {r : TwistRec} {c : Coll} : Keeps s₀ (s.recvResult r c).1 :=
  .ite_fst hs (.count (.takeResult hs))

theorem Keeps.recvRedo (hs : Keeps s₀ s) {r : TwistRec} {c : Coll} : Keeps s₀ (s.recvRedo r c).1 :=
  .ite_fst
    hs
    (.ite_fst (.count hs) (.ite_fst (.ite_fst hs (.count (.setColl hs))) (.settleLocal (.count (.applyRedo hs)))))

theorem Keeps.recvFinal (hs : Keeps s₀ s) {r : TwistRec} {c : Coll} : Keeps s₀ (s.recvFinal r c).1 :=
  .ite_fst (.count (.setColl hs)) hs

theorem Keeps.recvNote (hs : Keeps s₀ s) {r : TwistRec} {c : Coll} : Keeps s₀ (s.recvNote r c).1 :=
  .ite_fst (.count (.takeNote hs)) hs

theorem Keeps.recvRelease (hs : Keeps s₀ s) {r : TwistRec} {c : Coll} : Keeps s₀ (s.recvRelease r c).1 := by
  unfold State.recvRelease
  extract_lets mask es mask' c' u₁
  have h₁ : Keeps s₀ u₁ := .count (.setColl hs)
  split
  · exact hs
  · split
    · exact .count hs
    · dsimp only
      exact .ite (.takeRelease h₁) h₁

theorem Keeps.receiveType {k : Nat} {r : TwistRec} {body : Coll → State × Bool} (hb : ∀ c, Keeps s₀ (body c).1)
    (hs : Keeps s₀ s) : Keeps s₀ (s.receiveType k r body) := .ite (.receive hb hs) hs

theorem Keeps.startPendingRedo (hs : Keeps s₀ s) {coll b : Nat} : Keeps s₀ (s.startPendingRedo coll b) := by
  unfold State.startPendingRedo
  split
  · exact hs
  · split
    · exact hs
    · exact .ite hs (.settleLocal (.applyRedo hs))

theorem Keeps.restartCounts (hs : Keeps s₀ s) {peer : Nat} : Keeps s₀ (s.restartCounts peer) := .frame hs

theorem Keeps.freeForwarded (hs : Keeps s₀ s) {key : AckKey} : Keeps s₀ (s.freeForwarded key) := by
  unfold State.freeForwarded
  split
  · exact hs
  · exact .ite (.settleLocal (.freeSlot hs)) hs

theorem Keeps.takeAck (hs : Keeps s₀ s) {peer : Nat} {key : AckKey} {code : Nat} :
    Keeps s₀ (s.takeAck peer key code) := .ite (.freeForwarded (.frame (.restartCounts hs))) (.restartCounts hs)

theorem Keeps.retxTimeout (hs : Keeps s₀ s) {peer : Nat} {key : AckKey} : Keeps s₀ (s.retxTimeout peer key) := by
  unfold State.retxTimeout
  split
  · exact hs
  · exact .ite
        (by
          dsimp only
          split
          · exact .ite (.failColl (.twsEvent (.frame hs))) (.twsEvent (.frame hs))
          · exact .twsEvent (.frame hs))
        (.count (.emit (.frame hs)))

theorem Keeps.blockAck (hs : Keeps s₀ s) {ep coll epoch block : Nat} : Keeps s₀ (s.blockAck ep coll epoch block) := by
  unfold State.blockAck
  split
  · exact hs
  · exact .ite (.setColl hs) hs

theorem Keeps.completeColl (hs : Keeps s₀ s) {coll : Nat} : Keeps s₀ (s.completeColl coll) := by
  unfold State.completeColl
  split
  · exact hs
  · exact .ite (.finishColl hs) hs

/-! #### Sys2Proof/Machine/Job.lean -/

theorem Keeps.ckpBoundary (hs : Keeps s₀ s) {n b : Nat} : Keeps s₀ (s.ckpBoundary n b) :=
  .share (fun h₁ => .ite hs (.ite (.setCkp h₁) (.captureNow h₁))) (.setCkp (.ite (.drainCopy hs) hs))

theorem Keeps.writeHistory (hs : Keeps s₀ s) {n k : Nat} : Keeps s₀ (s.writeHistory n k) :=
  .frame (.foldl (fun _ _ hu => .writeB hu) hs)

theorem Keeps.zeroDraws (hs : Keeps s₀ s) {n : Nat} : Keeps s₀ (s.zeroDraws n) :=
  .foldl (fun _ _ hu => .setRow hu) hs

theorem Keeps.advance (hs : Keeps s₀ s) {n : Nat} {atBoundary : Bool} : Keeps s₀ (s.advance n atBoundary) :=
  .fwBoundary (.feedStep (.ckpBoundary (.setJob (.zeroDraws (.optBoundary (.frame (.writeHistory (.setStep hs))))))))

theorem Keeps.stepDone (hs : Keeps s₀ s) {n : Nat} : Keeps s₀ (s.stepDone n) := .ite (.setJob hs) (.advance hs)

theorem Keeps.completeStepEnd (hs : Keeps s₀ s) {coll : Nat} : Keeps s₀ (s.completeStepEnd coll) := by
  unfold State.completeStepEnd
  split
  · exact hs
  · exact .ite hs (.ite (.stepDone (.finishColl hs)) (.finishColl hs))

theorem Keeps.flushHeld (hs : Keeps s₀ s) {n f : Nat} : Keeps s₀ (State.flushHeld n f s) := by
  induction f generalizing s with
  | zero => exact hs
  | succ f ih =>
    unfold State.flushHeld
    split
    · exact hs
    · exact .ite hs (ih (.share (fun h₁ => .ite (.stepDone h₁) h₁) (.complete (.frame hs))))

theorem Keeps.twsCqHeadWrite (hs : Keeps s₀ s) {n : Nat} {v : Word} : Keeps s₀ (s.twsCqHeadWrite n v) :=
  .flushHeld (.wr hs)

theorem Keeps.jobStat (hs : Keeps s₀ s) {n st : Nat} : Keeps s₀ (s.jobStat n st) := .wf hs

theorem Keeps.jobOpen (hs : Keeps s₀ s) {n : Nat} : Keeps s₀ (s.jobOpen n) :=
  .feedStep (.wf (.zeroDraws (.ite
    (.setCkp (.setStep (.setJob hs)))
    (.foldl (fun _ _ hu => .zeroRange hu) (.setCkp (.setStep (.setJob hs)))))))

theorem Keeps.jobClose (hs : Keeps s₀ s) {n : Nat} : Keeps s₀ (s.jobClose n) :=
  .wf (.setJob (.setCkp (.frame (.feedsClose (.abandonColls hs)))))

theorem Keeps.jobCmdWrite (hs : Keeps s₀ s) {n : Nat} {v : Word} : Keeps s₀ (s.jobCmdWrite n v) :=
  .ite
    (.wr hs)
    (by
      split
      · exact .jobStat (.ite (.jobOpen (.wr hs)) (.wr hs))
      · exact .ite (.jobStat (.wr hs)) (.ite (.jobStat (.jobClose (.wr hs))) (.jobStat (.wr hs)))
      · exact .jobStat (.wr hs))

theorem Keeps.setBeatState (hs : Keeps s₀ s) {x : Nat} : Keeps s₀ (s.setBeatState x) := .wr hs

theorem Keeps.beatEnable (hs : Keeps s₀ s) : Keeps s₀ s.beatEnable := .ite (.setBeatState (.frame hs)) hs

theorem Keeps.beatStep (hs : Keeps s₀ s) {n : Nat} : Keeps s₀ (s.beatStep n) :=
  .ite hs (.ite (.advance hs) (.ite (.event (.count hs)) hs))

theorem Keeps.boundary (hs : Keeps s₀ s) {t : Nat} : Keeps s₀ (s.boundary t) :=
  .feedBeat (.foldl (fun _ _ hu => .beatStep hu) (.frame (.wr64 (.wr (.reach hs)))))

theorem Keeps.beatLock (hs : Keeps s₀ s) {p : Nat} : Keeps s₀ (s.beatLock p) := .setBeatState (.frame hs)

theorem Keeps.beatSlip (hs : Keeps s₀ s) {flag : Nat} : Keeps s₀ (s.beatSlip flag) := .count (.event hs)

theorem Keeps.beatPulse (hs : Keeps s₀ s) {p : Nat} : Keeps s₀ (s.beatPulse p) :=
  .ite
    hs
    (by
      split
      · exact .beatLock (.boundary hs)
      · exact .ite (.beatSlip hs) (.ite (.beatLock (.boundary hs)) hs)
      · split
        · exact .ite hs (.ite (.event (.beatLock (.boundary hs))) (.event (.beatLock hs)))
        · exact hs
      · exact hs)

theorem Keeps.beatLate (hs : Keeps s₀ s) {t : Nat} : Keeps s₀ (s.beatLate t) :=
  .ite (.beatSlip (.setBeatState (.boundary hs))) hs

theorem Keeps.beatHoldover (hs : Keeps s₀ s) {t : Nat} : Keeps s₀ (s.beatHoldover t) := .ite (.boundary hs) hs

theorem Keeps.beatInternal (hs : Keeps s₀ s) {t : Nat} : Keeps s₀ (s.beatInternal t) := .ite (.boundary hs) hs

theorem Keeps.beatRise (hs : Keeps s₀ s) {t : Nat} : Keeps s₀ (s.beatRise t) := .ite (.emit (.frame (.reach hs))) hs

theorem Keeps.beatFall (hs : Keeps s₀ s) {t : Nat} : Keeps s₀ (s.beatFall t) := .ite (.emit (.frame (.reach hs))) hs

theorem Keeps.tallyExchange (hs : Keeps s₀ s) {n step : Nat} {other : List PeerTally} :
    Keeps s₀ (s.tallyExchange n step other) :=
  .ite hs (.ite (.ite (.setJob (.count (.event hs))) (.count (.event hs))) hs)

/-! #### Sys2Proof/Machine/Cast.lean -/

theorem Keeps.fusesRead (hs : Keeps s₀ s) : Keeps s₀ s.fusesRead :=
  .setTrust (.wr (.wr (.wr64 (.wf (.wf (.wr hs))))))

theorem Keeps.flashRead (hs : Keeps s₀ s) : Keeps s₀ s.flashRead := .wr (.wr hs)

theorem Keeps.portTrain (hs : Keeps s₀ s) {p : Nat} : Keeps s₀ (s.portTrain p) :=
  .ite (.wf (.wf (.wf (.wf (.useFree (.frame hs)))))) hs

/-- A cold reset starts from registers, counters, memory and tags that list nothing. -/
theorem Keeps.coldState (hs : Keeps s₀ s) : Keeps s₀ s.coldState := by
  unfold State.coldState
  extract_lets r u₁
  have h₁ : Keeps s₀ u₁ := hs.update rfl (fun _ => rfl) (fun _ => ⟨rfl, nofun⟩) (fun _ => rfl) (fun _ => rfl)
  exact .flashRead (.fusesRead h₁)

/-- A warm reset unlists registers and counters. -/
theorem Keeps.warmState (hs : Keeps s₀ s) : Keeps s₀ s.warmState := by
  unfold State.warmState
  extract_lets pwr r u₁ u₂ u₃
  have h₁ : Keeps s₀ u₁ := hs.update rfl (SMapWf_filter _ _ _) (fun h => h.filter _) id id
  exact .count (.wf (.flashRead (.wf (.wf (.setTrust h₁)))))

theorem Keeps.inPhase {k : Nat} {f : State → State} (hf : ∀ u, Keeps s₀ u → Keeps s₀ (f u))
    (hs : Keeps s₀ s) : Keeps s₀ (s.inPhase k f) := .ite (hf s hs) hs

theorem Keeps.toPhase (hs : Keeps s₀ s) {k : Nat} : Keeps s₀ (s.toPhase k) := .wr hs

theorem Keeps.castRefuse (hs : Keeps s₀ s) {st : Nat} : Keeps s₀ (s.castRefuse st) := .wf (.wf hs)

theorem Keeps.castFuses (hs : Keeps s₀ s) : Keeps s₀ s.castFuses :=
  .share
    (fun h₁ => .ite (.castRefuse h₁) (.toPhase (.setTrust (.drew (.setTrust h₁)))))
    (.flashRead (.setFlash (.ite hs (.fusesRead hs))))

theorem Keeps.fellBack (hs : Keeps s₀ s) {kind : Nat} : Keeps s₀ (s.fellBack kind) := .event (.wf (.wf hs))

theorem Keeps.bootKind (hs : Keeps s₀ s) {kind : Nat} {slots : List (Option SlotImage)} :
    Keeps s₀ (s.bootKind kind slots).1 := by
  unfold State.bootKind
  dsimp only
  split
  · exact .ite_fst (.runImage hs) (.ite_fst (.runImage (.fellBack hs)) hs)
  · exact .ite_fst (.runImage (.fellBack hs)) hs
  · exact hs

theorem Keeps.dirSettle (hs : Keeps s₀ s) {kind : Nat} : Keeps s₀ (s.dirSettle kind) :=
  .ite (.setStaged (.dirWrite hs)) hs

theorem Keeps.castVerify (hs : Keeps s₀ s) {bad : List Nat} {slots : List (Option SlotImage)} :
    Keeps s₀ (s.castVerify bad slots) := by
  unfold State.castVerify
  extract_lets f cur u₁ u₂
  have h₂ : Keeps s₀ (u₂.bootKind 1 slots).1 :=
    .bootKind (.foldl (fun _ _ hu => .dirSettle hu) (.flashRead (.setFlash hs)))
  refine .ite (.castRefuse hs) ?_
  split <;> rename_i hb <;> rw [hb] at h₂
  · exact .toPhase h₂
  · exact .castRefuse h₂

theorem Keeps.castMeasure (hs : Keeps s₀ s) {spindle pattern : List (Option SlotImage)} {p : Pattern} :
    Keeps s₀ (s.castMeasure spindle pattern p) := by
  unfold State.castMeasure
  split <;> rename_i hb <;> have h₁ := Keeps.bootKind (kind := 2) (slots := spindle) hs <;> rw [hb] at h₁
  · split <;> rename_i hb' <;> have h₂ := Keeps.bootKind (kind := 3) (slots := pattern) h₁ <;> rw [hb'] at h₂
    · exact .toPhase (.wf (.measureStaged (.measureAll (by split; exacts [.frame h₂, h₂]))))
    · exact .castRefuse h₂
  · exact .castRefuse h₁

theorem Keeps.aligned (hs : Keeps s₀ s) : Keeps s₀ s.aligned :=
  .toPhase (.portTrain (.portTrain (.foldl (fun _ _ hu => .emit hu) (.wr (.wr hs)))))

theorem Keeps.castAlign (hs : Keeps s₀ s) {other : Option SlotImage} {p : Pattern} :
    Keeps s₀ (s.castAlign other p) :=
  .ite
    (.aligned hs)
    (by
      split
      · exact .ite (.castRefuse hs) (.aligned (.measureStaged (.measureAll (.frame (.runImage (.fellBack hs))))))
      · exact .castRefuse hs)

theorem Keeps.enterAll (hs : Keeps s₀ s) {es : List LedgerEntry} : Keeps s₀ (s.enterAll es).1 :=
  .foldl_fst (fun _ _ hu => .ite_fst hu (.ite_fst (.ledgerAdd hu) hu)) hs

theorem Keeps.castTest (hs : Keeps s₀ s) {r : TestResults} : Keeps s₀ (s.castTest r) :=
  .ite (.toPhase (.enterAll (.wf hs))) (.castRefuse (.enterAll (.wf hs)))

theorem Keeps.mapPanel (hs : Keeps s₀ s) {d p : Nat} : Keeps s₀ (s.mapPanel d p) := by
  unfold State.mapPanel
  dsimp only
  exact .foldl (fun _ _ hu => .ite (.setRowState (.mapRow hu)) (.setRowState (.mapRow hu))) hs

theorem Keeps.castWipe (hs : Keeps s₀ s) : Keeps s₀ s.castWipe := by
  unfold State.castWipe
  extract_lets u₁
  have h₁ : Keeps s₀ u₁ := hs.update rfl id id (fun _ => rfl) (fun _ => rfl)
  exact .toPhase (.foldl (fun _ _ hu => .foldl (fun _ _ hu' => .mapPanel hu') hu) h₁)

theorem Keeps.applyPart (hs : Keeps s₀ s) : Keeps s₀ s.applyPart :=
  .wr (.wr (.wr (.wr (.wr64 (.wr64 (.wr (.wr64 (.foldl
    (fun _ _ hu => .wr hu)
    (.foldl (fun _ _ hu => .wf hu) (.foldl (fun _ _ hu => .setSliceState hu) (.wf (.wr hs))))))))))))

theorem Keeps.applyLinks (hs : Keeps s₀ s) : Keeps s₀ s.applyLinks :=
  .foldl (fun _ _ hu => .ite (.wf hu) hu) (.foldl (fun _ _ hu => .setLinkState (.wr hu)) hs)

theorem Keeps.applyEdge (hs : Keeps s₀ s) : Keeps s₀ s.applyEdge :=
  .wr (.wr (.wr (.frame (.foldl (fun _ _ hu => .wr hu) (.wr64 hs)))))

theorem Keeps.calibrate (hs : Keeps s₀ s) : Keeps s₀ s.calibrate :=
  .ite hs (.foldl (fun _ _ hu => .useFree (.wr hu)) hs)

theorem Keeps.castApply (hs : Keeps s₀ s) : Keeps s₀ s.castApply :=
  .toPhase (.setCast (.calibrate (.applyEdge (.applyLinks (.applyPart hs)))))

theorem Keeps.castTopology (hs : Keeps s₀ s) {t : Nat} : Keeps s₀ (s.castTopology t) :=
  .share (fun h₁ => .ite (.ite (.toPhase h₁) (.castRefuse h₁)) hs) (.foldl (fun _ _ hu => .topoMark hu) (.reach hs))

theorem Keeps.castReady (hs : Keeps s₀ s) : Keeps s₀ s.castReady :=
  .evidenceSync (.beatEnable (.frame (.foldl (fun _ _ hu => .svnBurn hu) (.wf (.wr hs)))))

/-! #### Sys2Proof/Machine/Host.lean -/

theorem Keeps.poisonSent (hs : Keeps s₀ s) {port k : Nat} : Keeps s₀ (s.poisonSent port k) :=
  .ite hs (.event (.countN hs))

theorem Keeps.dmaWrite (hs : Keeps s₀ s) {port fn n a : Nat} {bs : List (Byte × Bool)} :
    Keeps s₀ (s.dmaWrite port fn n a bs) := .poisonSent (.emit hs)

theorem Keeps.tlpWrite (hs : Keeps s₀ s) {port a : Nat} {bs : List Byte} {ep : Bool} :
    Keeps s₀ (s.tlpWrite port a bs ep) := .write (.ite (.aerError (.event (.count hs))) hs)

theorem Keeps.tlpsWrite (hs : Keeps s₀ s) {port a len : Nat} {cs : List HostChunk} :
    Keeps s₀ (s.tlpsWrite port a len cs) := .foldl (fun _ _ hu => .tlpWrite hu) hs

theorem Keeps.barRefuse (hs : Keeps s₀ s) {port : Nat} {read : Bool} : Keeps s₀ (s.barRefuse port read) :=
  .ite (.emit (.urRefuse hs)) (.urRefuse hs)

theorem Keeps.bar2Access (hs : Keeps s₀ s) {port x k : Nat} {wr : Option (List Byte)} {ep : Bool} :
    Keeps s₀ (s.bar2Access port x k wr ep) :=
  .ite hs (.ite (.count hs) (.ite (.barRefuse hs) (by split; exacts [.tlpWrite hs, .poisonSent (.emit hs)])))

theorem Keeps.setCopyList (hs : Keeps s₀ s) {n k : Nat} {cs : List CopyReq} : Keeps s₀ (s.setCopyList n k cs) :=
  .frame hs

theorem Keeps.copyCfgWrite (hs : Keeps s₀ s) {via : Via} {n k : Nat} {v : Word} :
    Keeps s₀ (s.copyCfgWrite via n k v) := .ite (.reject hs) (.ite (.reject hs) (.ite hs (.wr hs)))

theorem Keeps.copyRingWrite (hs : Keeps s₀ s) {via : Via} {n k a low : Nat} {v : Word} :
    Keeps s₀ (s.copyRingWrite via n k a low v) := .ite (.reject hs) (.ite (.reject hs) (.wr hs))

theorem Keeps.copyTailWrite (hs : Keeps s₀ s) {via : Via} {n k : Nat} {v : Word} :
    Keeps s₀ (s.copyTailWrite via n k v) := .ite (.reject hs) (.wr hs)

theorem Keeps.copyCtr (hs : Keeps s₀ s) {n : Nat} {c : CopyReq} : Keeps s₀ (s.copyCtr n c) := .ctrBumpOpt hs

theorem Keeps.copyRecord (hs : Keeps s₀ s) {n k : Nat} : Keeps s₀ (s.copyRecord n k).1 := by
  unfold State.copyRecord
  split
  · exact hs
  · split
    · exact hs
    · exact .ite_fst hs (.copyCtr (.setCopyList (.wr (.dmaWrite (.dmaWrite hs)))))

theorem Keeps.copyFlush (hs : Keeps s₀ s) {n k f : Nat} : Keeps s₀ (State.copyFlush n k f s) := by
  induction f generalizing s with
  | zero => exact hs
  | succ f ih =>
    unfold State.copyFlush
    split <;> rename_i hc <;> have h₁ := Keeps.copyRecord (n := n) (k := k) hs <;> rw [hc] at h₁
    · exact ih h₁
    · exact h₁

theorem Keeps.copyRecords (hs : Keeps s₀ s) {n k : Nat} : Keeps s₀ (s.copyRecords n k) := .copyFlush hs

theorem Keeps.copyStart (hs : Keeps s₀ s) {n k : Nat} {d : List Byte} : Keeps s₀ (s.copyStart n k d) :=
  .ite hs (.copyRecords (.setCopyList (.wr hs)))

theorem Keeps.copyEnd (hs : Keeps s₀ s) {n k : Nat} {c : CopyReq} {st bytes : Nat} :
    Keeps s₀ (s.copyEnd n k c st bytes) := .setCopyList hs

theorem Keeps.copyIn (hs : Keeps s₀ s) {n k : Nat} {c : CopyReq} {data : List HostChunk} :
    Keeps s₀ (s.copyIn n k c data) := .copyEnd (.tlpsWrite hs)

theorem Keeps.copyOut (hs : Keeps s₀ s) {n k : Nat} {c : CopyReq} : Keeps s₀ (s.copyOut n k c) :=
  .copyEnd (.dmaWrite hs)

theorem Keeps.copyFinish (hs : Keeps s₀ s) {n k : Nat} {data : List HostChunk} :
    Keeps s₀ (s.copyFinish n k data) := by
  unfold State.copyFinish
  split
  · exact hs
  · exact .ite hs (.ite (.copyRecords (.copyOut hs)) (.ite (.copyRecords (.copyIn hs)) hs))

theorem Keeps.copyReadFail (hs : Keeps s₀ s) {n k : Nat} {data : List HostChunk} :
    Keeps s₀ (s.copyReadFail n k data) := by
  unfold State.copyReadFail
  split
  · exact hs
  · exact .ite hs (.copyRecords (.event (.copyEnd (.tlpsWrite hs))))

theorem Keeps.copiesDrop (hs : Keeps s₀ s) {port : Nat} {arrived : List CopyArrival} :
    Keeps s₀ (s.copiesDrop port arrived) :=
  .foldl
    (fun _ _ hu => .ite (.foldl (fun _ _ hu' => .copyCtr hu') (.setCopyList hu)) hu)
    (.foldl (fun _ _ hu => by split; exacts [.ite (.copyIn hu) hu, hu]) hs)

theorem Keeps.copyQueuesOff (hs : Keeps s₀ s) {port : Nat} {arrived : List CopyArrival} :
    Keeps s₀ (s.copyQueuesOff port arrived) := .foldl (fun _ _ hu => .ite (.wf (.wf hu)) hu) (.copiesDrop hs)

theorem Keeps.notifyWrite (hs : Keeps s₀ s) {via : Via} {n i : Nat} {v : Word} :
    Keeps s₀ (s.notifyWrite via n i v) := .ite (.reject hs) (.notifyCheck (.wr hs))

theorem Keeps.heartbeat (hs : Keeps s₀ s) {port : Nat} : Keeps s₀ (s.heartbeat port) :=
  .ite (.count hs) (.frame (.wf (.wf hs)))

theorem Keeps.heartbeatWrite (hs : Keeps s₀ s) {via : Via} {n : Nat} : Keeps s₀ (s.heartbeatWrite via n) := by
  unfold State.heartbeatWrite
  split
  · exact .ite (.heartbeat hs) hs
  · exact .ite (.count hs) (.ite (.urRefuse hs) (.ite (.heartbeat hs) hs))
  · exact hs

/-! #### Sys2Proof/Machine/Nvme.lean -/

theorem Keeps.setCtl (hs : Keeps s₀ s) {p : Nat} {c : NvmeCtl} : Keeps s₀ (s.setCtl p c) := .frame hs

theorem Keeps.setSpace (hs : Keeps s₀ s) {n j : Nat} {x : Namespace} : Keeps s₀ (s.setSpace n j x) := .frame hs

theorem Keeps.cqePut (hs : Keeps s₀ s) {p : Nat} {e : NvmeCqe} : Keeps s₀ (s.cqePut p e) := by
  unfold State.cqePut
  dsimp only
  split
  · exact hs
  · exact .ite (.msix (.emit (.setCtl hs))) (.emit (.setCtl hs))

theorem Keeps.cqeFlush (hs : Keeps s₀ s) {p : Nat} {es : List NvmeCqe} : Keeps s₀ (State.cqeFlush p es s) := by
  induction es generalizing s with
  | nil => exact hs
  | cons e es ih => exact .ite (ih (.cqePut hs)) (ih (.setCtl hs))

theorem Keeps.cqeRetry (hs : Keeps s₀ s) {p : Nat} : Keeps s₀ (s.cqeRetry p) := .cqeFlush (.setCtl hs)

theorem Keeps.nvmePost (hs : Keeps s₀ s) {p q cid st dw0 nsid : Nat} : Keeps s₀ (s.nvmePost p q cid st dw0 nsid) := by
  unfold State.nvmePost
  dsimp only
  split
  · exact hs
  · exact .cqeRetry (.count (.setCtl hs))

theorem Keeps.eventReport (hs : Keeps s₀ s) {p : Nat} : Keeps s₀ (s.eventReport p) := by
  unfold State.eventReport
  dsimp only
  split
  · exact .nvmePost (.setCtl hs)
  · exact hs

theorem Keeps.nvmeEvent (hs : Keeps s₀ s) {p type info log : Nat} : Keeps s₀ (s.nvmeEvent p type info log) :=
  .ite hs (.eventReport (.setCtl hs))

theorem Keeps.storageStatus (hs : Keeps s₀ s) {n j st : Nat} : Keeps s₀ (s.storageStatus n j st) :=
  .reportStatus (.event hs)

theorem Keeps.unitWant (hs : Keeps s₀ s) {n j u : Nat} : Keeps s₀ (s.unitWant n j u) := by
  unfold State.unitWant
  split
  · exact hs
  · exact .ite hs (.emit (.setSpace hs))

theorem Keeps.pieceDo (hs : Keeps s₀ s) {n j : Nat} {c : NvmeCmd} : Keeps s₀ (s.pieceDo n j c).1 := by
  unfold State.pieceDo
  split
  · exact .ite_fst
        (.ite_fst hs (.unitWant hs))
        (.ite_fst (.writeMarked (.setSpace hs)) (.ite_fst hs (.unitWant hs)))
  · exact hs

theorem Keeps.piecesDo (hs : Keeps s₀ s) {n j f : Nat} {c : NvmeCmd} : Keeps s₀ (State.piecesDo n j f s c).1 := by
  induction f generalizing s c with
  | zero => exact hs
  | succ f ih =>
    unfold State.piecesDo
    split <;> rename_i hc <;> have h₁ := Keeps.pieceDo (n := n) (j := j) (c := c) hs <;> rw [hc] at h₁
    · exact ih h₁
    · exact h₁

theorem Keeps.cmdEnd (hs : Keeps s₀ s) {n j : Nat} {c : NvmeCmd} : Keeps s₀ (s.cmdEnd n j c) :=
  .share (fun h₁ => .ite hs (.ite h₁ (.setCtl h₁))) (.nvmePost (.ite (.poisonSent (.emit hs)) hs))

theorem Keeps.cmdsGo (hs : Keeps s₀ s) {n j : Nat} {cs : List NvmeCmd} : Keeps s₀ (State.cmdsGo n j cs s) := by
  induction cs generalizing s with
  | nil => exact hs
  | cons c cs ih =>
    refine ih (.share (fun h₁ => .ite (.cmdEnd h₁) h₁) ?_)
    split
    · exact .setSpace (.piecesDo hs)
    · exact .piecesDo hs

theorem Keeps.detachCheck (hs : Keeps s₀ s) {n j : Nat} : Keeps s₀ (s.detachCheck n j) := by
  unfold State.detachCheck
  split
  · exact .ite (.ite (.storageStatus (.sliceCmdEnd (.wf (.frame hs)))) (.sliceCmdEnd (.wf (.frame hs)))) hs
  · exact hs

theorem Keeps.spacePass (hs : Keeps s₀ s) {n j : Nat} : Keeps s₀ (s.spacePass n j) := by
  unfold State.spacePass
  split
  · exact .cmdsGo (.setSpace hs)
  · exact hs

theorem Keeps.spaceGoN (hs : Keeps s₀ s) {n j f : Nat} : Keeps s₀ (State.spaceGoN n j f s) := by
  induction f generalizing s with
  | zero => exact .detachCheck hs
  | succ f ih => exact ih (.spacePass hs)

theorem Keeps.spaceGo (hs : Keeps s₀ s) {n j : Nat} : Keeps s₀ (s.spaceGo n j) := .spaceGoN hs

theorem Keeps.unitFetched (hs : Keeps s₀ s) {n j u : Nat} {data : List HostChunk} {ok : Bool} :
    Keeps s₀ (s.unitFetched n j u data ok) := by
  unfold State.unitFetched
  split
  · exact hs
  · exact .ite
        hs
        (.ite
          (.spaceGo (.storageStatus (.setSpace hs)))
          (.ite (.spaceGo (.setSpace (.count hs))) (.spaceGo (.writeMarked (.setSpace (.count hs))))))

theorem Keeps.unitDrain (hs : Keeps s₀ s) {n j : Nat} : Keeps s₀ (s.unitDrain n j) := by
  unfold State.unitDrain
  split
  · exact hs
  · split
    · exact .emit (.setSpace hs)
    · exact hs

theorem Keeps.unitDrained (hs : Keeps s₀ s) {n j k : Nat} {ok : Bool} : Keeps s₀ (s.unitDrained n j k ok) := by
  unfold State.unitDrained
  split
  · exact hs
  · exact .ite hs (.ite (.spaceGo (.count (.setSpace hs))) (.spaceGo (.storageStatus (.setSpace hs))))

theorem Keeps.nvmePop (hs : Keeps s₀ s) {p q : Nat} {e : NvmeEntry} (h : s.nvmePop p = some (u, q, e)) : Keeps s₀ u := by
  unfold State.nvmePop at h
  split at h
  · cases h
  · repeat' split at h
    iterate 3 cases h
    cases h
    exact .setCtl hs

theorem Keeps.nvmeSkip (hs : Keeps s₀ s) {p f : Nat} : Keeps s₀ (State.nvmeSkip p f s) := by
  induction f generalizing s with
  | zero => exact hs
  | succ f ih =>
    unfold State.nvmeSkip
    split
    · rename_i hp
      exact .share (fun h₁ => .ite (ih (.nvmePost h₁)) (.ite (ih (.nvmePost h₁)) hs)) (.nvmePop hs hp)
    · exact hs

theorem Keeps.adminTake {p opc : Nat} {k : State → NvmeEntry → State} (hk : ∀ u x, Keeps s₀ u → Keeps s₀ (k u x))
    (hs : Keeps s₀ s) : Keeps s₀ (s.adminTake p opc k) := by
  unfold State.adminTake
  split
  · rename_i hp
    exact .ite (.nvmeSkip (hk _ _ (.nvmePop hs hp))) hs
  · exact hs

theorem Keeps.ioTake {p opc : Nat} {k : State → Nat → NvmeEntry → State}
    (hk : ∀ u x y, Keeps s₀ u → Keeps s₀ (k u x y)) (hs : Keeps s₀ s) : Keeps s₀ (s.ioTake p opc k) := by
  unfold State.ioTake
  split
  · rename_i hp
    exact .ite (.nvmeSkip (hk _ _ _ (.nvmePop hs hp))) hs
  · exact hs

theorem Keeps.withSpace {p q : Nat} {e : NvmeEntry} {k : State → Nat → Nat → Namespace → State}
    (hk : ∀ u x y z, Keeps s₀ u → Keeps s₀ (k u x y z)) (hs : Keeps s₀ s) : Keeps s₀ (s.withSpace p q e k) := by
  refine .ite (.nvmePost hs) (.ite (.nvmePost hs) ?_)
  split
  · exact .ite (.nvmePost hs) (hk _ _ _ _ hs)
  · exact .nvmePost hs

theorem Keeps.cmdStart (hs : Keeps s₀ s) {n j : Nat} {c : NvmeCmd} : Keeps s₀ (s.cmdStart n j c) := by
  unfold State.cmdStart
  split
  · exact .spaceGo (.setSpace hs)
  · exact hs

theorem Keeps.rangeCmd (hs : Keeps s₀ s) {p q : Nat} {e : NvmeEntry} {write : Bool} {data : List (Byte × Bool)} :
    Keeps s₀ (s.rangeCmd p q e write data) :=
  .withSpace (fun _ _ _ _ hu => .ite (.nvmePost hu) (.ite (.nvmePost hu) (.ite (.nvmePost hu) (.cmdStart hu)))) hs

theorem Keeps.deallocate (hs : Keeps s₀ s) {p q : Nat} {e : NvmeEntry} {ranges : List (Nat × Nat)} :
    Keeps s₀ (s.deallocate p q e ranges) :=
  .withSpace (fun _ _ _ _ hu => .ite (.nvmePost hu) (.ite (.nvmePost hu) (.ite (.nvmePost hu) (.cmdStart hu)))) hs

theorem Keeps.flushCmd (hs : Keeps s₀ s) {p q : Nat} {e : NvmeEntry} : Keeps s₀ (s.flushCmd p q e) :=
  .withSpace (fun _ _ _ _ hu => .cmdStart hu) hs

theorem Keeps.writeCmd (hs : Keeps s₀ s) {p : Nat} {data : List HostChunk} : Keeps s₀ (s.writeCmd p data) := by
  unfold State.writeCmd
  split
  · exact hs
  · exact .ite hs (.ioTake (fun _ _ _ hu => .rangeCmd (.ite hu (.aerError (.event (.countN hu))))) hs)

theorem Keeps.testEnd (hs : Keeps s₀ s) {p result seg : Nat} : Keeps s₀ (s.testEnd p result seg) := by
  unfold State.testEnd
  dsimp only
  split
  · exact .setCtl hs
  · exact hs

theorem Keeps.cmdsQuiet (hs : Keeps s₀ s) {p : Nat} {gone : NvmeCmd → Bool} : Keeps s₀ (s.cmdsQuiet p gone) :=
  .frame hs

theorem Keeps.ctlReset (hs : Keeps s₀ s) {p : Nat} : Keeps s₀ (s.ctlReset p) := .setCtl (.cmdsQuiet (.testEnd hs))

theorem Keeps.ctlLost (hs : Keeps s₀ s) {p : Nat} : Keeps s₀ (s.ctlLost p) := .setCtl (.cmdsQuiet hs)

theorem Keeps.ccWrite (hs : Keeps s₀ s) {p v : Nat} : Keeps s₀ (s.ccWrite p v) :=
  .ite hs (.ite (.count hs) (.ite (.setCtl (.ctlReset hs)) (.ite (.setCtl hs) (.ite (.setCtl hs) (.setCtl hs)))))

theorem Keeps.sqDoorbell (hs : Keeps s₀ s) {p q tail : Nat} {entries : List NvmeEntry} :
    Keeps s₀ (s.sqDoorbell p q tail entries) :=
  .ite
    (.count hs)
    (.ite hs (by split; exacts [.nvmeEvent hs, .ite (.nvmeEvent hs) (.ite hs (.nvmeSkip (.setCtl hs)))]))

theorem Keeps.cqDoorbell (hs : Keeps s₀ s) {p q head : Nat} : Keeps s₀ (s.cqDoorbell p q head) :=
  .ite (.count hs) (.ite hs (by split; exacts [.nvmeEvent hs, .ite (.nvmeEvent hs) (.cqeRetry (.setCtl hs))]))

theorem Keeps.createCq (hs : Keeps s₀ s) {p : Nat} {e : NvmeEntry} : Keeps s₀ (s.createCq p e) :=
  .ite
    (.nvmePost hs)
    (.ite (.nvmePost hs) (.ite (.nvmePost hs) (.ite (.nvmePost hs) (.ite (.nvmePost hs) (.nvmePost (.setCtl hs))))))

theorem Keeps.createSq (hs : Keeps s₀ s) {p : Nat} {e : NvmeEntry} : Keeps s₀ (s.createSq p e) :=
  .ite
    (.nvmePost hs)
    (.ite
      (.nvmePost hs)
      (.ite
        (.nvmePost hs)
        (.ite (.nvmePost hs) (.ite (.nvmePost hs) (.ite (.nvmePost hs) (.nvmePost (.setCtl hs)))))))

theorem Keeps.deleteSq (hs : Keeps s₀ s) {p : Nat} {e : NvmeEntry} : Keeps s₀ (s.deleteSq p e) :=
  .ite (.nvmePost hs) (.nvmePost (.frame (.setCtl hs)))

theorem Keeps.deleteCq (hs : Keeps s₀ s) {p : Nat} {e : NvmeEntry} : Keeps s₀ (s.deleteCq p e) :=
  .ite (.nvmePost hs) (.ite (.nvmePost hs) (.nvmePost (.setCtl hs)))

/-! #### Sys2Proof/Machine/Rma.lean -/

theorem Keeps.setConn (hs : Keeps s₀ s) {cid : Nat} {c : RmaConn} : Keeps s₀ (s.setConn cid c) := .frame hs

theorem Keeps.setWq (hs : Keeps s₀ s) {w : Nat} {q : Option WorkQueue} : Keeps s₀ (s.setWq w q) := .frame hs

theorem Keeps.wqDone (hs : Keeps s₀ s) {w idx st bytes : Nat} : Keeps s₀ (s.wqDone w idx st bytes) := by
  unfold State.wqDone
  split
  · exact .setWq hs
  · exact hs

theorem Keeps.wqRecord (hs : Keeps s₀ s) {w : Nat} : Keeps s₀ (s.wqRecord w) := by
  unfold State.wqRecord
  split
  · exact hs
  · split
    · exact hs
    · split
      · exact hs
      · exact .ite
            hs
            (by dsimp only; split; exacts [.ctrBump (.setWq (.wr (.writeB hs))), .setWq (.wr (.writeB hs))])

theorem Keeps.wqFlush (hs : Keeps s₀ s) {w f : Nat} : Keeps s₀ (State.wqFlush w f s) := by
  induction f generalizing s with
  | zero => exact hs
  | succ f ih => exact ih (.wqRecord hs)

theorem Keeps.rmaFlush (hs : Keeps s₀ s) {cid st : Nat} : Keeps s₀ (s.rmaFlush cid st) :=
  .setConn (.foldl (fun _ _ hu => .wqDone hu) hs)

theorem Keeps.rmaError (hs : Keeps s₀ s) {cid st : Nat} {cause : Bool} : Keeps s₀ (s.rmaError cid st cause) :=
  .feedDepotLost (.event (.count (.setConn (.rmaFlush hs))))

theorem Keeps.rmaSend (hs : Keeps s₀ s) {cid : Nat} {p : List Byte} : Keeps s₀ (s.rmaSend cid p) :=
  .ite
    (.packetForward (.count hs))
    (.ite
      (.ethQueue (.count hs))
      (.ite (.rmaError hs) (by split; exacts [.rmaError hs, .ethQueue (.count (.setConn hs))])))

theorem Keeps.addEdge (hs : Keeps s₀ s) {o : EdgeOp} : Keeps s₀ (s.addEdge o) := .frame hs

theorem Keeps.edgePlace (hs : Keeps s₀ s) {e off : Nat} {data : List (Byte × Bool)} {w : EdgeWork} :
    Keeps s₀ (s.edgePlace e off data w) := .emit (.addEdge hs)

theorem Keeps.edgeFetch (hs : Keeps s₀ s) {e off len : Nat} {w : EdgeWork} : Keeps s₀ (s.edgeFetch e off len w) :=
  .emit (.addEdge hs)

theorem Keeps.rmaTimer (hs : Keeps s₀ s) {cid : Nat} : Keeps s₀ (s.rmaTimer cid) := .setConn hs

theorem Keeps.rmaResend (hs : Keeps s₀ s) {cid : Nat} {f : RmaFlight} : Keeps s₀ (s.rmaResend cid f) :=
  .rmaSend (.count (.setConn hs))

theorem Keeps.rmaNew (hs : Keeps s₀ s) {cid : Nat} {m : RmaMsg} {data : List (Byte × Bool)} :
    Keeps s₀ (s.rmaNew cid m data) := .ite (.rmaTimer (.rmaSend (.setConn hs))) (.rmaSend (.setConn hs))

theorem Keeps.rmaPumpOne (hs : Keeps s₀ s) {cid : Nat} : Keeps s₀ (s.rmaPumpOne cid).1 :=
  .ite_fst
    hs
    (by
      split
      · exact .rmaResend hs
      · exact .ite_fst
            hs
            (by
              split
              · exact hs
              · exact .ite_fst
                    (.rmaNew hs)
                    (.ite_fst (.rmaNew hs) (by split; exacts [.rmaNew hs, .ite_fst hs (.edgeFetch (.setConn hs))]))))

theorem Keeps.rmaPumpN (hs : Keeps s₀ s) {cid f : Nat} : Keeps s₀ (State.rmaPumpN cid f s) := by
  induction f generalizing s with
  | zero => exact hs
  | succ f ih =>
    unfold State.rmaPumpN
    split <;> rename_i hc <;> have h₁ := Keeps.rmaPumpOne (cid := cid) hs <;> rw [hc] at h₁
    · exact ih h₁
    · exact h₁

theorem Keeps.rmaPump (hs : Keeps s₀ s) {cid : Nat} : Keeps s₀ (s.rmaPump cid) := .rmaPumpN hs

theorem Keeps.rmaSettle (hs : Keeps s₀ s) {cid : Nat} : Keeps s₀ (s.rmaSettle cid) :=
  .setConn (.foldl (fun _ _ hu => .wqDone hu) hs)

theorem Keeps.rmaAcked (hs : Keeps s₀ s) {cid t a : Nat} : Keeps s₀ (s.rmaAcked cid t a) :=
  .ite hs (.rmaTimer (.rmaSettle (.setConn hs)))

theorem Keeps.rmaAck (hs : Keeps s₀ s) {cid : Nat} : Keeps s₀ (s.rmaAck cid) := .rmaSend (.setConn hs)

theorem Keeps.rmaNak (hs : Keeps s₀ s) {cid : Nat} {p : List Byte} {code psn st : Nat} :
    Keeps s₀ (s.rmaNak cid p code psn st) := .rmaSend (.count hs)

theorem Keeps.rmaRespond (hs : Keeps s₀ s) {cid psn off : Nat} {data : List (Byte × Bool)} :
    Keeps s₀ (s.rmaRespond cid psn off data) := .rmaSend hs

theorem Keeps.rmaServe (hs : Keeps s₀ s) {cid psn : Nat} {r : RmaRegion} {off len : Nat} :
    Keeps s₀ (s.rmaServe cid psn r off len) := .foldl (fun _ _ hu => .ite (.rmaRespond hu) (.edgeFetch hu)) hs

theorem Keeps.rmaRelease (hs : Keeps s₀ s) {cid : Nat} {h : RmaHeld} : Keeps s₀ (s.rmaRelease cid h) := by
  unfold State.rmaRelease
  dsimp only
  split
  · exact .ctrBump (by split; exacts [.rmaServe hs, hs])
  · split
    · exact .rmaServe hs
    · exact hs

theorem Keeps.rmaAdvance (hs : Keeps s₀ s) {cid f : Nat} : Keeps s₀ (State.rmaAdvance cid f s) := by
  induction f generalizing s with
  | zero => exact hs
  | succ f ih =>
    unfold State.rmaAdvance
    dsimp only
    split
    · exact hs
    · exact ih (.ite (.rmaAck (.rmaRelease (.setConn hs))) (.rmaRelease (.setConn hs)))

theorem Keeps.rmaPlace (hs : Keeps s₀ s) {cid : Nat} {p : List Byte} {h : RmaHeld} :
    Keeps s₀ (s.rmaPlace cid p h) := by
  unfold State.rmaPlace
  split
  · exact hs
  · exact .ite (.setConn (.writeMarked (.count hs))) (.edgePlace (.setConn (.count hs)))

theorem Keeps.rmaTake (hs : Keeps s₀ s) {cid : Nat} {p : List Byte} : Keeps s₀ (s.rmaTake cid p) :=
  .ite
    (.rmaAck (by split; exacts [.ite (.rmaServe (.count hs)) (.count hs), .count hs]))
    (.ite
      (.count hs)
      (.ite
        (.rmaNak (.event (.count hs)))
        (.ite
          (.count hs)
          (.ite (.rmaNak (.event (.rmaError hs))) (.rmaAdvance (.ite (.count (.setConn hs)) (.rmaPlace hs)))))))

theorem Keeps.rmaRequest (hs : Keeps s₀ s) {src : Option (List Byte)} {p : List Byte} :
    Keeps s₀ (s.rmaRequest src p) :=
  .ite
    (.count hs)
    (.ite
      (.rmaNak hs)
      (.ite
        (.rmaNak hs)
        (.ite
          (.count hs)
          (.ite (.rmaNak (.count hs)) (.ite (.rmaNak hs) (.ite (.rmaNak (.event hs)) (.rmaTake hs)))))))

theorem Keeps.rmaAckIn (hs : Keeps s₀ s) {t : Nat} {p : List Byte} : Keeps s₀ (s.rmaAckIn t p) :=
  .ite (.rmaPump (.rmaAcked (.reach hs))) (.count hs)

theorem Keeps.rmaNakIn (hs : Keeps s₀ s) {t : Nat} {p : List Byte} : Keeps s₀ (s.rmaNakIn t p) :=
  .ite
    (.count hs)
    (by
      dsimp only
      split
      · exact .rmaPump (.rmaTimer (.setConn (.rmaAcked (.reach hs))))
      · exact .rmaTimer (.setConn (.reach hs))
      · exact .rmaTimer (.setConn (.reach hs))
      iterate 3 exact .rmaError (.reach hs)
      · exact .reach hs)

theorem Keeps.respPlaced (hs : Keeps s₀ s) {cid w idx off len : Nat} : Keeps s₀ (s.respPlaced cid w idx off len) :=
  .rmaPump (.rmaSettle (.setConn hs))

theorem Keeps.respIn (hs : Keeps s₀ s) {p : List Byte} : Keeps s₀ (s.respIn p) :=
  .ite
    (.count hs)
    (by
      dsimp only
      split
      · exact .count hs
      · split
        · exact .count hs
        · exact .ite (.count hs) (.ite (.count hs) (.ite (.respPlaced (.writeMarked hs)) (.edgePlace hs))))

theorem Keeps.rmaExpire (hs : Keeps s₀ s) {cid t : Nat} : Keeps s₀ (s.rmaExpire cid t) :=
  .ite hs (.ite (.rmaError (.count (.reach hs))) (.rmaPump (.rmaTimer (.setConn (.count (.reach hs))))))

theorem Keeps.rmaWaitLimit (hs : Keeps s₀ s) {cid t : Nat} : Keeps s₀ (s.rmaWaitLimit cid t) := by
  unfold State.rmaWaitLimit
  split
  · exact .ite (.rmaError (.reach hs)) hs
  · exact hs

theorem Keeps.takeEdge (hs : Keeps s₀ s) {e tag : Nat} : Keeps s₀ (s.takeEdge e tag).1 := by
  unfold State.takeEdge
  split
  · exact .frame hs
  · exact hs

theorem Keeps.edgeWack (hs : Keeps s₀ s) {e tag st : Nat} : Keeps s₀ (s.edgeWack e tag st) := by
  unfold State.edgeWack
  split <;> rename_i he <;> have h₁ := Keeps.takeEdge (e := e) (tag := tag) hs <;> rw [he] at h₁
  · exact .ite h₁ (.ite (.rmaError h₁) (.rmaAdvance (.setConn h₁)))
  · exact .ite (.rmaError h₁) (.respPlaced h₁)
  · exact h₁

theorem Keeps.edgeRdata (hs : Keeps s₀ s) {e tag st : Nat} {bytes : List Byte} {poison : List Bool} :
    Keeps s₀ (s.edgeRdata e tag st bytes poison) := by
  unfold State.edgeRdata
  split <;> rename_i he <;> have h₁ := Keeps.takeEdge (e := e) (tag := tag) hs <;> rw [he] at h₁
  · exact .ite (.rmaError h₁) (.rmaPump (.setConn h₁))
  · exact .ite h₁ (.ite (.rmaError h₁) (.rmaRespond h₁))
  · exact h₁

/-! #### Sys2Proof/Machine/RmaCmd.lean -/

theorem Keeps.rmaOpen (hs : Keeps s₀ s) {n a : Nat} : Keeps s₀ (s.rmaOpen n a) :=
  .ite (.frame (.setConn hs)) (.setConn hs)

theorem Keeps.rmaClose (hs : Keeps s₀ s) {cid : Nat} : Keeps s₀ (s.rmaClose cid) :=
  .ite (.event (.setConn (.rmaFlush hs))) (.setConn (.rmaFlush hs))

theorem Keeps.regRegion (hs : Keeps s₀ s) {n a : Nat} : Keeps s₀ (s.regRegion n a) := .wr (.frame hs)

theorem Keeps.deregRegion (hs : Keeps s₀ s) {n key : Nat} : Keeps s₀ (s.deregRegion n key) := .wf (.frame hs)

theorem Keeps.retireKey (hs : Keeps s₀ s) {i : Nat} : Keeps s₀ (s.retireKey i) :=
  .ite (.event (.frame (.frame hs))) (.frame (.frame hs))

theorem Keeps.deregDone (hs : Keeps s₀ s) {n : Nat} : Keeps s₀ (s.deregDone n) := by
  unfold State.deregDone
  split
  · exact hs
  · exact .ite hs (.wf (.wf (.frame (.retireKey hs))))

theorem Keeps.zeroDoorbells (hs : Keeps s₀ s) {w : Nat} : Keeps s₀ (s.zeroDoorbells w) := .wr (.wr (.wr (.wr hs)))

theorem Keeps.createWq (hs : Keeps s₀ s) {n a : Nat} : Keeps s₀ (s.createWq n a) := .zeroDoorbells (.setWq hs)

theorem Keeps.rmaFence (hs : Keeps s₀ s) {n : Nat} : Keeps s₀ (s.rmaFence n) := .wf (.frame hs)

theorem Keeps.fenceDone (hs : Keeps s₀ s) {n t : Nat} : Keeps s₀ (s.fenceDone n t) := by
  unfold State.fenceDone
  split
  · exact hs
  · exact .ite hs (.wf (.frame (.foldl (fun _ _ hu => .setConn hu) (.reach hs))))

theorem Keeps.rmaCommand (hs : Keeps s₀ s) {n op : Nat} : Keeps s₀ (s.rmaCommand n op).2 := by
  unfold State.rmaCommand
  dsimp only
  split
  · exact .rmaOpen (n := n) hs
  · exact .rmaClose hs
  · exact .rmaClose hs
  · exact .regRegion (n := n) hs
  · exact .deregRegion hs
  · exact .frame hs
  · exact .createWq (n := n) hs
  · exact .zeroDoorbells (.setWq hs)
  · exact .rmaFence hs
  · exact .wr hs
  · exact hs

theorem Keeps.rmaCmdWrite (hs : Keeps s₀ s) {n : Nat} {v : Word} : Keeps s₀ (s.rmaCmdWrite n v) :=
  .ite (.wr hs) (.ite (.wf (.wr hs)) (.wf (.ite_snd (.wr hs) (.ite_snd (.wr hs) (.rmaCommand (.wr hs))))))

theorem Keeps.wqTailWrite (hs : Keeps s₀ s) {via : Via} {w : Nat} {v : Word} : Keeps s₀ (s.wqTailWrite via w v) :=
  .ite (.reject hs) (.wr hs)

theorem Keeps.wqCqHeadWrite (hs : Keeps s₀ s) {w : Nat} {v : Word} : Keeps s₀ (s.wqCqHeadWrite w v) :=
  .wqFlush (.wr hs)

theorem Keeps.wrStart (hs : Keeps s₀ s) {w : Nat} : Keeps s₀ (s.wrStart w) := by
  unfold State.wrStart
  split
  · exact hs
  · exact .ite hs (.ite hs (.ite (.wr (.setWq hs)) (.rmaPump (.setConn (.wr (.setWq hs))))))

theorem Keeps.shareGated {via : Via} {total i : Nat} {k : State → State} (hk : ∀ u, Keeps s₀ u → Keeps s₀ (k u))
    (hs : Keeps s₀ s) : Keeps s₀ (s.shareGated via total i k) := .ite (.gated hk hs) hs

theorem Keeps.hankModeWrite (hs : Keeps s₀ s) {via : Via} {d : Nat} {v : Word} :
    Keeps s₀ (s.hankModeWrite via d v) :=
  .ite
    hs
    (.ite
      (.reject hs)
      (.ite
        (.reject hs)
        (.ite (.reject hs) (.foldl (fun _ _ hu => .wf hu) (.foldl (fun _ _ hu => .wf (.zeroRange hu)) hs)))))

theorem Keeps.hankGated {via : Via} {d : Nat} {k : State → State} (hk : ∀ u, Keeps s₀ u → Keeps s₀ (k u))
    (hs : Keeps s₀ s) : Keeps s₀ (s.hankGated via d k) := by
  unfold State.hankGated
  split <;> exact .gated hk hs

/-! #### Sys2Proof/Machine/Ckp.lean -/

theorem Keeps.ckpRecord (hs : Keeps s₀ s) {n b : Nat} : Keeps s₀ (s.ckpRecord n b) := .ite hs (.setCkp hs)

theorem Keeps.ckpRequestAll (hs : Keeps s₀ s) {n b : Nat} : Keeps s₀ (s.ckpRequestAll n b) :=
  .foldl (fun _ _ hu => .foldl (fun _ _ hu' => .ite (.emit hu') hu') hu) (.ckpRecord hs)

theorem Keeps.failureWarning (hs : Keeps s₀ s) {n : Nat} : Keeps s₀ (s.failureWarning n) :=
  .ite hs (.event (.ckpRequestAll (.setCkp hs)))

theorem Keeps.ckpCheckpoint (hs : Keeps s₀ s) {n : Nat} : Keeps s₀ (s.ckpCheckpoint n) :=
  .ite (.ckpStat hs) (.ite (.ckpStat hs) (.ite (.ckpStat hs) (.ite (.ckpStat hs) (.ckpStat (.ckpRequestAll hs)))))

theorem Keeps.ckpRequestIn (hs : Keeps s₀ s) {n b : Nat} : Keeps s₀ (s.ckpRequestIn n b) :=
  .ite hs (.ite (.emit (.ckpRecord hs)) (.emit hs))

theorem Keeps.setPage (hs : Keeps s₀ s) {a : Nat} {m : SMap Byte} : Keeps s₀ (s.setPage a m) :=
  .foldl (fun _ _ hu => .writeB hu) (.zeroRange hs)

theorem Keeps.xorInto (hs : Keeps s₀ s) {a : Nat} {d : SMap Byte} : Keeps s₀ (s.xorInto a d) :=
  .foldl (fun _ _ hu => .writeB hu) hs

theorem Keeps.setImage (hs : Keeps s₀ s) {n : Nat} {i : Option HeldImage} : Keeps s₀ (s.setImage n i) := .setCkp hs

theorem Keeps.pageArrive (hs : Keeps s₀ s) {n : Nat} {p : PushedPage} : Keeps s₀ (s.pageArrive n p) :=
  .ite
    hs
    (.ite
      (.setImage hs)
      (.setPage (by
        split
        · exact .setImage (.countN (.writeB (.countN hs)))
        · exact .setImage (.ite (.countN hs) (.event (.countN hs))))))

theorem Keeps.undoStep (hs : Keeps s₀ s) {i : HeldImage} {step : Nat} : Keeps s₀ (s.undoStep i step) :=
  .foldl (fun _ _ hu => .xorInto hu) hs

theorem Keeps.pushDigests (hs : Keeps s₀ s) {n part slice step : Nat} {ds : List (Nat × List Byte)} :
    Keeps s₀ (s.pushDigests n part slice step ds) :=
  .ite
    hs
    (.ite
      (.emit (.setImage hs))
      (.ite (.setImage (.undoStep (.emit hs))) (.setImage (.ite (.emit hs) (.event (.emit hs))))))

theorem Keeps.pushRefused (hs : Keeps s₀ s) {n : Nat} {f : Confirm} : Keeps s₀ (s.pushRefused n f) :=
  .event (.count (.ckpStat (.setCkp hs)))

theorem Keeps.pushConfirm (hs : Keeps s₀ s) {n step : Nat} {ok : Bool} : Keeps s₀ (s.pushConfirm n step ok) := by
  unfold State.pushConfirm
  dsimp only
  split
  · exact hs
  · exact .ite (.pushRefused hs) (.count (.wr (.wr (.emit (.setCkp hs)))))

theorem Keeps.depotDrain (hs : Keeps s₀ s) {n : Nat} {rec : List Byte} {ok : Bool} :
    Keeps s₀ (s.depotDrain n rec ok) := by
  unfold State.depotDrain
  split
  · exact hs
  · exact .ite
        (.setImage hs)
        (.ite
          (.event (.ckpStat (.setImage (.setImage hs))))
          (.ite
            (.setImage hs)
            (.setImage (.wr (.wr (.foldl (fun _ _ hu => .countN (.emit hu)) (.emit (.setImage hs))))))))

theorem Keeps.restoreFail (hs : Keeps s₀ s) {n st : Nat} : Keeps s₀ (s.restoreFail n st) :=
  .ite (.event (.wf (.ckpStat hs))) (.wf (.ckpStat hs))

theorem Keeps.ckpRestore (hs : Keeps s₀ s) {n : Nat} : Keeps s₀ (s.ckpRestore n) :=
  .ite (.ckpStat hs) (.ite (.ckpStat hs) (.ite (.restoreFail hs) (.wf (.ckpStat (.setCkp (.setJob hs))))))

theorem Keeps.ckpCmdWrite (hs : Keeps s₀ s) {n : Nat} {v : Word} : Keeps s₀ (s.ckpCmdWrite n v) :=
  .ite
    (.wr hs)
    (.ite (.ckpStat (.wr hs)) (by split; exacts [.ckpCheckpoint (.wr hs), .ckpRestore (.wr hs), .ckpStat (.wr hs)]))

theorem Keeps.rebuildDie (hs : Keeps s₀ s) {n d : Nat} {os : List (List Byte)} {imgs : List (Nat × List (Nat × Byte))} :
    Keeps s₀ (s.rebuildDie n d os imgs) :=
  .ite
    (.foldl (fun _ _ hu => .foldl (fun _ _ hu' => .xorInto hu') hu) (.zeroRange hs))
    (.foldl (fun _ _ hu => .writeB hu) (.zeroRange hs))

theorem Keeps.restoreRebuild (hs : Keeps s₀ s) {n : Nat} {os : List (List Byte)} {imgs : List (Nat × List (Nat × Byte))} :
    Keeps s₀ (s.restoreRebuild n os imgs) :=
  .share
    (fun h₁ =>
      .ite
        hs
        (.ite (.restoreFail hs) (.ite (.wf (.setCkp h₁)) (.restoreFail (.foldl (fun _ _ hu => .zeroRange hu) h₁)))))
    (.foldl (fun _ _ hu => .rebuildDie hu) hs)

theorem Keeps.backgroundCopy (hs : Keeps s₀ s) {d : Nat} : Keeps s₀ (s.backgroundCopy d) :=
  .ite hs (.ite (.endCopy (by split; exacts [.capturePage hs, hs])) (by split; exacts [.capturePage hs, hs]))

/-! #### Sys2Proof/Machine/Memb.lean -/

theorem Keeps.setSuspect (hs : Keeps s₀ s) {k : Nat} {b : Bool} : Keeps s₀ (s.setSuspect k b) := .frame hs

theorem Keeps.setMemb (hs : Keeps s₀ s) {n x : Nat} : Keeps s₀ (s.setMemb n x) := .setJob hs

theorem Keeps.loseQuorum (hs : Keeps s₀ s) {n x st : Nat} : Keeps s₀ (s.loseQuorum n x st) :=
  .reportStatus (.event (.setCkp (.setMemb hs)))

theorem Keeps.enterHold (hs : Keeps s₀ s) {n : Nat} {p : Proposal} : Keeps s₀ (s.enterHold n p) :=
  .setCkp (.setMemb hs)

theorem Keeps.lead (hs : Keeps s₀ s) {n : Nat} {parts : List Nat} {resume : Option Nat} {restore : Bool} :
    Keeps s₀ (s.lead n parts resume restore) :=
  .ite
    (.foldl (fun _ _ hu => .emit hu) (.loseQuorum hs))
    (.foldl (fun _ _ hu => .emit hu) (.setCkp (.enterHold hs)))

theorem Keeps.raiseSuspicion (hs : Keeps s₀ s) {n part : Nat} {ep : Option Nat} :
    Keeps s₀ (s.raiseSuspicion n part ep) := .ite hs (.ite (.lead hs) (.emit hs))

theorem Keeps.suspect (hs : Keeps s₀ s) {part : Nat} {ep : Option Nat} {key : Nat} :
    Keeps s₀ (s.suspect part ep key) :=
  .ite hs (.foldl (fun _ _ hu => .ite (.raiseSuspicion hu) hu) (.event (.setSuspect hs)))

theorem Keeps.suspectTimeout (hs : Keeps s₀ s) {part : Nat} {ep : Option Nat} :
    Keeps s₀ (s.suspectTimeout part ep) := by
  unfold State.suspectTimeout
  split <;> exact .ite (.suspect hs) hs

theorem Keeps.suspectReport (hs : Keeps s₀ s) {n part : Nat} {ep : Option Nat} :
    Keeps s₀ (s.suspectReport n part ep) :=
  .share (fun h₁ => .ite hs (.ite (.lead h₁) h₁)) (.ite hs (.event (.setSuspect hs)))

theorem Keeps.proposeIn (hs : Keeps s₀ s) {n coord : Nat} {p : Proposal} : Keeps s₀ (s.proposeIn n coord p) :=
  .ite hs (.ite (.emit hs) (.setCkp (.emit (.enterHold hs))))

theorem Keeps.acceptIn (hs : Keeps s₀ s) {n part round : Nat} {copies : List CopyAt} {ok : Bool} :
    Keeps s₀ (s.acceptIn n part round copies ok) := by
  unfold State.acceptIn
  split
  · exact hs
  · exact .ite
        hs
        (.ite
          (.ite (.foldl (fun _ _ hu => .emit hu) (.setCkp hs)) hs)
          (.ite (.foldl (fun _ _ hu => .emit hu) (.setCkp hs)) (.setCkp hs)))

theorem Keeps.agreeTimeout (hs : Keeps s₀ s) {n : Nat} : Keeps s₀ (s.agreeTimeout n) := by
  unfold State.agreeTimeout
  split
  · exact hs
  · exact .ite hs (.lead (.setCkp hs))

theorem Keeps.holdTimeout (hs : Keeps s₀ s) {n : Nat} : Keeps s₀ (s.holdTimeout n) :=
  .ite hs (.raiseSuspicion (.ite hs (.event (.setSuspect hs))))

theorem Keeps.writeMembership (hs : Keeps s₀ s) {n : Nat} {m : Commit} {resume : Nat} {rollback : Bool} :
    Keeps s₀ (s.writeMembership n m resume rollback) :=
  .share (fun h₁ => .report (.ite (.count h₁) h₁)) (.count (.event (.ite (.writeB hs) hs)))

theorem Keeps.rollBack (hs : Keeps s₀ s) {n : Nat} {copies : List (Nat × List (Nat × Byte))} :
    Keeps s₀ (s.rollBack n copies) := .foldl (fun _ _ hu => .foldl (fun _ _ hu' => .writeB hu') (.zeroRange hu)) hs

theorem Keeps.dropCaptures (hs : Keeps s₀ s) {n r : Nat} : Keeps s₀ (s.dropCaptures n r) := .setCkp (.frame hs)

theorem Keeps.imageTo (hs : Keeps s₀ s) {n r : Nat} : Keeps s₀ (s.imageTo n r) := by
  unfold State.imageTo
  split
  · exact hs
  · exact .ite (.setImage (.undoStep hs)) (.ite (by split; exacts [.setImage (.undoStep hs), hs]) hs)

theorem Keeps.promote (hs : Keeps s₀ s) {n r : Nat} : Keeps s₀ (s.promote n r) := by
  unfold State.promote
  dsimp only
  split
  · exact .imageTo hs
  · exact .setCkp (.useFree (.imageTo hs))

theorem Keeps.handOver (hs : Keeps s₀ s) {n r : Nat} {members : List (Nat × Nat)} :
    Keeps s₀ (s.handOver n r members) := by
  unfold State.handOver
  split
  · exact .ite (.setCkp hs) hs
  · split
    · exact .ite (.setImage hs) hs
    · exact hs

theorem Keeps.rebuddy (hs : Keeps s₀ s) {n : Nat} {old : List Member} : Keeps s₀ (s.rebuddy n old) :=
  .ite (.ite hs (.setCkp hs)) (.ite (.failPush (.setCkp hs)) (.setCkp hs))

theorem Keeps.restored (hs : Keeps s₀ s) {n : Nat} : Keeps s₀ (s.restored n) := .setCkp (.ite (.event hs) hs)

theorem Keeps.restoreAborted (hs : Keeps s₀ s) {n : Nat} : Keeps s₀ (s.restoreAborted n) :=
  .reportStatus (.restoreFail (.setCkp (.setMemb (.foldl (fun _ _ hu => .zeroRange hu) hs))))

theorem Keeps.commitMembership (hs : Keeps s₀ s) {n : Nat} {m : Commit} {copies : List (Nat × List (Nat × Byte))} :
    Keeps s₀ (s.commitMembership n m copies) :=
  .ite
    hs
    (.ite
      (.restoreAborted hs)
      (.ite
        (.loseQuorum hs)
        (.ite
          (.loseQuorum hs)
          (by
            dsimp only
            split
            · exact .reportStatus (.event (.ckpStat (.writeMembership (.foldl
                  (fun _ _ hu => .setSuspect hu)
                  (.setJob (.feedsStop (.abandonColls (.setCkp hs))))))))
            · exact .share
                  (fun h₁ => .writeMembership (.rebuddy (.ite (.restored h₁) h₁)))
                  (.share
                    (fun h₂ => .ite (.handOver h₂) h₂)
                    (.share
                      (fun h₃ => .ite (.promote h₃) h₃)
                      (.share
                        (fun h₄ => .ite (.imageTo (.dropCaptures (.rollBack h₄))) h₄)
                        (.setJob (.frame (.setStep (.foldl
                          (fun _ _ hu => .setSuspect hu)
                          (.setJob (.feedsStop (.abandonColls (.setCkp hs)))))))))))))))

theorem Keeps.withdraw (hs : Keeps s₀ s) {n : Nat} : Keeps s₀ (s.withdraw n) :=
  .ite (.foldl (fun _ _ hu => .emit hu) hs) hs

theorem Keeps.rowMembership (hs : Keeps s₀ s) {n : Nat} : Keeps s₀ (s.rowMembership n) :=
  .ite (.ite (.lead hs) (.emit hs)) hs

theorem Keeps.proposeHandover (hs : Keeps s₀ s) {n step : Nat} : Keeps s₀ (s.proposeHandover n step) := by
  unfold State.proposeHandover
  split
  · exact .ite (.lead hs) hs
  · exact hs

theorem Keeps.keepaliveIn (hs : Keeps s₀ s) {part : Nat} {reply : Bool} : Keeps s₀ (s.keepaliveIn part reply) :=
  .ite (.setSuspect (.frame hs)) (.emit (.setSuspect (.frame hs)))

/-! #### Sys2Proof/Machine/NeedleScalar.lean -/

theorem KeepsN.opAlu (hs : Keeps s₀ s) {mn : Mn} {w : Nat} {n : Needle} : KeepsN s₀ (opAlu mn w s n) := by
  unfold Machine.opAlu
  dsimp only
  split <;> exact .ok hs

theorem KeepsN.opImm (hs : Keeps s₀ s) {mn : Mn} {w : Nat} {n : Needle} : KeepsN s₀ (opImm mn w s n) := by
  unfold Machine.opImm
  dsimp only
  split <;> exact .ok hs

theorem KeepsN.opLoad (hs : Keeps s₀ s) {mn : Mn} {c : Ctx} {ecc : Ecc} {w : Nat} {n : Needle} :
    KeepsN s₀ (opLoad mn c ecc w s n) := .trapIf (by split; exacts [.trap, .ok hs])

theorem KeepsN.opStore (hs : Keeps s₀ s) {mn : Mn} {c : Ctx} {w : Nat} {n : Needle} :
    KeepsN s₀ (opStore mn c w s n) :=
  .trapIf (by split; exacts [.trap, .ok (.ite_fst (.nStoreWords hs) (.nStore hs))])

theorem KeepsN.opPld (hs : Keeps s₀ s) {c : Ctx} {ecc : Ecc} {w : Nat} {n : Needle} :
    KeepsN s₀ (opPld c ecc w s n) := .trapIf (by split; exacts [.trap, .trapIf (.ok hs)])

theorem KeepsN.opPst (hs : Keeps s₀ s) {c : Ctx} {w : Nat} {n : Needle} : KeepsN s₀ (opPst c w s n) :=
  .trapIf (by split; exacts [.trap, .trapIf (.ok (.nStoreWords hs))])

theorem KeepsN.opChkb (hs : Keeps s₀ s) {w : Nat} {n : Needle} : KeepsN s₀ (opChkb w s n) := .trapIf (.ok hs)

theorem KeepsN.opSset (hs : Keeps s₀ s) {c : Ctx} {w : Nat} {n : Needle} : KeepsN s₀ (opSset c w s n) :=
  .trapIf (.ok hs)

theorem KeepsN.opSget (hs : Keeps s₀ s) {w : Nat} {n : Needle} : KeepsN s₀ (opSget w s n) := .ok hs

theorem KeepsN.opDraw (hs : Keeps s₀ s) {c : Ctx} {w : Nat} {n : Needle} : KeepsN s₀ (opDraw c w s n) :=
  .trapIf (.ok (.seedUsed hs))

theorem KeepsN.opDrawe (hs : Keeps s₀ s) {c : Ctx} {w : Nat} {n : Needle} : KeepsN s₀ (opDrawe c w s n) :=
  .ok (.seedUsed hs)

theorem KeepsN.opSdef (hs : Keeps s₀ s) {w : Nat} {n : Needle} : KeepsN s₀ (opSdef w s n) := .trapIf (.ok hs)

theorem KeepsN.opSrd (hs : Keeps s₀ s) {c : Ctx} {w : Nat} {n : Needle} : KeepsN s₀ (opSrd c w s n) := by
  unfold Machine.opSrd
  dsimp only
  split
  · exact .trap
  · exact .ite .trap (by split; exacts [.trap, .ok hs])

/-! #### Sys2Proof/Machine/NeedleVector.lean -/

theorem KeepsN.opVop (hs : Keeps s₀ s) {mn : Mn} {w : Nat} {n : Needle} : KeepsN s₀ (opVop mn w s n) := .ok hs

theorem KeepsN.opVfma (hs : Keeps s₀ s) {w : Nat} {n : Needle} : KeepsN s₀ (opVfma w s n) := .ok hs

theorem KeepsN.opVcmp (hs : Keeps s₀ s) {w : Nat} {n : Needle} : KeepsN s₀ (opVcmp w s n) := .ok hs

theorem KeepsN.opVsel (hs : Keeps s₀ s) {w : Nat} {n : Needle} : KeepsN s₀ (opVsel w s n) := .ok hs

theorem KeepsN.opVcvt (hs : Keeps s₀ s) {w : Nat} {n : Needle} : KeepsN s₀ (opVcvt w s n) := .ok hs

theorem KeepsN.opVbcst (hs : Keeps s₀ s) {w : Nat} {n : Needle} : KeepsN s₀ (opVbcst w s n) := .ok hs

theorem KeepsN.opVext (hs : Keeps s₀ s) {w : Nat} {n : Needle} : KeepsN s₀ (opVext w s n) := .ok hs

theorem KeepsN.opGauge (hs : Keeps s₀ s) {c : Ctx} {w : Nat} {n : Needle} : KeepsN s₀ (opGauge c w s n) :=
  .trapIf (.ok hs)

theorem KeepsN.opPcvt (hs : Keeps s₀ s) {c : Ctx} {w : Nat} {n : Needle} : KeepsN s₀ (opPcvt c w s n) :=
  .trapIf (.ok hs)

theorem KeepsN.opPadd (hs : Keeps s₀ s) {w : Nat} {n : Needle} : KeepsN s₀ (opPadd w s n) :=
  .trapIf (.ite (.ok hs) (.okTrap hs))

theorem KeepsN.opPfin (hs : Keeps s₀ s) {c : Ctx} {w : Nat} {n : Needle} : KeepsN s₀ (opPfin c w s n) :=
  .ite .trap (.ite (.trapIf (.ok (.ite (.seedUsed hs) hs))) (.trapIf (.ok (.ite (.seedUsed hs) hs))))

theorem KeepsN.opTally (hs : Keeps s₀ s) {c : Ctx} {w : Nat} {n : Needle} : KeepsN s₀ (opTally c w s n) :=
  .trapIf (.trapIf (.ok (.foldl (fun _ _ hu => .tallyAdd hu) hs)))

theorem KeepsN.opPmov (hs : Keeps s₀ s) {w : Nat} {n : Needle} : KeepsN s₀ (opPmov w s n) := .trapIf (.ok hs)

theorem KeepsN.opPzero (hs : Keeps s₀ s) {w : Nat} {n : Needle} : KeepsN s₀ (opPzero w s n) := .trapIf (.ok hs)

/-! #### Sys2Proof/Machine/NeedleRow.lean -/

theorem KeepsN.dataOp (hs : Keeps s₀ s) {mn : Mn} {c : Ctx} {ecc : Ecc} {w : Nat} {n : Needle} :
    KeepsN s₀ (dataOp mn c ecc w s n) := by
  unfold Machine.dataOp
  split
  iterate 19 exact .opAlu hs
  iterate 10 exact .opImm hs
  iterate 5 exact .opLoad hs
  iterate 5 exact .opStore hs
  · exact .opPld hs
  · exact .opPst hs
  · exact .opChkb hs
  · exact .opSset hs
  · exact .opSget hs
  · exact .opDraw hs
  · exact .opDrawe hs
  · exact .opSdef hs
  · exact .opSrd hs
  iterate 14 exact .opVop hs
  · exact .opVfma hs
  · exact .opVcmp hs
  · exact .opVsel hs
  · exact .opVcvt hs
  · exact .opVbcst hs
  · exact .opVext hs
  · exact .opGauge hs
  · exact .opPcvt hs
  · exact .opPadd hs
  · exact .opPfin hs
  · exact .opTally hs
  · exact .opPmov hs
  · exact .opPzero hs
  iterate 5 exact .ok hs

theorem KeepsN.jumpTo (hs : Keeps s₀ s) {c : Ctx} {t : Nat} {n : Needle} : KeepsN s₀ (jumpTo c t s n) :=
  .trapIf (.ok hs)

theorem KeepsN.opCall (hs : Keeps s₀ s) {c : Ctx} {w : Nat} {n : Needle} : KeepsN s₀ (opCall c w s n) :=
  .trapIf (.trapIf (.trapIf (.trapIf (by split; exacts [.trap, .ok (.nStoreWords hs)]))))

theorem KeepsN.opRet (hs : Keeps s₀ s) {c : Ctx} {n : Needle} : KeepsN s₀ (opRet c s n) :=
  .trapIf (.trapIf (by split; exacts [.trap, .trapIf (.trapIf (.trapIf (by split; exacts [.trap, .ok hs])))]))

theorem KeepsN.opRtt (hs : Keeps s₀ s) {c : Ctx} {next : Bool} {n : Needle} : KeepsN s₀ (opRtt c next s n) :=
  .trapIf (.ite (.ite (.ok hs) (.trapIf (.ok hs))) (.ok hs))

theorem Keeps.mapRow' (hs : Keeps s₀ s) {l : Nat} {f : Nat → Needle → Needle} : Keeps s₀ (s.mapRow' l f) :=
  .setRow hs

theorem Keeps.trapNeedles (hs : Keeps s₀ s) {l : Nat} {is : List Nat} {cause addr : Nat} :
    Keeps s₀ (s.trapNeedles l is cause addr) :=
  .foldl (fun _ _ hu => by dsimp only; split; exacts [.needleTrap hu, hu]) hs

theorem Keeps.actMld (hs : Keeps s₀ s) {l w : Nat} {n : Needle} : Keeps s₀ (s.actMld l w n).1 :=
  .ite_fst hs (by split; exacts [hs, .ite_fst hs (.setRow hs)])

theorem Keeps.actMma (hs : Keeps s₀ s) {l w : Nat} {n : Needle} : Keeps s₀ (s.actMma l w n).1 :=
  .ite_fst hs (.setRow hs)

theorem Keeps.actMst (hs : Keeps s₀ s) {l i w : Nat} {n : Needle} : Keeps s₀ (s.actMst l i w n).1 :=
  .ite_fst hs (by split; exacts [hs, .setRow (.setNeedle (.nStoreWords hs))])

theorem Keeps.safePoint (hs : Keeps s₀ s) {l off : Nat} : Keeps s₀ (s.safePoint l off) :=
  .ite (.rowDone (.setRowState (.setRow (.mapRow' hs)))) (.mapRow' hs)

theorem Keeps.rowAct (hs : Keeps s₀ s) {l i off w : Nat} {mn : Mn} : Keeps s₀ (s.rowAct l i off w mn) := by
  unfold State.rowAct
  dsimp only
  split
  · exact .ite (.trapNeedles hs) (.safePoint hs)
  · exact .mapRow' hs
  · exact .mapRow' hs
  · split
    · exact .trapNeedles hs
    · exact .mapRow' (.actMld hs)
  · split
    · exact .trapNeedles hs
    · exact .mapRow' (.actMma hs)
  · exact .mapRow' (.setRow hs)
  · split
    · exact .trapNeedles hs
    · exact .mapRow' (.actMst hs)
  · exact hs

theorem Keeps.collectiveCheck (hs : Keeps s₀ s) {l i : Nat} : Keeps s₀ (s.collectiveCheck l i) :=
  .ite
    hs
    (.ite
      (.trapNeedles hs)
      (.ite hs (by split; exacts [.ite (by split; exacts [.rowAct hs, hs]) (.trapNeedles hs), hs])))

/-- The state in which a pair is done or stopped. -/
def PairRes.state : PairRes → State
  | .done s _ => s
  | .trap s _ _ _ _ _ => s

theorem Keeps.runPair (hs : Keeps s₀ s) {rep : Bool} {kind step w : Nat} {mn : Mn} {c : Ctx} {ecc : Ecc} {k i : Nat}
    {n : Needle} : Keeps s₀ (Machine.runPair rep kind step w mn c ecc k i s n).state := by
  induction k generalizing i s n with
  | zero => exact hs
  | succ k ih =>
    unfold Machine.runPair
    extract_lets w' dec
    split
    · exact hs
    · have hd : KeepsN s₀ (dataOp mn { c with k := i } ecc w' s n) := .dataOp hs
      split <;> rename_i he <;> rw [he] at hd <;> cases hd
      · exact ih (by assumption)
      · assumption
      · exact hs
theorem Keeps.repeatPair (hs : Keeps s₀ s) {l i : Nat} {n : Needle} {rep : Bool} {w : Nat} {c : Ctx} {ecc : Ecc} :
    Keeps s₀ (s.repeatPair l i n rep w c ecc) := by
  unfold State.repeatPair
  extract_lets off step w2 bad kind
  refine .ite (.needleTrap hs) ?_
  split
  · exact .needleTrap hs
  · refine .ite (.needleTrap hs) (.ite (.needleTrap hs) ?_)
    split <;> rename_i he
    · have h₁ := congrArg PairRes.state he ▸ Keeps.runPair hs
      exact .setNeedle h₁
    · have h₁ := congrArg PairRes.state he ▸ Keeps.runPair hs
      exact .needleTrap h₁

theorem Keeps.endCheck (hs : Keeps s₀ s) {l : Nat} : Keeps s₀ (s.endCheck l) := .ite (.rowDone (.setRowState hs)) hs

theorem Keeps.needleExec (hs : Keeps s₀ s) {l i : Nat} {n : Needle} {mn : Mn} {w : Nat} {ecc : Ecc} :
    Keeps s₀ (s.needleExec l i n mn w ecc) := by
  unfold State.needleExec
  extract_lets c off kind n' finish t
  have hf (step : Nat) {r : NRes} (hr : KeepsN s₀ r) : Keeps s₀ (finish r step) := by
    cases hr with
    | ok h => exact .setNeedle h
    | okTrap h => exact .needleTrap h
    | trap => exact .needleTrap hs
  refine .ite (.needleTrap hs) (.ite (.collectiveCheck (.setNeedle hs)) ?_)
  split
  · exact .repeatPair hs
  · exact .repeatPair hs
  · exact hf 0 (.ite (.jumpTo hs) (.ok hs))
  · exact hf 0 (.opCall hs)
  · exact hf 0 (.opRet hs)
  · exact hf 0 (.trapIf (.trapIf (.jumpTo hs)))
  · exact hf 0 (.opRtt hs)
  · exact hf 0 (.opRtt hs)
  · exact hf 0 (.okTrap hs)
  · exact .endCheck (.collectiveCheck (.setNeedle hs))
  · exact .setNeedle hs
  · exact .setNeedle hs
  · exact hf 4 (.dataOp hs)

theorem Keeps.needleStep (hs : Keeps s₀ s) {mn : Mn} {l i : Nat} {ecc : Ecc} :
    Keeps s₀ (s.needleStep mn l i ecc) :=
  .ite
    hs
    (.ite (.needleTrap hs) (by dsimp only; split; exacts [.needleTrap hs, .ite (.needleExec (.countN hs)) hs]))

theorem Keeps.waitbWake (hs : Keeps s₀ s) {l i : Nat} : Keeps s₀ (s.waitbWake l i) := by
  unfold State.waitbWake
  split
  · exact .ite hs (.ite (.safePoint hs) (.setNeedle hs))
  · exact hs

theorem Keeps.waittWake (hs : Keeps s₀ s) {l i : Nat} : Keeps s₀ (s.waittWake l i) := by
  unfold State.waittWake
  split
  · exact .ite (.setNeedle hs) hs
  · exact hs

/-! #### Sys2Proof/Machine/NdlCmd.lean -/

theorem Keeps.moveItems (hs : Keeps s₀ s) {l' l : Nat} : Keeps s₀ (s.moveItems l' l) := .ite (.frame hs) hs

theorem Keeps.startRow (hs : Keeps s₀ s) {l : Nat} : Keeps s₀ (s.startRow l) := .setRowState (.setRow hs)

theorem Keeps.saveRow (hs : Keeps s₀ s) {n l : Nat} : Keeps s₀ (s.saveRow n l) := .rowCleared (.writeMarked hs)

theorem Keeps.restoreRow (hs : Keeps s₀ s) {n l : Nat} : Keeps s₀ (s.restoreRow n l) :=
  .moveItems (.setRowState (.setRow hs))

theorem Keeps.stopRow (hs : Keeps s₀ s) {l : Nat} : Keeps s₀ (s.stopRow l) := .setRowState (.setRow hs)

theorem Keeps.retireCmd (hs : Keeps s₀ s) {l : Nat} : Keeps s₀ (s.retireCmd l).1 :=
  .ite_fst (.retireRow hs) (.ite (.withdraw (.retireRow hs)) (.retireRow hs))

theorem Keeps.releaseRow (hs : Keeps s₀ s) {n op l : Nat} : Keeps s₀ (s.releaseRow n op l) :=
  .rowDone (by split; exacts [.startRow hs, .setRowState hs, .restoreRow hs])

theorem Keeps.rowIssue (hs : Keeps s₀ s) {n op : Nat} {rows : List Nat} : Keeps s₀ (s.rowIssue n op rows) := by
  unfold State.rowIssue
  dsimp only
  split
  · exact .foldl (fun _ _ hu => .setRowState (.setRow hu)) (.foldl (fun _ _ hu => .setRow hu) (.wr (.setRowCmd hs)))
  · exact .foldl (fun _ _ hu => .setRowState hu) (.foldl (fun _ _ hu => .setRow hu) (.wr (.setRowCmd hs)))
  · exact .foldl (fun _ _ hu => .rowDone (.saveRow hu)) (.foldl (fun _ _ hu => .setRow hu) (.wr (.setRowCmd hs)))
  · exact .foldl (fun _ _ hu => .rowDone (.stopRow hu)) (.foldl (fun _ _ hu => .setRow hu) (.wr (.setRowCmd hs)))
  · exact .foldl (fun _ _ hu => .rowDone (.retireCmd hu)) (.foldl (fun _ _ hu => .setRow hu) (.wr (.setRowCmd hs)))
  · exact .share
        (fun h₁ => .ite h₁ (.foldl (fun _ _ hu => .releaseRow hu) h₁))
        (.foldl (fun _ _ hu => .setRow hu) (.wr (.setRowCmd hs)))

theorem Keeps.ndlCmdWrite (hs : Keeps s₀ s) {n : Nat} {v : Word} : Keeps s₀ (s.ndlCmdWrite n v) :=
  .ite (.wr hs) (.ite (.wr (.wr hs)) (.rowIssue (.wr hs)))

theorem Keeps.ndlGated {via : Via} {n : Nat} {k : State → State} (hk : ∀ u, Keeps s₀ u → Keeps s₀ (k u))
    (hs : Keeps s₀ s) : Keeps s₀ (s.ndlGated via n k) :=
  .ite (by split; exacts [hk s hs, hs]) (.ite (.gated hk hs) hs)

theorem Keeps.repairRound (hs : Keeps s₀ s) {l : Nat} : Keeps s₀ (s.repairRound l) :=
  .ite (.rowFault hs) (.event (.count (.setRow hs)))

theorem Keeps.chunksIn (hs : Keeps s₀ s) {l : Nat} {c : RowCmd} {bad : List Nat} : Keeps s₀ (s.chunksIn l c bad) :=
  .ite (.setRow hs) (.repairRound (.setRow hs))

theorem Keeps.loadPassEnd (hs : Keeps s₀ s) {n : Nat} {bad : List (Nat × List Nat)} :
    Keeps s₀ (s.loadPassEnd n bad) := by
  unfold State.loadPassEnd
  split
  · exact .ite hs (.foldl (fun _ _ hu => .ite (.chunksIn hu) hu) hs)
  · exact hs

theorem Keeps.repairRequest (hs : Keeps s₀ s) {l : Nat} {bad : List Nat} : Keeps s₀ (s.repairRequest l bad) := by
  unfold State.repairRequest
  split
  · exact .ite (.chunksIn hs) hs
  · exact hs

theorem Keeps.digestCheck (hs : Keeps s₀ s) {l : Nat} : Keeps s₀ (s.digestCheck l) := by
  unfold State.digestCheck
  split
  · exact .ite hs (.ite (.rowDone (.count (.setRowState (.setRow hs)))) (.repairRound (.setRow hs)))
  · exact hs

theorem Keeps.freezeBack (hs : Keeps s₀ s) {n st : Nat} : Keeps s₀ (s.freezeBack n st) := by
  unfold State.freezeBack
  split
  · exact .sliceCmdEnd (.setSliceState (.setRowCmd (.foldl (fun _ _ hu => .setRow (.ite (.setRowState hu) hu)) hs)))
  · exact hs

theorem Keeps.pauseTimeout (hs : Keeps s₀ s) {l : Nat} : Keeps s₀ (s.pauseTimeout l) :=
  .ite
    hs
    (by
      dsimp only
      split
      · exact .share
            (fun h₁ => .ite h₁ (.ite (.freezeBack (.setRowState (.event (.count hs)))) (.ite (.freezeBack h₁) h₁)))
            (.rowDone (.setRowState (.event (.count hs))))
      · exact .setRowState (.event (.count hs)))

theorem Keeps.rowWave (hs : Keeps s₀ s) {t : Nat} : Keeps s₀ (s.rowWave t) :=
  .ite hs (.foldl (fun _ _ hu => .releaseRow hu) (.ite hs (.frame (.reach hs))))

theorem Keeps.faultRecovery (hs : Keeps s₀ s) {l : Nat} : Keeps s₀ (s.faultRecovery l) :=
  .ite (.ite (.rowMembership (.retireRow hs)) (.withdraw (.retireRow hs))) hs

theorem Keeps.rowHang (hs : Keeps s₀ s) {l : Nat} : Keeps s₀ (s.rowHang l) := .ite (.rowFault hs) hs

theorem Keeps.pbufUe (hs : Keeps s₀ s) {l : Nat} : Keeps s₀ (s.pbufUe l) := .ite hs (.rowFault hs)

/-! #### Sys2Proof/Machine/Time.lean -/

theorem Keeps.tick (hs : Keeps s₀ s) : Keeps s₀ s.tick := .frame hs

theorem Keeps.setTbState (hs : Keeps s₀ s) {x : Nat} : Keeps s₀ (s.setTbState x) := .wf hs

theorem Keeps.measure (hs : Keeps s₀ s) {t : Nat} {d : Int} : Keeps s₀ (s.measure t d) :=
  .share
    (fun h₁ =>
      .ite (.setTbState (.frame (.wf hs))) (.ite (.ite h₁ (.event (.setTbState h₁))) (.ite h₁ (.setTbState h₁))))
    (.frame (.wr (.useFree (.wf hs))))

/-! #### Sys2Proof/Machine/SliceCmd.lean -/

theorem Keeps.rowsReset (hs : Keeps s₀ s) {n : Nat} : Keeps s₀ (s.rowsReset n) :=
  .setRowCmd (.setRowCmd (.foldl
    (fun _ _ hu => .ite (.rowDone hu) (.setRow hu))
    (.foldl (fun _ _ hu => .ite hu (.rowCleared hu)) hs)))

theorem Keeps.twistReset (hs : Keeps s₀ s) {n : Nat} : Keeps s₀ (s.twistReset n) := .frame hs

theorem Keeps.rmaReset (hs : Keeps s₀ s) {n : Nat} : Keeps s₀ (s.rmaReset n) := .frame hs

theorem Keeps.spacesReset (hs : Keeps s₀ s) {n : Nat} : Keeps s₀ (s.spacesReset n) :=
  .foldl (fun _ _ hu => by split; exacts [.foldl (fun _ _ hu' => .cmdEnd hu') (.frame hu), hu]) hs

theorem Keeps.sliceWipe (hs : Keeps s₀ s) {n : Nat} : Keeps s₀ (s.sliceWipe n) :=
  hs.update rfl id id (SMapWf_filter _ _ _) (SMapWf_filter _ _ _)

theorem Keeps.resetStart (hs : Keeps s₀ s) {n : Nat} : Keeps s₀ (s.resetStart n) := by
  unfold State.resetStart
  extract_lets u₁ u₂ u₃ regs ctrs holds
  have h₁ : Keeps s₀ u₁ := .spacesReset (.rmaReset (.twistReset (.optOff (.feedsClose (.rowsReset hs)))))
  have h₂ : Keeps s₀ u₂ := .foldl (fun _ _ hu => .setCopyList hu) h₁
  have h₃ : Keeps s₀ u₃ := .trustSliceErase (.sliceWipe (.setJob (.setCkp h₂)))
  clear_value u₃
  have h₄ : Keeps s₀ { u₃ with regs, ctrs, holds } :=
    h₃.update rfl (SMapWf_filter _ _ _) (fun h => h.filter _) id id
  exact .evidenceSync (.trustShow (.wf (.setSliceState h₄)))

theorem Keeps.resetEnd (hs : Keeps s₀ s) {n : Nat} : Keeps s₀ (s.resetEnd n) := by
  unfold State.resetEnd
  exact .evidenceSync (.frame (.rmaFence (.sliceCmdEnd (.setSliceState hs))))

theorem Keeps.idle (hs : Keeps s₀ s) : Keeps s₀ s.idle := .foldl (fun _ _ hu => .ite (.resetEnd hu) hu) (.tick hs)

theorem Keeps.freezeStart (hs : Keeps s₀ s) {n : Nat} : Keeps s₀ (s.freezeStart n) :=
  .foldl
    (fun _ _ hu => .setRowState (.setRow hu))
    (.foldl (fun _ _ hu => .setRow hu) (.setSliceState (.setRowCmd hs)))

theorem Keeps.freezeEnd (hs : Keeps s₀ s) {n : Nat} : Keeps s₀ (s.freezeEnd n) :=
  .ite (.ite (.setSliceState hs) (.sliceCmdEnd (.setSliceState hs))) hs

theorem Keeps.thaw (hs : Keeps s₀ s) {n : Nat} : Keeps s₀ (s.thaw n) :=
  .ite
    (.setRowCmd (.foldl (fun _ _ hu => .setRowState hu) (.setSliceState hs)))
    (.foldl (fun _ _ hu => .setRow hu) (.setRowCmd (.setSliceState hs)))

theorem Keeps.sliceSave (hs : Keeps s₀ s) {n : Nat} : Keeps s₀ (s.sliceSave n) :=
  .setSliceState (.writeB (.foldl (fun _ _ hu => .saveRow hu) hs))

theorem Keeps.loadSaved (hs : Keeps s₀ s) {r : SavedRow} : Keeps s₀ (s.loadSaved r) := .setRowState (.setRow hs)

theorem Keeps.blockIn (hs : Keeps s₀ s) {n : Nat} {x : SliceImage} : Keeps s₀ (s.blockIn n x) :=
  .foldl (fun _ _ hu => .setFeedState hu)
    (hs.update rfl (SMapWf_foldl_store regReset (fun e : Nat × Word => e.1) (fun _ e => e.2) _ _) id id id)

theorem Keeps.sliceRestore (hs : Keeps s₀ s) {n : Nat} : Keeps s₀ (s.sliceRestore n).2 := by
  unfold State.sliceRestore
  split
  · exact hs
  · exact .ite_snd
        hs
        (by
          dsimp only
          split
          · exact hs
          · exact .setSliceState (.blockIn (.setRowCmd (.foldl
                (fun _ _ hu => .restoreRow hu)
                (.foldl (fun _ _ hu => .loadSaved hu) hs)))))

theorem Keeps.attach (hs : Keeps s₀ s) {n j : Nat} : Keeps s₀ (s.attach n j) :=
  .nvmeEvent (.nvmeEvent (.wf (.setSpace hs)))

theorem Keeps.sliceIssue (hs : Keeps s₀ s) {n op j : Nat} : Keeps s₀ (s.sliceIssue n op j) := by
  unfold State.sliceIssue
  split
  · exact .resetStart hs
  · exact .wf (.freezeStart hs)
  · exact .sliceCmdEnd (.thaw hs)
  · exact .sliceCmdEnd (.sliceSave hs)
  · exact .sliceCmdEnd (.sliceRestore hs)
  · exact .sliceCmdEnd (.attach hs)
  · split
    · exact .spaceGo (.wf (.setSpace hs))
    · exact hs

theorem Keeps.sliceRefuse (hs : Keeps s₀ s) {n st : Nat} : Keeps s₀ (s.sliceRefuse n st) := .wf (.wr hs)

theorem Keeps.sliceCmdWrite (hs : Keeps s₀ s) {via : Via} {n : Nat} {v : Word} :
    Keeps s₀ (s.sliceCmdWrite via n v) := .ite (.wr hs) (.ite (.sliceRefuse (.wr hs)) (.sliceIssue (.wr hs)))

/-! #### Sys2Proof/Machine/Bind.lean -/

theorem Keeps.castCmdEnd (hs : Keeps s₀ s) {st : Nat} : Keeps s₀ (s.castCmdEnd st) := .wr hs

theorem Keeps.bindOff (hs : Keeps s₀ s) : Keeps s₀ s.bindOff :=
  .evidenceSync (.foldl (fun _ _ hu => .ite (.freezeStart hu) hu) (.setCast (.wr (.wf hs))))

theorem Keeps.quiesce (hs : Keeps s₀ s) {st : Nat} : Keeps s₀ (s.quiesce st) :=
  .evidenceSync (.castCmdEnd (.wf (.foldl (fun _ _ hu => .withdraw (.ite (.setSliceState hu) hu)) hs)))

theorem Keeps.bindOffEnd (hs : Keeps s₀ s) : Keeps s₀ s.bindOffEnd := .ite (.quiesce hs) hs

theorem Keeps.workDrop (hs : Keeps s₀ s) {n : Nat} : Keeps s₀ (s.workDrop n) :=
  .foldl
    (fun _ _ hu => by split; exacts [.setSpace hu, hu])
    (.foldl
      (fun _ _ hu => .setCopyList hu)
      (.frame (.foldl
        (fun _ _ hu => .setConn hu)
        (.frame (.twistReset (.setRowCmd (.setRowCmd (.foldl (fun _ _ hu => .setRow (.ite (.setRowState hu) hu)) hs))))))))

theorem Keeps.bindOffTimeout (hs : Keeps s₀ s) {t : Nat} : Keeps s₀ (s.bindOffTimeout t) :=
  .ite (.event (.quiesce (.foldl (fun _ _ hu => .workDrop hu) (.reach hs)))) hs

theorem Keeps.castCmdRefuse (hs : Keeps s₀ s) {st : Nat} : Keeps s₀ (s.castCmdRefuse st) := .wf hs

theorem Keeps.castCmdWrite (hs : Keeps s₀ s) {via : Via} {v : Word} : Keeps s₀ (s.castCmdWrite via v) := by
  unfold State.castCmdWrite
  dsimp only
  split
  · exact .ite (.wr hs) (.ite (.castCmdRefuse (.wr hs)) (.ite (.bindOff (.wr hs)) (.warmState (.wr hs))))
  · exact .ite (.wr hs) (.ite (.castCmdRefuse (.wr hs)) (.ite (.bindOff (.wr hs)) (.warmState (.wr hs))))
  · exact hs

/-! #### Sys2Proof/Machine/LinkCmd.lean -/

theorem Keeps.codewordIn (hs : Keeps s₀ s) {n w : Nat} : Keeps s₀ (s.codewordIn n w) := by
  unfold State.codewordIn
  dsimp only
  split
  · exact .count (.setLink hs)
  · exact .setLink hs
  · exact .count (.setLink hs)

theorem Keeps.deframe (hs : Keeps s₀ s) {n : Nat} {rx : FlitRx} : Keeps s₀ (s.deframe n rx).1 :=
  .share
    (fun h₁ => .ite_fst (.ite_fst (.setLink h₁) h₁) (.countN (.countN hs)))
    (.foldl (fun _ _ hu => .codewordIn hu) hs)

theorem Keeps.sendNak (hs : Keeps s₀ s) {n : Nat} : Keeps s₀ (s.sendNak n) := .ite hs (.sendFlit (.setLink hs))

theorem Keeps.setVcRx (hs : Keeps s₀ s) {n vc : Nat} {r : VcRx} : Keeps s₀ (s.setVcRx n vc r) := .setLink hs

theorem Keeps.cutFlit (hs : Keeps s₀ s) {o vc : Nat} {sop eop replace stomp : Bool} {payload : List Byte} :
    Keeps s₀ (s.cutFlit o vc sop eop replace stomp payload) := .ite (.newData hs) (.count hs)

theorem Keeps.badData (hs : Keeps s₀ s) {n : Nat} {idle : Bool} {header : Nat} {payload : List Byte} :
    Keeps s₀ (s.badData n idle header payload) :=
  .ite (by split; exacts [.setVcRx (.count (.count (.cutFlit hs))), hs]) hs

theorem Keeps.stompedData (hs : Keeps s₀ s) {n header : Nat} : Keeps s₀ (s.stompedData n header) :=
  .ite
    (.giveCredit (.count (.setVcRx (by
      split
      · exact .count (.cutFlit (.count (.giveCredit hs)))
      · exact .count (.giveCredit hs)))))
    (.setVcRx (by split; exacts [.count (.cutFlit (.count (.giveCredit hs))), .count (.giveCredit hs)]))

theorem Keeps.goodData (hs : Keeps s₀ s) {n : Nat} {idle : Bool} {header : Nat} {payload : List Byte} :
    Keeps s₀ (s.goodData n idle header payload) := by
  unfold State.goodData
  dsimp only
  split
  · exact .share
        (fun h₁ => .setVcRx (.ite (.count h₁) h₁))
        (.ite (.count (.giveCredit (.cutFlit hs))) (.giveCredit (.cutFlit hs)))
  · exact .ite (.setLink (.setVcRx hs)) (.setVcRx hs)

theorem Keeps.dataIn (hs : Keeps s₀ s) {n : Nat} {idle stomped : Bool} {header : Nat} {payload : List Byte} :
    Keeps s₀ (s.dataIn n idle stomped header payload) :=
  .ite hs (.ite (.sendNak hs) (.ite (.stompedData (.count (.setLink hs))) (.goodData (.count (.setLink hs)))))

theorem Keeps.flitIn (hs : Keeps s₀ s) {n : Nat} {rx : FlitRx} : Keeps s₀ (s.flitIn n rx) := by
  refine .ite (.ite (.enterRetrain hs) ?_) hs
  split <;> rename_i hd <;> have h₁ := Keeps.deframe (n := n) (rx := rx) hs <;> rw [hd] at h₁
  · exact h₁
  · refine .ite (.sendNak (.badData (.count h₁))) ?_
    split
    · exact .ackIn h₁
    · exact .ackIn (.dataIn h₁)
    · exact .ackIn h₁
    · exact .ackIn (.count h₁)
    · exact .count h₁

theorem Keeps.calSlot (hs : Keeps s₀ s) {n : Nat} : Keeps s₀ (s.calSlot n) := .ite (.sendFlit (.setLink hs)) hs

theorem Keeps.tsyncOut (hs : Keeps s₀ s) {t n : Nat} : Keeps s₀ (s.tsyncOut t n) := .ite (.sendCtrl hs) hs

theorem Keeps.tsyncIn (hs : Keeps s₀ s) {n t : Nat} {p : List Byte} : Keeps s₀ (s.tsyncIn n t p) :=
  .ite hs (.ite (.measure (.setLink (.reach hs))) (.setLink (.reach hs)))

theorem Keeps.hubOnly {via : Via} {k : State → State} (hk : ∀ u, Keeps s₀ u → Keeps s₀ (k u))
    (hs : Keeps s₀ s) : Keeps s₀ (s.hubOnly via k) := by
  unfold State.hubOnly
  split
  · exact hk s hs
  · exact hk s hs
  · exact hs

theorem Keeps.linkCtlWrite (hs : Keeps s₀ s) {via : Via} {n : Nat} {v : Word} :
    Keeps s₀ (s.linkCtlWrite via n v) :=
  .share
    (fun h₁ => .ite hs (.ite (.ite (.enterRetrain h₁) (.ite (.setLinkState (.setLink h₁)) (.reject h₁))) h₁))
    (.ite (.setLink (.linkDown hs)) hs)

/-! #### Sys2Proof/Machine/TrustCmd.lean -/

theorem Keeps.cipherLost (hs : Keeps s₀ s) : Keeps s₀ s.cipherLost := .foldl (fun _ _ hu => .rmaError hu) hs

theorem Keeps.alarm (hs : Keeps s₀ s) {i : Nat} : Keeps s₀ (s.alarm i) :=
  .cipherLost (.alarmErase (.wf (.event (.event (.count hs)))))

theorem Keeps.trustEnd (hs : Keeps s₀ s) {n st : Nat} : Keeps s₀ (s.trustEnd n st) :=
  .trustShow (.wf (.foldl (fun _ _ hu => .wr hu) (.wr hs)))

theorem Keeps.cipherLoad (hs : Keeps s₀ s) {i : Nat} {rx : Bool} {key salt : List Byte} :
    Keeps s₀ (s.cipherLoad i rx key salt) := .setCipher hs

theorem Keeps.cipherErase (hs : Keeps s₀ s) {i : Nat} {rx : Bool} : Keeps s₀ (s.cipherErase i rx) := .setCipher hs

theorem Keeps.cipherSave (hs : Keeps s₀ s) {n i a : Nat} {wrapped : Bool} :
    Keeps s₀ (s.cipherSave n i a wrapped) := .setCipher (.writeB (.ite (.drew hs) hs))

theorem Keeps.privMismatch {erase : State → State} (he : ∀ u, Keeps s₀ u → Keeps s₀ (erase u))
    (hs : Keeps s₀ s) : Keeps s₀ (s.privMismatch erase) := .alarm (.count (he s hs))

theorem Keeps.unsealN (hs : Keeps s₀ s) {src dst len : Nat} {key head : List Byte} {k i : Nat} :
    Keeps s₀ (State.unsealN src dst len key head k i s).1 := by
  induction k generalizing i s with
  | zero => exact hs
  | succ k ih =>
    unfold State.unsealN
    dsimp only
    split
    · exact .writeB hs
    · exact ih (.writeB hs)

theorem Keeps.sealN (hs : Keeps s₀ s) {src dst len : Nat} {key head : List Byte} {k i : Nat} :
    Keeps s₀ (State.sealN src dst len key head k i s) := by
  induction k generalizing i s with
  | zero => exact hs
  | succ k ih => exact ih (.writeB hs)

theorem Keeps.weightErase (hs : Keeps s₀ s) {w : WeightKey} : Keeps s₀ (s.weightErase w) := .setTrust hs

theorem Keeps.sealCommand (hs : Keeps s₀ s) {n : Nat} {mismatch : Bool} : Keeps s₀ (s.sealCommand n mismatch).2 :=
  .ite_snd
    hs
    (.ite_snd
      hs
      (.ite_snd
        hs
        (.ite_snd
          (.ite_snd
            hs
            (.ite_snd
              hs
              (.ite_snd
                hs
                (by
                  split
                  · exact hs
                  · exact .ite_snd
                        (.privMismatch (fun _ hu => .weightErase hu) hs)
                        (.ite_snd (.ite (.ctrBump (.countN (.unsealN hs))) (.countN (.unsealN hs))) (.unsealN hs))))))
          (.ite_snd
            hs
            (by
              split
              · exact hs
              · exact .share
                    (fun h₁ => .ite_snd (.privMismatch (fun _ hu => .weightErase hu) hs) (.ite (.ctrBump h₁) h₁))
                    (.countN (.sealN (.writeB (.drew hs)))))))))

theorem Keeps.revoke (hs : Keeps s₀ s) {n : Nat} : Keeps s₀ (s.revoke n).2 := by
  unfold State.revoke
  split
  · exact hs
  · exact .ite_snd hs (.setTrust hs)

theorem Keeps.trustCommand (hs : Keeps s₀ s) {n : Nat} {v : Word} {mismatch : Bool} :
    Keeps s₀ (s.trustCommand n v mismatch).2 :=
  .ite_snd
    hs
    (.ite_snd
      hs
      (.ite_snd
        hs
        (.ite_snd
          hs
          (by
            split
            · exact .ite_snd hs (.cipherLoad hs)
            · exact .cipherErase hs
            · exact .ite_snd hs (.ite_snd hs (.cipherSave hs))
            · exact .ite_snd hs (.ite_snd (.privMismatch (fun _ hu => hu) hs) (.cipherSave hs))
            · exact .ite_snd
                  hs
                  (.ite_snd
                    hs
                    (.ite_snd
                      hs
                      (.ite_snd (.privMismatch (fun _ hu => hu) hs) (by split; exacts [hs, .setCipher hs]))))
            · exact .sealCommand hs
            · exact .revoke hs))))

theorem Keeps.trustCmdWrite (hs : Keeps s₀ s) {n : Nat} {v : Word} {mismatch : Bool} :
    Keeps s₀ (s.trustCmdWrite n v mismatch) := .ite (.wr hs) (.trustEnd (.trustCommand (.wr hs)))

theorem Keeps.trustGated {via : Via} {n : Nat} {k : State → State} (hk : ∀ u, Keeps s₀ u → Keeps s₀ (k u))
    (hs : Keeps s₀ s) : Keeps s₀ (s.trustGated via n k) := .hubOnly (fun u hu => .ite (hk u hu) hu) hs

/-! #### Sys2Proof/Machine/Power.lean -/

theorem Keeps.throttleEnd (hs : Keeps s₀ s) {start causes t : Nat} : Keeps s₀ (s.throttleEnd start causes t) :=
  .setPwr (.event (.countN (.count (.wr (.wr (.wr64 hs))))))

theorem Keeps.powerShow (hs : Keeps s₀ s) {t : Nat} : Keeps s₀ (s.powerShow t) := by
  unfold State.powerShow
  dsimp only
  split
  · exact .share
        (fun h₁ => .ite (.setPwr h₁) h₁)
        (.share (fun h₂ => .ite h₂ (.setPwr h₂)) (.foldl (fun _ _ hu => .wf hu) (.wf (.wf (.wf hs)))))
  · exact .share
        (fun h₁ => .ite (.setPwr h₁) (.throttleEnd h₁))
        (.share (fun h₂ => .ite h₂ (.setPwr h₂)) (.foldl (fun _ _ hu => .wf hu) (.wf (.wf (.wf hs)))))

theorem Keeps.gateRaise (hs : Keeps s₀ s) {x t : Nat} : Keeps s₀ (s.gateRaise x t) :=
  .ite hs (.count (.setPwr hs))

theorem Keeps.hotAssert (hs : Keeps s₀ s) {t : Nat} : Keeps s₀ (s.hotAssert t) :=
  .event (.count (.powerShow (.gateRaise (.setPwr (.reach hs)))))

theorem Keeps.iccOver (hs : Keeps s₀ s) {t : Nat} : Keeps s₀ (s.iccOver t) :=
  .powerShow (.gateRaise (.setPwr (.reach hs)))

theorem Keeps.avsFail (hs : Keeps s₀ s) {t i : Nat} : Keeps s₀ (s.avsFail t i) :=
  .gateRaise (.ite hs (.event (.setPwr hs)))

theorem Keeps.avsAnswer (hs : Keeps s₀ s) {i : Nat} : Keeps s₀ (s.avsAnswer i) := .setPwr hs

theorem Keeps.govSlow (hs : Keeps s₀ s) : Keeps s₀ s.govSlow :=
  .ite
    (.wr (.ite (.wf (.setPwr hs)) (.setPwr hs)))
    (.ite (.ite (.setPwr hs) (.ite (.wf (.setPwr hs)) (.wr (.setPwr hs)))) (.setPwr hs))

theorem Keeps.govFast (hs : Keeps s₀ s) {t : Nat} : Keeps s₀ (s.govFast t) := .ite (.setPwr hs) hs

theorem Keeps.avsCommand (hs : Keeps s₀ s) {t : Nat} {silent : List Nat} {again : Nat} :
    Keeps s₀ (s.avsCommand t silent again) :=
  .foldl (fun _ _ hu => .ite (.avsFail (.emit hu)) (.avsAnswer (.emit hu))) (.countN hs)

theorem Keeps.decide (hs : Keeps s₀ s) {t : Nat} {hot icc : Bool} {silent : List Nat} {again : Nat} :
    Keeps s₀ (s.decide t hot icc silent again) :=
  .share (fun h₁ => .ite hs (.powerShow (.ite h₁ (.avsCommand h₁)))) (.govFast (.govSlow (.setPwr (.reach hs))))

theorem Keeps.avsOne (hs : Keeps s₀ s) {t i : Nat} {r : AvsRead} : Keeps s₀ (s.avsOne t i r) := by
  unfold State.avsOne
  dsimp only
  split
  · exact .ite (.wr (.avsAnswer (.setPwr (.countN hs)))) (.avsAnswer (.setPwr (.countN hs)))
  · exact .avsFail (.countN hs)

theorem Keeps.avsRead (hs : Keeps s₀ s) {t : Nat} {rs : List AvsRead} {est : Nat} :
    Keeps s₀ (s.avsRead t rs est) :=
  .ite hs (.powerShow (.wr (.countN (.setPwr (.foldl (fun _ _ hu => .avsOne hu) (.reach hs))))))

theorem Keeps.trip (hs : Keeps s₀ s) {t : Nat} : Keeps s₀ (s.trip t) :=
  .ite hs (.powerShow (.alarm (.event (.wr (.wf (.emit (.setPwr hs)))))))

theorem Keeps.sensorOne (hs : Keeps s₀ s) {t k : Nat} {x : Option Int} : Keeps s₀ (s.sensorOne t k x) :=
  .ite (.event (.setPwr (.setPwr hs))) (.setPwr (.setPwr hs))

theorem Keeps.sensorSample (hs : Keeps s₀ s) {t d : Nat} {xs : List (Option Int)} :
    Keeps s₀ (s.sensorSample t d xs) :=
  .ite
    hs
    (.ite
      (.trip (by
        split
        · exact .wf (.wf (.setPwr (.foldl (fun _ _ hu => .sensorOne hu) (.reach hs))))
        · exact .setPwr (.foldl (fun _ _ hu => .sensorOne hu) (.reach hs))))
      (.powerShow (by
        split
        · exact .wf (.wf (.setPwr (.foldl (fun _ _ hu => .sensorOne hu) (.reach hs))))
        · exact .setPwr (.foldl (fun _ _ hu => .sensorOne hu) (.reach hs)))))

theorem Keeps.hbmTemp (hs : Keeps s₀ s) {t d : Nat} {xs : List Nat} : Keeps s₀ (s.hbmTemp t d xs) :=
  .ite hs (.ite (.trip (.wf (.setPwr (.reach hs)))) (.powerShow (.wf (.setPwr (.reach hs)))))

theorem Keeps.throttleReport (hs : Keeps s₀ s) {t : Nat} : Keeps s₀ (s.throttleReport t) := by
  unfold State.throttleReport
  split
  · exact hs
  · exact .ite hs (.foldl (fun _ _ hu => .report hu) (.setPwr (.reach hs)))

theorem Keeps.telCapture (hs : Keeps s₀ s) {t : Nat} : Keeps s₀ (s.telCapture t) :=
  .ite hs (.setPwr (.wr (.reach hs)))

theorem Keeps.telSend (hs : Keeps s₀ s) : Keeps s₀ s.telSend := by
  unfold State.telSend
  split
  · exact hs
  · exact .ite hs (.count (.foldl (fun _ _ hu => .ethQueue hu) (.setPwr hs)))

theorem Keeps.telDrop (hs : Keeps s₀ s) {t : Nat} : Keeps s₀ (s.telDrop t) := by
  unfold State.telDrop
  split
  · exact .ite hs (.event (.count (.setPwr (.reach hs))))
  · exact hs

/-! #### Sys2Proof/Machine/Board.lean -/

theorem Keeps.mctpSay (hs : Keeps s₀ s) {command completion : Nat} {data : List Nat} :
    Keeps s₀ (s.mctpSay command completion data) := .emit hs

theorem Keeps.setEid (hs : Keeps s₀ s) {op eid : Nat} : Keeps s₀ (s.setEid op eid) :=
  .ite (.mctpSay hs) (.mctpSay (.setPwr hs))

theorem Keeps.boardSay (hs : Keeps s₀ s) {code : Nat} {bs : List Byte} : Keeps s₀ (s.boardSay code bs) := .emit hs

theorem Keeps.lastTelemetry (hs : Keeps s₀ s) : Keeps s₀ s.lastTelemetry := by
  unfold State.lastTelemetry
  split
  · exact .boardSay hs
  · exact .useFree (.boardSay hs)

theorem Keeps.setPortLink (hs : Keeps s₀ s) {p : Nat} {x : PortLink} : Keeps s₀ (s.setPortLink p x) := .frame hs

theorem Keeps.perstRelease (hs : Keeps s₀ s) {p : Nat} : Keeps s₀ (s.perstRelease p) :=
  .ite hs (.ite (.portTrain (.setPortLink hs)) (.setPortLink hs))

theorem Keeps.chipletDown (hs : Keeps s₀ s) {c : Nat} : Keeps s₀ (s.chipletDown c) :=
  .foldl
    (fun _ _ hu => .ite (.event (.wr (.setEthPort (.countN hu)))) hu)
    (.foldl (fun _ _ hu => .ite hu (.linkDown hu)) hs)

theorem Keeps.railLoss (hs : Keeps s₀ s) : Keeps s₀ s.railLoss := .setCast (.coldState (.ite (.emit hs) hs))

theorem Keeps.setTap (hs : Keeps s₀ s) {x : Tap} : Keeps s₀ (s.setTap x) := .frame hs

/-! #### Sys2Proof/Machine/Eth.lean -/

theorem Keeps.police (hs : Keeps s₀ s) {d k t len : Nat} : Keeps s₀ (s.police d k t len).1 :=
  .ite_fst hs (.ite_fst (.frame hs) (.frame hs))

theorem Keeps.noTarget (hs : Keeps s₀ s) {p : Nat} : Keeps s₀ (s.noTarget p) := .event (.count hs)

theorem Keeps.ethFwd (hs : Keeps s₀ s) {p : Nat} {a : EthAction} {f : List Byte} {x : Option Parsed} :
    Keeps s₀ (s.ethFwd p a f x) := by
  unfold State.ethFwd
  dsimp only
  split
  · exact .ethForward hs
  · exact .noTarget hs

theorem Keeps.rmaDeliver (hs : Keeps s₀ s) {src : Option (List Byte)} {t : Nat} {p : List Byte} :
    Keeps s₀ (s.rmaDeliver src t p) := by
  unfold State.rmaDeliver
  split
  · exact .respIn hs
  · exact .rmaAckIn hs
  · exact .rmaNakIn hs
  · exact .rmaRequest hs

theorem Keeps.ethRma (hs : Keeps s₀ s) {t : Nat} {f : List Byte} {x : Option Parsed} :
    Keeps s₀ (s.ethRma t f x) := by
  unfold State.ethRma
  split
  · exact .count hs
  · exact .ite (.count hs) (by split; exacts [.rmaDeliver hs, .event (.count hs)])

theorem Keeps.ethCarder (hs : Keeps s₀ s) {p stream stamp : Nat} {f : List Byte} {x : Option Parsed} :
    Keeps s₀ (s.ethCarder p stream stamp f x) := .ite (.noTarget hs) (.rtpPacket hs)

theorem Keeps.ethIn (hs : Keeps s₀ s) {p t : Nat} {f : List Byte} {fcsOk : Bool} : Keeps s₀ (s.ethIn p t f fcsOk) := by
  unfold State.ethIn
  extract_lets len u₁ u₂ x m a u₃ stamp
  have h₁ : Keeps s₀ u₁ := .reach hs
  have h₂ : Keeps s₀ u₂ := .countN (.count h₁)
  have h₃ : Keeps s₀ u₃ := .ite (.count h₂) h₂
  have h₄ : Keeps s₀ (u₃.police (p / 8) a.policer t len).1 := .police h₃
  refine .ite hs (.ite (.count h₁) (.ite (.count h₁) (.ite (.count h₂) ?_)))
  split <;> rename_i hp <;> rw [hp] at h₄
  · exact .count h₄
  · split
    · exact .ethFwd h₄
    · exact .ethRma h₄
    · exact .ethCarder h₄
    · exact .ite (.noTarget h₄) (.emit h₄)
    · exact .count h₄

theorem Keeps.ethSend (hs : Keeps s₀ s) {p t : Nat} {f : EthTx} : Keeps s₀ (s.ethSend p t f) :=
  .emit (.countN (.count (.setEthPort hs)))

theorem Keeps.ethOut (hs : Keeps s₀ s) {p t : Nat} : Keeps s₀ (s.ethOut p t) :=
  .ite
    hs
    (by
      dsimp only
      split
      · exact .ethSend (.reach hs)
      · split
        · exact .ethSend (.reach hs)
        · split
          · exact .ethSend (.setEthPort (.reach hs))
          · exact .reach hs)

theorem Keeps.portDown (hs : Keeps s₀ s) {p t : Nat} : Keeps s₀ (s.portDown p t) :=
  .ite hs (.event (.wr (.setEthPort (.countN (.reach hs)))))

theorem Keeps.portRetry (hs : Keeps s₀ s) {p t : Nat} : Keeps s₀ (s.portRetry p t) := .ite (.wf (.reach hs)) hs

theorem Keeps.portUp (hs : Keeps s₀ s) {p : Nat} : Keeps s₀ (s.portUp p) := .ite (.wf hs) hs

theorem Keeps.setStage (hs : Keeps s₀ s) {d : Nat} {r : List Nat} : Keeps s₀ (s.setStage d r) := .frame hs

theorem Keeps.rselWrite (hs : Keeps s₀ s) {via : Via} {d : Nat} {v : Word} : Keeps s₀ (s.rselWrite via d v) :=
  .ite (.reject hs) (.setStage (.wr hs))

theorem Keeps.ruleCommit (hs : Keeps s₀ s) {via : Via} {d : Nat} {v : Word} : Keeps s₀ (s.ruleCommit via d v) :=
  .ite (.frame (.setStage hs)) (.reject hs)

theorem Keeps.policerWrite (hs : Keeps s₀ s) {via : Via} {n : Nat} {v : Word} :
    Keeps s₀ (s.policerWrite via n v) := .ite hs (.ite (.reject hs) (.frame (.wr hs)))

theorem Keeps.ptpIn (hs : Keeps s₀ s) {p t : Nat} {m : PtpMsg} : Keeps s₀ (s.ptpIn p t m) := by
  unfold State.ptpIn
  dsimp only
  split
  · exact .ite (.frame (.reach hs)) (.reach hs)
  · split
    · exact .ite (.emit (.frame (.reach hs))) (.reach hs)
    · exact .reach hs
  · split
    · exact .ite (.measure (.frame (.reach hs))) (.reach hs)
    · exact .reach hs
  · exact .emit (.reach hs)

theorem Keeps.tbHoldover (hs : Keeps s₀ s) {t : Nat} : Keeps s₀ (s.tbHoldover t) :=
  .ite (.frame (.event (.setTbState (.reach hs)))) hs

/-! #### Sys2Proof/Machine/Firmware.lean -/

theorem Keeps.fwEnd (hs : Keeps s₀ s) {st : Nat} : Keeps s₀ (s.fwEnd st) :=
  .ite (.wf (.wf (.wf hs))) (.event (.fwPhase (.wf (.wf (.wf hs)))))

theorem Keeps.markStaged (hs : Keeps s₀ s) {kind : Nat} {i : SlotImage} : Keeps s₀ (s.markStaged kind i) :=
  .measureStaged (.event (.setStaged (.dirWrite hs)))

theorem Keeps.markEmpty (hs : Keeps s₀ s) {kind : Nat} : Keeps s₀ (s.markEmpty kind) :=
  .measureStaged (.setStaged (.dirWrite hs))

theorem Keeps.fwStage (hs : Keeps s₀ s) {kind : Nat} {i : SlotImage} {p : Pattern} {flashOk : Bool} :
    Keeps s₀ (s.fwStage kind i p flashOk) := .ite (.fwEnd (.markStaged hs)) (.fwEnd hs)

theorem Keeps.fwCommand (hs : Keeps s₀ s) {kind op : Nat} : Keeps s₀ (s.fwCommand kind op) := by
  unfold State.fwCommand
  dsimp only
  split
  · exact .fwEnd hs
  · exact .ite
        (.fwEnd hs)
        (.ite
          (.fwEnd (.markEmpty hs))
          (.ite
            (.fwEnd hs)
            (.ite
              (.fwEnd hs)
              (.ite
                (.fwEnd (.foldl (fun _ _ hu => .emit hu) (.wr hs)))
                (.emit (.fwPhase (.wf (.wr (.setCast hs)))))))))

theorem Keeps.fwCmdWrite {via : Via} {v : Word} {k : Nat → State → State}
    (hk : ∀ x u, Keeps s₀ u → Keeps s₀ (k x u)) (hs : Keeps s₀ s) : Keeps s₀ (s.fwCmdWrite via v k) :=
  .hubOnly (fun _ hu => .ite (.wr hu) (.ite (.fwEnd (.wr hu)) (.ite (hk _ _ (.wr hu)) (.fwCommand (.wr hu))))) hs

theorem Keeps.setRecv (hs : Keeps s₀ s) {r : Option FwRecv} : Keeps s₀ (s.setRecv r) := .setCast hs

theorem Keeps.fwMessage (hs : Keeps s₀ s) {part : Nat} {m : FwMsg} : Keeps s₀ (s.fwMessage part m) := by
  unfold State.fwMessage
  split
  · exact .ite hs (.setRecv hs)
  · split
    · exact hs
    · dsimp only
      split
      · exact .setRecv hs
      · exact .ite (.ite (.setRecv hs) (.count (.setRecv hs))) (.setRecv hs)
      · exact .setRecv hs

theorem Keeps.repairStart (hs : Keeps s₀ s) {t : Nat} {flashOk : Bool} : Keeps s₀ (s.repairStart t flashOk) := by
  unfold State.repairStart
  split
  · exact hs
  · exact .ite
        hs
        (.ite
          (.ite (.emit (.fwPhase (.markStaged (.setRecv (.reach hs))))) (.emit (.fwEnd (.setRecv (.reach hs)))))
          (.ite (.emit (.fwEnd (.setRecv (.reach hs)))) (.emit (.fwPhase (.setRecv (.reach hs))))))

theorem Keeps.fwRepairRequest (hs : Keeps s₀ s) {part : Nat} {d : List Byte} {ks : List Nat} :
    Keeps s₀ (s.fwRepairRequest part d ks) :=
  .foldl (fun _ _ hu => by split; exacts [.emit hu, hu]) (by split; exacts [.emit hs, hs])

theorem Keeps.prepareIn (hs : Keeps s₀ s) {part kind : Nat} {d : List Byte} : Keeps s₀ (s.prepareIn part kind d) :=
  .emit hs

theorem Keeps.fwAbort (hs : Keeps s₀ s) {l : FwLead} : Keeps s₀ (s.fwAbort l) := .fwEnd (.emit (.setCast hs))

theorem Keeps.confAdd (hs : Keeps s₀ s) {hi lo : Nat} : Keeps s₀ (s.confAdd hi lo) := .wf hs

theorem Keeps.answerIn (hs : Keeps s₀ s) {part : Nat} {a : FwAnswer} : Keeps s₀ (s.answerIn part a) := by
  unfold State.answerIn
  split
  · exact .confAdd hs
  · exact .confAdd hs
  · exact .ite hs (.ite (.wf (.setCast hs)) (.fwPhase (.fwEnd (.emit (.setCast (.wf (.setCast hs)))))))
  · exact .fwAbort (.confAdd hs)
  · exact hs

theorem Keeps.prepareTimeout (hs : Keeps s₀ s) {t : Nat} : Keeps s₀ (s.prepareTimeout t) := by
  unfold State.prepareTimeout
  split
  · exact .ite (.fwAbort (.reach hs)) hs
  · exact hs

theorem Keeps.commitIn (hs : Keeps s₀ s) {kind b : Nat} : Keeps s₀ (s.commitIn kind b) := by
  unfold State.commitIn
  split
  · exact hs
  · exact .share
        (fun h₁ => .ite (.evidenceSync (.fwPhase (.event (.dirWrite hs)))) (.evidenceSync (.ite h₁ (.fwTry h₁))))
        (.setCast (.fwPhase (.event (.dirWrite hs))))

theorem Keeps.restartCores (hs : Keeps s₀ s) : Keeps s₀ s.restartCores := by
  unfold State.restartCores
  dsimp only
  split
  · exact .measureStaged (.measureAll (.fwPhase (.svnBurn (.setCast (.wf (.dirWrite (.setStaged (.runImage (.setTrust (.foldl
        (fun _ _ hu => .event (.count hu))
        (.ite (.fwTry hs) hs)))))))))))
  · exact .ite (.fwTry hs) hs

theorem Keeps.updateLost (hs : Keeps s₀ s) : Keeps s₀ s.updateLost := by
  unfold State.updateLost
  split
  · exact .fwEnd (.markEmpty (.setRecv hs))
  · exact hs

theorem Keeps.watchdog (hs : Keeps s₀ s) {c t : Nat} : Keeps s₀ (s.watchdog c t) :=
  .share
    (fun h₁ =>
      .ite
        hs
        (.ite
          (.evidenceSync (.foldl (fun _ _ hu => .reportStatus hu) (.event (.wf h₁))))
          (.evidenceSync (.event (.count (.setCast (.wf h₁)))))))
    (.ite (.updateLost (.setTrust (.reach hs))) (.setTrust (.reach hs)))

theorem Keeps.coreBack (hs : Keeps s₀ s) {c : Nat} : Keeps s₀ (s.coreBack c) := .ite (.evidenceSync (.wf hs)) hs

/-! #### Sys2Proof/Machine/HostReset.lean -/

theorem Keeps.hostLose (hs : Keeps s₀ s) {p : Nat} {arrived : List CopyArrival} :
    Keeps s₀ (s.hostLose p arrived) := .event (.count (.wf (.ctlLost (.copiesDrop hs))))

theorem Keeps.heartbeatLook (hs : Keeps s₀ s) {p : Nat} {arrived : List CopyArrival} :
    Keeps s₀ (s.heartbeatLook p arrived) := .ite hs (.ite (.frame hs) (.ite (.hostLose (.wf hs)) (.wf hs)))

theorem Keeps.heartbeatCheck (hs : Keeps s₀ s) {t : Nat} {arrived : List CopyArrival} :
    Keeps s₀ (s.heartbeatCheck t arrived) := .ite hs (.heartbeatLook (.heartbeatLook (.reach (.frame hs))))

theorem Keeps.msixReset (hs : Keeps s₀ s) {p : Nat} {fns : List Nat} : Keeps s₀ (s.msixReset p fns) := .frame hs

theorem Keeps.pasidClear (hs : Keeps s₀ s) {p fn : Nat} : Keeps s₀ (s.pasidClear p fn) := .frame hs

theorem Keeps.flr (hs : Keeps s₀ s) {p fn : Nat} {arrived : List CopyArrival} : Keeps s₀ (s.flr p fn arrived) :=
  .ite
    hs
    (by
      split
      · exact .setTrust (.msixReset hs)
      · exact .frame (.pasidClear (.msixReset (.copyQueuesOff hs)))
      · exact .ctlReset hs
      · exact hs)

theorem Keeps.portRegs (hs : Keeps s₀ s) {p : Nat} : Keeps s₀ (s.portRegs p) :=
  hs.update rfl (SMapWf_filter _ _ _) (fun h => h.filter _) id id

theorem Keeps.portReset (hs : Keeps s₀ s) {p : Nat} {perst : Bool} {arrived : List CopyArrival} :
    Keeps s₀ (s.portReset p perst arrived) :=
  .share
    (fun h₁ => .ite hs (.ite (.setPortLink h₁) (.ite (.portTrain h₁) (.setPortLink h₁))))
    (.portRegs (.frame (.pasidClear (.setCtl (.msixReset (.flr (.flr (.flr hs))))))))

theorem Keeps.reclaim (hs : Keeps s₀ s) {via : Via} {n : Nat} {v : Word} {arrived : List CopyArrival} :
    Keeps s₀ (s.reclaim via n v arrived) :=
  .ite hs (by split; exacts [.ite (.wf (.wf (.frame (.flr (.flr hs))))) (.reject hs), .reject hs, hs])

theorem Keeps.nvmeReadFail (hs : Keeps s₀ s) {p : Nat} : Keeps s₀ (s.nvmeReadFail p) := by
  unfold State.nvmeReadFail
  split
  · exact .ite (.ioTake (fun _ _ _ hu => .nvmePost hu) hs) hs
  · exact hs

theorem Keeps.dmaReadFail (hs : Keeps s₀ s) {u : DmaUnit} {data : List HostChunk} {timeout : Bool} :
    Keeps s₀ (s.dmaReadFail u data timeout) := by
  unfold State.dmaReadFail
  split
  · exact .ite hs (.copyReadFail (.ite (.aerError hs) hs))
  · exact .nvmeReadFail (.ite (.aerError hs) hs)

/-! #### Sys2Proof/Machine/Spdm.lean -/

theorem Keeps.setSpdm (hs : Keeps s₀ s) {p : Nat} {x : Spdm} : Keeps s₀ (s.setSpdm p x) := .setTrust hs

theorem Keeps.spdmSay (hs : Keeps s₀ s) {p : Nat} {m : List Byte} : Keeps s₀ (s.spdmSay p m) := .emit hs

theorem Keeps.spdmError (hs : Keeps s₀ s) {p code : Nat} : Keeps s₀ (s.spdmError p code) := .spdmSay hs

theorem Keeps.spdmTake {p code stage : Nat} {req : List Byte} {k : State → Spdm → State}
    (hk : ∀ u x, Keeps s₀ u → Keeps s₀ (k u x)) (hs : Keeps s₀ s) : Keeps s₀ (s.spdmTake p code stage req k) :=
  .ite hs (.ite (.spdmError hs) (.ite (.spdmError hs) (.ite (.spdmError hs) (hk _ _ hs))))

theorem Keeps.spdmVersion (hs : Keeps s₀ s) {p : Nat} {req : List Byte} : Keeps s₀ (s.spdmVersion p req) :=
  .spdmTake (fun _ _ hu => .spdmSay (.setSpdm hu)) hs

theorem Keeps.spdmCaps (hs : Keeps s₀ s) {p : Nat} {req : List Byte} : Keeps s₀ (s.spdmCaps p req) :=
  .spdmTake (fun _ _ hu => .spdmSay (.setSpdm (.useFree hu))) hs

theorem Keeps.spdmAlgs (hs : Keeps s₀ s) {p : Nat} {req : List Byte} : Keeps s₀ (s.spdmAlgs p req) :=
  .spdmTake (fun _ _ hu => .spdmSay (.setSpdm hu)) hs

theorem Keeps.spdmDigests (hs : Keeps s₀ s) {p : Nat} {req : List Byte} : Keeps s₀ (s.spdmDigests p req) :=
  .spdmTake (fun _ _ hu => .spdmSay (.setSpdm hu)) hs

theorem Keeps.spdmCert (hs : Keeps s₀ s) {p : Nat} {req : List Byte} : Keeps s₀ (s.spdmCert p req) :=
  .spdmTake (fun _ _ hu => .ite (.spdmError hu) (.spdmSay (.setSpdm hu))) hs

theorem Keeps.spdmChallenge (hs : Keeps s₀ s) {p : Nat} {req : List Byte} : Keeps s₀ (s.spdmChallenge p req) :=
  .spdmTake (fun _ _ hu => .ite (.spdmError hu) (.spdmSay (.setSpdm (.drew hu)))) hs

theorem Keeps.spdmMeasure (hs : Keeps s₀ s) {p : Nat} {req : List Byte} : Keeps s₀ (s.spdmMeasure p req) :=
  .spdmTake
    (fun _ _ hu => .ite (.spdmError hu) (.ite (.spdmSay (.setSpdm (.drew hu))) (.spdmSay (.setSpdm (.drew hu)))))
    hs

theorem Keeps.vendorStatus (hs : Keeps s₀ s) {p code st : Nat} : Keeps s₀ (s.vendorStatus p code st) := .emit hs

theorem Keeps.getEvidence (hs : Keeps s₀ s) {p code : Nat} {q : List Byte} : Keeps s₀ (s.getEvidence p code q) :=
  .ite
    hs
    (.ite
      (.vendorStatus hs)
      (.ite
        (.vendorStatus hs)
        (.ite
          (.vendorStatus hs)
          (.ite (.emit (.count hs)) (.emit (.count (.evidenceSync (.setTrust (.drew (.drew hs))))))))))

theorem Keeps.getIdcert (hs : Keeps s₀ s) {p : Nat} {q : List Byte} : Keeps s₀ (s.getIdcert p q) :=
  .ite hs (.ite (.vendorStatus hs) (.ite (.vendorStatus hs) (.ite (.vendorStatus hs) (.emit hs))))

theorem Keeps.grantLoad (hs : Keeps s₀ s) {n : Nat} {g : List Byte} : Keeps s₀ (s.grantLoad n g) :=
  .trustShow (.count (.foldl (fun _ _ hu => .ite (.setTrust hu) (.cipherLoad hu)) (.setTrust hs)))

theorem Keeps.releaseRefuse (hs : Keeps s₀ s) {p st : Nat} : Keeps s₀ (s.releaseRefuse p st) :=
  .vendorStatus (.event (.count hs))

theorem Keeps.release (hs : Keeps s₀ s) {p : Nat} {q : List Byte} {mismatch : Bool} :
    Keeps s₀ (s.release p q mismatch) :=
  .ite
    hs
    (.ite
      (.vendorStatus hs)
      (.ite
        (.releaseRefuse hs)
        (.ite
          (.releaseRefuse (.ite hs (.setTrust hs)))
          (.ite
            (.releaseRefuse hs)
            (.ite
              (.releaseRefuse (.setTrust hs))
              (.ite
                (.releaseRefuse (.privMismatch (fun _ hu => .setTrust hu) hs))
                (by
                  split
                  · exact .releaseRefuse (.setTrust hs)
                  · exact .ite
                        (.releaseRefuse (.setTrust hs))
                        (.vendorStatus (.evidenceSync (.grantLoad (.setTrust hs)))))))))))

/-! #### Sys2Proof/Machine/Life.lean -/

theorem Keeps.lcFuses (hs : Keeps s₀ s) {q : List Byte} : Keeps s₀ (s.lcFuses q) :=
  .ite (.frame (.drew hs)) (.ite (.frame hs) (.ite (.frame hs) (.frame hs)))

theorem Keeps.lcRequest (hs : Keeps s₀ s) {p : Nat} {q : List Byte} : Keeps s₀ (s.lcRequest p q) :=
  .ite hs (.ite (.vendorStatus (.ite (.sigFail hs) hs)) (.warmState (.vendorStatus (.fusesRead (.lcFuses hs)))))

/-! #### Sys2Proof/Machine/Mem.lean -/

theorem Keeps.memCe (hs : Keeps s₀ s) {a : Nat} : Keeps s₀ (s.memCe a) := by
  unfold State.memCe
  split
  · exact hs
  · exact .ite (.failureWarning (.event (.frame (.count hs)))) (.frame (.count hs))

theorem Keeps.memUe (hs : Keeps s₀ s) {a : Nat} : Keeps s₀ (s.memUe a) := by
  unfold State.memUe
  split
  · exact hs
  · extract_lets w u₁
    have h₁ : Keeps s₀ u₁ :=
      hs.update rfl id id id (SMapWf_foldl_store (fun _ => false) (fun k => k) (fun _ _ => true) _ _)
    exact .report (.event (.count (.wr (.wr h₁))))

theorem Keeps.memErrors (hs : Keeps s₀ s) {ce ue : List Nat} : Keeps s₀ (s.memErrors ce ue) :=
  .foldl (fun _ _ hu => .memUe hu) (.foldl (fun _ _ hu => .memCe hu) hs)

theorem Keeps.setArb (hs : Keeps s₀ s) {k : Nat} {a : Arbiter} : Keeps s₀ (s.setArb k a) := .frame hs

theorem Keeps.arbCount (hs : Keeps s₀ s) {k a : Nat} : Keeps s₀ (s.arbCount k a) := .ite (.count hs) hs

theorem Keeps.arbDecide (hs : Keeps s₀ s) {k : Nat} {rs : List ArbReq} {withdrawn : Bool} :
    Keeps s₀ (s.arbDecide k rs withdrawn) := by
  unfold State.arbDecide
  dsimp only
  split
  · exact .setArb (.ite (.arbCount hs) hs)
  · exact .ite (.arbCount (.setArb (.ite (.arbCount hs) hs))) (.arbCount (.setArb (.ite (.arbCount hs) hs)))

theorem Keeps.memTransfer (hs : Keeps s₀ s) {k : Nat} {ce ue : List Nat} {cached : Option Bool} :
    Keeps s₀ (s.memTransfer k ce ue cached) := by
  unfold State.memTransfer
  dsimp only
  split
  · exact hs
  · exact .ite
        hs
        (by
          split
          · exact .count (.memErrors (.setArb hs))
          · exact .count (.memErrors (.setArb hs))
          · exact .memErrors (.setArb hs))

/-! #### Sys2Proof/Machine/NvmeAdmin.lean -/

theorem Keeps.adminData (hs : Keeps s₀ s) {p : Nat} {e : NvmeEntry} {bs : List Byte} :
    Keeps s₀ (s.adminData p e bs) := .nvmePost (.emit hs)

theorem Keeps.identify (hs : Keeps s₀ s) {p : Nat} {e : NvmeEntry} : Keeps s₀ (s.identify p e) := by
  unfold State.identify
  dsimp only
  split
  · exact .ite (.adminData hs) (.nvmePost hs)
  · exact .adminData hs
  · exact .ite (.nvmePost hs) (.adminData hs)
  · exact .ite (.adminData hs) (.nvmePost hs)
  · exact .nvmePost hs

theorem Keeps.getLog (hs : Keeps s₀ s) {p : Nat} {e : NvmeEntry} : Keeps s₀ (s.getLog p e) := by
  unfold State.getLog
  dsimp only
  split
  iterate 3 exact .adminData hs
  · exact .nvmePost hs

theorem Keeps.abortCmd (hs : Keeps s₀ s) {p : Nat} {e : NvmeEntry} : Keeps s₀ (s.abortCmd p e) :=
  .ite (.foldl (fun _ _ hu => .detachCheck hu) (.nvmePost (.nvmePost (.frame hs)))) (.nvmePost hs)

theorem Keeps.setFeature (hs : Keeps s₀ s) {p : Nat} {e : NvmeEntry} : Keeps s₀ (s.setFeature p e) :=
  .ite
    (.nvmePost hs)
    (.ite
      (.nvmePost hs)
      (.ite
        (.ite (.nvmePost hs) (.ite (.nvmePost hs) (.nvmePost hs)))
        (.ite (.eventReport (.nvmePost (.setCtl hs))) (.nvmePost hs))))

theorem Keeps.getFeature (hs : Keeps s₀ s) {p : Nat} {e : NvmeEntry} : Keeps s₀ (s.getFeature p e) :=
  .ite (.nvmePost hs) (.ite (.nvmePost hs) (.ite (.nvmePost hs) (.nvmePost hs)))

theorem Keeps.asyncRequest (hs : Keeps s₀ s) {p : Nat} {e : NvmeEntry} : Keeps s₀ (s.asyncRequest p e) :=
  .eventReport (.setCtl hs)

theorem Keeps.selfTest (hs : Keeps s₀ s) {p : Nat} {e : NvmeEntry} : Keeps s₀ (s.selfTest p e) :=
  .ite
    (.nvmePost hs)
    (.ite (.nvmePost (.testEnd hs)) (.ite (.nvmePost hs) (.ite (.nvmePost hs) (.nvmePost (.setCtl hs)))))

theorem Keeps.testResume (hs : Keeps s₀ s) {p t : Nat} : Keeps s₀ (s.testResume p t) := by
  unfold State.testResume
  dsimp only
  split
  · exact .ite (.setCtl (.reach hs)) hs
  · exact hs

theorem Keeps.testComplete (hs : Keeps s₀ s) {p : Nat} {failed : Option Nat} :
    Keeps s₀ (s.testComplete p failed) := by
  unfold State.testComplete
  split
  · exact hs
  · exact .ite
        hs
        (by
          dsimp only
          split
          · exact .testEnd (.ite (.foldl (fun _ _ hu => by split; exacts [.emit hu, hu]) hs) hs)
          · exact .share
                (fun h₁ => .ite h₁ (.reportStatus h₁))
                (.event (.testEnd (.ite (.foldl (fun _ _ hu => by split; exacts [.emit hu, hu]) hs) hs))))

/-! #### Sys2Proof/Machine/Snap.lean -/

theorem Keeps.setSnap (hs : Keeps s₀ s) {b : Nat} {x : SnapBlk} : Keeps s₀ (s.setSnap b x) := .frame hs

theorem Keeps.copyAt (hs : Keeps s₀ s) {p : Nat → Bool} {clr : Bool} : Keeps s₀ (s.copyAt p clr) :=
  hs.update rfl id (fun h => by cases clr; exacts [h, h.filter _]) id id

theorem Keeps.startBlkCopy (hs : Keeps s₀ s) {b : Nat} {clr : Bool} : Keeps s₀ (s.startBlkCopy b clr) :=
  .setSnap (.copyAt hs)

theorem Keeps.startGlbCopy (hs : Keeps s₀ s) {clr : Bool} : Keeps s₀ (s.startGlbCopy clr) := .setSnap (.copyAt hs)

theorem Keeps.snapGo (hs : Keeps s₀ s) {b : Nat} {clr : Bool} : Keeps s₀ (s.snapGo b clr) :=
  .ite (.ite (.setSnap hs) (.startGlbCopy hs)) (.ite (.setSnap hs) (.startBlkCopy hs))

theorem Keeps.bumpSnapSeq (hs : Keeps s₀ s) {b : Nat} : Keeps s₀ (s.bumpSnapSeq b) := .wr hs

theorem Keeps.startArmed (hs : Keeps s₀ s) {bs : List Nat} : Keeps s₀ (s.startArmed bs) :=
  .ite hs (.ite (.ite hs (.startGlbCopy hs)) (.foldl (fun _ _ hu => .ite (.startBlkCopy hu) hu) hs))

theorem Keeps.snapEnd (hs : Keeps s₀ s) {b : Nat} : Keeps s₀ (s.snapEnd b) :=
  .ite
    (.ite
      (.startArmed (.foldl (fun _ _ hu => .bumpSnapSeq hu) (.setSnap hs)))
      (.startArmed (.bumpSnapSeq (.setSnap hs))))
    hs

/-! #### Sys2Proof/Machine/RegRead.lean -/

theorem Keeps.tvFix (hs : Keeps s₀ s) {a : Nat} : Keeps s₀ (s.tvFix a) := .ite hs (.count (.frame hs))

theorem Keeps.readDword (hs : Keeps s₀ s) {via : Via} {o : Nat} : Keeps s₀ (s.readDword via o).1 := by
  unfold State.readDword
  split
  iterate 3 exact hs
  · exact .tvFix hs
  · exact hs
  · exact hs
  · split
    · exact hs
    · exact .useFree hs

theorem Keeps.readAccess (hs : Keeps s₀ s) {via : Via} {a : Access} : Keeps s₀ (s.readAccess via a) := by
  unfold State.readAccess
  split
  · exact .emit (.count hs)
  · refine .emit (Keeps.foldl_fst (p := (s, 0)) ?_ hs)
    exact fun _ _ hu => .readDword hu

theorem Keeps.readOn (hs : Keeps s₀ s) {via : Via} {a : Access} : Keeps s₀ (s.readOn via a) := by
  unfold State.readOn
  split
  · exact .ite (.readAccess hs) (.emit (.urRefuse hs))
  · exact .ite (.emit hs) (.readAccess hs)
  · exact .readAccess hs

/-! #### Sys2Proof/Machine/RegWrite.lean -/

theorem Keeps.put (hs : Keeps s₀ s) {r : RegRow} {a : Nat} {v : Word} : Keeps s₀ (s.put r a v) := .frame (.wr hs)

theorem Keeps.putIf (hs : Keeps s₀ s) {via : Via} {r : RegRow} {a : Nat} {v : Word} {bad : Bool} {st : Nat} :
    Keeps s₀ (s.putIf via r a v bad st) := .ite (.reject hs) (.put hs)

theorem Keeps.scWrite (hs : Keeps s₀ s) {a be : Nat} {v : Word} : Keeps s₀ (s.scWrite a be v) := .ite (.wr hs) hs

theorem Keeps.writeGlb (hs : Keeps s₀ s) {via : Via} {r : RegRow} {a i : Nat} {v : Word} :
    Keeps s₀ (s.writeGlb via r a i v) :=
  .ite (.gated (fun _ hu => .jobCmdWrite hu) hs) (.ite (.gated (fun _ hu => .put hu) hs) hs)

theorem Keeps.writeCast (hs : Keeps s₀ s) {via : Via} {r : RegRow} {a : Nat} {v : Word} :
    Keeps s₀ (s.writeCast via r a v) := .ite (.castCmdWrite hs) (.hubOnly (fun _ hu => .putIf hu) hs)

theorem Keeps.writeTrust (hs : Keeps s₀ s) {via : Via} {r : RegRow} {a i : Nat} {v : Word} :
    Keeps s₀ (s.writeTrust via r a i v) :=
  .ite
    (.hubOnly (fun _ hu => .put hu) hs)
    (.ite (.trustGated (fun _ hu => .trustCmdWrite hu) hs) (.trustGated (fun _ hu => .put hu) hs))

theorem Keeps.writeHost (hs : Keeps s₀ s) {via : Via} {r : RegRow} {a i : Nat} {v : Word} :
    Keeps s₀ (s.writeHost via r a i v) :=
  .ite
    (.heartbeatWrite hs)
    (.ite
      (.reclaim hs)
      (.gated
        (fun _ hu =>
          .ite
            (.sliceCmdWrite hu)
            (.ite
              (.putIf hu)
              (.ite
                (.ite hu (.putIf hu))
                (.ite (.ite hu (.putIf hu)) (.ite (.ite hu (.putIf hu)) (.ite (.ite hu (.put hu)) (.putIf hu)))))))
        hs))

theorem Keeps.writeLnk (hs : Keeps s₀ s) {via : Via} {r : RegRow} {a i : Nat} {v : Word} :
    Keeps s₀ (s.writeLnk via r a i v) := .hubOnly (fun _ hu => .ite (.linkCtlWrite hu) (.putIf hu)) hs

theorem Keeps.writeSwt (hs : Keeps s₀ s) {via : Via} {r : RegRow} {a i j : Nat} {v : Word} :
    Keeps s₀ (s.writeSwt via r a i j v) :=
  .hubOnly
    (fun _ hu =>
      .ite
        (.putIf hu)
        (.ite
          (.setDraft hu)
          (.ite
            (.commitEntry hu)
            (.ite (.commitEntry hu) (.ite (.setDraft hu) (.ite (.setDraft hu) (.ite (.commitGroup hu) hu)))))))
    hs

theorem Keeps.writeRma (hs : Keeps s₀ s) {via : Via} {r : RegRow} {a i : Nat} {v : Word} :
    Keeps s₀ (s.writeRma via r a i v) :=
  .ite
    (.hubOnly (fun _ hu => .putIf hu) hs)
    (.ite
      (.hubOnly (fun _ hu => .putIf hu) hs)
      (.ite
        (.gated (fun _ hu => .rmaCmdWrite hu) hs)
        (.ite
          (.shareGated (fun _ hu => .wqTailWrite hu) hs)
          (.ite
            (.shareGated (fun _ hu => .wqCqHeadWrite hu) hs)
            (.ite
              (.shareGated (fun _ hu => .ctrSet hu) hs)
              (.ite (.shareGated (fun _ hu => .ctrSet hu) hs) (.gated (fun _ hu => .put hu) hs)))))))

theorem Keeps.writeEth (hs : Keeps s₀ s) {via : Via} {r : RegRow} {a i j : Nat} {v : Word} :
    Keeps s₀ (s.writeEth via r a i j v) :=
  .hubOnly
    (fun _ hu =>
      .ite
        (.rselWrite hu)
        (.ite
          (.ite (.setStage hu) (.ruleCommit hu))
          (.ite
            (.policerWrite hu)
            (.ite
              (.policerWrite hu)
              (.ite (.putIf hu) (.ite (.putIf hu) (.ite (.putIf hu) (.ite (.putIf hu) (.put hu)))))))))
    hs

theorem Keeps.writeTws (hs : Keeps s₀ s) {via : Via} {r : RegRow} {a i : Nat} {v : Word} :
    Keeps s₀ (s.writeTws via r a i v) :=
  .ite
    (.hubOnly (fun _ hu => .putIf hu) hs)
    (.gated
      (fun _ hu => .ite (.twsSizeWrite hu) (.ite (.twsTailWrite hu) (.ite (.twsCqHeadWrite hu) (.twsRingWrite hu))))
      hs)

theorem Keeps.writeNdl (hs : Keeps s₀ s) {via : Via} {r : RegRow} {a i : Nat} {v : Word} :
    Keeps s₀ (s.writeNdl via r a i v) :=
  .ite
    (.hubOnly (fun _ hu => .putIf hu) hs)
    (.ite
      (by split; exacts [.put hs, hs])
      (.ite (.ndlGated (fun _ hu => .ndlCmdWrite hu) hs) (.ndlGated (fun _ hu => .put hu) hs)))

theorem Keeps.writeMem (hs : Keeps s₀ s) {via : Via} {r : RegRow} {a i be : Nat} {v : Word} :
    Keeps s₀ (s.writeMem via r a i be v) :=
  .ite (.hankGated (fun _ hu => .hankModeWrite hu) hs) (.hubOnly (fun _ hu => .putIf hu) hs)

theorem Keeps.writeCkp (hs : Keeps s₀ s) {via : Via} {r : RegRow} {a i : Nat} {v : Word} :
    Keeps s₀ (s.writeCkp via r a i v) :=
  .ite
    (.hubOnly (fun _ hu => .putIf hu) hs)
    (.gated
      (fun _ hu =>
        .ite (.ckpCmdWrite hu) (.ite (.putIf hu) (.ite (.putIf hu) (.ite (.putIf hu) (.ite (.putIf hu) (.put hu))))))
      hs)

theorem Keeps.ringWrite (hs : Keeps s₀ s) {via : Via} {r : RegRow} {a i : Nat} {v cfg : Word} {lo hi : Nat} :
    Keeps s₀ (s.ringWrite via r a i v cfg lo hi) := .putIf hs

theorem Keeps.writeSpn (hs : Keeps s₀ s) {via : Via} {r : RegRow} {a i : Nat} {v : Word} :
    Keeps s₀ (s.writeSpn via r a i v) :=
  .ite
    (.fwCmdWrite (fun _ _ hu => hu) hs)
    (.hubOnly
      (fun _ hu =>
        .ite
          (.putIf hu)
          (.ite (.ite (.reject hu) (.ringWrite hu)) (.ite (.ringWrite hu) (.ite (.ringWrite hu) (.put hu)))))
      hs)

theorem Keeps.writePage (hs : Keeps s₀ s) {via : Via} {r : RegRow} {a i j : Nat} {v : Word} :
    Keeps s₀ (s.writePage via r a i j v) :=
  .gated
    (fun _ hu =>
      .ite
        (.copyCfgWrite hu)
        (.ite
          (.copyRingWrite hu)
          (.ite
            (.copyRingWrite hu)
            (.ite
              (.copyRingWrite hu)
              (.ite (.copyTailWrite hu) (.ite (.copyRecords (.put hu)) (.ite (.notifyWrite hu) (.put hu))))))))
    hs

theorem Keeps.writeReg (hs : Keeps s₀ s) {via : Via} {a be : Nat} {w : Word} : Keeps s₀ (s.writeReg via a be w) := by
  unfold State.writeReg
  split
  · exact .ite (.hubOnly (fun _ hu => .ite (.snapGo hu) hu) hs) hs
  · dsimp only
    split
    · exact hs
    · exact .hubOnly (fun _ hu => .scWrite hu) hs
    · split
      · exact .writeGlb hs
      · exact .writeCast hs
      · exact .hubOnly (fun _ hu => .putIf hu) hs
      · exact .writeTrust hs
      · exact .writeHost hs
      · exact .writeLnk hs
      · exact .writeSwt hs
      · exact .writeRma hs
      · exact .writeEth hs
      · exact .writeTws hs
      · exact .writeNdl hs
      · exact .writeMem hs
      · exact .gated (fun _ hu => .ite (.optCmdWrite hu) (.optCfgWrite hu)) hs
      · exact .ite (.hubOnly (fun _ hu => .putIf hu) hs) (.gated (fun _ hu => .ite (.feedCmdWrite hu) (.put hu)) hs)
      · exact .writeCkp hs
      · exact .writeSpn hs
      · exact .writePage hs
      · exact hs

theorem Keeps.msixWrite (hs : Keeps s₀ s) {p fn o be : Nat} {w : Word} : Keeps s₀ (s.msixWrite p fn o be w) :=
  .ite hs (.ite (.ite (.emit (.frame (.frame hs))) (.frame hs)) (.frame hs))

theorem Keeps.msixFlush (hs : Keeps s₀ s) {p fn : Nat} : Keeps s₀ (s.msixFlush p fn) :=
  .foldl (fun _ _ hu => .emit (.frame hu)) hs

theorem Keeps.capWrite (hs : Keeps s₀ s) {p fn id o be : Nat} {w : Word} : Keeps s₀ (s.capWrite p fn id o be w) := by
  unfold State.capWrite
  dsimp only
  split
  · exact .ite (.msixFlush (.frame hs)) (.frame hs)
  · exact .frame hs
  · exact .frame hs
  · exact .ite (.frame hs) hs
  · exact .ite hs (.frame hs)
  · exact hs

theorem Keeps.nvmeWrite (hs : Keeps s₀ s) {p o be : Nat} {w : Word} : Keeps s₀ (s.nvmeWrite p o be w) :=
  .ite
    (.ccWrite hs)
    (.ite
      (.ite (.sqDoorbell hs) (.cqDoorbell hs))
      (.ite
        hs
        (.ite (.count hs) (by split; exacts [.setCtl hs, .setCtl hs, .setCtl hs, .setCtl hs, .setCtl hs, hs]))))

theorem Keeps.writeDword (hs : Keeps s₀ s) {via : Via} {o be : Nat} {w : Word} :
    Keeps s₀ (s.writeDword via o be w) := by
  unfold State.writeDword
  split
  · exact .count hs
  · exact hs
  · exact .hankGated (fun _ hu => .hankModeWrite hu) hs
  · exact .ite (.writeReg hs) hs
  · exact .msixWrite hs
  · exact .nvmeWrite hs
  · exact .capWrite hs

theorem Keeps.writeAccess (hs : Keeps s₀ s) {via : Via} {a : Access} : Keeps s₀ (s.writeAccess via a) := by
  unfold State.writeAccess
  split
  · exact .count hs
  · exact .foldl (fun _ _ hu => .writeDword hu) hs

theorem Keeps.writeOn (hs : Keeps s₀ s) {via : Via} {a : Access} : Keeps s₀ (s.writeOn via a) := by
  unfold State.writeOn
  split
  · exact .ite (.count hs) (.ite (.writeAccess hs) (.urRefuse hs))
  · exact .ite (.emit hs) (.writeAccess hs)
  · exact .writeAccess hs

theorem Keeps.access (hs : Keeps s₀ s) {via : Via} {a : Access} : Keeps s₀ (s.access via a) :=
  .ite (.writeOn hs) (.readOn hs)

theorem Keeps.boardRequest (hs : Keeps s₀ s) {code off : Nat} : Keeps s₀ (s.boardRequest code off) :=
  .ite hs (.ite (.boardSay hs) (.ite (.boardSay (.readDword hs)) (.useFree (.boardSay hs))))

end

/-! ### Every command -/

/-- Every command completes, and its next state keeps what `Keeps` says: one case for each of them, with the operation
that gives the command its meaning. -/
theorem exec_answers (c : Instr) (s : State) : Answers s (exec c s) := by
  have hs := Keeps.refl s
  cases c with
  | registerWrite => exact .next (.access hs)
  | scWriteBack => exact .next (.ite (.writeOn hs) hs)
  | tvRead => exact .next (.ite (.readOn hs) hs)
  | snapGo => exact .next (.ite (.snapGo hs) hs)
  | glbSnapGo => exact .next (.snapGo hs)
  | snapCopyEnd => exact .next (.snapEnd hs)
  | jobOpen | jobClose => exact .next (.gated (fun _ hu => .jobCmdWrite hu) hs)
  | beatInternalBoundary => exact .next (.beatInternal hs)
  | beatPulse => exact .next (.beatPulse hs)
  | beatGlitch => exact .next (.ite (.count (.event (.reach hs))) hs)
  | beatLate => exact .next (.beatLate hs)
  | holdoverBoundary => exact .next (.beatHoldover hs)
  | beatOutRise => exact .next (.beatRise hs)
  | beatOutFall => exact .next (.beatFall hs)
  | tallyExchange => exact .next (.tallyExchange hs)
  | twsQueueEnable => exact .next (.gated (fun _ hu => .twsSizeWrite hu) hs)
  | twsDqTailWrite => exact .next (.gated (fun _ hu => .twsTailWrite hu) hs)
  | twsCqHeadWrite => exact .next (.gated (fun _ hu => .twsCqHeadWrite hu) hs)
  | descriptorFetch => exact .next (.ite (.fetchDesc hs) hs)
  | descriptorStart | descriptorArm => exact .next (.startWhen hs)
  | contribReceive | gaugeBytesReceive | tokenReceive => exact .next (.receiveType (fun _ => .reducing hs) hs)
  | resultReceive => exact .next (.receiveType (fun _ => .recvResult hs) hs)
  | redoReceive => exact .next (.receiveType (fun _ => .recvRedo hs) hs)
  | redoPendingStart => exact .next (.startPendingRedo hs)
  | finalReceive => exact .next (.receiveType (fun _ => .recvFinal hs) hs)
  | gnoteReceive => exact .next (.receiveType (fun _ => .recvNote hs) hs)
  | releaseReceive => exact .next (.receiveType (fun _ => .recvRelease hs) hs)
  | twistAckReceive => exact .next (.takeAck hs)
  | twistRetxTimeout => exact .next (.retxTimeout hs)
  | blockAckReceive => exact .next (.blockAck hs)
  | collectiveComplete => exact .next (.completeColl hs)
  | stepEndComplete => exact .next (.completeStepEnd hs)
  | rowLoad | rowStart | rowPause | rowResume | rowSave | rowRestore | rowStop | rowRetire =>
    exact .next (.ndlGated (fun _ hu => .ndlCmdWrite hu) hs)
  | loadPassEnd => exact .next (.loadPassEnd hs)
  | repairRequest => exact .next (.repairRequest hs)
  | rowDigestCheck => exact .next (.digestCheck hs)
  | pauseTimeout => exact .next (.pauseTimeout hs)
  | rowHang => exact .next (.rowHang hs)
  | pbufUe => exact .next (.pbufUe hs)
  | rowFaultRecovery => exact .next (.faultRecovery hs)
  | paceUpdate | hankModeChangeDone => exact .next (.ite (.wf hs) hs)
  | aluAdd | aluSub | aluAnd | aluOr | aluXor | aluShl | aluShr | aluSar | mul | mulhu | mulhs | mins | maxs |
    minu | maxu | cmp | mov | popc | clz | addi | cmpi | movz | movk | andi | ori | xori | shli | shri | sari |
    ldb | ldh | ldw | ldd | stb | sth | stw | std | vld | vst | pld | pst | bCc | call | ret | rep | repn | chkb |
    sset | sget | draw | drawe | sdef | srd | vadd | vsub | vmul | vmax | vmin | vabs | vneg | vmov | vand | vor |
    vxor | vshl | vshr | vsar | vfma | vcmp | vsel | vcvt | vbcst | vext | vxch | gauge | pcvt | padd | pfin |
    tally | pmov | pzero | mld | mma | mclr | mrd | mst | nop | endRow | safe | rtt | rttNext | fclr | br | mfs |
    drst | waitb | waitt | fence | trap => exact .next (.needleStep hs)
  | waitbWake => exact .next (.waitbWake hs)
  | waittWake => exact .next (.waittWake hs)
  | memoryTransfer => exact .next (.memTransfer hs)
  | arbiterDecision => exact .next (.arbDecide hs)
  | ceRateWindow => exact .next (.ite (.frame (.reach hs)) hs)
  | patrolScrub => exact .next (.ite (.countN (.memErrors hs)) hs)
  | hbmRefresh => exact .next (.ite (.event (.count hs)) hs)
  | memHankModeWrite => exact .next (.hankGated (fun _ hu => .hankModeWrite hu) hs)
  | streamDeclare => exact .next (.ite hs (.ite (.frame hs) (.event (.countN (.frame hs)))))
  | optEnable | optDisable => exact .next (.gated (fun _ hu => .optCmdWrite hu) hs)
  | optWorkDispatch => exact .next (.optDispatch hs)
  | optItemStaged => exact .next (.optDone hs)
  | optCommit => exact .next (.optCommitSlot hs)
  | feedOpen | feedClose | feedRetarget => exact .next (.gated (fun _ hu => .feedCmdWrite hu) hs)
  | itemDecodeStart => exact .next (.startDecode hs)
  | itemDecodeDone => exact .next (.endDecode hs)
  | carderItemWrite => exact .next (.writeItem hs)
  | feedItemPacked => exact .next (.packItem hs)
  | feedStepWrite => exact .next (.writeStep hs)
  | feedStepDelivered => exact .next (.deliverStep hs)
  | feedReleaseReceive => exact .next (.releaseStep hs)
  | rtpPacket => exact .next (.rtpPacket hs)
  | frameAgeExpire => exact .next (.ageFrame (.reach hs))
  | ckpCheckpoint | ckpRestore => exact .next (.gated (fun _ hu => .ckpCmdWrite hu) hs)
  | checkpointRequest => exact .next (.ckpRequestIn hs)
  | checkpointCapture => exact .next (.ite (.drainCopy hs) hs)
  | backgroundPageCopy => exact .next (.backgroundCopy hs)
  | copyBeforeWrite => exact .next (by split; exacts [.ite (.count (.capturePage hs)) hs, hs])
  | pageArrive => exact .next (.pageArrive hs)
  | pushDigestsReceive => exact .next (.pushDigests hs)
  | pushConfirm => exact .next (.ite (.proposeHandover (.pushConfirm hs)) (.pushConfirm hs))
  | depotDrain => exact .next (.depotDrain hs)
  | keepaliveSend => exact .next (.frame (.foldl (fun _ _ hu => .emit (.ite hu (.count hu))) hs))
  | keepaliveReceive => exact .next (.keepaliveIn hs)
  | suspectTimeout => exact .next (.suspectTimeout hs)
  | suspectReport => exact .next (.suspectReport hs)
  | proposeReceive => exact .next (.proposeIn hs)
  | acceptReceive => exact .next (.acceptIn hs)
  | agreeTimeout => exact .next (.agreeTimeout hs)
  | holdTimeout => exact .next (.holdTimeout hs)
  | membershipCommit => exact .next (.commitMembership hs)
  | restoreRebuildDone => exact .next (.restoreRebuild hs)
  | linkDownRetry => exact .next (.linkRetry hs)
  | linkTrainDone => exact .next (.trainDone hs)
  | linkTrainTimeout => exact .next (.trainTimeout hs)
  | identRepeat => exact .next (.identRepeat hs)
  | identReceive => exact .next (.identIn hs)
  | helloReceive => exact .next (.helloIn hs)
  | flitReceive => exact .next (.flitIn hs)
  | linkAckSend => exact .next (.ite (.sendFlit hs) hs)
  | replayTimeout => exact .next (.replayLink hs)
  | linkSilenceTimeout => exact .next (.enterRetrain hs)
  | linkRetrainDone => exact .next (.retrainDone hs)
  | calSlot => exact .next (.calSlot hs)
  | tsyncSend => exact .next (.foldl (fun _ _ hu => .tsyncOut hu) (.reach hs))
  | tsyncReceive => exact .next (.tsyncIn hs)
  | linkDownCmd | linkRetrainCmd => exact .next (.hubOnly (fun _ hu => .linkCtlWrite hu) hs)
  | packetForward => exact .next (.packetForward hs)
  | swtRtCommit | swtEpCommit => exact .next (.hubOnly (fun _ hu => .ite (.commitEntry hu) hu) hs)
  | swtMcCommit => exact .next (.hubOnly (fun _ hu => .ite (.commitGroup hu) hu) hs)
  | edgeWackReceive => exact .next (.edgeWack hs)
  | edgeRdataReceive => exact .next (.edgeRdata hs)
  | epAliveReceive => exact .next (.setSuspect hs)
  | rmaOpen | rmaClose | rmaReset | regRegion | deregRegion | setPath | createWq | destroyWq | rmaFence | rmaQuery =>
    exact .next (.gated (fun _ hu => .rmaCmdWrite hu) hs)
  | deregComplete => exact .next (.deregDone hs)
  | fenceComplete => exact .next (.fenceDone hs)
  | rmaWqTailWrite => exact .next (.shareGated (fun _ hu => .wqTailWrite hu) hs)
  | rmaWqCqHeadWrite => exact .next (.shareGated (fun _ hu => .wqCqHeadWrite hu) hs)
  | workRequestStart => exact .next (.wrStart hs)
  | workRequestComplete => exact .next (.wqRecord hs)
  | rmaCtrValWrite | rmaCtrAdd => exact .next (.shareGated (fun _ hu => .ctrSet hu) hs)
  | rmaRequestReceive => exact .next (.rmaRequest hs)
  | rmaAckTimer => exact .next (.ite (.rmaAck hs) hs)
  | rmaAckReceive => exact .next (.rmaAckIn hs)
  | rmaNakReceive => exact .next (.rmaNakIn hs)
  | readRespReceive => exact .next (.respIn hs)
  | rmaTimeout => exact .next (.rmaExpire hs)
  | rmaWaitLimit => exact .next (.rmaWaitLimit hs)
  | ethFrameReceive => exact .next (.ethIn hs)
  | ethFrameTransmit => exact .next (.ethOut hs)
  | ethPortDown => exact .next (.portDown hs)
  | ethPortRetry => exact .next (.portRetry hs)
  | ethRselWrite => exact .next (.hubOnly (fun _ hu => .ite (.rselWrite hu) hu) hs)
  | ethRuleCommit => exact .next (.hubOnly (fun _ hu => .ite (.ruleCommit hu) hu) hs)
  | ethPolicerWrite => exact .next (.hubOnly (fun _ hu => .policerWrite hu) hs)
  | ptpMessage => exact .next (.ptpIn hs)
  | sliceReset | sliceFreeze | sliceThaw | sliceSave | sliceRestore | nsAttach | nsDetach =>
    exact .next (.gated (fun _ hu => .sliceCmdWrite hu) hs)
  | freezeComplete => exact .next (.freezeEnd hs)
  | bar2Access => exact .next (.bar2Access hs)
  | copyQueueEnable => exact .next (.ite (.gated (fun _ hu => .copyCfgWrite hu) hs) hs)
  | copyTailWrite => exact .next (.ite (.gated (fun _ hu => .copyTailWrite hu) hs) hs)
  | copyCqHeadWrite => exact .next (.ite (.gated (fun _ hu => .copyRecords (.wr hu)) hs) hs)
  | copyStart => exact .next (.copyStart hs)
  | copyComplete => exact .next (.copyFinish hs)
  | notifyArm => exact .next (.ite (.gated (fun _ hu => .notifyWrite hu) hs) hs)
  | heartbeat => exact .next (.heartbeatWrite hs)
  | heartbeatCheck => exact .next (.heartbeatCheck hs)
  | reclaim => exact .next (.reclaim hs)
  | portReset => exact .next (.portReset hs)
  | flr => exact .next (.flr hs)
  | dmaReadFail => exact .next (.dmaReadFail hs)
  | nvmeCcEnWrite => exact .next (.ccWrite hs)
  | nvmeSqDoorbell => exact .next (.sqDoorbell hs)
  | nvmeCreateIoSq => exact .next (.adminTake (fun _ _ hu => .createSq hu) hs)
  | nvmeCreateIoCq => exact .next (.adminTake (fun _ _ hu => .createCq hu) hs)
  | nvmeDeleteIoSq => exact .next (.adminTake (fun _ _ hu => .deleteSq hu) hs)
  | nvmeDeleteIoCq => exact .next (.adminTake (fun _ _ hu => .deleteCq hu) hs)
  | nvmeGetLogPage => exact .next (.adminTake (fun _ _ hu => .getLog hu) hs)
  | nvmeIdentify => exact .next (.adminTake (fun _ _ hu => .identify hu) hs)
  | nvmeAbort => exact .next (.adminTake (fun _ _ hu => .abortCmd hu) hs)
  | nvmeSetFeatures => exact .next (.adminTake (fun _ _ hu => .setFeature hu) hs)
  | nvmeGetFeatures => exact .next (.adminTake (fun _ _ hu => .getFeature hu) hs)
  | nvmeAsyncEventRequest => exact .next (.adminTake (fun _ _ hu => .asyncRequest hu) hs)
  | nvmeDeviceSelfTest => exact .next (.adminTake (fun _ _ hu => .selfTest hu) hs)
  | selfTestResume => exact .next (.testResume hs)
  | nvmeRead | nvmeWriteZeroes | nvmeLoad => exact .next (.ioTake (fun _ _ _ hu => .rangeCmd hu) hs)
  | nvmeWrite => exact .next (.writeCmd hs)
  | nvmeFlush => exact .next (.ioTake (fun _ _ _ hu => .flushCmd hu) hs)
  | nvmeDeallocate => exact .next (.ioTake (fun _ _ _ hu => .ite (.deallocate hu) (.nvmePost hu)) hs)
  | nsUnitFetchDone => exact .next (.unitFetched hs)
  | nsUnitDrain => exact .next (.unitDrain hs)
  | nsUnitDrainDone => exact .next (.unitDrained hs)
  | getVersion => exact .next (.spdmVersion hs)
  | getCapabilities => exact .next (.spdmCaps hs)
  | negotiateAlgorithms => exact .next (.spdmAlgs hs)
  | getDigests => exact .next (.spdmDigests hs)
  | getCertificate => exact .next (.spdmCert hs)
  | challenge => exact .next (.spdmChallenge hs)
  | getMeasurements => exact .next (.spdmMeasure hs)
  | getEvidence => exact .next (.getEvidence hs)
  | getIdcert => exact .next (.getIdcert hs)
  | release => exact .next (.release hs)
  | lcRequest => exact .next (.lcRequest hs)
  | releaseSessionExpire => exact .next (by split; exacts [.ite (.setTrust (.reach hs)) hs, hs])
  | drbgReseed => exact .next (.ite hs (.ite (.setTrust hs) (.alarm hs)))
  | trustLoad | trustErase | saveClear | saveWrapped | trustRestore | revoke =>
    exact .next (.trustGated (fun _ hu => .trustCmdWrite hu) hs)
  | alarm => exact .next (.ite (.alarm hs) hs)
  | coldReset => exact .next (.ite (.emit (.coldState hs)) (.coldState hs))
  | warmReset | bindOff => exact .next (.castCmdWrite hs)
  | bindOffComplete => exact .next (.bindOffEnd hs)
  | bindOffTimeout => exact .next (.bindOffTimeout hs)
  | castFuses => exact .next (.inPhase (fun _ hu => .castFuses hu) hs)
  | castVerify => exact .next (.inPhase (fun _ hu => .castVerify hu) hs)
  | castMeasure => exact .next (.inPhase (fun _ hu => .castMeasure hu) hs)
  | castAlign => exact .next (.inPhase (fun _ hu => .castAlign hu) hs)
  | castTest => exact .next (.inPhase (fun _ hu => .castTest hu) hs)
  | rowWave => exact .next (.rowWave hs)
  | castWipe => exact .next (.inPhase (fun _ hu => .castWipe hu) hs)
  | castApply => exact .next (.inPhase (fun _ hu => .castApply hu) hs)
  | castTopology => exact .next (.inPhase (fun _ hu => .castTopology hu) hs)
  | castReady => exact .next (.inPhase (fun _ hu => .castReady hu) hs)
  | watchdogExpire => exact .next (.watchdog hs)
  | throttleReport => exact .next (.throttleReport hs)
  | fwStage => exact .next (.fwCmdWrite (fun _ _ hu => .fwStage hu) hs)
  | fwDiscard | fwDistribute | fwActivate => exact .next (.fwCmdWrite (fun _ _ hu => hu) hs)
  | fwChunkReceive => exact .next (.fwMessage hs)
  | fwRepairStart => exact .next (.repairStart hs)
  | fwRepairRequest => exact .next (.fwRepairRequest hs)
  | prepareReceive => exact .next (.prepareIn hs)
  | readyReceive => exact .next (.answerIn hs)
  | prepareTimeout => exact .next (.prepareTimeout hs)
  | commitReceive => exact .next (.commitIn hs)
  | abortReceive => exact .next hs
  | fwRestartCores => exact .next (.restartCores hs)
  | governorDecision => exact .next (.decide hs)
  | hotNAssert => exact .next (.hotAssert hs)
  | iccOver => exact .next (.ite (.iccOver hs) hs)
  | avsRead => exact .next (.avsRead hs)
  | sensorSample => exact .next (.sensorSample hs)
  | hbmTempRead => exact .next (.hbmTemp hs)
  | tbHoldover => exact .next (.tbHoldover hs)
  | telemetryCapture => exact .next (.telCapture hs)
  | telemetrySend => exact .next (.telSend hs)
  | telemetryDrop => exact .next (.telDrop hs)
  | setEndpointId => exact .next (.setEid hs)
  | getEndpointId => exact .next (.mctpSay hs)
  | getMctpVersionSupport => exact .next (.ite (.mctpSay hs) (.mctpSay hs))
  | getMessageTypeSupport => exact .next (.ite (.mctpSay hs) (.ite hs (.mctpSay hs)))
  | readReg => exact .next (.boardRequest hs)
  | boardWarmReset => exact .next (.warmState (.boardSay hs))
  | getTelemetry => exact .next (.lastTelemetry hs)
  | alertResponse | doeDiscovery => exact .next (.ite (.emit hs) hs)
  | perstRelease => exact .next (.perstRelease hs)
  | refclkLoss => exact .next (.ite (.alarm hs) (.ite (.chipletDown hs) hs))
  | railLoss => exact .next (.railLoss hs)
  | bypass | idcode | samplePreload => exact .next (.emit (.setTap hs))
  | extest | clamp | highz => exact .next (.ite (.emit (.setTap hs)) (.setTap hs))
  | ethPortTrainDone => exact .next (.portUp hs)
  | coreRestartDone => exact .next (.coreBack hs)
  | selfTestComplete => exact .next (.testComplete hs)
  | nvmeCqDoorbell => exact .next (.cqDoorbell hs)
  | withdrawalAnnounce => exact .next (.ite (.suspect hs) hs)
  -- SEAL and UNSEAL, whose constructors bear the names of keywords
  | _ => exact .next (.trustGated (fun _ hu => .trustCmdWrite hu) hs)

/-- Settles O58: the next state that each command answers comes with the queue as it was. -/
theorem execLeavesQueue : Obligations.ExecLeavesQueue := by
  intro c s
  obtain ⟨t, ht, hk⟩ := (exec_answers c s).exists_next
  exact ⟨t, ht, hk.queue⟩

/-- Settles O60: a step is a command on the state without it, or a cycle of the time base, and both keep a good state. -/
theorem stepKeepsGood : Obligations.StepKeepsGood := by
  intro s t hs ht
  unfold step at ht
  split at ht
  · cases ht
    exact (Keeps.idle (.refl s)).good hs
  · next c rest _ =>
    obtain ⟨u, hu, hk⟩ := (exec_answers c { s with pending := rest }).exists_next
    rw [hu] at ht
    cases ht
    exact hk.good hs

end Sys2Proof.Machine
end

section
/-! PROOFS. Registers and counters: the bits of a word, a dword access through PF0, SC registers (O1, O2), event counters (O3),
and the states outside the canonical form that refute O4 and O5. -/

namespace Sys2Proof.Machine

/-! ### The bits of a word -/

theorem toNat_and_ofNat (x : Word) (m : Nat) : x.toNat &&& m = (x &&& BitVec.ofNat 32 m).toNat := by
  rw [BitVec.toNat_and, BitVec.toNat_ofNat, ← Nat.mod_eq_of_lt (Nat.lt_of_le_of_lt Nat.and_le_left x.isLt),
    Nat.and_mod_two_pow, Nat.mod_eq_of_lt x.isLt]

theorem toNat_and_not_add_and (x m : Word) : (x &&& ~~~m).toNat + (x &&& m).toNat = x.toNat := by
  have h0 : (x &&& ~~~m) &&& (x &&& m) = 0 := by ext i; simp; grind
  have h1 : (x &&& ~~~m) ||| (x &&& m) = x := by ext i; simp; grind
  rw [← BitVec.toNat_add_of_and_eq_zero h0, BitVec.add_eq_or_of_and_eq_zero _ _ h0, h1]

/-- Taking away the bits under a mask clears them. -/
theorem ofNat_sub_and (x : Word) (m : Nat) :
    BitVec.ofNat 32 (x.toNat - (x.toNat &&& m)) = x &&& ~~~(BitVec.ofNat 32 m) := by
  have h := toNat_and_not_add_and x (BitVec.ofNat 32 m)
  rw [toNat_and_ofNat, ← h, Nat.add_sub_cancel, BitVec.ofNat_toNat, BitVec.setWidth_eq]

theorem mixBits_eq (old new : Word) (m : Nat) :
    mixBits old new m = (old &&& ~~~(BitVec.ofNat 32 m)) ||| (new &&& BitVec.ofNat 32 m) := by
  unfold mixBits
  rw [BitVec.ofNat_add, ofNat_sub_and, toNat_and_ofNat new, BitVec.ofNat_toNat, BitVec.setWidth_eq]
  exact BitVec.add_eq_or_of_and_eq_zero _ _ (by ext i; simp; grind)

/-- Under bits that the mask covers, the mix is the new word. -/
theorem mixBits_and (old new n : Word) (m : Nat) (h : BitVec.ofNat 32 m &&& n = n) :
    mixBits old new m &&& n = new &&& n := by
  rw [mixBits_eq, ← h]
  ext i
  simp
  grind

/-- The SEQ field of a word stands in its top byte. -/
theorem fieldOf_31_24 (w : Word) : fieldOf w 31 24 = (w &&& 0xFF000000).toNat >>> 24 := by
  rw [BitVec.toNat_and, Nat.shiftRight_and_distrib]
  exact (Nat.and_two_pow_sub_one_eq_mod (w.toNat >>> 24) 8).symm

/-! ### A dword access through PF0 (R10, R11) -/

theorem accessDwords_dword (wr : Bool) {o : Nat} (be d : Nat) (ho : o % 4 = 0) :
    accessDwords ⟨wr, o, 4, be, d⟩ = some [(o, be % 16, 0)] := by
  have h4 : o / 4 * 4 = o := by omega
  simp [accessDwords, ho, h4]

theorem State.writeOn_dword (s : State) (p be d : Nat) {o : Nat} (ho : o % 4 = 0) :
    s.writeOn (.pf0 p) ⟨true, o, 4, be, d⟩ = s.writeDword (.pf0 p) o (be % 16) (BitVec.ofNat 32 d) := by
  simp [State.writeOn, State.writeAccess, accessDwords_dword true be d ho, ho]

theorem exec_registerWrite_dword (s : State) (p be d : Nat) {o : Nat} (ho : o % 4 = 0) :
    exec (.registerWrite (.pf0 p) ⟨true, o, 4, be, d⟩) s =
      .next (s.writeDword (.pf0 p) o (be % 16) (BitVec.ofNat 32 d)) :=
  congrArg _ (s.writeOn_dword p be d ho)

/-- Outside PF0's MSI-X table, an offset of a defined register reaches it. -/
theorem State.target_pf0 (s : State) (p : Nat) {a : Nat} (hm : a < 0x410000 ∨ 0x412000 ≤ a) (ha : a < 0x4000000)
    (h4 : a % 4 = 0) (hd : definedReg a = true) : s.target (.pf0 p) a = .reg a true := by
  have hm' : ¬ (0x410000 ≤ a ∧ a < 0x412000) := by omega
  simp only [State.target, if_neg hm', if_pos ha, regTarget, h4, hd]
  rfl

/-! ### SC registers (R15, R16) -/

/-- An SC register has its row in the register map. -/
theorem regRow_of_mem_scRegs {r : Nat} (hr : r ∈ scRegs) : ∃ row, regRow r = some row ∧ row.kind = .sc := by
  have h : ∀ r ∈ scRegs, (regRow r).any (fun row => row.kind = .sc) = true := by decide +kernel
  simpa [Option.any_eq_true] using h r hr

/-- An SC register stands at a dword, away from the MSI-X table. -/
theorem place_of_mem_scRegs {r : Nat} (hr : r ∈ scRegs) :
    (r < 0x410000 ∨ 0x412000 ≤ r) ∧ r < 0x4000000 ∧ r % 4 = 0 := by
  revert r
  decide +kernel

theorem State.target_of_mem_scRegs (s : State) (p : Nat) {r : Nat} (hr : r ∈ scRegs) :
    s.target (.pf0 p) r = .reg r true := by
  obtain ⟨row, hrow, _⟩ := regRow_of_mem_scRegs hr
  obtain ⟨hm, hlt, h4⟩ := place_of_mem_scRegs hr
  exact s.target_pf0 p hm hlt h4 (by simp [definedReg, hrow])

/-- A write of an SC register reaches `scWrite`, with the written bytes over some word. -/
theorem State.writeDword_sc (s : State) (p be : Nat) (w : Word) {r : Nat} (hr : r ∈ scRegs) :
    ∃ d : Word, s.writeDword (.pf0 p) r be w = s.scWrite r be (mixBits d w (byteMask be)) := by
  obtain ⟨row, hrow, hk⟩ := regRow_of_mem_scRegs hr
  refine ⟨s.writeBase row r, ?_⟩
  simp [State.writeDword, s.target_of_mem_scRegs p hr, State.writeReg, hrow, hk, State.hubOnly]

/-- The bytes below SEQ that are enabled. -/
theorem byteMask_low {be : Nat} (hbe : be < 16) :
    BitVec.ofNat 32 (byteMask (be % 8)) = BitVec.ofNat 32 (byteMask be) &&& 0x00FFFFFF := by
  revert be
  decide +kernel

theorem byteMask_high {be : Nat} (hbe : be < 16) (h3 : bitOf be 3 = true) :
    BitVec.ofNat 32 (byteMask be) &&& 0xFF000000 = 0xFF000000 := by
  revert be
  decide +kernel

/-- What `scWrite` makes of the written bytes: the word below them plays no part. -/
theorem State.scWrite_mixBits (s : State) (r : Nat) {be : Nat} (d v : Word) (hbe : be < 16) :
    s.scWrite r be (mixBits d v (byteMask be)) =
      if bitOf be 3 ∧ fieldOf v 31 24 = fieldOf (s.rd r) 31 24 then
        s.wr r (s.rd r &&& ~~~(v &&& BitVec.ofNat 32 (byteMask be) &&& 0x00FFFFFF)) else s := by
  by_cases h3 : bitOf be 3 = true
  · have hseq : fieldOf (mixBits d v (byteMask be)) 31 24 = fieldOf v 31 24 := by
      rw [fieldOf_31_24, mixBits_and d v _ _ (byteMask_high hbe h3), ← fieldOf_31_24]
    have hflags : mixBits d v (byteMask be) &&& BitVec.ofNat 32 (byteMask (be % 8)) =
        v &&& BitVec.ofNat 32 (byteMask be) &&& 0x00FFFFFF := by
      rw [byteMask_low hbe, mixBits_and d v _ _ (by rw [← BitVec.and_assoc, BitVec.and_self]), BitVec.and_assoc]
    simp only [State.scWrite, h3, hseq, ofNat_sub_and, BitVec.ofNat_and, BitVec.ofNat_toNat, BitVec.setWidth_eq, hflags]
  · simp [State.scWrite, h3]

/-- Settles O1: the command is a write of the register, whose bytes go through `scWrite`. -/
theorem scWriteBack : Obligations.ScWriteBack := by
  intro s p r be v hr hbe
  obtain ⟨row, hrow, hk⟩ := regRow_of_mem_scRegs hr
  obtain ⟨_, _, h4⟩ := place_of_mem_scRegs hr
  have hreach : s.reaches (.pf0 p) ⟨true, r, 4, be, v.toNat⟩ .sc = true := by
    simp [State.reaches, accessDwords_dword true be v.toNat h4, s.target_of_mem_scRegs p hr, hrow, hk]
  obtain ⟨d, hd⟩ := s.writeDword_sc p be v hr
  calc exec (.scWriteBack (.pf0 p) ⟨true, r, 4, be, v.toNat⟩) s
      = .next (s.writeOn (.pf0 p) ⟨true, r, 4, be, v.toNat⟩) := congrArg _ (if_pos hreach)
    _ = .next (s.scWrite r be (mixBits d v (byteMask be))) := by
        rw [s.writeOn_dword p be _ h4, Nat.mod_eq_of_lt hbe, BitVec.ofNat_toNat, BitVec.setWidth_eq, hd]
    _ = _ := by rw [s.scWrite_mixBits r d v hbe]

/-! ### Events (R16, R18) -/

/-- An event leaves the flags of the word with flag `i`, under a SEQ that counts it. -/
theorem toNat_scEvent (w : Word) {i : Nat} (hi : i < 24) :
    (scEvent w i).toNat = 2 ^ 24 * ((fieldOf w 31 24 + 1) % 256) + (w.toNat ||| 2 ^ i) % 2 ^ 24 := by
  have hlt : w.toNat ||| 2 ^ i < 2 ^ 32 := Nat.or_lt_two_pow w.isLt (Nat.pow_lt_pow_right (by decide) (by omega))
  simp only [scEvent, putBits, BitVec.toNat_ofNat, Nat.shiftRight_eq_div_pow, Nat.shiftLeft_eq]
  omega

theorem fieldOf_scEvent_seq (w : Word) {i : Nat} (hi : i < 24) :
    fieldOf (scEvent w i) 31 24 = (fieldOf w 31 24 + 1) % 256 := by
  rw [fieldOf, bitsOf, toNat_scEvent w hi, Nat.shiftRight_eq_div_pow]
  omega

theorem fieldOf_self (w : Word) (j : Nat) : fieldOf w j j = (w.toNat.testBit j).toNat := by
  calc fieldOf w j j
      = w.toNat >>> j % 2 ^ 1 := congrArg (fun k => w.toNat >>> j % 2 ^ k) (Nat.add_sub_cancel_left j 1)
    _ = w.toNat / 2 ^ j % 2 := congrArg (fun x => x % 2) (Nat.shiftRight_eq_div_pow w.toNat j)
    _ = (w.toNat.testBit j).toNat := (Nat.toNat_testBit w.toNat j).symm

theorem testBit_scEvent (w : Word) {i j : Nat} (hi : i < 24) (hj : j < 24) :
    (scEvent w i).toNat.testBit j = (w.toNat.testBit j || decide (i = j)) := by
  rw [toNat_scEvent w hi, Nat.testBit_two_pow_mul_add _ (Nat.mod_lt _ (by decide)), if_pos hj, Nat.testBit_mod_two_pow,
    Nat.testBit_or, Nat.testBit_two_pow]
  simp [hj]

/-- Settles O2: the register takes `scEvent` of its word, bit by bit. -/
theorem scEventCounts : Obligations.ScEventCounts := by
  intro s r i hi
  have hself : (s.event r i).rd r = scEvent (s.rd r) i := by simp [State.event]
  refine ⟨?_, ?_, fun j hj => ?_, fun a ha => ?_⟩
  · rw [State.rf, hself, fieldOf_scEvent_seq _ hi, State.rf]
  · rw [State.rf, hself, fieldOf_self, testBit_scEvent _ hi hi]
    simp
  · by_cases hij : j = i
    · exact .inl hij
    · right
      rw [State.rf, hself, fieldOf_self, testBit_scEvent _ hi (List.mem_range.mp hj), State.rf, fieldOf_self]
      simp [Ne.symm hij]
  · exact s.rd_event_other i ha

/-! ### Event counters (R20) -/

/-- The offsets from the base that the dimensions of a row may reach. -/
def dimsSpan : List (Nat × Nat) → Nat
  | [] => 1
  | (c, st) :: _ => c * st

theorem lt_dimsSpan_of_dimsHit {ds : List (Nat × Nat)} {x : Nat} (hpos : ∀ d ∈ ds, 0 < d.2) (h : dimsHit ds x = true) :
    x < dimsSpan ds := by
  cases ds with
  | nil => simp_all [dimsHit, dimsSpan]
  | cons d ds =>
    simp only [dimsHit, Bool.and_eq_true, decide_eq_true_eq] at h
    exact (Nat.div_lt_iff_lt_mul (hpos d (by simp))).mp h.1

/-- Where the rows of the counter map stand: above the header of their block and away from the MSI-X table. -/
theorem place_of_mem_ctrRowsOf {b : Nat × Nat × Nat} {r : CtrRow} (hb : b ∈ regBlocks) (hr : r ∈ ctrRowsOf b.2.2) :
    b.1 + 8 < r.base ∧ b.2.1 ≤ 0x4000000 ∧ r.base % 4 = 0 ∧
      (r.base + dimsSpan r.dims + 8 ≤ 0x410000 ∨ 0x412000 ≤ r.base) ∧ ∀ d ∈ r.dims, 0 < d.2 := by
  have h : ∀ b ∈ regBlocks, ∀ r ∈ ctrRowsOf b.2.2, b.1 + 8 < r.base ∧ b.2.1 ≤ 0x4000000 ∧ r.base % 4 = 0 ∧
      (r.base + dimsSpan r.dims + 8 ≤ 0x410000 ∨ 0x412000 ≤ r.base) ∧ ∀ d ∈ r.dims, 0 < d.2 := by decide +kernel
  exact h b hb r hr

/-- An offset that a block keeps lies in it; the counters of any other offset are none. -/
theorem exists_blockOf_of_mem_ctrRowsOf {a : Nat} {r : CtrRow} (hr : r ∈ ctrRowsOf (codeOf a)) :
    ∃ b ∈ regBlocks, blockOf a = some b ∧ a < b.2.1 ∧ r ∈ ctrRowsOf b.2.2 := by
  unfold codeOf at hr
  split at hr
  · simp [ctrRowsOf] at hr
  · split at hr
    · next b hb =>
      have hin := List.find?_some hb
      simp only [Bool.and_eq_true, decide_eq_true_eq] at hin
      exact ⟨b, List.mem_of_find?_eq_some hb, hb, hin.2, hr⟩
    · simp [ctrRowsOf] at hr

/-- A register of a live pair stands at a dword above the header of its block, away from the MSI-X table. -/
theorem place_of_liveCtr {a : Nat} (h : (liveCtr a).isSome = true) :
    (∃ b, blockOf a = some b ∧ b.1 + 8 < a) ∧ (a < 0x410000 ∨ 0x412000 ≤ a) ∧ a < 0x4000000 ∧ a % 4 = 0 := by
  obtain ⟨r, hr, ⟨hbase, hdims⟩, hmod⟩ : ∃ r ∈ ctrRowsOf (codeOf a),
      (r.base ≤ a ∧ dimsHit r.dims ((a - r.base) / 8 * 8) = true) ∧ (a - r.base) % 4 = 0 := by
    simpa [liveCtr] using h
  obtain ⟨b, hb, hblock, hend, hr⟩ := exists_blockOf_of_mem_ctrRowsOf hr
  obtain ⟨hhead, hlim, h4, hmsix, hpos⟩ := place_of_mem_ctrRowsOf hb hr
  have hspan := lt_dimsSpan_of_dimsHit hpos hdims
  exact ⟨⟨b, hblock, by omega⟩, by omega, by omega, by omega⟩

/-- A write of an offset with no register, that is no SNAP register, is discarded. -/
theorem State.writeReg_of_regRow_none (s : State) (via : Via) {a : Nat} (be : Nat) (w : Word) (hrow : regRow a = none)
    (hsnap : (blockOf a).any (fun b => a = b.1 + 8) = false) : s.writeReg via a be w = s := by
  simp [State.writeReg, hrow, hsnap]

theorem State.writeDword_live (s : State) (p be : Nat) (w : Word) {a : Nat} (hlive : (liveCtr a).isSome = true)
    (hrow : regRow a = none) : s.writeDword (.pf0 p) a be w = s := by
  obtain ⟨⟨b, hb, hhead⟩, hm, hlt, h4⟩ := place_of_liveCtr hlive
  have ht := s.target_pf0 p hm hlt h4 (by simp [definedReg, hlive])
  simp only [State.writeDword, ht, if_true]
  exact s.writeReg_of_regRow_none _ be w hrow (by simp [hb]; omega)

/-- Settles O3: an event bumps its own counter only, and a write of a live pair reaches no register. -/
theorem counterSaturates : Obligations.CounterSaturates := by
  refine ⟨fun s a _ => ⟨fun hlt => ?_, fun hmax => ?_, fun _ hb => s.ctr_count_other hb, rfl, rfl⟩,
    fun s p a v hl hr => ?_⟩
  · rw [s.ctr_count_same, Counter.bump, if_pos hlt]
  · rw [s.ctr_count_same, Counter.bump, if_neg (by omega), hmax]
  · obtain ⟨_, _, _, h4⟩ := place_of_liveCtr hl
    rw [exec_registerWrite_dword s p 15 v h4, s.writeDword_live p _ _ hl hr]

/-! ### States outside the canonical form: O4 and O5 -/

/-- A state that lists TWS_CTL twice, which no canonical map does. -/
def twiceListed : State := { State.reset with regs := [(Reg.TWS_CTL, 1), (Reg.TWS_CTL, 2)] }

/-- The registers that a completed command leaves. -/
def regsAfter : Host.Outcome State Fault Refusal → SMap Word
  | .next t => t.regs
  | _ => []

/-- Refutes O4: a legal write of TWS_CTL's reset value unlists both entries of `twiceListed`, and the word read before, written
back, lists one of them only. -/
theorem not_limitedRegisters : ¬ Obligations.LimitedRegisters := by
  intro h
  obtain ⟨row, hrow⟩ : ∃ row, regRow Reg.TWS_CTL = some row := ⟨_, rfl⟩
  obtain ⟨t, ht, _, hregs, _⟩ := (h twiceListed 0 Reg.TWS_CTL 0x0156 7 row (by decide) hrow).2 (by decide)
  have ht : t.regs = [] := by
    rw [show t.regs = regsAfter (.next t) from rfl, ← ht]
    decide +kernel
  rw [State.wr_regs, State.wr_regs, ht] at hregs
  exact absurd hregs (by decide +kernel)

/-- A state in which a copy of GLB_VARIANT, a register with no copies, stands as odd. -/
def oddReadOnly : State := { State.reset with tvOdd := [(Reg.GLB_VARIANT, 1)] }

/-- The odd copies that a completed command leaves. -/
def tvOddAfter : Host.Outcome State Fault Refusal → SMap Nat
  | .next t => t.tvOdd
  | _ => []

/-- Refutes O5: a read of read-only GLB_VARIANT in `oddReadOnly` rewrites the odd copy, and so does more than show the value. -/
theorem not_registerAccess : ¬ Obligations.RegisterAccess := by
  rintro ⟨_, _, hro, _⟩
  have h := congrArg tvOddAfter (hro oddReadOnly 0 0 Reg.GLB_VARIANT (by decide)).2
  exact absurd h (by decide +kernel)

end Sys2Proof.Machine
end

section
/-! PROOFS. Snapshots of counters (O6): what a copy takes, when it starts and how it ends; and the state after reset (O59). -/

namespace Sys2Proof.Machine

/-! ### Snapshots (R22 to R25, R924) -/

/-- A filter of the keys keeps what the chosen keys are listed as, whatever the form of the map. -/
theorem lookup_filter_key {α : Type} (p : Nat → Bool) (m : SMap α) (a : Nat) :
    lookup (m.filter (fun e => p e.1)) a = if p a then lookup m a else none := by
  induction m with
  | nil => simp [lookup]
  | cons e m ih =>
    obtain ⟨k, v⟩ := e
    by_cases hk : k = a
    · subst hk
      cases hp : p k <;> simp [hp, lookup, ih]
    · cases hp : p k <;> simp [hp, lookup, ih, hk]

theorem fetch_filter_key {α : Type} (d : α) (p : Nat → Bool) (m : SMap α) (a : Nat) :
    fetch d (m.filter (fun e => p e.1)) a = if p a then fetch d m a else d := by
  rw [fetch, lookup_filter_key]
  split <;> rfl

/-- Storing the entries of a canonical map one by one lays it over the map before. -/
theorem fetch_foldl_store {α : Type} [DecidableEq α] (d : α) (l m : SMap α) (a : Nat) (hl : SMapWf (fun _ => d) l = true) :
    fetch d (l.foldl (fun h e => store d h e.1 e.2) m) a = (lookup l a).getD (fetch d m a) := by
  induction l generalizing m with
  | nil => rfl
  | cons e l ih =>
    obtain ⟨k, v⟩ := e
    simp only [SMapWf, Bool.and_eq_true] at hl
    obtain ⟨⟨_, habove⟩, hl⟩ := hl
    rw [List.foldl_cons, ih _ hl, lookup]
    split
    · next hk =>
      subst hk
      simp [lookup_keysAbove l habove (Nat.le_refl k)]
    · next hk => rw [fetch_store_other d d m v (Ne.symm hk)]

/-- The copy instant: a chosen pair takes the live count, and every other keeps its own. -/
theorem fetch_copyHolds (p : Nat → Bool) (holds ctrs : SMap Counter) (a : Nat)
    (hc : SMapWf (fun _ => ({} : Counter)) ctrs = true) :
    fetch {} (copyHolds p holds ctrs) a = if p a then fetch {} ctrs a else fetch {} holds a := by
  refine (fetch_foldl_store ({} : Counter) _ _ a (SMapWf_filter _ _ _ hc)).trans ?_
  rw [lookup_filter_key, fetch_filter_key ({} : Counter) (fun k => !p k) holds a]
  cases p a <;> rfl

theorem State.copyAt_ctr (s : State) (p : Nat → Bool) (clr : Bool) (a : Nat) :
    (s.copyAt p clr).ctr a = if p a ∧ clr then {} else s.ctr a := by
  cases clr with
  | false => simp [State.copyAt, State.ctr]
  | true =>
    simp only [State.copyAt, State.ctr, if_true, and_true]
    rw [fetch_filter_key ({} : Counter) (fun k => !p k) s.ctrs a]
    cases p a <;> rfl

/-- A copy starts: what it takes, clears and leaves (R22, R23). -/
theorem State.copyAt_setSnap (s : State) (p : Nat → Bool) (b : Nat) (clr : Bool) (hc : s.ctrsGood = true) :
    ∃ t : State, t = (s.copyAt p clr).setSnap b ⟨true, false, false⟩ ∧ t.snap b = ⟨true, false, false⟩ ∧
      (∀ a, fetch {} t.holds a = if p a then s.ctr a else fetch {} s.holds a) ∧
      (∀ a, t.ctr a = if p a ∧ clr then {} else s.ctr a) ∧ (∀ c, c ≠ b → t.snap c = s.snap c) ∧
      { t with snaps := s.snaps, holds := s.holds, ctrs := s.ctrs } = s :=
  ⟨_, rfl, State.snap_setSnap_same _ _ _, fun a => fetch_copyHolds p s.holds s.ctrs a hc, s.copyAt_ctr p clr,
    fun _ h => State.snap_setSnap_other _ _ h, rfl⟩

theorem ne_zero_of_mem_blockBases {b : Nat} (hb : b ∈ blockBases) : b ≠ 0 := by
  simpa using (List.mem_filter.mp hb).2

theorem exec_snapGo (s : State) {b : Nat} (clr : Bool) (hb : b ∈ blockBases) :
    exec (.snapGo b clr) s = .next (s.snapGo b clr) := congrArg _ (if_pos (List.contains_iff_mem.mpr hb))

/-- A running copy covers block `b`, or one is armed that will (R24). -/
def State.copyPends (s : State) (b : Nat) : Bool :=
  (s.snap b).busy || (s.snap b).armed || (s.snap 0).busy || (s.snap 0).armed

theorem State.snapGo_block (s : State) {b : Nat} (clr : Bool) (hb : b ≠ 0) :
    s.snapGo b clr = if s.copyPends b then s.setSnap b ((s.snap b).arm clr) else s.startBlkCopy b clr := if_neg hb

theorem State.snapGo_zero (s : State) (clr : Bool) :
    s.snapGo 0 clr = if s.anyCopy || (s.snap 0).armed then s.setSnap 0 ((s.snap 0).arm clr) else s.startGlbCopy clr := by
  simp only [State.snapGo, if_true]

/-! #### The end of a copy -/

/-- With no GLB copy running or armed, the blocks whose copy is armed and not running start it. -/
theorem State.startArmed_single (s : State) (b : Nat) (h0 : (s.snap 0).busy = false) (h1 : (s.snap 0).armed = false) :
    s.startArmed [b] = if (s.snap b).armed && !(s.snap b).busy then s.startBlkCopy b (s.snap b).clr else s := by
  simp [State.startArmed, h0, h1]

theorem State.startArmed_of_none_armed (s : State) (bs : List Nat) (h : ∀ c, (s.snap c).armed = false) :
    s.startArmed bs = s := by
  have hfold : bs.foldl (fun s b =>
      if (s.snap b).armed && !(s.snap b).busy then s.startBlkCopy b (s.snap b).clr else s) s = s := by
    induction bs with
    | nil => rfl
    | cons b bs ih => rw [List.foldl_cons, h b]; exact ih
  rw [State.startArmed, h 0, hfold]
  simp

theorem State.snap_armed_of_all (s : State) (h : s.snaps.all (fun e => !e.2.armed) = true) (c : Nat) :
    (s.snap c).armed = false := by
  refine fetch_of_forall_mem (P := fun x => x.armed = false) {} s.snaps c rfl ?_
  simpa using h

/-- Counting the ends of copies touches registers only. -/
theorem State.bumpSnapSeqs_regs (bs : List Nat) (s : State) :
    ∃ regs, bs.foldl State.bumpSnapSeq s = { s with regs } := by
  induction bs generalizing s with
  | nil => exact ⟨_, rfl⟩
  | cons b bs ih =>
    obtain ⟨regs, h⟩ := ih (s.bumpSnapSeq b)
    exact ⟨regs, h⟩

theorem State.bumpSnapSeqs_rd (bs : List Nat) (s : State) (a : Nat) (hbs : bs.Nodup) :
    (bs.foldl State.bumpSnapSeq s).rd a = if a ∈ bs.map (· + 0xC) then s.rd a + 1 else s.rd a := by
  induction bs generalizing s with
  | nil => simp
  | cons b bs ih =>
    obtain ⟨hb, hbs⟩ := List.nodup_cons.mp hbs
    rw [List.foldl_cons, ih _ hbs, State.bumpSnapSeq, State.rd_wr, List.map_cons]
    by_cases ha : a = b + 0xC
    · subst ha
      simp [hb]
    · simp [ha]

/-- The copy of block `b` no longer runs. -/
def State.copyOver (s : State) (b : Nat) : State := s.setSnap b { s.snap b with busy := false }

theorem State.snap_copyOver_same (s : State) (b : Nat) : (s.copyOver b).snap b = { s.snap b with busy := false } :=
  s.snap_setSnap_same _ _

theorem State.snap_copyOver_other (s : State) {b c : Nat} (h : c ≠ b) : (s.copyOver b).snap c = s.snap c :=
  s.snap_setSnap_other _ h

theorem State.snap_copyOver_armed (s : State) (b c : Nat) : ((s.copyOver b).snap c).armed = (s.snap c).armed := by
  by_cases h : c = b
  · rw [h, s.snap_copyOver_same]
  · rw [s.snap_copyOver_other h]

theorem State.snapEnd_block (s : State) {b : Nat} (hb : b ≠ 0) (hbusy : (s.snap b).busy = true) :
    s.snapEnd b = ((s.copyOver b).bumpSnapSeq b).startArmed [b] := by
  rw [State.snapEnd, if_pos hbusy]
  exact if_neg hb

theorem State.snapEnd_zero (s : State) (hbusy : (s.snap 0).busy = true) :
    s.snapEnd 0 = ((0 :: blockBases).foldl State.bumpSnapSeq (s.copyOver 0)).startArmed blockBases := by
  rw [State.snapEnd, if_pos hbusy]
  exact if_pos rfl

/-- A block's own copy ends while no GLB copy runs or is armed: a copy armed behind it starts. -/
theorem State.snapEnd_block_eq (s : State) {b : Nat} (hb : b ≠ 0) (hbusy : (s.snap b).busy = true)
    (h0 : (s.snap 0).busy = false) (h1 : (s.snap 0).armed = false) :
    s.snapEnd b = (let e := (s.copyOver b).bumpSnapSeq b
      if (s.snap b).armed then e.startBlkCopy b (s.snap b).clr else e) := by
  have hzero : ((s.copyOver b).bumpSnapSeq b).snap 0 = s.snap 0 := s.snap_copyOver_other hb.symm
  have hself : ((s.copyOver b).bumpSnapSeq b).snap b = { s.snap b with busy := false } := s.snap_copyOver_same b
  rw [s.snapEnd_block hb hbusy, State.startArmed_single _ b (by rw [hzero, h0]) (by rw [hzero, h1]), hself]
  simp

/-- A GLB copy ends with no copy armed: it counts in every SNAP_SEQ, and no other copy starts. -/
theorem State.snapEnd_zero_eq (s : State) (hbusy : (s.snap 0).busy = true) (h : ∀ c, (s.snap c).armed = false) :
    s.snapEnd 0 = (0 :: blockBases).foldl State.bumpSnapSeq (s.copyOver 0) := by
  rw [s.snapEnd_zero hbusy]
  refine State.startArmed_of_none_armed _ _ fun c => ?_
  obtain ⟨regs, hr⟩ := State.bumpSnapSeqs_regs (0 :: blockBases) (s.copyOver 0)
  rw [hr]
  exact (s.snap_copyOver_armed 0 c).trans (h c)

theorem nodup_blockBases : (0 :: blockBases).Nodup := by decide

/-- Settles O6: a GO starts a copy or arms one, by `copyPends`; the end of a copy is `snapEnd_block_eq` or `snapEnd_zero_eq`. -/
theorem snapshots : Obligations.Snapshots := by
  refine ⟨?_, ?_, ?_, ?_, ?_, ?_⟩
  · intro s b clr hb hc hbusy harmed h0 h1
    obtain ⟨t, ht, hspec⟩ := s.copyAt_setSnap (inBlock b) b clr hc
    refine ⟨t, ?_, hspec⟩
    have hp : s.copyPends b = false := by simp [State.copyPends, hbusy, harmed, h0, h1]
    rw [exec_snapGo s clr hb, s.snapGo_block clr (ne_zero_of_mem_blockBases hb), hp, ht]
    rfl
  · intro s b clr hb hp
    rw [exec_snapGo s clr hb, s.snapGo_block clr (ne_zero_of_mem_blockBases hb), if_pos (show s.copyPends b = true from hp)]
    rfl
  · intro s clr hc hany harmed
    obtain ⟨t, ht, hsnap, hholds, hctrs, hrest⟩ := s.copyAt_setSnap (fun _ => true) 0 clr hc
    refine ⟨t, ?_, hsnap, by simpa using hholds, by simpa using hctrs, hrest⟩
    change Host.Outcome.next (s.snapGo 0 clr) = _
    rw [s.snapGo_zero, hany, harmed, ht]
    rfl
  · intro s clr hp
    change Host.Outcome.next (s.snapGo 0 clr) = _
    rw [s.snapGo_zero, if_pos hp]
    rfl
  · intro s b hb hbusy h0 h1
    refine congrArg Host.Outcome.next ?_
    exact s.snapEnd_block_eq (ne_zero_of_mem_blockBases hb) hbusy h0 h1
  · intro s hbusy hall
    obtain ⟨regs, hr⟩ := State.bumpSnapSeqs_regs (0 :: blockBases) (s.copyOver 0)
    have hrd a := State.bumpSnapSeqs_rd (0 :: blockBases) (s.copyOver 0) a nodup_blockBases
    have hend := s.snapEnd_zero_eq hbusy (s.snap_armed_of_all hall)
    rw [hr] at hend hrd
    refine ⟨{ s.copyOver 0 with regs }, congrArg Host.Outcome.next hend, ?_, hrd, fun c hc => ?_, rfl⟩
    · exact congrArg SnapBlk.busy (s.snap_copyOver_same 0)
    · exact s.snap_copyOver_other hc

/-! ### Reset (R20, R63, R79, R829) -/

/-- Settles O59: after reset no register, counter, job or row is listed, so each reads as what its map gives an unlisted key. -/
theorem resetState : Obligations.ResetState :=
  ⟨rfl, by decide +kernel, by decide +kernel, fun _ => ⟨rfl, rfl⟩, fun _ => rfl, by decide +kernel, rfl⟩

end Sys2Proof.Machine
end

section
/-! PROOFS. One step of the queue of commands (O57): what `step` is with a command waiting, and with none. -/

namespace Sys2Proof.Machine

variable {s : State}

/-- The part takes its commands one at a time and in their order. -/
theorem step_of_pending_eq_cons {c : Instr} {rest : List Instr} (h : s.pending = c :: rest) :
    step s = exec c { s with pending := rest } := by
  rw [step, h]

/-- With no command waiting only the time base runs (R48). -/
theorem step_of_pending_eq_nil (h : s.pending = []) : step s = .next s.idle := by
  rw [step, h]

/-- Settles O57: the queue is empty or has a front, and a command put in front leaves `s` behind when it is taken. -/
theorem stepTakesFront : Obligations.StepTakesFront := by
  refine ⟨?front, ?putInFront, ?none⟩
  case front =>
    intro s c rest h
    exact step_of_pending_eq_cons h
  case putInFront =>
    intro s c
    exact step_of_pending_eq_cons (s := { s with pending := c :: s.pending }) rfl
  case none =>
    intro s h
    exact step_of_pending_eq_nil h

end Sys2Proof.Machine
end

section
/-! PROOFS. The keyed functions of the step contract: mix is injective in the word (O10), and the vectors of mix and gen (O9). -/

namespace Sys2Proof.Machine

/-! ### mix and gen (R111, R120) -/

theorem mod_word_lt (x : Nat) : x % 2 ^ 64 < 2 ^ 64 := Nat.mod_lt x (Nat.two_pow_pos 64)

/-- Each bit is the sum of itself and one higher up, so the highest bit in which two words differ shows. -/
theorem xor_shiftRight_injective {k : Nat} (hk : k ≠ 0) : Function.Injective fun x : Nat => x ^^^ x >>> k := by
  intro x y h
  have hd : (x ^^^ y) >>> k = x ^^^ y := by
    rw [Nat.shiftRight_xor_distrib]
    apply Nat.xor_eq_zero_iff.mp
    calc x >>> k ^^^ y >>> k ^^^ (x ^^^ y)
        = (x ^^^ x >>> k) ^^^ (y ^^^ y >>> k) := by ac_rfl
      _ = 0 := Nat.xor_eq_zero_iff.mpr h
  have hz : x ^^^ y = 0 := by
    by_contra hne
    have hlt : (x ^^^ y) / 2 ^ k < x ^^^ y := Nat.div_lt_self (Nat.pos_of_ne_zero hne) (Nat.one_lt_two_pow hk)
    rw [← Nat.shiftRight_eq_div_pow, hd] at hlt
    exact Nat.lt_irrefl _ hlt
  exact Nat.xor_eq_zero_iff.mp hz

theorem xor_shiftRight_lt {x : Nat} (hx : x < 2 ^ 64) (k : Nat) : x ^^^ x >>> k < 2 ^ 64 :=
  Nat.xor_lt_two_pow hx (Nat.lt_of_le_of_lt (Nat.shiftRight_le x k) hx)

/-- A word and its shift are a multiple of an odd number, which has an inverse modulo 2^64. -/
theorem add_shiftLeft_mod_injOn {k : Nat} (hk : k ≠ 0) :
    Set.InjOn (fun x : Nat => (x + x <<< k) % 2 ^ 64) {x | x < 2 ^ 64} := by
  intro x hx y hy h
  have hodd : Nat.Coprime (2 ^ 64) (2 ^ k + 1) :=
    (Nat.coprime_two_left.mpr ((even_two.pow_of_ne_zero hk).add_one)).pow_left 64
  have hmul : x * (2 ^ k + 1) ≡ y * (2 ^ k + 1) [MOD 2 ^ 64] := by
    simpa [Nat.ModEq, Nat.shiftLeft_eq, Nat.mul_add, Nat.add_comm] using h
  exact (Nat.ModEq.cancel_right_of_coprime hodd hmul).eq_of_lt_of_lt hx hy

theorem mixRound_lt {x : Nat} : mixRound x < 2 ^ 64 :=
  xor_shiftRight_lt (mod_word_lt _) 20

/-- Each of the five steps of `round` loses nothing of a word (R111). -/
theorem mixRound_injOn : Set.InjOn mixRound {x | x < 2 ^ 64} := by
  intro x hx y hy h
  have h4 := xor_shiftRight_injective (k := 20) (by decide) h
  have h3 := add_shiftLeft_mod_injOn (k := 28) (by decide) (xor_shiftRight_lt (mod_word_lt _) 24)
    (xor_shiftRight_lt (mod_word_lt _) 24) h4
  have h2 := xor_shiftRight_injective (k := 24) (by decide) h3
  have h1 := add_shiftLeft_mod_injOn (k := 12) (by decide) (xor_shiftRight_lt hx 32) (xor_shiftRight_lt hy 32) h2
  exact xor_shiftRight_injective (k := 32) (by decide) h1

theorem add_mod_injOn (t : Nat) : Set.InjOn (fun x : Nat => (x + t) % 2 ^ 64) {x | x < 2 ^ 64} :=
  fun _ hx _ hy h => (Nat.ModEq.add_right_cancel' t h).eq_of_lt_of_lt hx hy

/-- `permute` of R111 takes different words to different words, whatever the key. -/
theorem permute_injOn {c t : Nat} (hc : c < 2 ^ 64) (ht : t < 2 ^ 64) : Set.InjOn (permute c t) {w | w < 2 ^ 64} := by
  intro v hv w hw h
  have hround := mixRound_injOn (mod_word_lt _) (mod_word_lt _) h
  have hin := mixRound_injOn (mod_word_lt _) (mod_word_lt _)
    (add_mod_injOn t mixRound_lt mixRound_lt hround)
  rw [Nat.mod_eq_of_lt (Nat.xor_lt_two_pow (Nat.xor_lt_two_pow hv ht) hc),
    Nat.mod_eq_of_lt (Nat.xor_lt_two_pow (Nat.xor_lt_two_pow hw ht) hc)] at hin
  exact Nat.xor_left_injective (Nat.xor_left_injective hin)

/-- Settles O10: mix is `permute` under the key of the tensor and the index. -/
theorem mixPermutes : Obligations.MixPermutes := by
  intro id i v w _ _ hv hw h
  exact permute_injOn (by decide) (mod_word_lt _) hv hw h

/-- Settles O9: closed computations. -/
theorem mixAndGenVectors : Obligations.MixAndGenVectors := ⟨rfl, rfl, rfl, rfl⟩

end Sys2Proof.Machine
end

section
/-! PROOFS. Jobs (O7): what the checkpoint engine and the Carder leave alone as a job opens, OPEN and CLOSE, and the exchange of
job tallies. -/

namespace Sys2Proof.Machine

/-! ### Fields and register pairs -/

theorem leNat_lt (bs : List Byte) : leNat bs < 256 ^ bs.length := by
  induction bs with
  | nil => simp [leNat]
  | cons b bs ih =>
    have hb := b.isLt
    simp only [leNat, List.length_cons, Nat.pow_succ]
    omega

theorem State.le_lt (s : State) (a k : Nat) : s.le a k < 256 ^ k := by
  simpa [State.le, State.bytes] using leNat_lt (s.bytes a k)

theorem fieldOf_setField_15_0 (w : Word) (x : Nat) : fieldOf (setField w 15 0 x) 15 0 = x % 2 ^ 16 := by
  simp only [fieldOf, setField, bitsOf, putBits, BitVec.toNat_ofNat, Nat.shiftRight_eq_div_pow, Nat.shiftLeft_eq]
  omega

theorem fieldOf_30_30_setField_15_0 (w : Word) (x : Nat) : fieldOf (setField w 15 0 x) 30 30 = fieldOf w 30 30 := by
  have hw := w.isLt
  simp only [fieldOf, setField, bitsOf, putBits, BitVec.toNat_ofNat, Nat.shiftRight_eq_div_pow, Nat.shiftLeft_eq]
  omega

theorem fieldOf_setField_30_30 (w : Word) (x : Nat) : fieldOf (setField w 30 30 x) 30 30 = x % 2 := by
  simp only [fieldOf, setField, bitsOf, putBits, BitVec.toNat_ofNat, Nat.shiftRight_eq_div_pow, Nat.shiftLeft_eq]
  omega

/-- A 48-bit step, written to its register pair, reads back (R83). -/
theorem State.stepCtr_setStep (s : State) (n : Nat) {k : Nat} (hk : k < 2 ^ 48) : (s.setStep n k).stepCtr n = k := by
  have hne : Reg.GLB_JOB_STEP_LO n ≠ Reg.GLB_JOB_STEP_HI n := by simp [Reg.GLB_JOB_STEP_LO, Reg.GLB_JOB_STEP_HI]
  simp only [State.stepCtr, State.setStep, State.stepOf, State.wr64, State.rf, State.rd_wr_same, State.rd_wr_other _ _ hne,
    fieldOf, bitsOf, BitVec.toNat_ofNat, Nat.shiftRight_eq_div_pow]
  omega

@[simp] theorem State.setStep_jobs (s : State) (n k : Nat) : (s.setStep n k).jobs = s.jobs := rfl
@[simp] theorem State.setStep_tws (s : State) (n k : Nat) : (s.setStep n k).tws = s.tws := rfl
@[simp] theorem State.setStep_mem (s : State) (n k : Nat) : (s.setStep n k).mem = s.mem := rfl
@[simp] theorem State.setStep_tags (s : State) (n k : Nat) : (s.setStep n k).tags = s.tags := rfl

theorem State.stepCtr_of_rd {s t : State} {n : Nat} (hlo : t.rd (Reg.GLB_JOB_STEP_LO n) = s.rd (Reg.GLB_JOB_STEP_LO n))
    (hhi : t.rd (Reg.GLB_JOB_STEP_HI n) = s.rd (Reg.GLB_JOB_STEP_HI n)) : t.stepCtr n = s.stepCtr n := by
  rw [State.stepCtr, State.stepCtr, State.stepOf, State.stepOf, State.rf, State.rf, hlo, hhi]

/-! ### What the checkpoint engine leaves alone (R520 to R533) -/

/-- The part comes from `s₀` to `s` with its jobs, its collectives and the registers of the GLB block as they were. -/
structure KeepsJobs (s₀ s : State) : Prop where
  jobs : s.jobs = s₀.jobs
  tws : s.tws = s₀.tws
  glb : ∀ a < 0x1000, s.rd a = s₀.rd a

section
variable {s₀ s : State}

theorem KeepsJobs.refl (s : State) : KeepsJobs s s := ⟨rfl, rfl, fun _ _ => rfl⟩

/-- An update of memory and of what the checkpoint engine keeps of its pages. -/
theorem KeepsJobs.frame {mem tags dirty pend push ctrs ckp out} (hs : KeepsJobs s₀ s) :
    KeepsJobs s₀ { s with mem, tags, dirty, pend, push, ctrs, ckp, out } :=
  ⟨hs.jobs, hs.tws, hs.glb⟩

/-- A write of a register outside the GLB block. -/
theorem KeepsJobs.wr (hs : KeepsJobs s₀ s) {a : Nat} {v : Word} (ha : 0x1000 ≤ a) : KeepsJobs s₀ (s.wr a v) :=
  ⟨hs.jobs, hs.tws, fun b hb => (s.rd_wr_other v (by omega)).trans (hs.glb b hb)⟩

theorem KeepsJobs.setCkp (hs : KeepsJobs s₀ s) {n : Nat} {c : Ckp} : KeepsJobs s₀ (s.setCkp n c) := .frame hs

theorem KeepsJobs.count (hs : KeepsJobs s₀ s) {a : Nat} : KeepsJobs s₀ (s.count a) := .frame hs

theorem KeepsJobs.countN (hs : KeepsJobs s₀ s) {a k : Nat} : KeepsJobs s₀ (s.countN a k) := .frame hs

theorem KeepsJobs.emit (hs : KeepsJobs s₀ s) {o : Out} : KeepsJobs s₀ (s.emit o) := .frame hs

theorem KeepsJobs.ite {c : Prop} {_ : Decidable c} {a b : State} (ha : KeepsJobs s₀ a) (hb : KeepsJobs s₀ b) :
    KeepsJobs s₀ (if c then a else b) := by split <;> assumption

theorem KeepsJobs.foldl {α : Type} {f : State → α → State} {l : List α}
    (hf : ∀ u x, KeepsJobs s₀ u → KeepsJobs s₀ (f u x)) (hs : KeepsJobs s₀ s) : KeepsJobs s₀ (l.foldl f s) := by
  induction l generalizing s with
  | nil => exact hs
  | cons x l ih => exact ih (hf s x hs)

theorem KeepsJobs.eventN (hs : KeepsJobs s₀ s) {a i k : Nat} (ha : 0x1000 ≤ a) : KeepsJobs s₀ (s.eventN a i k) := by
  induction k generalizing s with
  | zero => exact hs
  | succ k ih => exact ih (hs.wr ha)

theorem KeepsJobs.sendPage (hs : KeepsJobs s₀ s) {d : Nat} : KeepsJobs s₀ (s.sendPage d) := by
  unfold State.sendPage
  split
  · exact .count (.emit (.frame hs))
  · exact hs

theorem KeepsJobs.capturePage (hs : KeepsJobs s₀ s) {d g : Nat} : KeepsJobs s₀ (s.capturePage d g) :=
  .frame (.setCkp (.ite hs (.sendPage hs)))

theorem KeepsJobs.ckpStat (hs : KeepsJobs s₀ s) {n st : Nat} : KeepsJobs s₀ (s.ckpStat n st) :=
  .wr hs (Nat.le_add_right_of_le (by decide))

theorem KeepsJobs.failPush (hs : KeepsJobs s₀ s) {n st : Nat} : KeepsJobs s₀ (s.failPush n st) :=
  .eventN (.countN (.ckpStat (.setCkp (.frame hs)))) (by decide)

theorem KeepsJobs.captureNow (hs : KeepsJobs s₀ s) {n b : Nat} : KeepsJobs s₀ (s.captureNow n b) :=
  .ite (.setCkp (.frame hs)) (.failPush (.setCkp (.setCkp (.frame hs))))

theorem KeepsJobs.endCopy (hs : KeepsJobs s₀ s) {n : Nat} : KeepsJobs s₀ (s.endCopy n) := by
  have hsent : KeepsJobs s₀ ((List.range 64).foldl (fun u _ => (s.diesOf n).foldl State.sendPage u) s) :=
    .foldl (fun _ _ hu => .foldl (fun _ _ hv => .sendPage hv) hu) hs
  unfold State.endCopy
  dsimp only
  split
  · exact hsent
  · split
    · exact .captureNow (.emit (.setCkp hsent))
    · exact .emit (.setCkp hsent)

theorem KeepsJobs.drainCopy (hs : KeepsJobs s₀ s) {n : Nat} : KeepsJobs s₀ (s.drainCopy n) :=
  .endCopy (.foldl (fun _ _ hu => .capturePage hu) hs)

theorem KeepsJobs.markDirty (hs : KeepsJobs s₀ s) {g : Nat} : KeepsJobs s₀ { s with dirty := store false s.dirty g true } :=
  .frame hs

theorem KeepsJobs.touchPage (hs : KeepsJobs s₀ s) {g : Nat} : KeepsJobs s₀ (s.touchPage g) := by
  rw [State.touchPage]
  cases s.statePage g with
  | none => exact hs
  | some d => exact .markDirty (.ite (.count (.capturePage (.ite (.drainCopy hs) hs))) (.ite (.drainCopy hs) hs))

theorem KeepsJobs.zeroRange (hs : KeepsJobs s₀ s) {a k : Nat} : KeepsJobs s₀ (s.zeroRange a k) :=
  .frame (.foldl (fun _ _ hu => .touchPage hu) hs)

end

/-! ### What a step's start changes (R81, R123, R489, R491) -/

theorem State.zeroDraws_eq (s : State) (n : Nat) : ∃ rows, s.zeroDraws n = { s with rows } := by
  unfold State.zeroDraws
  generalize s.sliceRows n = ls
  induction ls generalizing s with
  | nil => exact ⟨s.rows, rfl⟩
  | cons l ls ih =>
    obtain ⟨rows, h⟩ := ih (s.setRow l ((s.row l).mapNeedles fun _ d => { d with draws := [] }))
    exact ⟨rows, h⟩

/-- The part comes from `s` to `t` with changes in the Carder, in CRD_EVT and in counters alone. -/
def FeedChange (s t : State) : Prop :=
  ∃ regs ctrs carder, t = { s with regs, ctrs, carder } ∧ ∀ a ≠ Reg.CRD_EVT, t.rd a = s.rd a

section
variable {s t u : State}

theorem FeedChange.refl (s : State) : FeedChange s s := ⟨s.regs, s.ctrs, s.carder, rfl, fun _ _ => rfl⟩

theorem FeedChange.trans (h : FeedChange s t) (h' : FeedChange t u) : FeedChange s u := by
  obtain ⟨_, _, _, rfl, hrd⟩ := h
  obtain ⟨regs, ctrs, carder, rfl, hrd'⟩ := h'
  exact ⟨regs, ctrs, carder, rfl, fun a ha => (hrd' a ha).trans (hrd a ha)⟩

theorem FeedChange.carder (s : State) {carder : Carder} : FeedChange s { s with carder } :=
  ⟨s.regs, s.ctrs, carder, rfl, fun _ _ => rfl⟩

theorem FeedChange.late (s : State) {i c : Nat} : FeedChange s ((s.event Reg.CRD_EVT i).count c) :=
  ⟨_, _, s.carder, rfl, fun _ ha => s.rd_event_other i ha⟩

theorem FeedChange.foldl {α : Type} {f : State → α → State} (hf : ∀ u x, FeedChange u (f u x)) (l : List α) (s : State) :
    FeedChange s (l.foldl f s) := by
  induction l generalizing s with
  | nil => exact .refl s
  | cons x l ih => exact (hf s x).trans (ih (f s x))

theorem FeedChange.readStep (s : State) (x : Feed) (k : Nat) : FeedChange s (s.readStep x k) :=
  .trans (.foldl (fun u die => .foldl (fun v _ => .carder v) (u.stitchesOn x die) u) (s.feedDies x.d x.spans) s) (.carder _)

theorem FeedChange.readSteps (s : State) (n f k j : Nat) : FeedChange s (s.readSteps n f k j) := by
  induction j generalizing s with
  | zero => exact .refl s
  | succ j ih =>
    unfold State.readSteps
    split
    · exact .refl s
    · next x _ =>
      split
      · exact (FeedChange.readStep s x x.next).trans (ih _)
      · exact .refl s

theorem FeedChange.feedStep (s : State) (n c : Nat) : FeedChange s (s.feedStep n c) := by
  refine .foldl (fun u x => ?_) _ s
  dsimp only
  split
  · exact .refl u
  · split
    · exact (FeedChange.late u).trans (.readSteps _ _ _ _ _)
    · exact .readSteps _ _ _ _ _

theorem FeedChange.fields (h : FeedChange s t) : t.jobs = s.jobs ∧ t.tws = s.tws ∧ t.mem = s.mem ∧ t.tags = s.tags := by
  obtain ⟨_, _, _, rfl, _⟩ := h
  exact ⟨rfl, rfl, rfl, rfl⟩

theorem FeedChange.rd_glb (h : FeedChange s t) {a : Nat} (ha : a < 0x1000) : t.rd a = s.rd a := by
  obtain ⟨_, _, _, _, hrd⟩ := h
  exact hrd a (Nat.ne_of_lt (Nat.lt_of_lt_of_le ha (by decide)))

end

/-! ### OPEN (R79 to R81) -/

/-- GLB_STATUS.SLICES has two bits (R723). -/
theorem State.lt_eight_of_hasSlice {s : State} {n : Nat} (h : s.hasSlice n = true) : n < 8 :=
  calc n < 2 ^ s.rf Reg.GLB_STATUS 19 18 := of_decide_eq_true h
    _ ≤ 2 ^ 3 := Nat.pow_le_pow_right (by decide) (Nat.le_of_lt_succ (Nat.mod_lt _ (by decide)))

theorem exec_jobOpen_pf0 {s : State} {n : Nat} (p : Nat) (v : Word) (h : s.hasSlice n = true) :
    exec (.jobOpen (.pf0 p) n v) s = .next (s.jobCmdWrite n v) :=
  congrArg _ (if_pos h)

theorem exec_jobClose_pf0 {s : State} {n : Nat} (p : Nat) (v : Word) (h : s.hasSlice n = true) :
    exec (.jobClose (.pf0 p) n v) s = .next (s.jobCmdWrite n v) :=
  congrArg _ (if_pos h)

/-- A command word with GO and OPEN, and no reserved bit. -/
theorem State.jobCmdWrite_open (s : State) (n : Nat) :
    s.jobCmdWrite n 0x80000001 =
      (if (s.wr (Reg.GLB_JOB_CMD n) 1).jobOpenStatus n false = 0 then (s.wr (Reg.GLB_JOB_CMD n) 1).jobOpen n
        else s.wr (Reg.GLB_JOB_CMD n) 1).jobStat n ((s.wr (Reg.GLB_JOB_CMD n) 1).jobOpenStatus n false) := rfl

/-- A command word with GO and CLOSE, and no reserved bit. -/
theorem State.jobCmdWrite_close (s : State) (n : Nat) :
    s.jobCmdWrite n 0x80000002 =
      if (s.job n).isOpen then ((s.wr (Reg.GLB_JOB_CMD n) 2).jobClose n).jobStat n 0
      else (s.wr (Reg.GLB_JOB_CMD n) 2).jobStat n 0x0232 := rfl

theorem State.jobOpenStatus_of_isOpen {s : State} {n : Nat} {rsv : Bool} (h : (s.job n).isOpen = true) :
    s.jobOpenStatus n rsv = 0x0230 := if_pos h

/-- The job that the descriptor at `a` describes (R79). -/
def State.jobAt (s : State) (a : Nat) : Job :=
  let ms := (List.range (s.jobMembers a)).map (fun i => memberOf (s.memberAt (s.le (a + 24) 5) i))
  { isOpen := true, seed := s.le a 8, stitches := s.le (a + 8) 2 + 1, gen := s.le (a + 10) 1, members := ms, shards := ms,
    tallySet := s.jobTallySet a, hist := s.jobRanges a, epoch := s.le (a + 18) 2, memb := 1 }

/-- Where slice `n`'s job descriptor stands (R78). -/
def State.jobArg (s : State) (n : Nat) : Nat := s.addrOf (Reg.GLB_JOB_ARG_LO n) (Reg.GLB_JOB_ARG_HI n)

theorem State.jobArg_wr_cmd (s : State) (n : Nat) (v : Word) : (s.wr (Reg.GLB_JOB_CMD n) v).jobArg n = s.jobArg n := by
  have hlo : Reg.GLB_JOB_ARG_LO n ≠ Reg.GLB_JOB_CMD n := by simp [Reg.GLB_JOB_ARG_LO, Reg.GLB_JOB_CMD]
  have hhi : Reg.GLB_JOB_ARG_HI n ≠ Reg.GLB_JOB_CMD n := by simp [Reg.GLB_JOB_ARG_HI, Reg.GLB_JOB_CMD]
  rw [State.jobArg, State.jobArg, State.addrOf, State.addrOf, State.rf, State.rf, State.rd_wr_other _ _ hlo,
    State.rd_wr_other _ _ hhi]

/-- The part once OPEN has set the job, its step counter and its checkpoint state (R81). -/
def State.jobSet (s : State) (n : Nat) : State :=
  let v := (s.setJob n (s.jobAt (s.jobArg n))).setStep n (s.le (s.jobArg n + 12) 6)
  v.setCkp n { v.ckpOf n with reqs := [], warned := false, epoch := 0, full := true, waiting := none, round := 0,
                              prop := none, lead := none, committed := none }

/-- Unless the job resumes, OPEN zeroes the history ranges (R81). -/
def State.jobZeroed (s : State) (n : Nat) : State :=
  if bitsOf (s.le (s.jobArg n + 11) 1) 0 0 = 1 then s.jobSet n
  else (s.jobRanges (s.jobArg n)).foldl (fun s r => s.zeroRange r.1 r.2) (s.jobSet n)

section
variable (s : State) (n : Nat)

theorem State.jobOpen_eq : s.jobOpen n =
    (((s.jobZeroed n).zeroDraws n).wf (Reg.GLB_JOB_STAT n) 30 30 1).feedStep n (s.le (s.jobArg n + 12) 6) := rfl

theorem State.jobSet_tws : (s.jobSet n).tws = s.tws := by
  simp [State.jobSet]

theorem State.jobSet_memory : (s.jobSet n).mem = s.mem ∧ (s.jobSet n).tags = s.tags := by
  simp [State.jobSet]

theorem State.jobSet_job : (s.jobSet n).job n = s.jobAt (s.jobArg n) := by
  rw [State.job, State.jobSet, State.setCkp_jobs, State.setStep_jobs]
  exact s.job_setJob_same n _

theorem State.jobSet_stepCtr : (s.jobSet n).stepCtr n = s.le (s.jobArg n + 12) 6 := by
  have hreg (u : State) (c : Ckp) (a : Nat) : (u.setCkp n c).rd a = u.rd a := State.rd_of_regs rfl a
  rw [State.jobSet, State.stepCtr_of_rd (hreg _ _ _) (hreg _ _ _), State.stepCtr_setStep _ n (s.le_lt _ 6)]

theorem KeepsJobs.jobZeroed : KeepsJobs (s.jobSet n) (s.jobZeroed n) :=
  .ite (.refl _) (.foldl (fun _ _ hu => .zeroRange hu) (.refl _))

theorem KeepsJobs.zeroDraws {s₀ s : State} (hs : KeepsJobs s₀ s) : KeepsJobs s₀ (s.zeroDraws n) := by
  obtain ⟨rows, h⟩ := s.zeroDraws_eq n
  rw [h]
  exact ⟨hs.jobs, hs.tws, hs.glb⟩

theorem State.zeroDraws_memory : (s.zeroDraws n).mem = s.mem ∧ (s.zeroDraws n).tags = s.tags := by
  obtain ⟨rows, h⟩ := s.zeroDraws_eq n
  rw [h]
  exact ⟨rfl, rfl⟩

/-- OPEN in three parts: the job with its step counter; memory and draws; JOB_OPEN and the feeds' first step (R81). -/
theorem State.jobOpen_parts : ∃ u : State, KeepsJobs (s.jobSet n) u ∧
    (s.le (s.jobArg n + 11) 1 = 1 → u.mem = s.mem ∧ u.tags = s.tags) ∧
    FeedChange (u.wf (Reg.GLB_JOB_STAT n) 30 30 1) (s.jobOpen n) := by
  refine ⟨(s.jobZeroed n).zeroDraws n, .zeroDraws n (.jobZeroed s n), fun hresume => ?_, ?_⟩
  · have hset : s.jobZeroed n = s.jobSet n := if_pos (by rw [hresume]; rfl)
    obtain ⟨hmem, htags⟩ := (s.jobSet n).zeroDraws_memory n
    rw [hset, hmem, htags]
    exact s.jobSet_memory n
  · rw [State.jobOpen_eq]
    exact .feedStep _ _ _

theorem State.jobOpen_job : (s.jobOpen n).job n = s.jobAt (s.jobArg n) := by
  obtain ⟨u, hu, _, h⟩ := s.jobOpen_parts n
  obtain ⟨hjobs, _⟩ := h.fields
  rw [State.job, hjobs, State.wf_jobs, hu.jobs]
  exact s.jobSet_job n

theorem State.jobOpen_tws : (s.jobOpen n).tws = s.tws := by
  obtain ⟨u, hu, _, h⟩ := s.jobOpen_parts n
  obtain ⟨_, htws, _⟩ := h.fields
  rw [htws, State.wf_tws, hu.tws, State.jobSet_tws]

theorem State.jobOpen_memory (hresume : s.le (s.jobArg n + 11) 1 = 1) :
    (s.jobOpen n).mem = s.mem ∧ (s.jobOpen n).tags = s.tags := by
  obtain ⟨u, _, hu, h⟩ := s.jobOpen_parts n
  obtain ⟨_, _, hmem, htags⟩ := h.fields
  rw [hmem, htags, State.wf_mem, State.wf_tags]
  exact hu hresume

theorem State.jobOpen_stepCtr (hn : n < 8) : (s.jobOpen n).stepCtr n = s.le (s.jobArg n + 12) 6 := by
  obtain ⟨u, hu, _, h⟩ := s.jobOpen_parts n
  have hrd {a : Nat} (ha : a < 0x1000) (hne : a ≠ Reg.GLB_JOB_STAT n) :
      (s.jobOpen n).rd a = (s.jobSet n).rd a := by
    rw [h.rd_glb ha, State.rd_wf_other _ _ _ _ hne, hu.glb a ha]
  rw [State.stepCtr_of_rd (hrd ?_ ?_) (hrd ?_ ?_), s.jobSet_stepCtr n]
  all_goals simp only [Reg.GLB_JOB_STEP_LO, Reg.GLB_JOB_STEP_HI, Reg.GLB_JOB_STAT]; omega

theorem State.jobOpen_stat (hn : n < 8) : (s.jobOpen n).rf (Reg.GLB_JOB_STAT n) 30 30 = 1 := by
  obtain ⟨u, _, _, h⟩ := s.jobOpen_parts n
  rw [State.rf, h.rd_glb (by simp only [Reg.GLB_JOB_STAT]; omega), State.rd_wf_same, fieldOf_setField_30_30]

end

theorem State.job_jobStat (s : State) (n st m : Nat) : (s.jobStat n st).job m = s.job m := rfl

theorem State.stepCtr_jobStat (s : State) (n st : Nat) : (s.jobStat n st).stepCtr n = s.stepCtr n :=
  State.stepCtr_of_rd (s.rd_wf_other _ _ _ (by simp [Reg.GLB_JOB_STEP_LO, Reg.GLB_JOB_STAT]))
    (s.rd_wf_other _ _ _ (by simp [Reg.GLB_JOB_STEP_HI, Reg.GLB_JOB_STAT]))

theorem State.rf_jobStat_status (s : State) (n st : Nat) : (s.jobStat n st).rf (Reg.GLB_JOB_STAT n) 15 0 = st % 2 ^ 16 := by
  rw [State.rf, State.jobStat, State.rd_wf_same, fieldOf_setField_15_0]

theorem State.rf_jobStat_open (s : State) (n st : Nat) :
    (s.jobStat n st).rf (Reg.GLB_JOB_STAT n) 30 30 = s.rf (Reg.GLB_JOB_STAT n) 30 30 := by
  rw [State.rf, State.jobStat, State.rd_wf_same, fieldOf_30_30_setField_15_0, State.rf]

/-! ### The exchange of job tallies (R126 to R128) -/

theorem tallyDiffers_of_ne {x : TallyAcc} {b : PeerTally}
    (h : b.digest ≠ x.digest ∨ b.elements ≠ x.elements ∨ b.poisoned ≠ x.poisoned) : tallyDiffers x b = true := by
  rcases h with h | h | h <;> simp [tallyDiffers, Ne.symm h]

/-- A record of this half whose tensor the other half tallied differently, or not at all,
makes the halves diverge (R127, R128). -/
theorem State.tallyExchange_of_differs {s : State} {n k : Nat} {x : TallyAcc} {other : List PeerTally}
    (hmirror : s.rf Reg.GLB_PART_ID 17 16 = 3) (hx : x ∈ (s.job n).jobTallies) (hstep : ∀ t ∈ (s.job n).jobTallies, t.step = k)
    (h : ∀ b ∈ other, b.tensor = x.tensor → b.digest ≠ x.digest ∨ b.elements ≠ x.elements ∨ b.poisoned ≠ x.poisoned) :
    s.tallyExchange n k other =
      if s.pat.mirrorHalt then
        ((s.event Reg.GLB_CONTRACT_EVT 4).count Ctr.GLB_DIVERGE).setJob n { s.job n with halting := true }
      else (s.event Reg.GLB_CONTRACT_EVT 4).count Ctr.GLB_DIVERGE := by
  have hcompared : ¬(s.rf Reg.GLB_PART_ID 17 16 ≠ 3 ∨ (s.job n).jobTallies = [] ∨
      (s.job n).jobTallies.any (fun t => t.step ≠ k) = true) := by
    rintro (hne | hnil | hany)
    · exact hne hmirror
    · exact List.ne_nil_of_mem hx hnil
    · obtain ⟨t, ht, hne⟩ := List.any_eq_true.mp hany
      exact of_decide_eq_true hne (hstep t ht)
  refine (if_neg hcompared).trans (if_pos (List.any_eq_true.mpr ⟨x, hx, ?differs⟩))
  split
  · next b hb => exact tallyDiffers_of_ne (h b (List.mem_of_find?_eq_some hb) (by simpa using List.find?_some hb))
  · rfl

/-- Settles O7: OPEN by `jobOpen_parts`, CLOSE and the refusals by the command word, the exchange
by `tallyExchange_of_differs`. -/
theorem jobCommands : Obligations.JobCommands := by
  refine ⟨?opens, ?alreadyOpen, ?closes, ?notOpen, ?exchange⟩
  case opens =>
    intro s p n hslice hst a ms k
    let u := s.wr (Reg.GLB_JOB_CMD n) 1
    have hn := State.lt_eight_of_hasSlice hslice
    have harg : u.jobArg n = a := s.jobArg_wr_cmd n 1
    have hkept : Keeps s ((u.jobOpen n).jobStat n 0) := .jobStat (.jobOpen (.wr (.refl s)))
    refine ⟨(u.jobOpen n).jobStat n 0, ?next, ?job, ?step, ?isOpen, State.rf_jobStat_status _ n 0, ?memory, ?collectives,
      hkept.queue⟩
    case next => rw [exec_jobOpen_pf0 p _ hslice, State.jobCmdWrite_open, if_pos hst, hst]
    case job =>
      rw [State.job_jobStat, u.jobOpen_job n, harg]
      rfl
    case step =>
      rw [State.stepCtr_jobStat, u.jobOpen_stepCtr n hn, harg]
      rfl
    case isOpen => rw [State.rf_jobStat_open, u.jobOpen_stat n hn]
    case memory =>
      intro hresume
      rw [State.jobStat, State.wf_mem, State.wf_tags]
      exact u.jobOpen_memory n (by rw [harg]; exact hresume)
    case collectives =>
      rw [State.jobStat, State.wf_tws]
      exact u.jobOpen_tws n
  case alreadyOpen =>
    intro s p n hslice hopen
    have hst := State.jobOpenStatus_of_isOpen (s := s.wr (Reg.GLB_JOB_CMD n) 1) (rsv := false) hopen
    rw [exec_jobOpen_pf0 p _ hslice, State.jobCmdWrite_open, hst]
    rfl
  case closes =>
    intro s p n hslice hopen v c
    rw [exec_jobClose_pf0 p _ hslice, State.jobCmdWrite_close, if_pos hopen]
    rfl
  case notOpen =>
    intro s p n hslice hopen
    rw [exec_jobClose_pf0 p _ hslice, State.jobCmdWrite_close, hopen]
    rfl
  case exchange =>
    intro s n k x other hmirror hx hstep h
    exact congrArg Host.Outcome.next (State.tallyExchange_of_differs hmirror hx hstep h)

end Sys2Proof.Machine
end

section
/-! PROOFS. The beat (O8): a boundary, and each transition of the beat under its own condition. -/

namespace Sys2Proof.Machine

variable {s : State} {t : Nat}

/-! ### A boundary (R99, R101) -/

theorem State.rd_wr64_other (s : State) {lo hi a : Nat} (x : Nat) (hlo : a ≠ lo) (hhi : a ≠ hi) :
    (s.wr64 lo hi x).rd a = s.rd a := by
  rw [State.wr64, State.rd_wr_other _ _ hhi, State.rd_wr_other _ _ hlo]

theorem State.sliceCount_of_rd {s t : State} (h : t.rd Reg.GLB_STATUS = s.rd Reg.GLB_STATUS) : t.sliceCount = s.sliceCount := by
  rw [State.sliceCount, State.sliceCount, State.rf, State.rf, h]

/-- The registers that a boundary writes first are not the slice count's, so the steps of all slices follow. -/
theorem State.boundary_eq (s : State) (t : Nat) : s.boundary t = boundaryAt s t := by
  let u := ((s.reach t).wr Reg.GLB_BEAT_SEQ (s.rd Reg.GLB_BEAT_SEQ + 1)).wr64 Reg.GLB_BEAT_TS_LO Reg.GLB_BEAT_TS_HI t
  have hu : u.sliceCount = s.sliceCount := State.sliceCount_of_rd <|
    calc u.rd Reg.GLB_STATUS
        = ((s.reach t).wr Reg.GLB_BEAT_SEQ (s.rd Reg.GLB_BEAT_SEQ + 1)).rd Reg.GLB_STATUS :=
          State.rd_wr64_other _ t (by decide) (by decide)
      _ = s.rd Reg.GLB_STATUS := State.rd_wr_other _ _ (by decide)
  rw [boundaryAt, ← hu]
  rfl

/-! ### Source EXTERNAL (R96, R98) -/

section
variable (hon : s.beat.on = true) (hext : s.beatExternal = true)
include hon hext

theorem State.beatPulse_wait (hst : s.beatState = 2) : s.beatPulse t = (boundaryAt s t).beatLock t := by
  simp [State.beatPulse, hon, hext, hst, State.boundary_eq]

theorem State.beatPulse_inWindow (hst : s.beatState = 3) (hlo : s.beat.expect ≤ t + s.beatW)
    (hhi : t ≤ s.beat.expect + s.beatW) :
    s.beatPulse t = (boundaryAt s t).beatLock t := by
  simp [State.beatPulse, hon, hext, hst, State.boundary_eq, Nat.not_lt.mpr hlo, hhi]

theorem State.beatPulse_early (hst : s.beatState = 3) (h : t + s.beatW < s.beat.expect) : s.beatPulse t = s.beatSlip 0 := by
  simp [State.beatPulse, hon, hext, hst, h]

theorem State.beatPulse_holdover {b : Nat} (hst : s.beatState = 4) (hlast : s.beat.last = some b) (hle : t ≤ b + s.beatP) :
    s.beatPulse t = if s.beatP ≤ 2 * (t - b) then ((boundaryAt s t).beatLock t).event Reg.GLB_CONTRACT_EVT 5
      else (s.beatLock t).event Reg.GLB_CONTRACT_EVT 5 := by
  simp [State.beatPulse, hon, hext, hst, hlast, State.boundary_eq, Nat.not_lt.mpr hle]

theorem State.beatLate_eq (hst : s.beatState = 3) (h : t = s.beat.expect + s.beatW) :
    s.beatLate t = ((boundaryAt s t).setBeatState 4).beatSlip 1 := by
  simp [State.beatLate, hon, hext, hst, State.boundary_eq, ← h]

theorem State.beatHoldover_eq {b : Nat} (hst : s.beatState = 4) (hlast : s.beat.last = some b) (h : t = b + s.beatP) :
    s.beatHoldover t = boundaryAt s t := by
  simp [State.beatHoldover, hon, hext, hst, hlast, State.boundary_eq, ← h]

end

/-! ### Source INTERNAL (R92) -/

theorem State.beatInternal_eq (hon : s.beat.on = true) (hint : s.beatExternal = false) (hmul : t % s.beatP = 0)
    (hlast : s.beat.last ≠ some t) : s.beatInternal t = boundaryAt s t := by
  simp [State.beatInternal, hon, hint, hmul, hlast, State.boundary_eq]

/-- Settles O8: each row of R96 is the case of the command that its condition selects. -/
theorem beatTransitions : Obligations.BeatTransitions := by
  intro s t hon P W E st
  refine ⟨fun hsrc => ?external, fun hsrc hmul hlast => ?internal, fun hdue => ?rise, fun hdue => ?fall⟩
  case external =>
    have hext : s.beatExternal = true := decide_eq_true hsrc
    refine ⟨?boundary, ?early, ?late, fun b hlast hst => ⟨?relock, ?relockOnly, ?holdover⟩, ?glitch⟩
    case boundary =>
      rintro (hst | ⟨hst, hlo, hhi⟩)
      · exact congrArg Host.Outcome.next (State.beatPulse_wait hon hext hst)
      · exact congrArg Host.Outcome.next (State.beatPulse_inWindow hon hext hst hlo hhi)
    case early =>
      intro hst h
      exact congrArg Host.Outcome.next (State.beatPulse_early hon hext hst h)
    case late =>
      intro hst h
      exact congrArg Host.Outcome.next (State.beatLate_eq hon hext hst h)
    case relock =>
      intro hle hhalf
      exact congrArg Host.Outcome.next ((State.beatPulse_holdover hon hext hst hlast hle).trans (if_pos hhalf))
    case relockOnly =>
      intro hle hhalf
      exact congrArg Host.Outcome.next
        ((State.beatPulse_holdover hon hext hst hlast hle).trans (if_neg (Nat.not_le.mpr hhalf)))
    case holdover =>
      intro h
      exact congrArg Host.Outcome.next (State.beatHoldover_eq hon hext hst hlast h)
    case glitch =>
      exact congrArg Host.Outcome.next (if_pos (by rw [hon, hext]; rfl))
  case internal =>
    have hint : s.beatExternal = false := decide_eq_false (by rw [hsrc]; decide)
    exact congrArg Host.Outcome.next (State.beatInternal_eq hon hint hmul hlast)
  case rise => exact congrArg Host.Outcome.next (if_pos hdue)
  case fall => exact congrArg Host.Outcome.next (if_pos hdue)

end Sys2Proof.Machine
end

section
/-! PROOFS. Ply addition (O11): a word there and back, addition on the kinds of elements, and word by word on the finite ones. -/

namespace Sys2Proof.Machine

/-! ### Words as integers (R135, R162) -/

/-- A word that holds an integer reads back as its balanced residue. -/
theorem signed_unsigned {w : Nat} (hw : w ≠ 0) (i : Int) : signed w (unsigned w i) = i.bmod (2 ^ w) := by
  obtain ⟨v, rfl⟩ := Nat.exists_eq_succ_of_ne_zero hw
  have hpos : (0 : Int) < (2 ^ (v + 1) : Nat) := Int.natCast_pos.mpr (Nat.two_pow_pos _)
  have hcast : ((i % (2 ^ (v + 1) : Nat)).toNat : Int) = i % (2 ^ (v + 1) : Nat) :=
    Int.toNat_of_nonneg (Int.emod_nonneg _ hpos.ne')
  have hlt : (i % (2 ^ (v + 1) : Nat)).toNat < 2 ^ (v + 1) := by
    have := Int.emod_lt_of_pos i hpos
    omega
  simp only [signed, unsigned, Nat.mod_eq_of_lt hlt, hcast, Int.bmod_def, Nat.succ_eq_add_one, Nat.add_sub_cancel]
  have hpow : (2 : Nat) ^ (v + 1) = 2 ^ v * 2 := Nat.pow_succ 2 v
  split <;> split <;> omega

theorem plyLegal_iff {i : Int} : plyLegal i = true ↔ -2 ^ 63 + 2 ^ 39 ≤ i ∧ i < 2 ^ 63 := by
  rw [plyLegal, Bool.and_eq_true, decide_eq_true_iff, decide_eq_true_iff]
  omega

/-- The legal range is within the words. -/
theorem signed_unsigned_of_legal {i : Int} (h : plyLegal i = true) : signed 64 (unsigned 64 i) = i := by
  obtain ⟨hlo, hhi⟩ := plyLegal_iff.mp h
  rw [signed_unsigned (by decide)]
  exact Int.bmod_eq_of_le (by omega) (by omega)

theorem isSpecialWord_unsigned_of_legal {i : Int} (h : plyLegal i = true) : isSpecialWord (unsigned 64 i) = false := by
  obtain ⟨hlo, hhi⟩ := plyLegal_iff.mp h
  rw [isSpecialWord, unsigned, Bool.and_eq_false_iff, decide_eq_false_iff_not, decide_eq_false_iff_not]
  omega

/-! ### Kinds of elements (R163, R164) -/

/-- The kind of a sum without carry-out (R165). -/
def PlyKind.add : PlyKind → PlyKind → PlyKind
  | .finite, y => y
  | x, .finite => x
  | .inf x, .inf y => if x = y then .inf x else .nan
  | .poison, _ | _, .poison => .poison
  | .nan, _ | _, .nan => .nan

/-- The top word that stands for a special kind (R163). -/
def PlyKind.word : PlyKind → Nat
  | .finite => 0
  | .poison => spPoison
  | .nan => spNan
  | .inf neg => spInf neg

@[simp] theorem PlyKind.finite_add (x : PlyKind) : PlyKind.finite.add x = x := rfl

@[simp] theorem PlyKind.add_finite (x : PlyKind) : x.add .finite = x := by cases x <;> rfl

@[simp] theorem PlyKind.poison_add (x : PlyKind) : PlyKind.poison.add x = .poison := by cases x <;> rfl

@[simp] theorem PlyKind.add_poison (x : PlyKind) : x.add .poison = .poison := by cases x <;> rfl

theorem PlyKind.add_comm (x y : PlyKind) : x.add y = y.add x := by
  cases x with
  | finite => simp
  | poison => simp
  | nan => cases y <;> rfl
  | inf p =>
    cases y with
    | inf q => revert p q; decide
    | _ => rfl

/-- The order matters for no three kinds: POISON absorbs all, NaN all but POISON, and two infinities of one sign are one. -/
theorem PlyKind.add_assoc (x y z : PlyKind) : (x.add y).add z = x.add (y.add z) := by
  cases y with
  | finite => simp
  | poison => simp
  | nan => cases x <;> cases z <;> rfl
  | inf q =>
    cases x with
    | finite => rfl
    | poison => simp
    | nan =>
      cases z with
      | inf r => revert q r; decide
      | _ => rfl
    | inf p =>
      cases z with
      | finite => simp
      | poison => simp
      | nan => revert p q; decide
      | inf r => revert p q r; decide

theorem PlyKind.add_eq_finite {x y : PlyKind} : x.add y = .finite ↔ x = .finite ∧ y = .finite := by
  cases x with
  | finite => simp
  | poison => simp
  | nan => cases y <;> simp [PlyKind.add]
  | inf p =>
    cases y with
    | inf q => revert p q; decide
    | _ => simp [PlyKind.add]

theorem plyKind_concat (ws : List Nat) (t : Nat) : plyKind (ws ++ [t]) =
    if ws.any isSpecialWord then .poison else
    if !isSpecialWord t then .finite else if t = spNan then .nan else if t = spInf false then .inf false
    else if t = spInf true then .inf true else .poison := by
  simp only [plyKind, List.dropLast_concat, List.getLastD_concat]

/-- Words that are all in the legal range make a finite element. -/
theorem plyKind_eq_finite {ws : List Nat} (h : ∀ w ∈ ws, isSpecialWord w = false) : plyKind ws = .finite := by
  obtain rfl | ⟨ws, t, rfl⟩ := List.eq_nil_or_concat' ws
  · rfl
  · have hlow : ws.any isSpecialWord = false :=
      List.any_eq_false.mpr fun w hw => by simp [h w (List.mem_append_left _ hw)]
    have htop : isSpecialWord t = false := h t (by simp)
    simp [plyKind_concat, hlow, htop]

/-- A special element reads as the kind that its top word stands for. -/
theorem plyKind_specialWords (k : Nat) {x : PlyKind} (hx : x ≠ .finite) : plyKind (specialWords k x.word) = x := by
  have hlow : (List.replicate (k - 1) 0).any isSpecialWord = false :=
    List.any_eq_false.mpr fun w hw => by rw [List.eq_of_mem_replicate hw]; decide
  rw [specialWords, plyKind_concat, hlow]
  cases x with
  | finite => exact absurd rfl hx
  | poison => rfl
  | nan => rfl
  | inf neg => cases neg <;> rfl

/-! ### Sums of elements (R138, R165, R167) -/

/-- The exact sums of the words of two elements. -/
def wordSums (a b : List Nat) : List Int := List.zipWith (fun x y => signed 64 x + signed 64 y) a b

theorem wordSums_comm (a b : List Nat) : wordSums a b = wordSums b a :=
  List.zipWith_comm_of_comm fun _ _ => Int.add_comm _ _

/-- Legal sums keep their values as the words of an element. -/
theorem map_signed_unsigned_of_legal {l : List Int} (h : l.all plyLegal = true) :
    (l.map (unsigned 64)).map (signed 64) = l := by
  rw [List.map_map]
  exact (List.map_congr_left fun i hi => signed_unsigned_of_legal (List.all_eq_true.mp h i hi)).trans (List.map_id l)

theorem wordSums_eq (a b : List Nat) : wordSums a b = List.zipWith (· + ·) (a.map (signed 64)) (b.map (signed 64)) :=
  List.zipWith_map.symm

theorem wordSums_words_assoc {a b c : List Nat} (hab : (wordSums a b).all plyLegal = true)
    (hbc : (wordSums b c).all plyLegal = true) :
    wordSums ((wordSums a b).map (unsigned 64)) c = wordSums a ((wordSums b c).map (unsigned 64)) := by
  calc wordSums ((wordSums a b).map (unsigned 64)) c
      = List.zipWith (· + ·) (wordSums a b) (c.map (signed 64)) := by rw [wordSums_eq, map_signed_unsigned_of_legal hab]
    _ = List.zipWith (· + ·) (a.map (signed 64)) (wordSums b c) := by
      rw [wordSums_eq, wordSums_eq, List.zipWith_zipWith_left, List.zipWith_zipWith_right]
      simp only [Int.add_assoc]
    _ = wordSums a ((wordSums b c).map (unsigned 64)) := by rw [wordSums_eq a, map_signed_unsigned_of_legal hbc]

section
variable {k : Nat} {a b c : List Nat}

/-- Two finite elements add word by word (R138, R167). -/
theorem plyAdd_of_finite (ha : plyKind a = .finite) (hb : plyKind b = .finite) :
    plyAdd k a b = if (wordSums a b).all plyLegal then ((wordSums a b).map (unsigned 64), false)
      else (specialWords k spPoison, true) := by
  simp only [plyAdd, ha, hb]
  rfl

/-- A special element decides the sum, and its own words do not matter (R165). -/
theorem plyAdd_of_special (h : (plyKind a).add (plyKind b) ≠ .finite) :
    plyAdd k a b = (specialWords k ((plyKind a).add (plyKind b)).word, false) := by
  unfold plyAdd
  revert h
  generalize plyKind a = x
  generalize plyKind b = y
  intro h
  cases x with
  | finite =>
    cases y with
    | finite => exact absurd rfl h
    | _ => rfl
  | inf p =>
    cases y with
    | inf q => cases p <;> cases q <;> rfl
    | _ => rfl
  | _ => cases y <;> rfl

theorem plyAdd_finite_words (ha : plyKind a = .finite) (hb : plyKind b = .finite) (h : (plyAdd k a b).2 = false) :
    (wordSums a b).all plyLegal = true ∧ (plyAdd k a b).1 = (wordSums a b).map (unsigned 64) := by
  rw [plyAdd_of_finite ha hb] at h ⊢
  split at h
  · next hl => exact ⟨hl, congrArg Prod.fst (if_pos hl)⟩
  · cases h

theorem plyKind_plyAdd (h : (plyAdd k a b).2 = false) : plyKind (plyAdd k a b).1 = (plyKind a).add (plyKind b) := by
  by_cases hfin : (plyKind a).add (plyKind b) = .finite
  · obtain ⟨ha, hb⟩ := PlyKind.add_eq_finite.mp hfin
    obtain ⟨hlegal, hwords⟩ := plyAdd_finite_words ha hb h
    rw [hfin, hwords]
    refine plyKind_eq_finite fun w hw => ?_
    obtain ⟨i, hi, rfl⟩ := List.mem_map.mp hw
    exact isSpecialWord_unsigned_of_legal (List.all_eq_true.mp hlegal i hi)
  · rw [plyAdd_of_special hfin]
    exact plyKind_specialWords k hfin

theorem plyAdd_comm (k : Nat) (a b : List Nat) : plyAdd k a b = plyAdd k b a := by
  have hkind := PlyKind.add_comm (plyKind a) (plyKind b)
  by_cases hfin : (plyKind a).add (plyKind b) = .finite
  · obtain ⟨ha, hb⟩ := PlyKind.add_eq_finite.mp hfin
    rw [plyAdd_of_finite ha hb, plyAdd_of_finite hb ha, wordSums_comm]
  · rw [plyAdd_of_special hfin, plyAdd_of_special (hkind ▸ hfin), hkind]

theorem plyAdd_assoc (hab : (plyAdd k a b).2 = false) (hbc : (plyAdd k b c).2 = false)
    (habc : (plyAdd k (plyAdd k a b).1 c).2 = false) (habc' : (plyAdd k a (plyAdd k b c).1).2 = false) :
    (plyAdd k (plyAdd k a b).1 c).1 = (plyAdd k a (plyAdd k b c).1).1 := by
  have hleft := plyKind_plyAdd hab
  have hright := plyKind_plyAdd hbc
  have hkind := PlyKind.add_assoc (plyKind a) (plyKind b) (plyKind c)
  rw [← hleft, ← hright] at hkind
  by_cases hfin : (plyKind (plyAdd k a b).1).add (plyKind c) = .finite
  · obtain ⟨hkab, hkc⟩ := PlyKind.add_eq_finite.mp hfin
    obtain ⟨hka, hkbc⟩ := PlyKind.add_eq_finite.mp (hkind ▸ hfin)
    obtain ⟨-, hkb⟩ := PlyKind.add_eq_finite.mp (hleft.symm.trans hkab)
    obtain ⟨hlab, hwab⟩ := plyAdd_finite_words hka hkb hab
    obtain ⟨hlbc, hwbc⟩ := plyAdd_finite_words hkb hkc hbc
    rw [(plyAdd_finite_words hkab hkc habc).2, (plyAdd_finite_words hka hkbc habc').2, hwab, hwbc,
      wordSums_words_assoc hlab hlbc]
  · rw [plyAdd_of_special hfin, hkind, plyAdd_of_special (a := a) (hkind ▸ hfin)]

end

/-- Settles O11: `plyAdd_comm` and `plyAdd_assoc`. -/
theorem plyAddition : Obligations.PlyAddition := by
  intro k a b c _ _ _ _
  exact ⟨plyAdd_comm k a b, plyAdd_assoc⟩

end Sys2Proof.Machine
end

section
/-! PROOFS. The words of a converted term (O12): rounding, the split into words, and the 24 significant bits of a term. -/

namespace Sys2Proof.Machine

/-! ### Rounding to the nearest integer (R158) -/

/-- Rounding goes down when the remainder is at most half a unit, and up when it is at least half a unit. -/
theorem rneShift_cases (m r : Nat) :
    (rneShift m r = m / 2 ^ r ∧ 2 * (m % 2 ^ r) ≤ 2 ^ r) ∨ (rneShift m r = m / 2 ^ r + 1 ∧ 2 ^ r ≤ 2 * (m % 2 ^ r)) := by
  by_cases hup : 2 * (m % 2 ^ r) > 2 ^ r ∨ (2 * (m % 2 ^ r) = 2 ^ r ∧ m / 2 ^ r % 2 = 1)
  · exact .inr ⟨if_pos hup, by omega⟩
  · exact .inl ⟨if_neg hup, by omega⟩

theorem rneShift_error (m r : Nat) :
    2 * (((rneShift m r * 2 ^ r : Nat) : Int) - m).natAbs ≤ 2 ^ r := by
  have hm := Nat.div_add_mod' m (2 ^ r)
  obtain ⟨h, hrem⟩ | ⟨h, hrem⟩ := rneShift_cases m r
  · rw [h]
    omega
  · have hlt : m % 2 ^ r < 2 ^ r := Nat.mod_lt m (Nat.two_pow_pos r)
    rw [h, Nat.add_mul, Nat.one_mul]
    omega

/-- A magnitude that rounds up has a remainder. -/
theorem rneShift_le (m r : Nat) : rneShift m r ≤ m := by
  have hm := Nat.div_add_mod' m (2 ^ r)
  have hpos := Nat.two_pow_pos r
  have hq : m / 2 ^ r ≤ m / 2 ^ r * 2 ^ r := Nat.le_mul_of_pos_right _ hpos
  obtain ⟨h, _⟩ | ⟨h, hrem⟩ := rneShift_cases m r <;> omega

theorem rneInt_of_nonneg (m s : Nat) : rneInt m s = m * 2 ^ s := if_pos (Int.natCast_nonneg s)

theorem rneInt_of_neg (m : Nat) {t : Int} (ht : t < 0) : rneInt m t = rneShift m (-t).toNat := if_neg (Int.not_le.mpr ht)

/-- The rounded integer is within half a unit of m times 2^t. -/
theorem rneInt_error (m : Nat) (t : Int) :
    2 * ((rneInt m t : Int) * 2 ^ (-t).toNat - m * 2 ^ t.toNat).natAbs ≤ 2 ^ (-t).toNat := by
  obtain ⟨s, rfl⟩ | ht := (le_or_gt 0 t).imp_left Int.eq_ofNat_of_zero_le
  · simp [rneInt_of_nonneg]
  · rw [rneInt_of_neg m ht, Int.toNat_of_nonpos ht.le, pow_zero, mul_one]
    exact_mod_cast rneShift_error m (-t).toNat

theorem mul_two_pow_lt {m d p : Nat} (h : m ≠ 0 → Nat.log2 m + d < p) : m * 2 ^ d < 2 ^ p := by
  by_cases h0 : m = 0
  · simp [h0]
  · calc m * 2 ^ d < 2 ^ (Nat.log2 m + 1) * 2 ^ d := Nat.mul_lt_mul_of_pos_right Nat.lt_log2_self (Nat.two_pow_pos d)
      _ = 2 ^ (Nat.log2 m + 1 + d) := (Nat.pow_add 2 _ d).symm
      _ ≤ 2 ^ p := Nat.pow_le_pow_right Nat.two_pos (by have := h h0; omega)

/-- A magnitude of `p` bits below 2^(p + c) rounds to at most `p` bits above 2^c: it is rounded only where it is short. -/
theorem rneInt_le {m p c : Nat} {t : Int} (hm : m < 2 ^ p) (ht : m ≠ 0 → (Nat.log2 m : Int) + t < p + c) :
    rneInt m t ≤ (2 ^ p - 1) * 2 ^ c := by
  obtain ⟨s, rfl⟩ | hneg := (le_or_gt 0 t).imp_left Int.eq_ofNat_of_zero_le
  · rw [rneInt_of_nonneg]
    obtain hsc | ⟨d, rfl⟩ := (Nat.le_total s c).imp_right Nat.exists_eq_add_of_le
    · exact Nat.mul_le_mul (Nat.le_sub_one_of_lt hm) (Nat.pow_le_pow_right Nat.two_pos hsc)
    · have hmd : m * 2 ^ d < 2 ^ p := mul_two_pow_lt fun h0 => by
        have := ht h0
        push_cast at this
        omega
      calc m * 2 ^ (c + d) = m * 2 ^ d * 2 ^ c := by rw [Nat.add_comm, Nat.pow_add, Nat.mul_assoc]
        _ ≤ (2 ^ p - 1) * 2 ^ c := Nat.mul_le_mul_right _ (Nat.le_sub_one_of_lt hmd)
  · calc rneInt m t ≤ m := by rw [rneInt_of_neg m hneg]; exact rneShift_le m _
      _ ≤ 2 ^ p - 1 := Nat.le_sub_one_of_lt hm
      _ ≤ (2 ^ p - 1) * 2 ^ c := Nat.le_mul_of_pos_right _ (Nat.two_pow_pos c)

/-! ### The split into words (R159) -/

/-- The largest integer that `k` words from -2^39 to 2^39 - 1 stand for. -/
def splitMax : Nat → Nat
  | 0 => 0
  | k + 1 => 2 ^ 39 - 1 + 2 ^ 40 * splitMax k

theorem splitWords_succ_succ (k : Nat) (n : Int) :
    splitWords (k + 2) n = unsigned 64 (n.bmod (2 ^ 40)) :: splitWords (k + 1) (n.bdiv (2 ^ 40)) := by
  have hdiv : (n - n.bmod (2 ^ 40)) / 2 ^ 40 = n.bdiv (2 ^ 40) := by
    have := Int.bmod_add_bdiv n (2 ^ 40)
    omega
  rw [splitWords, signed_unsigned (by decide), hdiv]

theorem length_splitWords : ∀ (k : Nat) (n : Int), (splitWords k n).length = k
  | 0, _ => rfl
  | 1, _ => rfl
  | k + 2, n => by rw [splitWords_succ_succ, List.length_cons, length_splitWords (k + 1)]

theorem bmod_word_range (n : Int) : -2 ^ 39 ≤ n.bmod (2 ^ 40) ∧ n.bmod (2 ^ 40) ≤ 2 ^ 39 - 1 := by
  have hlo := Int.le_bmod (x := n) (m := 2 ^ 40) (by decide)
  have hhi := Int.bmod_lt (x := n) (m := 2 ^ 40) (by decide)
  omega

theorem natAbs_bdiv_le {k : Nat} {n : Int} (h : n.natAbs ≤ splitMax (k + 1)) :
    (n.bdiv (2 ^ 40)).natAbs ≤ splitMax k := by
  have hsum := Int.bmod_add_bdiv n (2 ^ 40)
  obtain ⟨hlo, hhi⟩ := bmod_word_range n
  rw [splitMax] at h
  omega

theorem signed_unsigned_of_range {i : Int} (h : -2 ^ 39 ≤ i ∧ i ≤ 2 ^ 39 - 1) : signed 64 (unsigned 64 i) = i :=
  signed_unsigned_of_legal (plyLegal_iff.mpr (by omega))

theorem range_of_natAbs_le {n : Int} (h : n.natAbs ≤ splitMax 1) : -2 ^ 39 ≤ n ∧ n ≤ 2 ^ 39 - 1 := by
  simp only [splitMax] at h
  omega

/-- No word of the split leaves its range (R160). -/
theorem splitWords_range : ∀ (k : Nat) (n : Int), n.natAbs ≤ splitMax k →
    ∀ w ∈ splitWords k n, -2 ^ 39 ≤ signed 64 w ∧ signed 64 w ≤ 2 ^ 39 - 1
  | 0, _, _ => by simp [splitWords]
  | 1, n, h => by
    have hn := range_of_natAbs_le h
    simpa [splitWords, signed_unsigned_of_range hn] using hn
  | k + 2, n, h => by
    rw [splitWords_succ_succ, List.forall_mem_cons, signed_unsigned_of_range (bmod_word_range n)]
    exact ⟨bmod_word_range n, splitWords_range (k + 1) _ (natAbs_bdiv_le h)⟩

/-- The words of the split stand for the integer (R135). -/
theorem plyInt_splitWords : ∀ (k : Nat) (n : Int), n.natAbs ≤ splitMax (k + 1) → plyInt (splitWords (k + 1) n) = n
  | 0, n, h => by simp [splitWords, plyInt, signed_unsigned_of_range (range_of_natAbs_le h)]
  | k + 1, n, h => by
    rw [splitWords_succ_succ, plyInt, signed_unsigned_of_range (bmod_word_range n), plyInt_splitWords k _ (natAbs_bdiv_le h)]
    exact Int.bmod_add_bdiv n (2 ^ 40)

/-- 24 significant bits at the top leave the words room for every borrow. -/
theorem le_splitMax (k : Nat) : (2 ^ 24 - 1) * 2 ^ (40 * k + 15) ≤ splitMax (k + 1) := by
  induction k with
  | zero => decide
  | succ k ih =>
    have hpow : 2 ^ (40 * (k + 1) + 15) = 2 ^ 40 * 2 ^ (40 * k + 15) := by ring
    rw [splitMax, hpow]
    omega

/-! ### Terms (R144, R145, R157) -/

theorem decodeFloat_fin_lt {f : FloatFmt} {bits m : Nat} {neg : Bool} {e : Int} (hp : f.p ≠ 0)
    (h : decodeFloat f bits = .fin neg m e) : m < 2 ^ f.p := by
  have hman : bits % 2 ^ (f.p - 1) < 2 ^ (f.p - 1) := Nat.mod_lt _ (Nat.two_pow_pos _)
  have hpow : 2 ^ f.p = 2 ^ (f.p - 1) * 2 := (Nat.pow_pred_mul (Nat.pos_of_ne_zero hp)).symm
  simp only [decodeFloat] at h
  split_ifs at h
  all_goals
    cases h
    omega

/-- An MX scale moves the exponent only (R157). -/
theorem decodeFloat_of_decodeElem {code scale bits m : Nat} {neg : Bool} {e : Int}
    (h : decodeElem code scale bits = .fin neg m e) : ∃ e', decodeFloat (fmtOf code) bits = .fin neg m e' := by
  by_cases hmx : isMx code
  · rw [decodeElem, if_pos hmx] at h
    split at h
    · cases h
    · split at h
      · next hf =>
        cases h
        exact ⟨_, hf⟩
      · exact ⟨_, h⟩
  · exact ⟨e, by rwa [decodeElem, if_neg hmx] at h⟩

theorem fmtOf_p (code : Nat) : (fmtOf code).p ≠ 0 ∧ (fmtOf code).p ≤ 24 := by
  unfold fmtOf
  split <;> decide

/-- A term of any format has at most the 24 significant bits of FP32. -/
theorem decodeElem_fin_lt {code scale bits m : Nat} {neg : Bool} {e : Int} (h : decodeElem code scale bits = .fin neg m e) :
    m < 2 ^ 24 := by
  obtain ⟨e', hf⟩ := decodeFloat_of_decodeElem h
  obtain ⟨hp, hp24⟩ := fmtOf_p code
  exact (decodeFloat_fin_lt hp hf).trans_le (Nat.pow_le_pow_right Nat.two_pos hp24)

/-- A term that fits its gauge lies below 2^(G - 1) (R142, R145). -/
theorem floorLog2_le_of_expByte_le {neg : Bool} {m g : Nat} {e : Int} (hm : m ≠ 0) (hg : 1 ≤ g)
    (h : expByte (.fin neg m e) ≤ g) : floorLog2 m e ≤ gaugeG g - 2 := by
  rw [expByte, if_neg hm] at h
  rw [gaugeG]
  omega

/-- The integer of R158, with the sign of the term. -/
def termInt (k g : Nat) (neg : Bool) (m : Nat) (e : Int) : Int :=
  if neg then -(rneInt m (e + 40 * k - gaugeG g) : Int) else rneInt m (e + 40 * k - gaugeG g)

theorem plyConvert_fin (k g : Nat) (neg : Bool) (m : Nat) (e : Int) :
    plyConvert k g (.fin neg m e) = splitWords k (termInt k g neg m e) := rfl

theorem natAbs_termInt (k g : Nat) (neg : Bool) (m : Nat) (e : Int) :
    (termInt k g neg m e).natAbs = rneInt m (e + 40 * k - gaugeG g) := by
  unfold termInt
  split <;> omega

/-- A fitting term keeps the split within its words. -/
theorem natAbs_termInt_le {k g : Nat} {neg : Bool} {m : Nat} {e : Int} (hg : 1 ≤ g) (hm : m < 2 ^ 24)
    (h : expByte (.fin neg m e) ≤ g) : (termInt (k + 1) g neg m e).natAbs ≤ splitMax (k + 1) := by
  have hle : rneInt m (e + 40 * (k + 1 : Nat) - gaugeG g) ≤ (2 ^ 24 - 1) * 2 ^ (40 * k + 15) := by
    refine rneInt_le hm fun h0 => ?_
    have := floorLog2_le_of_expByte_le h0 hg h
    rw [floorLog2] at this
    omega
  exact (natAbs_termInt _ _ _ _ _).trans_le (hle.trans (le_splitMax k))

theorem termInt_error (k g : Nat) (neg : Bool) (m : Nat) (e : Int) :
    2 * (termInt k g neg m e * 2 ^ (gaugeG g - 40 * k - e).toNat -
      (if neg then -1 else 1) * m * 2 ^ (e + 40 * k - gaugeG g).toNat).natAbs ≤ 2 ^ (gaugeG g - 40 * k - e).toNat := by
  have h := rneInt_error m (e + 40 * k - gaugeG g)
  rw [show -(e + 40 * k - gaugeG g) = gaugeG g - 40 * k - e by ring] at h
  cases neg with
  | false => simpa [termInt] using h
  | true =>
    rw [← Int.natAbs_neg] at h
    convert h using 3
    simp only [termInt, if_true]
    ring

/-- Settles O12: the integer of a fitting term is within what its words can hold, so the split loses nothing. -/
theorem plyTermWords : Obligations.PlyTermWords := by
  intro k g code scale bits neg m e hk _ hg _ _ _ _ hdec hfit
  obtain ⟨k, rfl⟩ := Nat.exists_eq_add_of_le' hk
  have hmax := natAbs_termInt_le (k := k) hg (decodeElem_fin_lt hdec) hfit
  rw [plyConvert_fin, plyInt_splitWords k _ hmax]
  exact ⟨length_splitWords _ _, splitWords_range _ _ hmax, termInt_error _ _ _ _ _⟩

end Sys2Proof.Machine
end

section
/-! PROOFS. What records meet on arrival (O15), and the reducing records (O16): the checks that all types share, once, and then
the slot of the unit. -/

namespace Sys2Proof.Machine

/-! ### The checks that every type shares (R205, R210, R221) -/

/-- A record command of type `t` runs the shared checks for its own type. -/
theorem exec_recordRow (s : State) (t : Nat) (r : TwistRec) :
    ∃ k body, exec (recordRow t r) s = .next (s.receiveType k r body) ∧ (1 ≤ t → t ≤ 8 → k = t) := by
  unfold recordRow
  split <;> refine ⟨_, _, rfl, ?_⟩ <;> grind

/-- The part once `x` is what the rule of a record's type makes of it: its state, answered as refused or not (R210). -/
def answered (r : TwistRec) (x : State × Bool) : State := x.1.answer r (if x.2 then 1 else 0)

theorem answered_acked (r : TwistRec) (s : State) : answered r (s, false) = acked s r 0 := rfl

theorem answered_refused (r : TwistRec) (s : State) : answered r (s, true) = (acked s r 1).count Ctr.TWS_NAK_NR := rfl

theorem State.receiveType_self (s : State) {t : Nat} {r : TwistRec} (body : Coll → State × Bool) (ht : r.type = t) :
    s.receiveType t r body = s.receive r body := if_pos (.inl ht)

theorem State.receiveType_reserved (s : State) (k : Nat) {r : TwistRec} (body : Coll → State × Bool)
    (ht : r.type = 0 ∨ 9 ≤ r.type) :
    s.receiveType k r body = acked ((s.count Ctr.TWS_BAD_REC).event Reg.TWS_EVT 5) r 0 :=
  (if_pos (.inr ht)).trans (if_pos (ht.imp_right .inl))

/-- A whole piece of a type in use, for a collective in flight. -/
theorem State.receive_inFlight {s : State} {r : TwistRec} {c : Coll} (body : Coll → State × Bool) (h1 : 1 ≤ r.type)
    (h8 : r.type ≤ 8) (hpiece : r.piece < r.pieces) (hcoll : s.coll? r.collId = some c) :
    s.receive r body =
      if r.epoch ≠ c.d.epoch then acked (s.count Ctr.TWS_STALE) r 0
      else if c.failed || c.held then acked s r 0
      else if !c.started then (acked s r 1).count Ctr.TWS_NAK_NR
      else answered r (body c) := by
  have hgood : ¬(r.type = 0 ∨ 9 ≤ r.type ∨ r.pieces = 0 ∨ r.pieces ≤ r.piece) := by omega
  rw [State.receive, if_neg hgood, hcoll]
  rfl

/-- Settles O15: each clause is one branch of the shared checks. -/
theorem twistArrival : Obligations.TwistArrival := by
  refine ⟨fun s r t ht => ?reserved, fun s r c h1 h8 hpiece hcoll => ⟨fun hepoch => ?former, ?notStarted⟩⟩
  case reserved =>
    obtain ⟨k, body, hexec, _⟩ := exec_recordRow s t r
    rw [hexec, s.receiveType_reserved k body ht]
  all_goals
    obtain ⟨k, body, hexec, hk⟩ := exec_recordRow s r.type r
    rw [hexec, s.receiveType_self body (hk h1 h8).symm, State.receive_inFlight body h1 h8 hpiece hcoll]
  case former => rw [if_pos hepoch]
  case notStarted =>
    intro hepoch hfailed hheld hstarted
    rw [if_neg (not_not.mpr hepoch), hfailed, hheld, hstarted]
    rfl

/-- What `meets` says of the part, the record and the collective. -/
theorem meets_iff {s : State} {r : TwistRec} {t : Nat} {c : Coll} : meets s r t c = true ↔
    s.coll? r.collId = some c ∧ r.epoch = c.d.epoch ∧ r.type = t ∧ r.piece < r.pieces ∧ c.started = true ∧
      c.failed = false ∧ c.held = false := by
  simp [meets, and_assoc]

/-- A record that meets its collective is handed to the rule of its type, and answered as that says. -/
theorem State.receiveType_meets {s : State} {r : TwistRec} {t : Nat} {c : Coll} (body : Coll → State × Bool)
    (h1 : 1 ≤ t) (h8 : t ≤ 8) (h : meets s r t c = true) :
    s.receiveType t r body = answered r (body c) := by
  obtain ⟨hcoll, hepoch, rfl, hpiece, hstarted, hfailed, hheld⟩ := meets_iff.mp h
  rw [s.receiveType_self body rfl, State.receive_inFlight body h1 h8 hpiece hcoll, if_neg (not_not.mpr hepoch), hfailed,
    hheld, hstarted]
  rfl

/-! ### Reducing records (R221 to R223, R247, R249, R256) -/

/-- A reducing record is one of a kind that its collective sums, combines or awaits. -/
theorem reducingRow_eq_some {c : Coll} {r : TwistRec} {i : Instr} {u : Nat} (h : reducingRow c r = some (i, u)) :
    (r.type = 1 ∧ c.d.reduces = true ∧ i = .contribReceive r ∧ u = r.block) ∨
    (r.type = 2 ∧ c.d.prepass = true ∧ i = .gaugeBytesReceive r ∧ u = r.block / 256) ∨
    (r.type = 6 ∧ c.d.barrier = true ∧ i = .tokenReceive r ∧ u = 0) := by
  unfold reducingRow at h
  split at h
  · simp_all
  · split at h
    · simp_all
    · split at h <;> simp_all

/-- What met its slot, once the waiting local images that now fit are added. -/
def settled (r : TwistRec) (x : State × Bool) : State × Bool := (x.1.settleLocal r.collId, x.2)

theorem settled_mk (r : TwistRec) (s : State) (b : Bool) : settled r (s, b) = (s.settleLocal r.collId, b) := rfl

/-- A reducing record that meets its collective meets the slot of its unit. -/
theorem exec_reducingRow {s : State} {r : TwistRec} {c : Coll} {i : Instr} {u : Nat} (h : meets s r r.type c = true)
    (hrow : reducingRow c r = some (i, u)) : exec i s = .next (answered r (settled r (s.takeRecord c r u false))) := by
  have hexec : exec i s = .next (s.receiveType r.type r (s.reducing r)) := by
    obtain ⟨ht, _, rfl, _⟩ | ⟨ht, _, rfl, _⟩ | ⟨ht, _, rfl, _⟩ := reducingRow_eq_some hrow <;> rw [ht] <;> rfl
  have hred : s.reducing r c = settled r (s.takeRecord c r u false) := by
    obtain ⟨ht, hd, _, rfl⟩ | ⟨ht, hd, _, rfl⟩ | ⟨ht, hd, _, rfl⟩ := reducingRow_eq_some hrow <;>
      simp [State.reducing, settled, ht, hd]
  have htype : 1 ≤ r.type ∧ r.type ≤ 8 := by
    obtain ⟨ht, _⟩ | ⟨ht, _⟩ | ⟨ht, _⟩ := reducingRow_eq_some hrow <;> omega
  rw [hexec, State.receiveType_meets _ htype.1 htype.2 h, hred]

section
variable {s : State} {c : Coll} {r : TwistRec} {u : Nat} (hu : u < c.d.units)
include hu

theorem State.takeRecord_done (h : s.unitDone c.d u = true) : s.takeRecord c r u false =
    if s.doneRound c.d u < r.round then (s, true)
    else if r.round < s.doneRound c.d u then (s.count Ctr.TWS_STALE, false)
    else (s.count Ctr.TWS_DUP, false) := by
  rw [State.takeRecord, if_neg (Nat.not_le.mpr hu), if_pos h]
  split_ifs <;> rfl

theorem State.takeRecord_busy (h : s.unitDone c.d u = false) (hbusy : s.slotBusy (c.d.slotAddr u) = true)
    (hblock : s.slotBlock (c.d.slotAddr u) ≠ u) : s.takeRecord c r u false = (s, true) := by
  simp [State.takeRecord, Nat.not_le.mpr hu, h, hbusy, hblock]

/-- A record of one piece at a slot that is free, or holds its unit. -/
theorem State.takeRecord_whole (h : s.unitDone c.d u = false)
    (hslot : s.slotBusy (c.d.slotAddr u) = false ∨ s.slotBlock (c.d.slotAddr u) = u) (hwhole : r.pieces = 1)
    (hmask : s.slotBusy (c.d.slotAddr u) = false ∨ s.pieceMask c r (c.d.slotAddr u) = 0) :
    s.takeRecord c r u false =
      (let round := if s.slotBusy (c.d.slotAddr u) then s.slotRound (c.d.slotAddr u) else 0
       let bm := if s.slotBusy (c.d.slotAddr u) then s.bitmap c.d (c.d.slotAddr u) else 0
       let bits := spanMask r.spanLo r.spanCnt c.d.total
       if r.round < round then (s.count Ctr.TWS_STALE, false)
       else if round < r.round then (s, true)
       else if bm &&& bits = bits then (s.count Ctr.TWS_DUP, false)
       else if bm &&& bits = 0 ∧ s.spanExpected c r u false = true then (s.acceptRecord c r u, false)
       else (s.conflict c u, false)) := by
  have hfree : ¬(s.slotBusy (c.d.slotAddr u) = true ∧ s.slotBlock (c.d.slotAddr u) ≠ u) := by
    rcases hslot with h | h <;> simp [h]
  have hholds : s.slotHolds (c.d.slotAddr u) u = s.slotBusy (c.d.slotAddr u) := by
    rcases hslot with h | h <;> simp [State.slotHolds, h]
  have hm : (if s.slotBusy (c.d.slotAddr u) then s.pieceMask c r (c.d.slotAddr u) else 0) = 0 := by
    rcases hmask with h | h <;> simp [h]
  have hnone : ∀ p, bitOf 0 p = false := by simp [bitOf]
  have hone : ¬ 1 < r.pieces := by omega
  have hconflict : ∀ x : Nat, (x ≠ 0 ∨ (!s.spanExpected c r u false) = true) ↔
      ¬(x = 0 ∧ s.spanExpected c r u false = true) := by
    simp [imp_iff_not_or]
  simp only [State.takeRecord, if_neg (Nat.not_le.mpr hu), h, if_neg hfree, hholds, hm, hnone, hone, hconflict, ite_not,
    Bool.false_eq_true, false_and, or_false, if_false]

end

/-- Settles O16: the slot of the unit decides, branch by branch. -/
theorem reducingRecords : Obligations.ReducingRecords := by
  intro s r c i u h hrow hu a bits refused
  rw [exec_reducingRow h hrow]
  refine ⟨fun hdone => ?done, fun hdone hbusy hblock => ?busy, fun hdone hslot hwhole hmask => ?taken⟩
  case done =>
    rw [State.takeRecord_done hu hdone]
    simp only [apply_ite (settled r), apply_ite (answered r), settled_mk, answered_refused, answered_acked]
    rfl
  case busy => rw [State.takeRecord_busy hu hdone hbusy hblock, settled_mk, answered_refused]
  case taken =>
    rw [State.takeRecord_whole hu hdone hslot hwhole hmask]
    simp only [apply_ite (settled r), apply_ite (answered r), settled_mk, answered_refused, answered_acked]
    rfl

end Sys2Proof.Machine
end

section
/-! PROOFS. Results, redos, finals, notes and releases (O18): each rule on a record that meets its collective. -/

namespace Sys2Proof.Machine

/-! ### Collectives in flight -/

theorem find?_collId_replace {cs : List Coll} {id : Nat} {c c' : Coll} (hc : cs.find? (fun x => x.d.collId = id) = some c)
    (hserial : c'.serial = c.serial) (hid : c'.d.collId = id) :
    (cs.map (fun x => if x.serial = c'.serial then c' else x)).find? (fun x => x.d.collId = id) = some c' := by
  induction cs with
  | nil => simp at hc
  | cons x cs ih =>
    by_cases hx : x.serial = c'.serial
    · simp [hx, hid]
    · have hne : x.d.collId ≠ id := by
        rintro h
        obtain rfl : x = c := by simpa [h] using hc
        exact hx hserial.symm
      simpa [hx, hne] using ih (by simpa [hne] using hc)

theorem State.collId_of_coll? {s : State} {id : Nat} {c : Coll} (hc : s.coll? id = some c) : c.d.collId = id := by
  simpa using List.find?_some hc

/-- A replaced collective is found under its COLL_ID. -/
theorem State.coll?_setColl {s : State} {id : Nat} {c c' : Coll} (hc : s.coll? id = some c) (hserial : c'.serial = c.serial)
    (hid : c'.d.collId = c.d.collId) : (s.setColl c').coll? id = some c' :=
  find?_collId_replace hc hserial (hid.trans (State.collId_of_coll? hc))

theorem State.setColl_count (s : State) (c : Coll) (a : Nat) : (s.count a).setColl c = (s.setColl c).count a := rfl

/-- The later of two replacements of one collective stands. -/
theorem State.setColl_setColl (s : State) {c c' : Coll} (h : c'.serial = c.serial) :
    (s.setColl c).setColl c' = s.setColl c' := by
  have hmap : ((fun x : Coll => if x.serial = c'.serial then c' else x) ∘ fun x => if x.serial = c.serial then c else x) =
      fun x => if x.serial = c'.serial then c' else x := by
    funext x
    by_cases hx : x.serial = c.serial <;> simp [hx, h]
  simp only [State.setColl, List.map_map, hmap]

/-! ### Results (R239, R240, R248) -/

theorem popCount_zero (w : Nat) : popCount w 0 = 0 := by
  induction w with
  | zero => rfl
  | succ w ih => simp [popCount, ih]

/-- The mask of the first piece counts one piece. -/
theorem popCount_one {w : Nat} (hw : 0 < w) : popCount w 1 = 1 := by
  obtain ⟨w, rfl⟩ := Nat.exists_eq_add_of_le' hw
  simp [popCount, popCount_zero]

theorem State.takeResult_whole {s : State} {r : TwistRec} {c : Coll} (hpiece : r.piece = 0) (hpieces : r.pieces = 1)
    (hopen : c.openRes = []) :
    s.takeResult c r = if c.written.contains r.block then (s, true)
      else ((if c.d.prepass then s.deliverGauges c r else s.deliverResult c r).setColl
        { c with written := c.written ++ [r.block] }, false) := by
  have hnone : bitOf 0 0 = false := rfl
  simp only [State.takeResult, hpiece, hpieces, hopen, List.find?_nil, Option.map_none, Option.getD_none, hnone,
    Bool.or_false, Nat.zero_add, pow_zero, popCount_one (by decide : 0 < 256), if_true, List.filter_nil]

theorem State.recvResult_whole {s : State} {r : TwistRec} {c : Coll} (hd : c.d.delivers = true ∨ c.d.prepass = true)
    (hpiece : r.piece = 0) (hpieces : r.pieces = 1) (hopen : c.openRes = []) :
    s.recvResult r c = (if c.written.contains r.block then s.count Ctr.TWS_DUP
      else ((if c.d.prepass then s.deliverGauges c r else s.deliverResult c r).setColl
        { c with written := c.written ++ [r.block] }).count Ctr.TWS_REC_IN, false) := by
  have hkind : (!(c.d.delivers || c.d.prepass)) = false := by rcases hd with h | h <;> simp [h]
  simp only [State.recvResult, hkind, State.takeResult_whole hpiece hpieces hopen]
  cases c.written.contains r.block <;> rfl

/-! ### Redos (R195, R235) -/

theorem State.recvRedo_first {s : State} {r : TwistRec} {c : Coll} (hd : c.d.reduces = true) (hu : r.block < c.d.units)
    (htaken : s.redoTaken c r.block = false) (hpend : c.redoPend.any (fun e => e.1 = r.block) = false)
    (hspan : (c.expected c.d.self r.block).2 ≠ 0) :
    s.recvRedo r c =
      if s.slotBusy (c.d.slotAddr r.block) = true ∧ s.slotBlock (c.d.slotAddr r.block) ≠ r.block then
        (if c.redoPend.length < 64 then
          ((s.setColl { c with redoPend := c.redoPend ++ [(r.block, r.gauge)] }).count Ctr.TWS_REC_IN, false)
        else (s, true))
      else (((s.applyRedo c r.block r.gauge).count Ctr.TWS_REC_IN).settleLocal r.collId, false) := by
  have hfull : 64 ≤ c.redoPend.length ↔ ¬ c.redoPend.length < 64 := by omega
  simp only [State.recvRedo, hd, htaken, hpend, Nat.not_le.mpr hu, hfull, ite_not]
  simp [hspan]

/-! ### Finals (R241, R242) -/

theorem Coll.markFinal_eq (c : Coll) (m : Nat) :
    c.markFinal m = { c with finals := if c.finals.contains m then c.finals else c.finals ++ [m] } := by
  unfold Coll.markFinal
  split <;> rfl

/-! ### Releases (R250) -/

theorem State.takeRelease_plain {s : State} {c : Coll} (es : List TallyEntry) (htally : c.d.tally = false) :
    s.takeRelease c es = s.setColl { c with released := true } := by
  simp [State.takeRelease, htally]

theorem State.recvRelease_plain {s : State} {r : TwistRec} {c : Coll} (hpiece : r.piece = 0) (hpieces : r.pieces = 1)
    (hbarrier : c.d.barrier = true) (htally : c.d.tally = false) (hreleased : c.released = false) (hopen : c.openRes = [])
    (hlen : r.len = 0) (hentries : c.entries = []) :
    s.recvRelease r c =
      ((s.count Ctr.TWS_REC_IN).setColl { c with openRes := [(0, 1)], released := true }, false) := by
  have hnone : bitOf 0 0 = false := rfl
  have hempty : addEntries [] (169 * 0) [] = [] := rfl
  simp only [State.recvRelease, hbarrier, hreleased, hpiece, hpieces, hopen, hlen, hnone, List.find?_nil, Option.map_none,
    Option.getD_none, Bool.not_true, Bool.or_false, Bool.false_eq_true, if_false, if_true, List.range_zero, List.map_nil,
    hempty, Nat.zero_add, pow_zero, popCount_one (by decide : 0 < 256)]
  rw [State.takeRelease_plain (c := { c with entries := [], openRes := [(0, 1)], released := false }) [] htally,
    State.setColl_count, State.setColl_setColl, ← hentries]
  all_goals rfl

/-- Settles O18: each command is the rule of its record type, on a collective that takes the record. -/
theorem ownerRecords : Obligations.OwnerRecords := by
  refine ⟨?result, ?redo, ?pending, ?final, ?note, ?release⟩
  case result =>
    intro s r c h hpiece hpieces hopen hd
    have hexec : exec (.resultReceive r) s = .next (s.receiveType 3 r (s.recvResult r)) := rfl
    rw [hexec, State.receiveType_meets _ (by decide) (by decide) h, State.recvResult_whole hd hpiece hpieces hopen]
    rfl
  case redo =>
    intro s r c h hd hu htaken hpend hspan
    have hexec : exec (.redoReceive r) s = .next (s.receiveType 4 r (s.recvRedo r)) := rfl
    rw [hexec, State.receiveType_meets _ (by decide) (by decide) h, State.recvRedo_first hd hu htaken hpend hspan]
    simp only [apply_ite (answered r), answered_refused, answered_acked]
  case pending =>
    intro s id b g c hcoll hfind
    have hexec : exec (.redoPendingStart id b) s = .next (s.startPendingRedo id b) := rfl
    rw [hexec, State.startPendingRedo, hcoll]
    simp [hfind]
  case final =>
    intro s r c m h hm hfind
    have hexec : exec (.finalReceive r) s = .next (s.receiveType 5 r (s.recvFinal r)) := rfl
    rw [hexec, State.receiveType_meets _ (by decide) (by decide) h, State.recvFinal, hfind, if_pos hm, Coll.markFinal_eq]
    rfl
  case note =>
    intro s r c h hd hfore
    have hexec : exec (.gnoteReceive r) s = .next (s.receiveType 8 r (s.recvNote r)) := rfl
    rw [hexec, State.receiveType_meets _ (by decide) (by decide) h, State.recvNote, hd, hfore]
    rfl
  case release =>
    intro s r c h hpieces hbarrier htally hreleased hopen hlen hentries
    obtain ⟨_, _, _, hpiece, _⟩ := meets_iff.mp h
    have hexec : exec (.releaseReceive r) s = .next (s.receiveType 7 r (s.recvRelease r)) := rfl
    rw [hexec, State.receiveType_meets _ (by decide) (by decide) h,
      State.recvRelease_plain (by omega) hpieces hbarrier htally hreleased hopen hlen hentries]
    rfl

end Sys2Proof.Machine
end

section
/-! PROOFS. The descriptor rings (O13) and the accumulator region at a descriptor's start (O14): queue registers, fetch and
start, and what page touches leave in memory. -/

namespace Sys2Proof.Machine

/-! ### What page touches change (R520 to R533) -/

/-- The part comes from `s₀` to `s` with changes in registers, counters, what it sends, and the checkpoint engine's own state. -/
def PushChange (s₀ s : State) : Prop :=
  ∃ regs ctrs dirty pend push ckp out, s = { s₀ with regs, ctrs, dirty, pend, push, ckp, out }

section
variable {s₀ s : State}

theorem PushChange.refl (s : State) : PushChange s s := ⟨_, _, _, _, _, _, _, rfl⟩

theorem PushChange.frame {regs ctrs dirty pend push ckp out} (hs : PushChange s₀ s) :
    PushChange s₀ { s with regs, ctrs, dirty, pend, push, ckp, out } := by
  obtain ⟨_, _, _, _, _, _, _, rfl⟩ := hs
  exact ⟨_, _, _, _, _, _, _, rfl⟩

theorem PushChange.ite {c : Prop} {_ : Decidable c} {a b : State} (ha : PushChange s₀ a) (hb : PushChange s₀ b) :
    PushChange s₀ (if c then a else b) := by split <;> assumption

theorem PushChange.foldl {α : Type} {f : State → α → State} {l : List α}
    (hf : ∀ u x, PushChange s₀ u → PushChange s₀ (f u x)) (hs : PushChange s₀ s) : PushChange s₀ (l.foldl f s) := by
  induction l generalizing s with
  | nil => exact hs
  | cons x l ih => exact ih (hf s x hs)

theorem PushChange.wr (hs : PushChange s₀ s) {a : Nat} {v : Word} : PushChange s₀ (s.wr a v) := .frame hs

theorem PushChange.count (hs : PushChange s₀ s) {a : Nat} : PushChange s₀ (s.count a) := .frame hs

theorem PushChange.countN (hs : PushChange s₀ s) {a k : Nat} : PushChange s₀ (s.countN a k) := .frame hs

theorem PushChange.emit (hs : PushChange s₀ s) {o : Out} : PushChange s₀ (s.emit o) := .frame hs

theorem PushChange.setCkp (hs : PushChange s₀ s) {n : Nat} {c : Ckp} : PushChange s₀ (s.setCkp n c) := .frame hs

theorem PushChange.eventN (hs : PushChange s₀ s) {a i k : Nat} : PushChange s₀ (s.eventN a i k) := by
  induction k generalizing s with
  | zero => exact hs
  | succ k ih => exact ih (.wr hs)

theorem PushChange.sendPage (hs : PushChange s₀ s) {d : Nat} : PushChange s₀ (s.sendPage d) := by
  unfold State.sendPage
  split
  · exact .count (.emit (.frame hs))
  · exact hs

theorem PushChange.capturePage (hs : PushChange s₀ s) {d g : Nat} : PushChange s₀ (s.capturePage d g) :=
  .frame (.setCkp (.ite hs (.sendPage hs)))

theorem PushChange.failPush (hs : PushChange s₀ s) {n st : Nat} : PushChange s₀ (s.failPush n st) :=
  .eventN (.countN (.wr (.setCkp (.frame hs))))

theorem PushChange.captureNow (hs : PushChange s₀ s) {n b : Nat} : PushChange s₀ (s.captureNow n b) :=
  .ite (.setCkp (.frame hs)) (.failPush (.setCkp (.setCkp (.frame hs))))

theorem PushChange.endCopy (hs : PushChange s₀ s) {n : Nat} : PushChange s₀ (s.endCopy n) := by
  have hsent : PushChange s₀ ((List.range 64).foldl (fun u _ => (s.diesOf n).foldl State.sendPage u) s) :=
    .foldl (fun _ _ hu => .foldl (fun _ _ hv => .sendPage hv) hu) hs
  unfold State.endCopy
  dsimp only
  split
  · exact hsent
  · split
    · exact .captureNow (.emit (.setCkp hsent))
    · exact .emit (.setCkp hsent)

theorem PushChange.drainCopy (hs : PushChange s₀ s) {n : Nat} : PushChange s₀ (s.drainCopy n) :=
  .endCopy (.foldl (fun _ _ hu => .capturePage hu) hs)

theorem PushChange.touchPage (hs : PushChange s₀ s) {g : Nat} : PushChange s₀ (s.touchPage g) := by
  rw [State.touchPage]
  cases s.statePage g with
  | none => exact hs
  | some d => exact .frame (.ite (.count (.capturePage (.ite (.drainCopy hs) hs))) (.ite (.drainCopy hs) hs))

theorem PushChange.touchPages (s : State) (gs : List Nat) : PushChange s (gs.foldl State.touchPage s) :=
  .foldl (fun _ _ hu => .touchPage hu) (.refl s)

theorem PushChange.mem (hs : PushChange s₀ s) : s.mem = s₀.mem := by
  obtain ⟨_, _, _, _, _, _, _, rfl⟩ := hs
  rfl

end

/-! ### The accumulator region (R220) -/

/-- Does address `a` hold a slot state, a bitmap or the done map of the region (R218, R219)? -/
def CollDesc.mapByte (d : CollDesc) (a : Nat) : Bool :=
  d.accAddr ≤ a && a < d.accAddr + d.accLen &&
    (d.slots * d.slotLen ≤ a - d.accAddr || (a - d.accAddr) % d.slotLen < 64 || 64 + d.bodyLen ≤ (a - d.accAddr) % d.slotLen)

theorem CollDesc.mapByte_iff (d : CollDesc) (a : Nat) : d.mapByte a = true ↔ d.accAddr ≤ a ∧ a < d.accAddr + d.accLen ∧
    (d.slots * d.slotLen ≤ a - d.accAddr ∨ (a - d.accAddr) % d.slotLen < 64 ∨ 64 + d.bodyLen ≤ (a - d.accAddr) % d.slotLen) := by
  simp [CollDesc.mapByte, and_assoc, or_assoc]

theorem State.clearRegion_mem (s : State) (d : CollDesc) :
    (s.clearRegion d).mem = s.mem.filter (fun e => !d.mapByte e.1) := by
  rw [← (PushChange.touchPages s (pagesOf d.accAddr d.accLen)).mem, State.clearRegion]
  rfl

theorem KeepsJobs.clearRegion {s₀ s : State} (hs : KeepsJobs s₀ s) {d : CollDesc} : KeepsJobs s₀ (s.clearRegion d) :=
  .frame (.foldl (fun _ _ hu => .touchPage hu) hs)

/-- What a canonical map reads at a key once the entries under the keys of `p` are unlisted. -/
theorem fetch_filter {α : Type} [DecidableEq α] {d : α} {m : SMap α} (hm : SMapWf (fun _ => d) m = true) (p : Nat → Bool)
    (a : Nat) : fetch d (m.filter (fun e => !p e.1)) a = if p a then d else fetch d m a := by
  rw [fetch, lookup_filter (fun _ => d) _ m a hm, fetch]
  cases lookup m a <;> cases h : p a <;> simp [h, Option.filter]

/-- Settles O14: page touches leave memory, and the bytes of slot states, bitmaps and done map are unlisted. -/
theorem regionCleared : Obligations.RegionCleared := by
  intro s d a hgood
  have hmem : SMapWf (fun _ => (0 : Byte)) s.mem = true := (Bool.and_eq_true_iff.mp hgood).1
  rw [State.byte, s.clearRegion_mem d, fetch_filter hmem]
  simp only [d.mapByte_iff a, State.byte]

/-! ### Rejected writes (R925) -/

theorem State.reject_pf0 (s : State) (p : Nat) {a : Nat} (st : Nat) (ha : a < 2 ^ 26) :
    s.reject (.pf0 p) a st = rejectedAt s a st := by
  have hw : setField (setField (s.rd Reg.GLB_WR_REJ_STAT) 31 16 st) 15 8 (fieldOf (s.rd Reg.GLB_WR_REJ_STAT) 15 8 + 1) =
      BitVec.ofNat 32 (st * 2 ^ 16 + (s.rf Reg.GLB_WR_REJ_STAT 15 8 + 1) % 2 ^ 8 * 2 ^ 8 + s.rf Reg.GLB_WR_REJ_STAT 7 0) := by
    have := (s.rd Reg.GLB_WR_REJ_STAT).isLt
    apply BitVec.eq_of_toNat_eq
    simp only [State.rf, setField, putBits, fieldOf, bitsOf, BitVec.toNat_ofNat, Nat.shiftRight_eq_div_pow,
      Nat.shiftLeft_eq]
    omega
  simp only [State.reject, rejectedAt, hw, Nat.mod_eq_of_lt ha]

/-! ### The queue registers (R257, R258, R931) -/

theorem fieldOf_15_0_lt (w : Word) : fieldOf w 15 0 < 65536 := Nat.mod_lt _ (by decide)

theorem State.twsReject_pf0 (s : State) (p n : Nat) {a : Nat} (st : Nat) (ha : a < 2 ^ 26) :
    s.twsReject (.pf0 p) n a st = twsRejected s n a st :=
  congrArg (fun u : State => u.wf (Reg.TWS_ERR n) 31 16 st) (s.reject_pf0 p st ha)

/-- What follows on an EN write, by its checks in their order. -/
theorem State.ite_twsEnableStatus {α : Type} (s : State) (n l : Nat) (x : α) (f : Nat → α) :
    (if s.twsEnableStatus n l = 0 then x else f (s.twsEnableStatus n l)) =
      if (s.rd (Reg.TWS_DQ_BASE_LO n)).toNat % 128 ≠ 0 ∨ (s.rd (Reg.TWS_CQ_BASE_LO n)).toNat % 16 ≠ 0 ∨
        s.inSlice n (s.addrOf (Reg.TWS_DQ_BASE_LO n) (Reg.TWS_DQ_BASE_HI n)) (128 * 2 ^ l) = false ∨
        s.inSlice n (s.addrOf (Reg.TWS_CQ_BASE_LO n) (Reg.TWS_CQ_BASE_HI n)) (16 * 2 ^ s.rf (Reg.TWS_CQ_SIZE n) 3 0) = false
      then f 0x0154
      else if l < 4 ∨ 12 < l ∨ s.rf (Reg.TWS_CQ_SIZE n) 3 0 < 4 ∨ 12 < s.rf (Reg.TWS_CQ_SIZE n) 3 0 then f 0x0156
      else x := by
  simp only [State.twsEnableStatus, Bool.not_eq_true']
  split_ifs <;> trivial

theorem State.twsSizeWrite_pf0 (s : State) (p : Nat) {n : Nat} (v : Word) (hn : n < 8) :
    s.twsSizeWrite (.pf0 p) n v =
      if s.rf (Reg.TWS_DQ_SIZE n) 31 31 = 1 then twsRejected s n (Reg.TWS_DQ_SIZE n) 0x0156
      else if fieldOf v 31 31 = 0 then s.wr (Reg.TWS_DQ_SIZE n) (v &&& 0x8000000F)
      else if s.twsEnableStatus n (fieldOf v 3 0) = 0 then s.wr (Reg.TWS_DQ_SIZE n) (v &&& 0x8000000F)
      else twsRejected s n (Reg.TWS_DQ_SIZE n) (s.twsEnableStatus n (fieldOf v 3 0)) := by
  have ha : Reg.TWS_DQ_SIZE n < 2 ^ 26 := by
    rw [Reg.TWS_DQ_SIZE]
    omega
  simp only [State.twsSizeWrite, s.twsReject_pf0 p n _ ha]

theorem State.twsTailWrite_pf0 (s : State) (p : Nat) {n : Nat} (v : Word) (hn : n < 8) :
    s.twsTailWrite (.pf0 p) n v =
      if 2 ^ s.rf (Reg.TWS_DQ_SIZE n) 3 0 < (fieldOf v 15 0 + 65536 - s.rf (Reg.TWS_DQ_HEAD n) 15 0) % 65536 then
        (rejectedAt s (Reg.TWS_DQ_TAIL n) 0x0252).wr (Reg.TWS_ERR n) (BitVec.ofNat 32 (0x0252 * 65536 + fieldOf v 15 0))
      else s.wr (Reg.TWS_DQ_TAIL n) (BitVec.ofNat 32 (fieldOf v 15 0)) := by
  have ha : Reg.TWS_DQ_TAIL n < 2 ^ 26 := by
    rw [Reg.TWS_DQ_TAIL]
    omega
  have hahead : aheadMod 16 (s.rf (Reg.TWS_DQ_HEAD n) 15 0) (fieldOf v 15 0) =
      (fieldOf v 15 0 + 65536 - s.rf (Reg.TWS_DQ_HEAD n) 15 0) % 65536 := by
    have ht := fieldOf_15_0_lt v
    have hh : s.rf (Reg.TWS_DQ_HEAD n) 15 0 < 65536 := fieldOf_15_0_lt _
    exact congrArg (· % 65536) (congrArg₂ (fun x y => x + 65536 - y) (Nat.mod_eq_of_lt ht) (Nat.mod_eq_of_lt hh))
  simp only [State.twsTailWrite, hahead, s.reject_pf0 p _ ha]

theorem State.flushHeld_none {s : State} {n : Nat} (h : s.tws.heldRecs.all (fun h => h.slice ≠ n) = true) (k : Nat) :
    State.flushHeld n k s = s := by
  have hnone : s.tws.heldRecs.find? (fun h => h.slice = n) = none := by simpa using h
  cases k with
  | zero => rfl
  | succ k => rw [State.flushHeld, hnone]

/-! ### Fetch (R195, R203, R257) -/

/-- The part once slice `n` has fetched a descriptor that passes the checks (R259). -/
theorem State.fetchDesc_pass {s : State} {n : Nat} (hen : s.rf (Reg.TWS_DQ_SIZE n) 31 31 = 1) (hslice : s.sliceState n = 0)
    (hring : s.rf (Reg.TWS_DQ_HEAD n) 15 0 ≠ s.rf (Reg.TWS_DQ_TAIL n) 15 0) (hroom : s.twsInflight < 1024)
    (hst : s.descStatus n (s.addrOf (Reg.TWS_DQ_BASE_LO n) (Reg.TWS_DQ_BASE_HI n) +
      128 * (s.rf (Reg.TWS_DQ_HEAD n) 15 0 % 2 ^ s.rf (Reg.TWS_DQ_SIZE n) 3 0)) (fetched s n) = 0) :
    s.fetchDesc n =
      (let h := s.wf (Reg.TWS_DQ_HEAD n) 15 0 (s.rf (Reg.TWS_DQ_HEAD n) 15 0 + 1)
       let t := { h with tws := { s.tws with
         nextSerial := s.tws.nextSerial + 1, colls := s.tws.colls ++ [fetched s n],
         past := s.tws.past.filter (fun x => x.d.collId ≠ (fetched s n).d.collId) } }
       if t.optCollOk (fetched s n) then t else (t.event Reg.OPT_EVT 0).failColl (fetched s n).serial 0x0293) := by
  have hgo : ¬(s.rf (Reg.TWS_DQ_SIZE n) 31 31 = 0 ∨ s.sliceState n ≠ 0 ∨
      s.rf (Reg.TWS_DQ_HEAD n) 15 0 = s.rf (Reg.TWS_DQ_TAIL n) 15 0 ∨ 1024 ≤ s.twsInflight) := by omega
  rw [State.fetchDesc]
  exact (if_neg hgo).trans (if_neg (not_not.mpr hst))

/-! ### Start (R220, R244) -/

theorem State.settleLocal_nothing {s : State} {id : Nat} (h : ∀ c, s.coll? id = some c → c.localTodo = []) :
    s.settleLocal id = s := by
  cases hc : s.coll? id with
  | none => simp [State.settleLocal, State.settle, hc]
  | some c => simp [State.settleLocal, State.settle, hc, h c hc]

/-- The start of a reduction: its region is cleared, units with an empty span are done, and its local images wait. -/
theorem State.startColl_reduces (s : State) {c : Coll} (hd : c.d.reduces = true) :
    s.startColl c = (((List.range c.d.units).foldl
      (fun s u => if (c.expected c.d.self u).2 = 0 then s.setDone c.d u true 0 else s) (s.clearRegion c.d)).setColl
        { c with started := true, localTodo := (List.range c.d.units).flatMap c.images }).settleLocal c.d.collId := by
  have hgather : c.d.gathers = false := by
    simp only [CollDesc.reduces, CollDesc.gathers, Bool.or_eq_true, decide_eq_true_eq, Bool.or_eq_false_iff,
      decide_eq_false_iff_not] at hd ⊢
    omega
  have hbarrier : c.d.barrier = false := by
    simp only [CollDesc.reduces, CollDesc.barrier, Bool.or_eq_true, decide_eq_true_eq, decide_eq_false_iff_not] at hd ⊢
    omega
  rw [State.startColl]
  exact (if_neg (Bool.eq_false_iff.mp hgather)).trans (if_neg (Bool.eq_false_iff.mp hbarrier))

/-- A reduction with no local source, each of whose units waits for some span, starts with its region cleared. -/
theorem State.startColl_noSource {s : State} {id : Nat} {c : Coll} (hc : s.coll? id = some c) (hd : c.d.reduces = true)
    (hsrc : c.d.srcCnt = 0) (hspan : ∀ u < c.d.units, (c.expected c.d.self u).2 ≠ 0) :
    s.startColl c = (s.clearRegion c.d).setColl { c with started := true, localTodo := [] } := by
  have hspans : (List.range c.d.units).foldl
      (fun s u => if (c.expected c.d.self u).2 = 0 then s.setDone c.d u true 0 else s) (s.clearRegion c.d) =
      s.clearRegion c.d :=
    (List.foldl_ext _ _ _ fun _ u hu => if_neg (hspan u (List.mem_range.mp hu))).trans (List.foldl_fixed _)
  have himages : (List.range c.d.units).flatMap c.images = [] := by simp [Coll.images, hsrc]
  have hcleared : (s.clearRegion c.d).coll? id = some c := by
    rw [State.coll?, (KeepsJobs.clearRegion (.refl s)).tws]
    exact hc
  have hset := State.coll?_setColl (c' := { c with started := true, localTodo := [] }) hcleared rfl rfl
  rw [s.startColl_reduces hd, hspans, himages, State.collId_of_coll? hc]
  refine State.settleLocal_nothing fun x hx => ?_
  rw [← Option.some.inj (hset.symm.trans hx)]

theorem State.startWhen_coll {s : State} {id : Nat} {c : Coll} (ok : Coll → Bool) (hc : s.coll? id = some c)
    (hstarted : c.started = false) (hfailed : c.failed = false) (hheld : c.held = false) (hjob : (s.job c.slice).memb < 2) :
    s.startWhen id ok = if ok c then s.startColl c else s := by
  have hhold : s.inHold c.slice = false := by simpa [State.inHold] using hjob
  rw [State.startWhen, hc]
  cases hok : ok c <;> simp [hstarted, hfailed, hheld, hhold, hok]

/-- Settles O13: register writes by their checks; fetch and start by the branch that the hypotheses leave. -/
theorem twistQueues : Obligations.TwistQueues := by
  refine ⟨?enable, ?tail, ?head, ?fetch, ?start⟩
  case enable =>
    intro s p n v
    have hexec : exec (.twsQueueEnable (.pf0 p) n v) s = .next (if s.hasSlice n then s.twsSizeWrite (.pf0 p) n v else s) :=
      rfl
    rw [hexec]
    cases hslice : s.hasSlice n with
    | false => simp
    | true =>
      rw [s.twsSizeWrite_pf0 p v (State.lt_eight_of_hasSlice hslice),
        s.ite_twsEnableStatus n _ _ (twsRejected s n (Reg.TWS_DQ_SIZE n))]
      rfl
  case tail =>
    intro s p n v
    have hexec : exec (.twsDqTailWrite (.pf0 p) n v) s = .next (if s.hasSlice n then s.twsTailWrite (.pf0 p) n v else s) :=
      rfl
    rw [hexec]
    cases hslice : s.hasSlice n with
    | false => simp
    | true => simp [s.twsTailWrite_pf0 p v (State.lt_eight_of_hasSlice hslice)]
  case head =>
    intro s p n v hslice hheld
    have hexec : exec (.twsCqHeadWrite (.pf0 p) n v) s = .next (s.twsCqHeadWrite n v) := congrArg _ (if_pos hslice)
    rw [hexec]
    exact congrArg _ (State.flushHeld_none (s := s.wr (Reg.TWS_CQ_HEAD n) (v &&& 0xFFFF)) hheld _)
  case fetch =>
    intro s n hslice hen hst hring hroom c hpass h t hopt
    have hexec : exec (.descriptorFetch n) s = .next (s.fetchDesc n) := congrArg _ (if_pos hslice)
    rw [hexec, State.fetchDesc_pass hen hst hring hroom hpass]
    exact congrArg _ (if_pos hopt)
  case start =>
    intro s id c hc hstarted hfailed hheld hjob hd hsrc hspan t
    have hstart : s.startColl c = t := State.startColl_noSource hc hd hsrc hspan
    have hwhen := fun ok => State.startWhen_coll ok hc hstarted hfailed hheld hjob
    have hstartCmd : exec (.descriptorStart id) s = .next (s.startWhen id (fun c => !c.d.armEn)) := rfl
    have harmCmd : exec (.descriptorArm id) s =
        .next (s.startWhen id (fun c => c.d.armEn && s.ctrReached (s.ctrIdx c.slice c.d.armCtr) c.d.armVal)) := rfl
    refine ⟨fun harm => ?_, fun harm hctr => ?_, fun harm => ?_⟩
    · simp [hstartCmd, hwhen, harm, hstart]
    · simp [harmCmd, hwhen, harm, hctr, hstart]
    · simp [hstartCmd, hwhen, harm]

end Sys2Proof.Machine
end

section
/-! PROOFS. Delivery (O19): answers and timeouts of kept pieces, and the completion of descriptors and steps. -/

namespace Sys2Proof.Machine

/-! ### Acknowledgements and timeouts (R211 to R213) -/

theorem State.freeForwarded_noColl {s : State} {key : AckKey} (h : s.coll? key.collId = none) : s.freeForwarded key = s := by
  rw [State.freeForwarded, h]

/-- An answer for a collective that is not in flight: the counts toward the peer restart, and an ACK drops its piece. -/
theorem State.takeAck_noColl {s : State} {peer code : Nat} {key : AckKey} (h : s.coll? key.collId = none) :
    s.takeAck peer key code =
      { s with tws := { s.tws with
        kept := if code = 0 then (s.restartCounts peer).tws.kept.filter (fun k => !(k.peer = peer && k.key = key))
          else (s.restartCounts peer).tws.kept } } := by
  by_cases hcode : code = 0
  · by_cases hany : (s.restartCounts peer).tws.kept.any (fun k => k.peer = peer && k.key = key) = true
    · rw [State.takeAck, if_pos ⟨hcode, hany⟩, if_pos hcode]
      exact State.freeForwarded_noColl h
    · have hall : (s.restartCounts peer).tws.kept.filter (fun k => !(k.peer = peer && k.key = key)) =
          (s.restartCounts peer).tws.kept :=
        List.filter_eq_self.mpr fun k hk => by
          simpa [imp_iff_not_or] using List.any_eq_false.mp (Bool.eq_false_iff.mpr hany) k hk
      rw [State.takeAck, if_neg (fun hc => hany hc.2), if_pos hcode, hall]
      rfl
  · rw [State.takeAck, if_neg (fun hc => hcode hc.1), if_neg hcode]
    rfl

section
variable {s : State} {k : Kept} (hkept : s.tws.kept = [k])
include hkept

/-- Below the retry limit the piece is sent again (R211). -/
theorem State.retxTimeout_resend (h : k.count + 1 < s.rf Reg.TWS_CTL 3 0) :
    s.retxTimeout k.peer k.key =
      (({ s with tws := { s.tws with kept := [{ k with count := k.count + 1, timeout := min (2 * k.timeout) 4000000 }] } }).emit
        (.twist k.peer k.msg)).count Ctr.TWS_RETX := by
  simp [State.retxTimeout, hkept, Nat.not_le.mpr h]

/-- At the retry limit the descriptor ends and the peer is reported (R212). -/
theorem State.retxTimeout_giveUp {c : Coll} (h : s.rf Reg.TWS_CTL 3 0 ≤ k.count + 1) (hc : s.coll? k.key.collId = some c)
    (hepoch : c.d.epoch = k.key.epoch) :
    s.retxTimeout k.peer k.key =
      (({ s with tws := { s.tws with kept := [], reported := s.tws.reported ++ [k.peer] } }).event Reg.TWS_EVT 2).failColl
        c.serial 0x0650 := by
  have hcoll : ((({ s with tws := { s.tws with kept := [], reported := s.tws.reported ++ [k.peer] } }).event Reg.TWS_EVT 2).coll?
      k.key.collId) = some c := hc
  simp [State.retxTimeout, State.twsEvent, hkept, h, hcoll, hepoch]

end

/-! ### Completion (R242 to R245) -/

theorem length_leBytes (k n : Nat) : (leBytes k n).length = k := by
  induction k generalizing n with
  | zero => rfl
  | succ k ih => simp [leBytes, ih]

theorem KeepsJobs.writeB {s₀ s : State} (hs : KeepsJobs s₀ s) {a : Nat} {bs : List Byte} : KeepsJobs s₀ (s.writeB a bs) :=
  .frame (.foldl (fun _ _ hu => .touchPage hu) hs)

theorem State.twsErr_tws (s : State) (n st i : Nat) : (s.twsErr n st i).tws = s.tws := by
  unfold State.twsErr
  split
  · rfl
  · exact State.wr_tws _ _ _

/-- Notices change only what the part sends. -/
theorem State.noticeEps_eq (s : State) (c : Coll) (kind x y : Nat) : ∃ out, s.noticeEps c kind x y = { s with out } := by
  unfold State.noticeEps
  induction c.d.eps generalizing s with
  | nil => exact ⟨s.out, rfl⟩
  | cons e es ih =>
    obtain ⟨out, h⟩ := ih (s.emit (.notice e kind c.d.collId c.d.epoch x y))
    exact ⟨out, h⟩

theorem State.setColl_self {s : State} {c : Coll} (h : s.tws.colls = [c]) : s.setColl c = s := by
  simp only [State.setColl, h, List.map_cons, List.map_nil, if_true]
  rw [← h]

/-- A completion record up to its phase byte (R245). -/
theorem Coll.fitBytes_heldRec (c : Coll) (st : Nat) : fitBytes 15 (c.heldRec st).bytes =
    leBytes 2 c.d.collId ++ leBytes 2 st ++ leBytes 4 c.d.user ++ leBytes 4 c.blocksField ++ leBytes 2 (min c.redo 0xFFFF) ++
      [0] := by
  have hlen : (c.heldRec st).bytes.length = 14 := by simp [Coll.heldRec, record, length_leBytes]
  rw [fitBytes, hlen, List.take_of_length_le (by omega)]
  simp [Coll.heldRec, record]

/-- The only descriptor in flight leaves the part once its record is written (R244). -/
theorem State.retireColl_only {s : State} {c : Coll} (hcolls : s.tws.colls = [c]) (hdone : c.d.doneEn = false) :
    s.retireColl c.serial 0 = { s with tws := { s.tws with colls := [], past := s.tws.past ++ [c] } } := by
  simp [State.retireColl, hcolls, hdone, State.ctrBumpOpt]

/-- A completion record of status 0 is written with its phase, and CQ_TAIL counts it (R245). -/
theorem State.cqWrite_ok (s : State) {h : HeldRec} (hst : h.status = 0) :
    s.cqWrite h =
      (let t := s.rf (Reg.TWS_CQ_TAIL h.slice) 15 0
       let l := s.rf (Reg.TWS_CQ_SIZE h.slice) 3 0
       (s.writeB (s.addrOf (Reg.TWS_CQ_BASE_LO h.slice) (Reg.TWS_CQ_BASE_HI h.slice) + 16 * (t % 2 ^ l))
         (fitBytes 15 h.bytes ++ leBytes 1 (if t / 2 ^ l % 2 = 0 then 1 else 0))).wf (Reg.TWS_CQ_TAIL h.slice) 15 0 (t + 1)) :=
  if_pos hst

theorem State.cqWrite_tws (s : State) (h : HeldRec) : (s.cqWrite h).tws = s.tws := by
  rw [State.cqWrite, State.twsErr_tws, State.wf_tws, (KeepsJobs.writeB (.refl s)).tws]

/-- The only descriptor in flight completes with status 0, where its ring has room (R242 to R245). -/
theorem State.finishColl_only {s : State} {c : Coll} (hcolls : s.tws.colls = [c]) (hst : c.status = 0)
    (hfull : s.cqFull c.slice = false) (hrecs : s.tws.heldRecs = []) (hdone : c.d.doneEn = false) :
    s.finishColl c 0 false =
      { (s.noticeEps c 3 0 0).cqWrite (c.heldRec 0) with tws := { s.tws with colls := [], past := s.tws.past ++ [c] } } := by
  have hsame : s.setColl { c with status := 0 } = s := by
    rw [← hst]
    exact State.setColl_self hcolls
  have hroom : (s.cqFull c.slice || s.tws.heldRecs.any (fun x => x.slice = c.slice)) = false := by simp [hfull, hrecs]
  obtain ⟨out, hout⟩ := s.noticeEps_eq c 3 0 0
  have htws : (({ s with out } : State).cqWrite (c.heldRec 0)).tws = s.tws := State.cqWrite_tws _ _
  calc s.finishColl c 0 false
      = (s.noticeEps c 3 0 0).completeOrHold (c.heldRec 0) := by
        rw [State.finishColl, hsame]
        rfl
    _ = (({ s with out } : State).cqWrite (c.heldRec 0)).retireColl c.serial 0 := by
        rw [hout]
        exact if_neg (Bool.eq_false_iff.mp hroom)
    _ = _ := by rw [State.retireColl_only (by rw [htws, hcolls]) hdone, htws, hout]

/-! ### The ends of steps (R927) -/

section
variable {s : State} {id : Nat} {c : Coll} (hc : s.coll? id = some c)
include hc

/-- A STEP_END descriptor waits for its step and for earlier descriptors of the step. -/
theorem State.completeStepEnd_waits
    (h : s.tws.colls.any (fun x => x.slice = c.slice && x.d.step = c.d.step && x.serial < c.serial) = true ∨
      s.stepCtr c.slice ≠ c.d.step) : s.completeStepEnd id = s := by
  rw [State.completeStepEnd, hc]
  exact if_pos (.inr (.inr (.inr h)))

/-- A STEP_END descriptor that waits for nothing completes, and the step with it. -/
theorem State.completeStepEnd_ends (hend : c.d.stepEnd = true) (hheld : c.held = false)
    (hready : (c.complete || c.failed) = true)
    (hearlier : s.tws.colls.any (fun x => x.slice = c.slice && x.d.step = c.d.step && x.serial < c.serial) = false)
    (hstep : s.stepCtr c.slice = c.d.step) :
    s.completeStepEnd id =
      (let lost := s.tws.failed.any (fun f => f.1 = c.slice && f.2.1 = c.d.step && f.2.2 < c.serial)
       let st := if c.status ≠ 0 then c.status else if lost then 0x0258 else 0
       let t := s.finishColl c st false
       if st = 0 ∧ (t.coll? id).isNone then t.stepDone c.slice else t) := by
  have hgo : ¬((!c.d.stepEnd) = true ∨ c.held = true ∨ (!(c.complete || c.failed)) = true ∨
      s.tws.colls.any (fun x => x.slice = c.slice && x.d.step = c.d.step && x.serial < c.serial) = true ∨
      s.stepCtr c.slice ≠ c.d.step) := by
    simp [hend, hheld, hready, hearlier, hstep]
  rw [State.completeStepEnd, hc]
  exact if_neg hgo

end

/-- Settles O19: each command by the branch that its hypotheses leave. -/
theorem twistDelivery : Obligations.TwistDelivery := by
  refine ⟨?ack, ?timeout, ?complete, ?stepEnd⟩
  case ack =>
    intro s peer code key hc ks left
    exact congrArg Host.Outcome.next (State.takeAck_noColl hc)
  case timeout =>
    intro s k hkept
    exact ⟨fun h => congrArg Host.Outcome.next (State.retxTimeout_resend hkept h),
      fun c h hc hepoch => congrArg Host.Outcome.next (State.retxTimeout_giveUp hkept h hc hepoch)⟩
  case complete =>
    intro s id c hc hcomplete hend hfailed hheld hfull hrecs hdone hst t l bytes u hcolls
    have hcmd : s.completeColl id = s.finishColl c 0 false := by
      rw [State.completeColl, hc]
      simp [hcomplete, hend, hfailed, hheld, hst]
    have hwritten : (s.noticeEps c 3 0 0).cqWrite (c.heldRec 0) = u := by
      obtain ⟨out, hout⟩ := s.noticeEps_eq c 3 0 0
      rw [State.cqWrite_ok _ rfl, c.fitBytes_heldRec 0]
      change _ = ((s.noticeEps c 3 0 0).writeB _ bytes).wf _ 15 0 (t + 1)
      rw [hout]
      rfl
    have hexec : exec (.collectiveComplete id) s = .next (s.completeColl id) := rfl
    rw [hexec, hcmd, State.finishColl_only hcolls hst hfull hrecs hdone, hwritten]
  case stepEnd =>
    intro s id c hc hend hheld hready
    have hexec : exec (.stepEndComplete id) s = .next (s.completeStepEnd id) := rfl
    rw [hexec]
    refine ⟨fun h => congrArg _ (State.completeStepEnd_waits hc h), fun hearlier hstep => ?_⟩
    rw [State.completeStepEnd_ends hc hend hheld hready hearlier hstep]
    simp only [Option.isNone_iff_eq_none]

end Sys2Proof.Machine
end

section
/-! PROOFS. Rows and needles as state: what each operation on them gives and leaves alone, once, for the row commands (O20 to O22) and
for the instructions of needles (O27, O32). -/

namespace Sys2Proof.Machine

/-! ### Fields of a word -/

theorem fieldOf_setField_3_0 (w : Word) (x : Nat) : fieldOf (setField w 3 0 x) 3 0 = x % 2 ^ 4 := by
  simp only [fieldOf, setField, bitsOf, putBits, BitVec.toNat_ofNat, Nat.shiftRight_eq_div_pow, Nat.shiftLeft_eq]
  omega

theorem fieldOf_31_31_setField (w : Word) (x : Nat) : fieldOf (setField w 31 31 x) 31 31 = x % 2 := by
  simp only [fieldOf, setField, bitsOf, putBits, BitVec.toNat_ofNat, Nat.shiftRight_eq_div_pow, Nat.shiftLeft_eq]
  omega

theorem fieldOf_3_0_setField_31_31 (w : Word) (x : Nat) : fieldOf (setField w 31 31 x) 3 0 = fieldOf w 3 0 := by
  simp only [fieldOf, setField, bitsOf, putBits, BitVec.toNat_ofNat, Nat.shiftRight_eq_div_pow, Nat.shiftLeft_eq]
  omega

/-! ### Rows, their commands and registers -/

section
variable (s : State) (l n : Nat)

@[simp] theorem State.row_wr (a : Nat) (v : Word) : (s.wr a v).row l = s.row l := rfl
@[simp] theorem State.row_wf (a hi lo x : Nat) : (s.wf a hi lo x).row l = s.row l := rfl
@[simp] theorem State.row_event (a i : Nat) : (s.event a i).row l = s.row l := rfl
@[simp] theorem State.row_count (a : Nat) : (s.count a).row l = s.row l := rfl
@[simp] theorem State.row_countN (a k : Nat) : (s.countN a k).row l = s.row l := rfl
@[simp] theorem State.row_setRowState (m x : Nat) : (s.setRowState m x).row l = s.row l := rfl
@[simp] theorem State.row_setRowCmd (c : Option RowCmd) : (s.setRowCmd n c).row l = s.row l := rfl

@[simp] theorem State.rowCmd_wr (a : Nat) (v : Word) : (s.wr a v).rowCmd n = s.rowCmd n := rfl
@[simp] theorem State.rowCmd_count (a : Nat) : (s.count a).rowCmd n = s.rowCmd n := rfl
@[simp] theorem State.rowCmd_event (a i : Nat) : (s.event a i).rowCmd n = s.rowCmd n := rfl
@[simp] theorem State.rowCmd_setRow (r : Row) : (s.setRow l r).rowCmd n = s.rowCmd n := rfl
@[simp] theorem State.rowCmd_setRowState (x : Nat) : (s.setRowState l x).rowCmd n = s.rowCmd n := rfl
@[simp] theorem State.rowCmd_setRowCmd (c : Option RowCmd) : (s.setRowCmd n c).rowCmd n = c := by
  simp [State.rowCmd, State.setRowCmd]

@[simp] theorem State.rd_setRow (r : Row) (a : Nat) : (s.setRow l r).rd a = s.rd a := rfl
@[simp] theorem State.rd_setRowCmd (c : Option RowCmd) (a : Nat) : (s.setRowCmd n c).rd a = s.rd a := rfl
@[simp] theorem State.rd_count (a b : Nat) : (s.count a).rd b = s.rd b := rfl
@[simp] theorem State.rd_countN (a k b : Nat) : (s.countN a k).rd b = s.rd b := rfl

@[simp] theorem State.ctr_event (a i b : Nat) : (s.event a i).ctr b = s.ctr b := rfl
@[simp] theorem State.ctr_wr (a : Nat) (v : Word) (b : Nat) : (s.wr a v).ctr b = s.ctr b := rfl
@[simp] theorem State.ctr_setRow (r : Row) (b : Nat) : (s.setRow l r).ctr b = s.ctr b := rfl

@[simp] theorem State.rowState_setRow (m : Nat) (r : Row) : (s.setRow m r).rowState l = s.rowState l := rfl
@[simp] theorem State.rowKind_setRow (m : Nat) (r : Row) : (s.setRow m r).rowKind l = s.rowKind l := rfl
@[simp] theorem State.rowState_countN (a k : Nat) : (s.countN a k).rowState l = s.rowState l := rfl
@[simp] theorem State.rowKind_countN (a k : Nat) : (s.countN a k).rowKind l = s.rowKind l := rfl

theorem State.rowState_of_rd {s t : State} {l : Nat} (h : t.rd (Reg.NDL_ROW l) = s.rd (Reg.NDL_ROW l)) :
    t.rowState l = s.rowState l := by
  rw [State.rowState, State.rowState, State.rf, State.rf, h]

theorem State.rowState_setRowState (x : Nat) : (s.setRowState l x).rowState l = x % 2 ^ 4 := by
  rw [State.rowState, State.rf, State.setRowState, State.rd_wf_same, fieldOf_setField_3_0]

end

/-! ### Needles -/

section
variable (s : State) (r : Row) (l i : Nat) (n : Needle)

@[simp] theorem State.needle_countN (a k : Nat) : (s.countN a k).needle l i = s.needle l i := rfl

@[simp] theorem Row.needle_setNeedle_same : (r.setNeedle i n).needle i = n := by simp [Row.needle, Row.setNeedle]

theorem Row.needle_setNeedle_other {k : Nat} (h : k ≠ i) : (r.setNeedle i n).needle k = r.needle k := by
  simp [Row.needle, Row.setNeedle, fetch_store_other _ _ _ _ h]

theorem State.needle_eq : s.needle l i = (s.row l).needle i := rfl

@[simp] theorem State.row_setNeedle : (s.setNeedle l i n).row l = (s.row l).setNeedle i n := s.row_setRow_same _ _

@[simp] theorem State.needle_setNeedle_same : (s.setNeedle l i n).needle l i = n := by simp [State.needle_eq]

theorem State.needle_setNeedle_other {k : Nat} (h : k ≠ i) : (s.setNeedle l i n).needle l k = s.needle l k := by
  rw [State.needle_eq, State.row_setNeedle, Row.needle_setNeedle_other _ i n h, State.needle_eq]

@[simp] theorem State.rowState_setNeedle (m : Nat) : (s.setNeedle m i n).rowState l = s.rowState l := rfl
@[simp] theorem State.rowKind_setNeedle (m : Nat) : (s.setNeedle m i n).rowKind l = s.rowKind l := rfl

/-- What a change of some needles leaves of a row, and of each of its needles. -/
theorem Row.foldl_setNeedle (f : Nat → Needle → Needle) {is : List Nat} (his : is.Nodup) :
    (∃ needles, is.foldl (fun r i => r.setNeedle i (f i (r.needle i))) r = { r with needles }) ∧
    ∀ k, (is.foldl (fun r i => r.setNeedle i (f i (r.needle i))) r).needle k = if k ∈ is then f k (r.needle k) else r.needle k := by
  induction is generalizing r with
  | nil => exact ⟨⟨r.needles, rfl⟩, fun _ => by simp⟩
  | cons i is ih =>
    obtain ⟨hi, his⟩ := List.nodup_cons.mp his
    obtain ⟨⟨needles, hrow⟩, hneedle⟩ := ih (r.setNeedle i (f i (r.needle i))) his
    refine ⟨⟨needles, hrow⟩, fun k => ?_⟩
    rw [List.foldl_cons, hneedle]
    by_cases hk : k = i
    · simp [hk, hi]
    · simp [hk, Row.needle_setNeedle_other r i _ hk]

theorem Row.mapNeedles_eq (f : Nat → Needle → Needle) : ∃ needles, r.mapNeedles f = { r with needles } :=
  (r.foldl_setNeedle f List.nodup_range).1

theorem Row.needle_mapNeedles (f : Nat → Needle → Needle) {i : Nat} (hi : i < 16) : (r.mapNeedles f).needle i = f i (r.needle i) :=
  ((r.foldl_setNeedle f List.nodup_range).2 i).trans (if_pos (List.mem_range.mpr hi))

end

end Sys2Proof.Machine
end

section
/-! PROOFS. What writes of memory leave of the rows, whatever pages they touch (R520 to R533), and what they read of them: nothing. -/

namespace Sys2Proof.Machine

def State.withRows (s : State) (R : SMap Row) : State := { s with rows := R }

/-- The part comes from `s₀` to `s` with rows, row commands and the registers and counters below the CKP block as they were, and `t` is
`s` but for its rows, `R`. -/
structure Beside (R : SMap Row) (s₀ s t : State) : Prop where
  twin : t = s.withRows R
  rows : s.rows = s₀.rows
  cmds : s.rowCmds = s₀.rowCmds
  rd : ∀ a < 0x2000000, s.rd a = s₀.rd a
  ctr : ∀ a < 0x2000000, s.ctr a = s₀.ctr a

theorem State.statePage_withRows (s : State) (R : SMap Row) (g : Nat) : (s.withRows R).statePage g = s.statePage g := rfl

theorem State.pendPages_withRows (s : State) (R : SMap Row) (n : Nat) : (s.withRows R).pendPages n = s.pendPages n := rfl

/-- The second half of `capturePage`: page `g` goes into the push buffer of die `d`, which has room. -/
def State.bufferPage (s : State) (d g : Nat) : State :=
  let n := s.sliceOfDie d
  let u := s.setCkp n { s.ckpOf n with digests := store (pageDigest []) (s.ckpOf n).digests g (pageDigest (s.pageBytes g)) }
  { u with push := u.push ++ [⟨d, g, s.pageBytes g⟩], pend := store false u.pend g false }

theorem State.capturePage_eq (s : State) (d g : Nat) :
    s.capturePage d g = (if (s.push.filter (fun p => p.die = d)).length < 64 then s else s.sendPage d).bufferPage d g := rfl

/-- Slice `n`'s copy of boundary `b` ends: the region digests of the dies `ds` are sent. -/
def State.sendDigests (s : State) (n b : Nat) (ds : List Nat) : State :=
  let c := s.ckpOf n
  let sums := ds.map (fun d => (d, s.ownDigest n d))
  (s.setCkp n { c with copying := none, confirming := c.confirming ++ [⟨b, c.membEpoch, c.capEpoch, c.capFull, sums⟩] }).emit
    (.ckpDigests n b sums)

/-- The second half of `endCopy`: the digests are sent, and a capture that waited takes place. -/
def State.confirmCopy (s : State) (n : Nat) (ds : List Nat) : State :=
  match (s.ckpOf n).copying with
  | none => s
  | some b =>
    match (s.ckpOf n).waiting with
    | some b' => (s.sendDigests n b ds).captureNow n b'
    | none => s.sendDigests n b ds

theorem State.endCopy_eq (s : State) (n : Nat) :
    s.endCopy n = ((List.range 64).foldl (fun u _ => (s.diesOf n).foldl State.sendPage u) s).confirmCopy n (s.diesOf n) := rfl

section
variable {R : SMap Row} {s₀ s t : State}

theorem Beside.refl (R : SMap Row) (s : State) : Beside R s s (s.withRows R) := ⟨rfl, rfl, rfl, fun _ _ => rfl, fun _ _ => rfl⟩

/-- An update of memory and of what the checkpoint engine keeps of its pages. -/
theorem Beside.frame {mem tags dirty pend push ckp out} (h : Beside R s₀ s (s.withRows R)) :
    Beside R s₀ { s with mem, tags, dirty, pend, push, ckp, out } { s.withRows R with mem, tags, dirty, pend, push, ckp, out } :=
  ⟨rfl, h.rows, h.cmds, h.rd, h.ctr⟩

theorem Beside.wr (h : Beside R s₀ s t) {a : Nat} {v : Word} (ha : 0x2000000 ≤ a) : Beside R s₀ (s.wr a v) (t.wr a v) := by
  obtain ⟨rfl, hrows, hcmds, hrd, hctr⟩ := h
  exact ⟨rfl, hrows, hcmds, fun b hb => (s.rd_wr_other v (by omega)).trans (hrd b hb), hctr⟩

theorem Beside.countN (h : Beside R s₀ s t) {a k : Nat} (ha : 0x2000000 ≤ a) : Beside R s₀ (s.countN a k) (t.countN a k) := by
  obtain ⟨rfl, hrows, hcmds, hrd, hctr⟩ := h
  exact ⟨rfl, hrows, hcmds, hrd, fun b hb => (s.ctr_countN_other k (by omega)).trans (hctr b hb)⟩

theorem Beside.count (h : Beside R s₀ s t) {a : Nat} (ha : 0x2000000 ≤ a) : Beside R s₀ (s.count a) (t.count a) := by
  obtain ⟨rfl, hrows, hcmds, hrd, hctr⟩ := h
  exact ⟨rfl, hrows, hcmds, hrd, fun b hb => (s.ctr_count_other (by omega)).trans (hctr b hb)⟩

theorem Beside.ite {c : Prop} {i j : Decidable c} {a b a' b' : State} (ha : Beside R s₀ a a') (hb : Beside R s₀ b b') :
    Beside R s₀ (@ite _ c i a b) (@ite _ c j a' b') := by split <;> assumption

theorem Beside.foldl {α : Type} {f : State → α → State} {xs : List α}
    (hf : ∀ u v x, Beside R s₀ u v → Beside R s₀ (f u x) (f v x)) (h : Beside R s₀ s t) : Beside R s₀ (xs.foldl f s) (xs.foldl f t) := by
  induction xs generalizing s t with
  | nil => exact h
  | cons x xs ih => exact ih (hf s t x h)

theorem Beside.wf (h : Beside R s₀ s t) {a hi lo x : Nat} (ha : 0x2000000 ≤ a) : Beside R s₀ (s.wf a hi lo x) (t.wf a hi lo x) := by
  obtain rfl := h.twin
  exact h.wr ha

theorem Beside.eventN (h : Beside R s₀ s t) {a i k : Nat} (ha : 0x2000000 ≤ a) : Beside R s₀ (s.eventN a i k) (t.eventN a i k) := by
  induction k generalizing s t with
  | zero => exact h
  | succ k ih =>
    obtain rfl := h.twin
    exact ih (h.wr ha)

theorem Beside.sendPage (h : Beside R s₀ s t) {d : Nat} : Beside R s₀ (s.sendPage d) (t.sendPage d) := by
  obtain rfl := h.twin
  rw [State.sendPage, State.sendPage, show (s.withRows R).push = s.push from rfl]
  cases s.push.find? (fun p => p.die = d) with
  | none => exact h
  | some p => exact .count h.frame (by decide)

theorem Beside.capturePage (h : Beside R s₀ s t) {d g : Nat} : Beside R s₀ (s.capturePage d g) (t.capturePage d g) := by
  have hbuffer : ∀ u v, Beside R s₀ u v → Beside R s₀ (u.bufferPage d g) (v.bufferPage d g) := by
    intro u v hu
    obtain rfl := hu.twin
    exact hu.frame
  obtain rfl := h.twin
  rw [State.capturePage_eq, State.capturePage_eq]
  exact hbuffer _ _ (.ite h h.sendPage)

theorem Beside.failPush (h : Beside R s₀ s t) {n st : Nat} : Beside R s₀ (s.failPush n st) (t.failPush n st) := by
  obtain rfl := h.twin
  exact .eventN (.countN (.wf h.frame (Nat.le_add_right_of_le (by decide))) (by decide)) (by decide)

theorem Beside.captureNow (h : Beside R s₀ s t) {n b : Nat} : Beside R s₀ (s.captureNow n b) (t.captureNow n b) := by
  obtain rfl := h.twin
  exact .ite h.frame (.failPush h.frame)

theorem Beside.sendDigests (h : Beside R s₀ s t) {n b : Nat} {ds : List Nat} :
    Beside R s₀ (s.sendDigests n b ds) (t.sendDigests n b ds) := by
  obtain rfl := h.twin
  exact h.frame

theorem Beside.confirmCopy (h : Beside R s₀ s t) {n : Nat} {ds : List Nat} :
    Beside R s₀ (s.confirmCopy n ds) (t.confirmCopy n ds) := by
  obtain rfl := h.twin
  rw [State.confirmCopy, State.confirmCopy, show (s.withRows R).ckpOf n = s.ckpOf n from rfl]
  cases (s.ckpOf n).copying with
  | none => exact h
  | some b =>
    cases (s.ckpOf n).waiting with
    | none => exact h.sendDigests
    | some b' => exact .captureNow h.sendDigests

theorem Beside.endCopy (h : Beside R s₀ s t) {n : Nat} : Beside R s₀ (s.endCopy n) (t.endCopy n) := by
  obtain rfl := h.twin
  rw [State.endCopy_eq, State.endCopy_eq, show (s.withRows R).diesOf n = s.diesOf n from rfl]
  have hdies : ∀ u v (_ : Nat), Beside R s₀ u v → Beside R s₀ ((s.diesOf n).foldl State.sendPage u) ((s.diesOf n).foldl State.sendPage v) :=
    fun _ _ _ hu => hu.foldl fun _ _ _ hv => hv.sendPage
  exact (h.foldl hdies).confirmCopy

theorem Beside.drainCopy (h : Beside R s₀ s t) {n : Nat} : Beside R s₀ (s.drainCopy n) (t.drainCopy n) := by
  obtain rfl := h.twin
  rw [State.drainCopy, State.drainCopy, State.pendPages_withRows]
  have hpage : ∀ u v (e : Nat × Nat), Beside R s₀ u v → Beside R s₀ (u.capturePage e.1 e.2) (v.capturePage e.1 e.2) :=
    fun _ _ _ hu => hu.capturePage
  exact (h.foldl hpage).endCopy

theorem Beside.markDirty (h : Beside R s₀ s t) {g : Nat} :
    Beside R s₀ { s with dirty := store false s.dirty g true } { t with dirty := store false t.dirty g true } := by
  obtain rfl := h.twin
  exact h.frame

theorem Beside.touchPage (h : Beside R s₀ s t) {g : Nat} : Beside R s₀ (s.touchPage g) (t.touchPage g) := by
  have hcapture : ∀ u v d, Beside R s₀ u v → Beside R s₀ (if fetch false u.pend g then (u.capturePage d g).count Ctr.CKP_CBW_STALL else u)
      (if fetch false v.pend g then (v.capturePage d g).count Ctr.CKP_CBW_STALL else v) := by
    intro u v d hu
    obtain rfl := hu.twin
    exact .ite (.count hu.capturePage (by decide)) hu
  obtain rfl := h.twin
  rw [State.touchPage, State.touchPage, State.statePage_withRows]
  cases s.statePage g with
  | none => exact h
  | some d => exact .markDirty (hcapture _ _ d (.ite h.drainCopy h))

theorem Beside.write (h : Beside R s₀ s t) {a : Nat} {bs : List Byte} {p : Bool} : Beside R s₀ (s.write a bs p) (t.write a bs p) := by
  have hpoke : ∀ u v, Beside R s₀ u v → Beside R s₀ (u.poke a bs p) (v.poke a bs p) := by
    intro u v hu
    obtain rfl := hu.twin
    exact hu.frame
  exact hpoke _ _ (.foldl (fun _ _ _ hu => hu.touchPage) h)

theorem Beside.writeB (h : Beside R s₀ s t) {a : Nat} {bs : List Byte} : Beside R s₀ (s.writeB a bs) (t.writeB a bs) := h.write

theorem Beside.report (h : Beside R s₀ s t) {n kind st time : Nat} {args : List Byte} :
    Beside R s₀ (s.report n kind st time args) (t.report n kind st time args) := by
  have hseq : 0x2000000 ≤ Reg.SPN_SEQ n := Nat.le_add_right_of_le (by decide)
  obtain rfl := h.twin
  exact .ite (.count (.writeB (h.wr hseq)) (by decide)) (.count (h.wr hseq) (by decide))

end

end Sys2Proof.Machine
end

section
/-! PROOFS. What a trap does, and what no needle executes (O27): the step of a needle by what it stands at, and trap entry. -/

namespace Sys2Proof.Machine

section
variable {s : State} {l i w : Nat} {mn mn' : Mn} {ecc : Ecc}

/-! ### The step of a needle (R331, R390) -/

theorem exec_needleInstr (s : State) (mn : Mn) (l i : Nat) (ecc : Ecc) :
    exec (needleInstr mn l i ecc) s = .next (s.needleStep mn l i ecc) := by cases mn <;> rfl

theorem atWord_iff : atWord s l i w mn = true ↔ (l < 128 ∧ i < 16 ∧ s.rowRuns l = true ∧ (s.needle l i).wait = .run) ∧
    inCode (s.row l).prog (s.needle l i).pc = true ∧ imgLe (s.row l).prog (s.needle l i).pc 4 = w ∧ mnOf w = some mn := by
  simp [atWord, and_assoc]

theorem standsAt_iff : standsAt s l i w mn = true ↔ atWord s l i w mn = true ∧
    legal (s.row l).prog (s.rowKind l) (s.needle l i).hm mn w = true := by
  simp [standsAt]

theorem State.needleStep_idle (h : s.rowRuns l = false ∨ (s.needle l i).wait ≠ .run) : s.needleStep mn l i ecc = s := by
  rw [State.needleStep]
  exact if_pos (by rcases h with h | h <;> simp [h])

section
variable (hl : l < 128) (hi : i < 16) (hruns : s.rowRuns l = true) (hwait : (s.needle l i).wait = .run)
include hl hi hruns hwait

theorem State.needleStep_outside (hcode : inCode (s.row l).prog (s.needle l i).pc = false) :
    s.needleStep mn l i ecc =
      s.needleTrap l i (s.needle l i) 0x02 (s.needle l i).pc 0 false false (s.needle l i).pc (s.needle l i).pc := by
  simp [State.needleStep, hl, hi, hruns, hwait, hcode]

theorem State.needleStep_reserved (hcode : inCode (s.row l).prog (s.needle l i).pc = true)
    (hmn : mnOf (imgLe (s.row l).prog (s.needle l i).pc 4) = none) : s.needleStep mn l i ecc =
      s.needleTrap l i (s.needle l i) 0x01 0 0 false false (s.needle l i).pc (s.needle l i).pc := by
  simp [State.needleStep, hl, hi, hruns, hwait, hcode, hmn]

end

theorem State.needleStep_at (h : atWord s l i w mn' = true) : s.needleStep mn l i ecc =
    if mn' = mn then (counted s ecc).needleExec l i (s.needle l i) mn w ecc else s := by
  obtain ⟨⟨hl, hi, hruns, hwait⟩, hcode, rfl, hmn⟩ := atWord_iff.mp h
  simp [State.needleStep, hl, hi, hruns, hwait, hcode, hmn, counted]

/-- The needle with which an instruction of mnemonic `mn` executes: all but REP drop the iteration at which RTT has resumed a pair. -/
def Needle.starts (n : Needle) (mn : Mn) : Needle := if mn = .rep then n else { n with resumeAt := none }

theorem State.needleExec_illegal {n : Needle} (h : legal (s.row l).prog (s.rowKind l) n.hm mn w = false) :
    s.needleExec l i n mn w ecc = s.needleTrap l i (n.starts mn) 0x01 0 0 false false n.pc n.pc := by
  have hhm : (n.starts mn).hm = n.hm := by
    rw [Needle.starts]
    split <;> rfl
  exact if_pos (by rw [← Needle.starts, hhm, h]; rfl)

/-! ### Trap entry (R304, R393, R396) -/

theorem State.needleTrap_faulting (s : State) (l i : Nat) (n : Needle) (cause addr it at_ : Nat) :
    s.needleTrap l i n cause addr it false false at_ at_ =
      if n.hm = false ∧ vectorOf (s.row l).prog cause ≠ 0 then
        s.setNeedle l i { n with hm := true, tpc := at_ % 65536, tcause := cause, taddr := addr, titer := it, tflags := n.flags,
                                 tpair := false, pc := vectorOf (s.row l).prog cause, wait := .run }
      else (s.setNeedle l i n).rowTrapped l i cause at_ addr := by
  rw [State.needleTrap]
  simp

theorem aheadMod_self (a : Nat) : aheadMod 32 a a = 0 := by
  rw [aheadMod]
  omega

/-- A trap record that finds room is written at the head of the ring, counted and reported. -/
theorem State.writeTrap_room {s : State} (l i : Nat) (rf : Bool) (cause pc addr : Nat)
    (h : aheadMod 32 (s.rd Reg.NDL_TRAP_TAIL).toNat (s.rd Reg.NDL_TRAP_COUNT).toNat ≠ 256) : ∃ a bs st args,
    let u := (s.writeB a bs).wr Reg.NDL_TRAP_COUNT (s.rd Reg.NDL_TRAP_COUNT + 1)
    s.writeTrap l i rf cause pc addr = u.report (u.rowSlice l) 1 st u.now args := by
  have hnext : s.rd Reg.NDL_TRAP_COUNT + 1 = BitVec.ofNat 32 ((s.rd Reg.NDL_TRAP_COUNT).toNat + 1) :=
    BitVec.eq_of_toNat_eq (by simp)
  rw [hnext]
  exact ⟨_, _, _, _, if_neg h⟩

/-- It leaves rows and row commands, and of the registers and counters below the CKP block changes the count of records alone. -/
theorem State.writeTrap_frame {s : State} (l i : Nat) (rf : Bool) (cause pc addr : Nat)
    (h : aheadMod 32 (s.rd Reg.NDL_TRAP_TAIL).toNat (s.rd Reg.NDL_TRAP_COUNT).toNat ≠ 256) :
    (s.writeTrap l i rf cause pc addr).rows = s.rows ∧ (s.writeTrap l i rf cause pc addr).rowCmds = s.rowCmds ∧
    (∀ a < 0x2000000, (s.writeTrap l i rf cause pc addr).ctr a = s.ctr a) ∧
    ∀ a < 0x2000000, (s.writeTrap l i rf cause pc addr).rd a = if a = Reg.NDL_TRAP_COUNT then s.rd a + 1 else s.rd a := by
  obtain ⟨b, bs, st, args, ht⟩ := State.writeTrap_room l i rf cause pc addr h
  have hwritten := (Beside.refl [] s).writeB (a := b) (bs := bs)
  generalize hu : (s.writeB b bs).wr Reg.NDL_TRAP_COUNT (s.rd Reg.NDL_TRAP_COUNT + 1) = u at ht
  have hreport := (Beside.refl [] u).report (n := u.rowSlice l) (kind := 1) (st := st) (time := u.now) (args := args)
  rw [ht, hreport.rows, hreport.cmds]
  subst hu
  refine ⟨?_, ?_, fun a ha => ?_, fun a ha => ?_⟩
  · rw [State.wr_rows, hwritten.rows]
  · rw [State.wr_rowCmds, hwritten.cmds]
  · rw [hreport.ctr a ha, State.ctr_wr, hwritten.ctr a ha]
  · rw [hreport.rd a ha, State.rd_wr, hwritten.rd a ha]
    split
    · rename_i ha'
      rw [ha']
    · rfl

theorem State.rowDone_none (h : (s.row l).owner = none) (st : Nat) : s.rowDone l st = s := by
  rw [State.rowDone, h]

/-- The needle once its row has trapped (R304). -/
def Needle.halted (n : Needle) : Needle := { n with wait := if n.wait = .ended then .ended else .halted }

theorem State.rowTrapped_eq (s : State) (l i cause pc addr : Nat) : s.rowTrapped l i cause pc addr =
    (((((s.setRow l ((s.row l).mapNeedles fun _ => Needle.halted)).setRowState l 7).writeTrap l i false cause pc addr).count
      Ctr.NDL_TRAP).event Reg.NDL_EVT 0).rowDone l 0x0263 := rfl

theorem State.owner_mapNeedles (s : State) (l : Nat) (f : Nat → Needle → Needle) : ((s.row l).mapNeedles f).owner = (s.row l).owner := by
  obtain ⟨needles, h⟩ := (s.row l).mapNeedles_eq f
  rw [h]

/-- A row that serves no command and finds room for its record is TRAPPED: its needles halt, and the trap is counted and recorded. -/
theorem State.rowTrapped_unowned (howner : (s.row l).owner = none) (hring : s.rd Reg.NDL_TRAP_TAIL = s.rd Reg.NDL_TRAP_COUNT)
    (hl : l < 128) {t : State} (cause pc addr : Nat) (ht : s.rowTrapped l i cause pc addr = t) :
    t.rowState l = 7 ∧ (∀ k < 16, (t.needle l k).wait = if (s.needle l k).wait = .ended then .ended else .halted) ∧
    t.ctr Ctr.NDL_TRAP = (s.ctr Ctr.NDL_TRAP).bump ∧ t.rd Reg.NDL_TRAP_COUNT = s.rd Reg.NDL_TRAP_COUNT + 1 := by
  rw [State.rowTrapped_eq] at ht
  have hrow : ∀ x, ((s.setRow l x).setRowState l 7).row l = x := fun x => State.row_setRow_same ..
  have hctr : ∀ x, ((s.setRow l x).setRowState l 7).ctr Ctr.NDL_TRAP = s.ctr Ctr.NDL_TRAP := fun _ => rfl
  have hstate : ∀ x, ((s.setRow l x).setRowState l 7).rowState l = 7 := fun _ => State.rowState_setRowState _ l 7
  have hrd : ∀ x, ∀ a ≤ Reg.NDL_TRAP_TAIL, ((s.setRow l x).setRowState l 7).rd a = s.rd a := fun _ a ha =>
    State.rd_wf_other _ _ _ _ (by simp only [Reg.NDL_TRAP_TAIL] at ha; simp only [Reg.NDL_ROW]; omega)
  specialize hrow ((s.row l).mapNeedles fun _ => Needle.halted)
  specialize hctr ((s.row l).mapNeedles fun _ => Needle.halted)
  specialize hstate ((s.row l).mapNeedles fun _ => Needle.halted)
  specialize hrd ((s.row l).mapNeedles fun _ => Needle.halted)
  generalize (s.setRow l ((s.row l).mapNeedles fun _ => Needle.halted)).setRowState l 7 = u at hrow hctr hstate hrd ht
  have hcount := hrd Reg.NDL_TRAP_COUNT (by decide)
  have hroom : aheadMod 32 (u.rd Reg.NDL_TRAP_TAIL).toNat (u.rd Reg.NDL_TRAP_COUNT).toNat ≠ 256 := by
    rw [hrd _ (by decide), hcount, hring, aheadMod_self]
    decide
  obtain ⟨hrows', -, hctr', hrd'⟩ := State.writeTrap_frame l i false cause pc addr hroom
  have hrow' : (u.writeTrap l i false cause pc addr).row l = (s.row l).mapNeedles fun _ => Needle.halted := by
    rw [State.row, hrows', ← hrow]
    rfl
  generalize u.writeTrap l i false cause pc addr = v at hrows' hctr' hrd' hrow' ht
  rw [State.rowDone_none (by rw [State.row_event, State.row_count, hrow', State.owner_mapNeedles, howner])] at ht
  subst ht
  refine ⟨?_, fun k hk => ?_, ?_, ?_⟩
  · have hevt : Reg.NDL_ROW l ≠ Reg.NDL_EVT := by simp only [Reg.NDL_ROW, Reg.NDL_EVT]; omega
    have htrap : Reg.NDL_ROW l ≠ Reg.NDL_TRAP_COUNT := by simp only [Reg.NDL_ROW, Reg.NDL_TRAP_COUNT]; omega
    have hlow : Reg.NDL_ROW l < 0x2000000 := by simp only [Reg.NDL_ROW]; omega
    refine (State.rowState_of_rd ?_).trans hstate
    rw [State.rd_event_other _ _ hevt, State.rd_count, hrd' _ hlow, if_neg htrap]
  · rw [State.needle_eq, State.row_event, State.row_count, hrow', Row.needle_mapNeedles _ _ hk]
    rfl
  · rw [State.ctr_event, State.ctr_count_same, hctr' _ (by decide), hctr]
  · rw [State.rd_event_other _ _ (by decide), State.rd_count, hrd' _ (by decide), if_pos rfl, hcount]

end

/-- Settles O27: what a needle stands at selects the branch of its step, and a trap enters the handler or halts the row. -/
theorem needleTraps : Obligations.NeedleTraps := by
  refine ⟨?outside, ?reserved, ?illegal, ?elsewhere, ?idle, ?entry, ?trapped⟩
  case outside =>
    intro s l i ecc mn hl hi hruns hwait hcode n
    rw [exec_needleInstr, State.needleStep_outside hl hi hruns hwait hcode]
  case reserved =>
    intro s l i w ecc mn hl hi hruns hwait hcode hw hmn n
    rw [exec_needleInstr, State.needleStep_reserved hl hi hruns hwait hcode (by rw [hw, hmn])]
  case illegal =>
    intro s l i w ecc mn h hillegal n m
    rw [exec_needleInstr, State.needleStep_at h, if_pos rfl, State.needleExec_illegal (s := counted s ecc) hillegal]
    rfl
  case elsewhere =>
    intro s l i w ecc mn mn' h hne
    rw [exec_needleInstr, State.needleStep_at h, if_neg (Ne.symm hne)]
  case idle =>
    intro s l i ecc mn h
    rw [exec_needleInstr, State.needleStep_idle h]
  case entry =>
    intro s l i cause addr it at_ n vec
    exact s.needleTrap_faulting l i n cause addr it at_
  case trapped =>
    intro s l i cause pc addr hl _ howner hring t
    obtain ⟨hstate, hwait, hctr, hcount⟩ := State.rowTrapped_unowned (i := i) howner hring hl cause pc addr rfl
    exact ⟨hstate, fun k hk => hwait k (List.mem_range.mp hk), hctr, hcount⟩

end Sys2Proof.Machine
end

section
/-! PROOFS. Row-collective instructions, the matrix block, END and the waits (O32): who waits, when the row acts, and what it does. -/

namespace Sys2Proof.Machine

section
variable {s : State} {l i w : Nat} {mn : Mn} {ecc : Ecc}

/-! ### Needles that wait at a row-collective instruction (R380, R381) -/

theorem State.mem_waiters {k : Nat} :
    k ∈ s.waiters l ↔ k < 16 ∧ ∃ off x ops, (s.needle l k).wait = .collective off x ops := by
  rw [State.waiters, List.mem_filter, List.mem_range]
  cases (s.needle l k).wait <;> simp

theorem State.collectiveCheck_nobody (h : s.waiters l = []) (i : Nat) : s.collectiveCheck l i = s := if_pos h

theorem State.collectiveCheck_ended {j : Nat} (hw : s.waiters l ≠ []) (hj : j < 16) (hended : (s.needle l j).wait = .ended)
    (i : Nat) : s.collectiveCheck l i = s.trapNeedles l (s.waiters l) 0x12 0 := by
  have hsome : (List.range 16).any (fun k => (s.needle l k).wait = .ended) = true :=
    List.any_eq_true.mpr ⟨j, List.mem_range.mpr hj, decide_eq_true hended⟩
  exact (if_neg hw).trans (if_pos hsome)

theorem State.any_ended_eq_false (h : ∀ k < 16, (s.needle l k).wait ≠ .ended) :
    (List.range 16).any (fun k => (s.needle l k).wait = .ended) = false :=
  List.any_eq_false.mpr fun k hk => by simpa using h k (List.mem_range.mp hk)

theorem State.not_ended_of_waiters (hall : s.waiters l = List.range 16) {k : Nat} (hk : k < 16) : (s.needle l k).wait ≠ .ended := by
  obtain ⟨-, _, _, _, h⟩ := State.mem_waiters.mp (hall ▸ List.mem_range.mpr hk)
  simp [h]

section
variable {off x : Nat} {ops : List Nat} (hwait : (s.needle l i).wait = .collective off x ops)
include hwait

theorem State.collectiveCheck_waits {j : Nat} (hi : i < 16) (hgoing : ∀ k < 16, (s.needle l k).wait ≠ .ended) (hj : j < 16)
    (hout : j ∉ s.waiters l) : s.collectiveCheck l i = s := by
  have hw : s.waiters l ≠ [] := List.ne_nil_of_mem (State.mem_waiters.mpr ⟨hi, _, _, _, hwait⟩)
  have hlen : (s.waiters l).length < 16 :=
    List.length_range (n := 16) ▸ List.length_filter_lt_length_iff_exists.mpr ⟨j, List.mem_range.mpr hj, fun hwaits =>
      hout (List.mem_filter.mpr ⟨List.mem_range.mpr hj, hwaits⟩)⟩
  simp only [State.collectiveCheck, if_neg hw, State.any_ended_eq_false hgoing, Bool.false_eq_true, if_false, if_pos hlen]

variable (hall : s.waiters l = List.range 16)
include hall

theorem State.collectiveCheck_mismatch {j : Nat} (hj : j < 16) (hne : (s.needle l j).wait ≠ (s.needle l i).wait) :
    s.collectiveCheck l i = s.trapNeedles l (List.range 16) 0x12 0 := by
  have hnone := State.any_ended_eq_false fun _ => State.not_ended_of_waiters hall
  have hdiffer : (List.range 16).all (fun k => (s.needle l k).wait = .collective off x ops) = false :=
    List.all_eq_false.mpr ⟨j, List.mem_range.mpr hj, by simpa [hwait] using hne⟩
  simp [State.collectiveCheck, hall, hnone, hwait, hdiffer]

theorem State.collectiveCheck_acts (hsame : ∀ k < 16, (s.needle l k).wait = .collective off x ops) (hmn : mnOf x = some mn) :
    s.collectiveCheck l i = s.rowAct l i off x mn := by
  have hnone := State.any_ended_eq_false fun _ => State.not_ended_of_waiters hall
  have hagree : (List.range 16).all (fun k => (s.needle l k).wait = .collective off x ops) = true :=
    List.all_eq_true.mpr fun k hk => decide_eq_true (hsame k (List.mem_range.mp hk))
  simp [State.collectiveCheck, hall, hnone, hwait, hagree, hmn]

end

/-! ### A needle issues an instruction -/

/-- The fields of an instruction are legal: it is issued when it is row-collective. -/
theorem State.needleExec_collective {n : Needle} (hlegal : legal (s.row l).prog (s.rowKind l) n.hm mn w = true)
    (hcoll : isCollective (s.rowKind l) mn = true) : s.needleExec l i n mn w ecc =
      (s.setNeedle l i { n with wait := .collective n.pc w ((collectiveRegs mn w).map n.gv), resumeAt := none }).collectiveCheck l i := by
  have hn : n.starts mn = { n with resumeAt := none } := if_neg (by rintro rfl; exact Bool.noConfusion hcoll)
  have hlegal' : ¬(!legal (s.row l).prog (s.rowKind l) (n.starts mn).hm mn w) = true := by rw [hn, hlegal]; decide
  refine ((if_neg hlegal').trans (if_pos hcoll) : s.needleExec l i n mn w ecc =
    (s.setNeedle l i { n.starts mn with wait := .collective n.pc w ((collectiveRegs mn w).map (n.starts mn).gv) }).collectiveCheck l i).trans ?_
  rw [hn]
  rfl

theorem exec_of_standsAt (h : standsAt s l i w mn = true) :
    exec (needleInstr mn l i ecc) s = .next ((counted s ecc).needleExec l i (s.needle l i) mn w ecc) := by
  rw [exec_needleInstr, State.needleStep_at (standsAt_iff.mp h).1, if_pos rfl]

theorem exec_collective (h : standsAt s l i w mn = true) (hcoll : isCollective (s.rowKind l) mn = true) :
    exec (needleInstr mn l i ecc) s = .next ((issued s l i w mn ecc).collectiveCheck l i) := by
  rw [exec_of_standsAt h, State.needleExec_collective (s := counted s ecc) (standsAt_iff.mp h).2 hcoll]
  rfl

/-! ### The row once a needle has issued -/

@[simp] theorem issued_needle_same : (issued s l i w mn ecc).needle l i =
    { s.needle l i with wait := .collective (s.needle l i).pc w ((collectiveRegs mn w).map (s.needle l i).gv), resumeAt := none } :=
  State.needle_setNeedle_same ..

theorem issued_needle_other {k : Nat} (hk : k ≠ i) : (issued s l i w mn ecc).needle l k = s.needle l k :=
  State.needle_setNeedle_other _ _ _ _ hk

theorem wait_issued (s : State) (l i w : Nat) (mn : Mn) (ecc : Ecc) : ((issued s l i w mn ecc).needle l i).wait =
    .collective (s.needle l i).pc w ((collectiveRegs mn w).map (s.needle l i).gv) := by rw [issued_needle_same]

theorem lastToIssue_iff : lastToIssue s l i w mn = true ↔ standsAt s l i w mn = true ∧ isCollective (s.rowKind l) mn = true ∧
    ∀ k < 16, k = i ∨ (s.needle l k).wait = .collective (s.needle l i).pc w ((collectiveRegs mn w).map (s.needle l i).gv) := by
  simp [lastToIssue, and_assoc]

/-- The last needle of a row issues the instruction: the row acts. -/
theorem exec_last (h : lastToIssue s l i w mn = true) : exec (needleInstr mn l i ecc) s =
    .next ((issued s l i w mn ecc).rowAct l i (s.needle l i).pc w mn) := by
  obtain ⟨hat, hcoll, hothers⟩ := lastToIssue_iff.mp h
  obtain ⟨-, -, -, hmn⟩ := atWord_iff.mp (standsAt_iff.mp hat).1
  have hsame : ∀ k < 16, ((issued s l i w mn ecc).needle l k).wait =
      .collective (s.needle l i).pc w ((collectiveRegs mn w).map (s.needle l i).gv) := by
    intro k hk
    by_cases hki : k = i
    · rw [hki, wait_issued]
    · rw [issued_needle_other hki]
      exact (hothers k hk).resolve_left hki
  have hall : (issued s l i w mn ecc).waiters l = List.range 16 :=
    List.filter_eq_self.mpr fun k hk => by rw [hsame k (List.mem_range.mp hk)]
  rw [exec_collective hat hcoll, State.collectiveCheck_acts (wait_issued ..) hall hsame hmn]

/-! ### The matrix block (R383 to R386) -/

theorem fetch_foldl_store_key {α : Type} [DecidableEq α] (d : α) (v : Nat → α) (ks : List Nat) (m : SMap α) (a : Nat) :
    fetch d (ks.foldl (fun m k => store d m k (v k)) m) a = if a ∈ ks then v a else fetch d m a := by
  induction ks generalizing m with
  | nil => simp
  | cons k ks ih =>
    rw [List.foldl_cons, ih, fetch_store]
    by_cases hk : a = k <;> by_cases hks : a ∈ ks <;> simp [hk, hks]

theorem mmaElem_fst (a b : MatBuf) (i j : Nat) (kn k : Nat) (acc : Nat × Bool) : (mmaElem a b i j k kn acc).1 =
    (List.range' k kn).foldl (fun c k =>
      roundTo fmtFp32 false none (numAdd (decodeFloat fmtFp32 c) (numMul (a.num k i) (b.num k j)))) acc.1 := by
  induction kn generalizing k acc with
  | zero => rfl
  | succ kn ih =>
    rw [mmaElem, ih]
    rfl

theorem State.actMma_trap {n : Needle} (h : n.gv (fB w) = 0 ∨ (s.row l).bufA.slices < n.gv (fA w) + n.gv (fB w) ∨
    (s.row l).bufB.slices < n.gv (fA w) + n.gv (fB w) ∨ ((s.row l).bufA.fmt = 1) ≠ ((s.row l).bufB.fmt = 1)) :
    s.actMma l w n = (s, some (0x13, n.gv (fB w))) := by
  refine if_pos ?_
  rcases h with h | h | h | h
  · simp [h]
  · simp [h]
  · simp [h]
  · rw [Bool.or_eq_true]
    exact .inr (bne_iff_ne.mpr fun e => h (propext (decide_eq_decide.mp e)))

theorem State.actMma_tile {n : Needle} (hpos : 0 < n.gv (fB w)) (ha : n.gv (fA w) + n.gv (fB w) ≤ (s.row l).bufA.slices)
    (hb : n.gv (fA w) + n.gv (fB w) ≤ (s.row l).bufB.slices) (hfmt : ((s.row l).bufA.fmt = 1) = ((s.row l).bufB.fmt = 1)) :
    ((s.actMma l w n).1.row l).tile = (List.range 1024).foldl (fun m e => store 0 m e (mmaElem (s.row l).bufA (s.row l).bufB (e / 32)
      (e % 32) (n.gv (fA w)) (n.gv (fB w)) (fetch 0 (s.row l).tile e, fetch false (s.row l).tilePoison e)).1) (s.row l).tile ∧
    ((s.actMma l w n).1.row l).tileLive = true := by
  have hgo : ¬(n.gv (fB w) = 0 || min (s.row l).bufA.slices (s.row l).bufB.slices < n.gv (fA w) + n.gv (fB w) ||
      ((s.row l).bufA.fmt = 1) != ((s.row l).bufB.fmt = 1)) = true := by
    rw [decide_eq_decide.mpr (iff_of_eq hfmt), bne_self_eq_false, Bool.or_false]
    simp only [Bool.or_eq_true, decide_eq_true_eq]
    omega
  have hmma : s.actMma l w n = (s.setRow l _, none) := if_neg hgo
  rw [hmma, State.row_setRow_same]
  refine ⟨?_, rfl⟩
  dsimp only
  rw [List.foldl_map]

/-- What the matrix block does for MLD, MMA and MST, with the trap it raises. -/
def State.matrixAct (s : State) (l i w : Nat) (mn : Mn) : State × Option (Nat × Nat) :=
  let n := s.needle l i
  if mn = .mld then s.actMld l w n else if mn = .mma then s.actMma l w n else s.actMst l i w n

theorem State.rowAct_matrix (hmn : mn = .mld ∨ mn = .mma ∨ mn = .mst) (off : Nat) : s.rowAct l i off w mn =
    if (s.matrixAct l i w mn).2.isSome then
      s.trapNeedles l (List.range 16) ((s.matrixAct l i w mn).2.getD (0, 0)).1 ((s.matrixAct l i w mn).2.getD (0, 0)).2
    else (s.matrixAct l i w mn).1.mapRow' l (fun _ m => m.goOn) := by
  rcases hx : s.matrixAct l i w mn with ⟨t, _ | trap⟩
  all_goals
    rcases hmn with rfl | rfl | rfl
    all_goals
      simp only [State.matrixAct, reduceCtorEq, if_true, if_false] at hx
      simp [State.rowAct, hx]

/-! ### Instructions of one needle (R375, R387 to R389) -/

section
variable {n : Needle}

theorem State.needleExec_endRow (h : legal (s.row l).prog (s.rowKind l) n.hm .endRow w = true) : s.needleExec l i n .endRow w ecc =
    ((s.setNeedle l i { n with wait := .ended, resumeAt := none }).collectiveCheck l i).endCheck l :=
  (if_neg (by rw [if_neg (by decide), h]; decide)).trans (if_neg Bool.false_ne_true)

theorem State.needleExec_waitb (h : legal (s.row l).prog (s.rowKind l) n.hm .waitb w = true) (hkind : s.rowKind l ≠ 4) :
    s.needleExec l i n .waitb w ecc = s.setNeedle l i { n with wait := .beat (s.rd Reg.GLB_BEAT_SEQ).toNat, resumeAt := none } :=
  (if_neg (by rw [if_neg (by decide), h]; decide)).trans (if_neg (by simpa [isCollective] using hkind))

theorem State.needleExec_waitt (h : legal (s.row l).prog (s.rowKind l) n.hm .waitt w = true) : s.needleExec l i n .waitt w ecc =
    s.setNeedle l i { n.mark (n.gp (fA w) || n.gp (fB w)) with
      wait := .trigger (n.gv (fA w)) (n.gv (fB w) % 2 ^ 32), resumeAt := none } :=
  (if_neg (by rw [if_neg (by decide), h]; decide)).trans (if_neg Bool.false_ne_true)

/-- The eight tile elements that needle `i` reads by the MRD word `w`, with their poison (R385). -/
def Row.tileLanes (r : Row) (i w : Nat) : List (Nat × Bool) :=
  (List.range 8).map (fun j => (fetch 0 r.tile (32 * (2 * i + bitsOf w 4 4) + 8 * bitsOf w 3 2 + j),
    fetch false r.tilePoison (32 * (2 * i + bitsOf w 4 4) + 8 * bitsOf w 3 2 + j)))

theorem State.needleExec_mrd (h : legal (s.row l).prog (s.rowKind l) n.hm .mrd w = true) : s.needleExec l i n .mrd w ecc =
    s.setNeedle l i { (n.mark (((s.row l).tileLanes i w).any (fun x => x.2))).putLanes (fD w) 0 0 ((s.row l).tileLanes i w) with
      pc := n.pc + 4, resumeAt := none } :=
  (if_neg (by rw [if_neg (by decide), h]; decide)).trans (if_neg Bool.false_ne_true)

end

/-! ### Ends and wakes (R288, R388, R655) -/

theorem State.waiters_eq_nil (h : ∀ k < 16, (s.needle l k).wait = .ended ∨ (s.needle l k).wait = .run) : s.waiters l = [] := by
  refine List.eq_nil_iff_forall_not_mem.mpr fun k hk => ?_
  obtain ⟨hlt, _, _, _, hwait⟩ := State.mem_waiters.mp hk
  rcases h k hlt with h | h <;> simp [hwait] at h

/-- A needle at END ends; when it is the last, the row is LOADED again. -/
theorem State.endRow_eq (h : ∀ k < 16, k = i ∨ (s.needle l k).wait = .ended ∨ (s.needle l k).wait = .run) {n : Needle}
    (hn : n.wait = .ended) : ((s.setNeedle l i n).collectiveCheck l i).endCheck l =
      if (List.range 16).all (fun k => k = i || (s.needle l k).wait = .ended) then ((s.setNeedle l i n).setRowState l 3).rowDone l 0
      else s.setNeedle l i n := by
  have hwait : ∀ k < 16, ((s.setNeedle l i n).needle l k).wait = if k = i then .ended else (s.needle l k).wait := by
    intro k _
    split
    · rename_i hki
      rw [hki, State.needle_setNeedle_same, hn]
    · rename_i hki
      rw [State.needle_setNeedle_other _ _ _ _ hki]
  have hnobody : (s.setNeedle l i n).waiters l = [] := State.waiters_eq_nil fun k hk => by
    rw [hwait k hk]
    split
    · exact .inl rfl
    · rename_i hki
      exact (h k hk).resolve_left hki
  have hall : (List.range 16).all (fun k => ((s.setNeedle l i n).needle l k).wait = .ended) =
      (List.range 16).all (fun k => k = i || (s.needle l k).wait = .ended) := by
    rw [Bool.eq_iff_iff, List.all_eq_true, List.all_eq_true]
    refine forall₂_congr fun k hk => ?_
    rw [hwait k (List.mem_range.mp hk)]
    by_cases hki : k = i <;> simp [hki]
  rw [State.collectiveCheck_nobody hnobody, State.endCheck, hall]

theorem State.waitbWake_eq {q : Nat} (hwait : (s.needle l i).wait = .beat q) (hruns : s.rowRuns l = true) : s.waitbWake l i =
    if (s.rd Reg.GLB_BEAT_SEQ).toNat = q then s else if s.rowKind l = 4 then s.safePoint l (s.needle l i).pc
    else s.setNeedle l i (s.needle l i).goOn := by
  simp [State.waitbWake, hwait, hruns]

theorem State.waittWake_eq {c v : Nat} (hwait : (s.needle l i).wait = .trigger c v) (hruns : s.rowRuns l = true)
    (hc : c < s.shareSize 16384) : s.waittWake l i =
      if s.ctrReached (s.ctrIdx (s.rowSlice l) c) v then s.setNeedle l i (s.needle l i).goOn else s := by
  simp [State.waittWake, hwait, hruns, State.ctrInShare, hc]

end

/-- Settles O32: who has issued decides what happens, and each instruction is the action of its row or its needle. -/
theorem rowCollectives : Obligations.RowCollectives := by
  refine ⟨?waits, ?ended, ?mismatch, ?vxch, ?mclr, ?matrix, ?mmaTrap, ?mma, ?mrd, ?safe, ?endRow, ?waitbRow, ?waitb, ?waitt, ?waitbWake,
    ?waittWake⟩
  case waits =>
    intro s l i w j ecc mn hat hcoll hj hji hout hgoing
    obtain ⟨⟨-, hi, -, -⟩, -⟩ := atWord_iff.mp (standsAt_iff.mp hat).1
    rw [exec_collective hat hcoll]
    refine congrArg _ (State.collectiveCheck_waits (wait_issued ..) hi (fun k hk => ?_) hj fun hin => ?_)
    · by_cases hki : k = i
      · rw [hki, wait_issued]
        exact Wait.noConfusion
      · rw [issued_needle_other hki]
        exact hgoing k (List.mem_range.mpr hk)
    · rw [State.mem_waiters, issued_needle_other hji, ← State.mem_waiters] at hin
      simp [hin] at hout
  case ended =>
    intro s l i w j ecc mn hat hcoll hj hended u
    obtain ⟨⟨-, hi, -, hrun⟩, -⟩ := atWord_iff.mp (standsAt_iff.mp hat).1
    have hji : j ≠ i := by
      rintro rfl
      simp [hrun] at hended
    have hsome : u.waiters l ≠ [] := List.ne_nil_of_mem (State.mem_waiters.mpr ⟨hi, _, _, _, wait_issued ..⟩)
    rw [exec_collective hat hcoll, State.collectiveCheck_ended hsome hj (by rw [issued_needle_other hji, hended])]
  case mismatch =>
    intro s l i w j ecc mn hat hcoll u hall hj hne
    rw [exec_collective hat hcoll, State.collectiveCheck_mismatch (wait_issued ..) hall hj hne]
  case vxch =>
    intro s l i w ecc hlast u g
    have hg : g = (u.needle l i).gv (fB w) := by
      rw [issued_needle_same]
      rfl
    rw [hg]
    exact exec_last hlast
  case mclr =>
    intro s l i w ecc hlast u r
    exact exec_last hlast
  case matrix =>
    intro s l i w ecc mn hmn hlast u n x
    rw [exec_last hlast, State.rowAct_matrix hmn]
    rfl
  case mmaTrap =>
    intro s l w n r k0 k h
    exact State.actMma_trap h
  case mma =>
    intro s l w n r k0 hpos ha hb hfmt t
    obtain ⟨htile, hlive⟩ := State.actMma_tile hpos ha hb hfmt
    refine ⟨fun e he => ?_, hlive⟩
    rw [htile, fetch_foldl_store_key, if_pos he, mmaElem_fst]
  case mrd =>
    intro s l i w ecc hat u n r at_ xs
    refine (exec_of_standsAt hat).trans (congrArg _ ?_)
    exact State.needleExec_mrd (s := u) (standsAt_iff.mp hat).2
  case safe =>
    intro s l i w ecc hlast u v r
    have hlive : (s.row l).tileLive = (u.row l).tileLive :=
      (congrArg Row.tileLive (State.row_setNeedle (counted s ecc) l i _)).symm
    rw [hlive]
    exact exec_last hlast
  case endRow =>
    intro s l i w ecc hat hgoing n u
    refine (exec_of_standsAt hat).trans (congrArg _ ?_)
    rw [State.needleExec_endRow (s := counted s ecc) (standsAt_iff.mp hat).2]
    exact State.endRow_eq (s := counted s ecc) (fun k hk => hgoing k (List.mem_range.mpr hk)) rfl
  case waitbRow =>
    intro s l i w ecc hlast u
    exact exec_last hlast
  case waitb =>
    intro s l i w ecc hat hkind n
    refine (exec_of_standsAt hat).trans (congrArg _ ?_)
    exact State.needleExec_waitb (s := counted s ecc) (standsAt_iff.mp hat).2 hkind
  case waitt =>
    intro s l i w ecc hat n m
    refine (exec_of_standsAt hat).trans (congrArg _ ?_)
    exact State.needleExec_waitt (s := counted s ecc) (standsAt_iff.mp hat).2
  case waitbWake =>
    intro s l i q hwait hruns n
    exact congrArg _ (State.waitbWake_eq hwait hruns)
  case waittWake =>
    intro s l i c v hwait hruns hc n
    exact congrArg _ (State.waittWake_eq hwait hruns hc)

end Sys2Proof.Machine
end

section
/-! PROOFS. The row that RETIRE moves (O23): on variant 2, whose panels have seven rows, the eighth row's own slot looks free. -/

namespace Sys2Proof.Machine

/-- A part of variant 2 with row 7, the eighth of its panel, IDLE in slot 1, and that row in the mask of set 0. -/
def eighthRow : State :=
  ((State.reset.wr Reg.GLB_VARIANT 2).wr (Reg.NDL_ROW 7) 0x101).wr (Reg.NDL_ROWS 0 0) 0x80

/-- The slot of row 7 that a completed command leaves. -/
def slotAfter : Host.Outcome State Fault Refusal → Nat
  | .next t => t.rowSlot 7
  | _ => 0

/-- Refutes O23: slot 1 is the lowest working slot that no row of the panel uses, but it is row 7's own, which RETIRE enters in the
ledger first (R312): the row moves to slot 2. -/
theorem not_rowFaults : ¬ Obligations.RowFaults := by
  rintro ⟨_, _, _, _, _, hretire, _⟩
  obtain ⟨t, ht, _, hslot, _⟩ := hretire eighthRow 0 0 7 1 (by decide) (by decide +kernel) (by decide +kernel) (by decide +kernel)
    (by decide) (by decide) (by decide +kernel) (by decide +kernel) (by decide +kernel)
  have hmoved : slotAfter (exec (.rowRetire (.pf0 0) 0 0x80000008) eighthRow) = 2 := by decide +kernel
  rw [ht] at hmoved
  exact absurd (hslot.symm.trans hmoved) (by decide)

end Sys2Proof.Machine
end

section
/-! PROOFS. Row commands (O20): the checks and the issue of a command, and what moves the rows of its mask and leaves all others. -/

namespace Sys2Proof.Machine

/-! ### What changes rows and no others (R287, R289) -/

/-- The part comes from `s` to `t` with the rows `ls` as `g` makes them and their status words as `h` does, every other row as it was, and
so every other register below the CKP block but those in `E`. -/
structure RowsChange (E ls : List Nat) (g : Nat → Row → Row) (h : Word → Word) (s t : State) : Prop where
  row : ∀ l ∈ ls, t.row l = g l (s.row l)
  status : ∀ l ∈ ls, t.rd (Reg.NDL_ROW l) = h (s.rd (Reg.NDL_ROW l))
  otherRow : ∀ l ∉ ls, t.row l = s.row l
  otherRd : ∀ a < 0x2000000, a ∉ E → (∀ l ∈ ls, a ≠ Reg.NDL_ROW l) → t.rd a = s.rd a

theorem ndlRow_injective {l k : Nat} (h : Reg.NDL_ROW l = Reg.NDL_ROW k) : l = k := by
  simp only [Reg.NDL_ROW] at h
  omega

section
variable {E E' ls : List Nat} {g g' : Nat → Row → Row} {h h' : Word → Word} {s t u : State} {l n : Nat}

theorem RowsChange.mono (hc : RowsChange E ls g h s t) (hE : E ⊆ E') : RowsChange E' ls g h s t :=
  ⟨hc.row, hc.status, hc.otherRow, fun a ha hE' => hc.otherRd a ha (mt (@hE a) hE')⟩

theorem RowsChange.trans (hc : RowsChange E ls g h s t) (hc' : RowsChange E ls g' h' t u) :
    RowsChange E ls (fun l r => g' l (g l r)) (fun w => h' (h w)) s u where
  row l hl := by rw [hc'.row l hl, hc.row l hl]
  status l hl := by rw [hc'.status l hl, hc.status l hl]
  otherRow l hl := (hc'.otherRow l hl).trans (hc.otherRow l hl)
  otherRd a ha hE hne := (hc'.otherRd a ha hE hne).trans (hc.otherRd a ha hE hne)

/-- Row after row: the first row, and the rest. -/
theorem RowsChange.cons (hE : ∀ a ∈ E, a < Reg.NDL_ROW 0) (hlt : ∀ k ∈ l :: ls, k < 128) (hl : l ∉ ls) (hc : RowsChange E [l] g h s t)
    (hc' : RowsChange E ls g h t u) : RowsChange E (l :: ls) g h s u := by
  have hfree : ∀ k, Reg.NDL_ROW k ∉ E := fun k hk => absurd (hE _ hk) (by simp only [Reg.NDL_ROW]; omega)
  have hlow : ∀ k ∈ l :: ls, Reg.NDL_ROW k < 0x2000000 := fun k hk => by
    have := hlt k hk
    simp only [Reg.NDL_ROW]
    omega
  refine ⟨fun k hk => ?_, fun k hk => ?_, fun k hk => ?_, fun a ha hE hne => ?_⟩
  · rcases List.mem_cons.mp hk with rfl | hk'
    · rw [hc'.otherRow k hl, hc.row k (List.mem_singleton_self k)]
    · rw [hc'.row k hk', hc.otherRow k (by rintro hkl; exact hl (List.mem_singleton.mp hkl ▸ hk'))]
  · rcases List.mem_cons.mp hk with rfl | hk'
    · rw [hc'.otherRd _ (hlow k hk) (hfree k) fun j hj heq => hl (ndlRow_injective heq ▸ hj), hc.status k (List.mem_singleton_self k)]
    · rw [hc'.status k hk', hc.otherRd _ (hlow k hk) (hfree k) fun j hj heq =>
        hl (List.mem_singleton.mp hj ▸ ndlRow_injective heq ▸ hk')]
  · obtain ⟨hkl, hkls⟩ := not_or.mp (mt List.mem_cons.mpr hk)
    rw [hc'.otherRow k hkls, hc.otherRow k (by simpa using hkl)]
  · obtain ⟨hal, hals⟩ := List.forall_mem_cons.mp hne
    rw [hc'.otherRd a ha hE hals, hc.otherRd a ha hE (by simpa using hal)]

theorem RowsChange.nil : RowsChange E [] g h s s :=
  ⟨fun _ h => absurd h List.not_mem_nil, fun _ h => absurd h List.not_mem_nil, fun _ _ => rfl, fun _ _ _ _ => rfl⟩

theorem RowsChange.foldl {f : State → Nat → State} (hE : ∀ a ∈ E, a < Reg.NDL_ROW 0) (hf : ∀ u l, RowsChange E [l] g h u (f u l))
    (hls : ls.Nodup) (hlt : ∀ k ∈ ls, k < 128) : RowsChange E ls g h s (ls.foldl f s) := by
  induction ls generalizing s with
  | nil => exact .nil
  | cons l ls ih =>
    obtain ⟨hl, hls⟩ := List.nodup_cons.mp hls
    exact .cons hE hlt hl (hf s l) (ih hls fun k hk => hlt k (List.mem_cons_of_mem _ hk))

theorem RowsChange.setRow : RowsChange [] [l] g id s (s.setRow l (g l (s.row l))) where
  row k hk := by
    obtain rfl := List.mem_singleton.mp hk
    exact s.row_setRow_same ..
  status _ _ := rfl
  otherRow k hk := s.row_setRow_other _ (by simpa using hk)
  otherRd _ _ _ _ := rfl

theorem RowsChange.setRowState {x : Nat} : RowsChange [] [l] (fun _ r => r) (fun w => setField w 3 0 x) s (s.setRowState l x) where
  row _ _ := rfl
  status k hk := by
    obtain rfl := List.mem_singleton.mp hk
    exact s.rd_wf_same ..
  otherRow _ _ := rfl
  otherRd a _ _ hne := s.rd_wf_other _ _ _ (hne l (List.mem_singleton_self l))

/-- A row and its state. -/
theorem RowsChange.set {x : Nat} :
    RowsChange [] [l] g (fun w => setField w 3 0 x) s ((s.setRow l (g l (s.row l))).setRowState l x) :=
  RowsChange.trans .setRow .setRowState

theorem RowsChange.rowState {x : Nat} (hc : RowsChange E ls g (fun w => setField w 3 0 x) s t) (hl : l ∈ ls) :
    t.rowState l = x % 2 ^ 4 := by
  rw [State.rowState, State.rf, hc.status l hl, fieldOf_setField_3_0]

theorem RowsChange.otherRows (hc : RowsChange E ls g h s t) (hE : ∀ a ∈ E, a < Reg.NDL_ROW 0) : otherRows s t ls = true := by
  refine List.all_eq_true.mpr fun k hk => ?_
  by_cases hkls : k ∈ ls
  · simp [hkls]
  · have hlow : Reg.NDL_ROW k < 0x2000000 := by
      have := List.mem_range.mp hk
      simp only [Reg.NDL_ROW]
      omega
    have hfree : Reg.NDL_ROW k ∉ E := fun hmem => absurd (hE _ hmem) (by simp only [Reg.NDL_ROW]; omega)
    rw [hc.otherRow k hkls, hc.otherRd _ hlow hfree fun j hj heq => hkls (ndlRow_injective heq ▸ hj)]
    simp

/-! ### The end of a command on a row (R285, R298) -/

/-- `rowDone` writes rows, row commands and registers alone. -/
theorem State.rowDone_eq (s : State) (l st : Nat) : ∃ rows rowCmds regs, s.rowDone l st = { s with rows, rowCmds, regs } := by
  unfold State.rowDone
  dsimp only
  split
  · exact ⟨_, _, _, rfl⟩
  · split
    · exact ⟨_, _, _, rfl⟩
    · split
      · exact ⟨_, _, _, rfl⟩
      · exact ⟨_, _, _, rfl⟩

variable {c : RowCmd}

/-- A row ends its part of a command well; the last row of the command completes it. -/
theorem State.rowDone_success (howner : (s.row l).owner = some n) (hcmd : s.rowCmd n = some c) (hstatus : c.status = 0) (hrow : c.row = 0)
    (hn : n < 5) : s.rowDone l 0 =
      if c.rows.erase l = [] then ((s.setRow l { s.row l with owner := none }).setRowCmd n none).wr (Reg.NDL_STAT n) 0
      else (s.setRow l { s.row l with owner := none }).setRowCmd n (some { c with rows := c.rows.erase l }) := by
  obtain ⟨op, rows, targets, status, row, image, len, digest⟩ := c
  obtain rfl : status = 0 := hstatus
  obtain rfl : row = 0 := hrow
  simp only [State.rowDone, howner, State.rowCmd_setRow, hcmd, if_true, ne_eq, not_true, and_false, if_false, hn, and_true,
    State.rowCmdEnd]
  rfl

theorem ndlStat_lt (hn : n < 5) : ∀ a ∈ [Reg.NDL_STAT n], a < Reg.NDL_ROW 0 := by
  simp only [List.mem_singleton, forall_eq, Reg.NDL_STAT, Reg.NDL_ROW]
  omega

/-- What `rowDone` adds to a change of the row that keeps its owner. -/
theorem RowsChange.done (hn : n < 5) (hc : RowsChange [] [l] g h s t) (howner : (g l (s.row l)).owner = some n)
    (hcmd : t.rowCmd n = some c) (hstatus : c.status = 0) (hrow : c.row = 0) :
    RowsChange [Reg.NDL_STAT n] [l] (fun l r => { g l r with owner := none }) h s (t.rowDone l 0) ∧
    (c.rows.erase l = [] → (t.rowDone l 0).rowCmd n = none ∧ (t.rowDone l 0).rd (Reg.NDL_STAT n) = 0) ∧
    (c.rows.erase l ≠ [] → (t.rowDone l 0).rowCmd n = some { c with rows := c.rows.erase l }) := by
  have hrowl := hc.row l (List.mem_singleton_self l)
  have hfree : RowsChange [Reg.NDL_STAT n] [l] (fun _ r => { r with owner := none }) id t (t.setRow l { t.row l with owner := none }) :=
    RowsChange.setRow.mono (List.nil_subset _)
  have hc := (hc.mono (List.nil_subset _)).trans hfree
  have hstat : ∀ k, Reg.NDL_ROW k ≠ Reg.NDL_STAT n := fun k => by simp only [Reg.NDL_ROW, Reg.NDL_STAT]; omega
  rw [State.rowDone_success (by rw [hrowl, howner]) hcmd hstatus hrow hn]
  split
  · rename_i hlast
    refine ⟨⟨hc.row, fun k hk => ?_, hc.otherRow, fun a ha hE hne => ?_⟩, fun _ => ⟨by simp, State.rd_wr_same ..⟩,
      fun hmore => absurd hlast hmore⟩
    · rw [State.rd_wr_other _ _ (hstat k)]
      exact hc.status k hk
    · rw [State.rd_wr_other _ _ (by simpa using hE)]
      exact hc.otherRd a ha hE hne
  · rename_i hmore
    exact ⟨⟨hc.row, hc.status, hc.otherRow, hc.otherRd⟩, fun hlast => absurd hlast hmore, fun _ => State.rowCmd_setRowCmd ..⟩

/-- A command that every row of `ls` completes at once ends with them. -/
theorem RowsChange.foldl_done {f : State → Nat → State} (hn : n < 5) (hf : ∀ u l, RowsChange [] [l] g h u (f u l))
    (hcmds : ∀ u l, (f u l).rowCmds = u.rowCmds) (hg : ∀ l r, (g l r).owner = r.owner) (hne : ls ≠ []) (hls : ls.Nodup)
    (hlt : ∀ k ∈ ls, k < 128) (hcmd : s.rowCmd n = some c) (hrows : c.rows = ls) (hstatus : c.status = 0) (hrow : c.row = 0)
    (howner : ∀ k ∈ ls, (s.row k).owner = some n) :
    let t := ls.foldl (fun u l => (f u l).rowDone l 0) s
    RowsChange [Reg.NDL_STAT n] ls (fun l r => { g l r with owner := none }) h s t ∧ t.rowCmd n = none ∧ t.rd (Reg.NDL_STAT n) = 0 := by
  induction ls generalizing s c with
  | nil => exact absurd rfl hne
  | cons l ls ih =>
    obtain ⟨hl, hls⟩ := List.nodup_cons.mp hls
    have hcmd' : (f s l).rowCmd n = some c := by rw [State.rowCmd, hcmds, ← State.rowCmd, hcmd]
    have herase : c.rows.erase l = ls := by rw [hrows, List.erase_cons_head]
    obtain ⟨hfirst, hend, hgo⟩ := (hf s l).done hn (by rw [hg, howner l List.mem_cons_self]) hcmd' hstatus hrow
    rw [herase] at hend hgo
    rw [List.foldl_cons]
    cases ls with
    | nil =>
      obtain ⟨hnone, hstat⟩ := hend rfl
      exact ⟨hfirst, hnone, hstat⟩
    | cons m ms =>
      have howner' : ∀ k ∈ m :: ms, (((f s l).rowDone l 0).row k).owner = some n := fun k hk => by
        rw [hfirst.otherRow k (by rintro hkl; exact hl (List.mem_singleton.mp hkl ▸ hk)), howner k (List.mem_cons_of_mem _ hk)]
      obtain ⟨hrest, hnone, hstat⟩ := ih (List.cons_ne_nil _ _) hls (fun k hk => hlt k (List.mem_cons_of_mem _ hk))
        (hgo (List.cons_ne_nil _ _)) rfl hstatus hrow howner'
      exact ⟨.cons (ndlStat_lt hn) hlt hl hfirst hrest, hnone, hstat⟩

end
end Sys2Proof.Machine
end

section
/-! PROOFS. Row commands (O20): their checks, and START, PAUSE, RESUME and STOP on the rows of the mask. -/

namespace Sys2Proof.Machine

section
variable {s : State} {p n op : Nat}

/-! ### The command register (R287, R290 to R292) -/

theorem State.mem_maskRows_lt {l : Nat} (h : l ∈ s.maskRows n) : l < 128 := List.mem_range.mp (List.mem_filter.mp h).1

theorem State.maskRows_nodup (s : State) (n : Nat) : (s.maskRows n).Nodup := List.nodup_range.filter _

theorem State.maskRows_wr (s : State) (n : Nat) (v : Word) : (s.wr (Reg.NDL_CMD n) v).maskRows n = s.maskRows n := by
  refine List.filter_congr fun l hl => ?_
  rw [State.rd_wr_other]
  have := List.mem_range.mp hl
  simp only [Reg.NDL_ROWS, Reg.NDL_CMD]
  omega

theorem State.ndlGated_pf0 (hn : n < 4) (hs : s.hasSlice n = true) (k : State → State) : s.ndlGated (.pf0 p) n k = k s := by
  simp [State.ndlGated, State.gated, hs, hn, hn.ne]

theorem State.ndlCmdWrite_go (s : State) (n : Nat) (hop : op < 16) : s.ndlCmdWrite n (BitVec.ofNat 32 (0x80000000 + op)) =
    let u := rowAsked s n op
    let st := u.rowStatus n op false (s.maskRows n)
    if st.1 ≠ 0 then u.wr (Reg.NDL_STAT n) (setField (setField (s.rd (Reg.NDL_STAT n)) 22 16 st.2) 15 0 st.1)
    else u.rowIssue n op (s.maskRows n) := by
  have hword : (BitVec.ofNat 32 (0x80000000 + op) : Word) &&& 0xF = BitVec.ofNat 32 op ∧
      fieldOf (BitVec.ofNat 32 (0x80000000 + op)) 31 31 = 1 ∧ fieldOf (BitVec.ofNat 32 (0x80000000 + op)) 3 0 = op ∧
      fieldOf (BitVec.ofNat 32 (0x80000000 + op)) 30 4 = 0 := by
    interval_cases op <;> decide
  obtain ⟨hlow, hgo, hfield, hrsv⟩ := hword
  have hstat : (s.wr (Reg.NDL_CMD n) (BitVec.ofNat 32 op)).rd (Reg.NDL_STAT n) = s.rd (Reg.NDL_STAT n) :=
    State.rd_wr_other _ _ (by simp [Reg.NDL_STAT, Reg.NDL_CMD])
  simp only [State.ndlCmdWrite, hlow, hgo, hfield, hrsv, State.maskRows_wr, hstat]
  rfl

theorem exec_rowRow (hn : n < 4) (hs : s.hasSlice n = true) (hop : 1 ≤ op) (hop' : op ≤ 8) : exec (rowRow op (.pf0 p) n) s =
    .next (s.ndlCmdWrite n (BitVec.ofNat 32 (0x80000000 + op))) := by
  have hgate := State.ndlGated_pf0 (p := p) hn hs fun s => s.ndlCmdWrite n (BitVec.ofNat 32 (0x80000000 + op))
  interval_cases op <;> exact congrArg _ hgate

/-- A command that passes its checks is issued. -/
theorem exec_rowRow_issue (hn : n < 4) (hs : s.hasSlice n = true) (hop : 1 ≤ op) (hop' : op ≤ 8)
    (hst : (rowAsked s n op).rowStatus n op false (s.maskRows n) = (0, 0)) : exec (rowRow op (.pf0 p) n) s =
      .next ((rowAsked s n op).rowIssue n op (s.maskRows n)) := by
  rw [exec_rowRow hn hs hop hop', State.ndlCmdWrite_go s n (by omega)]
  simp [hst]

theorem State.rowStatus_rows_ne_nil {rsv : Bool} {rows : List Nat} (h : s.rowStatus n op rsv rows = (0, 0)) : rows ≠ [] := by
  rintro rfl
  by_cases hop : rsv = true ∨ op = 0 ∨ 9 ≤ op <;> simp [State.rowStatus, hop] at h

/-! ### The rows of a command that is issued (R291) -/

/-- Row `l` serves the command of set `n`. -/
def State.ownRow (s : State) (n l : Nat) : State := s.setRow l { s.row l with owner := some n }

/-- The first of an issue: the command is in progress on its rows. -/
def State.rowHold (s : State) (n : Nat) (c : RowCmd) : State :=
  c.rows.foldl (fun u l => u.ownRow n l) ((s.setRowCmd n (some c)).wr (Reg.NDL_STAT n) 0x80000000)

theorem State.foldl_same {α β : Type} (q : State → β) {f : State → α → State} (hf : ∀ u x, q (f u x) = q u) (xs : List α) (s : State) :
    q (xs.foldl f s) = q s := by
  induction xs generalizing s with
  | nil => rfl
  | cons x xs ih => exact (ih _).trans (hf s x)

/-- The memory, its poison marks and the counters of a state. -/
def State.stores (s : State) : SMap Byte × SMap Bool × SMap Counter := (s.mem, s.tags, s.ctrs)

theorem State.stores_rowDone (s : State) (l st : Nat) : (s.rowDone l st).stores = s.stores := by
  obtain ⟨_, _, _, h⟩ := s.rowDone_eq l st
  rw [h]
  rfl

theorem State.stores_eq {s t : State} (h : t.stores = s.stores) : t.mem = s.mem ∧ t.tags = s.tags ∧ t.ctrs = s.ctrs := by
  simpa [State.stores] using h

variable {c : RowCmd}

theorem State.rowHold_same {β : Type} (q : State → β) (hq : ∀ u l, q (u.ownRow n l) = q u) (s : State) :
    q (s.rowHold n c) = q ((s.setRowCmd n (some c)).wr (Reg.NDL_STAT n) 0x80000000) :=
  State.foldl_same q hq _ _

/-- Registers of command set `n`. -/
def setRegs (n : Nat) : List Nat := [Reg.NDL_CMD n, Reg.NDL_STAT n]

theorem setRegs_lt (hn : n < 5) : ∀ a ∈ setRegs n, a < Reg.NDL_ROW 0 := by
  simp only [setRegs, List.mem_cons, List.not_mem_nil, or_false, forall_eq_or_imp, forall_eq, Reg.NDL_CMD, Reg.NDL_STAT, Reg.NDL_ROW]
  omega

/-- A command is registered: no row of it has changed yet. -/
theorem RowsChange.registered {ls : List Nat} (hn : n < 5) (s : State) (op : Nat) :
    RowsChange (setRegs n) ls (fun _ r => r) id s (((rowAsked s n op).setRowCmd n (some c)).wr (Reg.NDL_STAT n) 0x80000000) where
  row l _ := by rw [State.row_wr, State.row_setRowCmd, rowAsked, State.row_wr]
  status l _ := by
    rw [State.rd_wr_other, State.rd_setRowCmd, rowAsked, State.rd_wr_other]
    · rfl
    all_goals
      simp only [Reg.NDL_ROW, Reg.NDL_STAT, Reg.NDL_CMD]
      omega
  otherRow l _ := by rw [State.row_wr, State.row_setRowCmd, rowAsked, State.row_wr]
  otherRd a _ hE _ := by
    simp only [setRegs, List.mem_cons, List.not_mem_nil, or_false, not_or] at hE
    rw [State.rd_wr_other _ _ hE.2, State.rd_setRowCmd, rowAsked, State.rd_wr_other _ _ hE.1]

theorem rowHold_change (hn : n < 5) (s : State) (op : Nat) (hc : c.rows = s.maskRows n) :
    let u := (rowAsked s n op).rowHold n c
    RowsChange (setRegs n) (s.maskRows n) (fun _ r => { r with owner := some n }) id s u ∧ u.rowCmd n = some c ∧
    u.rd (Reg.NDL_STAT n) = 0x80000000 ∧ u.stores = s.stores := by
  intro u
  have hfold : RowsChange (setRegs n) c.rows (fun _ r => { r with owner := some n }) id _ u :=
    .foldl (setRegs_lt hn) (fun _ _ => RowsChange.setRow.mono (List.nil_subset _)) (hc ▸ s.maskRows_nodup n)
      (hc ▸ fun _ => State.mem_maskRows_lt)
  rw [hc] at hfold
  refine ⟨(RowsChange.registered hn s op).trans hfold, ?_, ?_, ?_⟩
  · rw [State.rowHold_same (fun v => v.rowCmd n) fun _ _ => rfl, State.rowCmd_wr, State.rowCmd_setRowCmd]
  · rw [State.rowHold_same (fun v => v.rd (Reg.NDL_STAT n)) fun _ _ => rfl, State.rd_wr_same]
  · exact State.rowHold_same State.stores (fun _ _ => rfl) _

/-- The command of OP `op` in progress on `rows`. -/
def rowCmdOf (op : Nat) (rows : List Nat) : RowCmd := { op, rows, targets := rows }

theorem State.rowIssue_pause (s : State) (n : Nat) (rows : List Nat) :
    s.rowIssue n 3 rows = rows.foldl (fun u l => u.setRowState l 5) (s.rowHold n (rowCmdOf 3 rows)) := rfl

theorem State.rowIssue_stop (s : State) (n : Nat) (rows : List Nat) :
    s.rowIssue n 7 rows = rows.foldl (fun u l => (u.stopRow l).rowDone l 0) (s.rowHold n (rowCmdOf 7 rows)) := rfl

theorem State.rowIssue_start (s : State) (n : Nat) {rows : List Nat} (h : rows.length ≤ 16) :
    s.rowIssue n 2 rows = rows.foldl (fun u l => (u.startRow l).rowDone l 0) (s.rowHold n (rowCmdOf 2 rows)) :=
  if_neg (Nat.not_lt.mpr h)

theorem State.rowIssue_resume (s : State) (n : Nat) {rows : List Nat} (h : rows.length ≤ 16) :
    s.rowIssue n 4 rows = rows.foldl (fun u l => (u.setRowState l 4).rowDone l 0) (s.rowHold n (rowCmdOf 4 rows)) :=
  if_neg (Nat.not_lt.mpr h)

theorem State.rowIssue_waves (s : State) (n : Nat) {rows : List Nat} (hop : op = 2 ∨ op = 4) (h : 16 < rows.length) :
    s.rowIssue n op rows = s.rowHold n (rowCmdOf op rows) := by
  rcases hop with rfl | rfl <;> exact if_pos h

/-! ### START, RESUME and STOP of a row (R289, R299, R327) -/

/-- What START and STOP keep of a row: its program. -/
def Row.loaded (r : Row) : Row := { prog := r.prog, len := r.len, addr := r.addr, digest := r.digest, owner := r.owner }

/-- Row `l` as START leaves it. -/
def Row.started (l : Nat) (r : Row) : Row := r.loaded.mapNeedles (fun i _ => startNeedle r.prog l i)

theorem Row.started_eq (r : Row) (l : Nat) : ∃ needles, r.started l = { r.loaded with needles } := r.loaded.mapNeedles_eq _

theorem Row.owner_started (l : Nat) (r : Row) : (r.started l).owner = r.owner := by
  obtain ⟨_, h⟩ := r.started_eq l
  rw [h]
  rfl

theorem Row.needle_started (r : Row) (l : Nat) {i : Nat} (hi : i < 16) : (r.started l).needle i = startNeedle r.prog l i :=
  r.loaded.needle_mapNeedles _ hi

theorem Row.needle_setOwner (r : Row) (o : Option Nat) (i : Nat) : ({ r with owner := o } : Row).needle i = r.needle i := rfl

theorem RowsChange.startRow {l : Nat} : RowsChange [] [l] Row.started (fun w => setField w 3 0 4) s (s.startRow l) := .set

theorem RowsChange.stopRow {l : Nat} :
    RowsChange [] [l] (fun _ r => { r.loaded with undef := true }) (fun w => setField w 3 0 3) s (s.stopRow l) := .set

/-- A command that moves every row of the mask at once by `f`, which keeps owners, memory and counters: all at once. -/
theorem exec_rowRow_done {f : State → Nat → State} {g : Nat → Row → Row} {h : Word → Word} (hn : n < 4) (hs : s.hasSlice n = true)
    (hop : 1 ≤ op) (hop' : op ≤ 8) (hst : (rowAsked s n op).rowStatus n op false (s.maskRows n) = (0, 0))
    (hissue : (rowAsked s n op).rowIssue n op (s.maskRows n) =
      (s.maskRows n).foldl (fun u l => (f u l).rowDone l 0) ((rowAsked s n op).rowHold n (rowCmdOf op (s.maskRows n))))
    (hf : ∀ u l, RowsChange [] [l] g h u (f u l)) (hcmds : ∀ u l, (f u l).rowCmds = u.rowCmds)
    (hstores : ∀ u l, (f u l).stores = u.stores) (hg : ∀ l r, (g l r).owner = r.owner) :
    ∃ t, exec (rowRow op (.pf0 p) n) s = .next t ∧
      RowsChange (setRegs n) (s.maskRows n) (fun l r => { g l { r with owner := some n } with owner := none }) h s t ∧
      t.rowCmd n = none ∧ t.rd (Reg.NDL_STAT n) = 0 ∧ t.stores = s.stores := by
  obtain ⟨hhold, hcmd, -, hsame⟩ := rowHold_change (c := rowCmdOf op (s.maskRows n)) (hn.trans (by decide)) s op rfl
  obtain ⟨hdone, hnone, hstat⟩ := RowsChange.foldl_done (hn.trans (by decide)) hf hcmds hg (State.rowStatus_rows_ne_nil hst)
    (s.maskRows_nodup n) (fun _ => State.mem_maskRows_lt) hcmd rfl rfl rfl fun k hk => by rw [hhold.row k hk]
  refine ⟨_, exec_rowRow_issue hn hs hop hop' hst, ?_⟩
  rw [hissue]
  refine ⟨hhold.trans (hdone.mono ?_), hnone, hstat, ?_⟩
  · exact List.cons_subset.mpr ⟨List.mem_cons_of_mem _ List.mem_cons_self, List.nil_subset _⟩
  · refine (State.foldl_same State.stores (fun u l => ?_) _ _).trans hsame
    rw [State.stores_rowDone, hstores]

/-! ### Waves (R833) -/

/-- What the waves have in hand: the row, the command set and its OP. -/
def State.heldRows (s : State) : List (Nat × Nat × Nat) :=
  (List.range 128).filterMap (fun l =>
    match (s.row l).owner with
    | some n => (match s.rowCmd n with
      | some c => if [2, 4, 6].contains c.op && c.rows.contains l then some (l, n, c.op) else none
      | none => none)
    | none => none)

theorem State.heldRows_eq {rows : List Nat} (hop : op = 2 ∨ op = 4) (hcmd : s.rowCmd n = some (rowCmdOf op rows))
    (hrows : rows = (List.range 128).filter (fun l => (s.row l).owner.isSome)) (howner : ∀ l ∈ rows, (s.row l).owner = some n) :
    s.heldRows = rows.map (fun l => (l, n, op)) := by
  have hheld : s.heldRows = (List.range 128).filterMap (fun l => if (s.row l).owner.isSome then some (l, n, op) else none) := by
    refine List.filterMap_congr fun l hl => ?_
    cases hown : (s.row l).owner with
    | none => rfl
    | some m =>
      have hmem : l ∈ rows := by
        rw [hrows]
        exact List.mem_filter.mpr ⟨hl, by rw [hown]; rfl⟩
      obtain rfl : m = n := Option.some.inj (hown.symm.trans (howner l hmem))
      rcases hop with rfl | rfl <;> simp [hcmd, rowCmdOf, hmem]
  rw [hheld, hrows]
  induction List.range 128 with
  | nil => rfl
  | cons l ls ih => by_cases hl : (s.row l).owner.isSome <;> simp [hl, ih]

theorem State.rowWave_eq (s : State) (t : Nat) : s.rowWave t =
    if s.lastWave.any (fun w => t < w + 1000 * s.rf Reg.CAST_CTL 23 16) then s
    else (s.heldRows.take 16).foldl (fun u e => u.releaseRow e.2.1 e.2.2 e.1)
      (if s.heldRows.take 16 = [] then s else { s.reach t with lastWave := some t }) := rfl

theorem State.rowWave_early {t w : Nat} (hlast : s.lastWave = some w) (hearly : t < w + 1000 * s.rf Reg.CAST_CTL 23 16) :
    s.rowWave t = s := by
  simp [State.rowWave_eq, hlast, hearly]

theorem State.rowWave_due {t : Nat} {rows : List Nat} (hheld : s.heldRows = rows.map (fun l => (l, n, op))) (hrows : rows ≠ [])
    (hdue : s.lastWave.all (fun w => w + 1000 * s.rf Reg.CAST_CTL 23 16 ≤ t) = true) :
    s.rowWave t = (rows.take 16).foldl (fun u l => u.releaseRow n op l) { s.reach t with lastWave := some t } := by
  have hlate : s.lastWave.any (fun w => t < w + 1000 * s.rf Reg.CAST_CTL 23 16) = false := by
    cases hlast : s.lastWave with
    | none => rfl
    | some w => simpa [hlast] using hdue
  have hwave : (rows.map (fun l => (l, n, op))).take 16 ≠ [] := by simpa using hrows
  rw [State.rowWave_eq, hlate, hheld, if_neg Bool.false_ne_true, if_neg hwave, ← List.map_take, List.foldl_map]

end

end Sys2Proof.Machine
end

section
/-! PROOFS. START, PAUSE, RESUME and STOP of the rows of a mask, and the obligation (O20). -/

namespace Sys2Proof.Machine

/-- A command that moves every row of the mask by `f`, which keeps memory and counters, and stays in progress. -/
theorem exec_rowRow_hold {s : State} {p n op : Nat} {c : RowCmd} {f : State → Nat → State} {g : Nat → Row → Row} {h : Word → Word}
    (hn : n < 4) (hs : s.hasSlice n = true) (hop : 1 ≤ op) (hop' : op ≤ 8)
    (hst : (rowAsked s n op).rowStatus n op false (s.maskRows n) = (0, 0)) (hc : c.rows = s.maskRows n)
    (hissue : (rowAsked s n op).rowIssue n op (s.maskRows n) = (s.maskRows n).foldl f ((rowAsked s n op).rowHold n c))
    (hf : ∀ u l, RowsChange [] [l] g h u (f u l)) (hcmds : ∀ u l, (f u l).rowCmd n = u.rowCmd n)
    (hstores : ∀ u l, (f u l).stores = u.stores) :
    ∃ t, exec (rowRow op (.pf0 p) n) s = .next t ∧
      RowsChange (setRegs n) (s.maskRows n) (fun l r => g l { r with owner := some n }) h s t ∧
      t.rd (Reg.NDL_STAT n) = 0x80000000 ∧ t.rowCmd n = some c ∧ t.stores = s.stores := by
  obtain ⟨hhold, hcmd, hstat, hsame⟩ := rowHold_change (hn.trans (by decide)) s op hc
  refine ⟨_, exec_rowRow_issue hn hs hop hop' hst, ?_⟩
  rw [hissue]
  generalize (rowAsked s n op).rowHold n c = u at *
  have hmove : RowsChange [] (s.maskRows n) g h u ((s.maskRows n).foldl f u) :=
    .foldl (by simp) hf (s.maskRows_nodup n) fun _ => State.mem_maskRows_lt
  refine ⟨hhold.trans (hmove.mono (List.nil_subset _)), ?_, ?_, ?_⟩
  · rw [hmove.otherRd _ ?_ List.not_mem_nil ?_, hstat]
    · simp only [Reg.NDL_STAT]
      omega
    · intro l _
      simp only [Reg.NDL_STAT, Reg.NDL_ROW]
      omega
  · exact (State.foldl_same (fun v => v.rowCmd n) hcmds _ _).trans hcmd
  · exact (State.foldl_same State.stores hstores _ _).trans hsame

theorem rowPause_moves (s : State) (p n : Nat) (hn : n < 4) (hs : s.hasSlice n = true)
    (hst : (rowAsked s n 3).rowStatus n 3 false (s.maskRows n) = (0, 0)) :
    ∃ t : State, exec (rowRow 3 (.pf0 p) n) s = .next t ∧
      RowsChange (setRegs n) (s.maskRows n) (fun _ r => { r with owner := some n }) (fun w => setField w 3 0 5) s t ∧
      t.rd (Reg.NDL_STAT n) = 0x80000000 ∧ t.rowCmd n = some (rowCmdOf 3 (s.maskRows n)) ∧ t.stores = s.stores :=
  exec_rowRow_hold (g := fun _ r => r) hn hs (by decide) (by decide) hst rfl (State.rowIssue_pause _ n _) (fun _ _ => .setRowState)
    (fun _ _ => rfl) fun _ _ => rfl

theorem rowStart_moves (s : State) (p n : Nat) (hn : n < 4) (hs : s.hasSlice n = true)
    (hst : (rowAsked s n 2).rowStatus n 2 false (s.maskRows n) = (0, 0)) (hlen : (s.maskRows n).length ≤ 16) :
    ∃ t : State, exec (rowRow 2 (.pf0 p) n) s = .next t ∧
      RowsChange (setRegs n) (s.maskRows n) (fun l r => { Row.started l { r with owner := some n } with owner := none })
        (fun w => setField w 3 0 4) s t ∧
      t.rowCmd n = none ∧ t.rd (Reg.NDL_STAT n) = 0 ∧ t.stores = s.stores :=
  exec_rowRow_done hn hs (by decide) (by decide) hst (State.rowIssue_start _ n hlen) (fun _ _ => .startRow) (fun _ _ => rfl)
    (fun _ _ => rfl) fun l r => r.owner_started l

theorem rowResume_moves (s : State) (p n : Nat) (hn : n < 4) (hs : s.hasSlice n = true)
    (hst : (rowAsked s n 4).rowStatus n 4 false (s.maskRows n) = (0, 0)) (hlen : (s.maskRows n).length ≤ 16) :
    ∃ t : State, exec (rowRow 4 (.pf0 p) n) s = .next t ∧
      RowsChange (setRegs n) (s.maskRows n) (fun _ r => { r with owner := none }) (fun w => setField w 3 0 4) s t ∧
      t.rowCmd n = none ∧ t.rd (Reg.NDL_STAT n) = 0 ∧ t.stores = s.stores :=
  exec_rowRow_done hn hs (by decide) (by decide) hst (State.rowIssue_resume _ n hlen) (g := fun _ r => r) (fun _ _ => .setRowState)
    (fun _ _ => rfl) (fun _ _ => rfl) fun _ _ => rfl

theorem rowStop_moves (s : State) (p n : Nat) (hn : n < 4) (hs : s.hasSlice n = true)
    (hst : (rowAsked s n 7).rowStatus n 7 false (s.maskRows n) = (0, 0)) :
    ∃ t : State, exec (rowRow 7 (.pf0 p) n) s = .next t ∧
      RowsChange (setRegs n) (s.maskRows n) (fun _ r => { r.loaded with owner := none, undef := true }) (fun w => setField w 3 0 3) s t ∧
      t.rowCmd n = none ∧ t.rd (Reg.NDL_STAT n) = 0 ∧ t.stores = s.stores :=
  exec_rowRow_done hn hs (by decide) (by decide) hst (State.rowIssue_stop _ n _) (fun _ _ => .stopRow) (fun _ _ => rfl)
    (fun _ _ => rfl) fun _ _ => rfl

/-- Settles O20: a command that passes its checks is followed through its issue, row after row of the mask (`RowsChange`); the waves take
from `heldRows`, which a single command fills with its rows. -/
theorem rowsMove : Obligations.RowsMove := by
  unfold Obligations.RowsMove
  refine ⟨fun s p n hn hs hst => ?_, fun s p n hn hs hst hlen => ?_, fun s p n hn hs hst hlen => ?_, fun s p n hn hs hst => ?_,
    fun s p n op hn hs hop hst hlen => ?_, fun s t n op rows hn hop hcmd hrows howner hdue hne => ?_,
    fun s t w hlast hearly => ?_, fun s p n op hn hs hop hop' => ?_⟩
  case refine_1 =>
    obtain ⟨t, hexec, hmove, hstat, hcmd, hsame⟩ := rowPause_moves s p n hn hs hst
    exact ⟨t, hexec, fun l hl => ⟨hmove.rowState hl, hmove.row l hl⟩, hmove.otherRows (setRegs_lt (hn.trans (by decide))), hstat, hcmd,
      State.stores_eq hsame⟩
  case refine_2 =>
    obtain ⟨t, hexec, hmove, hcmd, hstat, hsame⟩ := rowStart_moves s p n hn hs hst hlen
    refine ⟨t, hexec, fun l hl => ?_, hmove.otherRows (setRegs_lt (hn.trans (by decide))), hstat, hcmd, State.stores_eq hsame⟩
    have hrow := hmove.row l hl
    obtain ⟨needles, hstarted⟩ := Row.started_eq { s.row l with owner := some n } l
    refine ⟨hmove.rowState hl, by rw [hrow, hstarted]; rfl, by rw [hrow], by rw [hrow, hstarted]; rfl, fun i hi => ?_⟩
    rw [State.needle_eq, hrow, Row.needle_setOwner, Row.needle_started _ l (List.mem_range.mp hi)]
  case refine_3 =>
    obtain ⟨t, hexec, hmove, hcmd, hstat, hsame⟩ := rowResume_moves s p n hn hs hst hlen
    exact ⟨t, hexec, fun l hl => ⟨hmove.rowState hl, hmove.row l hl⟩, hmove.otherRows (setRegs_lt (hn.trans (by decide))), hstat, hcmd,
      State.stores_eq hsame⟩
  case refine_4 =>
    obtain ⟨t, hexec, hmove, hcmd, hstat, hsame⟩ := rowStop_moves s p n hn hs hst
    exact ⟨t, hexec, fun l hl => ⟨hmove.rowState hl, hmove.row l hl⟩, hmove.otherRows (setRegs_lt (hn.trans (by decide))), hstat, hcmd,
      State.stores_eq hsame⟩
  case refine_5 =>
    obtain ⟨hhold, hcmd, hstat, -⟩ := rowHold_change (c := rowCmdOf op (s.maskRows n)) (hn.trans (by decide)) s op rfl
    refine ⟨_, exec_rowRow_issue hn hs (by omega) (by omega) hst, ?_⟩
    rw [State.rowIssue_waves _ n hop hlen]
    exact ⟨fun l hl => ⟨State.rowState_of_rd (hhold.status l hl), hhold.row l hl⟩,
      hhold.otherRows (setRegs_lt (hn.trans (by decide))), hstat, hcmd⟩
  case refine_6 => exact congrArg Host.Outcome.next (State.rowWave_due (State.heldRows_eq hop hcmd hrows howner) hne hdue)
  case refine_7 => exact congrArg Host.Outcome.next (State.rowWave_early hlast hearly)
  case refine_8 =>
    intro u st hst
    rw [exec_rowRow hn hs hop hop', State.ndlCmdWrite_go s n (by omega)]
    exact congrArg Host.Outcome.next (if_pos hst)

end Sys2Proof.Machine
end

section
/-! PROOFS. Loading (O21): LOAD, the chunks that reach a row, repairs, and the digest check. -/

namespace Sys2Proof.Machine

/-! ### A row that is written twice -/

theorem eraseAt_insertAt {α : Type} (m : SMap α) (a : Nat) (v : α) : eraseAt (insertAt m a v) a = eraseAt m a := by
  induction m with
  | nil => simp [insertAt, eraseAt]
  | cons e m ih =>
    obtain ⟨k, w⟩ := e
    rcases Nat.lt_trichotomy a k with h | rfl | h
    · simp [insertAt, eraseAt, h]
    · simp [insertAt, eraseAt]
    · simp [insertAt, eraseAt, h.not_gt, h.ne, ih]

theorem insertAt_insertAt {α : Type} (m : SMap α) (a : Nat) (v w : α) : insertAt (insertAt m a v) a w = insertAt m a w := by
  induction m with
  | nil => simp [insertAt]
  | cons e m ih =>
    obtain ⟨k, x⟩ := e
    rcases Nat.lt_trichotomy a k with h | rfl | h
    · simp [insertAt, h]
    · simp [insertAt]
    · simp [insertAt, h.not_gt, h.ne, ih]

/-- The last of two writes counts, unless the first unlisted the key (`eraseAt` takes every entry of it, `insertAt` the first). -/
theorem store_store {α : Type} [DecidableEq α] (d : α) (m : SMap α) (a : Nat) {v : α} (hv : v ≠ d) (w : α) :
    store d (store d m a v) a w = store d m a w := by
  simp only [store, if_neg hv, eraseAt_insertAt, insertAt_insertAt]

theorem Row.ne_empty_of_owner {r : Row} {n : Nat} (h : r.owner = some n) : r ≠ {} := by
  rintro rfl
  simp at h

section
variable {s : State} {l n : Nat}

theorem State.setRow_setRow (s : State) (l : Nat) {r : Row} (hr : r ≠ {}) (r' : Row) : (s.setRow l r).setRow l r' = s.setRow l r' :=
  congrArg (fun rows => { s with rows }) (store_store {} s.rows l hr r')

/-! ### Traps read of a row its digest alone (R308) -/

/-- A trap of row `l` with the record `r` is reported to its slice. -/
def State.reportTrap (s : State) (l st : Nat) (r : List Byte) : State := s.report (s.rowSlice l) 1 st s.now (r.take 15)

/-- The trap record `r` of row `l` is written at `a` as `bs`, counted and reported. -/
def State.recordTrap (s : State) (l a st : Nat) (bs r : List Byte) : State :=
  ((s.writeB a bs).wr Reg.NDL_TRAP_COUNT (BitVec.ofNat 32 ((s.rd Reg.NDL_TRAP_COUNT).toNat + 1))).reportTrap l st r

theorem State.writeTrap_eq (s : State) (l i : Nat) (rowFault : Bool) (cause pc addr : Nat) : s.writeTrap l i rowFault cause pc addr =
    if aheadMod 32 (s.rd Reg.NDL_TRAP_TAIL).toNat (s.rd Reg.NDL_TRAP_COUNT).toNat = 256 then
      (s.count Ctr.NDL_TRAP_LOST).event Reg.NDL_EVT 4
    else
      let c := (s.rd Reg.NDL_TRAP_COUNT).toNat
      let r := s.trapRecord l i rowFault cause pc addr
      s.recordTrap l (s.addrOf Reg.NDL_TRAP_BASE_LO Reg.NDL_TRAP_BASE_HI + 32 * (c % 256))
        (if cause = 0x80 ∨ cause = 0x81 then 0x0561 else if cause = 0x82 then 0x0560 else 0)
        (r ++ leBytes 1 (if c / 256 % 2 = 0 then 1 else 0)) r := rfl

theorem State.wr_withRows (s : State) (R : SMap Row) (a : Nat) (v : Word) : (s.withRows R).wr a v = (s.wr a v).withRows R := rfl

theorem State.writeB_withRows (s : State) (R : SMap Row) (a : Nat) (bs : List Byte) :
    (s.withRows R).writeB a bs = (s.writeB a bs).withRows R :=
  (Beside.refl R s).writeB.twin

theorem State.rows_writeB (s : State) (a : Nat) (bs : List Byte) : (s.writeB a bs).rows = s.rows := (Beside.refl [] s).writeB.rows

theorem State.reportTrap_withRows (s : State) (R : SMap Row) (l st : Nat) (r : List Byte) :
    (s.withRows R).reportTrap l st r = (s.reportTrap l st r).withRows R :=
  (Beside.refl R s).report.twin

theorem State.rows_reportTrap (s : State) (l st : Nat) (r : List Byte) : (s.reportTrap l st r).rows = s.rows :=
  (Beside.refl [] s).report.rows

theorem State.recordTrap_withRows (s : State) (R : SMap Row) (l a st : Nat) (bs r : List Byte) :
    (s.withRows R).recordTrap l a st bs r = (s.recordTrap l a st bs r).withRows R := by
  have hcount : (s.withRows R).rd Reg.NDL_TRAP_COUNT = s.rd Reg.NDL_TRAP_COUNT := rfl
  rw [State.recordTrap, State.writeB_withRows, hcount, State.wr_withRows, State.reportTrap_withRows, State.recordTrap]

theorem State.rows_recordTrap (s : State) (l a st : Nat) (bs r : List Byte) : (s.recordTrap l a st bs r).rows = s.rows := by
  rw [State.recordTrap, State.rows_reportTrap, State.wr_rows, State.rows_writeB]

theorem State.writeTrap_withRows (s : State) (R : SMap Row) (l i : Nat) (rowFault : Bool) (cause pc addr : Nat)
    (hdigest : ((s.withRows R).row l).digest = (s.row l).digest) :
    (s.withRows R).writeTrap l i rowFault cause pc addr = (s.writeTrap l i rowFault cause pc addr).withRows R := by
  have hrecord : (s.withRows R).trapRecord l i rowFault cause pc addr = s.trapRecord l i rowFault cause pc addr := by
    rw [State.trapRecord, hdigest]
    rfl
  have hrd : ∀ a, (s.withRows R).rd a = s.rd a := fun _ => rfl
  rw [State.writeTrap_eq, State.writeTrap_eq, hrd, hrd, hrecord]
  split
  · rfl
  · exact s.recordTrap_withRows R l _ _ _ _

theorem State.rows_writeTrap (s : State) (l i : Nat) (rowFault : Bool) (cause pc addr : Nat) :
    (s.writeTrap l i rowFault cause pc addr).rows = s.rows := by
  rw [State.writeTrap_eq]
  split
  · rfl
  · exact s.rows_recordTrap l _ _ _ _

theorem State.setRow_eq_withRows (s : State) (l : Nat) (r : Row) : s.setRow l r = s.withRows (store {} s.rows l r) := rfl

theorem State.writeTrap_setRow (s : State) (l i : Nat) (rowFault : Bool) (cause pc addr : Nat) :
    (s.setRow l (s.row l)).writeTrap l i rowFault cause pc addr =
      (s.writeTrap l i rowFault cause pc addr).setRow l (s.row l) := by
  rw [State.setRow_eq_withRows, State.setRow_eq_withRows, State.rows_writeTrap]
  refine s.writeTrap_withRows _ l i rowFault cause pc addr (congrArg Row.digest ?_)
  rw [← State.setRow_eq_withRows, State.row_setRow_same]

theorem State.rowDone_setRow {u : State} (howner : (u.row l).owner = some n) (st : Nat) :
    (u.setRow l (u.row l)).rowDone l st = u.rowDone l st := by
  unfold State.rowDone
  simp only [State.row_setRow_same, howner, State.setRow_setRow u l (Row.ne_empty_of_owner howner)]

theorem State.rowFault_eq (s : State) (l cause : Nat) : s.rowFault l cause =
    ((((s.setRowState l 0xA).writeTrap l 0 true cause 0 0).count Ctr.NDL_FAULT).event Reg.NDL_EVT 1).rowDone l
      (if cause = 0x82 then 0x0560 else 0x0561) := rfl

theorem State.event_count_setRow (v : State) (l a b k : Nat) (r : Row) :
    ((v.setRow l r).count a).event b k = ((v.count a).event b k).setRow l r := rfl

theorem State.setRowState_setRow (s : State) (l x : Nat) (r : Row) : (s.setRow l r).setRowState l x = (s.setRowState l x).setRow l r := rfl

theorem State.row_writeTrap (s : State) (l i : Nat) (rowFault : Bool) (cause pc addr k : Nat) :
    (s.writeTrap l i rowFault cause pc addr).row k = s.row k :=
  congrArg (fun rows => fetch ({} : Row) rows k) (s.rows_writeTrap l i rowFault cause pc addr)

theorem State.rowFault_setRow (howner : (s.row l).owner = some n) (cause : Nat) :
    (s.setRow l (s.row l)).rowFault l cause = s.rowFault l cause := by
  have htrap := (s.setRowState l 0xA).writeTrap_setRow l 0 true cause 0 0
  have hrow := (s.setRowState l 0xA).row_writeTrap l 0 true cause 0 0 l
  rw [State.row_setRowState] at htrap hrow
  rw [State.rowFault_eq, State.rowFault_eq, State.setRowState_setRow, htrap, State.event_count_setRow]
  have hlast := State.row_event (((s.setRowState l 0xA).writeTrap l 0 true cause 0 0).count Ctr.NDL_FAULT) l Reg.NDL_EVT 1
  rw [State.row_count, hrow] at hlast
  generalize (((s.setRowState l 0xA).writeTrap l 0 true cause 0 0).count Ctr.NDL_FAULT).event Reg.NDL_EVT 1 = u at hlast
  rw [← hlast] at howner ⊢
  exact State.rowDone_setRow howner _

end

end Sys2Proof.Machine
end

section
/-! PROOFS. LOAD, the passes of its loader and the digest check (O21). -/

namespace Sys2Proof.Machine

section
variable {s : State} {l n : Nat}

/-! ### LOAD (R280) -/

theorem State.foldl_frozen {α β : Type} (q : State → β) {f : β → State → α → State} (hq : ∀ b u x, q (f b u x) = q u) (xs : List α)
    (s : State) : xs.foldl (fun u x => f (q u) u x) s = xs.foldl (f (q s)) s := by
  induction xs generalizing s with
  | nil => rfl
  | cons x xs ih => rw [List.foldl_cons, List.foldl_cons, ih, hq]

theorem State.addrOf_of_rd {s t : State} {lo hi : Nat} (hlo : t.rd lo = s.rd lo) (hhi : t.rd hi = s.rd hi) :
    t.addrOf lo hi = s.addrOf lo hi := by
  rw [State.addrOf, State.addrOf, State.rf, State.rf, hlo, hhi]

/-- The command of a LOAD in progress on `rows` (R291). -/
def State.loadCmd (s : State) (n : Nat) (rows : List Nat) : RowCmd :=
  { op := 1, rows, targets := rows, image := imgOf (s.bytes (s.ndlAddr n) (s.ndlLen n)) 0, len := s.ndlLen n,
    digest := s.bytes (s.ndlDig n) 32 }

/-- Row `l` starts to receive the image of `len` bytes from `addr` for set `n`. -/
def State.loadRow (n len addr : Nat) (s : State) (l : Nat) : State :=
  (s.setRow l { owner := some n, len := len, addr := addr }).setRowState l 2

theorem RowsChange.loadRow {len addr : Nat} : RowsChange [] [l] (fun _ _ => { owner := some n, len := len, addr := addr })
    (fun w => setField w 3 0 2) s (s.loadRow n len addr l) := .set

theorem rd_rowAsked (s : State) (op : Nat) {a : Nat} (ha : a ≠ Reg.NDL_CMD n) : (rowAsked s n op).rd a = s.rd a :=
  State.rd_wr_other _ _ ha

theorem ndlAddr_rowAsked (s : State) (n op : Nat) : (rowAsked s n op).ndlAddr n = s.ndlAddr n :=
  State.addrOf_of_rd (rd_rowAsked s op (by simp [Reg.NDL_ADDR_LO, Reg.NDL_CMD])) (rd_rowAsked s op (by simp [Reg.NDL_ADDR_HI, Reg.NDL_CMD]))

theorem ndlDig_rowAsked (s : State) (n op : Nat) : (rowAsked s n op).ndlDig n = s.ndlDig n :=
  State.addrOf_of_rd (rd_rowAsked s op (by simp [Reg.NDL_DIG_LO, Reg.NDL_CMD])) (rd_rowAsked s op (by simp [Reg.NDL_DIG_HI, Reg.NDL_CMD]))

theorem ndlLen_rowAsked (s : State) (n op : Nat) : (rowAsked s n op).ndlLen n = s.ndlLen n := by
  rw [State.ndlLen, State.rf, rd_rowAsked s op (by simp [Reg.NDL_LEN, Reg.NDL_CMD])]
  rfl

theorem bytes_rowAsked (s : State) (n op a k : Nat) : (rowAsked s n op).bytes a k = s.bytes a k := rfl

theorem loadCmd_rowAsked (s : State) (n op : Nat) (rows : List Nat) : (rowAsked s n op).loadCmd n rows = s.loadCmd n rows := by
  simp only [State.loadCmd, ndlAddr_rowAsked, ndlDig_rowAsked, ndlLen_rowAsked, bytes_rowAsked]

theorem ndlAddr_loadRow (u : State) (len addr : Nat) (hn : n < 5) : (u.loadRow n len addr l).ndlAddr n = u.ndlAddr n := by
  have hrow : ∀ a < Reg.NDL_ROW 0, (u.loadRow n len addr l).rd a = u.rd a := fun a ha =>
    RowsChange.loadRow.otherRd a (by simp only [Reg.NDL_ROW] at ha; omega) List.not_mem_nil fun k _ => by
      simp only [Reg.NDL_ROW] at ha ⊢
      omega
  refine State.addrOf_of_rd (hrow _ ?_) (hrow _ ?_)
  · simp only [Reg.NDL_ADDR_LO, Reg.NDL_ROW]
    omega
  · simp only [Reg.NDL_ADDR_HI, Reg.NDL_ROW]
    omega

theorem ndlAddr_rowHold (u : State) (c : RowCmd) : (u.rowHold n c).ndlAddr n = u.ndlAddr n := by
  rw [State.rowHold_same (fun v => v.ndlAddr n) fun _ _ => rfl]
  refine State.addrOf_of_rd (State.rd_wr_other _ _ ?_) (State.rd_wr_other _ _ ?_)
  · simp [Reg.NDL_ADDR_LO, Reg.NDL_STAT]
  · simp [Reg.NDL_ADDR_HI, Reg.NDL_STAT]

theorem State.rowIssue_load_raw (u : State) (n : Nat) (rows : List Nat) : u.rowIssue n 1 rows =
    rows.foldl (fun v l => v.loadRow n (u.ndlLen n) (v.ndlAddr n) l) (u.rowHold n (u.loadCmd n rows)) := rfl

theorem State.rowIssue_load (u : State) (rows : List Nat) (hn : n < 5) : u.rowIssue n 1 rows =
    rows.foldl (State.loadRow n (u.ndlLen n) (u.ndlAddr n)) (u.rowHold n (u.loadCmd n rows)) := by
  rw [State.rowIssue_load_raw]
  refine (State.foldl_frozen (fun v => v.ndlAddr n) (f := fun a v l => v.loadRow n (u.ndlLen n) a l)
    (fun a v l => ndlAddr_loadRow v _ a hn) rows _).trans ?_
  rw [ndlAddr_rowHold]

theorem rowLoad_moves (s : State) (p n : Nat) (hn : n < 4) (hs : s.hasSlice n = true)
    (hst : (rowAsked s n 1).rowStatus n 1 false (s.maskRows n) = (0, 0)) :
    ∃ t : State, exec (rowRow 1 (.pf0 p) n) s = .next t ∧
      RowsChange (setRegs n) (s.maskRows n) (fun _ _ => { owner := some n, len := s.ndlLen n, addr := s.ndlAddr n })
        (fun w => setField w 3 0 2) s t ∧
      t.rd (Reg.NDL_STAT n) = 0x80000000 ∧ t.rowCmd n = some (s.loadCmd n (s.maskRows n)) ∧ t.stores = s.stores := by
  have hissue := State.rowIssue_load (rowAsked s n 1) (s.maskRows n) (n := n) (by omega)
  rw [loadCmd_rowAsked, ndlLen_rowAsked, ndlAddr_rowAsked] at hissue
  exact exec_rowRow_hold (c := s.loadCmd n (s.maskRows n)) hn hs (by decide) (by decide) hst rfl hissue (fun _ _ => .loadRow)
    (fun _ _ => rfl) fun _ _ => rfl

/-! ### Chunks (R281, R282) -/

/-- The chunks that reach `r` when those of `bad` are discarded. -/
def Row.chunksGot (r : Row) (bad : List Nat) : List Nat :=
  (List.range r.chunkCount).filter (fun k => !r.chunks.contains k && !bad.contains k)

/-- `r` with the chunks `got` of `image`. -/
def Row.fill (r : Row) (image : SMap Byte) (got : List Nat) : Row :=
  { r with
    prog := got.foldl (fun m k =>
      ((List.range (min 1024 (r.len - 1024 * k))).foldl (fun m i => store 0 m (1024 * k + i) (fetch 0 image (1024 * k + i))) m)) r.prog
    chunks := r.chunks ++ got }

theorem State.chunksIn_eq (s : State) (l : Nat) (c : RowCmd) (bad : List Nat) : s.chunksIn l c bad =
    let r := (s.row l).fill c.image ((s.row l).chunksGot bad)
    if r.complete then s.setRow l r else (s.setRow l r).repairRound l := rfl

/-- A repair round of a row just written: the row counts it, or is in FAULT after four. -/
theorem State.repairRound_setRow (s : State) (l : Nat) {r : Row} (hr : r ≠ {}) : (s.setRow l r).repairRound l =
    if 4 ≤ r.rounds then (s.setRow l r).rowFault l 0x82
    else ((s.setRow l { r with rounds := r.rounds + 1 }).count Ctr.NDL_REPAIR).event Reg.NDL_EVT 3 := by
  simp only [State.repairRound, State.row_setRow_same, State.setRow_setRow s l hr]

/-- The bytes that chunk `k` of a row of `len` bytes holds. -/
def chunkKeys (len k : Nat) : List Nat := (List.range (min 1024 (len - 1024 * k))).map (1024 * k + ·)

theorem mem_chunkKeys {len k o : Nat} : o ∈ chunkKeys len k ↔ o < len ∧ o / 1024 = k := by
  simp only [chunkKeys, List.mem_map, List.mem_range]
  constructor
  · rintro ⟨i, hi, rfl⟩
    omega
  · intro ⟨ho, hk⟩
    exact ⟨o - 1024 * k, by omega, by omega⟩

theorem Row.fetch_fill (r : Row) (image : SMap Byte) (got : List Nat) (o : Nat) : fetch 0 (r.fill image got).prog o =
    if o < r.len ∧ o / 1024 ∈ got then fetch 0 image o else fetch 0 r.prog o := by
  have hprog : (r.fill image got).prog = (got.flatMap (chunkKeys r.len)).foldl (fun m a => store 0 m a (fetch 0 image a)) r.prog := by
    rw [List.foldl_flatMap]
    refine congrArg (fun f => got.foldl f r.prog) (funext fun m => funext fun k => ?_)
    exact (List.foldl_map (f := fun i => 1024 * k + i) (g := fun m a => store 0 m a (fetch 0 image a))).symm
  have hkeys : o ∈ got.flatMap (chunkKeys r.len) ↔ o < r.len ∧ o / 1024 ∈ got := by
    simp only [List.mem_flatMap, mem_chunkKeys]
    exact ⟨fun ⟨k, hk, ho, heq⟩ => ⟨ho, heq ▸ hk⟩, fun ⟨ho, hk⟩ => ⟨_, hk, ho, rfl⟩⟩
  rw [hprog, fetch_foldl_store_key, if_congr hkeys rfl rfl]

theorem Row.lt_chunkCount {r : Row} {j : Nat} : j < r.chunkCount ↔ 1024 * j < r.len := by
  rw [Row.chunkCount]
  omega

/-- A first pass completes the bitmap unless a chunk of the image was bad. -/
theorem Row.complete_fill_first {r : Row} (hchunks : r.chunks = []) (image : SMap Byte) (bad : List Nat) :
    (r.fill image (r.chunksGot bad)).complete = !bad.any (fun j => 1024 * j < r.len) := by
  have hcount : (r.fill image (r.chunksGot bad)).chunkCount = r.chunkCount := rfl
  have hchunk : ∀ j < r.chunkCount, (r.fill image (r.chunksGot bad)).chunks.contains j = !bad.contains j := fun j hj => by
    simp [Row.fill, Row.chunksGot, hchunks, hj]
  rw [Row.complete, hcount, Bool.eq_iff_iff]
  simp only [List.all_eq_true, List.mem_range, Bool.not_eq_true', List.any_eq_false, decide_eq_true_eq]
  constructor
  · intro h j hj hlt
    have hin := h j (Row.lt_chunkCount.mpr hlt)
    rw [hchunk j (Row.lt_chunkCount.mpr hlt)] at hin
    simp [hj] at hin
  · intro h j hlt
    rw [hchunk j hlt]
    simpa using fun hj => h j hj (Row.lt_chunkCount.mp hlt)

theorem Row.chunksGot_first {r : Row} (hchunks : r.chunks = []) (bad : List Nat) : r.chunksGot bad =
    (List.range (r.len / 1024 + bit (r.len % 1024 ≠ 0))).filter (fun j => !bad.contains j) := by
  have hcount : r.chunkCount = r.len / 1024 + bit (r.len % 1024 ≠ 0) := by
    by_cases h : r.len % 1024 = 0 <;> simp only [Row.chunkCount, bit, h, ne_eq, not_true, not_false_iff, decide_true, decide_false,
      if_true, Bool.false_eq_true, if_false] <;> omega
  simp [Row.chunksGot, hchunks, hcount]

/-- A repair that brings nothing leaves the row as it was. -/
theorem Row.fill_nothing {r : Row} (image : SMap Byte) {bad : List Nat}
    (hbad : ∀ j ∈ List.range r.chunkCount, r.chunks.contains j ∨ bad.contains j) : r.fill image (r.chunksGot bad) = r := by
  have hgot : r.chunksGot bad = [] := by
    refine List.filter_eq_nil_iff.mpr fun j hj => ?_
    have := hbad j hj
    simp only [List.contains_iff_mem] at this
    simpa using this.resolve_left
  rw [hgot, Row.fill, List.append_nil]
  rfl

theorem State.loadOf_eq {c : RowCmd} (hstate : s.rowState l = 2) (howner : (s.row l).owner = some n) (hcmd : s.rowCmd n = some c) :
    s.loadOf l = some c := by
  rw [State.loadOf, if_pos hstate, howner]
  exact hcmd

theorem exec_loadPassEnd {c : RowCmd} {bad : List Nat} (hcmd : s.rowCmd n = some c) (hop : c.op = 1) (hrows : c.rows = [l])
    (hrounds : (s.row l).rounds = 0) (hchunks : (s.row l).chunks = []) :
    exec (.loadPassEnd n [(l, bad)]) s = .next (s.chunksIn l c bad) := by
  have hpass : s.loadPassEnd n [(l, bad)] = s.chunksIn l c bad := by
    simp [State.loadPassEnd, hcmd, hop, hrows, hrounds, hchunks]
  exact congrArg Host.Outcome.next hpass

/-- The first pass of a row of no program: it holds what it got, and asks again when a chunk was bad. -/
theorem State.chunksIn_first {c : RowCmd} {bad : List Nat} {t : State} {r : Row} (hchunks : (s.row l).chunks = [])
    (hrounds : (s.row l).rounds = 0) (hr : (s.row l).fill c.image ((s.row l).chunksGot bad) = r) (ht : s.chunksIn l c bad = t) :
    let miss := bad.any (fun j => 1024 * j < (s.row l).len)
    (t.row l).prog = r.prog ∧ (t.row l).chunks = r.chunks ∧ (t.row l).rounds = bit miss ∧
    t.ctr Ctr.NDL_REPAIR = if miss then (s.ctr Ctr.NDL_REPAIR).bump else s.ctr Ctr.NDL_REPAIR := by
  intro miss
  have hzero : r.rounds = 0 := by
    rw [← hr]
    exact hrounds
  have hcomplete : r.complete = !miss := by
    rw [← hr]
    exact Row.complete_fill_first hchunks c.image bad
  rw [State.chunksIn_eq, hr] at ht
  subst ht
  cases hmiss : miss with
  | false =>
    rw [hmiss] at hcomplete
    simp [hcomplete, hzero, bit]
  | true =>
    rw [hmiss] at hcomplete
    simp [hcomplete, hzero, bit, State.repairRound]

/-! ### The obligation -/

theorem State.digestCheck_eq {c : RowCmd} (hload : s.loadOf l = some c) (hcomplete : (s.row l).complete = true) :
    let h := sha3x256 (imgBytes (s.row l).prog (s.row l).len)
    s.digestCheck l = if h = c.digest then
        (((s.setRow l { s.row l with digest := h, chunks := [], rounds := 0 }).setRowState l 3).count Ctr.NDL_LOAD).rowDone l 0
      else (s.setRow l { s.row l with chunks := [] }).repairRound l := by
  simp only [State.digestCheck, hload, hcomplete, Bool.not_true, Bool.false_eq_true, if_false]

theorem State.repairRequest_eq {c : RowCmd} {bad : List Nat} (hload : s.loadOf l = some c) (hrounds : 1 ≤ (s.row l).rounds)
    (hmore : (s.row l).complete = false) : s.repairRequest l bad = s.chunksIn l c bad := by
  simp only [State.repairRequest, hload, hrounds, hmore, Bool.not_false, and_self, if_true]

end

/-- Settles O21: LOAD as any command that holds its rows; a pass by what it stores and the chunks it leaves out; a repair that brings
nothing and a digest check write the row twice, of which the last counts (`setRow_setRow`). -/
theorem rowLoading : Obligations.RowLoading := by
  unfold Obligations.RowLoading
  refine ⟨fun s p n hn hs hst => ?_, fun s n l bad c hcmd hop hrows hrounds hchunks hprog => ?_,
    fun s n l bad c hstate howner hcmd hrounds hmore hbad => ?_, fun s n l c hstate howner hcmd hcomplete => ?_⟩
  case refine_1 =>
    obtain ⟨t, hexec, hmove, hstat, hcmd, hsame⟩ := rowLoad_moves s p n hn hs hst
    obtain ⟨hmem, -, hctrs⟩ := State.stores_eq hsame
    exact ⟨t, hexec, fun l hl => ⟨hmove.rowState hl, hmove.row l hl⟩, hmove.otherRows (setRegs_lt (hn.trans (by decide))), hstat, hcmd,
      hmem, hctrs⟩
  case refine_2 =>
    intro k
    have hgot : (s.row l).chunksGot bad = k := Row.chunksGot_first hchunks bad
    obtain ⟨hprog', hchunks', hrounds', hctr⟩ := State.chunksIn_first (c := c) (bad := bad) hchunks hrounds rfl rfl
    refine ⟨_, exec_loadPassEnd hcmd hop hrows hrounds hchunks, ?_, fun o ho => ?_, hrounds', hctr⟩
    · rw [hchunks', hgot, Row.fill, hchunks, List.nil_append]
    · rw [hprog', hgot, Row.fetch_fill, hprog]
      simp [List.mem_range.mp ho, fetch, lookup]
  case refine_3 =>
    have hload := State.loadOf_eq hstate howner hcmd
    refine congrArg Host.Outcome.next ((State.repairRequest_eq hload hrounds hmore).trans ?_)
    rw [State.chunksIn_eq, Row.fill_nothing c.image hbad]
    refine (if_neg (by simp [hmore])).trans ?_
    rw [State.repairRound_setRow s l (Row.ne_empty_of_owner howner), State.rowFault_setRow howner]
  case refine_4 =>
    have hload := State.loadOf_eq hstate howner hcmd
    refine congrArg Host.Outcome.next ((State.digestCheck_eq hload hcomplete).trans ?_)
    rw [State.repairRound_setRow s l (Row.ne_empty_of_owner (r := { s.row l with chunks := [] }) howner)]

end Sys2Proof.Machine
end

section
/-! PROOFS. SAVE and RESTORE of a row (O22): what its image reads of the part, and what its write leaves. -/

namespace Sys2Proof.Machine

section
variable {s t : State} {l n : Nat}

/-! ### Writes of memory with poison marks (R420) -/

theorem State.mem_write (s : State) (a : Nat) (bs : List Byte) (p : Bool) : (s.write a bs p).mem = putBytes s.mem a bs := by
  rw [State.write, State.poke, (PushChange.touchPages s _).mem]

theorem State.tags_write (s : State) (a : Nat) (bs : List Byte) (p : Bool) : (s.write a bs p).tags = putTags s.tags a bs.length p := by
  obtain ⟨_, _, _, _, _, _, _, h⟩ := PushChange.touchPages s (pagesOf a bs.length)
  rw [State.write, State.poke, h]

theorem State.writeMarkedN_congr (f : Nat) {s t : State} (hmem : t.mem = s.mem) (htags : t.tags = s.tags) (a : Nat)
    (bs : List (Byte × Bool)) : (t.writeMarkedN f a bs).mem = (s.writeMarkedN f a bs).mem ∧
      (t.writeMarkedN f a bs).tags = (s.writeMarkedN f a bs).tags := by
  induction f generalizing s t a bs with
  | zero => exact ⟨hmem, htags⟩
  | succ f ih =>
    cases bs with
    | nil => exact ⟨hmem, htags⟩
    | cons b bs => exact ih (by rw [State.mem_write, State.mem_write, hmem]) (by rw [State.tags_write, State.tags_write, htags]) _ _

/-- What a write leaves in memory depends on the memory before alone. -/
theorem State.writeMarked_congr (hmem : t.mem = s.mem) (htags : t.tags = s.tags) (a : Nat) (bs : List (Byte × Bool)) :
    (t.writeMarked a bs).mem = (s.writeMarked a bs).mem ∧ (t.writeMarked a bs).tags = (s.writeMarked a bs).tags := by
  rw [State.writeMarked, State.writeMarked]
  split
  · exact State.writeMarkedN_congr _ hmem htags a bs
  · exact ⟨by rw [State.writeB, State.mem_write, State.writeB, State.mem_write, hmem],
      by rw [State.writeB, State.tags_write, State.writeB, State.tags_write, htags]⟩

theorem Beside.writeMarkedN {R : SMap Row} {s₀ : State} (f : Nat) {s t : State} (h : Beside R s₀ s t) (a : Nat) (bs : List (Byte × Bool)) :
    Beside R s₀ (s.writeMarkedN f a bs) (t.writeMarkedN f a bs) := by
  induction f generalizing s t a bs with
  | zero => exact h
  | succ f ih =>
    cases bs with
    | nil => exact h
    | cons b bs => exact ih h.write _ _

theorem Beside.writeMarked {R : SMap Row} {s₀ : State} (h : Beside R s₀ s t) {a : Nat} {bs : List (Byte × Bool)} :
    Beside R s₀ (s.writeMarked a bs) (t.writeMarked a bs) := by
  rw [State.writeMarked, State.writeMarked]
  split
  · exact h.writeMarkedN _ a bs
  · exact h.writeB

theorem RowsChange.beside {R : SMap Row} {ls : List Nat} (hlt : ∀ k ∈ ls, k < 128) (h : Beside R s t (t.withRows R)) :
    RowsChange [] ls (fun _ r => r) id s t where
  row l _ := by rw [State.row, h.rows, State.row]
  status l hl := h.rd _ (by have := hlt l hl; simp only [Reg.NDL_ROW]; omega)
  otherRow l _ := by rw [State.row, h.rows, State.row]
  otherRd a ha _ _ := h.rd a ha

/-! ### What an image reads (R300) -/

theorem State.ctxImage_congr (hrow : ∃ o, t.row l = { s.row l with owner := o }) (hstatus : t.rd (Reg.NDL_ROW l) = s.rd (Reg.NDL_ROW l))
    (hstep : t.stepCtr (t.rowSlice l) = s.stepCtr (s.rowSlice l)) (hcarder : t.carder = s.carder) : t.ctxImage l = s.ctxImage l := by
  obtain ⟨o, hrow⟩ := hrow
  have hkind : t.rowKind l = s.rowKind l := by rw [State.rowKind, State.rowKind, State.rf, State.rf, hstatus]
  have hcursor : t.cursorBlock l = s.cursorBlock l := by
    simp only [State.cursorBlock, State.feed?, hkind, hcarder]
  simp only [State.ctxImage, hrow, hkind, hstep, hcursor, Row.needle_setOwner]

theorem State.ctxNeedle_congr (hmem : t.mem = s.mem) (htags : t.tags = s.tags) (a i : Nat) : t.ctxNeedle a i = s.ctxNeedle a i := by
  have hbytes : t.bytes = s.bytes := by
    funext a k
    simp only [State.bytes, State.byte, hmem]
  have hle : t.le = s.le := by
    funext a k
    rw [State.le, State.le, hbytes]
  have htagged : t.tagged = s.tagged := by
    funext a
    rw [State.tagged, State.tagged, htags]
  simp only [State.ctxNeedle, hbytes, hle, htagged]

end

end Sys2Proof.Machine
end

section
/-! PROOFS. The commands SAVE and RESTORE on one row (O22). -/

namespace Sys2Proof.Machine

section
variable {s : State} {p l n : Nat}

/-! ### A command in progress on one row -/

theorem rd_rowHold (s : State) (op : Nat) (c : RowCmd) {a : Nat} (ha : a ∉ setRegs n) :
    ((rowAsked s n op).rowHold n c).rd a = s.rd a := by
  simp only [setRegs, List.mem_cons, List.not_mem_nil, or_false, not_or] at ha
  rw [State.rowHold_same (fun v => v.rd a) fun _ _ => rfl, State.rd_wr_other _ _ ha.2, State.rd_setRowCmd, rd_rowAsked s op ha.1]

theorem ctxSlot_rowHold (s : State) (op : Nat) (c : RowCmd) (k : Nat) : ((rowAsked s n op).rowHold n c).ctxSlot n k = s.ctxSlot n k := by
  rw [State.ctxSlot, State.ctxSlot, State.addrOf_of_rd (rd_rowHold s op c ?_) (rd_rowHold s op c ?_)]
  all_goals simp [setRegs, Reg.NDL_CTX_LO, Reg.NDL_CTX_HI, Reg.NDL_CMD, Reg.NDL_STAT]

theorem ctxImage_rowHold (s : State) (op : Nat) (c : RowCmd) (hn : n < 5) (hl : l < 128) (hc : c.rows = s.maskRows n)
    (hmask : s.maskRows n = [l]) : ((rowAsked s n op).rowHold n c).ctxImage l = s.ctxImage l := by
  obtain ⟨hhold, -⟩ := rowHold_change hn s op hc
  have hlow : ∀ a < 0x1000000, ((rowAsked s n op).rowHold n c).rd a = s.rd a := fun a ha =>
    rd_rowHold s op c (by simp only [setRegs, List.mem_cons, List.not_mem_nil, or_false, Reg.NDL_CMD, Reg.NDL_STAT]; omega)
  have hvariant : ∀ k, ((rowAsked s n op).rowHold n c).rowSlice k = s.rowSlice k := fun k => by
    simp only [State.rowSlice, State.sliceOfDie, State.sliceCount, State.rf, hlow Reg.GLB_STATUS (by decide)]
  have hmem : l ∈ s.maskRows n := hmask ▸ List.mem_singleton_self l
  refine State.ctxImage_congr ⟨some n, hhold.row l hmem⟩ (hhold.status l hmem) ?_ ?_
  · have hslice : s.rowSlice l < 4 := (Nat.div_le_self _ _).trans_lt (by rw [rowDie]; omega)
    rw [hvariant, State.stepCtr, State.stepCtr, State.stepOf, State.stepOf, State.rf, State.rf, hlow, hlow]
    · simp only [Reg.GLB_JOB_STEP_HI]
      omega
    · simp only [Reg.GLB_JOB_STEP_LO]
      omega
  · exact (State.rowHold_same (fun v => v.carder) (fun _ _ => rfl) _).trans rfl

/-! ### SAVE (R300) -/

theorem State.rowIssue_save (u : State) (n : Nat) (rows : List Nat) :
    u.rowIssue n 5 rows = rows.foldl (fun v l => (v.saveRow n l).rowDone l 0) (u.rowHold n (rowCmdOf 5 rows)) := rfl

theorem RowsChange.rowCleared {l : Nat} :
    RowsChange [] [l] (fun _ r => { owner := r.owner }) (fun w => setField w 3 0 1) s (s.rowCleared l) := .set

/-- A row in progress under set `n` is saved, and its part of the command ends. -/
theorem State.saveRow_done {u : State} (hn : n < 5) (hl : l < 128) (howner : (u.row l).owner = some n)
    (hcmd : u.rowCmd n = some (rowCmdOf 5 [l])) {t : State} (ht : (u.saveRow n l).rowDone l 0 = t) :
    RowsChange [Reg.NDL_STAT n] [l] (fun _ _ => {}) (fun w => setField w 3 0 1) u t ∧ t.rowCmd n = none ∧ t.rd (Reg.NDL_STAT n) = 0 ∧
    t.mem = (u.writeMarked (u.ctxSlot n l) (u.ctxImage l)).mem ∧ t.tags = (u.writeMarked (u.ctxSlot n l) (u.ctxImage l)).tags := by
  have hbeside := (Beside.refl [] u).writeMarked (a := u.ctxSlot n l) (bs := u.ctxImage l)
  rw [State.saveRow] at ht
  generalize u.writeMarked (u.ctxSlot n l) (u.ctxImage l) = w at *
  have hwritten : RowsChange [Reg.NDL_STAT n] [l] (fun _ r => r) id u w :=
    (RowsChange.beside (fun k hk => by simpa [List.mem_singleton.mp hk] using hl) (hbeside.twin ▸ hbeside)).mono (List.nil_subset _)
  have howner' : (w.row l).owner = some n := by rw [State.row, hbeside.rows]; exact howner
  have hcmd' : (w.rowCleared l).rowCmd n = some (rowCmdOf 5 [l]) := by
    rw [State.rowCleared, State.rowCmd_setRowState, State.rowCmd_setRow, State.rowCmd, hbeside.cmds]
    exact hcmd
  obtain ⟨hdone, hend, -⟩ := RowsChange.rowCleared.done hn (l := l) howner' hcmd' rfl rfl
  obtain ⟨hnone, hstat⟩ := hend (by simp [rowCmdOf])
  obtain ⟨hmem, htags, -⟩ := State.stores_eq (State.stores_rowDone (w.rowCleared l) l 0)
  subst ht
  exact ⟨hwritten.trans hdone, hnone, hstat, hmem, htags⟩

theorem rowSave_moves (s : State) (p n l : Nat) (hn : n < 4) (hs : s.hasSlice n = true)
    (hst : (rowAsked s n 5).rowStatus n 5 false (s.maskRows n) = (0, 0)) (hmask : s.maskRows n = [l]) :
    ∃ t : State, exec (rowRow 5 (.pf0 p) n) s = .next t ∧
      RowsChange (setRegs n) [l] (fun _ _ => {}) (fun w => setField w 3 0 1) s t ∧
      t.mem = (s.writeMarked (s.ctxSlot n l) (s.ctxImage l)).mem ∧ t.tags = (s.writeMarked (s.ctxSlot n l) (s.ctxImage l)).tags ∧
      t.rd (Reg.NDL_STAT n) = 0 ∧ t.rowCmd n = none := by
  have hn' : n < 5 := hn.trans (by decide)
  have hl : l < 128 := State.mem_maskRows_lt (s := s) (n := n) (hmask ▸ List.mem_singleton_self l)
  have hc : (rowCmdOf 5 [l]).rows = s.maskRows n := hmask.symm
  obtain ⟨hhold, hcmd, -, hsame⟩ := rowHold_change hn' s 5 hc
  have hslot := ctxSlot_rowHold (n := n) s 5 (rowCmdOf 5 [l]) l
  have himage := ctxImage_rowHold s 5 (rowCmdOf 5 [l]) hn' hl hc hmask
  refine ⟨_, exec_rowRow_issue hn hs (by decide) (by decide) hst, ?_⟩
  rw [hmask, State.rowIssue_save, List.foldl_cons, List.foldl_nil]
  rw [hmask] at hhold
  generalize (rowAsked s n 5).rowHold n (rowCmdOf 5 [l]) = u at *
  have howner : (u.row l).owner = some n := by rw [hhold.row l (List.mem_singleton_self l)]
  obtain ⟨hmove, hnone, hstat, hmem, htags⟩ := State.saveRow_done hn' hl howner hcmd rfl
  obtain ⟨hmem', htags', -⟩ := State.stores_eq hsame
  obtain ⟨hwmem, hwtags⟩ := State.writeMarked_congr hmem' htags' (s.ctxSlot n l) (s.ctxImage l)
  rw [hslot, himage] at hmem htags
  refine ⟨hhold.trans (hmove.mono ?_), hmem.trans hwmem, htags.trans hwtags, hstat, hnone⟩
  exact List.cons_subset.mpr ⟨List.mem_cons_of_mem _ List.mem_cons_self, List.nil_subset _⟩

/-! ### RESTORE (R301, R302) -/

/-- Row `r` with its program and what an image holds: its safe point and its needles. -/
def Row.restored (safe : Nat) (needle : Nat → Needle) (r : Row) : Row :=
  ({ prog := r.prog, len := r.len, addr := r.addr, digest := r.digest, owner := r.owner, safe := safe } : Row).mapNeedles
    (fun i _ => needle i)

theorem Row.restored_eq (safe : Nat) (needle : Nat → Needle) (r : Row) : ∃ needles, r.restored safe needle =
    { prog := r.prog, len := r.len, addr := r.addr, digest := r.digest, owner := r.owner, safe := safe, needles := needles } :=
  Row.mapNeedles_eq _ _

theorem Row.needle_restored (safe : Nat) (needle : Nat → Needle) (r : Row) {i : Nat} (hi : i < 16) :
    (r.restored safe needle).needle i = needle i := Row.needle_mapNeedles _ _ hi

theorem State.moveItems_eq (s : State) (k l : Nat) : ∃ carder, s.moveItems k l = { s with carder } := by
  unfold State.moveItems
  split
  · exact ⟨_, rfl⟩
  · exact ⟨_, rfl⟩

theorem State.restoreRow_eq (u : State) (n l : Nat) : ∃ carder, u.restoreRow n l =
    { ((u.setRow l ((u.row l).restored (u.le (u.ctxSlot n l + 12) 4) (u.ctxNeedle (u.ctxSlot n l)))).setRowState l 6) with carder } :=
  State.moveItems_eq _ _ _

theorem RowsChange.restoreRow {u : State} : RowsChange [] [l]
    (fun _ => Row.restored (u.le (u.ctxSlot n l + 12) 4) (u.ctxNeedle (u.ctxSlot n l))) (fun w => setField w 3 0 6) u (u.restoreRow n l) := by
  obtain ⟨_, h⟩ := u.restoreRow_eq n l
  rw [h]
  obtain ⟨hrow, hstatus, hother, hrd⟩ := RowsChange.set (s := u) (l := l) (x := 6)
    (g := fun _ => Row.restored (u.le (u.ctxSlot n l + 12) 4) (u.ctxNeedle (u.ctxSlot n l)))
  exact ⟨hrow, hstatus, hother, hrd⟩

theorem State.rowIssue_restore (u : State) (n : Nat) {rows : List Nat} (h : rows.length ≤ 16) :
    u.rowIssue n 6 rows = rows.foldl (fun v l => (v.restoreRow n l).rowDone l 0) (u.rowHold n (rowCmdOf 6 rows)) :=
  if_neg (Nat.not_lt.mpr h)

theorem rowRestore_moves (s : State) (n l : Nat) (hn : n < 4) (hmask : s.maskRows n = [l]) {t : State}
    (ht : (rowAsked s n 6).rowIssue n 6 [l] = t) :
    RowsChange (setRegs n) [l]
      (fun _ r => { Row.restored (s.le (s.ctxSlot n l + 12) 4) (s.ctxNeedle (s.ctxSlot n l)) { r with owner := some n } with owner := none })
      (fun w => setField w 3 0 6) s t ∧ t.mem = s.mem ∧ t.rd (Reg.NDL_STAT n) = 0 := by
  have hn' : n < 5 := hn.trans (by decide)
  have hc : (rowCmdOf 6 [l]).rows = s.maskRows n := hmask.symm
  obtain ⟨hhold, hcmd, -, hsame⟩ := rowHold_change hn' s 6 hc
  have hslot := ctxSlot_rowHold (n := n) s 6 (rowCmdOf 6 [l]) l
  rw [State.rowIssue_restore _ n (by simp), List.foldl_cons, List.foldl_nil] at ht
  rw [hmask] at hhold
  generalize (rowAsked s n 6).rowHold n (rowCmdOf 6 [l]) = u at *
  obtain ⟨hmem, htags, -⟩ := State.stores_eq hsame
  have hneedle : u.ctxNeedle (s.ctxSlot n l) = s.ctxNeedle (s.ctxSlot n l) := funext (State.ctxNeedle_congr hmem htags _)
  have hle : ∀ a k, u.le a k = s.le a k := fun a k => by simp only [State.le, State.bytes, State.byte, hmem]
  have hmove : RowsChange [] [l] (fun _ => Row.restored (s.le (s.ctxSlot n l + 12) 4) (s.ctxNeedle (s.ctxSlot n l)))
      (fun w => setField w 3 0 6) u (u.restoreRow n l) := by
    have h := RowsChange.restoreRow (u := u) (n := n) (l := l)
    rwa [hslot, hneedle, hle] at h
  have howner : (Row.restored (s.le (s.ctxSlot n l + 12) 4) (s.ctxNeedle (s.ctxSlot n l)) (u.row l)).owner = some n := by
    obtain ⟨_, h⟩ := Row.restored_eq (s.le (s.ctxSlot n l + 12) 4) (s.ctxNeedle (s.ctxSlot n l)) (u.row l)
    rw [h, hhold.row l (List.mem_singleton_self l)]
  obtain ⟨carder, hrestore⟩ := u.restoreRow_eq n l
  have hcmd' : (u.restoreRow n l).rowCmd n = some (rowCmdOf 6 [l]) := by
    rw [hrestore]
    exact hcmd
  have hstores : (u.restoreRow n l).mem = u.mem := by rw [hrestore]; rfl
  obtain ⟨hdone, hend, -⟩ := hmove.done hn' howner hcmd' rfl rfl
  obtain ⟨-, hstat⟩ := hend (by simp [rowCmdOf])
  obtain ⟨hmem', -⟩ := State.stores_eq (State.stores_rowDone (u.restoreRow n l) l 0)
  subst ht
  refine ⟨hhold.trans (hdone.mono ?_), hmem'.trans (hstores.trans hmem), hstat⟩
  exact List.cons_subset.mpr ⟨List.mem_cons_of_mem _ List.mem_cons_self, List.nil_subset _⟩

end

end Sys2Proof.Machine
end

section
/-! PROOFS. The reset of a slice (O22): what every part of it leaves alone, then its rows, its memory and its registers. -/

namespace Sys2Proof.Machine

/-! ### What the reset of a slice leaves of rows, memory and Twist (R315, R752) -/

/-- The registers of the part and of its rows. -/
def rowReg (a : Nat) : Prop := a < 0x300000 ∨ 0x1002000 ≤ a ∧ a < 0x1002200

/-- The part comes from `s` to `t` with rows, memory and Twist as they were, and so the registers of the part and of its rows. -/
structure Aside (s t : State) : Prop where
  rows : t.rows = s.rows
  mem : t.mem = s.mem
  tags : t.tags = s.tags
  tws : t.tws = s.tws
  rd : ∀ a, rowReg a → t.rd a = s.rd a

section
variable {s₀ s t : State} {n : Nat}

theorem Aside.refl (s : State) : Aside s s := ⟨rfl, rfl, rfl, rfl, fun _ _ => rfl⟩

theorem Aside.frame {carder opt rma nvme host out spaces ctrs ckp msixPending} (h : Aside s₀ s) :
    Aside s₀ { s with carder, opt, rma, nvme, host, out, spaces, ctrs, ckp, msixPending } :=
  ⟨h.rows, h.mem, h.tags, h.tws, h.rd⟩

theorem Aside.wr (h : Aside s₀ s) {a : Nat} {v : Word} (ha : ¬ rowReg a) : Aside s₀ (s.wr a v) :=
  ⟨h.rows, h.mem, h.tags, h.tws, fun b hb => (s.rd_wr_other v (by rintro rfl; exact ha hb)).trans (h.rd b hb)⟩

theorem Aside.wf (h : Aside s₀ s) {a hi lo x : Nat} (ha : ¬ rowReg a) : Aside s₀ (s.wf a hi lo x) := h.wr ha

theorem Aside.event (h : Aside s₀ s) {a i : Nat} (ha : ¬ rowReg a) : Aside s₀ (s.event a i) := h.wr ha

theorem Aside.ite {c : Prop} {i : Decidable c} {a b : State} (ha : Aside s₀ a) (hb : Aside s₀ b) : Aside s₀ (@ite _ c i a b) := by
  split <;> assumption

theorem Aside.foldl {α : Type} {f : State → α → State} {xs : List α} (hf : ∀ u x, Aside s₀ u → Aside s₀ (f u x)) (h : Aside s₀ s) :
    Aside s₀ (xs.foldl f s) := by
  induction xs generalizing s with
  | nil => exact h
  | cons x xs ih => exact ih (hf s x h)

theorem not_rowReg_feed (hn : n < 4) : ¬ rowReg (Reg.CRD_FSTATE n) := by
  simp only [rowReg, Reg.CRD_FSTATE]
  omega

theorem not_rowReg_opt (hn : n < 4) : ¬ rowReg (Reg.OPT_STAT n) := by
  simp only [rowReg, Reg.OPT_STAT]
  omega

theorem not_rowReg_host : ¬ rowReg Reg.HOST_EVT := by
  simp only [rowReg, Reg.HOST_EVT]
  omega

theorem Aside.feedShut (h : Aside s₀ s) (hn : n < 4) {f : Nat} : Aside s₀ (s.feedShut n f) := .wf h.frame (not_rowReg_feed hn)

theorem Aside.feedsClose (h : Aside s₀ s) (hn : n < 4) : Aside s₀ (s.feedsClose n) := .foldl (fun _ _ hu => .ite hu (hu.feedShut hn)) h

theorem Aside.optOff (h : Aside s₀ s) (hn : n < 4) : Aside s₀ (s.optOff n) :=
  .wf (.wf h.frame (not_rowReg_opt hn)) (not_rowReg_opt hn)

theorem Aside.rmaReset (h : Aside s₀ s) : Aside s₀ (s.rmaReset n) := h.frame

theorem Aside.setCtl (h : Aside s₀ s) {p : Nat} {c : NvmeCtl} : Aside s₀ (s.setCtl p c) := h.frame

theorem Aside.emit (h : Aside s₀ s) {o : Out} : Aside s₀ (s.emit o) := h.frame

theorem Aside.count (h : Aside s₀ s) {a : Nat} : Aside s₀ (s.count a) := h.frame

theorem Aside.msix (h : Aside s₀ s) {port fn vec : Nat} : Aside s₀ (s.msix port fn vec) := .ite h.emit h.frame

theorem Aside.cqePut (h : Aside s₀ s) {p : Nat} {e : NvmeCqe} : Aside s₀ (s.cqePut p e) := by
  unfold State.cqePut
  dsimp only
  split
  · exact h
  · exact .ite (.msix (.emit h.setCtl)) (.emit h.setCtl)

theorem Aside.cqeFlush {p : Nat} {es : List NvmeCqe} (h : Aside s₀ s) : Aside s₀ (State.cqeFlush p es s) := by
  induction es generalizing s with
  | nil => exact h
  | cons e es ih => exact .ite (ih h.cqePut) (ih h.setCtl)

theorem Aside.nvmePost (h : Aside s₀ s) {p q cid st dw0 nsid : Nat} : Aside s₀ (s.nvmePost p q cid st dw0 nsid) := by
  unfold State.nvmePost
  dsimp only
  split
  · exact h
  · exact .cqeFlush (.setCtl (.count h.setCtl))

theorem Aside.poisonSent (h : Aside s₀ s) {port k : Nat} : Aside s₀ (s.poisonSent port k) := .ite h (.event h.frame not_rowReg_host)

theorem Aside.cmdEnd (h : Aside s₀ s) {j : Nat} {c : NvmeCmd} : Aside s₀ (s.cmdEnd n j c) := by
  have hpost : ∀ {u : State} {st : Nat}, Aside s₀ u → Aside s₀ (u.nvmePost c.port c.sq c.cid st 0 (8 * n + j + 1)) :=
    fun hu => hu.nvmePost
  have hsent : Aside s₀ (if c.op = 2 ∧ c.status = 0 then
      (s.emit (.nvmeData c.port c.sq c.cid (c.data.map (fun b => b.1)) (marksOf c.data))).poisonSent c.port (poisonTlps 0 c.data)
      else s) := .ite h.emit.poisonSent h
  exact .ite h (.ite (hpost hsent) (hpost hsent).setCtl)

theorem Aside.spacesReset (h : Aside s₀ s) : Aside s₀ (s.spacesReset n) := by
  refine .foldl (fun u j hu => ?_) h
  cases u.space n j with
  | none => exact hu
  | some x => exact .foldl (fun _ _ hv => hv.cmdEnd) hu.frame

theorem Aside.copiesGone (h : Aside s₀ s) : Aside s₀ ((List.range 8).foldl (fun u k => u.setCopyList n k []) s) :=
  .foldl (fun _ _ hu => hu.frame) h

theorem Aside.setCkp (h : Aside s₀ s) {c : Ckp} : Aside s₀ (s.setCkp n c) := h.frame

end

end Sys2Proof.Machine
end

section
/-! PROOFS. The rows, the memory and the registers of a slice in reset, and the obligation (O22). -/

namespace Sys2Proof.Machine

section
variable {s : State} {l n : Nat}

/-! ### Its rows (R315) -/

/-- Row `l` loses what it holds, unless it is NOT_PRESENT. -/
def State.clearRow (s : State) (l : Nat) : State := if s.rowState l = 0 then s else s.rowCleared l

/-- Row `l` serves no command any more; that of a command of Spindle's set ends its part of it. -/
def State.freeRow (s : State) (l : Nat) : State :=
  if (s.row l).owner = some 4 then s.rowDone l 0 else s.setRow l { s.row l with owner := none }

/-- The rows of slice `n` are IDLE and empty. -/
def State.rowsCleared (s : State) (n : Nat) : State := (s.sliceRows n).foldl State.clearRow s

theorem State.rowsReset_eq (s : State) (n : Nat) :
    s.rowsReset n = (((s.sliceRows n).foldl State.freeRow (s.rowsCleared n)).setRowCmd n none).setRowCmd (5 + n) none := rfl

theorem State.rowState_rowCleared_other (s : State) {k : Nat} (h : k ≠ l) : (s.rowCleared l).rowState k = s.rowState k := by
  refine State.rowState_of_rd ((State.rd_wf_other _ _ _ _ fun heq => h (ndlRow_injective heq)).trans (State.rd_setRow ..))

theorem State.foldl_clearRow {ls : List Nat} (s : State) (hls : ls.Nodup) :
    ls.foldl State.clearRow s = (ls.filter (fun l => s.rowState l ≠ 0)).foldl State.rowCleared s := by
  induction ls generalizing s with
  | nil => rfl
  | cons l ls ih =>
    obtain ⟨hl, hls⟩ := List.nodup_cons.mp hls
    rw [List.foldl_cons, State.clearRow]
    by_cases h : s.rowState l = 0
    · rw [if_pos h, ih s hls, List.filter_cons_of_neg (by simpa using h)]
    · have hrest : ls.filter (fun k => (s.rowCleared l).rowState k ≠ 0) = ls.filter (fun k => s.rowState k ≠ 0) :=
        List.filter_congr fun k hk => by
          rw [State.rowState_rowCleared_other s (show k ≠ l by rintro rfl; exact hl hk)]
      rw [if_neg h, ih _ hls, hrest, List.filter_cons_of_pos (by simpa using h), List.foldl_cons]

/-- The end of a command on a row, whatever its status: the row is free, and the command's status register may change. -/
theorem RowsChange.rowDone {st : Nat} (hn : n < 5) (howner : (s.row l).owner = some n) :
    RowsChange [Reg.NDL_STAT n] [l] (fun _ r => { r with owner := none }) id s (s.rowDone l st) := by
  have hfree : RowsChange [Reg.NDL_STAT n] [l] (fun _ r => { r with owner := none }) id s (s.setRow l { s.row l with owner := none }) :=
    RowsChange.setRow.mono (List.nil_subset _)
  have hstat : ∀ k, Reg.NDL_ROW k ≠ Reg.NDL_STAT n := fun k => by simp only [Reg.NDL_ROW, Reg.NDL_STAT]; omega
  have hend : ∀ c v, RowsChange [Reg.NDL_STAT n] [l] (fun _ r => { r with owner := none }) id s
      (((s.setRow l { s.row l with owner := none }).setRowCmd n c).wr (Reg.NDL_STAT n) v) := fun c v =>
    ⟨hfree.row, fun k hk => (State.rd_wr_other _ _ (hstat k)).trans (hfree.status k hk), hfree.otherRow, fun a ha hE hne =>
      (State.rd_wr_other _ _ (by simpa using hE)).trans (hfree.otherRd a ha hE hne)⟩
  simp only [State.rowDone, howner]
  split
  · exact hfree
  · split
    · exact hend ..
    · exact ⟨hfree.row, hfree.status, hfree.otherRow, hfree.otherRd⟩

theorem RowsChange.freeRow : RowsChange [Reg.NDL_STAT 4] [l] (fun _ r => { r with owner := none }) id s (s.freeRow l) := by
  rw [State.freeRow]
  split
  · rename_i howner
    exact .rowDone (by decide) howner
  · exact RowsChange.setRow.mono (List.nil_subset _)

/-- Memory, its poison marks and Twist. -/
def State.memTws (s : State) : SMap Byte × SMap Bool × Tws := (s.mem, s.tags, s.tws)

theorem State.memTws_rowDone (s : State) (l st : Nat) : (s.rowDone l st).memTws = s.memTws := by
  obtain ⟨_, _, _, h⟩ := s.rowDone_eq l st
  rw [h]
  rfl

theorem State.memTws_freeRow (s : State) (l : Nat) : (s.freeRow l).memTws = s.memTws := by
  rw [State.freeRow]
  split
  · exact s.memTws_rowDone l 0
  · rfl

theorem State.memTws_clearRow (s : State) (l : Nat) : (s.clearRow l).memTws = s.memTws := by
  rw [State.clearRow]
  split
  · rfl
  · rfl

theorem State.memTws_rowsReset (s : State) (n : Nat) : (s.rowsReset n).memTws = s.memTws := by
  rw [State.rowsReset_eq]
  exact (State.foldl_same State.memTws State.memTws_freeRow _ _).trans (State.foldl_same State.memTws State.memTws_clearRow _ _)

theorem State.mem_sliceRows_lt (h : l ∈ s.sliceRows n) : l < 128 := List.mem_range.mp (List.mem_filter.mp h).1

theorem State.sliceRows_nodup (s : State) (n : Nat) : (s.sliceRows n).Nodup := List.nodup_range.filter _

theorem RowsChange.rowsCleared : RowsChange [] ((s.sliceRows n).filter (fun l => s.rowState l ≠ 0)) (fun _ r => { owner := r.owner })
    (fun w => setField w 3 0 1) s (s.rowsCleared n) := by
  rw [State.rowsCleared, State.foldl_clearRow s (s.sliceRows_nodup n)]
  exact .foldl (by simp) (fun _ _ => .rowCleared) ((s.sliceRows_nodup n).filter _) fun k hk =>
    State.mem_sliceRows_lt (List.mem_filter.mp hk).1

theorem RowsChange.rowsFreed : RowsChange [Reg.NDL_STAT 4] (s.sliceRows n) (fun _ r => { r with owner := none }) id (s.rowsCleared n)
    (s.rowsReset n) := by
  rw [State.rowsReset_eq]
  generalize s.rowsCleared n = u
  have hfree : RowsChange [Reg.NDL_STAT 4] (s.sliceRows n) (fun _ r => { r with owner := none }) id u
      ((s.sliceRows n).foldl State.freeRow u) :=
    .foldl (ndlStat_lt (by decide)) (fun _ _ => .freeRow) (s.sliceRows_nodup n) fun _ => State.mem_sliceRows_lt
  exact ⟨hfree.row, hfree.status, hfree.otherRow, hfree.otherRd⟩

/-- A row of the slice is IDLE with nothing in it, or NOT_PRESENT as before. -/
theorem State.rowsReset_row (h : l ∈ s.sliceRows n) : (s.rowsReset n).rowState l = (if s.rowState l = 0 then 0 else 1) ∧
    (s.rowState l ≠ 0 → (s.rowsReset n).row l = {}) := by
  have hlow : Reg.NDL_ROW l < 0x2000000 := by
    have := State.mem_sliceRows_lt h
    simp only [Reg.NDL_ROW]
    omega
  have hclear := RowsChange.rowsCleared (s := s) (n := n)
  have hfree := RowsChange.rowsFreed (s := s) (n := n)
  have hstate := State.rowState_of_rd (hfree.status l h)
  by_cases hzero : s.rowState l = 0
  · refine ⟨?_, fun hne => absurd hzero hne⟩
    rw [hstate, if_pos hzero, ← hzero]
    exact State.rowState_of_rd (hclear.otherRd _ hlow List.not_mem_nil fun k hk heq =>
      of_decide_eq_true (List.mem_filter.mp hk).2 (ndlRow_injective heq ▸ hzero))
  · have hmem : l ∈ (s.sliceRows n).filter (fun l => s.rowState l ≠ 0) := List.mem_filter.mpr ⟨h, by simpa using hzero⟩
    refine ⟨?_, fun _ => ?_⟩
    · rw [hstate, if_neg hzero]
      exact hclear.rowState hmem
    · rw [hfree.row l h, hclear.row l hmem]

theorem State.rowsReset_rd {a : Nat} (ha : a < 0x300000) : (s.rowsReset n).rd a = s.rd a := by
  have hrow : ∀ l, a ≠ Reg.NDL_ROW l := fun l => by simp only [Reg.NDL_ROW]; omega
  have hstat : a ∉ [Reg.NDL_STAT 4] := by simp only [List.mem_singleton, Reg.NDL_STAT]; omega
  rw [RowsChange.rowsFreed.otherRd a (by omega) hstat fun l _ => hrow l,
    RowsChange.rowsCleared.otherRd a (by omega) List.not_mem_nil fun l _ => hrow l]

/-! ### Everything else of it -/

/-- Everything of slice `n` but its rows, its job and its memory is at reset. -/
def State.resetElse (s : State) (n : Nat) : State :=
  ((List.range 8).foldl (fun u k => u.setCopyList n k [])
    (((((s.feedsClose n).optOff n).twistReset n).rmaReset n).spacesReset n)).setCkp n {}

theorem Aside.resetElse {t : State} (hn : n < 4) (ht : s.resetElse n = t) :
    t.rows = s.rows ∧ t.mem = s.mem ∧ t.tags = s.tags ∧ t.tws.colls = s.tws.colls.filter (fun c => c.slice ≠ n) ∧
    ∀ a, rowReg a → t.rd a = s.rd a := by
  have hbefore := ((Aside.refl s).feedsClose hn).optOff hn
  have hafter : Aside (((s.feedsClose n).optOff n).twistReset n) (s.resetElse n) :=
    .setCkp (.copiesGone (.spacesReset (.rmaReset (.refl _))))
  rw [ht] at hafter
  generalize (s.feedsClose n).optOff n = v at *
  obtain ⟨hrows, hmem, htags, htws, hrd⟩ := hafter
  exact ⟨hrows.trans hbefore.rows, hmem.trans hbefore.mem, htags.trans hbefore.tags, by rw [htws, ← hbefore.tws]; rfl,
    fun a ha => (hrd a ha).trans (hbefore.rd a ha)⟩

/-- The slice loses its job, its memory, and its secrets (R315, R752). -/
def State.wiped (s : State) (n : Nat) : State := ((s.setJob n {}).sliceWipe n).trustSliceErase n

/-- The registers and counters of the slice are at reset, and the slice is RESETTING. -/
def State.resetting (s : State) (n : Nat) : State :=
  (({ s with regs := s.regs.filter (fun e => !s.sliceReg n e.1), ctrs := s.ctrs.filter (fun e => !s.sliceCtr n e.1),
             holds := s.holds.filter (fun e => !s.sliceCtr n e.1) }.setSliceState n 6).wf (Reg.HOST_S_STAT n) 31 31 1)

theorem State.resetStart_eq (s : State) (n : Nat) :
    s.resetStart n = ((((((s.rowsReset n).resetElse n).wiped n).resetting n).trustShow n).evidenceSync) := rfl

theorem State.ownerOf_congr {s t : State} (h : ∀ a < 0x300000, t.rd a = s.rd a) : t.ownerOf = s.ownerOf := by
  have hstacks : t.stacksOf = s.stacksOf := by
    funext d
    rw [State.stacksOf, State.stacksOf, State.variant, State.variant, State.rf, State.rf, h Reg.GLB_VARIANT (by decide)]
  have hslice : t.sliceOfDie = s.sliceOfDie := by
    funext d
    rw [State.sliceOfDie, State.sliceOfDie, State.sliceCount, State.sliceCount, State.rf, State.rf, h Reg.GLB_STATUS (by decide)]
  have hplace : t.place = s.place := by
    funext a
    rw [State.place, State.place, hstacks]
  funext a
  rw [State.ownerOf, State.ownerOf, hplace, hslice]

theorem State.wiped_job (s : State) (n : Nat) : (s.wiped n).job n = {} := s.job_setJob_same n {}

theorem State.wiped_mem (s : State) (n : Nat) : (s.wiped n).mem = s.mem.filter (fun e => s.ownerOf e.1 ≠ some n) ∧
    (s.wiped n).tags = s.tags.filter (fun e => s.ownerOf (8 * e.1) ≠ some n) := by
  have howner : (s.setJob n {}).ownerOf = s.ownerOf := State.ownerOf_congr fun _ _ => rfl
  rw [State.wiped, State.trustSliceErase, State.sliceWipe]
  dsimp only [State.setTrust]
  rw [howner]
  simp only [ne_eq, decide_not]
  exact ⟨rfl, rfl⟩

/-- Rows keep their registers in the reset of a slice (R13). -/
theorem State.sliceReg_row (s : State) (n : Nat) {l : Nat} (hl : l < 128) : s.sliceReg n (Reg.NDL_ROW l) = false := by
  have hmap : ∀ l < 128, regRow (Reg.NDL_ROW l) = some ⟨0x1002000, [(128, 0x4)], .ro, 0x0, 0x0, .slice⟩ := by decide +kernel
  rw [State.sliceReg, hmap l hl]
  simp [State.ownerBy, Reg.NDL_ROW, Reg.MEM_HANK_MODE, Reg.MEM_HANK_BUSY]

theorem State.evidenceSync_eq (s : State) : ∃ trust regs, s.evidenceSync = { s with trust, regs } := by
  unfold State.evidenceSync
  dsimp only
  split
  · exact ⟨_, _, rfl⟩
  · exact ⟨_, _, rfl⟩

theorem State.rd_evidenceSync (s : State) {a : Nat} (hstate : a ≠ Reg.TRUST_STATE) (hevt : a ≠ Reg.TRUST_EVT) :
    s.evidenceSync.rd a = s.rd a := by
  unfold State.evidenceSync
  dsimp only
  split
  · exact State.rd_wr_other _ _ hstate
  · rw [State.rd_event_other _ _ hevt, State.rd_wr_other _ _ hstate]
    rfl

theorem State.rd_trustShow (s : State) (n : Nat) {a : Nat} (h : a ≠ Reg.TRUST_STAT n) : (s.trustShow n).rd a = s.rd a := by
  rw [State.trustShow, State.rd_wf_other _ _ _ _ h, State.rd_wf_other _ _ _ _ h]

theorem State.resetting_status (s : State) (n : Nat) :
    (s.resetting n).sliceState n = 6 ∧ (s.resetting n).rf (Reg.HOST_S_STAT n) 31 31 = 1 := by
  rw [State.resetting, State.sliceState, State.rf, State.rf, State.rd_wf_same, State.setSliceState, State.rd_wf_same,
    fieldOf_3_0_setField_31_31, fieldOf_setField_3_0, fieldOf_31_31_setField]
  exact ⟨rfl, rfl⟩

theorem State.rd_resetting_row (s : State) (n : Nat) {l : Nat} (hl : l < 128) (hn : n < 4) :
    (s.resetting n).rd (Reg.NDL_ROW l) = s.rd (Reg.NDL_ROW l) := by
  have hstat : Reg.NDL_ROW l ≠ Reg.HOST_S_STAT n := by simp only [Reg.NDL_ROW, Reg.HOST_S_STAT]; omega
  rw [State.resetting, State.rd_wf_other _ _ _ _ hstat, State.setSliceState, State.rd_wf_other _ _ _ _ hstat]
  refine (fetch_filter_key _ (fun a => !s.sliceReg n a) s.regs _).trans (if_pos ?_)
  rw [s.sliceReg_row n hl]
  rfl

theorem State.resetting_eq (s : State) (n : Nat) : ∃ regs ctrs holds, s.resetting n = { s with regs, ctrs, holds } := ⟨_, _, _, rfl⟩

theorem State.trustShow_eq (s : State) (n : Nat) : ∃ regs, s.trustShow n = { s with regs } := ⟨_, rfl⟩

/-- The last of a reset, of a state `s` that lost all else: rows, job and memory stay, and the slice is RESETTING. -/
theorem State.resetting_shown {t : State} (hn : n < 4) (ht : ((s.resetting n).trustShow n).evidenceSync = t) :
    t.sliceState n = 6 ∧ t.rf (Reg.HOST_S_STAT n) 31 31 = 1 ∧ (∀ l < 128, t.rd (Reg.NDL_ROW l) = s.rd (Reg.NDL_ROW l)) ∧
    t.rows = s.rows ∧ t.jobs = s.jobs ∧ t.mem = s.mem ∧ t.tags = s.tags ∧ t.tws = s.tws := by
  have hrd : ∀ a, a ≠ Reg.TRUST_STATE → a ≠ Reg.TRUST_EVT → a ≠ Reg.TRUST_STAT n → t.rd a = (s.resetting n).rd a :=
    fun a hstate hevt hstat => by rw [← ht, State.rd_evidenceSync _ hstate hevt, State.rd_trustShow _ n hstat]
  have hhost : t.rd (Reg.HOST_S_STAT n) = (s.resetting n).rd (Reg.HOST_S_STAT n) := by
    apply hrd <;> simp only [Reg.HOST_S_STAT, Reg.TRUST_STATE, Reg.TRUST_EVT, Reg.TRUST_STAT] <;> omega
  obtain ⟨hstate, hbusy⟩ := s.resetting_status n
  have hrest : ∃ regs ctrs holds trust, t = { s with regs, ctrs, holds, trust } := by
    obtain ⟨_, _, hsync⟩ := ((s.resetting n).trustShow n).evidenceSync_eq
    obtain ⟨_, hshow⟩ := (s.resetting n).trustShow_eq n
    obtain ⟨_, _, _, hreset⟩ := s.resetting_eq n
    rw [← ht, hsync, hshow, hreset]
    exact ⟨_, _, _, _, rfl⟩
  refine ⟨?_, ?_, fun l hl => ?_, ?_⟩
  · rw [State.sliceState, State.rf, hhost]
    exact hstate
  · rw [State.rf, hhost]
    exact hbusy
  · rw [hrd, s.rd_resetting_row n hl hn]
    all_goals
      simp only [Reg.NDL_ROW, Reg.TRUST_STATE, Reg.TRUST_EVT, Reg.TRUST_STAT]
      omega
  · obtain ⟨_, _, _, _, rfl⟩ := hrest
    exact ⟨rfl, rfl, rfl, rfl, rfl⟩

end

end Sys2Proof.Machine
end

section
/-! PROOFS. The obligation on the images of rows and the reset of a slice (O22). -/

namespace Sys2Proof.Machine

section
variable {s : State} {p l n : Nat}

theorem State.wiped_eq (s : State) (n : Nat) : ∃ jobs mem tags dirty pend push trust ciphers,
    s.wiped n = { s with jobs, mem, tags, dirty, pend, push, trust, ciphers } := ⟨_, _, _, _, _, _, _, _, rfl⟩

/-- What the start of a reset leaves of the slice. -/
theorem State.resetStart_clears {t : State} (hn : n < 4) (ht : s.resetStart n = t) :
    t.sliceState n = 6 ∧ t.rf (Reg.HOST_S_STAT n) 31 31 = 1 ∧
    (∀ l ∈ s.sliceRows n, t.rowState l = (if s.rowState l = 0 then 0 else 1) ∧ (s.rowState l ≠ 0 → t.row l = {})) ∧
    t.job n = {} ∧ t.tws.colls = s.tws.colls.filter (fun c => c.slice ≠ n) ∧
    t.mem = s.mem.filter (fun e => s.ownerOf e.1 ≠ some n) ∧ t.tags = s.tags.filter (fun e => s.ownerOf (8 * e.1) ≠ some n) := by
  have hrow : ∀ l ∈ s.sliceRows n, _ := fun l hl => State.rowsReset_row hl
  have hmemTws := s.memTws_rowsReset n
  have hpart : ∀ a < 0x300000, (s.rowsReset n).rd a = s.rd a := fun a ha => State.rowsReset_rd ha
  rw [State.resetStart_eq] at ht
  generalize s.rowsReset n = v at *
  simp only [State.memTws, Prod.mk.injEq] at hmemTws
  obtain ⟨hmem, htags, htws⟩ := hmemTws
  obtain ⟨hrows₁, hmem₁, htags₁, hcolls₁, hrd₁⟩ := Aside.resetElse (s := v) hn rfl
  generalize v.resetElse n = w at *
  have howner : w.ownerOf = s.ownerOf := State.ownerOf_congr fun a ha => (hrd₁ a (.inl ha)).trans (hpart a ha)
  obtain ⟨hmem₂, htags₂⟩ := w.wiped_mem n
  have hjob₂ := w.wiped_job n
  have hkept : (w.wiped n).rows = w.rows ∧ (w.wiped n).tws = w.tws ∧ (w.wiped n).regs = w.regs := by
    obtain ⟨_, _, _, _, _, _, _, _, h⟩ := w.wiped_eq n
    rw [h]
    exact ⟨rfl, rfl, rfl⟩
  obtain ⟨hrows₂, htws₂, hregs₂⟩ := hkept
  generalize w.wiped n = x at *
  obtain ⟨hstate, hbusy, hrd₃, hrows₃, hjobs₃, hmem₃, htags₃, htws₃⟩ := State.resetting_shown hn ht
  refine ⟨hstate, hbusy, fun l hl => ?_, ?_, ?_, ?_, ?_⟩
  · obtain ⟨hrowState, hempty⟩ := hrow l hl
    have hl' := State.mem_sliceRows_lt hl
    have hstatus : t.rd (Reg.NDL_ROW l) = v.rd (Reg.NDL_ROW l) := by
      rw [hrd₃ l hl', State.rd, hregs₂]
      exact hrd₁ _ (.inr (by simp only [Reg.NDL_ROW]; omega))
    refine ⟨(State.rowState_of_rd hstatus).trans hrowState, fun hne => ?_⟩
    rw [State.row, hrows₃, hrows₂, hrows₁]
    exact hempty hne
  · rw [State.job, hjobs₃]
    exact hjob₂
  · rw [htws₃, htws₂, hcolls₁, htws]
  · rw [hmem₃, hmem₂, howner, hmem₁, hmem]
  · rw [htags₃, htags₂, howner, htags₁, htags]

/-- A RESET is accepted in every state of the slice. -/
theorem State.sliceStatus_reset (hstate : s.sliceState n ≤ 6) : s.sliceStatus (.pf0 p) n 1 0 false = 0 := by
  have hlisted : s.sliceState n ∈ sliceOpStates 1 := by
    simp only [sliceOpStates, List.mem_cons, List.not_mem_nil, or_false]
    omega
  simp [State.sliceStatus, State.sliceIllegal, hlisted]

theorem State.sliceIssue_reset (s : State) (n j : Nat) {op : Nat} (hop : op = 1) : s.sliceIssue n op j = s.resetStart n := by
  unfold State.sliceIssue
  split
  case h_1 => rfl
  case h_7 hreset _ _ _ _ _ => exact absurd hop hreset
  all_goals omega

theorem State.sliceCmdWrite_go {via : Via} {v : Word} (hgo : fieldOf v 31 31 ≠ 0)
    (hst : (s.wr (Reg.HOST_S_CMD n) (v &&& 0x70F)).sliceStatus via n (fieldOf v 3 0) (fieldOf v 10 8)
      (fieldOf v 30 11 ≠ 0 || fieldOf v 7 4 ≠ 0) = 0) :
    s.sliceCmdWrite via n v = (s.wr (Reg.HOST_S_CMD n) (v &&& 0x70F)).sliceIssue n (fieldOf v 3 0) (fieldOf v 10 8) :=
  (if_neg hgo).trans (if_neg (not_not.mpr hst))

/-- A word that commands a RESET and nothing else starts it. -/
theorem State.sliceCmdWrite_reset {v : Word} (hstate : s.sliceState n ≤ 6) (hlow : v &&& 0x70F = 1) (hgo : fieldOf v 31 31 = 1)
    (hop : fieldOf v 3 0 = 1) (hrsv : (fieldOf v 30 11 ≠ 0 || fieldOf v 7 4 ≠ 0) = false) (hidx : fieldOf v 10 8 = 0) :
    s.sliceCmdWrite (.pf0 p) n v = (s.wr (Reg.HOST_S_CMD n) 1).resetStart n := by
  have hstat : Reg.HOST_S_STAT n ≠ Reg.HOST_S_CMD n := by simp [Reg.HOST_S_STAT, Reg.HOST_S_CMD]
  have hstate' : (s.wr (Reg.HOST_S_CMD n) 1).sliceState n ≤ 6 := by
    rw [State.sliceState, State.rf, State.rd_wr_other _ _ hstat]
    exact hstate
  have hst : (s.wr (Reg.HOST_S_CMD n) (v &&& 0x70F)).sliceStatus (.pf0 p) n (fieldOf v 3 0) (fieldOf v 10 8)
      (fieldOf v 30 11 ≠ 0 || fieldOf v 7 4 ≠ 0) = 0 := by
    rw [hlow, hop, hidx, hrsv, State.sliceStatus_reset hstate']
  rw [State.sliceCmdWrite_go (by rw [hgo]; exact one_ne_zero) hst, State.sliceIssue_reset _ n _ hop, hlow]

theorem exec_sliceReset (hs : s.hasSlice n = true) (hstate : s.sliceState n ≤ 6) :
    exec (.sliceReset (.pf0 p) n 0x80000001) s = .next ((s.wr (Reg.HOST_S_CMD n) 1).resetStart n) := by
  have hgate : ∀ v, s.gated (.pf0 p) n (fun s => s.sliceCmdWrite (.pf0 p) n v) = s.sliceCmdWrite (.pf0 p) n v := fun _ => if_pos hs
  refine congrArg Host.Outcome.next ((hgate _).trans (State.sliceCmdWrite_reset hstate ?_ ?_ ?_ ?_ ?_)) <;> decide

/-- The command word of a slice changes nothing that its reset reads. -/
theorem State.sliceCmd_reads (s : State) (v : Word) (hn : n < 4) : (s.wr (Reg.HOST_S_CMD n) v).sliceRows n = s.sliceRows n ∧
    (∀ l, (s.wr (Reg.HOST_S_CMD n) v).rowState l = s.rowState l) ∧ (s.wr (Reg.HOST_S_CMD n) v).ownerOf = s.ownerOf := by
  have hpart : ∀ a < 0x300000, (s.wr (Reg.HOST_S_CMD n) v).rd a = s.rd a := fun a ha =>
    State.rd_wr_other _ _ (by simp only [Reg.HOST_S_CMD]; omega)
  refine ⟨?_, fun l => State.rowState_of_rd (State.rd_wr_other _ _ ?_), State.ownerOf_congr hpart⟩
  · have hslice : ∀ l, (s.wr (Reg.HOST_S_CMD n) v).rowSlice l = s.rowSlice l := fun l => by
      simp only [State.rowSlice, State.sliceOfDie, State.sliceCount, State.rf, hpart Reg.GLB_STATUS (by decide)]
    exact List.filter_congr fun l _ => by rw [hslice]
  · simp only [Reg.NDL_ROW, Reg.HOST_S_CMD]
    omega

end

/-- Settles O22: SAVE and RESTORE through the command in progress on their one row; the reset of a slice as its parts, each of which
leaves alone what the others clear (`Aside`). -/
theorem rowImages : Obligations.RowImages := by
  unfold Obligations.RowImages
  refine ⟨fun s p n l hn hs hst hmask => ?_, fun s p n l hn hs hmask _ => ?_, fun s p n hn hs hstate => ?_⟩
  case refine_1 =>
    obtain ⟨t, hexec, hmove, hmem, htags, hstat, hcmd⟩ := rowSave_moves s p n l hn hs hst hmask
    have hl := List.mem_singleton_self l
    exact ⟨t, hexec, hmove.rowState hl, hmove.row l hl, hmove.otherRows (setRegs_lt (hn.trans (by decide))), hmem, htags, hstat, hcmd⟩
  case refine_2 =>
    intro u st
    have hexec := exec_rowRow (s := s) (p := p) (op := 6) hn hs (by decide) (by decide)
    rw [State.ndlCmdWrite_go s n (by decide), hmask] at hexec
    by_cases hst : st.1 = 0
    · refine ⟨u.rowIssue n 6 [l], hexec.trans (congrArg _ (if_neg (not_not.mpr hst))), fun hne => absurd hst hne, fun _ => ?_⟩
      obtain ⟨hmove, hmem, hstat⟩ := rowRestore_moves s n l hn hmask (t := u.rowIssue n 6 [l]) rfl
      generalize u.rowIssue n 6 [l] = t at *
      have hl := List.mem_singleton_self l
      have hrow := hmove.row l hl
      obtain ⟨_, hrestored⟩ := Row.restored_eq (s.le (s.ctxSlot n l + 12) 4) (s.ctxNeedle (s.ctxSlot n l)) { s.row l with owner := some n }
      refine ⟨hmove.rowState hl, by rw [hrow, hrestored], by rw [hrow, hrestored], by rw [hrow], fun i hi => ?_,
        hmove.otherRows (setRegs_lt (hn.trans (by decide))), hmem, hstat⟩
      rw [State.needle_eq, hrow, Row.needle_setOwner, Row.needle_restored _ _ _ (List.mem_range.mp hi)]
    · exact ⟨_, hexec.trans (congrArg _ (if_pos hst)), fun _ => rfl, fun h => absurd h hst⟩
  case refine_3 =>
    obtain ⟨hrows, hrowState, howner⟩ := s.sliceCmd_reads 1 hn
    obtain ⟨hslice, hbusy, hrow, hjob, hcolls, hmem, htags⟩ := State.resetStart_clears (s := s.wr (Reg.HOST_S_CMD n) 1) hn rfl
    refine ⟨_, exec_sliceReset hs hstate, hslice, hbusy, fun l hl => ?_, hjob, hcolls, ?_, ?_⟩
    · have h := hrow l (hrows ▸ hl)
      rw [hrowState] at h
      exact h
    · rw [hmem, howner]
      rfl
    · rw [htags, howner]
      rfl

end Sys2Proof.Machine
end

section
/-! PROOFS. Instructions of one needle (file 06): what the answer of an instruction makes of the machine, once, for O24 to O31. -/

namespace Sys2Proof.Machine

section
variable {s : State} {l i w : Nat} {mn : Mn} {ecc : Ecc}

/-! ### The answer of an instruction (R330, R390) -/

/-- The needle as every instruction but REP finds it: the iteration at which RTT has resumed a pair is dropped (R349). -/
def Needle.fresh (n : Needle) : Needle := { n with resumeAt := none }

/-- The machine once needle `n` of row `l` has executed an instruction that gave the answer: it goes on `step` bytes further, or where
the answer says for `step` 0. -/
def State.answered (s : State) (l i : Nat) (n : Needle) (step : Nat) : NRes → State
  | .ok s' n' => s'.setNeedle l i { n' with pc := if step = 0 then n'.pc else n.pc + step }
  | .okTrap s' n' cause addr => s'.needleTrap l i { n' with pc := n.pc + 4 } cause addr 0 false true (n.pc + 4) n.pc
  | .trap cause addr => s.needleTrap l i n cause addr 0 false false n.pc n.pc

/-- The mnemonics that `dataOp` executes whole, after which the needle stands at the next word. -/
def Mn.isData : Mn → Bool
  | .rep | .repn | .bCc | .call | .ret | .br | .rtt | .rttNext | .trap | .endRow | .waitb | .waitt => false
  | .safe | .vxch | .mld | .mma | .mclr | .mst => false
  | _ => true

/-- The mnemonics that say themselves where the needle goes on (R339 to R344, R390, R394). -/
def Mn.isTransfer : Mn → Bool
  | .bCc | .call | .ret | .br | .rtt | .rttNext | .trap => true
  | _ => false

/-- The answer of a transfer of control. -/
def transferOp (mn : Mn) (c : Ctx) (w : Nat) (s : State) (n : Needle) : NRes :=
  match mn with
  | .bCc =>
    if ccHolds n (bitsOf w 25 22) then jumpTo c (unsigned 64 ((n.pc : Int) + 4 * signed 22 (bitsOf w 21 0))) s n
    else .ok s { n with pc := n.pc + 4 }
  | .call => opCall c w s n
  | .ret => opRet c s n
  | .br => trapIf (!inCode c.m (n.gv (fA w))) 0x02 (n.gv (fA w)) (trapIf (n.gp (fA w)) 0x09 0 (jumpTo c (n.gv (fA w)) s n))
  | .rtt => opRtt c false s n
  | .rttNext => opRtt c true s n
  | _ => .okTrap s n (fX w) 0

/-- Where needle `i` of row `l` executes an instruction that stands by itself. -/
def State.ctxOf (s : State) (l i : Nat) : Ctx := ⟨l, i, (s.row l).prog, 1⟩

section
variable {n : Needle} (hlegal : legal (s.row l).prog (s.rowKind l) n.hm mn w = true)
include hlegal

theorem State.needleExec_data (hmn : mn.isData = true) : s.needleExec l i n mn w ecc =
    s.answered l i n.fresh 4 (dataOp mn (s.ctxOf l i) ecc w s n.fresh) := by
  cases mn <;> simp only [Mn.isData, Bool.false_eq_true] at hmn
  all_goals
    simp only [State.needleExec, reduceCtorEq, if_false, hlegal, isCollective, Bool.not_true, Bool.false_eq_true]
    rfl

theorem State.needleExec_transfer (hmn : mn.isTransfer = true) : s.needleExec l i n mn w ecc =
    s.answered l i n.fresh 0 (transferOp mn (s.ctxOf l i) w s n.fresh) := by
  cases mn <;> simp only [Mn.isTransfer, Bool.false_eq_true] at hmn
  all_goals
    simp only [State.needleExec, reduceCtorEq, if_false, hlegal, isCollective, Bool.not_true, Bool.false_eq_true]
    rfl

end

section
variable (h : standsAt s l i w mn = true) {u : State} {m : Needle} {cause addr pc : Nat}
include h

theorem exec_data (hmn : mn.isData = true) : exec (needleInstr mn l i ecc) s =
    .next ((counted s ecc).answered l i (s.needle l i).fresh 4 (dataOp mn (s.ctxOf l i) ecc w (counted s ecc) (s.needle l i).fresh)) :=
  (exec_of_standsAt h).trans (congrArg _ (State.needleExec_data (s := counted s ecc) (standsAt_iff.mp h).2 hmn))

theorem exec_transfer (hmn : mn.isTransfer = true) : exec (needleInstr mn l i ecc) s =
    .next ((counted s ecc).answered l i (s.needle l i).fresh 0 (transferOp mn (s.ctxOf l i) w (counted s ecc) (s.needle l i).fresh)) :=
  (exec_of_standsAt h).trans (congrArg _ (State.needleExec_transfer (s := counted s ecc) (standsAt_iff.mp h).2 hmn))

theorem exec_data_ok (hmn : mn.isData = true)
    (hop : dataOp mn (s.ctxOf l i) ecc w (counted s ecc) (s.needle l i).fresh = .ok u m.fresh) :
    exec (needleInstr mn l i ecc) s = .next (goesTo u l i m ((s.needle l i).pc + 4)) := by
  rw [exec_data h hmn, hop]
  rfl

theorem exec_data_trap (hmn : mn.isData = true)
    (hop : dataOp mn (s.ctxOf l i) ecc w (counted s ecc) (s.needle l i).fresh = .trap cause addr) :
    exec (needleInstr mn l i ecc) s = .next (trapsAt (counted s ecc) l i cause addr) := by
  rw [exec_data h hmn, hop]
  rfl

theorem exec_transfer_ok (hmn : mn.isTransfer = true)
    (hop : transferOp mn (s.ctxOf l i) w (counted s ecc) (s.needle l i).fresh = .ok u { m.fresh with pc := pc }) :
    exec (needleInstr mn l i ecc) s = .next (goesTo u l i m pc) := by
  rw [exec_transfer h hmn, hop]
  rfl

theorem exec_transfer_trap (hmn : mn.isTransfer = true)
    (hop : transferOp mn (s.ctxOf l i) w (counted s ecc) (s.needle l i).fresh = .trap cause addr) :
    exec (needleInstr mn l i ecc) s = .next (trapsAt (counted s ecc) l i cause addr) := by
  rw [exec_transfer h hmn, hop]
  rfl

end

end
end Sys2Proof.Machine
end

section
/-! PROOFS. The ALU and the immediate instructions (O24): each function of the model gives the value and the flags of R337 and R338. -/

namespace Sys2Proof.Machine

section
variable {s : State} {l i w : Nat} {mn : Mn} {ecc : Ecc} {n : Needle}

/-! ### Values and flags (R337, R338) -/

theorem aluSpec_shl (a b : Nat) : aluSpec .aluShl a b = ((shift64 0 a (b % 64)).1, some ((shift64 0 a (b % 64)).2, false)) := by
  by_cases h : b % 64 = 0 <;> simp [aluSpec, shift64, h, Nat.shiftLeft_eq]

theorem aluSpec_shr (a b : Nat) : aluSpec .aluShr a b = ((shift64 1 a (b % 64)).1, some ((shift64 1 a (b % 64)).2, false)) := by
  by_cases h : b % 64 = 0 <;> simp [aluSpec, shift64, h, Nat.shiftRight_eq_div_pow]

theorem aluSpec_sar (a b : Nat) : aluSpec .aluSar a b = ((shift64 2 a (b % 64)).1, some ((shift64 2 a (b % 64)).2, false)) := by
  by_cases h : b % 64 = 0 <;> simp [aluSpec, shift64, h]

theorem popCount_eq (k a : Nat) : popCount k a = ((List.range k).filter (bitOf a)).length := by
  induction k generalizing a with
  | zero => rfl
  | succ k ih =>
    have hbit : ∀ j, bitOf a (j + 1) = bitOf (a / 2) j := fun j => by
      rw [bitOf, bitOf, Nat.shiftRight_eq_div_pow, Nat.shiftRight_eq_div_pow, Nat.pow_succ', Nat.div_div_eq_div_mul]
    rw [popCount, ih, List.range_succ_eq_map, List.filter_cons, List.filter_map, Function.comp_def]
    simp only [Nat.succ_eq_add_one, hbit]
    have hzero : bitOf a 0 = (a % 2 == 1) := rfl
    rcases Nat.mod_two_eq_zero_or_one a with h | h <;> simp [hzero, h, Nat.add_comm]

theorem bitsOf_15_0_mod (w : Nat) : bitsOf w 15 0 % 64 = bitsOf w 5 0 := by
  simp only [bitsOf]
  omega

/-- What an ALU instruction leaves of its needle: the result with its poison, and the flags. -/
def Needle.aluResult (n : Needle) (w : Nat) (r : Nat × Option (Bool × Bool)) (pz : Bool) : Needle :=
  aluFlags ((n.mark pz).setG (fD w) r.1 pz) r

theorem opAlu_two (hmn : mn ∈ aluTwo) : opAlu mn w s n =
    .ok s (n.aluResult w (aluSpec mn (n.gv (fA w)) (n.gv (fB w))) (n.gp (fA w) || n.gp (fB w))) := by
  have hshl : opAlu .aluShl w s n = .ok s (n.aluResult w (aluSpec .aluShl (n.gv (fA w)) (n.gv (fB w))) (n.gp (fA w) || n.gp (fB w))) := by
    rw [aluSpec_shl]
    rfl
  have hshr : opAlu .aluShr w s n = .ok s (n.aluResult w (aluSpec .aluShr (n.gv (fA w)) (n.gv (fB w))) (n.gp (fA w) || n.gp (fB w))) := by
    rw [aluSpec_shr]
    rfl
  have hsar : opAlu .aluSar w s n = .ok s (n.aluResult w (aluSpec .aluSar (n.gv (fA w)) (n.gv (fB w))) (n.gp (fA w) || n.gp (fB w))) := by
    rw [aluSpec_sar]
    rfl
  simp only [aluTwo, List.mem_cons, List.not_mem_nil, or_false] at hmn
  rcases hmn with rfl | rfl | rfl | rfl | rfl | rfl | rfl | rfl | rfl | rfl | rfl | rfl | rfl | rfl | rfl
  exacts [rfl, rfl, rfl, rfl, rfl, hshl, hshr, hsar, rfl, rfl, rfl, rfl, rfl, rfl, rfl]

theorem opAlu_one (hmn : mn = .mov ∨ mn = .popc ∨ mn = .clz) : opAlu mn w s n =
    .ok s (n.aluResult w (aluSpec mn (n.gv (fA w)) 0) (n.gp (fA w))) := by
  rcases hmn with rfl | rfl | rfl
  · rfl
  · simp only [opAlu, popCount_eq]
    rfl
  · have hclz : 64 - (if n.gv (fA w) = 0 then 0 else Nat.log2 (n.gv (fA w)) + 1) =
        if n.gv (fA w) = 0 then 64 else 63 - Nat.log2 (n.gv (fA w)) := by
      split <;> omega
    simp only [opAlu, hclz]
    rfl

/-- The immediate instructions and their ALU functions (R330). -/
def immFns : List (Mn × Mn) :=
  [(.addi, .aluAdd), (.andi, .aluAnd), (.ori, .aluOr), (.xori, .aluXor), (.shli, .aluShl), (.shri, .aluShr), (.sari, .aluSar)]

/-- The immediate operand: sign-extended for ADDI (R330). -/
def immOperand (im : Mn) (w : Nat) : Nat := if im = .addi then unsigned 64 (signed 16 (bitsOf w 15 0)) else bitsOf w 15 0

theorem opImm_fn {im fn : Mn} (him : (im, fn) ∈ immFns) : opImm im w s n =
    .ok s (n.aluResult w (aluSpec fn (n.gv (fA w)) (immOperand im w)) (n.gp (fA w))) := by
  have hshl : opImm .shli w s n = .ok s (n.aluResult w (aluSpec .aluShl (n.gv (fA w)) (bitsOf w 15 0)) (n.gp (fA w))) := by
    rw [aluSpec_shl, bitsOf_15_0_mod]
    rfl
  have hshr : opImm .shri w s n = .ok s (n.aluResult w (aluSpec .aluShr (n.gv (fA w)) (bitsOf w 15 0)) (n.gp (fA w))) := by
    rw [aluSpec_shr, bitsOf_15_0_mod]
    rfl
  have hsar : opImm .sari w s n = .ok s (n.aluResult w (aluSpec .aluSar (n.gv (fA w)) (bitsOf w 15 0)) (n.gp (fA w))) := by
    rw [aluSpec_sar, bitsOf_15_0_mod]
    rfl
  simp only [immFns, List.mem_cons, Prod.mk.injEq, List.not_mem_nil, or_false] at him
  rcases him with ⟨rfl, rfl⟩ | ⟨rfl, rfl⟩ | ⟨rfl, rfl⟩ | ⟨rfl, rfl⟩ | ⟨rfl, rfl⟩ | ⟨rfl, rfl⟩ | ⟨rfl, rfl⟩
  exacts [rfl, rfl, rfl, rfl, hshl, hshr, hsar]

/-! ### Which operation executes a mnemonic -/

theorem dataOp_alu (hmn : mn ∈ aluTwo ∨ mn = .mov ∨ mn = .popc ∨ mn = .clz) (c : Ctx) :
    mn.isData = true ∧ dataOp mn c ecc w s n = opAlu mn w s n := by
  simp only [aluTwo, List.mem_cons, List.not_mem_nil, or_false] at hmn
  rcases hmn with (rfl | rfl | rfl | rfl | rfl | rfl | rfl | rfl | rfl | rfl | rfl | rfl | rfl | rfl | rfl) | rfl | rfl | rfl
  all_goals exact ⟨rfl, rfl⟩

theorem dataOp_imm {im fn : Mn} (him : (im, fn) ∈ immFns) (c : Ctx) : im.isData = true ∧ dataOp im c ecc w s n = opImm im w s n := by
  simp only [immFns, List.mem_cons, Prod.mk.injEq, List.not_mem_nil, or_false] at him
  rcases him with ⟨rfl, rfl⟩ | ⟨rfl, rfl⟩ | ⟨rfl, rfl⟩ | ⟨rfl, rfl⟩ | ⟨rfl, rfl⟩ | ⟨rfl, rfl⟩ | ⟨rfl, rfl⟩
  all_goals exact ⟨rfl, rfl⟩

end

/-- Settles O24: each instruction is an ALU function of its operands, whose value and flags are those of the specification. -/
theorem aluInstructions : Obligations.AluInstructions := by
  refine ⟨?two, ?one, ?cmp, ?cmpi, ?imm, ?movz, ?movk⟩
  case two =>
    intro s l i w ecc mn hmn h n r pz
    obtain ⟨hdata, hop⟩ := dataOp_alu (.inl hmn) (s.ctxOf l i)
    exact exec_data_ok h hdata (hop.trans (opAlu_two hmn))
  case one =>
    intro s l i w ecc mn hmn h n r pz
    obtain ⟨hdata, hop⟩ := dataOp_alu (.inr hmn) (s.ctxOf l i)
    exact exec_data_ok h hdata (hop.trans (opAlu_one hmn))
  case cmp =>
    intro s l i w ecc h n
    exact exec_data_ok h rfl rfl
  case cmpi =>
    intro s l i w ecc h n
    exact exec_data_ok h rfl rfl
  case imm =>
    intro s l i w ecc im fn him h n b r pz
    obtain ⟨hdata, hop⟩ := dataOp_imm him (s.ctxOf l i)
    exact exec_data_ok h hdata (hop.trans (opImm_fn him))
  case movz =>
    intro s l i w ecc h
    rw [← Nat.shiftLeft_eq]
    exact exec_data_ok h rfl rfl
  case movk =>
    intro s l i w ecc h n k r
    exact exec_data_ok h rfl rfl

end Sys2Proof.Machine
end

section
/-! PROOFS. Writes of ply elements (R335, R356): what a write to every lane leaves in the p registers, for the loads of O25 and O31. -/

namespace Sys2Proof.Machine

section
variable {n m : Needle} {d k : Nat} {el : Nat → List Nat}

/-! ### One element -/

/-- The p registers after the write of a ply element. -/
def storePly (p : SMap Nat) (r j : Nat) (ws : List Nat) : SMap Nat :=
  ((List.range ws.length).zip ws).foldl (fun p e => store 0 p (8 * (r + e.1) + j) (e.2 % 2 ^ 64)) p

theorem Needle.setPly_eq (n : Needle) (r j : Nat) (ws : List Nat) : n.setPly r j ws = { n with p := storePly n.p r j ws } := by
  unfold Needle.setPly storePly
  induction (List.range ws.length).zip ws generalizing n with
  | nil => rfl
  | cons e es ih => exact ih _

theorem storePly_concat (p : SMap Nat) (r j : Nat) (ws : List Nat) (x : Nat) :
    storePly p r j (ws ++ [x]) = store 0 (storePly p r j ws) (8 * (r + ws.length) + j) (x % 2 ^ 64) := by
  have hzip : (List.range (ws ++ [x]).length).zip (ws ++ [x]) = (List.range ws.length).zip ws ++ [(ws.length, x)] := by
    rw [List.length_append, List.length_singleton, List.range_succ, List.zip_append List.length_range]
    rfl
  rw [storePly, hzip, List.foldl_append]
  rfl

/-- A register's lane after the write of an element: the element's word, or what it held. -/
theorem fetch_storePly (p : SMap Nat) (d : Nat) {e j : Nat} (he : e < 8) (hj : j < 8) (ws : List Nat) (r : Nat) :
    fetch 0 (storePly p d e ws) (8 * r + j) =
      if j = e ∧ d ≤ r ∧ r < d + ws.length then ws.getD (r - d) 0 % 2 ^ 64 else fetch 0 p (8 * r + j) := by
  induction ws using List.reverseRecOn with
  | nil => exact (if_neg (by simp)).symm
  | append_singleton ws x ih =>
    rw [storePly_concat, fetch_store, ih, List.length_append, List.length_singleton]
    by_cases hlast : j = e ∧ r = d + ws.length
    · obtain ⟨rfl, rfl⟩ := hlast
      simp
    · rw [if_neg (by omega)]
      by_cases hin : j = e ∧ d ≤ r ∧ r < d + ws.length
      · rw [if_pos hin, if_pos (by omega), List.getD_append _ _ _ _ (by omega)]
      · rw [if_neg hin, if_neg (by omega)]

/-! ### An element in every lane of the list -/

/-- The p registers after the writes of the elements `el e`, for the lanes `e` of `es`. -/
def storePlies (p : SMap Nat) (d : Nat) (el : Nat → List Nat) (es : List Nat) : SMap Nat :=
  es.foldl (fun p e => storePly p d e (el e)) p

theorem Needle.foldl_setPly_mark (n : Needle) (d : Nat) (el : Nat → List Nat) (b : Nat → Bool) (es : List Nat) :
    es.foldl (fun n e => (n.setPly d e (el e)).mark (b e)) n =
      { n with p := storePlies n.p d el es, pf := n.pf || es.any b } := by
  induction es generalizing n with
  | nil => simp [storePlies]
  | cons e es ih =>
    rw [List.foldl_cons, ih, Needle.setPly_eq]
    simp [Needle.mark, storePlies, Bool.or_assoc]

theorem Needle.foldl_setPly (n : Needle) (d : Nat) (el : Nat → List Nat) (es : List Nat) :
    es.foldl (fun n e => n.setPly d e (el e)) n = { n with p := storePlies n.p d el es } := by
  induction es generalizing n with
  | nil => rfl
  | cons e es ih =>
    rw [List.foldl_cons, ih, Needle.setPly_eq]
    rfl

theorem fetch_storePlies (p : SMap Nat) (d : Nat) {k j : Nat} (hj : j < 8) {es : List Nat} (hes : ∀ e ∈ es, e < 8)
    (hlen : ∀ e ∈ es, (el e).length = k) (r : Nat) : fetch 0 (storePlies p d el es) (8 * r + j) =
      if j ∈ es ∧ d ≤ r ∧ r < d + k then (el j).getD (r - d) 0 % 2 ^ 64 else fetch 0 p (8 * r + j) := by
  induction es generalizing p with
  | nil => simp [storePlies]
  | cons e es ih =>
    obtain ⟨he, hes⟩ := List.forall_mem_cons.mp hes
    obtain ⟨hlen_e, hlen⟩ := List.forall_mem_cons.mp hlen
    have htail := ih (storePly p d e (el e)) hes hlen
    rw [fetch_storePly p d he hj, hlen_e] at htail
    refine htail.trans ?_
    by_cases hin : d ≤ r ∧ r < d + k
    · by_cases hje : j = e
      · simp [hin, hje]
      · simp [hin, hje]
    · simp [hin]

section
variable (hm : m.p = storePlies n.p d el (List.range 8)) (hlen : ∀ e < 8, (el e).length = k)
include hm hlen

theorem Needle.pv_of_storePlies {j : Nat} (hj : j < 8) (r : Nat) :
    m.pv r j = if d ≤ r ∧ r < d + k then (el j).getD (r - d) 0 % 2 ^ 64 else n.pv r j := by
  have h := fetch_storePlies n.p d (el := el) (k := k) hj (fun e he => List.mem_range.mp he) (fun e he => hlen e (List.mem_range.mp he)) r
  simp only [List.mem_range, hj, true_and] at h
  rw [Needle.pv, hm, h]
  rfl

theorem Needle.plyEl_of_storePlies {e : Nat} (he : e < 8) : m.plyEl d k e = (el e).map (fun x => x % 2 ^ 64) := by
  refine List.ext_getElem (by simp [Needle.plyEl, hlen e he]) fun j hj hj' => ?_
  have hjk : j < k := by simpa [Needle.plyEl] using hj
  have hel : j < (el e).length := (hlen e he).symm ▸ hjk
  simp [Needle.plyEl, Needle.pv_of_storePlies hm hlen he, hjk, List.getElem?_eq_getElem hel]

theorem Needle.pv_other_of_storePlies {r j : Nat} (hj : j < 8) : d ≤ r ∧ r < d + k ∨ m.pv r j = n.pv r j := by
  by_cases hin : d ≤ r ∧ r < d + k
  · exact .inl hin
  · exact .inr ((Needle.pv_of_storePlies hm hlen hj r).trans (if_neg hin))

end

end
end Sys2Proof.Machine
end

section
/-! PROOFS. Loads, stores, CHKB, SSET and SGET (O25): one lemma for the checks of an access, then what each instruction moves. -/

namespace Sys2Proof.Machine

section
variable {s u : State} {l i w sp o z al : Nat} {st : Bool} {mn : Mn} {ecc : Ecc} {n m : Needle} {f : NAddr → NRes}

@[simp] theorem Needle.gv_fresh (n : Needle) (r : Nat) : n.fresh.gv r = n.gv r := rfl
@[simp] theorem Needle.gp_fresh (n : Needle) (r : Nat) : n.fresh.gp r = n.gp r := rfl
@[simp] theorem Needle.sv_fresh (n : Needle) (r : Nat) : n.fresh.sv r = n.sv r := rfl

@[simp] theorem needle_goesTo (u : State) (l i : Nat) (n : Needle) (pc : Nat) :
    (goesTo u l i n pc).needle l i = { n.fresh with pc := pc } := State.needle_setNeedle_same ..

/-- What a needle holds in its p registers once an instruction has written an element into each lane of `k` of them, from `d` on. -/
theorem plies_goesTo {n q : Needle} {d k : Nat} {el : Nat → List Nat} (u : State) (l i pc : Nat)
    (hq : q.p = storePlies n.p d el (List.range 8)) (hlen : ∀ e < 8, (el e).length = k) : let m := (goesTo u l i q pc).needle l i
    (∀ e ∈ List.range 8, m.plyEl d k e = (el e).map (fun x => x % 2 ^ 64)) ∧
    (∀ r ∈ List.range 8, ∀ j ∈ List.range 8, d ≤ r ∧ r < d + k ∨ m.pv r j = n.pv r j) ∧ m.p = q.p ∧ m.pf = q.pf := by
  rw [needle_goesTo]
  exact ⟨fun e he => Needle.plyEl_of_storePlies hq hlen (List.mem_range.mp he),
    fun r _ j hj => Needle.pv_other_of_storePlies hq hlen (List.mem_range.mp hj), rfl, rfl⟩

theorem any_congr_of_mem {es : List Nat} {p q : Nat → Bool} (h : ∀ e ∈ es, p e = q e) : es.any p = es.any q := by
  rw [Bool.eq_iff_iff, List.any_eq_true, List.any_eq_true]
  exact exists_congr fun e => and_congr_right fun he => by rw [h e he]

/-! ### The checks of an access (R334, R335, R340) -/

/-- An access of `z` bytes at offset `o` and what the instruction does with the place that it names. -/
def accessing (s : State) (d : Nat) (n : Needle) (w o z al : Nat) (st : Bool) (f : NAddr → NRes) : NRes :=
  trapIf (n.gp (bitsOf w 16 12)) 0x09 0 <|
  match s.nAddr d n (bitsOf w 20 17) o z al st with
  | .bad cause addr => .trap cause addr
  | a => f a

/-- An access traps as the specification says, or names the place that it says. -/
theorem accessing_eq (u : State) (l i w o z al : Nat) (st : Bool) (f : NAddr → NRes) :
    accessing u (rowDie l) (u.needle l i).fresh w o z al st f = (match accessTrap u l i w (bitsOf w 20 17) o z al st with
      | some x => .trap x.1 x.2
      | none => f (accessAddr (u.needle l i) (bitsOf w 20 17) o z)) := by
  unfold accessing accessTrap State.nAddr accessAddr trapIf
  simp only [Needle.gp_fresh, Needle.sv_fresh]
  by_cases hgp : (u.needle l i).gp (bitsOf w 16 12) = true
  · simp [hgp]
  by_cases hal : o % al ≠ 0
  · simp [hgp, hal]
  by_cases hsp : bitsOf w 20 17 = 8
  · by_cases hlim : o + z ≤ 98304 <;> simp [hgp, hal, hsp, hlim]
  rcases hseg : segAddr ((u.needle l i).sv (bitsOf w 20 17)) o z with _ | a
  · simp [hgp, hal, hsp]
  by_cases hreach : u.segReach (rowDie l) a z = true
  · by_cases hwr : (st && !segWr ((u.needle l i).sv (bitsOf w 20 17))) = true <;> simp [hgp, hal, hsp, hreach, hwr]
  · simp [hgp, hal, hsp, hreach]

theorem accessing_trap {x : Nat × Nat} (h : accessTrap u l i w (bitsOf w 20 17) o z al st = some x) :
    accessing u (rowDie l) (u.needle l i).fresh w o z al st f = .trap x.1 x.2 := by
  rw [accessing_eq, h]

theorem accessing_ok (h : accessTrap u l i w (bitsOf w 20 17) o z al st = none) :
    accessing u (rowDie l) (u.needle l i).fresh w o z al st f = f (accessAddr (u.needle l i) (bitsOf w 20 17) o z) := by
  rw [accessing_eq, h]

theorem memOff_ctxOf (s : State) (l i w z : Nat) (n : Needle) : memOff (s.ctxOf l i) w z n.fresh = memOffset n w z := by
  simp [memOff, memOffset, State.ctxOf]

/-! ### What an access reads and writes -/

theorem markUe_accessAddr (n : Needle) (sp o z : Nat) (ecc : Ecc) :
    n.fresh.markUe (accessAddr n sp o z) z ecc.ue = (accessUe n sp o z ecc).fresh := by
  unfold accessAddr accessUe
  split <;> rfl

theorem accessUe_fields (n : Needle) (sp o z : Nat) (ecc : Ecc) :
    ∃ tags, accessUe n sp o z ecc = { n with scratchTags := tags } := by
  unfold accessUe
  split
  · exact ⟨_, rfl⟩
  · exact ⟨n.scratchTags, rfl⟩

theorem accessBytes_eq (s : State) (n : Needle) (sp o z : Nat) (ecc : Ecc) :
    (s.nBytes (accessUe n sp o z ecc).fresh (accessAddr n sp o z) z, s.nTags (accessUe n sp o z ecc).fresh (accessAddr n sp o z) z) =
      accessBytes s (accessUe n sp o z ecc) sp o z := by
  obtain ⟨tags, htags⟩ := accessUe_fields n sp o z ecc
  rw [htags]
  unfold accessAddr accessBytes
  split <;> rfl

theorem nStoreWords_fresh (s : State) (n : Needle) (a : NAddr) (ws : List (Nat × Bool)) :
    nStoreWords s n.fresh a ws = ((nStoreWords s n a ws).1, (nStoreWords s n a ws).2.fresh) := by
  induction ws generalizing s n a with
  | nil => rfl
  | cons x ws ih =>
    have hstep : nStore s n.fresh a (leBytes 8 x.1) x.2 =
        ((nStore s n a (leBytes 8 x.1) x.2).1, (nStore s n a (leBytes 8 x.1) x.2).2.fresh) := by cases a <;> rfl
    rw [nStoreWords, hstep]
    exact ih _ _ _

/-! ### Loads and stores of bytes and v registers -/

/-- What a load does with the place it reads. -/
def loadFrom (mn : Mn) (ecc : Ecc) (w z : Nat) (s : State) (n : Needle) (a : NAddr) : NRes :=
  let m := n.markUe a z ecc.ue
  let t := s.nTags m a z
  .ok s (if mn = .vld then (m.mark (t.any id)).setV (fD w) (leNat (s.nBytes m a z)) (tagMask t)
    else (m.mark (t.any id)).setG (fD w) (leNat (s.nBytes m a z)) (t.any id))

/-- What a store does with the place it writes. -/
def storeTo (mn : Mn) (w z : Nat) (s : State) (n : Needle) (a : NAddr) : NRes :=
  let x :=
    if mn = .vst then nStoreWords s (n.mark (n.vp (fD w) ≠ 0)) a
      ((List.range 4).map (fun q => (bitsOf (n.vv (fD w)) (64 * q + 63) (64 * q), bitOf (n.vp (fD w)) q)))
    else nStore s (n.mark (n.gp (fD w))) a (leBytes z (n.gv (fD w))) (n.gp (fD w))
  .ok x.1 x.2

/-- What PLD does with the place it reads. -/
def pldFrom (ecc : Ecc) (w : Nat) (s : State) (n : Needle) (a : NAddr) : NRes :=
  let k := bitsOf w 25 24
  let d := bitsOf w 23 21
  trapIf (!plyOperand d k) 0x0D 0 <|
  let m := n.markUe a (64 * k) ecc.ue
  let ws := wordsLe (8 * k) (s.nBytes m a (64 * k))
  let ts := s.nTags m a (64 * k)
  .ok s ((List.range 8).foldl (fun n e =>
    let el := if ((ts.drop (k * e)).take k).any id then specialWords k spPoison else (ws.drop (k * e)).take k
    (n.setPly d e el).mark (elPoison el)) m)

/-- What PST does with the place it writes. -/
def pstTo (w : Nat) (s : State) (n : Needle) (a : NAddr) : NRes :=
  let k := bitsOf w 25 24
  let d := bitsOf w 23 21
  trapIf (!plyOperand d k) 0x0D 0 <|
  let els := (List.range 8).map (fun e => n.plyEl d k e)
  let x := nStoreWords s (n.mark (els.any elPoison)) a (els.flatten.map (fun x => (x, false)))
  .ok x.1 x.2

/-- The loads and stores of bytes and v registers: their size, and whether they store. -/
def accessForms : List (Mn × Nat × Bool) :=
  [(.ldb, 1, false), (.ldh, 2, false), (.ldw, 4, false), (.ldd, 8, false), (.vld, 32, false),
   (.stb, 1, true), (.sth, 2, true), (.stw, 4, true), (.std, 8, true), (.vst, 32, true)]

theorem dataOp_access (h : (mn, z, st) ∈ accessForms) (s u : State) (l i : Nat) (n : Needle) : mn.isData = true ∧
    dataOp mn (s.ctxOf l i) ecc w u n.fresh = accessing u (rowDie l) n.fresh w (memOffset n w z) z z st
      (if st then storeTo mn w z u n.fresh else loadFrom mn ecc w z u n.fresh) := by
  rw [← memOff_ctxOf s l i]
  simp only [accessForms, List.mem_cons, Prod.mk.injEq, List.not_mem_nil, or_false] at h
  rcases h with ⟨rfl, rfl, rfl⟩ | ⟨rfl, rfl, rfl⟩ | ⟨rfl, rfl, rfl⟩ | ⟨rfl, rfl, rfl⟩ | ⟨rfl, rfl, rfl⟩ | ⟨rfl, rfl, rfl⟩ |
    ⟨rfl, rfl, rfl⟩ | ⟨rfl, rfl, rfl⟩ | ⟨rfl, rfl, rfl⟩ | ⟨rfl, rfl, rfl⟩
  all_goals exact ⟨rfl, rfl⟩

theorem dataOp_plyAccess (s u : State) (l i : Nat) (n : Needle) (h : (mn, st) ∈ [(Mn.pld, false), (.pst, true)]) : mn.isData = true ∧
    dataOp mn (s.ctxOf l i) ecc w u n.fresh = accessing u (rowDie l) n.fresh w (memOffset n w 16) (64 * bitsOf w 25 24) 16 st
      (if st then pstTo w u n.fresh else pldFrom ecc w u n.fresh) := by
  rw [← memOff_ctxOf s l i]
  simp only [List.mem_cons, Prod.mk.injEq, List.not_mem_nil, or_false] at h
  rcases h with ⟨rfl, rfl⟩ | ⟨rfl, rfl⟩
  all_goals exact ⟨rfl, rfl⟩

/-- What a load leaves of its needle: the bytes, zero-extended, with the poison of their words (R322). -/
def Needle.loaded (m : Needle) (mn : Mn) (w : Nat) (x : List Byte × List Bool) : Needle :=
  if mn = .vld then (m.mark (x.2.any id)).setV (fD w) (leNat x.1) (tagMask x.2)
  else (m.mark (x.2.any id)).setG (fD w) (leNat x.1) (x.2.any id)

theorem loadFrom_accessAddr (n : Needle) : loadFrom mn ecc w z s n.fresh (accessAddr n sp o z) =
    .ok s ((accessUe n sp o z ecc).loaded mn w (accessBytes s (accessUe n sp o z ecc) sp o z)).fresh := by
  rw [loadFrom, markUe_accessAddr, ← accessBytes_eq, Needle.loaded]
  split <;> rfl

/-- What a store of the bytes of a g register leaves (R322). -/
theorem storeTo_accessAddr (hmn : mn ≠ .vst) (n : Needle) : storeTo mn w z s n.fresh (accessAddr n sp o z) =
    if sp = 8 then .ok s (Needle.fresh { n.mark (n.gp (fD w)) with
      scratch := putBytes n.scratch o (leBytes z (n.gv (fD w))), scratchTags := putTags n.scratchTags o z (n.gp (fD w)) })
    else .ok (s.write ((segAddr (n.sv sp) o z).getD 0) (leBytes z (n.gv (fD w))) (n.gp (fD w))) (n.mark (n.gp (fD w))).fresh := by
  rw [storeTo, if_neg hmn, accessAddr]
  split
  · simp only [nStore, length_leBytes]
    rfl
  · rfl

theorem storeTo_vst (n : Needle) (a : NAddr) : storeTo .vst w z s n.fresh a =
    (let x := nStoreWords s (n.mark (n.vp (fD w) ≠ 0)) a
      ((List.range 4).map (fun q => (bitsOf (n.vv (fD w)) (64 * q + 63) (64 * q), bitOf (n.vp (fD w)) q)))
     .ok x.1 x.2.fresh) := by
  rw [storeTo, if_pos rfl]
  exact congrArg (fun x : State × Needle => NRes.ok x.1 x.2) (nStoreWords_fresh s (n.mark (n.vp (fD w) ≠ 0)) a _)

/-! ### Ply elements (R335) -/

theorem length_wordsLe (k : Nat) (bs : List Byte) : (wordsLe k bs).length = k := by
  induction k generalizing bs with
  | zero => rfl
  | succ k ih => exact congrArg (· + 1) (ih _)

theorem wordsLe_lt (k : Nat) (bs : List Byte) : ∀ x ∈ wordsLe k bs, x < 2 ^ 64 := by
  induction k generalizing bs with
  | zero => exact fun x hx => absurd hx List.not_mem_nil
  | succ k ih =>
    refine List.forall_mem_cons.mpr ⟨?_, ih _⟩
    calc leNat (bs.take 8) < 256 ^ (bs.take 8).length := leNat_lt _
      _ ≤ 256 ^ 8 := Nat.pow_le_pow_right (by decide) (List.length_take_le 8 bs)

theorem length_specialWords {k : Nat} (hk : k ≠ 0) (x : Nat) : (specialWords k x).length = k := by
  simp only [specialWords, List.length_append, List.length_replicate, List.length_singleton]
  omega

/-- Words below 2^64 are what a p register holds of them. -/
theorem map_mod_of_lt {ws : List Nat} (h : ∀ x ∈ ws, x < 2 ^ 64) : ws.map (fun x => x % 2 ^ 64) = ws :=
  (List.map_congr_left fun x hx => Nat.mod_eq_of_lt (h x hx)).trans (List.map_id' ws)

/-- The element that PLD reads into lane `e`: POISON if one of its words is marked (R335). -/
def pldEl (k : Nat) (x : List Byte × List Bool) (e : Nat) : List Nat :=
  if ((x.2.drop (k * e)).take k).any id then specialWords k spPoison else ((wordsLe (8 * k) x.1).drop (k * e)).take k

theorem length_pldEl {k e : Nat} (hk : k ≠ 0) (he : e < 8) (x : List Byte × List Bool) : (pldEl k x e).length = k := by
  have hroom : k * e + k ≤ 8 * k := by
    calc k * e + k = k * (e + 1) := (Nat.mul_succ k e).symm
      _ ≤ k * 8 := Nat.mul_le_mul_left k he
      _ = 8 * k := Nat.mul_comm k 8
  unfold pldEl
  split
  · exact length_specialWords hk _
  · rw [List.length_take, List.length_drop, length_wordsLe]
    omega

theorem pldEl_lt (k : Nat) (x : List Byte × List Bool) (e : Nat) : ∀ y ∈ pldEl k x e, y < 2 ^ 64 := by
  unfold pldEl
  split
  · intro y hy
    simp only [specialWords, List.mem_append, List.mem_replicate, List.mem_singleton] at hy
    rcases hy with ⟨-, rfl⟩ | rfl <;> decide
  · exact fun y hy => wordsLe_lt _ _ y (List.mem_of_mem_drop (List.mem_of_mem_take hy))

theorem pldFrom_accessAddr (hply : plyOperand (bitsOf w 23 21) (bitsOf w 25 24) = true) (n : Needle) :
    let k := bitsOf w 25 24
    let m := accessUe n sp o (64 * k) ecc
    let el := pldEl k (accessBytes s m sp o (64 * k))
    pldFrom ecc w s n.fresh (accessAddr n sp o (64 * k)) = .ok s (Needle.fresh { m with
      p := storePlies n.p (bitsOf w 23 21) el (List.range 8), pf := n.pf || (List.range 8).any (fun e => elPoison (el e)) }) := by
  intro k m el
  have hfields : m.p = n.p ∧ m.pf = n.pf := by
    obtain ⟨tags, htags⟩ := accessUe_fields n sp o (64 * k) ecc
    simp [m, htags]
  obtain ⟨hp, hpf⟩ := hfields
  rw [pldFrom, markUe_accessAddr, hply, ← hp, ← hpf]
  refine congrArg (NRes.ok s) ?_
  have hfold := m.fresh.foldl_setPly_mark (bitsOf w 23 21) el (fun e => elPoison (el e)) (List.range 8)
  have hel : pldEl k (s.nBytes m.fresh (accessAddr n sp o (64 * k)) (64 * k), s.nTags m.fresh (accessAddr n sp o (64 * k)) (64 * k)) = el :=
    congrArg (pldEl k) (accessBytes_eq s n sp o (64 * k) ecc)
  refine Eq.trans ?_ hfold
  rw [← hel]
  rfl

theorem pstTo_fresh (hply : plyOperand (bitsOf w 23 21) (bitsOf w 25 24) = true) (n : Needle) (a : NAddr) :
    pstTo w s n.fresh a =
    (let els := (List.range 8).map (fun e => n.plyEl (bitsOf w 23 21) (bitsOf w 25 24) e)
     let x := nStoreWords s (n.mark (els.any elPoison)) a (els.flatten.map (fun y => (y, false)))
     .ok x.1 x.2.fresh) := by
  rw [pstTo, hply]
  exact congrArg (fun x : State × Needle => NRes.ok x.1 x.2)
    (nStoreWords_fresh s (n.mark (((List.range 8).map (fun e => n.plyEl (bitsOf w 23 21) (bitsOf w 25 24) e)).any elPoison)) a _)

/-! ### CHKB and SSET (R333, R336) -/

theorem opChkb_eq (w : Nat) (s : State) (n : Needle) : opChkb w s n =
    if n.gv (fD w) < n.gv (fB w) ∧
        (n.gv (fD w) + 1) * 2 ^ bitsOf w 10 8 ≤ (if bitsOf w 20 17 = 8 then 98304 else segLimit (n.sv (bitsOf w 20 17))) then
      .ok s (n.mark (n.gp (fD w) || n.gp (fB w)))
    else .trap 0x08 (n.gv (fD w)) := by
  rw [opChkb, trapIf, ← ite_not]
  refine if_congr ?_ rfl rfl
  simp

theorem opSset_eq (c : Ctx) (w : Nat) (s : State) (n : Needle) : opSset c w s n =
    if s.segOk (rowDie c.l) (n.gv (fA w) + 2 ^ 64 * n.gv (fB w)) then
      .ok s { n.mark (n.gp (fA w) || n.gp (fB w)) with seg := store 0 n.seg (fD w) (n.gv (fA w) + 2 ^ 64 * n.gv (fB w)) }
    else .trap 0x07 (fD w) := by
  rw [opSset, trapIf, ← ite_not]
  refine if_congr ?_ rfl rfl
  simp

end

/-- Settles O25: an access traps or names its place (`accessing_eq`); each instruction then moves the bytes of that place. -/
theorem memoryInstructions : Obligations.MemoryInstructions := by
  refine ⟨?trap, ?plyTrap, ?plyOperand, ?load, ?store, ?vst, ?pld, ?pst, ?chkb, ?sset, ?sget⟩
  case trap =>
    intro s l i w ecc mn z st hform h u x hx
    obtain ⟨hdata, hop⟩ := dataOp_access (w := w) (ecc := ecc) hform s u l i (u.needle l i)
    obtain ⟨y, hy⟩ := Option.isSome_iff_exists.mp hx
    refine exec_data_trap h hdata (hop.trans ((accessing_trap hy).trans ?_))
    rw [hy]
    rfl
  case plyTrap =>
    intro s l i w ecc mn st hform h u k x hx
    obtain ⟨hdata, hop⟩ := dataOp_plyAccess (w := w) (ecc := ecc) s u l i (u.needle l i) hform
    obtain ⟨y, hy⟩ := Option.isSome_iff_exists.mp hx
    refine exec_data_trap h hdata (hop.trans ((accessing_trap hy).trans ?_))
    rw [hy]
    rfl
  case plyOperand =>
    intro s l i w ecc mn st hform h u k haccess hply
    obtain ⟨hdata, hop⟩ := dataOp_plyAccess (w := w) (ecc := ecc) s u l i (u.needle l i) hform
    refine exec_data_trap h hdata (hop.trans ((accessing_ok haccess).trans ?_))
    cases st
    · simp [pldFrom, trapIf, hply, k]
    · simp [pstTo, trapIf, hply, k]
  case load =>
    intro s l i w ecc mn z hform h u n sp o haccess m x pz
    have hform' : (mn, z, false) ∈ accessForms := by
      simp only [List.mem_cons, Prod.mk.injEq, List.not_mem_nil, or_false] at hform
      simp [accessForms, hform]
    obtain ⟨hdata, hop⟩ := dataOp_access (w := w) (ecc := ecc) hform' s u l i n
    exact exec_data_ok h hdata (hop.trans ((accessing_ok haccess).trans (loadFrom_accessAddr n)))
  case store =>
    intro s l i w ecc mn z hform h u n sp o m bs haccess
    have hform' : mn ≠ .vst ∧ (mn, z, true) ∈ accessForms := by
      simp only [List.mem_cons, Prod.mk.injEq, List.not_mem_nil, or_false] at hform
      refine ⟨by rintro rfl; simp at hform, ?_⟩
      simp only [accessForms, List.mem_cons, Prod.mk.injEq, List.not_mem_nil, or_false, Bool.true_eq_false, and_false, and_true, false_or]
      tauto
    obtain ⟨hmn, hform'⟩ := hform'
    obtain ⟨hdata, hop⟩ := dataOp_access (w := w) (ecc := ecc) hform' s u l i n
    replace hop := hop.trans ((accessing_ok haccess).trans (storeTo_accessAddr hmn n))
    by_cases hsp : sp = 8
    · rw [if_pos hsp] at hop ⊢
      exact exec_data_ok h hdata hop
    · rw [if_neg hsp] at hop ⊢
      exact exec_data_ok h hdata hop
  case vst =>
    intro s l i w ecc h u n sp o haccess ws x
    obtain ⟨hdata, hop⟩ := dataOp_access (mn := .vst) (z := 32) (st := true) (w := w) (ecc := ecc) (by simp [accessForms]) s u l i n
    exact exec_data_ok h hdata (hop.trans ((accessing_ok haccess).trans (storeTo_vst n _)))
  case pld =>
    intro s l i w ecc h u n sp k d o m x haccess hply
    obtain ⟨hdata, hop⟩ := dataOp_plyAccess (mn := .pld) (st := false) (w := w) (ecc := ecc) s u l i n (by simp)
    have hread : pldFrom ecc w u n.fresh (accessAddr n sp o (64 * k)) = .ok u (Needle.fresh { m with
      p := storePlies n.p d (pldEl k x) (List.range 8), pf := n.pf || (List.range 8).any (fun e => elPoison (pldEl k x e)) }) :=
      pldFrom_accessAddr hply n
    have hk : k ≠ 0 := fun hk => by simp [plyOperand, hk] at hply
    have hlen : ∀ e < 8, (pldEl k x e).length = k := fun e he => length_pldEl hk he x
    obtain ⟨hel, hother, hp, hpf⟩ := plies_goesTo u l i ((s.needle l i).pc + 4) (q := { m with
      p := storePlies n.p d (pldEl k x) (List.range 8), pf := n.pf || (List.range 8).any (fun e => elPoison (pldEl k x e)) }) rfl hlen
    replace hel := fun e he => (hel e he).trans (map_mod_of_lt (pldEl_lt k x e))
    refine ⟨_, exec_data_ok h hdata (hop.trans ((accessing_ok haccess).trans hread)), hel, hother, ?_, ?_⟩
    · rw [hp, hpf]
      rfl
    · rw [hpf, any_congr_of_mem fun e he => congrArg elPoison (hel e he)]
  case pst =>
    intro s l i w ecc h u n sp k d o els haccess hply x
    obtain ⟨hdata, hop⟩ := dataOp_plyAccess (mn := .pst) (st := true) (w := w) (ecc := ecc) s u l i n (by simp)
    exact exec_data_ok h hdata (hop.trans ((accessing_ok haccess).trans (pstTo_fresh hply n _)))
  case chkb =>
    intro s l i w ecc h u n lim
    split
    · rename_i hin
      exact exec_data_ok h rfl ((opChkb_eq w u n.fresh).trans (if_pos hin))
    · rename_i hout
      exact exec_data_trap h rfl ((opChkb_eq w u n.fresh).trans (if_neg hout))
  case sset =>
    intro s l i w ecc h u n x
    split
    · rename_i hok
      exact exec_data_ok h rfl ((opSset_eq (s.ctxOf l i) w u n.fresh).trans (if_pos hok))
    · rename_i hbad
      exact exec_data_trap h rfl ((opSset_eq (s.ctxOf l i) w u n.fresh).trans (if_neg hbad))
  case sget =>
    intro s l i w ecc h n
    exact exec_data_ok h rfl rfl

end Sys2Proof.Machine
end

section
/-! PROOFS. Branches, CALL, RET, the returns of handlers, TRAP and the functions of CTL (O26). -/

namespace Sys2Proof.Machine

section
variable {s u : State} {l i w o z d : Nat} {st : Bool} {mn : Mn} {ecc : Ecc} {n : Needle} {c : Ctx}

theorem trapIf_pos {b : Bool} (h : b = true) (cause addr : Nat) (r : NRes) : trapIf b cause addr r = .trap cause addr := if_pos h

theorem trapIf_neg {b : Bool} (h : b = false) (cause addr : Nat) (r : NRes) : trapIf b cause addr r = r := if_neg (by simp [h])

/-! ### Branches (R339, R340) -/

theorem ccHolds_fresh (n : Needle) (cc : Nat) : ccHolds n.fresh cc = ccHolds n cc := by
  unfold ccHolds
  rfl

theorem jumpTo_eq (c : Ctx) (t : Nat) (s : State) (n : Needle) :
    jumpTo c t s n = if inCode c.m t = true then .ok s { n with pc := t } else .trap 0x02 t := by
  cases h : inCode c.m t <;> simp [jumpTo, trapIf, h]

theorem transferOp_bCc (c : Ctx) (w : Nat) (s : State) (n : Needle) : transferOp .bCc c w s n.fresh =
    (let t := unsigned 64 ((n.pc : Int) + 4 * signed 22 (bitsOf w 21 0))
     if ccHolds n (bitsOf w 25 22) = true then (if inCode c.m t = true then .ok s { n.fresh with pc := t } else .trap 0x02 t)
     else .ok s { n.fresh with pc := n.pc + 4 }) := by
  rw [← ccHolds_fresh]
  exact congrArg (fun r => if ccHolds n.fresh (bitsOf w 25 22) = true then r else _) (jumpTo_eq ..)

theorem transferOp_br (c : Ctx) (w : Nat) (s : State) (n : Needle) : transferOp .br c w s n.fresh =
    (let t := n.gv (fA w)
     if (!inCode c.m t) = true then .trap 0x02 t else if n.gp (fA w) = true then .trap 0x09 0 else .ok s { n.fresh with pc := t }) := by
  simp only [transferOp, trapIf, jumpTo_eq, Needle.gv_fresh, Needle.gp_fresh]
  cases inCode c.m (n.gv (fA w)) <;> rfl

/-! ### The stack (R341 to R344) -/

/-- An aligned access of a LINEAR stack segment that the segment and its memory hold. -/
theorem State.nAddr_stack (hal : o % 8 = 0) (hmode : segMode (n.sv 7) = 0) (hlim : o + z ≤ segLimit (n.sv 7))
    (hreach : s.segReach d (segBase (n.sv 7) + o) z = true) (hwr : st = true → segWr (n.sv 7) = true) :
    s.nAddr d n 7 o z 8 st = .mem (segBase (n.sv 7) + o) := by
  have hseg : segAddr (n.sv 7) o z = some (segBase (n.sv 7) + o) := by simp [segAddr, hmode, hlim]
  have hst : (st && !segWr (n.sv 7)) = false := by cases st <;> simp_all
  simp [State.nAddr, hal, hseg, hreach, hst]

/-- The words that a CALL of word `w` stores: the link word and the registers of its mask, with their poison (R341). -/
def Needle.callWords (n : Needle) (w : Nat) : List (Nat × Bool) :=
  ((n.pc + 4) % 65536 + 65536 * bitsOf w 15 0, false) :: (maskRegs (bitsOf w 15 0)).map (fun r => (n.gv r, n.gp r))

/-- The bytes of the frame of a CALL of word `w` (R341). -/
def callFrame (w : Nat) : Nat := 8 * (1 + (maskRegs (bitsOf w 15 0)).length)

section
variable (hcode : inCode c.m (fnEntry c.m (bitsOf w 25 16)) = true) (hal : n.gv 31 % 8 = 0) (hwr : segWr (n.sv 7) = true)
include hcode hal hwr

theorem opCall_overflow (h : segMode (n.sv 7) ≠ 0 ∨ n.gv 31 < callFrame w ∨ segLimit (n.sv 7) < n.gv 31) :
    opCall c w s n = .trap 0x0A (n.gv 31) := by
  refine (trapIf_neg (by simp [hcode]) _ _ _).trans ((trapIf_neg (by simp [hal]) _ _ _).trans
    ((trapIf_neg (by simp [hwr]) _ _ _).trans (trapIf_pos ?_ _ _ _)))
  simpa [callFrame, or_assoc] using h

theorem opCall_ok (hmode : segMode (n.sv 7) = 0) (hframe : callFrame w ≤ n.gv 31) (hlim : n.gv 31 ≤ segLimit (n.sv 7))
    (hreach : s.segReach (rowDie c.l) (segBase (n.sv 7) + (n.gv 31 - callFrame w)) (callFrame w) = true) :
    opCall c w s n =
      (let x := nStoreWords s (n.mark (n.gp 31 || (maskRegs (bitsOf w 15 0)).any n.gp))
        (.mem (segBase (n.sv 7) + (n.gv 31 - callFrame w))) (n.callWords w)
       .ok x.1 { x.2.setG 31 (n.gv 31 - callFrame w) (n.gp 31) with pc := fnEntry c.m (bitsOf w 25 16) }) := by
  have haligned : (n.gv 31 - callFrame w) % 8 = 0 := by
    simp only [callFrame] at hframe ⊢
    omega
  have hplace := State.nAddr_stack (st := true) haligned hmode (by omega) hreach (fun _ => hwr)
  refine (trapIf_neg (by simp [hcode]) _ _ _).trans ((trapIf_neg (by simp [hal]) _ _ _).trans
    ((trapIf_neg (by simp [hwr]) _ _ _).trans ((trapIf_neg ?_ _ _ _).trans ?_)))
  · simpa [callFrame, hmode] using ⟨hframe, hlim⟩
  · simp only [callFrame] at hplace
    rw [hplace]
    rfl

theorem opCall_fresh (hmode : segMode (n.sv 7) = 0) (hframe : callFrame w ≤ n.gv 31) (hlim : n.gv 31 ≤ segLimit (n.sv 7))
    (hreach : s.segReach (rowDie c.l) (segBase (n.sv 7) + (n.gv 31 - callFrame w)) (callFrame w) = true) :
    opCall c w s n.fresh =
      (let x := nStoreWords s (n.mark (n.gp 31 || (maskRegs (bitsOf w 15 0)).any n.gp))
        (.mem (segBase (n.sv 7) + (n.gv 31 - callFrame w))) (n.callWords w)
       .ok x.1 { (x.2.setG 31 (n.gv 31 - callFrame w) (n.gp 31)).fresh with pc := fnEntry c.m (bitsOf w 25 16) }) := by
  have hmark : n.fresh.mark (n.gp 31 || (maskRegs (bitsOf w 15 0)).any n.fresh.gp) =
      (n.mark (n.gp 31 || (maskRegs (bitsOf w 15 0)).any n.gp)).fresh := rfl
  rw [opCall_ok (n := n.fresh) hcode hal hwr hmode hframe hlim hreach]
  simp only [Needle.gv_fresh, Needle.gp_fresh, Needle.sv_fresh, hmark, nStoreWords_fresh]
  rfl

end

/-! #### What RET reads back (R343) -/

theorem State.bytes_add (s : State) (a j k : Nat) : s.bytes a (j + k) = s.bytes a j ++ s.bytes (a + j) k := by
  simp [State.bytes, List.range_add, Nat.add_assoc]

theorem State.length_bytes (s : State) (a k : Nat) : (s.bytes a k).length = k := by simp [State.bytes]

theorem wordsLe_bytes (s : State) (a k : Nat) : wordsLe k (s.bytes a (8 * k)) = (List.range k).map (fun j => s.le (a + 8 * j) 8) := by
  induction k generalizing a with
  | zero => rfl
  | succ k ih =>
    have hsize : 8 * (k + 1) = 8 + 8 * k := by omega
    rw [hsize, State.bytes_add, wordsLe, List.take_left' (s.length_bytes a 8), List.drop_left' (s.length_bytes a 8), ih,
      List.range_succ_eq_map, List.map_cons, List.map_map]
    refine congrArg (s.le a 8 :: ·) (List.map_congr_left fun j _ => ?_)
    simp only [Function.comp, Nat.succ_eq_add_one]
    congr 1
    omega

/-- The marks of aligned words of memory, none of which is marked. -/
theorem nTags_mem_clear {a k : Nat} (hal : a % 8 = 0) (h : ∀ j ∈ List.range k, fetch false s.tags (a / 8 + j) = false) :
    s.nTags n (.mem a) (8 * k) = List.replicate k false := by
  have hlen : (a + 8 * k + 7) / 8 - a / 8 = k := by omega
  rw [State.nTags, hlen]
  refine List.eq_replicate_iff.mpr ⟨by simp, fun b hb => ?_⟩
  obtain ⟨x, hx, rfl⟩ := List.mem_map.mp hb
  obtain ⟨j, hj, rfl⟩ := List.mem_range'.mp hx
  simpa using h j (List.mem_range.mpr hj)

theorem Needle.foldl_setG_fresh (n : Needle) (r x : Nat → Nat) (b : Bool) (ks : List Nat) :
    ks.foldl (fun m k => m.setG (r k) (x k) b) n.fresh = (ks.foldl (fun m k => m.setG (r k) (x k) b) n).fresh := by
  induction ks generalizing n with
  | nil => rfl
  | cons k ks ih => exact ih (n.setG (r k) (x k) b)

/-- The registers of a RET, each with its word and an unmarked tag, are those of the frame's slots in order. -/
theorem zip_frame (regs : List Nat) (x : Nat → Nat) : regs.zip (((List.range regs.length).map x).zip (List.replicate regs.length false)) =
    (List.range regs.length).map (fun k => (regs.getD k 0, x k, false)) := by
  refine List.ext_getElem (by simp) fun k hk hk' => ?_
  have hlt : k < regs.length := by simpa using hk
  simp [List.getElem?_eq_getElem hlt]

theorem opRet_overflow (hal : n.gv 31 % 8 = 0) (h : segMode (n.sv 7) ≠ 0 ∨ segLimit (n.sv 7) < n.gv 31 + 8) :
    opRet c s n = .trap 0x0A (n.gv 31) :=
  (trapIf_neg (by simp [hal]) _ _ _).trans (trapIf_pos (by simpa using h) _ _ _)

/-- The needle once RET has read back `regs` from the frame at `a` (R343). -/
def Needle.frameRead (n : Needle) (s : State) (a : Nat) (regs : List Nat) : Needle :=
  (List.range regs.length).foldl (fun m k => m.setG (regs.getD k 0) (s.le (a + 8 * (k + 1)) 8) false) (n.mark (n.gp 31))

theorem Needle.foldl_frame (n : Needle) (s : State) (a : Nat) (regs : List Nat) :
    let ws := (wordsLe (1 + regs.length) (s.bytes a (8 * (1 + regs.length)))).drop 1
    let ts := (List.replicate (1 + regs.length) false).drop 1
    (regs.zip (ws.zip ts)).foldl (fun n e => n.setG e.1 e.2.1 e.2.2) (n.mark (n.gp 31 || ts.any id)) = n.frameRead s a regs := by
  have hws : (wordsLe (1 + regs.length) (s.bytes a (8 * (1 + regs.length)))).drop 1 =
      (List.range regs.length).map (fun k => s.le (a + 8 * (k + 1)) 8) := by
    rw [wordsLe_bytes, Nat.add_comm, List.range_succ_eq_map, List.map_cons, List.drop_one, List.tail_cons, List.map_map]
    rfl
  have hts : (List.replicate (1 + regs.length) false).drop 1 = List.replicate regs.length false := by
    rw [List.drop_replicate, Nat.add_sub_cancel_left]
  intro ws ts
  simp only [ws, ts, hws, hts, zip_frame, List.foldl_map]
  rw [Needle.frameRead]
  simp

theorem opRet_ok (hal : n.gv 31 % 8 = 0) (hmode : segMode (n.sv 7) = 0) {a link : Nat} {regs : List Nat}
    (ha : a = segBase (n.sv 7) + n.gv 31) (hlink : link = s.le a 8) (hregs : regs = maskRegs (bitsOf link 31 16))
    (hlim : n.gv 31 + 8 * (1 + regs.length) ≤ segLimit (n.sv 7))
    (hreach : s.segReach (rowDie c.l) a (8 * (1 + regs.length)) = true) (hlinkReach : s.segReach (rowDie c.l) a 8 = true)
    (hcode : inCode c.m (bitsOf link 15 0) = true) (haligned : a % 8 = 0)
    (hclear : ∀ k ∈ List.range (1 + regs.length), fetch false s.tags (a / 8 + k) = false) :
    opRet c s n = .ok s { (n.frameRead s a regs).setG 31 (n.gv 31 + 8 * (1 + regs.length)) (n.gp 31) with pc := bitsOf link 15 0 } := by
  subst ha
  have hlinkPlace := State.nAddr_stack (st := false) (z := 8) hal hmode (by omega) hlinkReach nofun
  have hplace := State.nAddr_stack (st := false) hal hmode hlim hreach nofun
  have htag : s.nTags n (.mem (segBase (n.sv 7) + n.gv 31)) 8 = [false] :=
    nTags_mem_clear (k := 1) haligned fun j hj => hclear j (List.mem_range.mpr (by simp only [List.mem_range] at hj; omega))
  have htags : s.nTags n (.mem (segBase (n.sv 7) + n.gv 31)) (8 * (1 + regs.length)) = List.replicate (1 + regs.length) false :=
    nTags_mem_clear haligned hclear
  have hwords : s.nBytes n (.mem (segBase (n.sv 7) + n.gv 31)) (8 * (1 + regs.length)) =
    s.bytes (segBase (n.sv 7) + n.gv 31) (8 * (1 + regs.length)) := rfl
  have hlink' : leNat (s.nBytes n (.mem (segBase (n.sv 7) + n.gv 31)) 8) = link := hlink.symm
  refine (trapIf_neg (by simp [hal]) _ _ _).trans ((trapIf_neg (by simp [hmode]; omega) _ _ _).trans ?_)
  rw [hlinkPlace]
  simp only [hlink', ← hregs, htag, hcode]
  refine (trapIf_neg rfl _ _ _).trans ((trapIf_neg rfl _ _ _).trans ((trapIf_neg (by simpa using hlim) _ _ _).trans ?_))
  rw [hplace]
  simp only [hwords, htags]
  exact congrArg (fun m : Needle => NRes.ok s { m.setG 31 (n.gv 31 + 8 * (1 + regs.length)) (n.gp 31) with pc := bitsOf link 15 0 })
    (n.foldl_frame s (segBase (n.sv 7) + n.gv 31) regs)

theorem Needle.frameRead_fresh (n : Needle) (s : State) (a : Nat) (regs : List Nat) :
    n.fresh.frameRead s a regs = (n.frameRead s a regs).fresh :=
  (n.mark (n.gp 31)).foldl_setG_fresh _ _ _ _

/-! ### Handlers and traps (R393 to R396) -/

theorem opRtt_outside (h : n.hm = false) (next : Bool) : opRtt c next s n = .trap 0x0C 0 := trapIf_pos (by simp [h]) _ _ _

/-- In handler mode, after a trap outside a repeat (R394, R395). -/
theorem opRtt_single (h : n.hm = true) (hpair : n.tpair = false) (next : Bool) : opRtt c next s n =
    .ok s { n.setFlags n.tflags with hm := false, pc :=
      if next = true ∧ n.tcause < 128 then
        n.tpc + (if mnOf (imgLe c.m n.tpc 4) = some .rep ∨ mnOf (imgLe c.m n.tpc 4) = some .repn then 8 else 4)
      else n.tpc } := by
  refine (trapIf_neg (by simp [h]) _ _ _).trans ?_
  rw [hpair]
  rfl

theorem opRtt_pairNext (h : n.hm = true) (hpair : n.tpair = true) : opRtt c true s n =
    .ok s { n.setFlags n.tflags with hm := false, pc := n.tpc + 8 } := by
  refine (trapIf_neg (by simp [h]) _ _ _).trans ?_
  rw [hpair]
  rfl

theorem opRtt_pair (h : n.hm = true) (hpair : n.tpair = true) : opRtt c false s n =
    if mnOf (imgLe c.m n.tpc 4) = some .repn then .trap 0x0C 0
    else .ok s { n.setFlags n.tflags with hm := false, pc := n.tpc, resumeAt := some n.titer } := by
  refine (trapIf_neg (by simp [h]) _ _ _).trans ?_
  rw [hpair]
  simp only [trapIf, decide_eq_true_eq, Bool.false_eq_true, if_true, if_false]

/-- A completing trap: the handler finds TCAUSE[7] set and TPC after the instruction, else the row is TRAPPED (R390, R393). -/
theorem State.needleTrap_completing (s : State) (l i : Nat) (n : Needle) (cause addr resume at_ : Nat) :
    s.needleTrap l i n cause addr 0 false true resume at_ =
      if n.hm = false ∧ vectorOf (s.row l).prog cause ≠ 0 then
        s.setNeedle l i { n with hm := true, tpc := resume % 65536, tcause := cause + 128, taddr := addr, titer := 0, tflags := n.flags,
                                 tpair := false, pc := vectorOf (s.row l).prog cause, wait := .run }
      else (s.setNeedle l i n).rowTrapped l i cause at_ addr := by
  rw [State.needleTrap]
  simp

/-! ### Special registers (R387) -/

theorem dataOp_mfs (hr : fB w < 16) : dataOp .mfs c ecc w s n =
    (let sr := [c.i, c.l, rowDie c.l, s.rowSlice c.l, s.stepCtr (s.rowSlice c.l), n.flags, n.tcause, n.tpc, n.taddr, n.titer, n.tflags,
      fetch 0 n.draws 0, fetch 0 n.draws 1, fetch 0 n.draws 2, fetch 0 n.draws 3, (s.rd Reg.GLB_BEAT_SEQ).toNat]
     .ok s (n.setG (fD w) (sr.getD (fB w) 0) false)) := by
  refine congrArg (fun x => NRes.ok s (n.setG (fD w) x false)) ?_
  generalize fB w = r at hr
  interval_cases r <;> rfl

end

/-- Settles O26: the checks of each transfer in their order, and the word that it goes on at. -/
theorem controlInstructions : Obligations.ControlInstructions := by
  refine ⟨?bcc, ?br, ?call, ?callOverflow, ?ret, ?retOverflow, ?outside, ?single, ?pairNext, ?trap, ?nop, ?fclr, ?drst, ?mfs⟩
  case bcc =>
    intro s l i w ecc h u n t
    have hop := transferOp_bCc (s.ctxOf l i) w u n
    by_cases hcc : ccHolds n (bitsOf w 25 22) = true
    · rw [if_pos hcc] at hop ⊢
      by_cases hin : inCode (s.row l).prog t = true
      · rw [if_pos hin]
        exact exec_transfer_ok h rfl (hop.trans (if_pos hin))
      · rw [if_neg hin]
        exact exec_transfer_trap h rfl (hop.trans (if_neg hin))
    · rw [if_neg hcc] at hop ⊢
      exact exec_transfer_ok h rfl hop
  case br =>
    intro s l i w ecc h u n t
    have hop := transferOp_br (s.ctxOf l i) w u n
    by_cases hout : (!inCode (s.row l).prog t) = true
    · rw [if_pos hout]
      exact exec_transfer_trap h rfl (hop.trans (if_pos hout))
    · rw [if_neg hout]
      replace hop := hop.trans (if_neg hout)
      by_cases hgp : n.gp (fA w) = true
      · rw [if_pos hgp] at hop ⊢
        exact exec_transfer_trap h rfl hop
      · rw [if_neg hgp] at hop ⊢
        exact exec_transfer_ok h rfl hop
  case call =>
    intro s l i w ecc h u n t regs fr g a hcode hal hwr hmode hframe hlim hreach x
    exact exec_transfer_ok h rfl (opCall_fresh (s := u) (n := n) (c := s.ctxOf l i) hcode hal hwr hmode hframe hlim hreach)
  case callOverflow =>
    intro s l i w ecc h u n t g hcode hal hwr hover
    exact exec_transfer_trap h rfl (opCall_overflow (s := u) (n := n.fresh) (c := s.ctxOf l i) hcode hal hwr hover)
  case ret =>
    intro s l i w ecc h u n g a link regs fr hal hmode hlim hreach hlinkReach hcode haligned hclear m
    have hop := opRet_ok (s := u) (n := n.fresh) (c := s.ctxOf l i) (a := a) (link := link) (regs := regs) hal hmode rfl rfl rfl hlim hreach
      hlinkReach hcode haligned hclear
    rw [Needle.frameRead_fresh] at hop
    exact exec_transfer_ok h rfl hop
  case retOverflow =>
    intro s l i w ecc h u n hal hover
    exact exec_transfer_trap h rfl (opRet_overflow (s := u) (n := n.fresh) hal hover)
  case outside =>
    intro s l i w ecc mn hmn h hhm
    rcases hmn with rfl | rfl
    · exact exec_transfer_trap h rfl (opRtt_outside (n := (s.needle l i).fresh) hhm false)
    · exact exec_transfer_trap h rfl (opRtt_outside (n := (s.needle l i).fresh) hhm true)
  case single =>
    intro s l i w ecc mn hmn h hhm hpair n m at_ past
    rcases hmn with rfl | rfl
    · exact exec_transfer_ok h rfl (opRtt_single (n := n.fresh) hhm hpair false)
    · have hop := opRtt_single (s := counted s ecc) (c := s.ctxOf l i) (n := n.fresh) hhm hpair true
      simp only [true_and] at hop ⊢
      exact exec_transfer_ok h rfl hop
  case pairNext =>
    intro s l i w ecc h hhm hpair n m
    exact exec_transfer_ok h rfl (opRtt_pairNext (n := n.fresh) hhm hpair)
  case trap =>
    intro s l i w ecc h u n vec
    have hop : transferOp .trap (s.ctxOf l i) w u n.fresh = .okTrap u n.fresh (bitsOf w 10 0) 0 := rfl
    have hexec := (exec_transfer (ecc := ecc) h rfl).trans (congrArg (fun r => Host.Outcome.next (u.answered l i n.fresh 0 r)) hop)
    rw [State.answered, State.needleTrap_completing] at hexec
    exact hexec
  case nop =>
    intro s l i w ecc mn hmn h
    rcases hmn with rfl | rfl
    · exact exec_data_ok h rfl rfl
    · exact exec_data_ok h rfl rfl
  case fclr =>
    intro s l i w ecc h n
    exact exec_data_ok h rfl rfl
  case drst =>
    intro s l i w ecc h n
    exact exec_data_ok h rfl rfl
  case mfs =>
    intro s l i w ecc h n sr
    have hr : fB w < 16 := by
      have hlegal := (standsAt_iff.mp h).2
      simp only [legal, Bool.and_eq_true, decide_eq_true_eq] at hlegal
      omega
    exact exec_data_ok h rfl (dataOp_mfs hr)

end Sys2Proof.Machine
end

section
/-! PROOFS. Draws and streams (O28): DRAW and DRAWE under an open job, SDEF, and the next item that SRD reads. -/

namespace Sys2Proof.Machine

section
variable {s : State} {l i w k : Nat} {ecc : Ecc} {n : Needle} {c : Ctx}

/-! ### Draws (R369, R370, R372) -/

theorem State.jobSeed_open (h : (s.job k).isOpen = true) : s.jobSeed k = (s.job k).seed := if_pos h

theorem State.seedUsed_open (h : (s.job k).isOpen = true) : s.seedUsed k = s := if_pos h

/-- The needle once DRAW has taken draw `k` of stream `bitsOf w 1 0` under the seed of its job. -/
def Needle.drawn (n : Needle) (seed : Nat) (m : SMap Byte) (w : Nat) : Needle :=
  let st := bitsOf w 1 0
  let k := fetch 0 n.draws st
  let x := gen seed (n.gv (fA w) / 65536) (imgLe m (24 + 4 * st) 3) (n.gv (fA w) % 65536 * 2 ^ 24 + k)
  { (n.mark (n.gp (fA w))).setG (fD w) x (n.gp (fA w)) with draws := store 0 n.draws st (k + 1) }

theorem opDraw_open (h : (s.job (s.rowSlice c.l)).isOpen = true) : opDraw c w s n.fresh =
    if fetch 0 n.draws (bitsOf w 1 0) = 0xFFFFFF then .trap 0x0F (bitsOf w 1 0)
    else .ok s (n.drawn (s.job (s.rowSlice c.l)).seed c.m w).fresh := by
  simp only [opDraw, trapIf, State.jobSeed_open h, State.seedUsed_open h, decide_eq_true_eq]
  rfl

theorem opDrawe_open (h : (s.job (s.rowSlice c.l)).isOpen = true) : opDrawe c w s n.fresh =
    .ok s ((n.mark (n.gp (fA w))).setG (fD w) (gen (s.job (s.rowSlice c.l)).seed (s.stepCtr (s.rowSlice c.l))
      (tensorId c.m (bitsOf w 5 0)) (n.gv (fA w) % 2 ^ 40)) (n.gp (fA w))).fresh := by
  simp only [opDrawe, State.jobSeed_open h, State.seedUsed_open h]
  rfl

/-! ### Streams (R376, R377) -/

theorem opSdef_eq (w : Nat) (s : State) (n : Needle) : opSdef w s n.fresh =
    if n.gv (fA w) % 32 ≠ 0 ∨ n.gv (fB w) % 32 ≠ 0 then .trap 0x03 (n.gv (fA w))
    else .ok s (Needle.fresh { n.mark (n.gp (fA w) || n.gp (fB w) || n.gp (bitsOf w 10 6)) with
      streams := store none n.streams (bitsOf w 25 25)
        (some ⟨bitsOf w 24 21, n.gv (fA w), signed 64 (n.gv (fB w)), n.gv (bitsOf w 10 6), 0⟩) }) := by
  rw [opSdef, trapIf]
  refine if_congr ?_ rfl rfl
  simp only [Bool.or_eq_true, decide_eq_true_eq]
  rfl

theorem opSrd_ended (h : ∀ x ∈ (fetch none n.streams (bitsOf w 0 0)).toList, x.count ≤ x.next) :
    opSrd c w s n = .trap 0x11 (bitsOf w 0 0) := by
  rcases hx : fetch none n.streams (bitsOf w 0 0) with _ | x
  · simp [opSrd, hx]
  · simp [opSrd, hx, h x (by simp [hx])]

/-- The offset of a stream's next item (R377). -/
def Stream.offset (x : Stream) : Nat := unsigned 64 ((x.off : Int) + x.next * x.stride)

/-- The needle once SRD has read the item `y` of stream `x`. -/
def Needle.itemRead (n : Needle) (w : Nat) (x : Stream) (y : List Byte × List Bool) : Needle :=
  { n.mark (y.2.any id) with
    streams := store none n.streams (bitsOf w 0 0) (some { x with next := x.next + 1 }) }.setV (fD w) (leNat y.1) (tagMask y.2)

theorem Needle.itemRead_fresh (n : Needle) (w : Nat) (x : Stream) (bs : List Byte) (t : List Bool) :
    n.fresh.itemRead w x (bs, t) = (n.itemRead w x (bs, t)).fresh := rfl

theorem opSrd_next {x : Stream} (hx : fetch none n.streams (bitsOf w 0 0) = some x) (hnext : x.next < x.count) (hsp : x.sp < 8)
    (hal : x.offset % 32 = 0) : opSrd c w s n.fresh =
      if ((segAddr (n.sv x.sp) x.offset 32).isSome && s.segReach (rowDie c.l) ((segAddr (n.sv x.sp) x.offset 32).getD 0) 32) = true then
        .ok s (n.itemRead w x (accessBytes s n x.sp x.offset 32)).fresh
      else .trap 0x05 x.offset := by
  have hx' : fetch none n.fresh.streams (bitsOf w 0 0) = some x := hx
  have hseg : x.sp ≠ 8 := hsp.ne
  have haddr : s.nAddr (rowDie c.l) n.fresh x.sp x.offset 32 32 false =
      if ((segAddr (n.sv x.sp) x.offset 32).isSome && s.segReach (rowDie c.l) ((segAddr (n.sv x.sp) x.offset 32).getD 0) 32) = true then
        .mem ((segAddr (n.sv x.sp) x.offset 32).getD 0)
      else .bad 0x05 x.offset := by
    rcases hs : segAddr (n.sv x.sp) x.offset 32 with _ | a
    · simp [State.nAddr, hal, hseg, hs]
    · cases hr : s.segReach (rowDie c.l) a 32 <;> simp [State.nAddr, hal, hseg, hs, hr]
  rw [opSrd, hx']
  refine (if_neg (Nat.not_le.mpr hnext)).trans ?_
  rw [← Stream.offset, haddr, accessBytes, if_neg hseg]
  generalize (segAddr (n.sv x.sp) x.offset 32).getD 0 = a
  by_cases hreach : ((segAddr (n.sv x.sp) x.offset 32).isSome && s.segReach (rowDie c.l) a 32) = true
  · rw [if_pos hreach, if_pos hreach]
    exact congrArg (NRes.ok s) (n.itemRead_fresh w x (s.bytes a 32) _)
  · rw [if_neg hreach, if_neg hreach]

end

/-- Settles O28: draws under the seed of an open job, and the item that a stream stands at. -/
theorem streamInstructions : Obligations.StreamInstructions := by
  refine ⟨?draw, ?drawe, ?sdef, ?ended, ?srd⟩
  case draw =>
    intro s l i w ecc h hopen u n st k x m
    have hop := opDraw_open (s := u) (n := n) (c := s.ctxOf l i) (w := w) hopen
    by_cases hk : k = 0xFFFFFF
    · rw [if_pos hk] at hop ⊢
      exact exec_data_trap h rfl hop
    · rw [if_neg hk] at hop ⊢
      exact exec_data_ok h rfl hop
  case drawe =>
    intro s l i w ecc h hopen u n x
    exact exec_data_ok h rfl (opDrawe_open (s := u) (c := s.ctxOf l i) hopen)
  case sdef =>
    intro s l i w ecc h u n gc m
    have hop := opSdef_eq w u n
    by_cases hbad : n.gv (fA w) % 32 ≠ 0 ∨ n.gv (fB w) % 32 ≠ 0
    · rw [if_pos hbad] at hop ⊢
      exact exec_data_trap h rfl hop
    · rw [if_neg hbad] at hop ⊢
      exact exec_data_ok h rfl hop
  case ended =>
    intro s l i w ecc h hend
    exact exec_data_trap h rfl (opSrd_ended hend)
  case srd =>
    intro s l i w ecc x h hx hnext hsp u n o hal a y m
    have hop := opSrd_next (s := u) (n := n) (c := s.ctxOf l i) hx hnext hsp hal
    by_cases hreach : (a.isSome && u.segReach (rowDie l) (a.getD 0) 32) = true
    · rw [if_pos hreach]
      exact exec_data_ok h rfl (hop.trans (if_pos hreach))
    · rw [if_neg hreach]
      exact exec_data_trap h rfl (hop.trans (if_neg hreach))

end Sys2Proof.Machine
end

section
/-! PROOFS. REP and REPN (O29): when a pair traps at once, that it runs as its iterations do one by one, and where RTT resumes it. -/

namespace Sys2Proof.Machine

section
variable {s : State} {l i w : Nat} {mn two : Mn} {ecc : Ecc} {n : Needle} {c : Ctx} {rep : Bool}

@[simp] theorem Needle.gv_mark (n : Needle) (b : Bool) (r : Nat) : (n.mark b).gv r = n.gv r := rfl

theorem Needle.fresh_eq_self (h : n.resumeAt = none) : n.fresh = n := by
  rw [Needle.fresh, ← h]

/-! ### Iterations (R345, R346) -/

theorem pairRuns_succ (rep : Bool) (kind step w : Nat) (mn : Mn) (c : Ctx) (ecc : Ecc) (k j : Nat) (u : State) (n : Needle) :
    pairRuns rep kind step w mn c ecc (k + 1) j u n =
      if legal c.m kind n.hm mn (advance w step j) = false then none else
      match dataOp mn { c with k := j } ecc (advance w step j) u n with
      | .ok u' n' => pairRuns rep kind step w mn c ecc k (j + 1) u' (if rep then n'.setG 0 k (n'.gp 0) else n')
      | _ => none := rfl

/-- Iterations that run to the end are the pair's. -/
theorem runPair_of_pairRuns {kind step k j : Nat} {u t : State} {m : Needle}
    (h : pairRuns rep kind step w mn c ecc k j u n = some (t, m)) : runPair rep kind step w mn c ecc k j u n = .done t m := by
  induction k generalizing j u n with
  | zero =>
    obtain ⟨rfl, rfl⟩ := Prod.mk.inj (Option.some.inj h)
    rfl
  | succ k ih =>
    rw [pairRuns_succ] at h
    cases hlegal : legal c.m kind n.hm mn (advance w step j)
    · simp [hlegal] at h
    · rcases hop : dataOp mn { c with k := j } ecc (advance w step j) u n with ⟨u', n'⟩ | _ | _
      · simp only [hlegal, hop, Bool.true_eq_false, if_false] at h
        simp only [runPair, hlegal, hop, Bool.not_true, Bool.false_eq_true, if_false]
        exact ih h
      · simp [hlegal, hop] at h
      · simp [hlegal, hop] at h

/-! ### The pair (R345 to R350) -/

/-- The trap that a pair raises at once, if any, in the order of its checks (R347, R350). -/
def repeatCause (rep : Bool) (p : SMap Byte) (n : Needle) (w : Nat) : Option (Nat × Nat) :=
  let w2 := imgLe p (n.pc + 4) 4
  let step := bitsOf w 25 23
  let two := (mnOf w2).getD .nop
  if !inCode p (n.pc + 4) then some (0x02, n.pc + 4)
  else if (mnOf w2).isNone || !repeatable two || (step &&& regFields two) ≠ step || (rep && (gNamed two w2).contains 0) then some (0x01, 0)
  else if rep && decide (2 ^ 20 ≤ n.gv 0) then some (0x0B, n.gv 0)
  else none

theorem first_cause {x y z : Nat × Nat} {a b c : Bool} (h : (a || (b || c)) = true) :
    (if a then some x else if b then some y else if c then some z else none) = some (if a then x else if b then y else z) := by
  cases a <;> cases b <;> simp_all

theorem State.repeatPair_trap {x : Nat × Nat} (h : repeatCause rep c.m n w = some x) :
    s.repeatPair l i n rep w c ecc = s.needleTrap l i n x.1 x.2 0 true false n.pc n.pc := by
  unfold repeatCause at h
  unfold State.repeatPair
  cases hin : inCode c.m (n.pc + 4)
  · simp only [hin, Bool.not_false, if_true] at h ⊢
    rw [← Option.some.inj h]
  rcases htwo : mnOf (imgLe c.m (n.pc + 4) 4) with _ | two
  · simp only [hin, htwo, Bool.not_true, Bool.false_eq_true, if_false, Option.isNone_none, Bool.true_or, if_true] at h ⊢
    rw [← Option.some.inj h]
  simp only [hin, htwo, Bool.not_true, Bool.false_eq_true, if_false, Option.isNone_some, Bool.false_or, Option.getD_some] at h ⊢
  split at h
  · rename_i hbad
    rw [if_pos hbad, ← Option.some.inj h]
  · rename_i hgood
    rw [if_neg hgood]
    split at h
    · rename_i hlong
      rw [if_pos hlong, ← Option.some.inj h]
    · exact absurd h nofun

theorem State.repeatPair_runs (hin : inCode c.m (n.pc + 4) = true) (htwo : mnOf (imgLe c.m (n.pc + 4) 4) = some two)
    (hrep : repeatable two = true) (hstep : (bitsOf w 25 23 &&& regFields two) = bitsOf w 25 23)
    (hg0 : rep = true → (gNamed two (imgLe c.m (n.pc + 4) 4)).contains 0 = false ∧ n.gv 0 < 2 ^ 20) (hresume : n.resumeAt = none)
    {t : State} {m : Needle} (hruns : pairRuns rep (s.rowKind l) (bitsOf w 25 23) (imgLe c.m (n.pc + 4) 4) two c ecc
      (if rep then n.gv 0 else bitsOf w 7 0 + 1) 0 s (n.mark (rep && n.gp 0)) = some (t, m)) :
    s.repeatPair l i n rep w c ecc = t.setNeedle l i { m with pc := n.pc + 8 } := by
  have hstart : (if rep then n.resumeAt.getD 0 else 0) = 0 := by simp [hresume]
  have hmark : { n.mark (rep && n.gp 0) with resumeAt := none } = n.mark (rep && n.gp 0) :=
    Needle.fresh_eq_self (n := n.mark (rep && n.gp 0)) hresume
  rw [State.repeatPair, if_neg (by simp [hin]), htwo]
  refine (if_neg ?_).trans ((if_neg ?_).trans ?_)
  · cases rep
    · simp [hrep, hstep]
    · simpa [hrep, hstep] using (hg0 rfl).1
  · cases rep
    · exact Bool.false_ne_true
    · simpa using (hg0 rfl).2
  · rw [hstart, hmark]
    simp only [Needle.gv_mark]
    rw [runPair_of_pairRuns hruns]

/-! ### REP, REPN and RTT -/

theorem exec_repeat (hmn : mn = .rep ∨ mn = .repn) (h : standsAt s l i w mn = true) (hresume : (s.needle l i).resumeAt = none) :
    exec (needleInstr mn l i ecc) s =
      .next ((counted s ecc).repeatPair l i (s.needle l i) (decide (mn = .rep)) w (s.ctxOf l i) ecc) := by
  have hlegal : legal ((counted s ecc).row l).prog ((counted s ecc).rowKind l) (s.needle l i).hm mn w = true := (standsAt_iff.mp h).2
  have hfresh := Needle.fresh_eq_self hresume
  rw [exec_of_standsAt h]
  refine congrArg Host.Outcome.next ?_
  rcases hmn with rfl | rfl
  · simp only [State.needleExec, hlegal, isCollective, Bool.not_true, Bool.false_eq_true, if_true, if_false]
    rfl
  · simp only [State.needleExec, reduceCtorEq, if_false, isCollective]
    rw [← Needle.fresh, hfresh, hlegal]
    rfl

end

/-- Settles O29: the checks of a pair in their order, then its iterations one by one (`runPair_of_pairRuns`). -/
theorem repeatInstructions : Obligations.RepeatInstructions := by
  refine ⟨?traps, ?runs, ?resumes⟩
  case traps =>
    intro s l i w ecc mn hmn h hresume u n p w2 step two bad cause hbad
    have hcause : repeatCause (decide (mn = .rep)) p n w = some cause := first_cause (by simpa only [bad, Bool.or_assoc] using hbad)
    exact (exec_repeat hmn h hresume).trans (congrArg _ (State.repeatPair_trap hcause))
  case runs =>
    intro s t l i w ecc mn two m hmn h hresume u n p w2 step hin htwo hrep hstep hg0 hruns
    have hg0' : decide (mn = .rep) = true → (gNamed two w2).contains 0 = false ∧ n.gv 0 < 2 ^ 20 := fun hmn' => by
      rw [of_decide_eq_true hmn'] at hg0
      exact hg0.resolve_left nofun
    have hruns' : pairRuns (decide (mn = .rep)) (u.rowKind l) step w2 two (s.ctxOf l i) ecc
        (if decide (mn = .rep) then n.gv 0 else bitsOf w 7 0 + 1) 0 u (n.mark (decide (mn = .rep) && n.gp 0)) = some (t, m) := by
      rw [← hruns]
      simp only [decide_eq_true_eq]
      rfl
    have hpair := State.repeatPair_runs (s := u) (l := l) (i := i) (n := n) (c := s.ctxOf l i) hin htwo hrep hstep hg0' hresume hruns'
    exact (exec_repeat hmn h hresume).trans (congrArg _ hpair)
  case resumes =>
    intro s l i w ecc h hhm hpair u n m
    have hop := opRtt_pair (s := u) (c := s.ctxOf l i) (n := n.fresh) hhm hpair
    split
    · rename_i hrepn
      exact exec_transfer_trap h rfl (hop.trans (if_pos hrepn))
    · rename_i hrepn
      have hexec : exec (.rtt l i ecc) s = .next (u.answered l i n.fresh 0 (opRtt (s.ctxOf l i) false u n.fresh)) :=
        exec_transfer h rfl
      rw [hop.trans (if_neg hrepn), State.answered, if_pos rfl] at hexec
      clear_value n
      exact hexec

end Sys2Proof.Machine
end

section
/-! PROOFS. The vector instructions (O30): the lanes of a register that is built lane by lane, and the lane operations. -/

namespace Sys2Proof.Machine

section
variable {f j q : Nat}

/-! ### Numbers built digit by digit -/

theorem ofLanes_digit (W : Nat) (xs : List Nat) (j : Nat) : ofLanes W xs / 2 ^ (W * j) % 2 ^ W = xs.getD j 0 % 2 ^ W := by
  induction xs generalizing j with
  | nil => simp [ofLanes]
  | cons x xs ih =>
    cases j with
    | zero => simp [ofLanes]
    | succ j =>
      have hdiv : (x % 2 ^ W + 2 ^ W * ofLanes W xs) / 2 ^ W = ofLanes W xs := by
        rw [Nat.add_mul_div_left _ _ (Nat.two_pow_pos W), Nat.div_eq_of_lt (Nat.mod_lt _ (Nat.two_pow_pos W)), Nat.zero_add]
      rw [ofLanes, Nat.mul_succ, Nat.add_comm (W * j), Nat.pow_add, ← Nat.div_div_eq_div_mul, hdiv, ih, List.getD_cons_succ]

theorem ofLanes_lt (W : Nat) (xs : List Nat) : ofLanes W xs < 2 ^ (W * xs.length) := by
  induction xs with
  | nil => simp [ofLanes]
  | cons x xs ih =>
    have hx : x % 2 ^ W < 2 ^ W := Nat.mod_lt _ (Nat.two_pow_pos W)
    calc x % 2 ^ W + 2 ^ W * ofLanes W xs < 2 ^ W * (ofLanes W xs + 1) := by rw [Nat.mul_succ]; omega
      _ ≤ 2 ^ W * 2 ^ (W * xs.length) := Nat.mul_le_mul_left _ ih
      _ = 2 ^ (W * (x :: xs).length) := by rw [← Nat.pow_add, List.length_cons, Nat.mul_succ, Nat.add_comm]

theorem bitOf_eq_decide (n j : Nat) : bitOf n j = decide (n / 2 ^ (1 * j) % 2 ^ 1 = 1) := by
  rw [bitOf, Nat.shiftRight_eq_div_pow, Nat.one_mul]
  rfl

/-- The bits of a mask that is built from a list of conditions. -/
theorem bitOf_ofLanes (p : Nat → Bool) (k j : Nat) :
    bitOf (ofLanes 1 ((List.range k).map (fun i => bit (p i)))) j = (decide (j < k) && p j) := by
  rw [bitOf_eq_decide, ofLanes_digit]
  by_cases hj : j < k
  · cases hp : p j <;> simp [List.getD, hj, hp, bit]
  · simp [List.getD, hj]

/-! ### Lanes of a register (R331) -/

theorem vWidth_mul_vLanes (f : Nat) : vWidth f * vLanes f = 256 ∧ 0 < vWidth f ∧ vWidth f ≤ 32 ∧ vLanes f ≤ 32 := by
  unfold vWidth vLanes
  split <;> decide

theorem lane_eq (f v j : Nat) : lane f v j = v / 2 ^ (vWidth f * j) % 2 ^ vWidth f := by
  obtain ⟨-, hpos, -, -⟩ := vWidth_mul_vLanes f
  have hwidth : vWidth f * j + vWidth f - 1 + 1 - vWidth f * j = vWidth f := by omega
  rw [lane, bitsOf, hwidth, Nat.shiftRight_eq_div_pow]

theorem lane_lt (f v j : Nat) : lane f v j < 2 ^ vWidth f := by
  rw [lane_eq]
  exact Nat.mod_lt _ (Nat.two_pow_pos _)

theorem lane_mapLanes (g : Nat → Nat) (hj : j < vLanes f) : lane f (mapLanes f g) j = g j % 2 ^ vWidth f := by
  rw [lane_eq, mapLanes, ofLanes_digit]
  simp [List.getD, hj]

theorem mapLanes_lt (f : Nat) (g : Nat → Nat) : mapLanes f g < 2 ^ 256 := by
  have h := ofLanes_lt (vWidth f) ((List.range (vLanes f)).map g)
  rwa [List.length_map, List.length_range, (vWidth_mul_vLanes f).1] at h

theorem bitOf_quarterMask (p : Nat → Bool) (hq : q < 4) :
    bitOf (quarterMask f p) q = (List.range (vLanes f)).any (fun j => vWidth f * j / 64 = q && p j) := by
  rw [quarterMask, bitOf_ofLanes, decide_eq_true hq, Bool.true_and]

theorem quarterMask_lt (f : Nat) (p : Nat → Bool) : quarterMask f p < 16 := by
  have h := ofLanes_lt 1 ((List.range 4).map (fun q => bit ((List.range (vLanes f)).any (fun i => vWidth f * i / 64 = q && p i))))
  rwa [List.length_map, List.length_range] at h

end

section
variable {u : State} {l i r X pz pc : Nat} {n : Needle} {b : Bool}

/-! ### The destination register -/

theorem vv_goesTo_setV (hX : X < 2 ^ 256) : ((goesTo u l i (n.setV r X pz) pc).needle l i).vv r = X := by
  rw [needle_goesTo]
  exact (fetch_store ..).trans ((if_pos rfl).trans (Nat.mod_eq_of_lt hX))

theorem vp_goesTo_setV : ((goesTo u l i (n.setV r X pz) pc).needle l i).vp r = pz % 16 := by
  rw [needle_goesTo]
  exact (fetch_store ..).trans (if_pos rfl)

theorem gv_goesTo_setG (hX : X < 2 ^ 64) : ((goesTo u l i (n.setG r X b) pc).needle l i).gv r = X := by
  rw [needle_goesTo]
  exact (fetch_store ..).trans ((if_pos rfl).trans (Nat.mod_eq_of_lt hX))

end

/-- A write of some lanes leaves the others, and changes nothing but its register. -/
theorem goesTo_putLanes (u : State) (l i pc : Nat) (n : Needle) (r f lo : Nat) (xs : List (Nat × Bool)) :
    let t := goesTo u l i (n.putLanes r f lo xs) pc
    (∀ e ∈ List.range (vLanes f), lane f ((t.needle l i).vv r) e =
      if lo ≤ e ∧ e < lo + xs.length then (xs.getD (e - lo) (0, false)).1 % 2 ^ vWidth f else lane f (n.vv r) e) ∧
    t = goesTo u l i (n.setV r ((t.needle l i).vv r) ((t.needle l i).vp r)) pc := by
  have hmod (X pz : Nat) : n.setV r X (pz % 16) = n.setV r X pz := by rw [Needle.setV, Needle.setV, Nat.mod_mod]
  refine ⟨fun e he => ?_, ?_⟩
  · rw [Needle.putLanes, vv_goesTo_setV (mapLanes_lt ..), lane_mapLanes _ (List.mem_range.mp he)]
    simp only [Bool.and_eq_true, decide_eq_true_eq]
    split
    · rfl
    · exact Nat.mod_eq_of_lt (lane_lt ..)
  · rw [Needle.putLanes, vv_goesTo_setV (mapLanes_lt ..), vp_goesTo_setV, hmod]

/-! ### The lane operations (R351 to R353) -/

section
variable (x y : BitVec 32)

theorem sg32_toNat : sg32 x.toNat = x.toInt := by
  rw [sg32, signed, BitVec.toInt_eq_toNat_cond, Nat.mod_eq_of_lt x.isLt]
  exact if_congr (by omega) rfl rfl

theorem sle_iff_sg32 : x.sle y = true ↔ sg32 x.toNat ≤ sg32 y.toNat := by
  rw [sg32_toNat, sg32_toNat, BitVec.sle_iff_toInt_le]

theorem bitOf_toNat_31 : bitOf x.toNat 31 = x.msb := by
  rw [bitOf_eq_decide, BitVec.msb_eq_decide]
  have h := x.isLt
  exact decide_eq_decide.mpr (by omega)

theorem toNat_sshiftRight_eq (k : Nat) : (x.sshiftRight k).toNat = unsigned 32 (sg32 x.toNat / (2 ^ k : Nat)) := by
  rw [sg32_toNat, ← Int.shiftRight_eq_div_pow, ← BitVec.toInt_sshiftRight, unsigned, ← BitVec.toNat_ofInt, BitVec.ofInt_toInt]


theorem laneOp_int (mn : Mn) : laneOp mn 4 x.toNat y.toNat = vopSpec mn 4 x.toNat y.toNat := by
  have hsub : x.toNat + 2 ^ 32 - y.toNat = 2 ^ 32 - y.toNat + x.toNat := by
    have := y.isLt
    omega
  cases mn
  case vadd | vmul => simp [laneOp, vopSpec, BitVec.toNat_add, BitVec.toNat_mul]
  case vsub => simp only [laneOp, vopSpec, if_true, BitVec.ofNat_toNat, BitVec.setWidth_eq, BitVec.toNat_sub, hsub]
  case vmax | vmin => simp only [laneOp, vopSpec, if_true, BitVec.ofNat_toNat, BitVec.setWidth_eq, sle_iff_sg32]
  case vabs => simp only [laneOp, vopSpec, if_true, BitVec.ofNat_toNat, BitVec.setWidth_eq, bitOf_toNat_31, BitVec.toNat_neg]
  case vneg => simp only [laneOp, vopSpec, if_true, BitVec.ofNat_toNat, BitVec.setWidth_eq, BitVec.toNat_neg]
  case vand | vor | vxor => simp [laneOp, vopSpec]
  case vshl | vshr => simp [laneOp, vopSpec]
  case vsar => simp only [laneOp, vopSpec, if_true, BitVec.ofNat_toNat, BitVec.setWidth_eq, toNat_sshiftRight_eq]
  all_goals rfl

end

/-- The lane operations on 32-bit integers are those of two's complement; the others round a result of IEEE 754 into the lane. -/
theorem laneOp_eq_vopSpec {mn : Mn} {f a b : Nat} (hf : f = 4 ∨ mn ∈ [Mn.vadd, .vsub, .vmul, .vmax, .vmin, .vabs, .vneg, .vmov])
    (ha : a < 2 ^ vWidth f) (hb : b < 2 ^ vWidth f) : laneOp mn f a b = vopSpec mn f a b := by
  by_cases h4 : f = 4
  · subst h4
    have hwidth : vWidth 4 = 32 := rfl
    rw [hwidth] at ha hb
    have hint := laneOp_int (BitVec.ofNat 32 a) (BitVec.ofNat 32 b) mn
    rwa [BitVec.toNat_ofNat, BitVec.toNat_ofNat, Nat.mod_eq_of_lt ha, Nat.mod_eq_of_lt hb] at hint
  · have hmn := hf.resolve_left h4
    simp only [List.mem_cons, List.not_mem_nil, or_false] at hmn
    rcases hmn with rfl | rfl | rfl | rfl | rfl | rfl | rfl | rfl
    all_goals simp only [laneOp, vopSpec, if_neg h4]


/-! ### The instructions -/

section
variable {s : State} {l i w : Nat} {mn : Mn} {ecc : Ecc}

/-- Lanes are 32-bit integers for the bitwise functions and the shifts (R331, R353). -/
theorem vop_format {m : SMap Byte} {kind : Nat} {hm : Bool} (hmn : mn ∈ vopTwo ∨ mn = .vabs ∨ mn = .vneg ∨ mn = .vmov)
    (h : legal m kind hm mn w = true) :
    bitsOf w 10 8 = 4 ∨ mn ∈ [Mn.vadd, .vsub, .vmul, .vmax, .vmin, .vabs, .vneg, .vmov] := by
  simp only [vopTwo, List.mem_cons, List.not_mem_nil, or_false] at hmn
  rcases hmn with (rfl | rfl | rfl | rfl | rfl | rfl | rfl | rfl | rfl | rfl | rfl) | rfl | rfl | rfl
  exacts [.inr (by decide), .inr (by decide), .inr (by decide), .inr (by decide), .inr (by decide),
    .inl (of_decide_eq_true h), .inl (of_decide_eq_true h), .inl (of_decide_eq_true h), .inl (of_decide_eq_true h),
    .inl (of_decide_eq_true h), .inl (of_decide_eq_true h), .inr (by decide), .inr (by decide), .inr (by decide)]

/-- The quarters of the destination that VOP poisons: VABS, VNEG and VMOV read one register (R321). -/
def vopPoison (mn : Mn) (w : Nat) (n : Needle) : Nat :=
  if mn ∈ vopTwo then n.vp (fA w) ||| n.vp (fB w) else n.vp (fA w)

/-- The destination that VOP builds, lane by lane. -/
def vopLanes (mn : Mn) (w : Nat) (n : Needle) : Nat :=
  mapLanes (bitsOf w 10 8) (fun j =>
    laneOp mn (bitsOf w 10 8) (lane (bitsOf w 10 8) (n.vv (fA w)) j) (lane (bitsOf w 10 8) (n.vv (fB w)) j))

theorem vopLanes_lt (mn : Mn) (w : Nat) (n : Needle) : vopLanes mn w n < 2 ^ 256 := mapLanes_lt _ _

theorem dataOp_vop (hmn : mn ∈ vopTwo ∨ mn = .vabs ∨ mn = .vneg ∨ mn = .vmov) (c : Ctx) (s : State) (n : Needle) :
    mn.isData = true ∧ dataOp mn c ecc w s n.fresh =
      .ok s ((n.mark (vopPoison mn w n ≠ 0)).setV (fD w) (vopLanes mn w n) (vopPoison mn w n)).fresh := by
  have hone : n.vp (fA w) = n.vp (fA w) ||| 0 := (Nat.or_zero _).symm
  rcases hmn with htwo | hmn
  · rw [vopPoison, if_pos htwo]
    simp only [vopTwo, List.mem_cons, List.not_mem_nil, or_false] at htwo
    rcases htwo with rfl | rfl | rfl | rfl | rfl | rfl | rfl | rfl | rfl | rfl | rfl
    all_goals exact ⟨rfl, rfl⟩
  · rw [vopPoison, if_neg (by rcases hmn with rfl | rfl | rfl <;> decide), hone]
    rcases hmn with rfl | rfl | rfl
    all_goals exact ⟨rfl, rfl⟩

theorem exec_vop (hmn : mn ∈ vopTwo ∨ mn = .vabs ∨ mn = .vneg ∨ mn = .vmov) (h : standsAt s l i w mn = true) :
    let n := s.needle l i
    let f := bitsOf w 10 8
    let pz := if mn ∈ vopTwo then n.vp (fA w) ||| n.vp (fB w) else n.vp (fA w)
    ∃ t : State, exec (needleInstr mn l i ecc) s = .next t ∧
      (∀ j ∈ List.range (vLanes f), lane f ((t.needle l i).vv (fD w)) j =
        vopSpec mn f (lane f (n.vv (fA w)) j) (lane f (n.vv (fB w)) j) % 2 ^ vWidth f) ∧
      t = ran (counted s ecc) l i ((n.mark (pz ≠ 0)).setV (fD w) ((t.needle l i).vv (fD w)) pz) := by
  intro n f pz
  obtain ⟨hdata, hop⟩ := dataOp_vop (ecc := ecc) (w := w) hmn (s.ctxOf l i) (counted s ecc) n
  refine ⟨_, exec_data_ok h hdata hop, fun j hj => ?_, ?_⟩
  · rw [vv_goesTo_setV (vopLanes_lt ..), vopLanes, lane_mapLanes _ (List.mem_range.mp hj),
      laneOp_eq_vopSpec (vop_format hmn (standsAt_iff.mp h).2) (lane_lt ..) (lane_lt ..)]
  · rw [vv_goesTo_setV (vopLanes_lt ..)]
    rfl


theorem exec_vfma (h : standsAt s l i w .vfma = true) :
    let n := s.needle l i
    let f := bitsOf w 5 3
    let c := bitsOf w 10 6
    let pz := n.vp (fA w) ||| n.vp (fB w) ||| n.vp c
    ∃ t : State, exec (.vfma l i ecc) s = .next t ∧
      (∀ j ∈ List.range (vLanes f), lane f ((t.needle l i).vv (fD w)) j =
        (let a := lane f (n.vv (fA w)) j
         let b := lane f (n.vv (fB w)) j
         let x := lane f (n.vv c) j
         if f = 4 then (a * b + x) % 2 ^ 32 else numLane f (numAdd (numMul (laneNum f a) (laneNum f b)) (laneNum f x)) % 2 ^ vWidth f)) ∧
      t = ran (counted s ecc) l i ((n.mark (pz ≠ 0)).setV (fD w) ((t.needle l i).vv (fD w)) pz) := by
  intro n f c pz
  refine ⟨_, exec_data_ok (m := (n.mark (pz ≠ 0)).setV (fD w) (mapLanes f _) pz) h rfl rfl, fun j hj => ?_, ?_⟩
  · rw [vv_goesTo_setV (mapLanes_lt ..), lane_mapLanes _ (List.mem_range.mp hj)]
    by_cases h4 : f = 4
    · have hwidth : vWidth f = 32 := by rw [h4]; rfl
      rw [if_pos h4, if_pos h4, hwidth, Nat.mod_mod]
      rfl
    · rw [if_neg h4, if_neg h4]
      rfl
  · rw [vv_goesTo_setV (mapLanes_lt ..)]
    rfl

theorem exec_vbcst (h : standsAt s l i w .vbcst = true) :
    let n := s.needle l i
    let f := bitsOf w 10 8
    ∃ t : State, exec (.vbcst l i ecc) s = .next t ∧
      (∀ j ∈ List.range (vLanes f), lane f ((t.needle l i).vv (fD w)) j = n.gv (fA w) % 2 ^ vWidth f) ∧
      t = ran (counted s ecc) l i ((n.mark (n.gp (fA w))).setV (fD w) ((t.needle l i).vv (fD w)) (if n.gp (fA w) then 15 else 0)) := by
  intro n f
  refine ⟨_, exec_data_ok (m := (n.mark (n.gp (fA w))).setV (fD w) (mapLanes f (fun _ => n.gv (fA w) % 2 ^ vWidth f))
    (if n.gp (fA w) then 15 else 0)) h rfl rfl, fun j hj => ?_, ?_⟩
  · rw [vv_goesTo_setV (mapLanes_lt ..), lane_mapLanes _ (List.mem_range.mp hj), Nat.mod_mod]
  · rw [vv_goesTo_setV (mapLanes_lt ..)]
    rfl

theorem exec_vcmp (h : standsAt s l i w .vcmp = true) :
    let n := s.needle l i
    let f := bitsOf w 10 8
    let pz := n.vp (fA w) ≠ 0 || n.vp (fB w) ≠ 0
    ∃ t : State, exec (.vcmp l i ecc) s = .next t ∧
      (∀ j ∈ List.range 64, bitOf ((t.needle l i).gv (fD w)) j =
        (j < vLanes f && condHolds (bitsOf w 3 0) (laneCmp f (lane f (n.vv (fA w)) j) (lane f (n.vv (fB w)) j)))) ∧
      t = ran (counted s ecc) l i ((n.mark pz).setG (fD w) ((t.needle l i).gv (fD w)) pz) := by
  intro n f pz
  let holds := fun j => condHolds (bitsOf w 3 0) (laneCmp f (lane f (n.vv (fA w)) j) (lane f (n.vv (fB w)) j))
  let mask := ofLanes 1 ((List.range (vLanes f)).map (fun j => bit (holds j)))
  have hmask : mask < 2 ^ 64 := by
    have hlt : mask < 2 ^ (1 * _) := ofLanes_lt 1 _
    rw [List.length_map, List.length_range, Nat.one_mul] at hlt
    exact hlt.trans_le (Nat.pow_le_pow_right (by decide) ((vWidth_mul_vLanes f).2.2.2.trans (by decide)))
  refine ⟨_, exec_data_ok (m := (n.mark pz).setG (fD w) mask pz) h rfl rfl, fun j hj => ?_, ?_⟩
  · rw [gv_goesTo_setG hmask, bitOf_ofLanes]
  · rw [gv_goesTo_setG hmask]
    rfl

theorem exec_vext (h : standsAt s l i w .vext = true) :
    let n := s.needle l i
    let f := bitsOf w 10 8
    let j := bitsOf w 4 0
    let pz := bitOf (n.vp (fA w)) (vWidth f * j / 64)
    exec (.vext l i ecc) s = .next (ran (counted s ecc) l i ((n.mark pz).setG (fD w) (lane f (n.vv (fA w)) j) pz)) :=
  exec_data_ok h rfl rfl

theorem exec_vsel (h : standsAt s l i w .vsel = true) :
    let n := s.needle l i
    let f := bitsOf w 5 3
    let gm := bitsOf w 10 6
    ∃ t : State, exec (.vsel l i ecc) s = .next t ∧
      (∀ j ∈ List.range (vLanes f), lane f ((t.needle l i).vv (fD w)) j = lane f (n.vv (if bitOf (n.gv gm) j then fA w else fB w)) j) ∧
      (∀ q ∈ List.range 4, bitOf ((t.needle l i).vp (fD w)) q = (n.gp gm || (List.range (vLanes f)).any (fun j =>
        vWidth f * j / 64 = q && bitOf (n.vp (if bitOf (n.gv gm) j then fA w else fB w)) q))) ∧
      t = ran (counted s ecc) l i ((n.mark (n.gp gm || n.vp (fA w) ≠ 0 || n.vp (fB w) ≠ 0)).setV (fD w) ((t.needle l i).vv (fD w))
        ((t.needle l i).vp (fD w))) := by
  intro n f gm
  let pick := fun j => if bitOf (n.gv gm) j then fA w else fB w
  let pz := if n.gp gm then 15 else quarterMask f (fun j => bitOf (n.vp (pick j)) (vWidth f * j / 64))
  have hpz : pz % 16 = pz := Nat.mod_eq_of_lt (by
    unfold pz
    split
    · decide
    · exact quarterMask_lt ..)
  refine ⟨_, exec_data_ok (m := (n.mark (n.gp gm || n.vp (fA w) ≠ 0 || n.vp (fB w) ≠ 0)).setV (fD w)
    (mapLanes f (fun j => lane f (n.vv (pick j)) j)) pz) h rfl rfl, fun j hj => ?_, fun q hq => ?_, ?_⟩
  · rw [vv_goesTo_setV (mapLanes_lt ..), lane_mapLanes _ (List.mem_range.mp hj), Nat.mod_eq_of_lt (lane_lt ..)]
  · rw [vp_goesTo_setV, hpz]
    by_cases hgp : n.gp gm = true
    · have hall : ∀ q ∈ List.range 4, bitOf 15 q = true := by decide
      rw [hgp, Bool.true_or, ← hall q hq]
      exact congrArg (bitOf · q) (if_pos hgp)
    · rw [Bool.eq_false_iff.mpr hgp, Bool.false_or]
      refine (congrArg (bitOf · q) (if_neg hgp)).trans ((bitOf_quarterMask _ (List.mem_range.mp hq)).trans ?_)
      refine any_congr_of_mem fun j _ => ?_
      by_cases hj : vWidth f * j / 64 = q
      · rw [hj]
      · simp only [hj, decide_false, Bool.false_and]
  · rw [vv_goesTo_setV (mapLanes_lt ..), vp_goesTo_setV, hpz]
    rfl


/-- What an instruction leaves that writes eight lanes of a register, from lane `lo` on. -/
theorem exec_putLanes {mn : Mn} {r f lo : Nat} {b : Bool} {x : Nat → Nat × Bool} (h : standsAt s l i w mn = true)
    (hmn : mn.isData = true) (hop : dataOp mn (s.ctxOf l i) ecc w (counted s ecc) (s.needle l i).fresh =
      .ok (counted s ecc) (((s.needle l i).mark b).putLanes r f lo ((List.range 8).map x)).fresh) : let n := s.needle l i
    ∃ t : State, exec (needleInstr mn l i ecc) s = .next t ∧
      (∀ j ∈ List.range (vLanes f), lane f ((t.needle l i).vv r) j =
        if lo ≤ j ∧ j < lo + 8 then (x (j - lo)).1 % 2 ^ vWidth f else lane f (n.vv r) j) ∧
      t = ran (counted s ecc) l i ((n.mark b).setV r ((t.needle l i).vv r) ((t.needle l i).vp r)) := by
  intro n
  obtain ⟨hlanes, ht⟩ := goesTo_putLanes (counted s ecc) l i (n.pc + 4) (n.mark b) r f lo ((List.range 8).map x)
  refine ⟨_, exec_data_ok h hmn hop, fun j hj => ?_, ht⟩
  rw [hlanes j hj, List.length_map, List.length_range]
  by_cases hin : lo ≤ j ∧ j < lo + 8
  · rw [if_pos hin, if_pos hin, List.getD_eq_getElem _ _ (by simp; omega), List.getElem_map, List.getElem_range]
  · rw [if_neg hin, if_neg hin]
    rfl

theorem exec_vcvt (h : standsAt s l i w .vcvt = true) :
    let n := s.needle l i
    let f := bitsOf w 10 8
    let g := bitsOf w 7 5
    let qs := 8 * bitsOf w 4 3
    let qd := 8 * bitsOf w 2 1
    let pz := (List.range 8).any (fun j => bitOf (n.vp (fA w)) (vWidth f * (qs + j) / 64))
    ∃ t : State, exec (.vcvt l i ecc) s = .next t ∧
      (∀ j ∈ List.range (vLanes g), lane g ((t.needle l i).vv (fD w)) j =
        if qd ≤ j ∧ j < qd + 8 then laneConv f g (lane f (n.vv (fA w)) (qs + (j - qd))) % 2 ^ vWidth g else lane g (n.vv (fD w)) j) ∧
      t = ran (counted s ecc) l i ((n.mark pz).setV (fD w) ((t.needle l i).vv (fD w)) ((t.needle l i).vp (fD w))) := by
  intro n f g qs qd pz
  let conv := fun j => (laneConv f g (lane f (n.vv (fA w)) (qs + j)), bitOf (n.vp (fA w)) (vWidth f * (qs + j) / 64))
  have hany : ((List.range 8).map conv).any (fun x => x.2) = pz := List.any_map
  have hop : opVcvt w (counted s ecc) n.fresh =
      .ok (counted s ecc) ((n.mark pz).putLanes (fD w) g qd ((List.range 8).map conv)).fresh := by
    rw [← hany]
    rfl
  exact exec_putLanes h rfl hop

/-- Settles O30: a register that is built lane by lane has the lanes it was built of, and each operation gives the lane of the
specification. -/
theorem vectorInstructions : Obligations.VectorInstructions :=
  ⟨fun _ _ _ _ _ _ hmn h => exec_vop hmn h, fun _ _ _ _ _ h => exec_vfma h, fun _ _ _ _ _ h => exec_vcmp h,
    fun _ _ _ _ _ h => exec_vsel h, fun _ _ _ _ _ h => exec_vbcst h, fun _ _ _ _ _ h => exec_vext h, fun _ _ _ _ _ h => exec_vcvt h⟩

end

end Sys2Proof.Machine
end

section
/-! PROOFS. The ply instructions (O31): the element that each of them writes into each lane, and what else changes. -/

namespace Sys2Proof.Machine

section
variable {k : Nat} {a b : List Nat}

/-! ### The elements that are written (R159, R165) -/

theorem length_plyAdd (hk : k ≠ 0) (ha : a.length = k) (hb : b.length = k) : (plyAdd k a b).1.length = k := by
  by_cases hfin : (plyKind a).add (plyKind b) = .finite
  · obtain ⟨hfa, hfb⟩ := PlyKind.add_eq_finite.mp hfin
    rw [plyAdd_of_finite hfa hfb]
    split
    · simp [wordSums, ha, hb]
    · exact length_specialWords hk _
  · rw [plyAdd_of_special hfin]
    exact length_specialWords hk _

theorem length_plyConvert (hk : k ≠ 0) (g : Nat) (x : Num) : (plyConvert k g x).length = k := by
  cases x with
  | fin neg m e => exact length_splitWords ..
  | _ => exact length_specialWords hk _

/-- The element that PCVT writes for a term: zero if the term misses the gauge byte (R360). -/
def pcvtEl (k gb : Nat) (x : Num) : List Nat := if gb < expByte x then List.replicate k 0 else plyConvert k gb x

theorem length_pcvtEl (hk : k ≠ 0) (gb : Nat) (x : Num) : (pcvtEl k gb x).length = k := by
  unfold pcvtEl
  split
  · exact List.length_replicate
  · exact length_plyConvert hk _ _

theorem length_plyEl (n : Needle) (r k j : Nat) : (n.plyEl r k j).length = k := by simp [Needle.plyEl]

theorem ne_zero_of_plyOperand {d : Nat} (h : plyOperand d k = true) : k ≠ 0 := by
  rintro rfl
  cases h

/-- A mask of lanes is the sum of their bits. -/
theorem ofLanes_one_eq_sum (p : Nat → Bool) (k : Nat) :
    ofLanes 1 ((List.range k).map (fun j => bit (p j))) = ((List.range k).map (fun j => if p j then 2 ^ j else 0)).sum := by
  induction k generalizing p with
  | zero => rfl
  | succ k ih =>
    have htail : (fun j => if p (j + 1) then 2 ^ (j + 1) else 0) = fun j => 2 * (if p (j + 1) then 2 ^ j else 0) := by
      funext j
      split <;> omega
    rw [List.range_succ_eq_map, List.map_cons, List.map_map, List.map_cons, List.map_map, ofLanes, List.sum_cons]
    have := ih (fun j => p (j + 1))
    simp only [Function.comp_def, Nat.succ_eq_add_one, this, htail, List.sum_map_mul_left]
    cases p 0 <;> rfl

/-! ### Writes to all lanes -/

theorem Needle.foldl_zip_setPly (n : Needle) (d : Nat) {α : Type} (f : Nat → α) (el : α → List Nat) (es : List Nat) :
    (es.zip (es.map f)).foldl (fun n e => n.setPly d e.1 (el e.2)) n = { n with p := storePlies n.p d (fun j => el (f j)) es } := by
  rw [← List.map_prod_left_eq_zip, List.foldl_map]
  exact n.foldl_setPly d (fun j => el (f j)) es

theorem Needle.foldl_zip_setPly_mark (n : Needle) (d : Nat) (f : Nat → List Nat × Bool) (es : List Nat) :
    (es.zip (es.map f)).foldl (fun n e => (n.setPly d e.1 e.2.1).mark (elPoison e.2.1)) n =
      { n with p := storePlies n.p d (fun j => (f j).1) es, pf := n.pf || es.any (fun j => elPoison (f j).1) } := by
  rw [← List.map_prod_left_eq_zip, List.foldl_map]
  exact n.foldl_setPly_mark d (fun j => (f j).1) (fun j => elPoison (f j).1) es

@[simp] theorem Needle.mark_false (n : Needle) : n.mark false = n := by simp [Needle.mark]

end

section
variable {s u : State} {l i w d k : Nat} {mn : Mn} {ecc : Ecc} {q : Needle} {el : Nat → List Nat}

/-- An instruction that writes a ply element into every lane leaves the other registers. -/
theorem exec_plies (h : standsAt s l i w mn = true) (hmn : mn.isData = true)
    (hop : dataOp mn (s.ctxOf l i) ecc w (counted s ecc) (s.needle l i).fresh = .ok (counted s ecc) q.fresh)
    (hq : q.p = storePlies (s.needle l i).p d el (List.range 8)) (hlen : ∀ e < 8, (el e).length = k) :
    let n := s.needle l i
    ∃ t : State, exec (needleInstr mn l i ecc) s = .next t ∧
      (∀ j ∈ List.range 8, (t.needle l i).plyEl d k j = (el j).map (fun x => x % 2 ^ 64)) ∧
      (∀ r ∈ List.range 8, ∀ j ∈ List.range 8, d ≤ r ∧ r < d + k ∨ (t.needle l i).pv r j = n.pv r j) ∧
      t = ran (counted s ecc) l i { q with p := (t.needle l i).p } := by
  intro n
  obtain ⟨hel, hother, hp, -⟩ := plies_goesTo (counted s ecc) l i (n.pc + 4) hq hlen
  refine ⟨_, exec_data_ok h hmn hop, hel, hother, ?_⟩
  rw [hp]
  rfl

/-! ### PADD (R361, R362) -/

/-- The sum in lane `j`, and whether it carries out. -/
def Needle.sumAt (n : Needle) (w j : Nat) : List Nat × Bool :=
  plyAdd (bitsOf w 10 9) (n.plyEl (fA w) (bitsOf w 10 9) j) (n.plyEl (fB w) (bitsOf w 10 9) j)

/-- The needle once PADD has written all of the sum. -/
def Needle.summed (n : Needle) (w : Nat) : Needle :=
  { n with p := storePlies n.p (fD w) (fun j => (n.sumAt w j).1) (List.range 8),
           pf := n.pf || (List.range 8).any (fun j => elPoison (n.sumAt w j).1) }

/-- The lanes whose sums carry out. -/
def Needle.carries (n : Needle) (w : Nat) : Nat := ((List.range 8).map (fun j => if (n.sumAt w j).2 then 2 ^ j else 0)).sum

theorem opPadd_eq (w : Nat) (s : State) (n : Needle) : opPadd w s n =
    trapIf (!(plyOperand (fD w) (bitsOf w 10 9) && plyOperand (fA w) (bitsOf w 10 9) && plyOperand (fB w) (bitsOf w 10 9))) 0x0D 0
      (if n.carries w = 0 then .ok s (n.summed w) else .okTrap s (n.summed w) 0x0E (n.carries w)) := by
  have hcarry : ofLanes 1 (((List.range 8).map (n.sumAt w)).map (fun r => bit r.2)) = n.carries w := by
    rw [List.map_map]
    exact ofLanes_one_eq_sum (fun j => (n.sumAt w j).2) 8
  rw [← hcarry, Needle.summed, ← n.foldl_zip_setPly_mark]
  rfl

theorem length_sumAt (hk : bitsOf w 10 9 ≠ 0) (n : Needle) (j : Nat) : (n.sumAt w j).1.length = bitsOf w 10 9 :=
  length_plyAdd hk (length_plyEl ..) (length_plyEl ..)


theorem exec_padd_operand (h : standsAt s l i w .padd = true)
    (hop : plyOperand (fD w) (bitsOf w 10 9) = false ∨ plyOperand (fA w) (bitsOf w 10 9) = false ∨ plyOperand (fB w) (bitsOf w 10 9) = false) :
    exec (.padd l i ecc) s = .next (trapsAt (counted s ecc) l i 0x0D 0) := by
  refine exec_data_trap h rfl ((opPadd_eq w (counted s ecc) (s.needle l i).fresh).trans (trapIf_pos ?_ _ _ _))
  rcases hop with hop | hop | hop <;> simp [hop]

section
variable (h : standsAt s l i w .padd = true) (hd : plyOperand (fD w) (bitsOf w 10 9) = true)
  (ha : plyOperand (fA w) (bitsOf w 10 9) = true) (hb : plyOperand (fB w) (bitsOf w 10 9) = true)
include h hd ha hb

omit h in
theorem opPadd_fresh (s : State) (n : Needle) : opPadd w s n.fresh =
    if n.carries w = 0 then .ok s (n.summed w).fresh else .okTrap s (n.summed w).fresh 0x0E (n.carries w) := by
  rw [opPadd_eq]
  exact trapIf_neg (by simp [hd, ha, hb]) _ _ _

theorem exec_padd (hsum : ∀ j ∈ List.range 8, ((s.needle l i).sumAt w j).2 = false) : let n := s.needle l i
    ∃ t : State, exec (.padd l i ecc) s = .next t ∧
      (∀ j ∈ List.range 8, (t.needle l i).plyEl (fD w) (bitsOf w 10 9) j = (n.sumAt w j).1.map (fun x => x % 2 ^ 64)) ∧
      (∀ r ∈ List.range 8, ∀ j ∈ List.range 8, fD w ≤ r ∧ r < fD w + bitsOf w 10 9 ∨ (t.needle l i).pv r j = n.pv r j) ∧
      t = ran (counted s ecc) l i { n.summed w with p := (t.needle l i).p } := by
  intro n
  have hcarries : n.carries w = 0 := List.sum_eq_zero fun x hx => by
    obtain ⟨j, hj, rfl⟩ := List.mem_map.mp hx
    exact if_neg (by simp [hsum j hj, n])
  exact exec_plies h rfl ((opPadd_fresh hd ha hb (counted s ecc) n).trans (if_pos hcarries)) rfl
    fun e _ => length_sumAt (ne_zero_of_plyOperand hd) n e

theorem exec_padd_carry (hmask : (s.needle l i).carries w ≠ 0) (hhm : (s.needle l i).hm = false)
    (hvec : vectorOf (s.row l).prog 0x0E ≠ 0) : let n := s.needle l i
    ∃ t : State, exec (.padd l i ecc) s = .next t ∧
      (∀ j ∈ List.range 8, (t.needle l i).plyEl (fD w) (bitsOf w 10 9) j = (n.sumAt w j).1.map (fun x => x % 2 ^ 64)) ∧
      (t.needle l i).hm = true ∧ (t.needle l i).tcause = 0x0E + 128 ∧ (t.needle l i).taddr = n.carries w ∧
      (t.needle l i).tpc = (n.pc + 4) % 65536 ∧ (t.needle l i).pc = vectorOf (s.row l).prog 0x0E ∧ t.mem = s.mem := by
  intro n
  have hexec := (exec_data (ecc := ecc) h rfl).trans (congrArg (fun r => Host.Outcome.next ((counted s ecc).answered l i n.fresh 4 r))
    ((opPadd_fresh hd ha hb (counted s ecc) n).trans (if_neg hmask)))
  rw [State.answered, State.needleTrap_completing, if_pos ⟨hhm, hvec⟩] at hexec
  refine ⟨_, hexec, ?_⟩
  rw [State.needle_setNeedle_same]
  exact ⟨fun j hj => Needle.plyEl_of_storePlies (n := n) rfl (fun e _ => length_sumAt (ne_zero_of_plyOperand hd) n e) (List.mem_range.mp hj),
    rfl, rfl, rfl, rfl, rfl, rfl⟩

end

/-! ### PMOV and PZERO -/

theorem exec_pmov (h : standsAt s l i w .pmov = true) : let n := s.needle l i
    let k := bitsOf w 10 9
    plyOperand (fD w) k = true → plyOperand (fA w) k = true →
    ∃ t : State, exec (.pmov l i ecc) s = .next t ∧
      (∀ j ∈ List.range 8, (t.needle l i).plyEl (fD w) k j = (n.plyEl (fA w) k j).map (fun x => x % 2 ^ 64)) ∧
      (∀ r ∈ List.range 8, ∀ j ∈ List.range 8, fD w ≤ r ∧ r < fD w + k ∨ (t.needle l i).pv r j = n.pv r j) ∧
      t = ran (counted s ecc) l i { n with p := (t.needle l i).p, pf := n.pf || (List.range 8).any (fun j => elPoison (n.plyEl (fA w) k j)) } := by
  intro n k hd ha
  let pz := (List.range 8).any (fun j => elPoison (n.plyEl (fA w) k j))
  have hany : ((List.range 8).map (fun j => n.plyEl (fA w) k j)).any elPoison = pz := List.any_map
  have hfold := (n.mark pz).fresh.foldl_zip_setPly (fD w) (fun j => n.plyEl (fA w) k j) (fun x => x) (List.range 8)
  have hop : opPmov w (counted s ecc) n.fresh = .ok (counted s ecc) (Needle.fresh { n.mark pz with
      p := storePlies n.p (fD w) (fun j => n.plyEl (fA w) k j) (List.range 8) }) := by
    refine (trapIf_neg (by simp [hd, ha, k]) _ _ _).trans (congrArg (NRes.ok _) (Eq.trans ?_ hfold))
    rw [← hany]
    rfl
  exact exec_plies h rfl hop rfl fun e _ => length_plyEl ..

theorem exec_pzero (h : standsAt s l i w .pzero = true) : let n := s.needle l i
    let k := bitsOf w 10 9
    plyOperand (fD w) k = true →
    ∃ t : State, exec (.pzero l i ecc) s = .next t ∧
      (∀ r ∈ List.range 8, ∀ j ∈ List.range 8, (t.needle l i).pv r j = if fD w ≤ r ∧ r < fD w + k then 0 else n.pv r j) ∧
      t = ran (counted s ecc) l i { n with p := (t.needle l i).p } := by
  intro n k hd
  let m : Needle := { n with p := storePlies n.p (fD w) (fun _ => List.replicate k 0) (List.range 8) }
  have hop : opPzero w (counted s ecc) n.fresh = .ok (counted s ecc) m.fresh :=
    (trapIf_neg (by simp [hd, k]) _ _ _).trans
      (congrArg (NRes.ok _) (n.fresh.foldl_setPly (fD w) (fun _ => List.replicate k 0) (List.range 8)))
  refine ⟨_, exec_data_ok h rfl hop, fun r _ j hj => ?_, ?_⟩
  · rw [needle_goesTo, Needle.pv_of_storePlies (n := n) rfl (fun _ _ => List.length_replicate) (List.mem_range.mp hj)]
    by_cases hin : fD w ≤ r ∧ r < fD w + k
    · have hzero : (List.replicate k 0).getD (r - fD w) 0 = 0 := List.getD_replicate _ (by omega)
      rw [if_pos hin, if_pos hin]
      exact congrArg (· % 2 ^ 64) hzero
    · rw [if_neg hin, if_neg hin]
  · rw [needle_goesTo]
    rfl

/-! ### GAUGE and PCVT (R358 to R360) -/

/-- The needle once GAUGE has taken the largest exponent byte. -/
def Needle.gauged (n : Needle) (w code : Nat) : Needle :=
  let bs := (List.range (fmtTerms code)).map (fun j => expByte (n.termNum (fA w) code j (n.gv (fD w))))
  (n.mark (n.gp (fD w) || n.vp (fA w) ≠ 0)).setG (fD w) (putBits (n.gv (fD w)) 7 0 (bs.foldl max (n.gv (fD w) % 256))) (n.gp (fD w))

theorem opGauge_fresh {c : Ctx} {code : Nat} (hcode : attrIn (tensorAttr c.m (bitsOf w 10 5)) = code) (s : State) (n : Needle) :
    opGauge c w s n.fresh = trapIf (7 ≤ code) 0x0D 0 (.ok s (n.gauged w code).fresh) := by
  subst hcode
  rfl

theorem exec_gauge (h : standsAt s l i w .gauge = true) :
    let u := counted s ecc
    let n := u.needle l i
    let code := attrIn (tensorAttr (s.row l).prog (bitsOf w 10 5))
    let g := n.gv (fD w)
    let bs := (List.range (fmtTerms code)).map (fun j => expByte (n.termNum (fA w) code j g))
    exec (.gauge l i ecc) s = .next (
      if 7 ≤ code then trapsAt u l i 0x0D 0
      else ran u l i ((n.mark (n.gp (fD w) || n.vp (fA w) ≠ 0)).setG (fD w) (putBits g 7 0 (bs.foldl max (g % 256))) (n.gp (fD w)))) := by
  intro u n code g bs
  have hop := opGauge_fresh (c := s.ctxOf l i) (w := w) (code := code) rfl u n
  by_cases hcode : 7 ≤ code
  · rw [if_pos hcode]
    exact exec_data_trap h rfl (hop.trans (trapIf_pos (decide_eq_true hcode) _ _ _))
  · rw [if_neg hcode]
    exact exec_data_ok h rfl (hop.trans (trapIf_neg (decide_eq_false hcode) _ _ _))

/-- No term of a register without poison is poisoned (R357). -/
theorem term_snd_of_vp {n : Needle} {r : Nat} (h : n.vp r = 0) (code j : Nat) : (n.term r code j).2 = false := by
  simp [Needle.term, h, bitOf]

theorem exec_pcvt_trap (h : standsAt s l i w .pcvt = true)
    (hbad : 7 ≤ attrIn (tensorAttr (s.row l).prog (bitsOf w 15 10)) ∨
      plyOperand (fD w) (attrPly (tensorAttr (s.row l).prog (bitsOf w 15 10))) = false) :
    exec (.pcvt l i ecc) s = .next (trapsAt (counted s ecc) l i 0x0D 0) :=
  exec_data_trap h rfl (trapIf_pos (by rcases hbad with hbad | hbad <;> simp [State.ctxOf, hbad]) _ _ _)

/-- Term `j` of the lane group that PCVT converts. -/
def Needle.termAt (n : Needle) (w code j : Nat) : Num := n.termNum (fA w) code (8 * bitsOf w 4 3 + j) (n.gv (bitsOf w 9 5))

/-- The gauge byte that PCVT converts under (R359). -/
def Needle.gaugeByte (n : Needle) (w : Nat) : Nat := max 1 (n.gv (bitsOf w 9 5) % 256)

theorem opPcvt_eq {c : Ctx} {code k : Nat} {n : Needle} (hcode : attrIn (tensorAttr c.m (bitsOf w 15 10)) = code)
    (hk : attrPly (tensorAttr c.m (bitsOf w 15 10)) = k) (hraw : code < 7) (hd : plyOperand (fD w) k = true)
    (hgp : n.gp (bitsOf w 9 5) = false) (hvp : n.vp (fA w) = 0) : opPcvt c w s n = .ok s { n with
      p := storePlies n.p (fD w) (fun j => pcvtEl k (n.gaugeByte w) (n.termAt w code j)) (List.range 8),
      vf := (List.range 8).any (fun j => n.gaugeByte w < expByte (n.termAt w code j)) } := by
  have hok : (decide (7 ≤ code) || !plyOperand (fD w) k) = false := by simp [hraw, hd]
  have hmark : (List.range 8).any (fun j => (n.term (fA w) code (8 * bitsOf w 4 3 + j)).2) = false :=
    List.any_eq_false.mpr fun j _ => by rw [term_snd_of_vp hvp]; decide
  have hfold := n.foldl_zip_setPly (fD w) (n.termAt w code) (pcvtEl k (n.gaugeByte w)) (List.range 8)
  simp only [opPcvt, hcode, hk, trapIf_neg hok, hmark, hgp, Bool.or_false, Needle.mark_false, Bool.false_eq_true, if_false,
    decide_eq_true_eq, List.any_map]
  exact congrArg (fun m : Needle => NRes.ok s { m with vf := (List.range 8).any (fun j => n.gaugeByte w < expByte (n.termAt w code j)) }) hfold

theorem exec_pcvt (h : standsAt s l i w .pcvt = true) :
    let n := s.needle l i
    let attr := tensorAttr (s.row l).prog (bitsOf w 15 10)
    let code := attrIn attr
    let k := attrPly attr
    let g := n.gv (bitsOf w 9 5)
    let x := fun j => n.termNum (fA w) code (8 * bitsOf w 4 3 + j) g
    let gb := max 1 (g % 256)
    code < 7 → plyOperand (fD w) k = true → n.gp (bitsOf w 9 5) = false → n.vp (fA w) = 0 →
    ∃ t : State, exec (.pcvt l i ecc) s = .next t ∧
      (∀ j ∈ List.range 8, (t.needle l i).plyEl (fD w) k j =
        (if gb < expByte (x j) then List.replicate k 0 else plyConvert k gb (x j)).map (fun y => y % 2 ^ 64)) ∧
      (∀ r ∈ List.range 8, ∀ j ∈ List.range 8, fD w ≤ r ∧ r < fD w + k ∨ (t.needle l i).pv r j = n.pv r j) ∧
      t = ran (counted s ecc) l i { n with p := (t.needle l i).p, vf := (List.range 8).any (fun j => gb < expByte (x j)) } := by
  intro n attr code k g x gb hraw hd hgp hvp
  have hop : opPcvt (s.ctxOf l i) w (counted s ecc) n.fresh = .ok (counted s ecc) (Needle.fresh { n with
      p := storePlies n.p (fD w) (fun j => pcvtEl k gb (x j)) (List.range 8), vf := (List.range 8).any (fun j => gb < expByte (x j)) }) :=
    opPcvt_eq (n := n.fresh) rfl rfl hraw hd hgp hvp
  exact exec_plies h rfl hop rfl fun e _ => length_pcvtEl (ne_zero_of_plyOperand hd) gb (x e)

/-! ### PFIN to a raw format (R363 to R365) -/

/-- The draw of element `i` of tensor `t` under the seed of an open job. -/
theorem State.roundDrawOf_open {c : Ctx} {t : Nat}
    (h : attrRound (tensorAttr c.m t) ≠ 1 ∨ (s.job (s.rowSlice c.l)).isOpen = true) (e : Nat) : s.roundDrawOf c t e =
      if attrRound (tensorAttr c.m t) = 1 then some (roundDraw (s.job (s.rowSlice c.l)).seed (s.stepCtr (s.rowSlice c.l))
        (tensorId c.m t) (e % 2 ^ 40)) else none := by
  by_cases hround : attrRound (tensorAttr c.m t) = 1
  · rw [State.roundDrawOf, if_pos hround, if_pos hround, State.jobSeed_open (h.resolve_left (not_not_intro hround))]
  · rw [State.roundDrawOf, if_neg hround, if_neg hround]

/-- Element `e` finalised in a raw format. -/
def Needle.finalAt (n : Needle) (w code k : Nat) (draw : Nat → Option Nat) (e : Nat) : Nat × Bool :=
  finalRaw code (draw e) (plyNum k (n.gv (bitsOf w 6 2) % 256) (n.plyEl (bitsOf w 20 18) k e))

theorem opPfin_raw {c : Ctx} {code k : Nat} {n : Needle} (hcode : attrOut (tensorAttr c.m (bitsOf w 17 12)) = code)
    (hk : attrPly (tensorAttr c.m (bitsOf w 17 12)) = k) (hraw : code < 7) (hmx : isMx code = false)
    (hply : plyOperand (bitsOf w 20 18) k = true) (hgp : n.gp (bitsOf w 6 2) = false) (hgi : n.gp (bitsOf w 11 7) = false)
    (hseed : attrRound (tensorAttr c.m (bitsOf w 17 12)) ≠ 1 ∨ (s.job (s.rowSlice c.l)).isOpen = true) :
    let y := n.finalAt w code k (fun e => s.roundDrawOf c (bitsOf w 17 12) (n.gv (bitsOf w 11 7) % 2 ^ 40 + 8 * bitsOf w 1 0 + e))
    opPfin c w s n = .ok s ((n.mark ((List.range 8).any (fun e => (y e).2))).putLanes (fD w) code (8 * bitsOf w 1 0) ((List.range 8).map y)) := by
  intro y
  have hs : (if attrRound (tensorAttr c.m (bitsOf w 17 12)) = 1 then s.seedUsed (s.rowSlice c.l) else s) = s := by
    split
    · next hround => exact State.seedUsed_open (hseed.resolve_left (not_not_intro hround))
    · rfl
  have hok : (!plyOperand (bitsOf w 20 18) k) = false := by rw [hply]; rfl
  have hany : ((List.range 8).map y).any (fun x => x.2) = (List.range 8).any (fun e => (y e).2) := List.any_map
  simp only [opPfin, hcode, hk, hs, if_neg (Nat.not_le.mpr hraw), hmx, trapIf_neg hok, hgp, hgi, Bool.false_and, Bool.false_or,
    Bool.or_false, Bool.false_eq_true, if_false]
  rw [← hany]
  rfl

theorem exec_pfin (h : standsAt s l i w .pfin = true) :
    let n := s.needle l i
    let j := bitsOf w 17 12
    let attr := tensorAttr (s.row l).prog j
    let code := attrOut attr
    let k := attrPly attr
    let gi := n.gv (bitsOf w 11 7) % 2 ^ 40
    let q := 8 * bitsOf w 1 0
    let draw := fun e => if attrRound attr = 1 then some (roundDraw (s.job (s.rowSlice l)).seed (s.stepCtr (s.rowSlice l)) (tensorId (s.row l).prog j)
      ((gi + q + e) % 2 ^ 40)) else none
    let y := fun e => finalRaw code (draw e) (plyNum k (n.gv (bitsOf w 6 2) % 256) (n.plyEl (bitsOf w 20 18) k e))
    code < 7 → isMx code = false → plyOperand (bitsOf w 20 18) k = true → n.gp (bitsOf w 6 2) = false → n.gp (bitsOf w 11 7) = false →
    attrRound attr ≠ 1 ∨ (s.job (s.rowSlice l)).isOpen = true →
    ∃ t : State, exec (.pfin l i ecc) s = .next t ∧
      (∀ e ∈ List.range (vLanes code), lane code ((t.needle l i).vv (fD w)) e =
        if q ≤ e ∧ e < q + 8 then (y (e - q)).1 % 2 ^ vWidth code else lane code (n.vv (fD w)) e) ∧
      t = ran (counted s ecc) l i ((n.mark ((List.range 8).any (fun e => (y e).2))).setV (fD w) ((t.needle l i).vv (fD w))
        ((t.needle l i).vp (fD w))) := by
  intro n j attr code k gi q draw y hraw hmx hply hgp hgi hseed
  have hdraw : (fun e => (counted s ecc).roundDrawOf (s.ctxOf l i) j (gi + q + e)) = draw :=
    funext fun e => State.roundDrawOf_open (s := counted s ecc) (c := s.ctxOf l i) (t := j) hseed (gi + q + e)
  have hop := opPfin_raw (s := counted s ecc) (c := s.ctxOf l i) (n := n.fresh) (code := code) (k := k) rfl rfl hraw hmx hply hgp hgi hseed
  have hy : n.fresh.finalAt w code k
      (fun e => (counted s ecc).roundDrawOf (s.ctxOf l i) j (n.fresh.gv (bitsOf w 11 7) % 2 ^ 40 + 8 * bitsOf w 1 0 + e)) = y := by
    simp only [Needle.gv_fresh]
    exact congrArg (n.finalAt w code k) hdraw
  rw [hy] at hop
  exact exec_putLanes (b := (List.range 8).any (fun e => (y e).2)) h rfl hop

theorem exec_pfin_trap (h : standsAt s l i w .pfin = true) (hcode : 7 ≤ attrOut (tensorAttr (s.row l).prog (bitsOf w 17 12))) :
    exec (.pfin l i ecc) s = .next (trapsAt (counted s ecc) l i 0x0D 0) :=
  exec_data_trap h rfl (if_pos hcode)

/-! ### TALLY of terms (R366 to R368) -/

theorem State.stepCtr_tallyAdd (s : State) (j k : Nat) (t : TallyAcc) : (s.tallyAdd j t).stepCtr k = s.stepCtr k := by
  rw [State.tallyAdd]
  split <;> rfl

/-- Tallies of one step go in under the step counter that stood before them. -/
theorem foldl_tallyAdd_step (j : Nat) (t : Nat → Nat → TallyAcc) (es : List Nat) (s : State) :
    es.foldl (fun v e => v.tallyAdd j (t (v.stepCtr j) e)) s = es.foldl (fun v e => v.tallyAdd j (t (s.stepCtr j) e)) s := by
  suffices ∀ (v : State), v.stepCtr j = s.stepCtr j →
      es.foldl (fun v e => v.tallyAdd j (t (v.stepCtr j) e)) v = es.foldl (fun v e => v.tallyAdd j (t (s.stepCtr j) e)) v from this s rfl
  induction es with
  | nil => exact fun _ _ => rfl
  | cons e es ih =>
    intro v hv
    rw [List.foldl_cons, List.foldl_cons, hv]
    exact ih _ ((v.stepCtr_tallyAdd j j _).trans hv)

theorem exec_tally_trap (h : standsAt s l i w .tally = true) (hterm : bitOf w 20 = false)
    (hcode : attrOut (tensorAttr (s.row l).prog (bitsOf w 19 14)) < 7)
    (hset : (s.job (s.rowSlice l)).isOpen = false ∨
      (s.job (s.rowSlice l)).tallySet.contains (tensorId (s.row l).prog (bitsOf w 19 14)) = false) :
    exec (.tally l i ecc) s = .next (trapsAt (counted s ecc) l i 0x10 (tensorId (s.row l).prog (bitsOf w 19 14))) := by
  refine exec_data_trap h rfl ((trapIf_neg ?_ _ _ _).trans (trapIf_pos ?_ _ _ _))
  · rw [hterm]
    exact decide_eq_false (Nat.not_le.mpr hcode)
  · rcases hset with hset | hset
    · exact congrArg (fun b => !(b && _)) hset
    · exact (congrArg (fun b => !(_ && b)) hset).trans (by simp)

theorem opTally_raw {c : Ctx} {id code : Nat} {n : Needle} (hterm : bitOf w 20 = false)
    (hid : tensorId c.m (bitsOf w 19 14) = id) (hcode : attrOut (tensorAttr c.m (bitsOf w 19 14)) = code) (hraw : code < 7)
    (hmx : isMx code = false) (hgp : n.gp (bitsOf w 13 9) = false) (hopen : (s.job (s.rowSlice c.l)).isOpen = true)
    (hset : (s.job (s.rowSlice c.l)).tallySet.contains id = true) :
    let k := s.rowSlice c.l
    let i0 := n.gv (bitsOf w 13 9) % 2 ^ 40 + 8 * bitsOf w 8 7
    let x := fun e => n.term (fD w) code (8 * bitsOf w 8 7 + e)
    let es := List.range (bitsOf w 6 4 + 1)
    opTally c w s n = .ok (es.foldl (fun v e =>
      v.tallyAdd k (elementTally (s.stepCtr k) id ((i0 + e) % 2 ^ 40) code [(x e).1] (x e).2)) s) (n.mark (es.any (fun e => (x e).2))) := by
  intro k i0 x es
  have hok : decide (7 ≤ code) = false := decide_eq_false (Nat.not_le.mpr hraw)
  have hin : (!((s.job (s.rowSlice c.l)).isOpen && (s.job (s.rowSlice c.l)).tallySet.contains id)) = false := by rw [hopen, hset]; rfl
  have hany : (es.map (fun e => ([(x e).1], (x e).2))).any (fun y => y.2) = es.any (fun e => (x e).2) := List.any_map
  have hfold := foldl_tallyAdd_step k (fun step e => elementTally step id ((i0 + e) % 2 ^ 40) code [(x e).1] (x e).2) es s
  simp only [opTally, hterm, hid, hcode, hmx, hgp, Bool.false_eq_true, if_false, trapIf_neg hok, trapIf_neg hin, Bool.or_false, Bool.false_or,
    ← List.map_prod_left_eq_zip, List.foldl_map]
  rw [← hany]
  exact congrArg (fun v => NRes.ok v _) hfold

theorem exec_tally (h : standsAt s l i w .tally = true) (hterm : bitOf w 20 = false) :
    let u := counted s ecc
    let n := u.needle l i
    let j := bitsOf w 19 14
    let code := attrOut (tensorAttr (s.row l).prog j)
    let id := tensorId (s.row l).prog j
    let k := s.rowSlice l
    let i0 := n.gv (bitsOf w 13 9) % 2 ^ 40 + 8 * bitsOf w 8 7
    let x := fun e => n.term (fD w) code (8 * bitsOf w 8 7 + e)
    code < 7 → isMx code = false → n.gp (bitsOf w 13 9) = false → (s.job k).isOpen = true → (s.job k).tallySet.contains id = true →
    let v := (List.range (bitsOf w 6 4 + 1)).foldl (fun v e =>
      v.tallyAdd k (elementTally (s.stepCtr k) id ((i0 + e) % 2 ^ 40) code [(x e).1] (x e).2)) u
    exec (.tally l i ecc) s =
      .next (goesTo v l i (n.mark ((List.range (bitsOf w 6 4 + 1)).any (fun e => (x e).2))) (n.pc + 4)) := by
  intro u n j code id k i0 x hraw hmx hgp hopen hset v
  have hop : opTally (s.ctxOf l i) w u n.fresh = .ok v (n.mark ((List.range (bitsOf w 6 4 + 1)).any (fun e => (x e).2))).fresh :=
    opTally_raw (s := u) (c := s.ctxOf l i) (n := n.fresh) hterm rfl rfl hraw hmx hgp hopen hset
  exact exec_data_ok h rfl hop

end

/-- Settles O31: the elements that are written lane by lane, the carries of PADD, the lanes of PFIN and the tallies of TALLY. -/
theorem plyInstructions : Obligations.PlyInstructions :=
  ⟨fun _ _ _ _ _ h hop => exec_padd_operand h hop,
    fun _ _ _ _ _ h hd ha hb hsum => exec_padd h hd ha hb hsum,
    fun _ _ _ _ _ h hd ha hb hmask hhm hvec => exec_padd_carry h hd ha hb hmask hhm hvec,
    fun _ _ _ _ _ h => exec_pmov h,
    fun _ _ _ _ _ h => exec_pzero h,
    fun _ _ _ _ _ h => exec_gauge h,
    fun _ _ _ _ _ h => exec_pcvt h,
    fun _ _ _ _ _ h hbad => exec_pcvt_trap h hbad,
    fun _ _ _ _ _ h => exec_pfin h,
    fun _ _ _ _ _ h hcode => exec_pfin_trap h hcode,
    fun _ _ _ _ _ h hterm hcode hset => exec_tally_trap h hterm hcode hset,
    fun _ _ _ _ _ h hterm => exec_tally h hterm⟩

end Sys2Proof.Machine
end

section
/-! PROOFS. Memory as a shared resource (O33): the choice of an arbiter, its decisions, and what memory errors count, tag and record. -/

namespace Sys2Proof.Machine

/-! ### The choice of an arbiter (R429) -/

/-- The highest current priority of the requesters `ws`. -/
def topPrio (ws : List ArbWait) : Nat := (ws.map (fun w => w.prio)).foldl max 0

/-- The requesters of highest current priority. -/
def bestReqs (ws : List ArbWait) : List ArbWait := ws.filter (fun w => w.prio = topPrio ws)

theorem chooseReq_eq (last : Nat) (ws : List ArbWait) :
    chooseReq last ws = (((bestReqs ws).filter (fun w => last < w.req.idx)).argmin (fun w => w.req.idx)).or
      ((bestReqs ws).argmin (fun w => w.req.idx)) := by
  have hleast (l : List ArbWait) (o : Option ArbWait) : l.foldl (fun b w => match b with
      | none => some w
      | some v => if w.req.idx < v.req.idx then some w else some v) o =
      l.foldl (List.argAux fun b c : ArbWait => b.req.idx < c.req.idx) o := by
    congr 1
    funext b w
    cases b <;> rfl
  exact congrArg₂ Option.or (hleast _ none) (hleast _ none)

theorem topPrio_spec (ws : List ArbWait) :
    topPrio ws ∈ 0 :: ws.map (fun w => w.prio) ∧ ∀ p ∈ 0 :: ws.map (fun w => w.prio), p ≤ topPrio ws :=
  List.max?_eq_some_iff.mp rfl

theorem prio_le_topPrio {ws : List ArbWait} {w : ArbWait} (h : w ∈ ws) : w.prio ≤ topPrio ws :=
  (topPrio_spec ws).2 _ (List.mem_cons_of_mem _ (List.mem_map_of_mem h))

theorem mem_bestReqs {ws : List ArbWait} {w : ArbWait} : w ∈ bestReqs ws ↔ w ∈ ws ∧ w.prio = topPrio ws := by
  simp [bestReqs]

theorem bestReqs_ne_nil {ws : List ArbWait} (h : ws ≠ []) : bestReqs ws ≠ [] := by
  obtain ⟨v, hv⟩ := List.exists_mem_of_ne_nil ws h
  rcases List.mem_cons.mp (topPrio_spec ws).1 with h0 | htop
  · have hle := prio_le_topPrio hv
    exact List.ne_nil_of_mem (mem_bestReqs.mpr ⟨hv, by omega⟩)
  · obtain ⟨w, hw, hprio⟩ := List.mem_map.mp htop
    exact List.ne_nil_of_mem (mem_bestReqs.mpr ⟨hw, hprio⟩)

/-- The choice is of highest priority, and the first of them in the rotation. -/
theorem chooseReq_spec (last : Nat) {ws : List ArbWait} (h : ws ≠ []) : ∃ w ∈ ws, chooseReq last ws = some w ∧
    ∀ v ∈ ws, v = w ∨ v.prio < w.prio ∨ v.prio = w.prio ∧ rotates last w v = true := by
  suffices hbest : ∃ w ∈ bestReqs ws, chooseReq last ws = some w ∧ ∀ v ∈ bestReqs ws, rotates last w v = true by
    obtain ⟨w, hw, hchoice, hfirst⟩ := hbest
    obtain ⟨hmem, hprio⟩ := mem_bestReqs.mp hw
    refine ⟨w, hmem, hchoice, fun v hv => .inr ?_⟩
    rcases Nat.lt_or_eq_of_le (prio_le_topPrio hv) with hlt | htop
    · exact .inl (hprio ▸ hlt)
    · exact .inr ⟨htop.trans hprio.symm, hfirst v (mem_bestReqs.mpr ⟨hv, htop⟩)⟩
  rw [chooseReq_eq]
  cases hafter : ((bestReqs ws).filter (fun w => last < w.req.idx)).argmin (fun w => w.req.idx) with
  | some w =>
    obtain ⟨hw, hlast⟩ := List.mem_filter.mp (List.argmin_mem hafter)
    refine ⟨w, hw, rfl, fun v hv => ?_⟩
    have hleast (hv' : last < v.req.idx) : w.req.idx ≤ v.req.idx :=
      List.le_of_mem_argmin (f := fun w : ArbWait => w.req.idx) (List.mem_filter.mpr ⟨hv, by simpa using hv'⟩) hafter
    simp only [rotates, if_pos (of_decide_eq_true hlast), Bool.or_eq_true, decide_eq_true_eq]
    omega
  | none =>
    have hnone := List.argmin_eq_none.mp hafter
    cases hall : (bestReqs ws).argmin (fun w => w.req.idx) with
    | none => exact absurd (List.argmin_eq_none.mp hall) (bestReqs_ne_nil h)
    | some w =>
      have hbefore {v : ArbWait} (hv : v ∈ bestReqs ws) : v.req.idx ≤ last := by
        simpa using List.filter_eq_nil_iff.mp hnone v hv
      refine ⟨w, List.argmin_mem hall, rfl, fun v hv => ?_⟩
      have hleast : w.req.idx ≤ v.req.idx := List.le_of_mem_argmin (f := fun w : ArbWait => w.req.idx) hv hall
      simp only [rotates, if_neg (Nat.not_lt.mpr (hbefore (List.argmin_mem hall))), Bool.and_eq_true, decide_eq_true_eq]
      exact ⟨hbefore hv, hleast⟩

theorem chooseReq_singleton (last : Nat) (w : ArbWait) : chooseReq last [w] = some w := by
  obtain ⟨v, hv, hchoice, -⟩ := chooseReq_spec last (List.cons_ne_nil w [])
  rw [hchoice, List.mem_singleton.mp hv]

/-! ### A decision (R429 to R434) -/

section
variable {s : State} {k : Nat}

@[simp] theorem State.arb_setArb_same (s : State) (k : Nat) (a : Arbiter) : (s.setArb k a).arb k = a := by
  simp [State.arb, State.setArb]

@[simp] theorem State.arb_count (s : State) (k c : Nat) : (s.count c).arb k = s.arb k := rfl

theorem State.arbCount_mem (hk : k / 4096 < 2) (s : State) (c : Nat) : s.arbCount k c = s.count c :=
  if_pos (decide_eq_true (by omega))

theorem Arbiter.admitted_mem (hk : k / 4096 < 2) (a : Arbiter) (slices : Nat) : a.admitted k slices = a.waiting :=
  if_pos (.inr hk)

/-- Arbiter `a` after the grant to `w`; `back` is the transfer that an arrival preempted. -/
def Arbiter.grant (a : Arbiter) (w : ArbWait) (withdrawn : Bool) (back : List ArbWait) : Arbiter where
  waiting := (a.waiting.erase w).map (fun v => { v with prio := min (v.prio + 1) 7 }) ++ back
  running := if withdrawn then none else some { w with prio := w.req.base }
  last := w.req.idx
  slot := (a.slot + 1) % 16

/-- Arbiter `a` with no transfer running. -/
def Arbiter.freed (a : Arbiter) : Arbiter := { a with running := none }

/-- What an arrival preempts: the running transfer, which waits at priority 7 for the next decision (R433, R434). -/
def Arbiter.ousted (a : Arbiter) : List ArbWait :=
  (a.running.map (fun w => { w with prio := 7, preempts := w.preempts + 1 })).toList

/-- A decision that preempts nothing: the arrivals `rs` join, and the choice `w` is granted. -/
theorem State.arbDecide_keep (hk : k / 4096 < 2) {rs : List ArbReq} {w : ArbWait} (withdrawn : Bool)
    (hpre : (s.arb k).preempted k rs = false)
    (hw : chooseReq ((s.arb k).arrive rs).last ((s.arb k).arrive rs).waiting = some w) :
    s.arbDecide k rs withdrawn =
      (s.setArb k (((s.arb k).arrive rs).grant w withdrawn [])).count (if withdrawn then Ctr.MEM_EMPTY_GRANT else Ctr.MEM_GRANT) := by
  simp only [State.arbDecide, hpre, Bool.false_eq_true, if_false, Arbiter.admitted_mem hk, hw, State.arbCount_mem hk]
  cases withdrawn <;> rfl

/-- A decision that preempts the running transfer. -/
theorem State.arbDecide_preempt (hk : k / 4096 < 2) {rs : List ArbReq} {w : ArbWait} (withdrawn : Bool)
    (hpre : (s.arb k).preempted k rs = true)
    (hw : chooseReq ((s.arb k).freed.arrive rs).last ((s.arb k).freed.arrive rs).waiting = some w) :
    s.arbDecide k rs withdrawn =
      ((s.count Ctr.MEM_PREEMPT).setArb k (((s.arb k).freed.arrive rs).grant w withdrawn (s.arb k).ousted)).count
        (if withdrawn then Ctr.MEM_EMPTY_GRANT else Ctr.MEM_GRANT) := by
  rw [Arbiter.freed] at hw
  simp only [State.arbDecide, hpre, if_true, Arbiter.admitted_mem hk, hw, State.arbCount_mem hk]
  cases withdrawn <;> rfl

theorem Arbiter.preempted_of_idle {a : Arbiter} (h : a.running = none) (k : Nat) (rs : List ArbReq) : a.preempted k rs = false := by
  rw [Arbiter.preempted, h]

theorem exec_arbiterDecision_idle (hk : k / 4096 < 2) (withdrawn : Bool) (hrun : (s.arb k).running = none)
    (hwait : (s.arb k).waiting ≠ []) :
    let a := s.arb k
    ∃ t : State, exec (.arbiterDecision k [] withdrawn) s = .next t ∧
      (∃ w ∈ a.waiting, (∀ v ∈ a.waiting, v = w ∨ v.prio < w.prio ∨ v.prio = w.prio ∧ rotates a.last w v = true) ∧
        (t.arb k).last = w.req.idx ∧
        (t.arb k).waiting = (a.waiting.erase w).map (fun v => { v with prio := min (v.prio + 1) 7 }) ∧
        (t.arb k).running = (if withdrawn then none else some { w with prio := w.req.base })) ∧
      t = (s.setArb k (t.arb k)).count (if withdrawn then Ctr.MEM_EMPTY_GRANT else Ctr.MEM_GRANT) := by
  obtain ⟨w, hw, hchoice, hfirst⟩ := chooseReq_spec (s.arb k).last hwait
  have hdecide := State.arbDecide_keep (rs := []) hk withdrawn (Arbiter.preempted_of_idle hrun k []) hchoice
  refine ⟨_, congrArg Host.Outcome.next hdecide, ⟨w, hw, hfirst, ?_⟩, ?_⟩
  · simp [Arbiter.grant, Arbiter.arrive]
  · simp

/-- With nothing waiting, one requester that arrives twice joins once. -/
theorem Arbiter.arrive_twice {a : Arbiter} (h : a.waiting = []) (r : ArbReq) :
    a.arrive [r, r] = { a with waiting := [⟨r, r.base, 0⟩] } := by
  simp [Arbiter.arrive, h]

theorem Arbiter.arrive_one {a : Arbiter} (h : a.waiting = []) (r : ArbReq) :
    a.arrive [r] = { a with waiting := [⟨r, r.base, 0⟩] } := by
  simp [Arbiter.arrive, h]

theorem exec_arbiterDecision_arrival (hk : k / 4096 < 2) (r : ArbReq) (hrun : (s.arb k).running = none)
    (hwait : (s.arb k).waiting = []) :
    ∃ t : State, exec (.arbiterDecision k [r, r] false) s = .next t ∧ (t.arb k).running = some ⟨r, r.base, 0⟩ ∧
      (t.arb k).waiting = [] := by
  have harrive := Arbiter.arrive_twice hwait r
  have hdecide := State.arbDecide_keep (rs := [r, r]) hk false (Arbiter.preempted_of_idle hrun k _)
    (by rw [harrive]; exact chooseReq_singleton _ _)
  exact ⟨_, congrArg Host.Outcome.next hdecide, by simp [harrive, Arbiter.grant]⟩

theorem exec_arbiterDecision_preempts (hk : k / 4096 < 2) (r : ArbReq) {w : ArbWait} (hrun : (s.arb k).running = some w)
    (hwait : (s.arb k).waiting = []) (hlen : 256 < w.req.len) (htimes : w.preempts < 3) (hbase : w.req.base < r.base) :
    ∃ t : State, exec (.arbiterDecision k [r] false) s = .next t ∧ t.ctr Ctr.MEM_PREEMPT = (s.ctr Ctr.MEM_PREEMPT).bump ∧
      (t.arb k).running = some ⟨r, r.base, 0⟩ ∧ (t.arb k).waiting = [⟨w.req, 7, w.preempts + 1⟩] := by
  have hpre : (s.arb k).preempted k [r] = true := by
    have hmem : k / 4096 < 3 := by omega
    simp [Arbiter.preempted, hrun, memArb, hmem, hlen, htimes, hbase]
  have harrive := Arbiter.arrive_one (a := (s.arb k).freed) hwait r
  have hdecide := State.arbDecide_preempt (rs := [r]) hk false hpre (by rw [harrive]; exact chooseReq_singleton _ _)
  refine ⟨_, congrArg Host.Outcome.next hdecide, ?_, ?_⟩
  · have hne : Ctr.MEM_PREEMPT ≠ Ctr.MEM_GRANT := by decide
    exact (State.ctr_count_other _ hne).trans (s.ctr_count_same Ctr.MEM_PREEMPT)
  · simp [harrive, Arbiter.grant, Arbiter.ousted, hrun]

/-! ### Transfers (R405, R428) -/

theorem exec_memoryTransfer_running (ce ue : List Nat) (cached : Option Bool) {w : ArbWait} (hrun : (s.arb k).running = some w) :
    let u := (s.setArb k { s.arb k with running := none }).memErrors ce ue
    exec (.memoryTransfer k ce ue cached) s = .next (
      if w.req.len < 32 ∨ 2048 < w.req.len then s else if cached = some true then u.count Ctr.MEM_SC_HIT
      else if cached = some false then u.count Ctr.MEM_SC_MISS else u) := by
  intro u
  have hrun' : s.memTransfer k ce ue cached = if w.req.len < 32 ∨ 2048 < w.req.len then s else match cached with
      | some true => u.count Ctr.MEM_SC_HIT
      | some false => u.count Ctr.MEM_SC_MISS
      | none => u := by
    simp only [State.memTransfer, hrun]
    rfl
  refine congrArg _ (hrun'.trans ?_)
  match cached with
  | some true => rfl
  | some false => rfl
  | none => rfl

end

/-! ### Errors (R418 to R421) -/

section
variable {s : State} {a n : Nat}

/-- The part once a corrected error is counted for slice `n` and in its running second. -/
def State.ceCounted (s : State) (n : Nat) : State :=
  { s.count (Ctr.MEM_S_CE n) with ceSec := store 0 s.ceSec n (fetch 0 s.ceSec n + 1) }

theorem State.memErrors_ce (h : s.ownerOf a = some n) : s.memErrors [a] [] =
    if fetch 0 s.ceSec n + 1 = s.rf Reg.MEM_CE_THRESH 15 0 then ((s.ceCounted n).event Reg.MEM_EVT 1).failureWarning n
    else s.ceCounted n := by
  rw [State.memErrors, List.foldl_cons, State.memCe, h]
  rfl

/-- With the slice's ring disabled a report takes a sequence number and is discarded (R860). -/
theorem State.report_dropped (h : s.rf (Reg.SPN_RING_CFG n) 31 31 = 0) (kind st time : Nat) (args : List Byte) :
    s.report n kind st time args =
      (s.wr (Reg.SPN_SEQ n) (BitVec.ofNat 32 ((s.rd (Reg.SPN_SEQ n)).toNat + 1))).count Ctr.SPN_REPORT_DROP := by
  have hne : Reg.SPN_RING_CFG n ≠ Reg.SPN_SEQ n := by simp [Reg.SPN_RING_CFG, Reg.SPN_SEQ]
  have hoff : bitOf (s.rd (Reg.SPN_RING_CFG n)).toNat 31 = false := beq_false_of_ne (fun h1 => absurd (h.symm.trans h1) (by decide))
  rw [State.report, State.rd_wr_other _ _ hne]
  exact if_neg (by simp [hoff])

/-- What an uncorrected error does while the owner's ring is disabled (R419). -/
theorem memErrors_ue (h : s.ownerOf a = some n) (hring : s.rf (Reg.SPN_RING_CFG n) 31 31 = 0) (k : Nat) :
    let t := s.memErrors [] [a]
    fetch false t.tags k = (fetch false s.tags k || decide (k ∈ (s.ueWords a).2)) ∧ t.mem = s.mem ∧
    t.rd (Reg.MEM_UE_ADDR_LO n) = BitVec.ofNat 32 (s.ueWords a).1 ∧ t.rf (Reg.MEM_UE_ADDR_HI n) 31 31 = 1 := by
  have hlo_hi : Reg.MEM_UE_ADDR_LO n ≠ Reg.MEM_UE_ADDR_HI n := by simp [Reg.MEM_UE_ADDR_LO, Reg.MEM_UE_ADDR_HI]
  have hlo : Reg.MEM_UE_ADDR_LO n ≠ Reg.MEM_EVT ∧ Reg.MEM_UE_ADDR_LO n ≠ Reg.SPN_SEQ n := by
    simp only [Reg.MEM_UE_ADDR_LO, Reg.MEM_EVT, Reg.SPN_SEQ]; omega
  have hhi : Reg.MEM_UE_ADDR_HI n ≠ Reg.MEM_EVT ∧ Reg.MEM_UE_ADDR_HI n ≠ Reg.SPN_SEQ n := by
    simp only [Reg.MEM_UE_ADDR_HI, Reg.MEM_EVT, Reg.SPN_SEQ]; omega
  have hcfg : Reg.SPN_RING_CFG n ≠ Reg.MEM_EVT ∧ Reg.SPN_RING_CFG n ≠ Reg.MEM_UE_ADDR_HI n ∧
      Reg.SPN_RING_CFG n ≠ Reg.MEM_UE_ADDR_LO n := by
    simp only [Reg.SPN_RING_CFG, Reg.MEM_EVT, Reg.MEM_UE_ADDR_HI, Reg.MEM_UE_ADDR_LO]; omega
  obtain ⟨hlo_evt, hlo_seq⟩ := hlo
  obtain ⟨hhi_evt, hhi_seq⟩ := hhi
  obtain ⟨hcfg_evt, hcfg_hi, hcfg_lo⟩ := hcfg
  have hue : s.memErrors [] [a] = s.memUe a := rfl
  rw [hue, State.memUe, h]
  dsimp only
  rw [State.report_dropped]
  · simp only [State.count_tags, State.wr_tags, State.event_tags, State.count_mem, State.wr_mem, State.event_mem, State.rf, State.rd_count,
      State.rd_wr_other _ _ hlo_seq, State.rd_event_other _ _ hlo_evt, State.rd_wr_other _ _ hlo_hi, State.rd_wr_same,
      State.rd_wr_other _ _ hhi_seq, State.rd_event_other _ _ hhi_evt, true_and]
    refine ⟨?_, ?_⟩
    · rw [fetch_foldl_store_key false (fun _ => true)]
      by_cases hk : k ∈ (s.ueWords a).2 <;> simp [hk]
    · simp only [fieldOf, bitsOf, BitVec.toNat_ofNat, Nat.shiftRight_eq_div_pow]
      omega
  · simp only [State.rf, State.rd_event_other _ _ hcfg_evt, State.rd_count, State.rd_wr_other _ _ hcfg_hi, State.rd_wr_other _ _ hcfg_lo]
    exact hring

end

theorem ueWords_hbm {s : State} {a d x : Nat} (h : s.place a = .hbm d x) :
    s.ueWords a = (a / 32 * 32, List.range' (a / 32 * 4) 4) := by
  rw [State.ueWords, h]

theorem ueWords_hank {s : State} {a d x y : Nat} (h : s.place a = .hank d x y) : s.ueWords a = (a / 8 * 8, [a / 8]) := by
  rw [State.ueWords, h]

theorem memErrors_ue_hbm {s : State} {a n k d x : Nat} (h : s.ownerOf a = some n) (hplace : s.place a = .hbm d x)
    (hring : s.rf (Reg.SPN_RING_CFG n) 31 31 = 0) :
    let t := s.memErrors [] [a]
    fetch false t.tags k = (fetch false s.tags k || (4 * (a / 32) ≤ k && k < 4 * (a / 32) + 4)) ∧ t.mem = s.mem ∧
    t.rd (Reg.MEM_UE_ADDR_LO n) = BitVec.ofNat 32 (a / 32 * 32) ∧ t.rf (Reg.MEM_UE_ADDR_HI n) 31 31 = 1 := by
  have hue := memErrors_ue h hring k
  rw [ueWords_hbm hplace] at hue
  simpa only [List.mem_range'_1, Nat.mul_comm (a / 32) 4, Bool.decide_and] using hue

theorem memErrors_ue_hank {s : State} {a n k d x y : Nat} (h : s.ownerOf a = some n) (hplace : s.place a = .hank d x y)
    (hring : s.rf (Reg.SPN_RING_CFG n) 31 31 = 0) :
    fetch false (s.memErrors [] [a]).tags k = (fetch false s.tags k || k == a / 8) := by
  obtain ⟨htags, -⟩ := memErrors_ue h hring k
  rw [htags, ueWords_hank hplace]
  simp only [List.mem_singleton]
  rfl

/-! ### Scrubbing, refresh and prefetchers (R411, R422 to R424) -/

theorem exec_patrolScrub (s : State) {d : Nat} (units : Nat) (ce ue : List Nat) (hd : d < 4) :
    exec (.patrolScrub d units ce ue) s =
      .next (if s.rf Reg.MEM_CTL 0 0 = 1 then (s.memErrors ce ue).countN Ctr.MEM_SCRUB units else s) :=
  congrArg Host.Outcome.next (if_congr (and_iff_left hd) rfl rfl)

theorem exec_hbmRefresh (s : State) {d st : Nat} (re : Bool) (hd : d < 4) (hst : st < s.stacksOf d) :
    exec (.hbmRefresh d st re) s = .next (if re then (s.count Ctr.MEM_CAL_RETRAIN).event Reg.MEM_EVT 2 else s) :=
  congrArg Host.Outcome.next (if_congr (and_iff_left ⟨hd, hst⟩) rfl rfl)

theorem exec_streamDeclare (s : State) {d : Nat} (reads ended : Nat) (hd : d < 4) :
    let used := fetch 0 s.prefetch d - ended
    exec (.streamDeclare d reads ended) s = .next (
      if used < 64 then { s with prefetch := store 0 s.prefetch d (used + 1) }
      else ({ s with prefetch := store 0 s.prefetch d used }.countN Ctr.MEM_PF_OVER reads).event Reg.MEM_EVT 3) :=
  congrArg Host.Outcome.next (if_neg (Nat.not_le.mpr hd))

/-- Settles O33: the choice of the arbiters, what a transfer and the errors it meets do, and the commands of single dies. -/
theorem memoryShared : Obligations.MemoryShared :=
  ⟨fun _ _ withdrawn hk hrun hwait => exec_arbiterDecision_idle hk withdrawn hrun hwait,
    fun _ _ r hk hrun hwait => exec_arbiterDecision_arrival hk r hrun hwait,
    fun _ _ r _ hk hrun hwait hlen htimes hbase => exec_arbiterDecision_preempts hk r hrun hwait hlen htimes hbase,
    fun _ _ ce ue cached _ hrun => exec_memoryTransfer_running ce ue cached hrun,
    fun _ _ _ howner hbelow => (State.memErrors_ce howner).trans (if_neg hbelow),
    fun _ _ _ howner hat => (State.memErrors_ce howner).trans (if_pos hat),
    fun _ _ _ _ _ _ howner hplace hring => memErrors_ue_hbm howner hplace hring,
    fun _ _ _ _ _ _ _ howner hplace hring => memErrors_ue_hank howner hplace hring,
    fun _ _ => rfl,
    fun s _ units ce ue hd => exec_patrolScrub s units ce ue hd,
    fun s _ _ re hd hst => exec_hbmRefresh s re hd hst,
    fun s _ reads ended hd => exec_streamDeclare s reads ended hd⟩

end Sys2Proof.Machine
end

section
/-! PROOFS. The optimizer engine (O35): what a passed check says, the commands of OPT_Sn_CMD, and the items from DONE to commit. -/

namespace Sys2Proof.Machine

/-! ### The checks of ENABLE (R442, R464) -/

theorem firstBad_eq_none {k : Nat} {p : Nat → Bool} : firstBad k p = none ↔ ∀ i < k, p i = true := by
  simp [firstBad]

theorem nodup_of_dupAt {l : List Nat} {i : Nat} (h : dupAt l i = none) : l.Nodup := by
  induction l generalizing i with
  | nil => exact List.nodup_nil
  | cons a l ih =>
    rw [dupAt] at h
    split at h
    · exact nomatch h
    · next hnot => exact List.nodup_cons.mpr ⟨by simpa using hnot, ih h⟩

/-- Where one value of `f` stands in two entries of slice `n`'s table. -/
def State.optDup (s : State) (n : Nat) (f : OptEntry → Nat) : Option Nat :=
  dupAt ((List.range (s.optEntries n)).map (fun i => f (s.optEntry n i))) 0

theorem optDup_injective {s : State} {n : Nat} {f : OptEntry → Nat} (h : s.optDup n f = none) {i j : Nat} (hij : i < j)
    (hj : j < s.optEntries n) : f (s.optEntry n i) ≠ f (s.optEntry n j) := by
  intro heq
  have hinj := List.inj_on_of_nodup_map (nodup_of_dupAt h)
  exact Nat.ne_of_lt hij (hinj (List.mem_range.mpr (hij.trans hj)) (List.mem_range.mpr hj) heq)

/-- What slice `n`'s engine and table meet when the checks of ENABLE pass. -/
structure OptPasses (s : State) (n : Nat) : Prop where
  legal : ∀ i < s.optEntries n, (s.optEntry n i).legal = true
  placed : ∀ i < s.optEntries n, s.optPlaced n (s.optEntry n i) = true
  distinct : s.optDup n (·.tensor) = none ∧ s.optDup n (·.gradColl) = none ∧ s.optDup n (·.pubColl) = none
  params : ∀ i < s.optEntries n, (s.optEntry n i).param < s.optParams n
  disabled : s.optEnabled n = false
  rows : ∀ i < s.optEntries n, ∀ d, s.optDie n (s.optEntry n i) = some d → s.optRowsOf d ≠ []

theorem optCheck_passes {s : State} {n : Nat} (h : (s.optCheck n).1 = 0) : OptPasses s n := by
  unfold State.optCheck at h
  dsimp only at h
  split at h
  · exact nomatch h
  next hlegal =>
  split at h
  · exact nomatch h
  split at h
  · exact nomatch h
  next hplaced =>
  split at h
  · exact nomatch h
  split at h
  · exact nomatch h
  next hdup =>
  split at h
  · exact nomatch h
  split at h
  · exact nomatch h
  split at h
  · exact nomatch h
  next hparam =>
  split at h
  · exact nomatch h
  split at h
  · exact nomatch h
  next hoff =>
  split at h
  · exact nomatch h
  next hrows =>
  exact {
    legal := firstBad_eq_none.mp hlegal
    placed := firstBad_eq_none.mp hplaced
    distinct := by simpa [State.optDup] using hdup
    params := fun i hi => of_decide_eq_true (firstBad_eq_none.mp hparam i hi)
    disabled := Bool.eq_false_of_not_eq_true hoff
    rows := fun i hi d hd => by simpa [hd] using firstBad_eq_none.mp hrows i hi }

theorem OptPasses.die {s : State} {n i : Nat} (h : OptPasses s n) (hi : i < s.optEntries n) :
    ∃ d ∈ s.diesOf n, s.optDie n (s.optEntry n i) = some d ∧ s.optRowsOf d ≠ [] := by
  have hplaced := h.placed i hi
  cases hdie : s.optDie n (s.optEntry n i) with
  | none => simp [State.optPlaced, hdie] at hplaced
  | some d => exact ⟨d, List.mem_of_find?_eq_some hdie, rfl, h.rows i hi d hdie⟩

theorem OptPasses.entry {s : State} {n i : Nat} (h : OptPasses s n) (hi : i < s.optEntries n) :
    let e := s.optEntry n i
    e.legal = true ∧ s.optPlaced n e = true ∧ e.param < s.optParams n ∧
      ∃ d ∈ s.diesOf n, s.optDie n e = some d ∧ s.optRowsOf d ≠ [] :=
  ⟨h.legal i hi, h.placed i hi, h.params i hi, h.die hi⟩

theorem OptPasses.distinct_entries {s : State} {n i j : Nat} (h : OptPasses s n) (hij : i < j) (hj : j < s.optEntries n) :
    let e := s.optEntry n i
    let f := s.optEntry n j
    e.tensor ≠ f.tensor ∧ e.gradColl ≠ f.gradColl ∧ e.pubColl ≠ f.pubColl := by
  obtain ⟨htensor, hgrad, hpub⟩ := h.distinct
  exact ⟨optDup_injective htensor hij hj, optDup_injective hgrad hij hj, optDup_injective hpub hij hj⟩

/-! ### OPT_Sn_CMD (R442, R463) -/

section
variable {s : State} {n : Nat} {v : Word}

theorem State.gated_pf0 (hs : s.hasSlice n = true) (p : Nat) (k : State → State) : s.gated (.pf0 p) n k = k s := if_pos hs

theorem State.optCmdWrite_go (hgo : fieldOf v 31 31 = 1) :
    s.optCmdWrite n v = match fieldOf v 1 0 with
      | 1 => (s.wr (Reg.OPT_CMD n) (v &&& 3)).optEnable n
      | 2 => (s.wr (Reg.OPT_CMD n) (v &&& 3)).optDisable n
      | _ => (s.wr (Reg.OPT_CMD n) (v &&& 3)).optStat n 0x0190 0 := by
  have hne : fieldOf v 31 31 ≠ 0 := by simp [hgo]
  exact if_neg hne

theorem exec_optEnable_pf0 (p : Nat) (hs : s.hasSlice n = true) (hgo : fieldOf v 31 31 = 1) (hop : fieldOf v 1 0 = 1) :
    let u := s.wr (Reg.OPT_CMD n) (v &&& 3)
    let r := u.optCheck n
    exec (.optEnable (.pf0 p) n v) s = .next (
      if r.1 = 0 then ((u.wf (Reg.OPT_STAT n) 27 16 0).wf (Reg.OPT_STAT n) 15 0 0).wf (Reg.OPT_STAT n) 31 31 1
      else (u.wf (Reg.OPT_STAT n) 27 16 r.2).wf (Reg.OPT_STAT n) 15 0 r.1) := by
  refine congrArg Host.Outcome.next ((State.gated_pf0 hs p _).trans ?_)
  rw [State.optCmdWrite_go hgo, hop]
  rfl

theorem exec_optDisable_pf0 (p : Nat) (hs : s.hasSlice n = true) (hgo : fieldOf v 31 31 = 1) (hop : fieldOf v 1 0 = 2) :
    let u := s.wr (Reg.OPT_CMD n) (v &&& 3)
    let o := s.opt
    exec (.optDisable (.pf0 p) n v) s = .next (
      if u.optEnabled n = false ∨ o.drain.contains n = true then u.optStat n 0x0291 0
      else if o.items.any (fun x => x.slice = n && x.staged) then
        ({ u with opt := { o with drain := o.drain ++ [n] } }.optStat n 0 0).wf (Reg.OPT_STAT n) 30 30 1
      else (({ u with opt := { o with items := o.items.filter (fun x => x.slice ≠ n), waits := o.waits.filter (fun x => x.slice ≠ n),
                                      drain := o.drain.filter (fun x => x ≠ n) } }.wf (Reg.OPT_STAT n) 31 31 0).wf
                (Reg.OPT_STAT n) 30 30 0).optStat n 0 0) := by
  refine congrArg Host.Outcome.next ((State.gated_pf0 hs p _).trans ?_)
  rw [State.optCmdWrite_go hgo, hop]
  exact if_congr (or_congr_left (by rw [Bool.not_eq_true'])) rfl rfl

theorem State.optCfgWrite_enabled (h : s.optEnabled n = true) (via : Via) (a : Nat) : s.optCfgWrite via n a v = s.reject via a 0x0291 :=
  if_pos h

end

/-! ### Staging (R446, R448) -/

theorem exec_optItemStaged_one {s : State} {l slot : Nat} {x : OptItem} (hitems : s.opt.items = [x]) (hrow : x.row = l)
    (hslot : x.slot = slot) (hstaged : x.staged = false) :
    let ring := s.optRing (s.rowSlice l) (rowDie l) ((s.optRowsOf (rowDie l)).findIdx (fun y => y == l))
    exec (.optItemStaged l slot) s = .next (
      if x.seq = s.le (ring + 64 * slot + 60) 4 then { s with opt := { s.opt with items := [{ x with staged := true }] } }
      else (s.count Ctr.OPT_BAD_DONE).event Reg.OPT_EVT 1) := by
  intro ring
  refine congrArg Host.Outcome.next ?_
  by_cases hseq : x.seq = s.le (ring + 64 * slot + 60) 4
  · have hfind : s.opt.items.find? (fun y => y.row = l && y.slot = slot && !y.staged &&
        y.seq = s.le (ring + 64 * slot + 60) 4) = some x := by
      simp [hitems, hrow, hslot, hstaged, hseq]
    rw [if_pos hseq, State.optDone, hfind]
    simp [hitems]
  · have hfind : s.opt.items.find? (fun y => y.row = l && y.slot = slot && !y.staged &&
        y.seq = s.le (ring + 64 * slot + 60) 4) = none := by
      simp [hitems, hseq]
    rw [if_neg hseq, State.optDone, hfind]

/-! ### What memory and collectives leave of the optimizer's own state -/

section
variable (s : State)

theorem PushChange.opt {s₀ s : State} (h : PushChange s₀ s) : s.opt = s₀.opt := by
  obtain ⟨_, _, _, _, _, _, _, rfl⟩ := h
  rfl

@[simp] theorem State.write_opt (a : Nat) (bs : List Byte) (p : Bool) : (s.write a bs p).opt = s.opt :=
  (PushChange.touchPages s (pagesOf a bs.length)).opt

@[simp] theorem State.writeB_opt (a : Nat) (bs : List Byte) : (s.writeB a bs).opt = s.opt := s.write_opt a bs false

@[simp] theorem State.writeLe_opt (a k x : Nat) : (s.writeLe a k x).opt = s.opt := s.writeB_opt a _

theorem State.writeMarkedN_opt (f a : Nat) (bs : List (Byte × Bool)) : (s.writeMarkedN f a bs).opt = s.opt := by
  induction f generalizing s a bs with
  | zero => rfl
  | succ f ih =>
    cases bs with
    | nil => rfl
    | cons b bs => exact (ih _ _ _).trans (s.write_opt _ _ _)

@[simp] theorem State.writeMarked_opt (a : Nat) (bs : List (Byte × Bool)) : (s.writeMarked a bs).opt = s.opt := by
  unfold State.writeMarked
  split
  · exact s.writeMarkedN_opt _ _ _
  · exact s.writeB_opt _ _

@[simp] theorem State.copyMarked_opt (dst src k : Nat) : (s.copyMarked dst src k).opt = s.opt := s.writeMarked_opt _ _

@[simp] theorem State.seedUsed_opt (n : Nat) : (s.seedUsed n).opt = s.opt := by
  unfold State.seedUsed
  split <;> rfl

@[simp] theorem State.optCast_opt (n : Nat) (e : OptEntry) (step b j len : Nat) : (s.optCast n e step b j len).opt = s.opt := by
  unfold State.optCast
  dsimp only
  rw [State.count_opt]
  split <;> simp

theorem State.tallyAdd_opt (n : Nat) (t : TallyAcc) : (s.tallyAdd n t).opt = s.opt := by
  unfold State.tallyAdd
  dsimp only
  split <;> rfl

@[simp] theorem State.tallyBlock_opt (c : Coll) (b code : Nat) (xs : List BElem) : (s.tallyBlock c b code xs).opt = s.opt := by
  unfold State.tallyBlock
  split
  · exact State.foldl_same State.opt (fun u _ => u.tallyAdd_opt _ _) _ s
  · rfl

theorem State.sendGroup_opt (c : Coll) (rs : List TwistRec) : (s.sendGroup c rs).opt = s.opt := by
  have hkeep (r : TwistRec) (u : State) (p : Nat) : (u.keep c.slice p r).opt = u.opt := rfl
  exact State.foldl_same State.opt (fun u r => State.foldl_same State.opt (hkeep r) c.peers (u.emit (.twistGroup c.d.group r))) rs s

theorem State.deliverResult_opt (c : Coll) (r : TwistRec) : (s.deliverResult c r).opt = s.opt := by
  unfold State.deliverResult
  dsimp only
  rw [State.foldl_same State.opt fun _ _ => State.emit_opt _ _]
  split <;> simp

@[simp] theorem State.setColl_opt (c : Coll) : (s.setColl c).opt = s.opt := rfl

theorem State.takeResult_opt (c : Coll) (r : TwistRec) : (s.takeResult c r).1.opt = s.opt := by
  unfold State.takeResult
  dsimp only
  split
  · rfl
  · rw [State.setColl_opt]
    split
    · exact s.writeB_opt _ _
    · exact s.deliverResult_opt c r

theorem State.sendResult_opt (c : Coll) (rs : List TwistRec) : (s.sendResult c rs).opt = s.opt := by
  have hstep (u : State) (r : TwistRec) : (match u.coll? c.d.collId with
      | some c => (u.takeResult c r).1
      | none => u).opt = u.opt := by
    cases u.coll? c.d.collId with
    | none => rfl
    | some c => exact u.takeResult_opt c r
  exact (State.foldl_same State.opt hstep rs _).trans (s.sendGroup_opt c rs)

theorem State.sendOwned_opt (c : Coll) (b : Nat) : (s.sendOwned c b).opt = s.opt :=
  (State.sendResult_opt _ _ _).trans (s.tallyBlock_opt _ _ _ _)

theorem State.sendReady_opt (id : Nat) : (s.sendReady id).opt = s.opt := by
  have hstep (u : State) (b : Nat) : (match u.coll? id with
      | some c => u.sendOwned c b
      | none => u).opt = u.opt := by
    cases u.coll? id with
    | none => rfl
    | some c => exact u.sendOwned_opt c b
  unfold State.sendReady
  split
  · rfl
  · exact State.foldl_same State.opt hstep _ _

end

/-! ### Commits (R447, R450) -/

section
variable {s : State} {l slot d : Nat} {x : OptItem}

/-- The part once the staged block of `x`, the only item, is copied from the ring of its row on die `d`, stamped, cast and counted. -/
def State.blockCommitted (s : State) (x : OptItem) (d : Nat) : State :=
  let e := s.optEntry x.slice x.entry
  let u := { s with opt := { s.opt with items := [] } }
  let stg := s.optRing x.slice d ((s.optRowsOf d).findIdx (fun y => y == x.row)) + 64 * 2 ^ s.optLog2 x.slice + 3072 * x.slot
  let a := u.copyMarked (e.master + 1024 * x.ord) stg (4 * x.len)
  let b := if e.m1 = 0 then a else a.copyMarked (e.m1 + 1024 * x.ord) (stg + 1024) (4 * x.len)
  let c := if e.m2 = 0 then b else b.copyMarked (e.m2 + 1024 * x.ord) (stg + 2048) (4 * x.len)
  ((c.writeLe (e.stamp + 8 * x.ord) 8 x.step).optCast x.slice e x.step x.block x.ord x.len).count Ctr.OPT_COMMIT

theorem State.optCommit_block (hitems : s.opt.items = [x]) (hlen : x.len ≠ 0)
    (hdie : s.optDie x.slice (s.optEntry x.slice x.entry) = some d) : s.optCommit x = s.blockCommitted x d := by
  have herase : s.opt.items.erase x = [] := by simp [hitems]
  have hdie' : { s with opt := { s.opt with items := [] } }.optDie x.slice (s.optEntry x.slice x.entry) = some d := hdie
  simp only [State.optCommit, herase, if_neg hlen, hdie']
  rfl

theorem State.blockCommitted_opt (s : State) (x : OptItem) (d : Nat) :
    (s.blockCommitted x d).opt = { s.opt with items := [] } := by
  simp only [State.blockCommitted, State.count_opt, State.optCast_opt, State.writeLe_opt, apply_ite State.opt, State.copyMarked_opt,
    ite_self]

theorem exec_optCommit_block (hitems : s.opt.items = [x]) (hrow : x.row = l) (hslot : x.slot = slot) (hstaged : x.staged = true)
    (hlen : x.len ≠ 0) (hdie : s.optDie x.slice (s.optEntry x.slice x.entry) = some d) (hdrain : s.opt.drain = []) :
    exec (.optCommit l slot) s = .next ((s.blockCommitted x d).sendReady (s.optEntry x.slice x.entry).pubColl) := by
  have hfind : s.opt.items.find? (fun y => y.row = l && y.slot = slot && y.staged) = some x := by
    simp [hitems, hrow, hslot, hstaged]
  have hopt := ((s.blockCommitted x d).sendReady_opt (s.optEntry x.slice x.entry).pubColl).trans (s.blockCommitted_opt x d)
  refine congrArg Host.Outcome.next ?_
  rw [State.optCommitSlot, hfind]
  simp [State.optCommit_block hitems hlen hdie, hopt, hdrain]

theorem exec_optCommit_none (h : s.opt.items = []) : exec (.optCommit l slot) s = .next s := by
  refine congrArg Host.Outcome.next ?_
  rw [State.optCommitSlot, h, List.find?_nil]

end

/-- Settles O35: the checks of ENABLE and what they leave of the table, DISABLE, dispatch, staging and the commit of a block. -/
theorem optimizerEngine : Obligations.OptimizerEngine := by
  refine ⟨fun _ p _ _ hs hgo hop => exec_optEnable_pf0 p hs hgo hop, ?_, ?_, ?_,
    fun _ p _ _ hs hgo hop => exec_optDisable_pf0 p hs hgo hop, fun _ _ _ _ _ h => State.optCfgWrite_enabled h _ _, fun _ _ => rfl,
    fun _ _ _ _ hitems hrow hslot hstaged => exec_optItemStaged_one hitems hrow hslot hstaged, ?_,
    fun _ _ _ h => exec_optCommit_none h⟩
  · intro s n hon hpass
    exact absurd (optCheck_passes hpass).disabled (by simp [hon])
  · intro s n i hpass hi
    exact (optCheck_passes (congrArg Prod.fst hpass)).entry hi
  · intro s n i j hpass hij hj
    exact (optCheck_passes (congrArg Prod.fst hpass)).distinct_entries hij hj
  · intro s l slot d x o e u stg hitems hrow hslot hstaged hlen hdie hdrain
    subst hrow hslot
    exact exec_optCommit_block hitems rfl rfl hstaged hlen hdie hdrain

end Sys2Proof.Machine
end

section
/-! PROOFS. Commands and delivery of feeds (O36): what a passed check of OPEN says, CRD_Sn_CMD, and the write and delivery of a step. -/

namespace Sys2Proof.Machine

/-! ### The checks of OPEN (R466, R508, R509) -/

section
variable {s : State} {n f a : Nat} {d : FeedDesc} {spans : List LocalSpan} {tbl : List StreamEntry}

/-- The values of a descriptor that R466 bounds, as OPEN passes them. -/
structure FeedInRange (d : FeedDesc) (spans : List LocalSpan) : Prop where
  lookahead : 1 ≤ d.lookahead ∧ d.lookahead ≤ 4
  records : d.rps ≤ 4096
  localCnt : 1 ≤ d.localCnt ∧ d.localCnt ≤ 48
  channels : d.c = 1 ∨ d.c = 3
  slots : ∀ e ∈ spans, e.cnt * d.stitchSize ≤ d.slotBytes

theorem feedInRange_of_feedValues (h : s.feedValues a d spans tbl = 0) : FeedInRange d spans := by
  unfold State.feedValues at h
  dsimp only at h
  split at h
  · exact nomatch h
  split at h
  · exact nomatch h
  next hrange =>
  simp only [not_or, Bool.not_eq_true', Bool.not_eq_false, slotsOk, List.all_eq_true, decide_eq_true_eq] at hrange
  obtain ⟨hahead, hahead4, -, -, -, -, hc, -, -, hrps, hcnt, hcnt48, -, -, -, -, -, -, hslots⟩ := hrange
  exact {
    lookahead := by omega
    records := by omega
    localCnt := by omega
    channels := by omega
    slots := hslots }

/-- What feed `f` of slice `n` and its tables meet when the checks of OPEN pass. -/
structure FeedPasses (s : State) (n f : Nat) (d : FeedDesc) (spans : List LocalSpan) : Prop where
  inRange : FeedInRange d spans
  endpoints : ∀ e ∈ spans, s.epOfSlice n e.ep = true
  closed : s.feedState n f = 0
  targets : ∀ k ∈ s.feedDies d spans, s.feedTargets d k ≠ []

theorem feedOpenStatus_passes (h : s.feedOpenStatus n f a d spans tbl = 0) : FeedPasses s n f d spans := by
  unfold State.feedOpenStatus at h
  dsimp only at h
  split at h
  next hbad => exact absurd h hbad
  next hvalues =>
  split at h
  · exact nomatch h
  split at h
  · exact nomatch h
  next hspans =>
  split at h
  · exact nomatch h
  next hclosed =>
  split at h
  · exact nomatch h
  next htargets =>
  simp only [Bool.not_eq_true', Bool.not_eq_false, State.spansOk, Bool.and_eq_true, List.all_eq_true] at hspans
  exact {
    inRange := feedInRange_of_feedValues (not_not.mp hvalues)
    endpoints := hspans.1
    closed := not_not.mp hclosed
    targets := by simpa using htargets }

end

/-! ### CRD_Sn_CMD (R508) -/

theorem fieldOf_setField_27_24 (w : Word) (x : Nat) : fieldOf (setField w 27 24 x) 27 24 = x % 2 ^ 4 := by
  simp only [fieldOf, setField, bitsOf, putBits, BitVec.toNat_ofNat, Nat.shiftRight_eq_div_pow, Nat.shiftLeft_eq]
  omega

theorem fieldOf_27_24_setField_15_0 (w : Word) (x : Nat) : fieldOf (setField w 15 0 x) 27 24 = fieldOf w 27 24 := by
  simp only [fieldOf, setField, bitsOf, putBits, BitVec.toNat_ofNat, Nat.shiftRight_eq_div_pow, Nat.shiftLeft_eq]
  omega

section
variable {s : State} {n f k : Nat} {v : Word} {x : Feed}

@[simp] theorem feedEnds_carder (s : State) (n f st : Nat) : (feedEnds s n f st).carder = s.carder := rfl
@[simp] theorem feedEnds_mem (s : State) (n f st : Nat) : (feedEnds s n f st).mem = s.mem := rfl

theorem rf_feedEnds_status (s : State) (n f st : Nat) : (feedEnds s n f st).rf (Reg.CRD_STAT n) 15 0 = st % 2 ^ 16 := by
  rw [State.rf, feedEnds, State.rd_wf_same, fieldOf_setField_15_0]

theorem rf_feedEnds_feed (s : State) (n f st : Nat) : (feedEnds s n f st).rf (Reg.CRD_STAT n) 27 24 = f % 2 ^ 4 := by
  rw [State.rf, feedEnds, State.rd_wf_same, fieldOf_27_24_setField_15_0, State.rd_wf_same, fieldOf_setField_27_24]

theorem fieldOf_11_8_lt (v : Word) : fieldOf v 11 8 < 16 := Nat.mod_lt _ (by decide)

theorem FeedDesc.train_iff (d : FeedDesc) : d.train = true ↔ d.mode = 1 := decide_eq_true_iff

theorem addrOf_feedAsked (s : State) (n : Nat) (v : Word) :
    (feedAsked s n v).addrOf (Reg.CRD_FD_LO n) (Reg.CRD_FD_HI n) = s.addrOf (Reg.CRD_FD_LO n) (Reg.CRD_FD_HI n) :=
  State.addrOf_of_rd (s.rd_wr_other _ (by simp [Reg.CRD_FD_LO, Reg.CRD_CMD])) (s.rd_wr_other _ (by simp [Reg.CRD_FD_HI, Reg.CRD_CMD]))

theorem stepCtr_feedAsked (hn : n < 8) (v : Word) : (feedAsked s n v).stepCtr n = s.stepCtr n :=
  State.stepCtr_of_rd (s.rd_wr_other _ (by simp only [Reg.GLB_JOB_STEP_LO, Reg.CRD_CMD]; omega))
    (s.rd_wr_other _ (by simp only [Reg.GLB_JOB_STEP_HI, Reg.CRD_CMD]; omega))

/-- With GO set, a write of CRD_Sn_CMD runs its operation on the feed it names. -/
theorem State.feedCmdWrite_go (hgo : fieldOf v 31 31 = 1) :
    s.feedCmdWrite n v = match fieldOf v 2 0 with
      | 1 => (feedAsked s n v).feedOpen n (fieldOf v 11 8)
      | 2 => (feedAsked s n v).feedClose n (fieldOf v 11 8)
      | 3 => (feedAsked s n v).feedRetarget n (fieldOf v 11 8)
      | _ => feedEnds (feedAsked s n v) n (fieldOf v 11 8) 0x02A0 := by
  have hne : fieldOf v 31 31 ≠ 0 := by simp [hgo]
  exact if_neg hne

theorem exec_feedOpen_pf0 (p : Nat) (hs : s.hasSlice n = true) (hgo : fieldOf v 31 31 = 1) (hop : fieldOf v 2 0 = 1) :
    exec (.feedOpen (.pf0 p) n v) s = .next ((feedAsked s n v).feedOpen n (fieldOf v 11 8)) := by
  refine congrArg Host.Outcome.next ((State.gated_pf0 hs p _).trans ?_)
  rw [State.feedCmdWrite_go hgo, hop]
  rfl

theorem exec_feedClose_pf0 (p : Nat) (hs : s.hasSlice n = true) (hgo : fieldOf v 31 31 = 1) (hop : fieldOf v 2 0 = 2) :
    exec (.feedClose (.pf0 p) n v) s = .next ((feedAsked s n v).feedClose n (fieldOf v 11 8)) := by
  refine congrArg Host.Outcome.next ((State.gated_pf0 hs p _).trans ?_)
  rw [State.feedCmdWrite_go hgo, hop]
  rfl

theorem exec_feedRetarget_pf0 (p : Nat) (hs : s.hasSlice n = true) (hgo : fieldOf v 31 31 = 1) (hop : fieldOf v 2 0 = 3) :
    exec (.feedRetarget (.pf0 p) n v) s = .next ((feedAsked s n v).feedRetarget n (fieldOf v 11 8)) := by
  refine congrArg Host.Outcome.next ((State.gated_pf0 hs p _).trans ?_)
  rw [State.feedCmdWrite_go hgo, hop]
  rfl

/-! ### OPEN, CLOSE and RETARGET (R466, R489, R506, R508) -/

/-- Feed `x` is OPEN, its command ended with status 0; a TRAIN feed reads its first steps (R489). -/
def State.feedStarted (s : State) (x : Feed) : State :=
  let c := s.carder
  let w := feedEnds (({ s with carder := { c with feeds := c.feeds ++ [x] } }).wf (Reg.CRD_FSTATE x.slice) (2 * x.idx + 1) (2 * x.idx) 1)
    x.slice x.idx 0
  if x.d.mode = 1 then w.readSteps x.slice x.idx (x.next + x.d.lookahead) (x.d.lookahead + 1) else w

theorem State.feedOpen_at {a : Nat} (ha : s.addrOf (Reg.CRD_FD_LO n) (Reg.CRD_FD_HI n) + 128 * f = a) (hk : s.stepCtr n = k) :
    let d := s.readFeed a
    let st := s.feedOpenStatus n f a d (s.localSpans d) (s.streamEntries d)
    s.feedOpen n f = if st ≠ 0 then feedEnds s n f st
      else s.feedStarted { slice := n, idx := f, d := d, spans := s.localSpans d, table := s.streamEntries d, first := k, next := k } := by
  subst ha hk
  exact if_congr Iff.rfl rfl (if_congr (FeedDesc.train_iff _) rfl rfl)

theorem State.feedClose_of_closed (h1 : s.feedState n f ≠ 1) (h2 : s.feedState n f ≠ 2) : s.feedClose n f = feedEnds s n f 0x02A0 :=
  if_neg (not_or.mpr ⟨h1, h2⟩)

theorem State.feedClose_of_open (h : s.feedState n f = 1 ∨ s.feedState n f = 2) :
    s.feedClose n f = feedEnds (s.feedShut n f) n f 0 := if_pos h

theorem State.feedShut_feeds (s : State) (n f : Nat) :
    (s.feedShut n f).carder.feeds = s.carder.feeds.filter (fun x => !(x.slice = n && x.idx = f)) := rfl

theorem State.feedShut_items (s : State) (n f : Nat) :
    (s.feedShut n f).carder.items = s.carder.items.filter (fun i => !(i.slice = n && i.feed = f)) := rfl

theorem State.feedShut_mem (s : State) (n f : Nat) : (s.feedShut n f).mem = s.mem := rfl

/-- The feeds that remain are the others. -/
theorem State.mem_feedShut_feeds : x ∈ (s.feedShut n f).carder.feeds ↔ x ∈ s.carder.feeds ∧ ¬ (x.slice = n ∧ x.idx = f) := by
  rw [State.feedShut_feeds, List.mem_filter]
  simp [Decidable.imp_iff_not_or]

theorem State.feedRetarget_at (hx : s.feed? n f = some x) (hk : s.stepCtr n = k) :
    let spans := s.localSpans x.d
    s.feedRetarget n f =
      if s.feedState n f ≠ 1 ∨ x.stopped = false then feedEnds s n f 0x02A0
      else if spans.all (fun e => e.cnt * x.d.stitchSize ≤ x.d.slotBytes) = false then feedEnds s n f 0x01A1
      else if s.spansOk n x.d spans = false then feedEnds s n f 0x01A3
      else if (s.feedDies x.d spans).any (fun j => s.feedTargets x.d j = []) then feedEnds s n f 0x02A1
      else (feedEnds (s.setFeed { x with spans := spans, stopped := false, first := k, next := k, released := [], written := [], ready := [] })
        n f 0).readSteps n f (k + x.d.lookahead) (x.d.lookahead + 1) := by
  subst hk
  simp only [State.feedRetarget, hx, Bool.not_eq_true']
  rfl

end

/-! ### The write and delivery of a step (R488 to R490) -/

section
variable {s : State} {n f ep k : Nat} {x : Feed} {e : LocalSpan}

/-- The items of step `k` that belong to span `e` of feed `f`. -/
def State.stepItems (s : State) (n f k : Nat) (e : LocalSpan) : List FeedItem :=
  s.carder.items.filter (fun i => i.slice = n && i.feed = f && i.time = k && e.lo ≤ i.stitch && i.stitch < e.lo + e.cnt)

/-- The items of the step leave the queue, written to the slot of endpoint `ep`. -/
def State.stepWritten (s : State) (x : Feed) (ep k lo : Nat) (its : List FeedItem) : State :=
  let base := x.d.dstOff + k % x.d.lookahead * x.d.slotBytes
  let u := its.foldl (fun u i =>
    u.epWrite ep (base + (i.stitch - lo) * x.d.stitchSize + i.item * x.d.imageBytes) (u.readMarked i.pack x.d.imageBytes)) s
  let c := u.carder
  ({ u with carder := { c with items := c.items.filter (fun i => !its.contains i) } }).setFeed { x with written := x.written ++ [(ep, k)] }

theorem State.writeStep_eq (hx : s.feed? n f = some x) (he : x.spans.find? (fun y => y.ep = ep) = some e) :
    let its := s.stepItems n f k e
    s.writeStep n f ep k =
      if s.feedRuns x = true ∧ x.d.mode = 1 ∧ (ep, k) ∉ x.written ∧ (ep, k) ∉ x.ready ∧ s.slotFree x ep k = true ∧
          its.length = e.cnt * x.d.rps ∧ (∀ i ∈ its, i.stage = .packed) then s.stepWritten x ep k e.lo its
      else s := by
  intro its
  simp only [State.writeStep, hx, he]
  rw [← ite_not]
  refine if_congr ?_ rfl rfl
  simp [not_or, FeedDesc.train_iff, its, State.stepItems]

/-- A counter that is named only under `en`. -/
theorem State.ctrBumpOpt_ite (s : State) (n c : Nat) (en all : Bool) :
    (if all = true then s.ctrBumpOpt n (if en = true then some c else none) else s) =
      if (all && en) = true then s.ctrBumpOpt n (some c) else s := by
  cases en with
  | false => simp [State.ctrBumpOpt]
  | true => simp

theorem State.deliverStep_eq (hx : s.feed? n f = some x) :
    let y := { x with written := x.written.erase (ep, k), ready := x.ready ++ [(ep, k)] }
    let u := s.setFeed y
    let w := if ep = 0 then u else u.emit (.feedReady ep x.d.id k (s.epLinks ep).length)
    s.deliverStep n f ep k =
      if (ep, k) ∉ x.written then s
      else if x.spans.all (fun e => y.ready.contains (e.ep, k)) && x.d.doneEn then w.ctrBumpOpt n (some x.d.doneCtr) else w := by
  intro y u w
  rw [State.deliverStep, hx]
  refine if_congr (by simp) rfl ?_
  exact State.ctrBumpOpt_ite _ _ _ _ _

end

/-- Settles O36: the checks of OPEN and what they leave, CLOSE, RETARGET, and the write and delivery of a step. -/
theorem feedControl : Obligations.FeedControl := by
  refine ⟨?_, ?_, ?_, ?_, ?_, ?_⟩
  case refine_1 =>
    intro s p n v hs hgo hop
    exact (exec_feedOpen_pf0 p hs hgo hop).trans (congrArg Host.Outcome.next
      (State.feedOpen_at (congrArg (· + 128 * fieldOf v 11 8) (addrOf_feedAsked s n v)) (stepCtr_feedAsked (State.lt_eight_of_hasSlice hs) v)))
  case refine_2 =>
    intro s n f a d spans tbl h
    obtain ⟨⟨⟨hahead, hahead4⟩, hrps, ⟨hcnt, hcnt48⟩, hc, hslots⟩, hends, hclosed, htargets⟩ := feedOpenStatus_passes h
    exact ⟨hclosed, hahead, hahead4, hrps, hcnt, hcnt48, hc, fun e he => ⟨hends e he, hslots e he⟩, htargets⟩
  case refine_3 =>
    intro s p n v _ hs hgo hop f u
    refine ⟨u.feedClose n f, exec_feedClose_pf0 p hs hgo hop, fun ⟨h1, h2⟩ => State.feedClose_of_closed h1 h2, fun hopen => ?_⟩
    rw [State.feedClose_of_open hopen, feedEnds_carder, feedEnds_mem, State.feedShut_mem, State.feedShut_items]
    refine ⟨fun x hx => State.mem_feedShut_feeds.mp hx, fun x hx => ?_, rfl, rfl, rf_feedEnds_status _ n f 0,
      (rf_feedEnds_feed _ n f 0).trans (Nat.mod_eq_of_lt (fieldOf_11_8_lt v))⟩
    by_cases hx' : x.slice = n ∧ x.idx = f
    · exact .inr hx'
    · exact .inl (State.mem_feedShut_feeds.mpr ⟨hx, hx'⟩)
  case refine_4 =>
    intro s p n v x hs hgo hop f u hx
    exact (exec_feedRetarget_pf0 p hs hgo hop).trans
      (congrArg Host.Outcome.next (State.feedRetarget_at hx (stepCtr_feedAsked (State.lt_eight_of_hasSlice hs) v)))
  case refine_5 => exact fun s n f ep k x e hx he => congrArg Host.Outcome.next (State.writeStep_eq hx he)
  case refine_6 => exact fun s n f ep k x hx => congrArg Host.Outcome.next (State.deliverStep_eq hx)

end Sys2Proof.Machine
end

section
/-! PROOFS. Items, pixels and RTP frames of feeds (O37): the pipes and records of TRAIN items, items in row rings, and frames. -/

namespace Sys2Proof.Machine

/-! ### What writes of memory leave of the Carder's state (R520 to R533) -/

/-- The part comes from `s₀` to `s` with changes in memory and in what a write of it changes beside. -/
def MemChange (s₀ s : State) : Prop :=
  ∃ regs ctrs mem tags dirty pend push ckp out, s = { s₀ with regs, ctrs, mem, tags, dirty, pend, push, ckp, out }

section
variable {s₀ s : State}

theorem MemChange.refl (s : State) : MemChange s s := ⟨_, _, _, _, _, _, _, _, _, rfl⟩

theorem MemChange.write (hs : MemChange s₀ s) (a : Nat) (bs : List Byte) (p : Bool) : MemChange s₀ (s.write a bs p) := by
  obtain ⟨_, _, _, _, _, _, _, htouch⟩ := PushChange.touchPages s (pagesOf a bs.length)
  obtain ⟨_, _, _, _, _, _, _, _, _, rfl⟩ := hs
  rw [State.write, htouch]
  exact ⟨_, _, _, _, _, _, _, _, _, rfl⟩

theorem MemChange.writeMarkedN (f : Nat) (hs : MemChange s₀ s) (a : Nat) (bs : List (Byte × Bool)) :
    MemChange s₀ (s.writeMarkedN f a bs) := by
  induction f generalizing s a bs with
  | zero => exact hs
  | succ f ih =>
    cases bs with
    | nil => exact hs
    | cons b bs => exact ih (hs.write _ _ _) _ _

theorem MemChange.writeMarked (hs : MemChange s₀ s) (a : Nat) (bs : List (Byte × Bool)) : MemChange s₀ (s.writeMarked a bs) := by
  unfold State.writeMarked
  split
  · exact hs.writeMarkedN _ _ _
  · exact hs.write _ _ _

theorem MemChange.carder (hs : MemChange s₀ s) : s.carder = s₀.carder := by
  obtain ⟨_, _, _, _, _, _, _, _, _, rfl⟩ := hs
  rfl

@[simp] theorem State.writeB_carder (s : State) (a : Nat) (bs : List Byte) : (s.writeB a bs).carder = s.carder :=
  ((MemChange.refl s).write a bs false).carder

@[simp] theorem State.writeMarked_carder (s : State) (a : Nat) (bs : List (Byte × Bool)) : (s.writeMarked a bs).carder = s.carder :=
  ((MemChange.refl s).writeMarked a bs).carder

@[simp] theorem State.feedLog_carder (s : State) (bs : List Byte) : (s.feedLog bs).carder = s.carder := s.writeB_carder _ _

end

/-! ### Pipes (R474) -/

section
variable {s : State} {i : FeedItem}

theorem State.mapItem_one (h : s.carder.items = [i]) (g : FeedItem → FeedItem) :
    s.mapItem i g = { s with carder := { s.carder with items := [g i] } } := by
  simp [State.mapItem, h]

theorem State.mapItem_head {rest : List FeedItem} (h : s.carder.items = i :: rest) (hi : i ∉ rest) (g : FeedItem → FeedItem) :
    s.mapItem i g = { s with carder := { s.carder with items := g i :: rest } } := by
  have hrest : rest.map (fun x => if x = i then g x else x) = rest :=
    (List.map_congr_left fun x hx => if_neg (ne_of_mem_of_not_mem hx hi)).trans (List.map_id rest)
  simp [State.mapItem, h, hrest]

theorem FeedItem.pipe_eq_none_of_waiting (h : i.stage = .waiting) : i.pipe = none := by
  rw [FeedItem.pipe, h]

/-- The pipes of die `k` that decode an item. -/
def State.busyPipes (s : State) (k : Nat) : List Nat := s.carder.items.filterMap (fun i => if i.die = k then i.pipe else none)

theorem State.mem_busyPipes {k p : Nat} : p ∈ s.busyPipes k ↔ ∃ i ∈ s.carder.items, i.die = k ∧ i.pipe = some p := by
  simp [State.busyPipes]

theorem State.startDecode_eq (s : State) (k : Nat) :
    s.startDecode k = match (List.range 16).find? (fun p => !(s.busyPipes k).contains p),
        s.carder.items.find? (fun i => i.die = k && i.stage = .waiting && s.sliceState i.slice = 0) with
      | some p, some i => s.mapItem i (fun y => { y with stage := .decoding p })
      | _, _ => s := rfl

theorem exec_itemDecodeStart_head {k : Nat} {rest : List FeedItem} (hitems : s.carder.items = i :: rest) (hdie : i.die = k)
    (hwait : i.stage = .waiting) (hruns : s.sliceState i.slice = 0) (hfree : ∀ y ∈ rest, y.die ≠ k ∨ y.pipe = none) (hi : i ∉ rest) :
    exec (.itemDecodeStart k) s =
      .next { s with carder := { s.carder with items := { i with stage := .decoding 0 } :: rest } } := by
  have hidle : s.busyPipes k = [] := by
    refine List.eq_nil_iff_forall_not_mem.mpr fun p hp => ?_
    obtain ⟨y, hy, hydie, hypipe⟩ := State.mem_busyPipes.mp hp
    rw [hitems] at hy
    rcases List.mem_cons.mp hy with rfl | hy
    · simp [FeedItem.pipe_eq_none_of_waiting hwait] at hypipe
    · simpa [hydie, hypipe] using hfree y hy
  have hpipe : (List.range 16).find? (fun p => !(s.busyPipes k).contains p) = some 0 := by
    rw [hidle]
    rfl
  have hfind : s.carder.items.find? (fun i => i.die = k && i.stage = .waiting && s.sliceState i.slice = 0) = some i := by
    simp [hitems, hdie, hwait, hruns]
  refine congrArg Host.Outcome.next ?_
  rw [State.startDecode_eq, hpipe, hfind]
  exact State.mapItem_head hitems hi _

theorem exec_itemDecodeStart_busy {k : Nat}
    (h : ∀ p ∈ List.range 16, s.carder.items.any (fun i => i.die = k && i.pipe = some p) = true) :
    exec (.itemDecodeStart k) s = .next s := by
  have hnone : (List.range 16).find? (fun p => !(s.busyPipes k).contains p) = none := by
    refine List.find?_eq_none.mpr fun p hp => ?_
    have hbusy : p ∈ s.busyPipes k := State.mem_busyPipes.mpr (by simpa using h p hp)
    simpa using hbusy
  refine congrArg Host.Outcome.next ?_
  rw [State.startDecode_eq, hnone]

end

/-! ### Records (R469 to R472, R474, R492) -/

section
variable {s : State} {x : Feed} {i : FeedItem} {fetched : List (List Byte)}

/-- The image, with its marks, of the record at cursor position `p + j`. -/
def State.decodedAt (s : State) (x : Feed) (p : Nat) (fetched : List (List Byte)) (j : Nat) : Option (Image × List Bool) :=
  (s.recordBytes x.slice x.d (s.cursorAt x.d (p + j)) fetched[j]?).bind (decodeMarked x.d.codec x.d.bayer x.d.c x.d.itemBytes)

theorem State.firstDecoded_succ (s : State) (x : Feed) (p : Nat) (fetched : List (List Byte)) (k j : Nat) :
    s.firstDecoded x p fetched (k + 1) j =
      ((s.decodedAt x p fetched j).map fun m => (s.cursorAt x.d (p + j), m)).or (s.firstDecoded x p fetched k (j + 1)) := by
  rw [State.firstDecoded, State.decodedAt]
  cases s.recordBytes x.slice x.d (s.cursorAt x.d (p + j)) fetched[j]? with
  | none => rfl
  | some bs =>
    cases hm : decodeMarked x.d.codec x.d.bayer x.d.c x.d.itemBytes bs <;> simp [hm]

theorem State.firstDecoded_one (s : State) (x : Feed) (p : Nat) (fetched : List (List Byte)) :
    s.firstDecoded x p fetched 1 0 = (s.decodedAt x p fetched 0).map fun m => (s.cursorAt x.d p, m) := by
  rw [State.firstDecoded_succ]
  exact Option.or_none

/-- Reading on stops at the first record that decodes; it has an image, so `m₀` is never taken. -/
theorem State.firstDecoded_eq (s : State) (x : Feed) (p : Nat) (fetched : List (List Byte)) (k j : Nat) (m₀ : Image × List Bool) :
    s.firstDecoded x p fetched k j = ((List.range' j k).find? (fun j => (s.decodedAt x p fetched j).isSome)).map
      fun j => (s.cursorAt x.d (p + j), (s.decodedAt x p fetched j).getD m₀) := by
  induction k generalizing j with
  | zero => rfl
  | succ k ih =>
    rw [State.firstDecoded_succ, ih, List.range'_succ, List.find?_cons]
    cases hm : s.decodedAt x p fetched j <;> simp [hm]

/-- A decode failure is counted and shown (R492). -/
def State.decodeFailed (s : State) : State := (s.count Ctr.CRD_DECODE_ERR).event Reg.CRD_EVT 1

theorem State.regionBase_decodeFailed (s : State) {d : Nat} (hd : d < 4) (r : Region) :
    s.decodeFailed.regionBase d r = s.regionBase d r ∧ s.decodeFailed.regionSize d r = s.regionSize d r := by
  have hpart : s.decodeFailed.rd (Reg.MEM_PART d) = s.rd (Reg.MEM_PART d) :=
    State.rd_event_other _ _ (by simp only [Reg.MEM_PART, Reg.CRD_EVT]; omega)
  simp only [State.regionBase, State.regionSize, State.rf, hpart, and_self]

theorem State.inSliceRegion_decodeFailed (s : State) (n : Nat) (r : Region) (a k : Nat) :
    s.decodeFailed.inSliceRegion n r a k = s.inSliceRegion n r a k := by
  have hslices : s.decodeFailed.sliceCount = s.sliceCount := State.sliceCount_of_rd (State.rd_event_other _ _ (by decide))
  have hdies : s.decodeFailed.diesOf n = s.diesOf n := by simp only [State.diesOf, State.sliceOfDie, hslices]
  rw [State.inSliceRegion, State.inSliceRegion, hdies]
  rw [Bool.eq_iff_iff, List.any_eq_true, List.any_eq_true]
  refine exists_congr fun d => and_congr_right fun hd => ?_
  obtain ⟨hbase, hsize⟩ := s.regionBase_decodeFailed (List.mem_range.mp (List.mem_of_mem_filter hd)) r
  rw [State.inRegion, State.inRegion, hbase, hsize]

/-- A decode failure leaves every record as it was. -/
theorem State.decodedAt_decodeFailed (s : State) : s.decodeFailed.decodedAt = s.decodedAt := by
  funext x p fetched j
  have hrecord : s.decodeFailed.recordBytes = s.recordBytes := by
    funext n d r fetched
    simp only [State.recordBytes, State.inSliceRegion_decodeFailed]
    rfl
  rw [State.decodedAt, State.decodedAt, hrecord]
  rfl

/-- Item `i` is decoded: image and marks `m`, with decision `dec`. -/
def State.itemReady (s : State) (i : FeedItem) (dec : Nat) (m : Image × List Bool) : State :=
  (s.mapItem i fun y => { y with stage := .ready, decision := dec, image := m.1, marks := m.2 }).count Ctr.CRD_REC

/-- Decision `dec` on item `i` of a TRAIN feed goes to the feed log with record `ref` (R500). -/
def State.trainLog (s : State) (x : Feed) (i : FeedItem) (dec ref : Nat) : State :=
  s.feedLog (feedRecord i.time x.d.id dec 0 0 (i.stitch + 65536 * i.item) ref)

@[simp] theorem State.trainLog_carder (s : State) (x : Feed) (i : FeedItem) (dec ref : Nat) : (s.trainLog x i dec ref).carder = s.carder :=
  s.feedLog_carder _

/-- ON_ERROR zeros: a zero image for the item, logged with decision 6 (R492). -/
def State.itemZeroed (s : State) (x : Feed) (i : FeedItem) (ref : Nat) : State :=
  (s.trainLog x i 6 ref).itemReady i 6 (zeroImage x.d.w x.d.h x.d.c, [])

/-- ON_ERROR next record: image `m` of record `ref` for the item, logged with decision 7 (R492). -/
def State.itemSubstituted (s : State) (x : Feed) (i : FeedItem) (ref : Nat) (m : Image × List Bool) : State :=
  ((s.trainLog x i 7 ref).count Ctr.CRD_SUBST).itemReady i 7 m

/-- The part `s` with image and marks `m` and decision `dec` for item `i`, the only one of Carder state `c`, counted. -/
def State.onlyReady (s : State) (c : Carder) (i : FeedItem) (dec : Nat) (m : Image × List Bool) : State :=
  ({ s with carder := { c with items := [{ i with stage := .ready, decision := dec, image := m.1, marks := m.2 }] } }).count Ctr.CRD_REC

section
variable {c : Carder} (hs : s.carder = c) (hc : c.items = [i])
include hs hc

theorem State.itemReady_one (dec : Nat) (m : Image × List Bool) : s.itemReady i dec m = s.onlyReady c i dec m := by
  subst hs
  rw [State.itemReady, State.mapItem_one hc]
  rfl

theorem State.itemZeroed_one (x : Feed) (ref : Nat) :
    s.itemZeroed x i ref = (s.trainLog x i 6 ref).onlyReady c i 6 (zeroImage x.d.w x.d.h x.d.c, []) :=
  State.itemReady_one ((s.trainLog_carder x i 6 ref).trans hs) hc _ _

theorem State.itemSubstituted_one (x : Feed) (ref : Nat) (m : Image × List Bool) :
    s.itemSubstituted x i ref m = ((s.trainLog x i 7 ref).count Ctr.CRD_SUBST).onlyReady c i 7 m :=
  State.itemReady_one ((State.count_carder _ _).trans ((s.trainLog_carder x i 7 ref).trans hs)) hc _ _

end

/-- The cursor position of item `i` of a TRAIN feed (R472). -/
def Feed.cursorPos (x : Feed) (i : FeedItem) : Nat := (i.time * x.d.stitches + i.stitch) * x.d.rps + i.item

/-- What a pipe makes of a TRAIN item (R492). -/
theorem State.decodeTrain_eq (s : State) (x : Feed) (i : FeedItem) (fetched : List (List Byte)) :
    let p := x.cursorPos i
    let u := s.decodeFailed
    let zeros := u.itemZeroed x i (s.cursorAt x.d p)
    s.decodeTrain x i fetched = match s.decodedAt x p fetched 0 with
      | some m => s.itemReady i 0 m
      | none =>
        if x.d.onError = 0 then zeros
        else if x.d.onError = 1 then
          match (List.range' 1 8).find? (fun j => (s.decodedAt x p fetched j).isSome) with
          | some j => u.itemSubstituted x i (s.cursorAt x.d (p + j)) ((s.decodedAt x p fetched j).getD (zeroImage x.d.w x.d.h x.d.c, []))
          | none => zeros
        else u.feedHalt i.slice i.feed 0x0801 2 := by
  intro p u zeros
  have hnext := u.firstDecoded_eq x p fetched 8 1 (zeroImage x.d.w x.d.h x.d.c, [])
  rw [State.decodedAt_decodeFailed] at hnext
  change (match s.firstDecoded x p fetched 1 0 with
    | some (_, m, marks) => s.itemReady i 0 (m, marks)
    | none => match x.d.onError with
      | 0 => zeros
      | 1 => match u.firstDecoded x p fetched 8 1 with
        | some (r, m, marks) => u.itemSubstituted x i r (m, marks)
        | none => zeros
      | _ => u.feedHalt i.slice i.feed 0x0801 2) = _
  rw [State.firstDecoded_one, hnext]
  cases s.decodedAt x p fetched 0 with
  | some m => rfl
  | none =>
    generalize x.d.onError = onError
    match onError with
    | 0 => rfl
    | 1 => cases (List.range' 1 8).find? (fun j => (s.decodedAt x p fetched j).isSome) <;> rfl
    | _ + 2 => rfl

theorem exec_itemDecodeDone_train {k q : Nat} (hitems : s.carder.items = [i]) (hdie : i.die = k) (hpipe : i.pipe = some q)
    (hx : s.feed? i.slice i.feed = some x) (hmode : x.d.mode = 1) :
    exec (.itemDecodeDone k q fetched) s = .next (s.decodeTrain x i fetched) := by
  have hfind : s.carder.items.find? (fun i => i.die = k && i.pipe = some q) = some i := by
    simp [hitems, hdie, hpipe]
  refine congrArg Host.Outcome.next ?_
  rw [State.endDecode, hfind]
  dsimp only
  rw [hx]
  exact if_pos (decide_eq_true hmode)

end

/-! ### Items in row rings (R483 to R486) -/

section
variable {s : State} {i : FeedItem} {x : Feed} {l : Nat}

theorem exec_carderItemWrite_one (hitems : s.carder.items = [i]) (hrow : i.row = l) (hready : i.stage = .ready)
    (hx : s.feed? i.slice i.feed = some x) :
    let key := ringKey i.slice i.feed l
    let seq := fetch 0 s.carder.seqs key
    let slot := seq % 2 ^ x.d.workLog2
    let a := s.itemRing x.d l + slot * x.d.itemBytes
    let pack := s.freeBits 40
    let u := (s.useFree.writeB a (itemHeader seq i pack)).writeMarked (a + 64) i.pixelBytes
    exec (.carderItemWrite l) s = .next (
      if s.rowState l = 5 ∨ s.rowState l = 6 then s
      else { u with carder := { u.carder with items := [{ i with stage := .ring, seq := seq, slot := slot, pack := pack }],
                                              seqs := store 0 u.carder.seqs key ((seq + 1) % 2 ^ 32) } }.rowTrigger l) := by
  intro key seq slot a pack u
  have hfind : s.carder.items.find? (fun i => i.row = l && i.stage ≠ .ring && i.stage ≠ .packed) = some i := by
    simp [hitems, hrow, hready]
  have hheld : s.carder.items.countP (fun y => y.slice = i.slice && y.feed = i.feed && y.row = l && y.stage = .ring) = 0 := by
    simp [hitems, hready]
  have hitemsU : u.carder.items = [i] := by simp [u, hitems]
  refine congrArg Host.Outcome.next ?_
  rw [State.writeItem, hfind]
  dsimp only
  rw [hx]
  dsimp only
  rw [hheld]
  refine if_congr (by simp [hready, or_comm]) rfl ?_
  change State.rowTrigger { u.mapItem i _ with carder := _ } l = _
  rw [State.mapItem_one hitemsU]

theorem exec_feedItemPacked_one {n f slot : Nat} (hitems : s.carder.items = [i]) (hx : s.feed? n f = some x) (hslice : i.slice = n)
    (hfeed : i.feed = f) (hrow : i.row = l) (hslot : i.slot = slot) (hring : i.stage = .ring) :
    exec (.feedItemPacked n f l slot) s = .next (
      if i.seq ≠ s.le (s.itemRing x.d l + slot * x.d.itemBytes + 60) 4 then s
      else { s with carder := { s.carder with items := if x.d.mode = 1 then [{ i with stage := .packed }] else [] } }) := by
  refine congrArg Host.Outcome.next ?_
  rw [State.packItem, hx]
  dsimp only
  by_cases hseq : i.seq = s.le (s.itemRing x.d l + slot * x.d.itemBytes + 60) 4
  · have hfind : s.carder.items.find? (fun y => y.slice = n && y.feed = f && y.row = l && y.slot = slot && y.stage = .ring &&
        y.seq = s.le (s.itemRing x.d l + slot * x.d.itemBytes + 60) 4) = some i := by
      simp [hitems, hslice, hfeed, hrow, hslot, hring, hseq]
    rw [hfind, if_neg (not_not.mpr hseq)]
    by_cases hmode : x.d.mode = 1
    · simp [hmode, FeedDesc.train, State.mapItem_one hitems]
    · simp [hmode, FeedDesc.train, hitems]
  · have hfind : s.carder.items.find? (fun y => y.slice = n && y.feed = f && y.row = l && y.slot = slot && y.stage = .ring &&
        y.seq = s.le (s.itemRing x.d l + slot * x.d.itemBytes + 60) 4) = none := by
      simp [hitems, hseq]
    rw [hfind, if_pos hseq]

end

/-! ### RTP frames (R494) -/

section
variable {s : State} {st at_ o total : Nat} {p bs : List Byte} {x : Feed} {e : StreamEntry}

/-- Does packet `p` carry version 2, and the payload type and source of stream entry `e` (R494)? -/
def rtpAccepts (e : StreamEntry) (p : List Byte) : Bool :=
  bitsOf (byteAt p 0) 7 6 = 2 && bitsOf (byteAt p 1) 6 0 = e.pt && (e.ssrc = 0 || beAt p 8 4 = e.ssrc)

theorem rtpAccepts_iff :
    rtpAccepts e p = true ↔ bitsOf (byteAt p 0) 7 6 = 2 ∧ bitsOf (byteAt p 1) 6 0 = e.pt ∧ (e.ssrc = 0 ∨ beAt p 8 4 = e.ssrc) := by
  simp [rtpAccepts, and_assoc]

/-- The pieces that an accepted packet places, and its frame's size (R494). -/
def rtpPlaced (e : StreamEntry) (p : List Byte) : Option (List (Nat × List Byte) × Nat) :=
  if rtpAccepts e p then (rtpPayload p).bind (rtpPieces e) else none

theorem rtpPlaced_eq_none (h : bitsOf (byteAt p 0) 7 6 ≠ 2 ∨ bitsOf (byteAt p 1) 6 0 ≠ e.pt ∨ (e.ssrc ≠ 0 ∧ beAt p 8 4 ≠ e.ssrc) ∨
    (rtpPayload p).bind (rtpPieces e) = none) : rtpPlaced e p = none := by
  rw [rtpPlaced]
  split
  · next hok =>
    obtain ⟨hversion, hpt, hssrc⟩ := rtpAccepts_iff.mp hok
    rcases h with h | h | ⟨hne, h⟩ | h
    · exact absurd hversion h
    · exact absurd hpt h
    · exact absurd hssrc (not_or.mpr ⟨hne, h⟩)
    · exact h
  · rfl

/-- Frame `r` once `pieces` are placed by a packet with marker `last`, stamped `stamp` (R494). -/
def RtpFrame.placed (r : RtpFrame) (pieces : List (Nat × List Byte)) (total : Nat) (last : Bool) (stamp : Nat) : RtpFrame :=
  let m := pieces.foldl (fun m x => placeBytes m x.1 x.2) r.bytes
  let q := { r with bytes := m, total := total, marker := r.marker || last }
  if q.marker && m.length = total then { q with done := some stamp } else q

theorem RtpFrame.placed_new (st ts o total stamp : Nat) (bs : List Byte) (last : Bool) :
    let m := placeBytes [] o bs
    ({ stream := st, ts := ts, first := stamp } : RtpFrame).placed [(o, bs)] total last stamp =
      { stream := st, ts := ts, first := stamp, bytes := m, total := total, marker := last,
        done := if last && m.length = total then some stamp else none } := by
  intro m
  change (if (last && m.length = total) = true then _ else _) = _
  split <;> rfl

theorem State.rtpPacket_eq (hstream : s.streamFeed st = some (x, e)) (p : List Byte) (stamp : Nat) :
    s.rtpPacket st p stamp = match rtpPlaced e p with
      | none => s.count Ctr.CRD_PKT_BAD
      | some (pieces, total) =>
        let ts := beAt p 4 4
        let r := (s.carder.frames.find? (fun r => r.stream = st && r.ts = ts)).getD { stream := st, ts := ts, first := stamp }
        if r.done.isSome then s
        else
          let others := s.carder.frames.filter (fun x => !(x.stream = st && x.ts = ts))
          { s with carder := { s.carder with frames := others ++ [r.placed pieces total (bitOf (byteAt p 1) 7) stamp] } } := by
  rw [State.rtpPacket, hstream]
  rfl

theorem exec_rtpPacket_bad (hstream : s.streamFeed st = some (x, e)) (hbad : rtpPlaced e p = none) :
    exec (.rtpPacket st p at_) s = .next (s.count Ctr.CRD_PKT_BAD) := by
  refine congrArg Host.Outcome.next ((State.rtpPacket_eq hstream p at_).trans ?_)
  rw [hbad]

theorem exec_rtpPacket_first (hstream : s.streamFeed st = some (x, e)) (hplaced : rtpPlaced e p = some ([(o, bs)], total))
    (hframes : s.carder.frames = []) :
    let m := placeBytes [] o bs
    let last := bitOf (byteAt p 1) 7
    exec (.rtpPacket st p at_) s = .next { s with carder := { s.carder with frames :=
      [{ stream := st, ts := beAt p 4 4, first := at_, bytes := m, total := total, marker := last,
         done := if last && m.length = total then some at_ else none }] } } := by
  intro m last
  refine congrArg Host.Outcome.next ((State.rtpPacket_eq hstream p at_).trans ?_)
  rw [hplaced, hframes, ← RtpFrame.placed_new]
  rfl

end

theorem exec_frameAgeExpire_one {s : State} {st ts now : Nat} {r : RtpFrame} (hframes : s.carder.frames = [r]) (hstream : r.stream = st)
    (hts : r.ts = ts) (hdone : r.done = none) :
    let u := s.reach now
    exec (.frameAgeExpire st ts now) s = .next (
      if r.first + 1000000 * u.rf Reg.CRD_CTL 13 0 < u.now then
        { u with carder := { s.carder with frames := [] } }.count Ctr.CRD_FRAME_DROP
      else u) := by
  intro u
  have hfind : u.carder.frames.find? (fun r => r.stream = st && r.ts = ts && r.done.isNone) = some r := by
    simp [u, hframes, hstream, hts, hdone]
  have herase : u.carder.frames.erase r = [] := by simp [u, hframes]
  refine congrArg Host.Outcome.next ?_
  change u.ageFrame st ts = _
  rw [State.ageFrame, hfind]
  dsimp only
  rw [herase]
  rfl

/-- Settles O37: pipes, decoded items and their substitutes, items in row rings, and frames of streams. -/
theorem feedItems : Obligations.FeedItems := by
  refine ⟨?_, fun _ _ h => exec_itemDecodeStart_busy h, ?_, ?_, ?_, ?_, ?_, ?_⟩
  case refine_1 =>
    intro s k i rest hitems hdie hwait hruns hfree hi
    exact exec_itemDecodeStart_head hitems hdie hwait hruns hfree (by simpa using hi)
  case refine_2 =>
    intro s k q fetched i x hitems hdie hpipe hx hmode d c pos one done bad log zeros
    have hfailed : s.decodeFailed.carder = s.carder := rfl
    refine (exec_itemDecodeDone_train hitems hdie hpipe hx hmode).trans (congrArg Host.Outcome.next ((s.decodeTrain_eq x i fetched).trans ?_))
    simp only [State.itemReady_one rfl hitems, State.itemZeroed_one hfailed hitems, State.itemSubstituted_one hfailed hitems]
    rfl
  case refine_3 => exact fun s l i x hitems hrow hready hx => exec_carderItemWrite_one hitems hrow hready hx
  case refine_4 =>
    exact fun s n f l slot i x hitems hx hslice hfeed hrow hslot hring => exec_feedItemPacked_one hitems hx hslice hfeed hrow hslot hring
  case refine_5 =>
    intro s st at_ p x e hstream hbad
    exact exec_rtpPacket_bad hstream (rtpPlaced_eq_none hbad)
  case refine_6 =>
    intro s st at_ o total p bs x e hstream hversion hpt hssrc hpieces hframes
    exact exec_rtpPacket_first hstream ((if_pos (rtpAccepts_iff.mpr ⟨hversion, hpt, hssrc⟩)).trans hpieces) hframes
  case refine_7 => exact fun s st ts now r hframes hstream hts hdone => exec_frameAgeExpire_one hframes hstream hts hdone

end Sys2Proof.Machine
end

section
/-! PROOFS. Pages, differences and images (O38): what page touches leave of the images, what a write of a whole page leaves in memory, and
the difference that lands. -/

namespace Sys2Proof.Machine

/-! ### What page touches leave of the images (R520 to R533) -/

/-- Each slice holds in `s` the image that it holds in `s₀`. -/
structure KeepsImages (s₀ s : State) : Prop where
  image : ∀ n, (s.ckpOf n).image = (s₀.ckpOf n).image

section
variable {s₀ s : State}

theorem KeepsImages.refl (s : State) : KeepsImages s s := ⟨fun _ => rfl⟩

/-- An update of memory and of the pages' own state. -/
theorem KeepsImages.frame {mem tags dirty pend push} (hs : KeepsImages s₀ s) :
    KeepsImages s₀ { s with mem, tags, dirty, pend, push } := ⟨hs.image⟩

theorem KeepsImages.wr (hs : KeepsImages s₀ s) {a : Nat} {v : Word} : KeepsImages s₀ (s.wr a v) := ⟨hs.image⟩

theorem KeepsImages.count (hs : KeepsImages s₀ s) {a : Nat} : KeepsImages s₀ (s.count a) := ⟨hs.image⟩

theorem KeepsImages.countN (hs : KeepsImages s₀ s) {a k : Nat} : KeepsImages s₀ (s.countN a k) := ⟨hs.image⟩

theorem KeepsImages.emit (hs : KeepsImages s₀ s) {o : Out} : KeepsImages s₀ (s.emit o) := ⟨hs.image⟩

theorem KeepsImages.setCkp (hs : KeepsImages s₀ s) {n : Nat} {c : Ckp} (hc : c.image = (s.ckpOf n).image := by rfl) :
    KeepsImages s₀ (s.setCkp n c) := by
  refine ⟨fun m => ?_⟩
  by_cases hm : m = n
  · subst hm
    rw [State.ckpOf_setCkp_same, hc, hs.image m]
  · rw [State.ckpOf_setCkp_other _ _ hm, hs.image m]

theorem KeepsImages.ite {c : Prop} {_ : Decidable c} {a b : State} (ha : KeepsImages s₀ a) (hb : KeepsImages s₀ b) :
    KeepsImages s₀ (if c then a else b) := by split <;> assumption

theorem KeepsImages.foldl {α : Type} {f : State → α → State} {l : List α}
    (hf : ∀ u x, KeepsImages s₀ u → KeepsImages s₀ (f u x)) (hs : KeepsImages s₀ s) : KeepsImages s₀ (l.foldl f s) := by
  induction l generalizing s with
  | nil => exact hs
  | cons x l ih => exact ih (hf s x hs)

theorem KeepsImages.eventN (hs : KeepsImages s₀ s) {a i k : Nat} : KeepsImages s₀ (s.eventN a i k) := by
  induction k generalizing s with
  | zero => exact hs
  | succ k ih => exact ih (.wr hs)

theorem KeepsImages.sendPage (hs : KeepsImages s₀ s) {d : Nat} : KeepsImages s₀ (s.sendPage d) := by
  unfold State.sendPage
  split
  · exact .count (.emit (.frame hs))
  · exact hs

theorem KeepsImages.capturePage (hs : KeepsImages s₀ s) {d g : Nat} : KeepsImages s₀ (s.capturePage d g) :=
  .frame (.setCkp (.ite hs (.sendPage hs)))

theorem KeepsImages.failPush (hs : KeepsImages s₀ s) {n st : Nat} : KeepsImages s₀ (s.failPush n st) :=
  .eventN (.countN (.wr (.setCkp (.frame hs))))

theorem KeepsImages.captureNow (hs : KeepsImages s₀ s) {n b : Nat} : KeepsImages s₀ (s.captureNow n b) :=
  .ite (.setCkp (.frame hs)) (.failPush (.setCkp (.setCkp (.frame hs))))

theorem KeepsImages.endCopy (hs : KeepsImages s₀ s) {n : Nat} : KeepsImages s₀ (s.endCopy n) := by
  have hsent : KeepsImages s₀ ((List.range 64).foldl (fun u _ => (s.diesOf n).foldl State.sendPage u) s) :=
    .foldl (fun _ _ hu => .foldl (fun _ _ hv => .sendPage hv) hu) hs
  unfold State.endCopy
  dsimp only
  split
  · exact hsent
  · split
    · exact .captureNow (.emit (.setCkp hsent))
    · exact .emit (.setCkp hsent)

theorem KeepsImages.drainCopy (hs : KeepsImages s₀ s) {n : Nat} : KeepsImages s₀ (s.drainCopy n) :=
  .endCopy (.foldl (fun _ _ hu => .capturePage hu) hs)

theorem KeepsImages.touchPage (hs : KeepsImages s₀ s) {g : Nat} : KeepsImages s₀ (s.touchPage g) := by
  rw [State.touchPage]
  cases s.statePage g with
  | none => exact hs
  | some d => exact .frame (.ite (.count (.capturePage (.ite (.drainCopy hs) hs))) (.ite (.drainCopy hs) hs))

theorem KeepsImages.writeB (hs : KeepsImages s₀ s) {a : Nat} {bs : List Byte} : KeepsImages s₀ (s.writeB a bs) :=
  .frame (.foldl (fun _ _ hu => .touchPage hu) hs)

theorem KeepsImages.setPage (hs : KeepsImages s₀ s) {a : Nat} {m : SMap Byte} : KeepsImages s₀ (s.setPage a m) :=
  .foldl (fun _ _ hu => .writeB hu) (.frame (.foldl (fun _ _ hu => .touchPage hu) hs))

end

/-! ### Bytes of memory and pages -/

theorem State.byte_writeB_one (s : State) (a b : Nat) (v : Byte) : (s.writeB a [v]).byte b = if b = a then v else s.byte b := by
  rw [State.byte, State.writeB, State.mem_write]
  exact fetch_store 0 s.mem a b v

theorem State.mem_zeroRange (s : State) (a k : Nat) :
    (s.zeroRange a k).mem = s.mem.filter (fun e => e.1 < a || a + k ≤ e.1) := by
  rw [← (PushChange.touchPages s (pagesOf a k)).mem, State.zeroRange]

theorem State.byte_zeroRange_inside (s : State) {a k b : Nat} (hlo : a ≤ b) (hhi : b < a + k) : (s.zeroRange a k).byte b = 0 := by
  rw [State.byte, State.mem_zeroRange, fetch_filter_key 0 (fun c => c < a || a + k ≤ c) s.mem b]
  exact if_neg (by simp only [Bool.or_eq_true, decide_eq_true_eq]; omega)

/-- Writing the bytes of `m` from `a` on lays them over what memory held. -/
theorem State.byte_foldl_writeB (s : State) (a o : Nat) {m : SMap Byte} (hm : SMapWf (fun _ => (0 : Byte)) m = true) :
    (m.foldl (fun s e => s.writeB (a + e.1) [e.2]) s).byte (a + o) = (lookup m o).getD (s.byte (a + o)) := by
  induction m generalizing s with
  | nil => rfl
  | cons e m ih =>
    obtain ⟨k, v⟩ := e
    simp only [SMapWf, Bool.and_eq_true] at hm
    obtain ⟨⟨_, habove⟩, hm⟩ := hm
    rw [List.foldl_cons, ih _ hm, State.byte_writeB_one, lookup]
    by_cases hk : k = o
    · subst hk
      simp [lookup_keysAbove m habove (Nat.le_refl k)]
    · simp [hk, Ne.symm hk]

/-- A page that is given its content holds it, whatever it held before. -/
theorem State.byte_setPage (s : State) (a : Nat) {o : Nat} (ho : o < 65536) {m : SMap Byte}
    (hm : SMapWf (fun _ => (0 : Byte)) m = true) : (s.setPage a m).byte (a + o) = fetch 0 m o := by
  rw [State.setPage, State.byte_foldl_writeB _ a o hm, State.byte_zeroRange_inside _ (by omega) (by omega), fetch]

theorem State.fetch_pageBytes (s : State) (g : Nat) {o : Nat} (ho : o < 65536) :
    fetch 0 (s.pageBytes g) o = s.byte (65536 * g + o) := by
  have hlookup : ∀ m : SMap Byte, lookup ((m.filter (fun e => e.1 / 65536 = g)).map (fun e => (e.1 % 65536, e.2))) o =
      lookup m (65536 * g + o) := by
    intro m
    induction m with
    | nil => rfl
    | cons e m ih =>
      obtain ⟨k, v⟩ := e
      by_cases hpage : k / 65536 = g
      · have hkey : k % 65536 = o ↔ k = 65536 * g + o := by omega
        simp [hpage, lookup, ih, hkey]
      · have hkey : k ≠ 65536 * g + o := by omega
        simp [hpage, lookup, ih, hkey]
  rw [State.pageBytes, State.byte, fetch, hlookup, fetch]

/-! ### Page differences (R527, R529) -/

theorem lookup_eq_none_of_notMem {α : Type} {m : SMap α} {a : Nat} (h : a ∉ m.map Prod.fst) : lookup m a = none := by
  induction m with
  | nil => rfl
  | cons e m ih =>
    rw [List.map_cons, List.mem_cons, not_or] at h
    exact (if_neg (Ne.symm h.1)).trans (ih h.2)

/-- The XOR of two pages, byte by byte. -/
theorem fetch_xorPage (p q : SMap Byte) (o : Nat) : fetch 0 (xorPage p q) o = fetch 0 p o ^^^ fetch 0 q o := by
  have hkeys : xorPage p q =
      ((p ++ q).map Prod.fst).foldl (fun m k => store 0 m k (fetch 0 p k ^^^ fetch 0 q k)) [] := by
    rw [List.foldl_map, xorPage]
  rw [hkeys, fetch_foldl_store_key]
  split
  · rfl
  · next hnot =>
    rw [List.map_append, List.mem_append, not_or] at hnot
    rw [fetch, fetch, fetch, lookup_eq_none_of_notMem hnot.1, lookup_eq_none_of_notMem hnot.2]
    rfl

theorem length_encodeDiff_le (page : Nat) (d : SMap Byte) : (encodeDiff page d).length ≤ 65544 := by
  rw [encodeDiff]
  split
  · next hz =>
    simp only [record, List.length_append, length_leBytes, List.length_nil]
    omega
  · simp [record, length_leBytes, pageList]

end Sys2Proof.Machine
end

section
/-! PROOFS. Checkpoints (O38): requests, captures and page copies, pushed pages and digests at the buddy, confirmations, and drains. -/

namespace Sys2Proof.Machine

/-! ### CKP_Sn_CMD and requests (R515 to R517) -/

section
variable {s : State} {n : Nat} {v : Word}

theorem State.rd_ckpAsked (s : State) {n a : Nat} (v : Word) (h : a ≠ Reg.CKP_CMD n) : (ckpAsked s n v).rd a = s.rd a :=
  s.rd_wr_other _ h

/-- With GO set and no reserved bit, a write of CKP_Sn_CMD runs its operation. -/
theorem State.ckpCmdWrite_go (hgo : fieldOf v 31 31 = 1) (hrsv : fieldOf v 30 2 = 0) :
    s.ckpCmdWrite n v = match fieldOf v 1 0 with
      | 1 => (ckpAsked s n v).ckpCheckpoint n
      | 2 => (ckpAsked s n v).ckpRestore n
      | _ => (ckpAsked s n v).ckpStat n 0x01B0 := by
  have hgo : fieldOf v 31 31 ≠ 0 := by simp [hgo]
  exact (if_neg hgo).trans (if_neg (not_not.mpr hrsv))

theorem exec_ckpCheckpoint_pf0 (p : Nat) (hs : s.hasSlice n = true) (hgo : fieldOf v 31 31 = 1) (hrsv : fieldOf v 30 2 = 0)
    (hop : fieldOf v 1 0 = 1) : exec (.ckpCheckpoint (.pf0 p) n v) s = .next ((ckpAsked s n v).ckpCheckpoint n) := by
  refine congrArg Host.Outcome.next ((State.gated_pf0 hs p _).trans ?_)
  rw [State.ckpCmdWrite_go hgo hrsv, hop]
  rfl

theorem exec_ckpRestore_pf0 (p : Nat) (hs : s.hasSlice n = true) (hgo : fieldOf v 31 31 = 1) (hrsv : fieldOf v 30 2 = 0)
    (hop : fieldOf v 1 0 = 2) : exec (.ckpRestore (.pf0 p) n v) s = .next ((ckpAsked s n v).ckpRestore n) := by
  refine congrArg Host.Outcome.next ((State.gated_pf0 hs p _).trans ?_)
  rw [State.ckpCmdWrite_go hgo hrsv, hop]
  rfl

theorem State.not_ckpRoom_iff (s : State) (n b : Nat) :
    (!s.ckpRoom n b) = true ↔ b ∉ (s.ckpOf n).reqs ∧ 8 ≤ (s.ckpOf n).reqs.length := by
  simp [State.ckpRoom]

theorem State.ckpCheckpoint_asked (s : State) {n : Nat} (hn : n < 8) (v : Word) :
    let u := ckpAsked s n v
    let b := s.stepOf (Reg.CKP_ARG_LO n) (Reg.CKP_ARG_HI n)
    let c := s.ckpOf n
    u.ckpCheckpoint n =
      if s.rf (Reg.CKP_ARG_HI n) 31 16 ≠ 0 then u.ckpStat n 0x01B0
      else if b < s.stepCtr n + 2 then u.ckpStat n 0x01B1
      else if (s.job n).memb ≠ 1 then u.ckpStat n 0x02B0
      else if b ∉ c.reqs ∧ 8 ≤ c.reqs.length then u.ckpStat n 0x03B0
      else (ckpAskAll u n b).ckpStat n 0 := by
  intro u b c
  have hlo : u.rd (Reg.CKP_ARG_LO n) = s.rd (Reg.CKP_ARG_LO n) := s.rd_ckpAsked v (by simp [Reg.CKP_ARG_LO, Reg.CKP_CMD])
  have hhi : u.rd (Reg.CKP_ARG_HI n) = s.rd (Reg.CKP_ARG_HI n) := s.rd_ckpAsked v (by simp [Reg.CKP_ARG_HI, Reg.CKP_CMD])
  have harg : u.stepOf (Reg.CKP_ARG_LO n) (Reg.CKP_ARG_HI n) = b := by
    rw [State.stepOf, State.rf, hlo, hhi]
    rfl
  have hstep : u.stepCtr n = s.stepCtr n := State.stepCtr_of_rd
    (s.rd_ckpAsked v (by simp only [Reg.GLB_JOB_STEP_LO, Reg.CKP_CMD]; omega))
    (s.rd_ckpAsked v (by simp only [Reg.GLB_JOB_STEP_HI, Reg.CKP_CMD]; omega))
  rw [State.ckpCheckpoint, harg, hstep, State.rf, hhi]
  exact if_congr Iff.rfl rfl (if_congr Iff.rfl rfl (if_congr Iff.rfl rfl (if_congr (u.not_ckpRoom_iff n b) rfl rfl)))

theorem State.ckpRequestIn_open (hopen : (s.job n).isOpen = true) (b : Nat) :
    let c := s.ckpOf n
    s.ckpRequestIn n b =
      if b ∈ c.reqs then s.emit (.ckpRequestAck n b 0)
      else if c.reqs.length < 8 then (s.setCkp n { c with reqs := c.reqs ++ [b] }).emit (.ckpRequestAck n b 0)
      else s.emit (.ckpRequestAck n b 0x03B0) := by
  intro c
  rw [State.ckpRequestIn, hopen]
  by_cases hmem : b ∈ c.reqs
  · have hroom : s.ckpRoom n b = true := by simp [State.ckpRoom, c, hmem]
    have hrecord : s.ckpRecord n b = s := if_pos (List.contains_iff_mem.mpr hmem)
    simp [hroom, hrecord, hmem]
  · have hroom : s.ckpRoom n b = true ↔ c.reqs.length < 8 := by simp [State.ckpRoom, c, hmem]
    have hrecord : s.ckpRecord n b = s.setCkp n { c with reqs := c.reqs ++ [b] } := if_neg (by simpa using hmem)
    simp [hroom, hrecord, hmem]

end

/-! ### Captures and the background copy (R521 to R524) -/

theorem exec_checkpointCapture (s : State) (n : Nat) : exec (.checkpointCapture n) s = .next (
    if (s.ckpOf n).waiting = none then s else ((s.pendPages n).foldl (fun u e => u.capturePage e.1 e.2) s).endCopy n) := by
  refine congrArg Host.Outcome.next ?_
  cases (s.ckpOf n).waiting <;> rfl

theorem State.backgroundCopy_idle {s : State} {d : Nat} (h : (s.ckpOf (s.sliceOfDie d)).copying = none) : s.backgroundCopy d = s :=
  if_pos (Option.isNone_iff_eq_none.mpr h)

theorem State.backgroundCopy_page {s : State} {d g : Nat} (hcopying : (s.ckpOf (s.sliceOfDie d)).copying ≠ none)
    (hpage : (s.pendPages (s.sliceOfDie d)).find? (fun e => e.1 = d) = some (d, g)) :
    let u := s.capturePage d g
    s.backgroundCopy d = if u.pendPages (s.sliceOfDie d) = [] then u.endCopy (s.sliceOfDie d) else u := by
  intro u
  refine (if_neg (mt Option.isNone_iff_eq_none.mp hcopying)).trans ?_
  rw [hpage]

theorem exec_copyBeforeWrite {s : State} {a d : Nat} (h : s.statePage (a / 65536) = some d) :
    exec (.copyBeforeWrite a) s =
      .next (if fetch false s.pend (a / 65536) then (s.capturePage d (a / 65536)).count Ctr.CKP_CBW_STALL else s) := by
  have hexec : exec (.copyBeforeWrite a) s = execCopyBeforeWrite a s := rfl
  rw [hexec, execCopyBeforeWrite, h]

/-! ### Pushed pages (R527, R530) -/

section
variable {s : State} {n : Nat} {x : PushedPage}

/-- Slice `n` takes no push of the shard of page `x`, or has no such page. -/
def State.RefusesPage (s : State) (n : Nat) (x : PushedPage) : Prop :=
  (!s.hasSlice n) = true ∨ s.sliceState n = 6 ∨ 2 ≤ (s.job n).memb ∨ (!s.takesPush n x.part x.slice x.toState) = true ∨
    (!(s.diesOf n).contains x.die) = true ∨ s.regionSize x.die .state ≤ 65536 * x.page

theorem State.pageArrive_refused (h : s.RefusesPage n x) : s.pageArrive n x = s := if_pos h

theorem HeldImage.beginPush_complete {i : HeldImage} (h : i.cond = .complete) (step : Nat) (toState : Bool) :
    i.beginPush step toState = { i with cond := .mid, pushStep := step, covered := true, toState } := by
  rw [HeldImage.beginPush, if_neg (by simp [h]), h]

/-- The first difference of an empty landing area lands at its start. -/
theorem landRoom_empty {die len size : Nat} {i : HeldImage} (hempty : i.landed = []) (hlen : len ≤ size) :
    landRoom die len size 1 i = (i, some 0, 0) := by
  simp [landRoom, landFit, hempty, hlen]

/-- The content that a pushed page brings, by offset. -/
def pushedContent (x : PushedPage) : SMap Byte := x.bytes.foldl (fun m e => store 0 m (e.1 % 65536) e.2) []

theorem pushedContent_wf (x : PushedPage) : SMapWf (fun _ => (0 : Byte)) (pushedContent x) = true :=
  SMapWf_foldl_store (fun _ => 0) (fun e => e.1 % 65536) (fun _ e => e.2) x.bytes [] rfl

/-- What page `x` changes of the page whose place it takes (R527). -/
def State.pageDiff (s : State) (x : PushedPage) : SMap Byte :=
  xorPage (s.pageBytes (s.imagePage x.toState x.die x.page / 65536)) (pushedContent x)

/-- The image of the shard of `x` once its push has begun. -/
def State.pushedImage (s : State) (n : Nat) (x : PushedPage) : HeldImage :=
  { s.imageOf n x.part x.slice with cond := .mid, pushStep := x.step, covered := true, toState := x.toState }

/-- The difference of `x`, landed at the start of the landing area. -/
def State.firstLanded (s : State) (x : PushedPage) : Landed :=
  { die := x.die, page := x.page, step := x.step, off := 0, len := (encodeDiff x.page (s.pageDiff x)).length, diff := s.pageDiff x }

/-- Where the shard's image is complete and its landing area empty, the difference of a page lands and the page takes its content. -/
theorem State.pageArrive_lands (hok : ¬s.RefusesPage n x) (hcond : (s.imageOf n x.part x.slice).cond = .complete)
    (hempty : (s.imageOf n x.part x.slice).landed = []) (hdiff : s.pageDiff x ≠ []) (hsize : 65544 ≤ (s.landArea n x.die).2) :
    ∃ u : State, s.pageArrive n x =
      (u.setImage n (some { s.pushedImage n x with landed := (s.pushedImage n x).landed ++ [s.firstLanded x] })).setPage
        (s.imagePage x.toState x.die x.page) (pushedContent x) := by
  let enc := encodeDiff x.page (s.pageDiff x)
  have hbegin : (s.imageOf n x.part x.slice).beginPush x.step x.toState = s.pushedImage n x :=
    HeldImage.beginPush_complete hcond x.step x.toState
  have hroom : landRoom x.die enc.length (s.landArea n x.die).2 ((s.pushedImage n x).landed.length + 1) (s.pushedImage n x) =
      (s.pushedImage n x, some 0, 0) := by
    rw [show (s.pushedImage n x).landed = [] from hempty]
    exact landRoom_empty hempty ((length_encodeDiff_le x.page (s.pageDiff x)).trans hsize)
  have hmid : (s.pushedImage n x).cond ≠ .torn := nofun
  refine ⟨((s.countN Ctr.CKP_CHAIN_BREAK 0).writeB ((s.landArea n x.die).1 + 0) enc).countN Ctr.CKP_LANDED enc.length,
    (if_neg hok).trans ((if_neg hdiff).trans ?_)⟩
  simp only [enc, State.firstLanded, State.pageDiff, pushedContent] at hroom ⊢
  rw [hbegin, if_neg hmid, hroom]

theorem exec_pageArrive_lands {o : Nat} (hok : ¬s.RefusesPage n x) (hcond : (s.imageOf n x.part x.slice).cond = .complete)
    (hempty : (s.imageOf n x.part x.slice).landed = []) (hdiff : s.pageDiff x ≠ []) (hsize : 65544 ≤ (s.landArea n x.die).2)
    (ho : o < 65536) (halign : s.imagePage x.toState x.die x.page % 65536 = 0) :
    let a := s.imagePage x.toState x.die x.page
    ∃ t : State, exec (.pageArrive n x) s = .next t ∧ t.byte (a + o) = fetch 0 (pushedContent x) o ∧
      ∃ i ∈ ((t.ckpOf n).image).toList, i.cond = .mid ∧ i.pushStep = x.step ∧ i.covered = true ∧
        ∃ l ∈ i.landed, l.page = x.page ∧ l.die = x.die ∧ l.step = x.step ∧
          fetch 0 l.diff o = s.byte (a + o) ^^^ fetch 0 (pushedContent x) o := by
  intro a
  obtain ⟨u, hu⟩ := State.pageArrive_lands hok hcond hempty hdiff hsize
  refine ⟨s.pageArrive n x, rfl, ?_, { s.pushedImage n x with landed := (s.pushedImage n x).landed ++ [s.firstLanded x] }, ?_,
    rfl, rfl, rfl, s.firstLanded x, List.mem_append_right _ (List.mem_singleton_self _), rfl, rfl, rfl, ?_⟩
  · rw [hu, State.byte_setPage _ _ ho (pushedContent_wf x)]
  · rw [hu, (KeepsImages.setPage (.refl _)).image n, State.setImage, State.ckpOf_setCkp_same]
    exact Option.mem_toList.mpr rfl
  · have hpage : 65536 * (a / 65536) + o = a + o := by omega
    rw [State.firstLanded, State.pageDiff, fetch_xorPage, State.fetch_pageBytes _ _ ho, hpage]

end

/-! ### Digests and confirmations (R531, R532, R538) -/

section
variable {s : State} {n step : Nat}

theorem State.pushDigests_eq {part slice : Nat} (hs : s.hasSlice n = true) (hstate : s.sliceState n ≠ 6) (hmemb : (s.job n).memb < 2)
    (htakes : s.takesPush n part slice ((s.ckpOf n).image.any (fun i => i.toState)) = true) (ds : List (Nat × List Byte)) :
    let i := (s.imageOf n part slice).beginPush step (s.imageOf n part slice).toState
    let ok := (s.diesOf n).all (fun d => ds.contains (d, s.digestAt (s.imagePage i.toState d 0) (s.regionSize d .state)))
    let u := s.emit (.ckpAnswer part slice step ok)
    let rest := i.landed.filter (fun l => l.step ≠ step)
    s.pushDigests n part slice step ds =
      if ok then u.setImage n (some { i with cond := .complete, prev := if i.cond = .mid && i.covered then i.step else none, step := some step })
      else if i.cond = .mid && i.covered then (u.undoStep i step).setImage n (some { i with cond := .complete, landed := rest })
      else (if i.cond = .invalid then u else u.event Reg.CKP_EVT 2).setImage n (some { i with cond := .invalid, landed := rest }) := by
  intro i ok u rest
  have hok : ¬((!s.hasSlice n) = true ∨ s.sliceState n = 6 ∨ 2 ≤ (s.job n).memb ∨
      (!s.takesPush n part slice ((s.ckpOf n).image.any (fun i => i.toState))) = true) := by
    simp [hs, hstate, hmemb, htakes]
  refine (if_neg hok).trans ?_
  cases hmatch : ok with
  | true =>
    refine (if_pos hmatch).trans ?_
    simp only [u, hmatch]
    rfl
  | false =>
    refine (if_neg (Bool.eq_false_iff.mp hmatch)).trans ?_
    simp only [u, hmatch]
    rfl

theorem State.find_confirming {f : Confirm} (hconf : (s.ckpOf n).confirming = [f]) (hstep : f.step = step) :
    (s.ckpOf n).confirming.find? (fun f => f.step = step) = some f ∧ (s.ckpOf n).confirming.erase f = [] := by
  simp [hconf, hstep]

theorem State.ckpOf_of_ckp {s t : State} (h : t.ckp = s.ckp) (n : Nat) : t.ckpOf n = s.ckpOf n := by
  rw [State.ckpOf, State.ckpOf, h]

theorem exec_pushConfirm_ok {f : Confirm} (hconf : (s.ckpOf n).confirming = [f]) (hstep : f.step = step)
    (hpromo : (s.ckpOf n).promo = none) :
    let c := s.ckpOf n
    let u := (s.setCkp n { c with confirming := [], noBuddy := false }).emit (.shardRecord n (s.shardRecord n f))
    exec (.pushConfirm n step true) s = .next (((u.wr (Reg.CKP_LAST_LO n) (BitVec.ofNat 32 step)).wr (Reg.CKP_LAST_HI n)
      (BitVec.ofNat 32 (2 ^ 31 + step / 2 ^ 32 % 65536))).count Ctr.CKP_TAKEN) := by
  intro c u
  let t := ((u.wr (Reg.CKP_LAST_LO n) (BitVec.ofNat 32 step)).wr (Reg.CKP_LAST_HI n)
    (BitVec.ofNat 32 (2 ^ 31 + step / 2 ^ 32 % 65536))).count Ctr.CKP_TAKEN
  obtain ⟨hfind, herase⟩ := State.find_confirming hconf hstep
  have hconfirmed : s.pushConfirm n step true = t := by
    rw [State.pushConfirm, hfind]
    simp only [herase]
    rfl
  have hckp : t.ckp = (s.setCkp n { c with confirming := [], noBuddy := false }).ckp := by
    simp only [t, u, State.count_ckp, State.wr_ckp, State.emit_ckp]
  have hkept : (t.ckpOf n).promo = none := by
    rw [State.ckpOf_of_ckp hckp, State.ckpOf_setCkp_same]
    exact hpromo
  have hhand : t.proposeHandover n step = t := by rw [State.proposeHandover, hkept]
  refine congrArg Host.Outcome.next ?_
  rw [hconfirmed]
  exact (ite_congr rfl (fun _ => hhand) fun _ => rfl).trans (ite_self t)

theorem exec_pushConfirm_refused {f : Confirm} (hconf : (s.ckpOf n).confirming = [f]) (hstep : f.step = step) :
    let c := s.ckpOf n
    exec (.pushConfirm n step false) s =
      .next ((((s.setCkp n { c with confirming := [], full := true }).ckpStat n 0x0702).count Ctr.CKP_FAILED).event Reg.CKP_EVT 1) := by
  intro c
  obtain ⟨hfind, herase⟩ := State.find_confirming hconf hstep
  change Host.Outcome.next (s.pushConfirm n step false) = _
  rw [State.pushConfirm, hfind]
  simp only [State.pushRefused, herase]
  rfl

theorem exec_pushConfirm_none (hconf : (s.ckpOf n).confirming = []) (ok : Bool) : exec (.pushConfirm n step ok) s = .next s := by
  have hnone : s.pushConfirm n step ok = s := by
    rw [State.pushConfirm, hconf, List.find?_nil]
  refine congrArg Host.Outcome.next ?_
  rw [hnone, hconf, List.any_nil, Bool.and_false]
  rfl

end

/-! ### Drains (R535 to R537) -/

section
variable {s : State} {n : Nat} {r : List Byte} {i : HeldImage}

theorem State.depotDrain_none (h : (s.ckpOf n).image = none) (ok : Bool) : s.depotDrain n r ok = s := by
  rw [State.depotDrain, h]

/-- Nothing is drained of image `i` under shard record `r`: it is torn or invalid, drains are off, or the step is not one to drain. -/
def State.DrainsNothing (s : State) (n : Nat) (r : List Byte) (i : HeldImage) : Prop :=
  s.rf (Reg.CKP_CFG n) 16 16 = 0 ∨ i.cond = .invalid ∨ i.cond = .torn ∨ i.step.all (fun k => k < leAt r 8 6) = true ∨
    i.chain.any (fun k => leAt r 8 6 ≤ k) = true

theorem State.depotDrain_nothing (himage : (s.ckpOf n).image = some i) (h : s.DrainsNothing n r i) (ok : Bool) :
    s.depotDrain n r ok = s.setImage n (some { i with record := r }) := by
  rw [State.depotDrain, himage]
  exact if_pos h

theorem State.drains_newest (hcond : i.cond = .complete) (hstep : i.step = some (leAt r 8 6))
    (hcfg : s.rf (Reg.CKP_CFG n) 16 16 = 1) (hchain : i.chain = none) : ¬s.DrainsNothing n r i := by
  simp [State.DrainsNothing, hcond, hstep, hcfg, hchain]

/-- The last of two images that a slice is given counts. -/
theorem State.setImage_setImage (s : State) (n : Nat) (i : HeldImage) (j : Option HeldImage) :
    (s.setImage n (some i)).setImage n j = s.setImage n j := by
  have hne : { s.ckpOf n with image := some i } ≠ ({} : Ckp) := fun h => nomatch congrArg Ckp.image h
  rw [State.setImage, State.setImage, State.ckpOf_setCkp_same, State.setImage, State.setCkp, State.setCkp, State.setCkp,
    store_store _ _ _ hne]

theorem State.depotDrain_failed (himage : (s.ckpOf n).image = some i) (h : ¬s.DrainsNothing n r i) :
    s.depotDrain n r false =
      ((s.setImage n (some { i with record := r, broken := true })).ckpStat n 0x0703).event Reg.CKP_EVT 1 := by
  rw [State.depotDrain, himage, ← s.setImage_setImage n { i with record := r }]
  exact if_neg h

section
variable (s : State) (n m : Nat) (j : Option HeldImage)

@[simp] theorem State.rd_setImage (a : Nat) : (s.setImage n j).rd a = s.rd a := rfl
@[simp] theorem State.rf_setImage (a hi lo : Nat) : (s.setImage n j).rf a hi lo = s.rf a hi lo := rfl
@[simp] theorem State.diesOf_setImage : (s.setImage n j).diesOf m = s.diesOf m := rfl
@[simp] theorem State.imagePages_setImage (i : HeldImage) (d : Nat) : (s.setImage n j).imagePages i d = s.imagePages i d := rfl

end

/-- An object goes to the depot and is counted (R537). -/
def State.sendObject (s : State) (conn key : Nat) (o : List Byte) : State :=
  (s.emit (.drainObject conn key o)).countN Ctr.CKP_DRAINED o.length

/-- The FULL object of die `d` of image `i` at the step of shard record `r` (R537). -/
def State.fullObject (s : State) (i : HeldImage) (r : List Byte) (d : Nat) : List Byte :=
  drainBytes (leAt r 8 6) i.part i.slice d (leAt r 8 6) true (s.imagePages i d)

/-- Slice `n` has sent shard record `r` and the FULL objects of image `i` to its depot. -/
def State.fullSent (s : State) (n : Nat) (r : List Byte) (i : HeldImage) : State :=
  let conn := s.rf (Reg.CKP_DEPOT n) 17 0
  let key := (s.rd (Reg.CKP_DEPOT_KEY n)).toNat
  ((s.diesOf n).map (s.fullObject i r)).foldl (fun u o => u.sendObject conn key o)
    ((s.setImage n (some { i with record := r })).emit (.drainObject conn key r))

/-- Image `i` once the FULL objects at the step of shard record `r` are sent. -/
def HeldImage.drainedFull (i : HeldImage) (r : List Byte) : HeldImage :=
  { i with record := r, broken := false, drains := i.drains + 1, chain := some (leAt r 8 6),
           landed := i.landed.map (fun l => if l.step ≤ leAt r 8 6 then { l with drained := true } else l) }

theorem State.depotDrain_full (himage : (s.ckpOf n).image = some i) (hcond : i.cond = .complete) (hstep : i.step = some (leAt r 8 6))
    (hcfg : s.rf (Reg.CKP_CFG n) 16 16 = 1) (hchain : i.chain = none) (hbroken : i.broken = true) :
    s.depotDrain n r true =
      (((s.fullSent n r i).wr (Reg.CKP_DRAIN_LO n) (BitVec.ofNat 32 (leAt r 8 6))).wr (Reg.CKP_DRAIN_HI n)
        (BitVec.ofNat 32 (2 ^ 31 + leAt r 8 6 / 2 ^ 32 % 65536))).setImage n (some (i.drainedFull r)) := by
  have hdrains := State.drains_newest hcond hstep hcfg hchain
  have hfull (p : Bool) : (i.broken || p) = true := by rw [hbroken, Bool.true_or]
  have hnow : ¬(i.step ≠ some (leAt r 8 6) ∨ i.cond ≠ .complete) := by simp [hstep, hcond]
  rw [State.depotDrain, himage]
  refine (if_neg hdrains).trans ((if_neg (by decide)).trans ?_)
  simp only [hfull, true_and, if_neg hnow, if_true, State.rd_setImage, State.rf_setImage, State.diesOf_setImage,
    State.imagePages_setImage]
  rfl

theorem State.fullSent_out (s : State) (n : Nat) (r : List Byte) (i : HeldImage) :
    let conn := s.rf (Reg.CKP_DEPOT n) 17 0
    let key := (s.rd (Reg.CKP_DEPOT_KEY n)).toNat
    (s.fullSent n r i).out =
      (s.diesOf n).foldl (fun o d => o ++ [.drainObject conn key (s.fullObject i r d)]) (s.out ++ [.drainObject conn key r]) := by
  intro conn key
  rw [State.fullSent, List.foldl_map]
  exact (List.foldl_hom State.out fun _ _ => rfl).symm

theorem State.fullSent_mem (s : State) (n : Nat) (r : List Byte) (i : HeldImage) : (s.fullSent n r i).mem = s.mem := by
  have hsend (u : State) (conn key : Nat) (o : List Byte) : (u.sendObject conn key o).mem = u.mem := rfl
  exact State.foldl_same State.mem (fun u o => hsend u _ _ o) _ _

theorem exec_depotDrain_full (himage : (s.ckpOf n).image = some i) (hcond : i.cond = .complete) (hstep : i.step = some (leAt r 8 6))
    (hcfg : s.rf (Reg.CKP_CFG n) 16 16 = 1) (hchain : i.chain = none) (hbroken : i.broken = true) :
    let conn := s.rf (Reg.CKP_DEPOT n) 17 0
    let key := (s.rd (Reg.CKP_DEPOT_KEY n)).toNat
    ∃ t : State, exec (.depotDrain n r true) s = .next t ∧
      t.out = (s.diesOf n).foldl (fun o d => o ++ [.drainObject conn key (s.fullObject i r d)]) (s.out ++ [.drainObject conn key r]) ∧
      t.rd (Reg.CKP_DRAIN_LO n) = BitVec.ofNat 32 (leAt r 8 6) ∧ t.mem = s.mem ∧ (t.ckpOf n).image = some (i.drainedFull r) := by
  intro conn key
  have hne : Reg.CKP_DRAIN_LO n ≠ Reg.CKP_DRAIN_HI n := by simp [Reg.CKP_DRAIN_LO, Reg.CKP_DRAIN_HI]
  refine ⟨s.depotDrain n r true, rfl, ?_⟩
  rw [State.depotDrain_full himage hcond hstep hcfg hchain hbroken, State.rd_setImage, State.setImage]
  simp only [State.setCkp_out, State.setCkp_mem, State.wr_out, State.wr_mem]
  rw [State.ckpOf_setCkp_same, State.rd_wr_other _ _ hne, State.rd_wr_same]
  exact ⟨s.fullSent_out n r i, rfl, s.fullSent_mem n r i, rfl⟩

end

/-- Settles O38: the command word and its checks, captures and copies page by page, the page that lands, the digests' verdict, the
buddy's answer, and the drain that starts a chain. -/
theorem checkpoints : Obligations.Checkpoints := by
  refine ⟨?checkpoint, fun s n b hopen => congrArg _ (State.ckpRequestIn_open hopen b), exec_checkpointCapture,
    fun s d h => congrArg _ (State.backgroundCopy_idle h), fun s d g hcopying hpage => congrArg _ (State.backgroundCopy_page hcopying hpage),
    fun s a d h => exec_copyBeforeWrite h, ?refused, ?lands, ?digests,
    fun s n step f hconf hstep hpromo => exec_pushConfirm_ok hconf hstep hpromo,
    fun s n step f hconf hstep => exec_pushConfirm_refused hconf hstep, fun s n step ok hconf => exec_pushConfirm_none hconf ok,
    fun s n r ok h => congrArg _ (State.depotDrain_none h ok), ?nothing, ?full, ?failed⟩
  case checkpoint =>
    intro s p n v hs hgo hrsv hop u b c
    exact (exec_ckpCheckpoint_pf0 p hs hgo hrsv hop).trans (congrArg _ (s.ckpCheckpoint_asked (State.lt_eight_of_hasSlice hs) v))
  case refused =>
    intro s n x h
    refine congrArg _ (State.pageArrive_refused ?_)
    unfold State.RefusesPage
    rcases h with h | h | h | h <;> simp only [h, Bool.not_false, true_or, or_true]
  case lands =>
    intro s n o x hs hstate hmemb htakes hdie hregion hcond hempty _ _ ho a new hdiff harea halign
    have hok : ¬s.RefusesPage n x := by
      unfold State.RefusesPage
      simp only [hs, hstate, htakes, hdie, Bool.not_true, Bool.false_eq_true, false_or]
      omega
    exact exec_pageArrive_lands hok hcond hempty hdiff (by simp [harea]) ho halign
  case digests =>
    intro s n part slice step ds hs hstate hmemb htakes
    exact congrArg _ (State.pushDigests_eq hs (by simp [hstate]) hmemb htakes ds)
  case nothing =>
    intro s n r ok i himage h
    refine congrArg _ (State.depotDrain_nothing himage ?_ ok)
    rcases h with h | h | h | h | h <;> simp [State.DrainsNothing, h]
  case full => exact fun s n r i _ himage hcond hstep hcfg hchain hbroken => exec_depotDrain_full himage hcond hstep hcfg hchain hbroken
  case failed =>
    intro s n r i himage hcond hstep hcfg hchain
    exact congrArg _ (State.depotDrain_failed himage (State.drains_newest hcond hstep hcfg hchain))

end Sys2Proof.Machine
end

section
/-! PROOFS. Restores (O39): the plan of RESTORE where a command word leaves it, its signatures, and the end of a rebuild. -/

namespace Sys2Proof.Machine

/-! ### What addresses of a slice depend on (R399 to R408) -/

section
variable {s t : State}

/-- The registers of a die's memory stand below the checkpoint block. -/
theorem State.streamSeg_of_rd (h : ∀ b < 0x2000000, t.rd b = s.rd b) {d : Nat} (hd : d < 32) (g : Nat) :
    t.streamSeg d g = s.streamSeg d g := by
  rw [State.streamSeg, State.streamSeg, h _ (by simp only [Reg.MEM_HANK_MODE]; omega)]

theorem State.regionBase_of_rd (h : ∀ b < 0x2000000, t.rd b = s.rd b) {d : Nat} (hd : d < 32) (r : Region) :
    t.regionBase d r = s.regionBase d r := by
  have hpart : t.rd (Reg.MEM_PART d) = s.rd (Reg.MEM_PART d) := h _ (by simp only [Reg.MEM_PART]; omega)
  simp only [State.regionBase, State.regionSize, State.rf, hpart]

theorem State.inScratchHank_of_rd (h : ∀ b < 0x2000000, t.rd b = s.rd b) (n a k : Nat) :
    t.inScratchHank n a k = s.inScratchHank n a k := by
  have hslices : t.sliceCount = s.sliceCount := State.sliceCount_of_rd (h _ (by decide))
  rw [State.inScratchHank, State.inScratchHank]
  by_cases hin : hankBase 0 ≤ a ∧ a + k ≤ hankBase 4
  · refine congrArg _ ?_
    dsimp only
    rw [Bool.eq_iff_iff, List.all_eq_true, List.all_eq_true]
    refine forall₂_congr fun g hg => ?_
    have hdie : g / 16 < 32 := by
      rw [List.mem_range'_1] at hg
      simp only [hankBase] at hin hg
      omega
    rw [State.streamSeg_of_rd h hdie, State.sliceOfDie, hslices, State.sliceOfDie]
  · have hout : (Decidable.decide (hankBase 0 ≤ a) && Decidable.decide (a + k ≤ hankBase 4)) = false := by
      rw [← Bool.decide_and]
      exact decide_eq_false hin
    rw [hout, Bool.false_and, Bool.false_and, Bool.false_and]

/-- Which addresses are a slice's own depends on the registers below the checkpoint block alone. -/
theorem State.inSlice_of_rd (h : ∀ b < 0x2000000, t.rd b = s.rd b) (n a k : Nat) : t.inSlice n a k = s.inSlice n a k := by
  have hslices : t.sliceCount = s.sliceCount := State.sliceCount_of_rd (h _ (by decide))
  have hdies : t.diesOf n = s.diesOf n := by simp only [State.diesOf, State.sliceOfDie, hslices]
  have hvariant : t.variant = s.variant := by rw [State.variant, State.rf, h _ (by decide), State.variant, State.rf]
  have hhbm : t.inHbm n a k = s.inHbm n a k := by
    have hstacks : t.stacksOf = s.stacksOf := funext fun d => by rw [State.stacksOf, hvariant, State.stacksOf]
    rw [State.inHbm, State.inHbm, hdies, hstacks]
  by_cases hn : n < s.sliceCount
  · have hdie : n * (4 / s.sliceCount) < 32 :=
      calc n * (4 / s.sliceCount) ≤ 7 * 4 :=
            Nat.mul_le_mul (Nat.le_of_lt_succ (State.lt_eight_of_hasSlice (s := s) (decide_eq_true hn))) (Nat.div_le_self _ _)
        _ < 32 := by decide
    rw [State.inSlice, State.inSlice, State.hasSlice, State.hasSlice, State.hitsRmaTables, State.hitsRmaTables, hslices,
      State.regionBase_of_rd h hdie, hhbm, State.inScratchHank_of_rd h]
  · rw [State.inSlice, State.inSlice, State.hasSlice, State.hasSlice, hslices, decide_eq_false hn, Bool.false_and, Bool.false_and]

end

/-! ### RESTORE (R563, R564) -/

section
variable {n : Nat} (s : State) (v : Word)

theorem State.ckpRestore_asked (hn : n < 8) :
    let u := ckpAsked s n v
    let a := s.addrOf (Reg.CKP_SRC_LO n) (Reg.CKP_SRC_HI n)
    let r := s.bytes (a + 64) 3648
    let st := u.planStatus n a r
    let j := s.job n
    let c := s.ckpOf n
    let w := (u.setJob n { j with memb := 6 }).setCkp n { c with
      restoring := some (s.le a 6), planRecord := r, planDepot := s.le (a + 12) 1 = 1, verified := false,
      planKinds := (List.range (s.le (a + 8) 4)).map (fun i => s.le (a + 3712 + 16 * i + 12) 1) }
    u.ckpRestore n =
      if s.ckpAddrOk n a 3712 64 = false ∨ s.inSlice n a (3712 + 16 * s.le (a + 8) 4) = false then u.ckpStat n 0x01B2
      else if j.memb ≠ 0 ∧ j.memb ≠ 5 ∧ j.memb ≠ 6 then u.ckpStat n 0x02B0
      else if st ≠ 0 then u.restoreFail n st
      else (w.ckpStat n 0).wf (Reg.CKP_STAT n) 31 31 1 := by
  intro u a r st j c w
  have hrd : ∀ b < 0x2000000, u.rd b = s.rd b := fun b hb => s.rd_ckpAsked v (by simp only [Reg.CKP_CMD]; omega)
  have hsrc : u.addrOf (Reg.CKP_SRC_LO n) (Reg.CKP_SRC_HI n) = a :=
    State.addrOf_of_rd (s.rd_ckpAsked v (by simp [Reg.CKP_SRC_LO, Reg.CKP_CMD])) (s.rd_ckpAsked v (by simp [Reg.CKP_SRC_HI, Reg.CKP_CMD]))
  have hok : u.ckpAddrOk n a 3712 64 = s.ckpAddrOk n a 3712 64 := by
    rw [State.ckpAddrOk, State.ckpAddrOk, State.inSlice_of_rd hrd]
  have hplan : u.inSlice n a (3712 + 16 * u.le (a + 8) 4) = s.inSlice n a (3712 + 16 * s.le (a + 8) 4) := State.inSlice_of_rd hrd _ _ _
  rw [State.ckpRestore, hsrc]
  refine if_congr ?_ rfl rfl
  rw [hok, hplan, Bool.not_eq_true', Bool.not_eq_true']

end

/-! ### Signatures of the shard record (R564) -/

/-- A record whose status is not 0x04B0 carries both signatures of its part. -/
theorem State.planStatus_signed (s : State) (n a : Nat) (r : List Byte) :
    let key := if leAt r 18 2 = s.partId then s.aliasKey else Config.aliasKeys (leAt r 18 2)
    let m := signContext "MZ-CKP-RECORD" ++ r.take 256
    s.planStatus n a r = 0x04B0 ∨
      (Config.verifyEd key m ((r.drop 256).take 64) = true ∧ Config.verifyMl key m ((r.drop 320).take 3309) = true) := by
  intro key m
  by_cases hsigned : (Config.verifyEd key m ((r.drop 256).take 64) && Config.verifyMl key m ((r.drop 320).take 3309)) = true
  · exact .inr (Bool.and_eq_true_iff.mp hsigned)
  · exact .inl (if_pos (by rw [Bool.not_eq_true', Bool.eq_false_iff]; exact hsigned))

/-! ### The end of a rebuild (R565) -/

theorem State.restoreRebuild_eq (s : State) (n : Nat) (os : List (List Byte)) (im : List (Nat × List (Nat × Byte))) :
    let c := s.ckpOf n
    let ds := s.diesOf n
    let u := ds.foldl (fun u d => u.rebuildDie n d os im) s
    let bad := ((List.range ds.length).zip ds).filter (fun e =>
      u.digestAt (u.regionBase e.2 .state) (u.regionSize e.2 .state) ≠ (c.planRecord.drop (80 + 48 * e.1)).take 32)
    let uc := u.ckpOf n
    s.restoreRebuild n os im =
      if c.restoring = none ∨ c.verified = true ∨ (c.planDepot = true ∧ os.length ≠ c.planKinds.length) then s
      else if c.planDepot = true ∧ ds.any (fun d => objectsOf d os = [] || !chainOk none (objectsOf d os)) then s.restoreFail n 0x0705
      else if bad = [] then (u.setCkp n { uc with verified := true }).wf (Reg.CKP_STAT n) 31 31 0
      else (bad.foldl (fun w e => w.zeroRange (w.regionBase e.2 .state) (w.regionSize e.2 .state)) u).restoreFail n 0x0704 := by
  intro c ds u bad uc
  rfl

/-- Settles O39: the checks of RESTORE on the plan, the signatures of its record, and what a rebuild leaves. -/
theorem restores : Obligations.Restores := by
  refine ⟨?restore, fun s n a r => s.planStatus_signed n a r, fun s n os im => congrArg Host.Outcome.next (s.restoreRebuild_eq n os im)⟩
  intro s p n v hs hgo hrsv hop u a r st j c w
  exact (exec_ckpRestore_pf0 p hs hgo hrsv hop).trans (congrArg _ (s.ckpRestore_asked v (State.lt_eight_of_hasSlice hs)))

end Sys2Proof.Machine
end

section
/-! PROOFS. The status of a membership without a resume step (O40): the report that follows it may end a page copy, whose push then fails
over it. -/

namespace Sys2Proof.Machine

/-! ### A report that a waiting capture stalls (R522, R533, R860) -/

section
variable {s : State}

theorem State.capturePage_regs (s : State) (d g : Nat) : (s.capturePage d g).regs = s.regs := by
  have hsend : (s.sendPage d).regs = s.regs := by
    unfold State.sendPage
    split <;> rfl
  change (if (s.push.filter (fun p => p.die = d)).length < 64 then s else s.sendPage d).regs = s.regs
  split
  · rfl
  · exact hsend

/-- A page touched while a capture waits leaves the registers as the end of the running copy leaves them. -/
theorem State.touchPage_regs {g d n : Nat} (hpage : s.statePage g = some d) (hdie : s.sliceOfDie d = n)
    (hwait : (s.ckpOf n).waiting.isSome = true) : (s.touchPage g).regs = (s.drainCopy n).regs := by
  subst hdie
  have hcaptured (u : State) : (if fetch false u.pend g then (u.capturePage d g).count Ctr.CKP_CBW_STALL else u).regs = u.regs := by
    split
    · rw [State.count_regs, State.capturePage_regs]
    · rfl
  rw [State.touchPage, hpage]
  dsimp only
  rw [if_pos hwait, hcaptured]

/-- Where slice `n`'s next report record goes. -/
def State.reportAddr (s : State) (n : Nat) : Nat :=
  s.addrOf (Reg.SPN_RING_LO n) (Reg.SPN_RING_HI n) + 32 * ((s.rd (Reg.SPN_SEQ n)).toNat % 2 ^ fieldOf (s.rd (Reg.SPN_RING_CFG n)) 3 0)

/-- The part once slice `n`'s next report has its sequence number. -/
def State.reportNumbered (s : State) (n : Nat) : State :=
  s.wr (Reg.SPN_SEQ n) (BitVec.ofNat 32 ((s.rd (Reg.SPN_SEQ n)).toNat + 1))

theorem length_reportRecord (seq kind st time phase : Nat) (args : List Byte) :
    (record [(4, seq), (1, kind), (1, 0), (2, st), (8, time)] ++ fitBytes 15 args ++ leBytes 1 phase).length = 32 := by
  simp only [record, fitBytes, List.length_append, List.length_take, List.length_replicate, length_leBytes, List.length_nil]
  omega

/-- A report record that lies in one page changes the registers as the touch of that page does. -/
theorem State.report_regs {n g : Nat} (hring : bitOf (s.rd (Reg.SPN_RING_CFG n)).toNat 31 = true)
    (hpages : pagesOf (s.reportAddr n) 32 = [g]) (kind st time : Nat) (args : List Byte) :
    (s.report n kind st time args).regs = ((s.reportNumbered n).touchPage g).regs := by
  have hcfg : (s.reportNumbered n).rd (Reg.SPN_RING_CFG n) = s.rd (Reg.SPN_RING_CFG n) :=
    s.rd_wr_other _ (by simp [Reg.SPN_RING_CFG, Reg.SPN_SEQ])
  have hbase : (s.reportNumbered n).addrOf (Reg.SPN_RING_LO n) (Reg.SPN_RING_HI n) = s.addrOf (Reg.SPN_RING_LO n) (Reg.SPN_RING_HI n) :=
    State.addrOf_of_rd (s.rd_wr_other _ (by simp [Reg.SPN_RING_LO, Reg.SPN_SEQ])) (s.rd_wr_other _ (by simp [Reg.SPN_RING_HI, Reg.SPN_SEQ]))
  have hwrite (bs : List Byte) (hlen : bs.length = 32) :
      ((s.reportNumbered n).writeB (s.reportAddr n) bs).regs = ((s.reportNumbered n).touchPage g).regs := by
    rw [State.writeB, State.write, hlen, hpages]
    rfl
  rw [State.report]
  dsimp only
  rw [← State.reportNumbered, hcfg, if_pos hring, hbase, State.count_regs]
  exact hwrite _ (length_reportRecord _ _ _ _ _ _)

end

/-! ### A commit without a resume step (R548, R550) -/

/-- The part once slice `n` has taken membership `m`, which has no resume step, up to the report of RESTORE_NEEDED. -/
def State.restoreNeeded (s : State) (n : Nat) (m : Commit) : State :=
  let u := ((s.setCkp n { s.ckpOf n with committed := some m.epoch, prop := none, lead := none }).abandonColls n).feedsStop n
  let v := u.setJob n { u.job n with
    epoch := m.epoch, members := m.members.map (fun x => ⟨x.1, x.2⟩), memb := 5, waiting := false, atBoundary := false }
  (((m.members.foldl (fun w x => w.setSuspect x.1 false) v).writeMembership n m (s.stepCtr n) false).ckpStat n 0x0708).event Reg.CKP_EVT 6

theorem State.commitMembership_noResume {s : State} {n : Nat} {m : Commit} (hopen : (s.job n).isOpen = true)
    (hnew : (s.ckpOf n).committed ≠ some m.epoch) (hrestore : m.restore = false) (hmember : (s.partId, n) ∈ m.members)
    (hresume : m.resume = none) (copies : List (Nat × List (Nat × Byte))) :
    s.commitMembership n m copies = (s.restoreNeeded n m).reportStatus n 0x0708 0 := by
  have hsome : m.members ≠ [] := List.ne_nil_of_mem hmember
  have hnot : ¬((!(s.job n).isOpen) = true ∧ (s.ckpOf n).restoring.isNone = true ∨ (s.ckpOf n).committed = some m.epoch) := by
    simp [hopen, hnew]
  have hin : ¬(!m.members.contains (s.partId, n)) = true := by simpa using hmember
  have hplain : ¬(m.restore = true ∧ m.resume.isNone = true) := by simp [hrestore]
  rw [State.commitMembership]
  dsimp only
  rw [if_neg hnot, if_neg hplain, if_neg hsome, if_neg hin]
  simp only [hresume, Option.isSome_none, Bool.false_eq_true, and_false, if_false]
  rfl

/-- Slice 0 in HOLD: a checkpoint is being copied to its buddy, part 1, and the capture of the next one waits for it. The ring of reports
crosses the end of the state region, and its next slot is the last one, beyond. -/
def captureWaits : State :=
  { State.reset with
    regs := [(Reg.MEM_PART 0, 0x01010101), (Reg.CKP_MREC_LO 0, 0x40010000), (Reg.SPN_RING_LO 0, 0x3FFFF000),
      (Reg.SPN_RING_CFG 0, 0x80000008), (Reg.SPN_SEQ 0, 255)]
    jobs := [(0, { isOpen := true, memb := 2, members := [⟨0, 0⟩, ⟨1, 0⟩] })]
    pat := { buddies := [⟨0, 0, 1, 0⟩] }
    ckp := [(0, { warned := true, copying := some 1, waiting := some 2 })] }

/-- The commit of a membership without part 1, and without a resume step. -/
def buddyLost : Commit := ⟨1, none, 0, [], [], [(0, 0)], false, false⟩

/-- Refutes O40: the report of RESTORE_NEEDED is written to a page of the state region, which ends the copy that the capture waits for;
the capture finds no buddy, and its status 0x0701 (R533) replaces 0x0708. -/
theorem not_membershipAgreement : ¬ Obligations.MembershipAgreement := by
  rintro ⟨_, _, _, _, _, _, _, _, _, _, _, _, _, _, _, _, _, _, _, hneeded⟩
  obtain ⟨t, ht, _, _, _, hstat⟩ := hneeded captureWaits 0 buddyLost [] (by decide) (by decide) (by decide) rfl (by decide +kernel) rfl
  let u := captureWaits.restoreNeeded 0 buddyLost
  have hu : captureWaits.commitMembership 0 buddyLost [] = u.reportStatus 0 0x0708 0 :=
    State.commitMembership_noResume (by decide) (by decide) rfl (by decide +kernel) rfl []
  have hpages : pagesOf (u.reportAddr 0) 32 = [0x3FFF] := by decide +kernel
  have hreport : (u.reportStatus 0 0x0708 0).regs = ((u.reportNumbered 0).touchPage 0x3FFF).regs :=
    State.report_regs (by decide +kernel) hpages _ _ _ _
  have hpage : (u.reportNumbered 0).statePage 0x3FFF = some 0 := by decide +kernel
  have htouch : ((u.reportNumbered 0).touchPage 0x3FFF).regs = ((u.reportNumbered 0).drainCopy 0).regs :=
    State.touchPage_regs hpage (by decide +kernel) (by decide +kernel)
  have hfailed : ((u.reportNumbered 0).drainCopy 0).rf (Reg.CKP_STAT 0) 15 0 = 0x0701 := by decide +kernel
  have ht : t = u.reportStatus 0 0x0708 0 := (Host.Outcome.next.inj ht).symm.trans hu
  rw [ht, State.rf_of_regs (hreport.trans htouch), hfailed] at hstat
  exact absurd hstat (by decide)

end Sys2Proof.Machine
end
